-- ==== Sys2Proof/Word.lean ====
section
/-! DEFINITION. The word types of the part: registers are 32 bits wide and byte streams are bytes (R14). -/

namespace Sys2Proof

/-- A register word (R14). -/
abbrev Word := BitVec 32

/-- A byte of a memory, a packet or a record. -/
abbrev Byte := BitVec 8

end Sys2Proof
end

