-- ==== Sys2Proof/Syntax.lean ====
section
/-! DEFINITION. The commands of the part: `Instr` has one constructor for each row of the opcode table, with the
operands the command needs. The table gives a row no operands; each constructor's operands are what the command's own
rule makes it depend on: the port, block, context or slot it acts on, the value written, and what the environment
supplies (a measured signal, a received packet, a time that has or has not passed). -/

namespace Sys2Proof

/-- A BAR0 register: die slot, page and word within the page (R13, R14: accesses are aligned words). -/
structure RegAddr where
  die : Fin 8
  page : Fin 2048
  word : Fin 1024
deriving DecidableEq, Repr

/-- A block, by die slot and one of its pages. -/
structure BlockAddr where
  die : Fin 8
  page : Fin 2048
deriving DecidableEq, Repr

/-- A host access: a read, or a write of a word. -/
inductive Access where
  | read
  | write (v : Word)
deriving DecidableEq, Repr

/-- What MSIX_UNMASK does: unmask one vector of the table, or enable MSI-X for the function (R77). -/
inductive Unmask where
  | vector (v : Fin 64)
  | enable
deriving DecidableEq, Repr

/-- What an ST 352 payload identifier says, decoded as ST 352 defines it: its four bytes, and the raster, rate, sampling,
depth, level, link and colour they name (R88). -/
structure Pid where
  bytes : Word
  fmt : Nat
  frate : Fin 16
  psf : Bool
  sampling : Fin 4
  d12 : Bool
  levelB : Bool
  link : Fin 4
  /-- one link of a quad-link signal (R567) -/
  quad : Bool
  /-- colorimetry and transfer characteristic are given, not marked unknown (R89) -/
  colourKnown : Bool
  colorimetry : Fin 2
  transfer : Fin 4
deriving DecidableEq, Repr

/-- What a receiver measures of one received frame (R87). -/
structure FrameMeas where
  lines : Nat
  samples : Nat
  /-- frame period against the DCO, in picoseconds -/
  periodPs : Nat
  /-- the field bit of the TRS words: interlaced transport -/
  interlaced : Bool
  pid : Option Pid
  /-- a kind of signal that R81 lists as unsupported and the raster does not show -/
  unsupKind : Bool
  /-- on the first port of a bonded group: largest link skew (R96) -/
  skewNs : Nat
  /-- cable loss in 0.25 dB steps, and vertical eye opening in percent (R110) -/
  loss : Nat
  eye : Nat
deriving DecidableEq, Repr

/-- One received SDI line (R93). -/
structure RxLine where
  /-- line number of the SMPTE raster (R20) -/
  line : Nat
  /-- active line number (R565), none for a blanking line -/
  active : Option Nat
  crcErr : Bool
  /-- an EDH error flag of the field, on SD -/
  edhErr : Bool
  /-- missing or malformed TRS words in the line -/
  trsErr : Nat
  /-- the input pipe can take the line before the elastic buffer fills (R35) -/
  fits : Bool
  /-- the samples of the active picture -/
  payload : List Nat
deriving DecidableEq, Repr

/-- An ST 291 packet as received (R99). -/
structure AncPkt where
  did : Byte
  sdid : Byte
  type1 : Bool
  /-- line it was received on, in VANC or HANC -/
  line : Nat
  vanc : Bool
  data : List Byte
deriving DecidableEq, Repr

/-- What the timing core measures of a candidate: frequency against the DCO in ppb, jitter estimate in ns, and the
phase of its latest mark against the DCO time scale in ps (R120, R130). -/
structure CandMeas where
  freq : Int
  jit : Nat
  phase : Int
deriving DecidableEq, Repr

/-- Why a candidate loses qualification (R120): the 100 ms average of its frequency against the DCO in ppb, a jitter
estimate that has been above the limit for 1 s, or its quality level. -/
inductive QualLoss where
  | freq (ppb : Int)
  | jitter (ns : Nat)
  | level
deriving DecidableEq, Repr

/-- Why a Finano link direction fails (R537). -/
inductive LinkFail where
  | noHandshake
  | uncorrectable
deriving DecidableEq, Repr

/-- A destination of the Floor that selects frames: an output or an IP transmit context (R158). -/
inductive Dest where
  | output (g : Fin 96)
  | ip (c : Fin 1024)
deriving DecidableEq, Repr

/-- A video line on a Finano link, by its header: the stream tag (source code), line number and frame count (R24, R25). `stored`: a line to
a Sheaf that Granary reads from memory or from a converter; the others are cut-through. What its payload and flags are follows from the
state. -/
structure FinLine where
  tag : Nat
  line : Nat
  frame : Nat
  stored : Bool
deriving DecidableEq, Repr

/-- A Silo ring or store (R192, R193). -/
inductive RingId where
  | source (code : Fin 0x500)
  | store (i : Fin 512)
deriving DecidableEq, Repr

/-- Arrays of a composer (R248). -/
structure CompUe where
  array : Fin 12
  index : Fin 512
  /-- for a coefficient table: the phase; for a line buffer: the source line -/
  unit : Nat
  /-- the coefficient table hit is the vertical one -/
  vertical : Bool
deriving DecidableEq, Repr

/-- An output frame of a converter context (R268, R273): the instant E_k in ns at which its first active line starts at the destination, and
the confidence that motion estimation gives a pair of pictures not estimated before, which the spec does not define to the bit (R275). -/
structure ConvFrame where
  start : Int
  conf : Fin 256
deriving DecidableEq, Repr

/-- The table a LUT port access addresses is in LUT_ADDR; a coefficient word is named by filter, phase and word. -/
structure CoefAddr where
  layer : Fin 2
  vertical : Bool
  phase : Fin 64
  word : Fin 4
deriving DecidableEq, Repr

/-- Rate of an audio group as its control packet gives it (R296, R297). -/
inductive AudRate where
  | sync48
  | async48
  | rate96
  | unsupported
deriving DecidableEq, Repr

/-- An audio sample: its audio bits as a number, and the bits that come with it beside them: validity, user, channel status, as
its carrier gives them (R293, R300). -/
structure AudSmp where
  value : Int
  label : Nat
deriving DecidableEq, Repr

/-- What the de-embedder takes (R297): an audio control packet, or an audio data packet with the outcome of its
error-correction code (0 good, 1 correctable, 2 uncorrectable) and the samples of the group's four channels; `short`: samples
of 20 bits, of SD without extended data packets (R296). -/
inductive AudPkt where
  | control (group : Fin 8) (rate : AudRate)
  | data (group : Fin 8) (ecc : Fin 3) (short : Bool) (samples : List AudSmp)
deriving DecidableEq, Repr

/-- One system sample (R292): source codes whose phase moves by a whole sample, with true for a repeat (R302); contexts
whose long tap reads poisoned data, and contexts of which a table word is uncorrectable (R314). -/
structure AudTick where
  slips : List (Nat × Bool)
  poisoned : List Nat
  tableUe : List Nat
deriving DecidableEq, Repr

/-- An Ethernet frame from its destination MAC address to the byte before the FCS, whether its FCS was good, and the
ingress instant on the scale of the TS registers in ns (R327, R350). `fits`: the elastic buffer could take it (R34). -/
structure EthFrame where
  bytes : List Byte
  fcsOk : Bool
  ts : Nat
  fits : Bool
deriving DecidableEq, Repr

/-- The data set an Announce message carries, as the default best master clock algorithm compares it (R349). -/
structure Announce where
  gm : Nat
  prio1 : Byte
  cls : Byte
  accuracy : Byte
  variance : BitVec 16
  prio2 : Byte
  steps : Nat
  /-- sender: clock identity and port number -/
  sender : Nat
  port : Nat
deriving DecidableEq, Repr

/-- A PTP message for the port's instance, with times on T in ns after correction (R348 to R350). -/
inductive PtpMsg where
  | announce (domain : Byte) (a : Announce)
  | sync (domain : Byte) (sender port seq : Nat) (twoStep : Bool) (t1 t2 : Int)
  | followUp (domain : Byte) (sender port seq : Nat) (t1 : Int)
  | delayResp (domain : Byte) (sender port seq : Nat) (t4 : Int)
deriving DecidableEq, Repr

/-- Who reads a stripe (R380). -/
inductive MemReader where
  /-- a control-bus master through T1 -/
  | control
  /-- a read context of the Floor or the reader of a source ring -/
  | video
  /-- a converter engine -/
  | engine
  /-- the long tap of an audio route context -/
  | longTap (ctx : Fin 16384)
deriving DecidableEq, Repr

/-- A fault that strikes stored bits before an access: channel, word of the burst (0–7) and the bits inverted among data
bits 0–63 and check bits 64–71 (R374). -/
structure MemHit where
  channel : Fin 12
  word : Fin 8
  flips : BitVec 72
deriving DecidableEq, Repr

/-- An uncorrectable word of a controller queue or of the poison table (R390). -/
inductive QueueUe where
  | command (c : Fin 12) (index : Fin 512)
  | readData (c : Fin 12) (index : Fin 512)
  | writeData (c : Fin 12) (index : Fin 512) (stripe : Nat)
  | poison (entry : Fin 4096)
deriving DecidableEq, Repr

/-- What a channel issues at its periodic refresh (R372). -/
inductive Refresh where
  | refresh
  | zqcs
  | readCal
deriving DecidableEq, Repr

/-- One 128-bit beat with its byte strobes (R401). -/
structure Beat where
  data : BitVec 128
  strb : BitVec 16
deriving DecidableEq, Repr

/-- A transaction as a master presents it (R401): `len` beats; a write carries them. `qos` is used for M3 only (R397). -/
structure BusReq where
  master : Fin 8
  id : Fin 32
  write : Bool
  addr : BitVec 40
  len : Fin 17
  beats : List Beat
  qos : Fin 16
  lock : Bool
deriving DecidableEq, Repr

/-- An uncorrectable word of the matrix (R416): a request or a response of a master's transaction, or the ID table of a
master. -/
inductive BmUe where
  | request (m : Fin 8) (id : Fin 32) (index : Fin 512)
  | response (m : Fin 8) (id : Fin 32) (index : Fin 512)
  | idTable (m : Fin 8) (index : Fin 512)
deriving DecidableEq, Repr

/-- A key-store array with an uncorrectable word (R424). -/
inductive KsUe where
  | value (slot : Fin 64)
  | attr (slot : Fin 64)
  | root (slot : Fin 64)
deriving DecidableEq, Repr

/-- A weak item that a margin read finds (R461): a record by its flash address, a cell of a counter, the strip header of a
counter, the header of a record-area sector, or a fault-log or raw page. -/
inductive Weak where
  | record (addr : Fin 0x100000)
  | cell (counter : Fin 16) (cell : Fin 1008)
  | strip (counter : Fin 16)
  | sector (s : Fin 16)
  | page (p : Fin 16384)
deriving DecidableEq, Repr

/-- A flash fault (R466): a program (or, with `erase`, an erase) of a page that fails its retry, an uncorrectable word of the
gather buffer, of the page buffer or of the record index. -/
inductive FlashUe where
  | array (page : Fin 16384) (erase : Bool)
  | gather (word : Fin 512)
  | pageBuffer (word : Fin 512)
  | index (word : Fin 512)
deriving DecidableEq, Repr

/-- How the page buffer is written (R453, R454): the word written to RAW_DATA, or bytes written at an offset of the T2
window. -/
inductive BufWrite where
  | data (v : Word)
  | window (offset : Fin 0x3E0000) (bytes : List Byte)
deriving DecidableEq, Repr

/-- What Yumen measures on one input over a second (R473): mean squares of the A-, C- and Z-weighted signals relative to
(20 µPa)², times 10⁶; highest LAF, LAS, LCpeak and LZpeak in 0.01 dB; whether a sample reached full scale and whether the
pair is open or shorted. -/
structure YmMeas where
  msA : Nat
  msC : Nat
  msZ : Nat
  laf : Nat
  las : Nat
  lcPeak : Nat
  lzPeak : Nat
  overload : Bool
  fault : Bool
deriving DecidableEq, Repr

/-- A word of Yumen's flash or SRAM that is at fault (R500), by the low nine bits of its address. -/
inductive YmUe where
  | flash (index : Fin 512)
  | sram (index : Fin 512)
deriving DecidableEq, Repr

/-- What goes wrong in a second of Yumen (R500): how many signatures of the S-record fail their self-check (0, 1, or 2 for
both), and a word of flash or SRAM found at fault. -/
structure YmFaults where
  signs : Fin 3
  word : Option YmUe
deriving DecidableEq, Repr

/-- A slack monitor (R513): Granary pipeline k, input pipe or output pipe of port g, or a Finano direction as its Sheaf
sees it. -/
inductive SlackMon where
  | granary (k : Fin 26)
  | input (g : Fin 96)
  | output (g : Fin 96)
  | finano (sheaf : Fin 8) (toGranary : Bool)
deriving DecidableEq, Repr

/-- How a DMA job ends (R504): bytes written with an OK response, the response that ended it, and, for a job that reads host
memory, the bytes read there. -/
structure DmaEnd where
  pos : Nat
  resp : Fin 4
  hostData : List Byte
deriving DecidableEq, Repr

/-- How the writing of an image ends (R509, R510). -/
inductive UpdEnd where
  | ok
  | blockFail
  | digestFail
  | qspiFault
deriving DecidableEq, Repr

/-- An image in a QSPI slot as the boot ROM reads it (R505, R506): bytes 0–287 of its header block, and whether every block
tag verifies and the payload digest matches. -/
structure Image where
  header : List Byte
  tagsOk : Bool
  digestOk : Bool
deriving DecidableEq, Repr

/-- What a start finds (R530): the images in slots A and B, the narrowest eyes of each memory channel (read, write, Vref),
differing words of the self-test by channel and its duration in ms, links of each Sheaf that pass the test pattern (four bits
for each of Sheaf 1–6, as FL_LINKS), weak flash items, the pulses each domain has given by the end, and the milliseconds of the time scale by then. -/
structure Boot where
  slotA : Image
  slotB : Image
  eyes : List (Nat × Nat × Nat)
  mismatch : List Nat
  testMs : Nat
  links : Nat
  weak : List Weak
  pulses : List Nat
  ms : Nat
deriving DecidableEq, Repr


/-- The commands, in the order of the opcode table's chapters. -/
inductive Instr where
  /-- HOST_ACCESS_ABSENT_DIE (R5): a host access in the range of die slot `a.die`. -/
  | hostAccessAbsentDie (a : RegAddr) (acc : Access)
  /-- HOST_WRITE_SLOT7 (R13): a host write to a page and word of die slot 7. -/
  | hostWriteSlot7 (page : Fin 2048) (word : Fin 1024) (v : Word)
  /-- REGISTER_WRITE (R15): a write by the host, or, with `m1`, by bus master M1. -/
  | registerWrite (m1 : Bool) (a : RegAddr) (v : Word)
  /-- ERR_LOC_READ (R49). -/
  | errLocRead (b : BlockAddr)
  /-- SHADOW_WRITE (R52). -/
  | shadowWrite (a : RegAddr) (v : Word)
  /-- STRUCTURAL_WRITE (R68). -/
  | structuralWrite (a : RegAddr) (v : Word)
  /-- COMMIT_GROUP_WRITE (R53): a write of COMMIT with ARM = 0. -/
  | commitGroupWrite (b : BlockAddr) (group : Fin 64)
  /-- COMMIT_ARM (R49): a write of COMMIT with ARM = 1; `usToCutoff` is the time to the next cut-off of the group's
  domain. -/
  | commitArm (b : BlockAddr) (group : Fin 64) (usToCutoff : Nat)
  /-- CG_ARM (R59); `usToCutoff` as for commitArm. -/
  | cgArm (group : Fin 64) (usToCutoff : Nat)
  /-- CG_ABORT (R60). -/
  | cgAbort (group : Fin 64)
  /-- CG_CFG_WRITE (R65). -/
  | cgCfgWrite (group : Fin 64) (v : Word)
  /-- TAKE_CUTOFF (R55): the take cut-off of the next frame of a domain. -/
  | takeCutoff (domain : Fin 8)
  /-- TAKE_MESSAGE (R56): the take message of a group reaches the die in a slot. -/
  | takeMessage (group : Fin 64) (die : Fin 8)
  /-- DOMAIN_FRAME_PULSE (R145): time of the pulse less the alignment point of R148 nearest to it, in fs. -/
  | domainFramePulse (domain : Fin 8) (fromPoint : Int)
  /-- TAKE_APPLY (R57): the take line of output `g` in the current frame of its domain. -/
  | takeApply (g : Fin 96)
  /-- CTRL_RUN_CLEAR (R67). -/
  | ctrlRunClear (b : BlockAddr)
  /-- BLOCK_STOPPED (R67): the end of a requested stop. -/
  | blockStopped (b : BlockAddr)
  /-- CTRL_RUN_SET (R108). -/
  | ctrlRunSet (b : BlockAddr)
  /-- OUTPUT_START (R67): the frame pulse at which output `g` would start. -/
  | outputStart (g : Fin 96)
  /-- STOP_MODE_WRITE (R107): the value written to CTRL.STOP_MODE of output `g`. -/
  | stopModeWrite (g : Fin 96) (mode : Fin 4)
  /-- SOFT_RESET (R49). -/
  | softReset (b : BlockAddr)
  /-- EV_STICKY_CLEAR (R49): the bits written as 1. -/
  | evStickyClear (b : BlockAddr) (bits : Word)
  /-- EV_FORCE (R78): the bits written as 1. -/
  | evForce (b : BlockAddr) (bits : Word)
  /-- YUMEN_STICKY_CLEAR (R73): the bits written as 1. -/
  | yumenStickyClear (bits : BitVec 16)
  /-- EVENT_MESSAGE (R40): the oldest event on its way from a die reaches the controller. -/
  | eventMessage (die : Fin 8)
  /-- MSIX_HOLDOFF_EXPIRY (R76). -/
  | msixHoldoffExpiry (v : Fin 64)
  /-- VEC_ACK (R76). -/
  | vecAck (v : Fin 64)
  /-- MSIX_UNMASK (R77). -/
  | msixUnmask (u : Unmask)
  /-- CARRIER_LOSS (R86); `midLine`: the active line in progress (R90). -/
  | carrierLoss (g : Fin 96) (midLine : Option Nat)
  /-- SIGNAL_DETECT (R86). -/
  | signalDetect (g : Fin 96)
  /-- CDR_LOCK (R86): the rate class found (R80) and whether it is the 1/1.001 rate. -/
  | cdrLock (g : Fin 96) (rateClass : Fin 6) (r1001 : Bool)
  /-- CDR_SEARCH_TIMEOUT (R86). -/
  | cdrSearchTimeout (g : Fin 96)
  /-- CDR_LOSS (R90). -/
  | cdrLoss (g : Fin 96) (midLine : Option Nat)
  /-- EAV_TIMEOUT (R90). -/
  | eavTimeout (g : Fin 96) (midLine : Option Nat)
  /-- SDI_RX_FRAME (R87): a frame of an input ends and is measured; the next begins. -/
  | sdiRxFrame (g : Fin 96) (m : FrameMeas)
  /-- FMT_LOCK (R87). -/
  | fmtLock (g : Fin 96)
  /-- QUAD_GROUP_LOCK (R97): bonded input group by its first port, 4 × `q`. -/
  | quadGroupLock (q : Fin 24)
  /-- IN_OVERRIDE_WRITE (R89). -/
  | inOverrideWrite (g : Fin 96) (v : Word)
  /-- SDI_RX_LINE (R93). -/
  | sdiRxLine (g : Fin 96) (l : RxLine)
  /-- ANC_PACKET_RECEIVED (R99): with the outcome of the checksum. -/
  | ancPacketReceived (g : Fin 96) (checksumOk : Bool) (p : AncPkt)
  /-- OUTPUT_FRAME_START (R103): instant `t`, in ns on the scale of entry instants (R180), at which the frame's first active
  line in time starts; the words of room the output format leaves in each HANC and each VANC line. -/
  | outputFrameStart (g : Fin 96) (t : Int) (hancRoom vancRoom : Nat)
  /-- OUTPUT_LINE_START (R36): active line `line`, or for a `line` of at least the H active lines of the format the frame line
  `line` − H + 1 where it carries no active picture; `complete`: the elastic buffer holds a complete line; `late`: the embedded
  channels whose sample has not arrived (R298). -/
  | outputLineStart (g : Fin 96) (line : Nat) (complete : Bool) (late : List (Fin 32))
  /-- DRIVER_OPEN_SHORT (R113): the driver monitor finds, or no longer finds, an open or shorted output. -/
  | driverOpenShort (g : Fin 96) (faulty : Bool)
  /-- RQP_AGE_EXPIRY (R121): candidate 12 + `c`. -/
  | rqpAgeExpiry (c : Fin 4)
  /-- CAND_ACTIVE (R119): the frame-rate family determined, for a candidate with frame marks; `khz96`: a word clock of
  96 kHz (R117). -/
  | candActive (c : Fin 16) (family : Option (Fin 5)) (khz96 : Bool)
  /-- CAND_LOSS (R119). -/
  | candLoss (c : Fin 16)
  /-- CAND_QUALIFY (R120): the conditions have held for 1 s. -/
  | candQualify (c : Fin 16) (m : CandMeas)
  /-- CAND_DISQUALIFY (R120). -/
  | candDisqualify (c : Fin 16) (why : QualLoss)
  /-- WTR_EXPIRY (R127). -/
  | wtrExpiry (c : Fin 16)
  /-- SELECT_HOLD_EXPIRY (R128). -/
  | selectHoldExpiry
  /-- SELECT_EVALUATION (R128): the measurements of the candidates, by index. -/
  | selectEvaluation (m : List CandMeas)
  /-- LOOP_UPDATE (R139): phase of the selected candidate's latest mark against the DCO time scale, in ps. -/
  | loopUpdate (phase : Int)
  /-- ACQUIRE_DONE (R140). -/
  | acquireDone
  /-- PULL_COMPLETE (R131). -/
  | pullComplete
  /-- BANDWIDTH_HALVING (R140). -/
  | bandwidthHalving
  /-- HISTORY_SAMPLE (R135). -/
  | historySample
  /-- HOLDOVER_PREDICT (R137). -/
  | holdoverPredict
  /-- DCO_TABLE_LEARN (R136). -/
  | dcoTableLearn
  /-- DISAGREE_DETECT (R133): the pair has differed for 5 s. -/
  | disagreeDetect (a b : Fin 16)
  /-- TS_SET_ARM (R116). -/
  | tsSetArm
  /-- TS_SET_APPLY (R116). -/
  | tsSetApply
  /-- TS_SEC_READ (R152): nanoseconds since the last loop update. -/
  | tsSecRead (ns : Fin 1000000)
  /-- TD_RUN_WRITE (R146). -/
  | tdRunWrite (d : Fin 8) (run : Bool)
  /-- DOMAIN_START (R145): the first target instant of a started domain. -/
  | domainStart (d : Fin 8)
  /-- TD_REALIGN_GO (R150): the MODE written with GO. -/
  | tdRealignGo (d : Fin 8) (jump : Bool)
  /-- REALIGN_JUMP (R150): the end of the named frame. -/
  | realignJump (d : Fin 8)
  /-- REALIGN_SLOPE_DONE (R150). -/
  | realignSlopeDone (d : Fin 8)
  /-- FINANO_LINE (R25): a line crosses a link of Sheaf `sheaf`; `toSheaf` is its direction; `ue`: one of its tokens
  cannot be corrected (R537). -/
  | finanoLine (sheaf : Fin 8) (toSheaf : Bool) (l : FinLine) (ue : Bool)
  /-- ROUTE_CFG_WRITE (R162): table 0 layer, 1 IP transmit, 2 store. -/
  | routeCfgWrite (table : Fin 3) (entry : Fin 1024) (v : Word)
  /-- WINDOW_MEASURE (R167): for SDI source `src` against a destination: start of the destination's active line 0 less
  start of the source's, in picoseconds, for field 1 (or the frame) and for field 2. -/
  | windowMeasure (src : Fin 96) (dst : Dest) (lead0 lead1 : Int)
  /-- ROUTE_FALLBACK (R168), at the next switching line: table 0 layer, 1 IP transmit. -/
  | routeFallback (table : Fin 2) (entry : Fin 1024)
  /-- ROUTE_RETURN (R169), at the next switching line. -/
  | routeReturn (table : Fin 2) (entry : Fin 1024)
  /-- FL_REEXAMINE (R169): the domains written as 1. -/
  | flReexamine (domains : BitVec 8)
  /-- ROUTE_SOURCE_RESUME (R172): the first switching line after the source's first complete frame. -/
  | routeSourceResume (table : Fin 3) (entry : Fin 1024)
  /-- FINANO_LINK_FAIL (R537): link 0 or 1 of a direction of a Sheaf. -/
  | finanoLinkFail (sheaf : Fin 8) (toSheaf : Bool) (link : Fin 2) (why : LinkFail)
  /-- LINK_MOVE (R30). -/
  | linkMove (sheaf : Fin 8) (toSheaf : Bool)
  /-- FINANO_LINK_TEST (R537): the number of uncorrectable tokens among the 1,024 of the pattern. -/
  | finanoLinkTest (sheaf : Fin 8) (toSheaf : Bool) (link : Fin 2) (uncorrectable : Nat)
  /-- FINANO_LINK_RESTORE (R537): 1 s of complete handshakes has passed after the test. -/
  | finanoLinkRestore (sheaf : Fin 8) (toSheaf : Bool) (link : Fin 2)
  /-- RING_FRAME_START (R200): the first active line of a frame arrives; `entry`: the frame's entry instant in ns (R180). -/
  | ringFrameStart (r : RingId) (entry : Int)
  /-- RING_FRAME_COMPLETE (R200): the last active line of the frame is written; `cut`: the frame was cut short instead. -/
  | ringFrameComplete (r : RingId) (cut : Bool)
  /-- LOSS_HIDE (R205): layer `k` of output `g`. -/
  | lossHide (g : Fin 96) (k : Fin 4)
  /-- BAR2_WRITE (R197): bytes written at an offset of the window. -/
  | bar2Write (offset : BitVec 32) (data : List Byte)
  /-- BAR2_READ (R197). -/
  | bar2Read (offset : BitVec 32)
  /-- COMBINE_TIMEOUT (R198): 20 µs have passed since the last byte of the entry of a stripe. -/
  | combineTimeout (bin : Fin 0x40000) (stripe : Fin 3276)
  /-- METER_WINDOW (R199): a 10 ms window of a surface ends. -/
  | meterWindow (store : Fin 512)
  /-- COEF_WRITE (R232). -/
  | coefWrite (g : Fin 96) (c : CoefAddr) (v : Word)
  /-- COEF_RESTORE (R230): bit 0 RESTORE_V1, bit 1 RESTORE_V2. -/
  | coefRestore (g : Fin 96) (layers : Fin 4)
  /-- LUT_WRITE (R241): the value written to LUT_DATA1. -/
  | lutWrite (g : Fin 96) (v : Word)
  /-- LUT_READ (R257): a read of LUT_DATA1. -/
  | lutRead (g : Fin 96)
  /-- COMPOSER_UE (R248). -/
  | composerUe (g : Fin 96) (u : CompUe)
  /-- FENCE_DEADLINE (R250): the flip deadline of G1 (`k = false`) or G2 of output `g`. -/
  | fenceDeadline (g : Fin 96) (k : Bool)
  /-- FENCE_DOORBELL (R253): a write to FENCE_DOORBELL_G1 or _G2. -/
  | fenceDoorbell (g : Fin 96) (k : Bool) (v : Word)
  /-- CONVERTER_FRAME (R273): one output frame of the context in slot `c` of engine `e`. -/
  | converterFrame (e : Fin 8) (c : Fin 2) (f : ConvFrame)
  /-- FRAME_LATE (R276). -/
  | frameLate (e : Fin 8) (c : Fin 2)
  /-- CADENCE_PICTURE (R277): new source picture `i` of the context in slot `c` of engine `e`, of an interlaced source its
  field `k`, is compared. -/
  | cadencePicture (e : Fin 8) (c : Fin 2) (i k : Nat)
  /-- ENGINE_FAULT (R283). -/
  | engineFault (e : Fin 8) (array : Fin 3) (index : Fin 512)
  /-- AUDIO_SAMPLE (R294). -/
  | audioSample (t : AudTick)
  /-- AUDIO_PACKET_RECEIVED (R297). -/
  | audioPacketReceived (g : Fin 96) (p : AudPkt)
  /-- DEEMB_RATE_MEASURE (R297): offset against the system rate in ppb. -/
  | deembRateMeasure (g : Fin 96) (ppb : Int)
  /-- ASRC_LOCK (R302): offset of the source from the system rate in ppb. -/
  | asrcLock (k : Fin 96) (ppb : Int)
  /-- ASRC_UNLOCK (R302): the offset, none when the source is lost. -/
  | asrcUnlock (k : Fin 96) (ppb : Option Int)
  /-- AUDIO_SWITCH (R305): the switch instant of a destination. -/
  | audioSwitch (d : Fin 4096)
  /-- AUTO_DELAY_UPDATE (R309): a destination frame of context `n`. -/
  | autoDelayUpdate (n : Fin 16384)
  /-- GEN_CFG_WRITE (R303). -/
  | genCfgWrite (k : Fin 16) (v : Word)
  /-- LIMITER_UPDATE (R313). -/
  | limiterUpdate
  /-- ETH_FRAME_RECEIVED (R327). -/
  | ethFrameReceived (n : Fin 4) (f : EthFrame)
  /-- RX_FRAME_TIMEOUT (R334). -/
  | rxFrameTimeout (c : Fin 1024)
  /-- RX_STREAM_LOST (R335). -/
  | rxStreamLost (c : Fin 1024)
  /-- LEG_TIMEOUT (R340): leg A, or B with `legB`. -/
  | legTimeout (c : Fin 1024) (legB : Bool)
  /-- RX_ASYNC_MEASURE (R337): offset of the stream's sample rate from the system rate in ppb. -/
  | rxAsyncMeasure (c : Fin 1024) (ppb : Int)
  /-- HQR_POP (R328). -/
  | hqrPop (n : Fin 4)
  /-- HQT_SEND (R329): the value written to HQT_CTRL, with SEND. -/
  | hqtSend (n : Fin 4) (v : Word)
  /-- HQT_SENT (R329): the egress timestamp in ns. -/
  | hqtSent (n : Fin 4) (ts : Nat)
  /-- OPT_TRANSFER_START (R325): the value written to OPT_CMD, with GO. -/
  | optTransferStart (n : Fin 4) (v : Word)
  /-- OPT_TRANSFER_DONE (R325): none for a transfer that was not acknowledged, else the bytes read (empty for a write). -/
  | optTransferDone (n : Fin 4) (r : Option (List Byte))
  /-- MOD_CHANGE (R325). -/
  | modChange (n : Fin 4) (present : Bool)
  /-- MOD_INT (R325). -/
  | modInt (n : Fin 4) (asserted : Bool)
  /-- LINK_UP (R326). -/
  | linkUp (n : Fin 4)
  /-- LINK_DOWN (R326): the lanes are still aligned. -/
  | linkDown (n : Fin 4) (aligned : Bool)
  /-- TX_FRAME_START (R344): the context's own pulse as ST 2059-1 instant `k` of its rate plus `dev` ns in reference
  time. -/
  | txFrameStart (c : Fin 1024) (k : Nat) (dev : Int)
  /-- TX_PACKET_SEND (R343): the next packet of the frame, and how late it leaves on leg A and on leg B in ns. -/
  | txPacketSend (c : Fin 1024) (lateA lateB : Nat)
  /-- TX_AUDIO_PACKET (R345): RTP clock value of the packet's first sample. -/
  | txAudioPacket (c : Fin 1024) (n : Nat)
  /-- PTP_MESSAGE (R349). -/
  | ptpMessage (n : Fin 4) (m : PtpMsg)
  /-- ANNOUNCE_TIMEOUT (R349): the sender whose Announce messages have timed out. -/
  | announceTimeout (n : Fin 4) (sender : Nat)
  /-- DELAY_REQ (R348): the egress timestamp on T in ns. -/
  | delayReq (n : Fin 4) (t3 : Int)
  /-- IP_TABLE_UE (R357). -/
  | ipTableUe (n : Fin 4) (array : Fin 6) (index : Fin 512)
  /-- CHANNEL_FAIL_CAUSE (R382): channel and REASON. -/
  | channelFailCause (c : Fin 12) (reason : Fin 8)
  /-- ERASURE_ENTRY (R383). -/
  | erasureEntry (c : Fin 12)
  /-- CE_WINDOW_END (R382). -/
  | ceWindowEnd (c : Fin 12)
  /-- MC_FAIL (R382). -/
  | mcFail (c : Fin 12)
  /-- MC_RESTORE (R384). -/
  | mcRestore (c : Fin 12)
  /-- REBUILD_DONE (R384). -/
  | rebuildDone
  /-- MEMORY_READ (R378): `count` data bursts of a stripe from burst `first`. -/
  | memoryRead (who : MemReader) (stripe : Nat) (first count : Fin 11) (hits : List MemHit)
  /-- MEMORY_WRITE (R379): bytes at an offset of a stripe; 640 bytes at offset 0 are a full-stripe write. -/
  | memoryWrite (stripe : Nat) (offset : Fin 640) (data : List Byte)
  /-- WINNOW_STRIPE (R385); `behind`: Winnow is more than one second of stripes behind. -/
  | winnowStripe (hits : List MemHit) (behind : Bool)
  /-- MEM_REFRESH (R372). -/
  | memRefresh (c : Fin 12) (what : Refresh)
  /-- MEM_TRAINING_DONE (R372): the narrowest eyes in 1/64 UI and the Vref chosen. -/
  | memTrainingDone (c : Fin 12) (rdEye wrEye : Fin 256) (vref : Fin 64)
  /-- SELFTEST_DONE (R388): words that differ on each channel, and the time taken in ms. -/
  | selftestDone (mismatch : List Nat) (ms : Nat)
  /-- MC_RAW_UNLOCK (R387). -/
  | mcRawUnlock (c : Fin 12) (key : Word)
  /-- MC_RAW_GO (R387): MC_RAW_CTRL.WRITE as written with GO. -/
  | mcRawGo (c : Fin 12) (write : Bool)
  /-- MEM_QUEUE_UE (R390). -/
  | memQueueUe (u : QueueUe)
  /-- RAW_MODE_EXPIRY (R387). -/
  | rawModeExpiry (c : Fin 12)
  /-- BUS_TRANSACTION (R401). -/
  | busTransaction (r : BusReq)
  /-- TARGET_ARBITRATION (R407). -/
  | targetArbitration (t : Fin 9)
  /-- BUS_RESPONSE (R406): the response of a target to the oldest granted transaction of a master's ID there; code and
  data are the target's own where the model does not hold the target's contents. -/
  | busResponse (t : Fin 9) (m : Fin 8) (id : Fin 32) (resp : Fin 4) (data : List (BitVec 128))
  /-- LOCK_BROKEN (R411). -/
  | lockBroken (t : Fin 9)
  /-- MASTER_PORT_RESET (R414): the IDs the reset applies to, whether the master is then held in reset (R413), and, for its
  granted writes with beats remaining, the ID and the beats delivered. -/
  | masterPortReset (m : Fin 8) (ids : Word) (held : Bool) (delivered : List (Nat × Nat))
  /-- BM_FAULT (R416). -/
  | bmFault (u : BmUe)
  /-- KS_DERIVE (R429): the value written to CMD, OP = 1 with GO. -/
  | ksDerive (v : Word)
  /-- KS_CLEAR (R430): the value written to CMD, OP = 2 with GO. -/
  | ksClear (v : Word)
  /-- KS_ATTEST (R435): the value written to CMD, OP = 3 with GO. -/
  | ksAttest (v : Word)
  /-- KS_UPDATE (R434): the value written to CMD, OP = 4 with GO. -/
  | ksUpdate (v : Word)
  /-- MEAS_EXTEND (R427): the digest of a boot stage, as bytes, and FINAL. -/
  | measExtend (digest : List Byte) (final : Bool)
  /-- REMASK (R423). -/
  | remask
  /-- RNG_FAULT (R423). -/
  | rngFault
  /-- RNG_RECOVER (R423). -/
  | rngRecover
  /-- KS_FAULT (R424). -/
  | ksFault (u : KsUe)
  /-- TAMPER (R437): the cause bits. -/
  | tamper (cause : Fin 32)
  /-- KS_STARTUP (R426). -/
  | ksStartup
  /-- REC_APPEND (R449): the master and the value written to REC_CMD, OP = 1 with GO. -/
  | recAppend (m : Fin 8) (v : Word)
  /-- REC_DELETE (R449): OP = 2. -/
  | recDelete (m : Fin 8) (v : Word)
  /-- REC_COMMIT (R450): OP = 3. -/
  | recCommit (m : Fin 8) (v : Word)
  /-- REC_ABORT (R449): OP = 4. -/
  | recAbort (m : Fin 8) (v : Word)
  /-- REC_READ (R451): OP = 5. -/
  | recRead (m : Fin 8) (v : Word)
  /-- GATHER_TIMEOUT (R449). -/
  | gatherTimeout
  /-- COMPACTION (R452). -/
  | compaction
  /-- CNT_INC (R457): the master and the counter. -/
  | cntInc (m : Fin 8) (i : Fin 16)
  /-- RAW_PROGRAM (R453): the master and the value written to RAW_CTRL, OP = 1 with GO. -/
  | rawProgram (m : Fin 8) (v : Word)
  /-- RAW_ERASE_SECTOR (R453): OP = 2. -/
  | rawEraseSector (m : Fin 8) (v : Word)
  /-- RAW_CLEAR_BUF (R453): OP = 3. -/
  | rawClearBuf (m : Fin 8) (v : Word)
  /-- RAW_LOAD (R453): OP = 4. -/
  | rawLoad (m : Fin 8) (v : Word)
  /-- RAW_BUFFER_WRITE (R454). -/
  | rawBufferWrite (m : Fin 8) (w : BufWrite)
  /-- GLEANER_PASS (R461): the weak items found. -/
  | gleanerPass (weak : List Weak)
  /-- FLASH_POWER_UP (R462): the weak items found. -/
  | flashPowerUp (weak : List Weak)
  /-- NV_INHIBIT_ASSERT (R463). -/
  | nvInhibitAssert
  /-- NV_INHIBIT_RELEASE (R463). -/
  | nvInhibitRelease
  /-- FLASH_FAULT (R466). -/
  | flashFault (u : FlashUe)
  /-- BACKGROUND_ERASE (R458): the oldest sector queued for erase. -/
  | backgroundErase
  /-- YUMEN_SECOND (R481): the measurements of inputs 0–3, the die temperature in 1/16 °C, and what goes wrong. -/
  | yumenSecond (m : List YmMeas) (temp : Int) (f : YmFaults)
  /-- TIME_OFFER (R482): arrival of the pulse after the start of Yumen's RTC second in µs; `garbled`: wrong length or CRC. -/
  | timeOffer (arrivalUs : Fin 1000000) (garbled : Bool)
  /-- OFFER_MISSING (R499). -/
  | offerMissing
  /-- SEAL_OPENED (R485). -/
  | sealOpened
  /-- SEAL_CLOSED (R499). -/
  | sealClosed
  /-- STATUS on METRO_CAL (R486); `crcOk` of the command frame, here and below. -/
  | status (crcOk : Bool)
  /-- IDENTITY (R486). -/
  | identity (crcOk : Bool)
  /-- READ_S (R486). -/
  | readS (crcOk : Bool) (seq : Word)
  /-- READ_Q (R486). -/
  | readQ (crcOk : Bool) (seq : Word)
  /-- SET_INPUT (R487). -/
  | setInput (crcOk : Bool) (i : Fin 4) (en : Bool) (range : Fin 4) (sens : BitVec 16)
  /-- SET_RTC (R484): seconds. -/
  | setRtc (crcOk : Bool) (seconds : BitVec 48)
  /-- SET_QOFS (R487). -/
  | setQofs (crcOk : Bool) (v : Fin 900)
  /-- RTC_SUPPLY_LOSS (R480). -/
  | rtcSupplyLoss
  /-- YUMEN_POWER_UP (R488): seconds that the RTC counted while Yumen was off. -/
  | yumenPowerUp (off : Nat)
  /-- YUMEN_LINK_FRAME (R493): the oldest record frame on the link arrives at Granary. -/
  | yumenLinkFrame (crcOk : Bool)
  /-- YUMEN_STATUS_FRAME (R491). -/
  | yumenStatusFrame (crcOk : Bool)
  /-- CAROUSEL_RECORD (R492). -/
  | carouselRecord
  /-- YUMEN_LINK_TIMEOUT (R494). -/
  | yumenLinkTimeout
  /-- YUMEN_POWER_LOSS (R481). -/
  | yumenPowerLoss
  /-- SLACK_WINDOW_END (R32): the slack of the window in 0.01 %. -/
  | slackWindowEnd (m : SlackMon) (slack : Int)
  /-- SLACK_READ (R513). -/
  | slackRead (m : SlackMon)
  /-- YF_FORWARD (R493). -/
  | yfForward
  /-- MG_WDT_KICK (R502). -/
  | mgWdtKick
  /-- WATCHDOG (R502): an uncorrectable SRAM word, none for an expiry. -/
  | watchdog (ue : Option (Fin 512))
  /-- DEBUG_ENABLED (R503): M1 writes MG_DBG.EN. -/
  | debugEnabled
  /-- DMA_GO (R504): the value written to DMA_CTRL, with GO. -/
  | dmaGo (v : Word)
  /-- DMA_ABORT (R504): bytes written with OK before it. -/
  | dmaAbort (e : DmaEnd)
  /-- DMA_JOB_END (R504). -/
  | dmaJobEnd (e : DmaEnd)
  /-- UPD_START (R509): the header block that SRC = 0 reads from host memory. -/
  | updStart (header : List Byte)
  /-- UPD_ABORT (R510). -/
  | updAbort
  /-- UPD_BLOCK_READY (R509): the block's tag verifies. -/
  | updBlockReady (tagOk : Bool)
  /-- UPD_BLOCK_TIMEOUT (R510). -/
  | updBlockTimeout
  /-- UPD_COMPLETE (R509): with SRC = 0, the payload and tag table blocks that were read from host memory. -/
  | updComplete (e : UpdEnd) (host : List Byte)
  /-- SENSOR_READ (R511): reading before the calibration offset, in 1/16 °C; none for a failed self-check. -/
  | sensorRead (i : Fin 11) (v : Option Int)
  /-- RAIL_READ (R512): the reading in mV; of rail 7, the lowest among the populated Sheaf dies, and the Sheaf it is read on. -/
  | railRead (r : Fin 13) (mv : Fin 65536) (low : Fin 8)
  /-- AGEING_MEASURE (R515): cycle times of the die's loops in ps, its VDD_CORE in mV and mean temperature in 1/16 °C. -/
  | ageingMeasure (die : Fin 7) (cycles : List Nat) (mv : Nat) (temp : Int)
  /-- AGEING_DAILY (R515). -/
  | ageingDaily (die : Fin 7)
  /-- FAULT_LOG_WRITE (R517): global event and its occurrences within the second. -/
  | faultLogWrite (ev : Fin 512) (count : Nat)
  /-- CAL_UNLOCK (R519). -/
  | calUnlock (key : Word)
  /-- CAL_READ (R519): the value written to CAL_CMD, OP = READ with GO. -/
  | calRead (v : Word)
  /-- CAL_WRITE (R519): OP = WRITE. -/
  | calWrite (v : Word)
  /-- CAL_WINDOW_EXPIRY (R519). -/
  | calWindowExpiry
  /-- LEARN_TABLE_SAVE (R519). -/
  | learnTableSave
  /-- PORST_ASSERT (R528). -/
  | porstAssert
  /-- POWER_GOOD_RESET (R529). -/
  | powerGoodReset
  /-- COLD_START (R530). -/
  | coldStart (b : Boot)
  /-- PCIE_LINK_UP (R531). -/
  | pcieLinkUp
  /-- SHEAF_BRINGUP (R532): the links that pass the test pattern, bit 2 × direction + link, direction 0 from Granary. -/
  | sheafBringup (sheaf : Fin 8) (pass : Fin 16)
  /-- SHEAF_DOWN (R533). -/
  | sheafDown (sheaf : Fin 8)
deriving DecidableEq, Repr

end Sys2Proof
end

