-- ==== Sys2Proof/Machine/Bits.lean ====
section
/-! DEFINITION. Bit fields, signed numbers and sparse tables: the helpers every other file uses. -/

namespace Sys2Proof.Machine

/-- The `n` bits of a word from bit `lo`. -/
def fldGet (w : Word) (lo n : Nat) : Nat := w.toNat / 2 ^ lo % 2 ^ n

/-- The mask of `n` bits from bit `lo`. -/
def fldMask (lo n : Nat) : Word := BitVec.ofNat 32 ((2 ^ n - 1) * 2 ^ lo)

/-- A word with the `n` bits from bit `lo` replaced by the low `n` bits of `v`. -/
def fldSet (w : Word) (lo n v : Nat) : Word :=
  BitVec.ofNat 32 (w.toNat - w.toNat / 2 ^ lo % 2 ^ n * 2 ^ lo + v % 2 ^ n * 2 ^ lo)

/-- A word with the bits of `mask` taken from `v`. -/
def mergeWord (old v : Word) (mask : Nat) : Word :=
  (old &&& ~~~ BitVec.ofNat 32 mask) ||| (v &&& BitVec.ofNat 32 mask)

/-- Two's complement reading of an `n`-bit value. -/
def sgn (n v : Nat) : Int := if v % 2 ^ n < 2 ^ (n - 1) then (v % 2 ^ n : Nat) else (v % 2 ^ n : Nat) - (2 ^ n : Nat)

/-- The `n`-bit two's complement code of an integer. -/
def unsgn (n : Nat) (i : Int) : Nat := (i % (2 ^ n : Nat)).toNat

/-- An integer confined to a range. -/
def clampI (lo hi i : Int) : Int := if i < lo then lo else if hi < i then hi else i

/-- A natural number confined to a range. -/
def clampN (lo hi i : Nat) : Nat := if i < lo then lo else if hi < i then hi else i

/-- Quotient rounded up. -/
def ceilDiv (a b : Nat) : Nat := (a + b - 1) / b

/-- Quotient rounded to the nearest integer, halves up. -/
def roundDiv (a b : Nat) : Nat := (2 * a + b) / (2 * b)

/-- Integer quotient rounded to the nearest, halves away from zero. -/
def roundDivI (a : Int) (b : Nat) : Int :=
  if a < 0 then -((roundDiv a.natAbs b : Nat) : Int) else ((roundDiv a.natAbs b : Nat) : Int)

/-- Bit `i` of a natural number as a Bool. -/
def bitN (x i : Nat) : Bool := x.testBit i

/-- A natural number with bit `i` set or cleared. -/
def setBit (x i : Nat) (b : Bool) : Nat := if b then x ||| 2 ^ i else x - (x &&& 2 ^ i)

/-- 1 for true. -/
def b2n (b : Bool) : Nat := if b then 1 else 0

/-- Value of a key in a sparse table; `d` where the table lists none. -/
def tget {α : Type} (d : α) (t : List (Nat × α)) (k : Nat) : α :=
  match t.find? (fun p => p.1 == k) with
  | some p => p.2
  | none => d

/-- Insertion before the first larger key. -/
def tins {α : Type} (k : Nat) (v : α) : List (Nat × α) → List (Nat × α)
  | [] => [(k, v)]
  | p :: t => if k < p.1 then (k, v) :: p :: t else p :: tins k v t

/-- A sparse table with one key set; a value equal to what an unlisted key reads as is not listed. -/
def tset {α : Type} [DecidableEq α] (d : α) (t : List (Nat × α)) (k : Nat) (v : α) : List (Nat × α) :=
  if v = d then t.filter (fun p => p.1 != k) else tins k v (t.filter (fun p => p.1 != k))

/-- Keys strictly rising. -/
def sortedKeys {α : Type} : List (Nat × α) → Bool
  | [] => true
  | [_] => true
  | p :: q :: t => p.1 < q.1 && sortedKeys (q :: t)

/-- Replace one element of a list, if it has one there. -/
def setAt {α : Type} (l : List α) (i : Nat) (v : α) : List α := l.set i v

/-- Little-endian bytes of a number. -/
def leBytes : Nat → Nat → List Byte
  | 0, _ => []
  | n + 1, v => BitVec.ofNat 8 v :: leBytes n (v / 256)

/-- Big-endian bytes of a number. -/
def beBytes (n v : Nat) : List Byte := (leBytes n v).reverse

/-- The number that little-endian bytes spell. -/
def ofLe : List Byte → Nat
  | [] => 0
  | b :: t => b.toNat + 256 * ofLe t

/-- The number that big-endian bytes spell. -/
def ofBe (l : List Byte) : Nat := ofLe l.reverse

/-- `n` bytes of a list from an offset, padded with zeros. -/
def slice (l : List Byte) (off n : Nat) : List Byte :=
  let t := (l.drop off).take n
  t ++ List.replicate (n - t.length) 0

end Sys2Proof.Machine
end

