-- ==== Sys2Proof/Machine/Fields.lean ====
section
/-! DEFINITION. The register fields by the manual's names (R18, without the block's name): the byte offset of the
register from its block, page or entry, its lowest bit and its width. For an array of registers the offset is that of
the first. Taken field by field from the register tables of the chapters. -/

namespace Sys2Proof.Machine

/-- A register field: byte offset of its word, lowest bit, width. -/
structure Fld where
  off : Nat
  lo : Nat
  width : Nat
deriving DecidableEq, Repr

namespace F

/-! Fields of R47. -/
abbrev PART_CODE : Fld := ⟨0x40, 0, 16⟩
abbrev PART_METER : Fld := ⟨0x40, 16, 1⟩
abbrev DIE_PRESENT_MAP : Fld := ⟨0x44, 0, 8⟩
abbrev DEVICE_ID_LO_VALUE : Fld := ⟨0x48, 0, 32⟩
abbrev DEVICE_ID_HI_VALUE : Fld := ⟨0x4C, 0, 32⟩
abbrev STEPPING_GRANARY : Fld := ⟨0x50, 0, 4⟩
abbrev STEPPING_SHEAF : Fld := ⟨0x50, 4, 4⟩
abbrev STEPPING_YUMEN : Fld := ⟨0x50, 8, 4⟩

/-! Fields of R49. -/
abbrev ID_TYPE : Fld := ⟨0x0, 0, 16⟩
abbrev ID_INSTANCE : Fld := ⟨0x0, 16, 8⟩
abbrev ID_DIE : Fld := ⟨0x0, 24, 3⟩
abbrev VERSION_MINOR : Fld := ⟨0x4, 0, 8⟩
abbrev VERSION_MAJOR : Fld := ⟨0x4, 8, 8⟩
abbrev CTRL_RUN : Fld := ⟨0x8, 0, 1⟩
abbrev CTRL_STOP_MODE : Fld := ⟨0x8, 1, 2⟩
abbrev CTRL_SOFT_RESET : Fld := ⟨0x8, 31, 1⟩
abbrev STAT_STOPPED : Fld := ⟨0xC, 0, 1⟩
abbrev STAT_BUSY : Fld := ⟨0xC, 1, 1⟩
abbrev STAT_FAULT : Fld := ⟨0xC, 2, 1⟩
abbrev EV_STICKY_BITS : Fld := ⟨0x10, 0, 32⟩
abbrev EV_ENABLE_BITS : Fld := ⟨0x14, 0, 32⟩
abbrev EV_FORCE_BITS : Fld := ⟨0x18, 0, 32⟩
abbrev EV_LIVE_BITS : Fld := ⟨0x1C, 0, 32⟩
abbrev COMMIT_GROUP : Fld := ⟨0x20, 0, 6⟩
abbrev COMMIT_ARM : Fld := ⟨0x20, 31, 1⟩
abbrev COMMIT_STAT_RESULT : Fld := ⟨0x24, 0, 8⟩
abbrev COMMIT_STAT_SRC : Fld := ⟨0x24, 8, 1⟩
abbrev COMMIT_STAT_PENDING : Fld := ⟨0x24, 9, 1⟩
abbrev COMMIT_STAT_TOKEN : Fld := ⟨0x24, 16, 16⟩
abbrev ERR_LOC_LOCATOR : Fld := ⟨0x28, 0, 32⟩

/-! Fields of R65. -/
abbrev SEQ_CFG_LEAD_US : Fld := ⟨0x40, 0, 10⟩
abbrev SEQ_CFG_DEFER_LIMIT : Fld := ⟨0x40, 10, 8⟩
abbrev TOKEN_NEXT_VALUE : Fld := ⟨0x44, 0, 16⟩
abbrev CG_CFG_DOMAIN : Fld := ⟨0x100, 0, 3⟩
abbrev CG_CFG_REQUIRE_FENCES : Fld := ⟨0x100, 3, 1⟩
abbrev CG_CTRL_ARM : Fld := ⟨0x104, 0, 1⟩
abbrev CG_CTRL_ABORT : Fld := ⟨0x104, 1, 1⟩
abbrev CG_STAT_RESULT : Fld := ⟨0x108, 0, 8⟩
abbrev CG_STAT_STATE : Fld := ⟨0x108, 8, 3⟩
abbrev CG_STAT_TOKEN : Fld := ⟨0x108, 16, 16⟩
abbrev CG_CAUSE_PAGE : Fld := ⟨0x10C, 0, 11⟩
abbrev CG_CAUSE_DIE : Fld := ⟨0x10C, 11, 3⟩
abbrev CG_CAUSE_LAST_REFUSAL : Fld := ⟨0x10C, 16, 8⟩
abbrev CG_FRAME_VALUE : Fld := ⟨0x500, 0, 32⟩

/-! Fields of R74. -/
abbrev EVG_STATE_BITS : Fld := ⟨0x40, 0, 32⟩
abbrev EVG_MAP_VEC : Fld := ⟨0x80, 0, 6⟩
abbrev EVG_MAP_EN : Fld := ⟨0x80, 7, 1⟩
abbrev VEC_CTRL_PINS : Fld := ⟨0x280, 0, 4⟩
abbrev VEC_CTRL_HOLDOFF : Fld := ⟨0x280, 8, 8⟩
abbrev VEC_PEND_LO_BITS : Fld := ⟨0x380, 0, 32⟩
abbrev VEC_PEND_HI_BITS : Fld := ⟨0x384, 0, 32⟩
abbrev VEC_ACK_VECTOR : Fld := ⟨0x388, 0, 6⟩
abbrev PIN_STAT_LEVEL : Fld := ⟨0x38C, 0, 4⟩
abbrev YUMEN_STICKY_BITS : Fld := ⟨0x390, 0, 16⟩
abbrev YUMEN_ENABLE_BITS : Fld := ⟨0x394, 0, 16⟩

/-! Fields of R110. -/
abbrev IN_CFG_RATE : Fld := ⟨0x40, 0, 3⟩
abbrev IN_CFG_BOND : Fld := ⟨0x40, 3, 1⟩
abbrev IN_CFG_EQ_HOLD : Fld := ⟨0x40, 4, 1⟩
abbrev IN_STAT_STATE : Fld := ⟨0x44, 0, 2⟩
abbrev IN_STAT_MEMBER : Fld := ⟨0x44, 2, 1⟩
abbrev IN_STAT_RATE : Fld := ⟨0x44, 3, 3⟩
abbrev IN_STAT_RATE_1001 : Fld := ⟨0x44, 6, 1⟩
abbrev IN_STAT_LEVEL_B : Fld := ⟨0x44, 7, 1⟩
abbrev IN_STAT_PID_PRESENT : Fld := ⟨0x44, 8, 1⟩
abbrev IN_STAT_PID_MISMATCH : Fld := ⟨0x44, 9, 1⟩
abbrev IN_STAT_UNSUP : Fld := ⟨0x44, 10, 1⟩
abbrev IN_STAT_LINK : Fld := ⟨0x44, 11, 2⟩
abbrev IN_STAT_EPOCH : Fld := ⟨0x44, 13, 4⟩
abbrev IN_FMT_FMT : Fld := ⟨0x48, 0, 8⟩
abbrev IN_FMT_FRATE : Fld := ⟨0x48, 8, 4⟩
abbrev IN_FMT_SAMPLING : Fld := ⟨0x48, 12, 2⟩
abbrev IN_FMT_D12 : Fld := ⟨0x48, 14, 1⟩
abbrev IN_FMT_COLORIMETRY : Fld := ⟨0x48, 15, 1⟩
abbrev IN_FMT_TRANSFER : Fld := ⟨0x48, 16, 2⟩
abbrev IN_PID_BYTES : Fld := ⟨0x4C, 0, 32⟩
abbrev IN_RASTER_SAMPLES : Fld := ⟨0x50, 0, 16⟩
abbrev IN_RASTER_LINES : Fld := ⟨0x50, 16, 16⟩
abbrev IN_ERR_CRC : Fld := ⟨0x54, 0, 16⟩
abbrev IN_ERR_TRS : Fld := ⟨0x54, 16, 16⟩
abbrev IN_EQ_LOSS : Fld := ⟨0x58, 0, 8⟩
abbrev IN_EQ_EYE : Fld := ⟨0x58, 8, 8⟩
abbrev IN_QUAD_SKEW_NS : Fld := ⟨0x5C, 0, 16⟩
abbrev IN_QUAD_LINKS_OK : Fld := ⟨0x5C, 16, 4⟩
abbrev IN_OVERRIDE_EN : Fld := ⟨0x60, 0, 1⟩
abbrev IN_OVERRIDE_COLORIMETRY : Fld := ⟨0x60, 1, 1⟩
abbrev IN_OVERRIDE_TRANSFER : Fld := ⟨0x60, 2, 2⟩
abbrev IN_ANC_CFG_ANC_EN : Fld := ⟨0x64, 0, 1⟩
abbrev IN_ANC_CFG_RQP_ACCEPT : Fld := ⟨0x64, 1, 1⟩
abbrev IN_ANC_STAT_PACKETS : Fld := ⟨0x68, 0, 8⟩
abbrev IN_ANC_STAT_BYTES : Fld := ⟨0x68, 8, 15⟩
abbrev IN_FRAME_COUNT : Fld := ⟨0x6C, 0, 32⟩

/-! Fields of R112. -/
abbrev OUT_CFG_FMT : Fld := ⟨0x40, 0, 8⟩
abbrev OUT_CFG_FRATE : Fld := ⟨0x40, 8, 4⟩
abbrev OUT_CFG_SAMPLING : Fld := ⟨0x40, 12, 2⟩
abbrev OUT_CFG_D12 : Fld := ⟨0x40, 14, 1⟩
abbrev OUT_CFG_LEVEL_B : Fld := ⟨0x40, 15, 1⟩
abbrev OUT_CFG_BOND : Fld := ⟨0x40, 16, 1⟩
abbrev OUT_CFG_DOMAIN : Fld := ⟨0x40, 17, 3⟩
abbrev OUT_CFG_COLORIMETRY : Fld := ⟨0x40, 20, 1⟩
abbrev OUT_CFG_TRANSFER : Fld := ⟨0x40, 21, 2⟩
abbrev OUT_STAT_STATE : Fld := ⟨0x44, 0, 2⟩
abbrev OUT_STAT_RATE : Fld := ⟨0x44, 2, 3⟩
abbrev OUT_ANC_PID_EN : Fld := ⟨0x48, 0, 1⟩
abbrev OUT_ANC_EDH_EN : Fld := ⟨0x48, 1, 1⟩
abbrev OUT_ANC_RQP_EN : Fld := ⟨0x48, 2, 1⟩
abbrev OUT_ANC_VANC_FIRST : Fld := ⟨0x48, 8, 8⟩
abbrev OUT_RQP_SOURCE_ID : Fld := ⟨0x4C, 0, 16⟩
abbrev OUT_REPEAT_COUNT : Fld := ⟨0x50, 0, 32⟩
abbrev OUT_FRAME_COUNT : Fld := ⟨0x54, 0, 32⟩
abbrev OUT_POS_LINE : Fld := ⟨0x58, 0, 16⟩
abbrev OUT_POS_SAMPLE : Fld := ⟨0x58, 16, 16⟩

/-! Fields of R152. -/
abbrev TC_CFG_REVERTIVE : Fld := ⟨0x40, 0, 1⟩
abbrev TC_CFG_MODE : Fld := ⟨0x40, 1, 2⟩
abbrev TC_CFG_FORCE_CAND : Fld := ⟨0x40, 3, 4⟩
abbrev TC_CFG_TEMP_SRC : Fld := ⟨0x40, 7, 3⟩
abbrev TC_CFG_LEARN : Fld := ⟨0x40, 10, 1⟩
abbrev TC_TIMES_WTR_S : Fld := ⟨0x44, 0, 10⟩
abbrev TC_TIMES_SELECT_HOLD_S : Fld := ⟨0x44, 10, 6⟩
abbrev TC_SLOPE_PHASE_SLOPE : Fld := ⟨0x48, 0, 14⟩
abbrev TC_SLOPE_FREQ_SLEW : Fld := ⟨0x48, 16, 14⟩
abbrev TC_BW_TRACK_BW : Fld := ⟨0x4C, 0, 10⟩
abbrev TC_DISAGREE_THRESH_PPB : Fld := ⟨0x50, 0, 16⟩
abbrev TC_HO_LIMIT_LIMIT_NS : Fld := ⟨0x54, 0, 24⟩
abbrev TC_HO_MODEL1_INIT : Fld := ⟨0x58, 0, 16⟩
abbrev TC_HO_MODEL1_AGE : Fld := ⟨0x58, 16, 16⟩
abbrev TC_HO_MODEL2_TEMP_COEF : Fld := ⟨0x5C, 0, 16⟩
abbrev TC_HOST_TEMP_VALUE : Fld := ⟨0x60, 0, 16⟩
abbrev TC_QL_HOLD_QL : Fld := ⟨0x64, 0, 4⟩
abbrev TC_QL_SPEC_LOST_QL : Fld := ⟨0x64, 4, 4⟩
abbrev TC_QL_HOP_MAX : Fld := ⟨0x64, 8, 8⟩
abbrev DCO_FREE_PPT : Fld := ⟨0x68, 0, 32⟩
abbrev TC_STAT_REF_STATE : Fld := ⟨0x6C, 0, 2⟩
abbrev TC_STAT_LOOP : Fld := ⟨0x6C, 2, 3⟩
abbrev TC_STAT_SELECTED : Fld := ⟨0x6C, 5, 4⟩
abbrev TC_STAT_SEL_VALID : Fld := ⟨0x6C, 9, 1⟩
abbrev TC_STAT_PULLING : Fld := ⟨0x6C, 10, 1⟩
abbrev TC_STAT_PINS : Fld := ⟨0x6C, 11, 3⟩
abbrev TC_STAT_SYS_QL : Fld := ⟨0x6C, 14, 4⟩
abbrev TC_STAT_HOLD_SHORT : Fld := ⟨0x6C, 18, 1⟩
abbrev TC_STAT_SLOPE_LIMITED : Fld := ⟨0x6C, 19, 1⟩
abbrev TC_STAT_SLEW_LIMITED : Fld := ⟨0x6C, 20, 1⟩
abbrev TC_STAT_TEMP_VALID : Fld := ⟨0x6C, 21, 1⟩
abbrev DCO_STEER_PPT : Fld := ⟨0x70, 0, 32⟩
abbrev DCO_HOLD_PPT : Fld := ⟨0x74, 0, 32⟩
abbrev PHASE_ERR_NS : Fld := ⟨0x78, 0, 32⟩
abbrev HELD_OFFSET_NS : Fld := ⟨0x7C, 0, 32⟩
abbrev HOLD_ELAPSED_SECONDS : Fld := ⟨0x80, 0, 32⟩
abbrev HOLD_PRED_NS : Fld := ⟨0x84, 0, 32⟩
abbrev HOLD_SPREAD_S : Fld := ⟨0x88, 0, 16⟩
abbrev HOLD_SPREAD_COUNT : Fld := ⟨0x88, 16, 16⟩
abbrev CAND_CHANGE_UP : Fld := ⟨0x8C, 0, 16⟩
abbrev CAND_CHANGE_DOWN : Fld := ⟨0x8C, 16, 16⟩
abbrev DISAGREE_PAIR_A : Fld := ⟨0x90, 0, 4⟩
abbrev DISAGREE_PAIR_B : Fld := ⟨0x90, 4, 4⟩
abbrev DISAGREE_PAIR_PPB : Fld := ⟨0x90, 8, 24⟩
abbrev TS_SEC_LO_VALUE : Fld := ⟨0x94, 0, 32⟩
abbrev TS_SEC_HI_VALUE : Fld := ⟨0x98, 0, 16⟩
abbrev TS_NS_VALUE : Fld := ⟨0x9C, 0, 30⟩
abbrev TS_SET_LO_VALUE : Fld := ⟨0xA0, 0, 32⟩
abbrev TS_SET_HI_VALUE : Fld := ⟨0xA4, 0, 16⟩
abbrev TS_SET_CTRL_ARM : Fld := ⟨0xA8, 0, 1⟩

/-! Fields of R153. -/
abbrev CAND_CFG_EN : Fld := ⟨0x0, 0, 1⟩
abbrev CAND_CFG_PRIORITY : Fld := ⟨0x0, 1, 4⟩
abbrev CAND_CFG_QL_STATIC : Fld := ⟨0x0, 5, 4⟩
abbrev CAND_CFG_LOCKOUT : Fld := ⟨0x0, 9, 1⟩
abbrev CAND_CFG_SRC : Fld := ⟨0x0, 10, 7⟩
abbrev CAND_LIMIT_FREQ_WIN : Fld := ⟨0x4, 0, 10⟩
abbrev CAND_LIMIT_JIT_LIMIT : Fld := ⟨0x4, 16, 10⟩
abbrev CAND_STAT_STATE : Fld := ⟨0x8, 0, 3⟩
abbrev CAND_STAT_QL : Fld := ⟨0x8, 3, 4⟩
abbrev CAND_STAT_QL_FROM_MSG : Fld := ⟨0x8, 7, 1⟩
abbrev CAND_STAT_HOLD_FLAG : Fld := ⟨0x8, 8, 1⟩
abbrev CAND_STAT_HOP : Fld := ⟨0x8, 9, 8⟩
abbrev CAND_STAT_KIND : Fld := ⟨0x8, 17, 3⟩
abbrev CAND_STAT_FAMILY : Fld := ⟨0x8, 20, 3⟩
abbrev CAND_STAT_FAMILY_VALID : Fld := ⟨0x8, 23, 1⟩
abbrev CAND_FREQ_PPB : Fld := ⟨0xC, 0, 32⟩
abbrev CAND_ABS_PPB : Fld := ⟨0x10, 0, 32⟩
abbrev CAND_JIT_NS : Fld := ⟨0x14, 0, 16⟩
abbrev CAND_WTR_LEFT : Fld := ⟨0x18, 0, 10⟩
abbrev CAND_RQP_SOURCE_ID : Fld := ⟨0x1C, 0, 16⟩
abbrev CAND_RQP_ERRORS : Fld := ⟨0x1C, 16, 8⟩
abbrev CAND_RQP_VERSION : Fld := ⟨0x1C, 24, 8⟩
abbrev CAND_PTP_CLOCK_CLASS : Fld := ⟨0x20, 0, 8⟩
abbrev CAND_PTP_CLOCK_ACCURACY : Fld := ⟨0x20, 8, 8⟩

/-! Fields of R154. -/
abbrev TD_CFG_FAMILY : Fld := ⟨0x0, 0, 3⟩
abbrev TD_CFG_FRATE : Fld := ⟨0x0, 3, 4⟩
abbrev TD_CFG_FMT : Fld := ⟨0x0, 7, 8⟩
abbrev TD_CFG_ALIGN_IDLE : Fld := ⟨0x0, 15, 1⟩
abbrev TD_CTRL_RUN : Fld := ⟨0x4, 0, 1⟩
abbrev TD_ALIGN0_LINES : Fld := ⟨0x8, 0, 12⟩
abbrev TD_ALIGN0_SAMPLES : Fld := ⟨0x8, 16, 13⟩
abbrev TD_ALIGN1_FRAC : Fld := ⟨0xC, 0, 8⟩
abbrev TD_REALIGN_GO : Fld := ⟨0x10, 0, 1⟩
abbrev TD_REALIGN_MODE : Fld := ⟨0x10, 1, 1⟩
abbrev TD_JUMP_FRAME_VALUE : Fld := ⟨0x14, 0, 32⟩
abbrev TD_STAT_STOPPED : Fld := ⟨0x18, 0, 1⟩
abbrev TD_STAT_ALIGNED : Fld := ⟨0x18, 1, 1⟩
abbrev TD_STAT_ALIGN_SRC : Fld := ⟨0x18, 2, 2⟩
abbrev TD_STAT_PULLING : Fld := ⟨0x18, 4, 1⟩
abbrev TD_STAT_JUMP_PENDING : Fld := ⟨0x18, 5, 1⟩
abbrev TD_STAT_REALIGN_REFUSED : Fld := ⟨0x18, 6, 1⟩
abbrev TD_MISALIGN_NS : Fld := ⟨0x1C, 0, 32⟩
abbrev TD_FRAME_COUNT : Fld := ⟨0x20, 0, 32⟩

/-! Fields of R155. -/
abbrev PTPMAP_QL : Fld := ⟨0x0, 0, 4⟩
abbrev PTPMAP_ACC_LIMIT : Fld := ⟨0x0, 4, 8⟩
abbrev PTPMAP_ACC_PENALTY : Fld := ⟨0x0, 12, 4⟩

/-! Fields of R161. -/
abbrev ROUTE_CFG_SRC : Fld := ⟨0x0, 0, 12⟩
abbrev ROUTE_CFG_PRIO : Fld := ⟨0x0, 12, 3⟩
abbrev ROUTE_CFG_FORCE_STORE : Fld := ⟨0x0, 15, 1⟩
abbrev ROUTE_CFG_RATE_MODE : Fld := ⟨0x0, 16, 2⟩
abbrev ROUTE_CFG_EPOCH_HOLD : Fld := ⟨0x0, 18, 1⟩
abbrev ROUTE_CFG_GROUP : Fld := ⟨0x0, 20, 6⟩
abbrev ROUTE_CFG_EN : Fld := ⟨0x0, 31, 1⟩

/-! Fields of R163. -/
abbrev ROUTE_STAT_PATH : Fld := ⟨0x0, 0, 2⟩
abbrev ROUTE_STAT_SUSPENDED : Fld := ⟨0x0, 2, 1⟩
abbrev ROUTE_STAT_FALLBACK : Fld := ⟨0x0, 3, 1⟩
abbrev ROUTE_STAT_SHED : Fld := ⟨0x0, 4, 1⟩
abbrev ROUTE_STAT_SOURCE_OK : Fld := ⟨0x0, 5, 1⟩
abbrev ROUTE_STAT_WINDOW_OK : Fld := ⟨0x0, 6, 1⟩
abbrev ROUTE_STAT_EPOCH : Fld := ⟨0x0, 7, 4⟩
abbrev ROUTE_STAT_ENGINE : Fld := ⟨0x0, 11, 3⟩
abbrev ROUTE_STAT_SUSPEND_CODE : Fld := ⟨0x0, 14, 8⟩

/-! Fields of R185. -/
abbrev FL_CFG_AUTO_RETURN : Fld := ⟨0x40, 0, 1⟩
abbrev FL_CFG_RETURN_FRAMES : Fld := ⟨0x40, 8, 8⟩
abbrev FL_CFG_GUARD_NS : Fld := ⟨0x40, 16, 16⟩
abbrev FL_BW_CAUSE_SHEAF : Fld := ⟨0x44, 0, 3⟩
abbrev FL_BW_CAUSE_DIR : Fld := ⟨0x44, 3, 1⟩
abbrev FL_BW_CAUSE_MEM : Fld := ⟨0x44, 4, 1⟩
abbrev FL_BW_CAUSE_TOKEN : Fld := ⟨0x44, 16, 16⟩
abbrev FL_BW_ASK_MBPS : Fld := ⟨0x48, 0, 20⟩
abbrev FL_LOAD_TX_MBPS : Fld := ⟨0x50, 0, 20⟩
abbrev FL_LOAD_RX_MBPS : Fld := ⟨0x54, 0, 20⟩
abbrev FL_LINKS_UP : Fld := ⟨0x80, 0, 24⟩
abbrev FL_CTX_READ_USED : Fld := ⟨0x84, 0, 10⟩
abbrev FL_CTX_WRITE_USED : Fld := ⟨0x84, 16, 9⟩
abbrev FL_REEXAMINE_DOMAINS : Fld := ⟨0x88, 0, 8⟩
abbrev FL_LAST_ROUTE : Fld := ⟨0x8C, 0, 11⟩
abbrev FL_LAST_TABLE : Fld := ⟨0x8C, 11, 2⟩
abbrev FL_LAST_EVENT : Fld := ⟨0x8C, 13, 5⟩

/-! Fields of R215. -/
abbrev SILO_CFG_LOSS_MODE : Fld := ⟨0x40, 0, 1⟩
abbrev SILO_CFG_LOSS_FRAMES : Fld := ⟨0x40, 8, 8⟩
abbrev SILO_CAP_MBPS : Fld := ⟨0x44, 0, 18⟩
abbrev SILO_LIMIT_MBPS : Fld := ⟨0x48, 0, 18⟩
abbrev SILO_LIMIT_FAILED : Fld := ⟨0x48, 18, 2⟩
abbrev SILO_SUM_MBPS : Fld := ⟨0x4C, 0, 20⟩
abbrev SILO_TERM_MBPS : Fld := ⟨0x50, 0, 20⟩
abbrev SILO_ASK_MBPS : Fld := ⟨0x64, 0, 20⟩
abbrev SILO_BINS_TOTAL_COUNT : Fld := ⟨0x68, 0, 18⟩
abbrev SILO_BINS_FREE_COUNT : Fld := ⟨0x6C, 0, 18⟩
abbrev SILO_BINS_SYS_COUNT : Fld := ⟨0x70, 0, 18⟩
abbrev SILO_BINS_RUN_COUNT : Fld := ⟨0x74, 0, 18⟩
abbrev BAR2_BASE_BIN : Fld := ⟨0x78, 0, 18⟩
abbrev BAR2_FAULT_OFFSET : Fld := ⟨0x7C, 0, 32⟩
abbrev SILO_CAUSE_INDEX : Fld := ⟨0x80, 0, 12⟩
abbrev SILO_CAUSE_TABLE : Fld := ⟨0x80, 12, 3⟩
abbrev SILO_CAUSE_REASON : Fld := ⟨0x80, 15, 2⟩
abbrev SILO_LAST_INDEX : Fld := ⟨0x84, 0, 12⟩
abbrev SILO_LAST_TABLE : Fld := ⟨0x84, 12, 3⟩
abbrev SILO_LAST_EVENT : Fld := ⟨0x84, 15, 5⟩

/-! Fields of R216. -/
abbrev SRING_CFG_DEPTH : Fld := ⟨0x0, 0, 3⟩
abbrev SRING_CFG_FREEZE : Fld := ⟨0x0, 3, 1⟩
abbrev SRING_CFG_KEEP : Fld := ⟨0x0, 4, 1⟩
abbrev SRING_CFG_GROUP : Fld := ⟨0x0, 20, 6⟩

/-! Fields of R217. -/
abbrev SRING_STAT_STATE : Fld := ⟨0x0, 0, 2⟩
abbrev SRING_STAT_VALID : Fld := ⟨0x0, 2, 3⟩
abbrev SRING_STAT_BINS : Fld := ⟨0x0, 8, 18⟩
abbrev SRING_STAT_EPOCH : Fld := ⟨0x0, 26, 4⟩

/-! Fields of R218. -/
abbrev STORE_CFG_KIND : Fld := ⟨0x0, 0, 2⟩
abbrev STORE_CFG_DEPTH : Fld := ⟨0x0, 2, 3⟩
abbrev STORE_CFG_DECIM : Fld := ⟨0x0, 5, 2⟩
abbrev STORE_CFG_FREEZE : Fld := ⟨0x0, 7, 1⟩
abbrev STORE_CFG_CAPTURE : Fld := ⟨0x0, 8, 8⟩
abbrev STORE_CFG_GROUP : Fld := ⟨0x0, 20, 6⟩
abbrev STORE_CFG_WIDTH : Fld := ⟨0x4, 0, 14⟩
abbrev STORE_CFG_HEIGHT : Fld := ⟨0x4, 16, 13⟩
abbrev STORE_CFG_SFMT : Fld := ⟨0x4, 29, 2⟩
abbrev STORE_CFG_WR_MBPS : Fld := ⟨0x8, 0, 18⟩

/-! Fields of R219. -/
abbrev STORE_STAT_STATE : Fld := ⟨0x0, 0, 2⟩
abbrev STORE_STAT_VALID : Fld := ⟨0x0, 2, 3⟩
abbrev STORE_STAT_EPOCH : Fld := ⟨0x0, 5, 4⟩
abbrev STORE_STAT_CAPTURED : Fld := ⟨0x0, 9, 8⟩
abbrev STORE_STAT_BASE_BIN : Fld := ⟨0x4, 0, 18⟩
abbrev STORE_STAT_BINS : Fld := ⟨0x8, 0, 18⟩
abbrev STORE_STAT_PITCH : Fld := ⟨0xC, 0, 16⟩
abbrev STORE_STAT_LPB : Fld := ⟨0xC, 16, 12⟩

/-! Fields of R254. -/
abbrev COMP_CFG_WB_MODE : Fld := ⟨0x40, 0, 2⟩
abbrev COMP_ORDER_POS1 : Fld := ⟨0x44, 0, 2⟩
abbrev COMP_ORDER_POS2 : Fld := ⟨0x44, 2, 2⟩
abbrev COMP_ORDER_POS3 : Fld := ⟨0x44, 4, 2⟩
abbrev COMP_ORDER_POS4 : Fld := ⟨0x44, 6, 2⟩
abbrev COMP_BG0_C0 : Fld := ⟨0x48, 0, 14⟩
abbrev COMP_BG0_C1 : Fld := ⟨0x48, 16, 14⟩
abbrev COMP_BG1_C2 : Fld := ⟨0x4C, 0, 14⟩
abbrev COMP_COLOR_PRE_EN : Fld := ⟨0x50, 0, 1⟩
abbrev COMP_COLOR_LUT3D_EN : Fld := ⟨0x50, 1, 1⟩
abbrev COMP_COLOR_POST_EN : Fld := ⟨0x50, 2, 1⟩
abbrev COMP_COLOR_LUT_BANK : Fld := ⟨0x50, 3, 1⟩
abbrev COMP_DITHER_MODE : Fld := ⟨0x54, 0, 2⟩
abbrev COMP_DITHER_DEPTH : Fld := ⟨0x54, 2, 2⟩
abbrev DITHER_SEED_VALUE : Fld := ⟨0x58, 0, 32⟩
abbrev ENC_M0_M00 : Fld := ⟨0x5C, 0, 16⟩
abbrev ENC_M0_M01 : Fld := ⟨0x5C, 16, 16⟩
abbrev ENC_M1_M02 : Fld := ⟨0x60, 0, 16⟩
abbrev ENC_M1_M10 : Fld := ⟨0x60, 16, 16⟩
abbrev ENC_M2_M11 : Fld := ⟨0x64, 0, 16⟩
abbrev ENC_M2_M12 : Fld := ⟨0x64, 16, 16⟩
abbrev ENC_M3_M20 : Fld := ⟨0x68, 0, 16⟩
abbrev ENC_M3_M21 : Fld := ⟨0x68, 16, 16⟩
abbrev ENC_M4_M22 : Fld := ⟨0x6C, 0, 16⟩
abbrev ENC_OFS0_IN0 : Fld := ⟨0x70, 0, 16⟩
abbrev ENC_OFS0_IN1 : Fld := ⟨0x70, 16, 16⟩
abbrev ENC_OFS1_IN2 : Fld := ⟨0x74, 0, 16⟩
abbrev ENC_OFS1_OUT0 : Fld := ⟨0x74, 16, 16⟩
abbrev ENC_OFS2_OUT1 : Fld := ⟨0x78, 0, 16⟩
abbrev ENC_OFS2_OUT2 : Fld := ⟨0x78, 16, 16⟩
abbrev COMP_STAT_SHOWN : Fld := ⟨0x80, 0, 4⟩
abbrev COMP_STAT_FLIP_WAIT : Fld := ⟨0x80, 4, 2⟩
abbrev COMP_STAT_LUT_BYPASS : Fld := ⟨0x80, 6, 3⟩
abbrev COMP_SUB_LINES : Fld := ⟨0x84, 0, 32⟩
abbrev COMP_HIDE_FRAMES : Fld := ⟨0x88, 0, 32⟩
abbrev COEF_CTRL_RESTORE_V1 : Fld := ⟨0x90, 0, 1⟩
abbrev COEF_CTRL_RESTORE_V2 : Fld := ⟨0x90, 1, 1⟩
abbrev COEF_CTRL_NORM_V1 : Fld := ⟨0x90, 2, 1⟩
abbrev COEF_CTRL_NORM_V2 : Fld := ⟨0x90, 3, 1⟩
abbrev FENCE_DOORBELL_G1_VALUE : Fld := ⟨0x200, 0, 32⟩
abbrev FENCE_DOORBELL_G2_VALUE : Fld := ⟨0x204, 0, 32⟩
abbrev FENCE_DEFERS_G1 : Fld := ⟨0x208, 0, 16⟩
abbrev FENCE_DEFERS_G2 : Fld := ⟨0x208, 16, 16⟩
abbrev LAYER_STAT_STATE : Fld := ⟨0x210, 0, 2⟩
abbrev LAYER_STAT_LINES_REQ : Fld := ⟨0x210, 2, 8⟩
abbrev LAYER_STAT_LINES_CAP : Fld := ⟨0x210, 10, 6⟩
abbrev LAYER_STAT_BUF_SHOWN : Fld := ⟨0x210, 16, 2⟩

/-! Fields of R255. -/
abbrev LAYER_CTRL_VISIBLE : Fld := ⟨0x0, 0, 1⟩
abbrev LAYER_CTRL_PREMULT : Fld := ⟨0x0, 1, 1⟩
abbrev LAYER_CTRL_SRC_ALPHA : Fld := ⟨0x0, 2, 1⟩
abbrev LAYER_CTRL_BUF : Fld := ⟨0x0, 3, 2⟩
abbrev LAYER_POS_X0 : Fld := ⟨0x4, 0, 16⟩
abbrev LAYER_POS_Y0 : Fld := ⟨0x4, 16, 16⟩
abbrev LAYER_SIZE_WD : Fld := ⟨0x8, 0, 14⟩
abbrev LAYER_SIZE_HD : Fld := ⟨0x8, 16, 14⟩
abbrev LAYER_CROP_POS_CX : Fld := ⟨0xC, 0, 14⟩
abbrev LAYER_CROP_POS_CY : Fld := ⟨0xC, 16, 13⟩
abbrev LAYER_CROP_SIZE_CW : Fld := ⟨0x10, 0, 14⟩
abbrev LAYER_CROP_SIZE_CH : Fld := ⟨0x10, 16, 13⟩
abbrev LAYER_ALPHA_ALPHA : Fld := ⟨0x14, 0, 15⟩
abbrev LAYER_M0_LAYER_M4 : Fld := ⟨0x18, 0, 32⟩
abbrev LAYER_OFS0_LAYER_OFS2 : Fld := ⟨0x2C, 0, 32⟩
abbrev FENCE_CFG_EN : Fld := ⟨0x38, 0, 1⟩
abbrev FENCE_CFG_DEADLINE : Fld := ⟨0x38, 1, 6⟩
abbrev FENCE_CFG_DEFER_LIMIT : Fld := ⟨0x38, 7, 8⟩
abbrev FENCE_ARM_VALUE : Fld := ⟨0x3C, 0, 32⟩

/-! Fields of R257. -/
abbrev LUT_ADDR_INDEX : Fld := ⟨0x0, 0, 13⟩
abbrev LUT_ADDR_TABLE : Fld := ⟨0x0, 13, 2⟩
abbrev LUT_ADDR_BANK : Fld := ⟨0x0, 15, 1⟩
abbrev LUT_ADDR_AUTO_INC : Fld := ⟨0x0, 16, 1⟩
abbrev LUT_DATA0_C0 : Fld := ⟨0x4, 0, 14⟩
abbrev LUT_DATA0_C1 : Fld := ⟨0x4, 16, 14⟩
abbrev LUT_DATA1_C2 : Fld := ⟨0x8, 0, 14⟩

/-! Fields of R285. -/
abbrev CV_CFG_ALLOC : Fld := ⟨0x40, 0, 1⟩
abbrev CV_STAT_SLOTS : Fld := ⟨0x44, 0, 2⟩
abbrev CV_STAT_FAULT_MODE : Fld := ⟨0x44, 2, 1⟩
abbrev CV_LOAD_KPPS : Fld := ⟨0x48, 0, 20⟩
abbrev CV_CAUSE_BITS : Fld := ⟨0x4C, 0, 9⟩
abbrev CV_CAUSE_EN_BITS : Fld := ⟨0x50, 0, 9⟩

/-! Fields of R286. -/
abbrev CTX_KEY_SRC : Fld := ⟨0x0, 0, 12⟩
abbrev CTX_KEY_DOMAIN : Fld := ⟨0x0, 12, 3⟩
abbrev CTX_KEY_DST_FRATE : Fld := ⟨0x0, 15, 4⟩
abbrev CTX_KEY_SRC_FRATE : Fld := ⟨0x0, 19, 4⟩
abbrev CTX_KEY_SRC_INTERLACED : Fld := ⟨0x0, 23, 1⟩
abbrev CTX_KEY_SRCMODE : Fld := ⟨0x0, 24, 2⟩
abbrev CTX_STAT_STATE : Fld := ⟨0x4, 0, 2⟩
abbrev CTX_STAT_METHOD : Fld := ⟨0x4, 2, 2⟩
abbrev CTX_STAT_CADENCE : Fld := ⟨0x4, 4, 2⟩
abbrev CTX_STAT_CONF : Fld := ⟨0x4, 6, 8⟩
abbrev CTX_STAT_CUT : Fld := ⟨0x4, 14, 1⟩
abbrev CTX_STAT_READERS : Fld := ⟨0x4, 16, 12⟩
abbrev CTX_DELAY_NS : Fld := ⟨0x8, 0, 32⟩
abbrev CTX_LOAD_KPPS : Fld := ⟨0xC, 0, 20⟩
abbrev CTX_MEM_MBPS : Fld := ⟨0x10, 0, 20⟩
abbrev CTX_PHASE_PHASE : Fld := ⟨0x14, 0, 8⟩
abbrev CNT_MC_FRAMES : Fld := ⟨0x18, 0, 32⟩
abbrev CNT_BLEND_FRAMES : Fld := ⟨0x1C, 0, 32⟩
abbrev CNT_REPEAT_FRAMES : Fld := ⟨0x20, 0, 32⟩
abbrev CNT_CUT_CUTS : Fld := ⟨0x24, 0, 32⟩
abbrev CNT_LATE_FRAMES : Fld := ⟨0x28, 0, 32⟩

/-! Fields of R287. -/
abbrev CV_POOL_CONF_CONF_BLEND : Fld := ⟨0x100, 0, 8⟩
abbrev CV_POOL_CONF_CONF_REPEAT : Fld := ⟨0x100, 8, 8⟩
abbrev CV_POOL_CONF_CUT_CONF : Fld := ⟨0x100, 16, 8⟩
abbrev CV_POOL_CONF_RETURN_FRAMES : Fld := ⟨0x100, 24, 4⟩
abbrev CV_POOL_CAD_CAD_THRESH : Fld := ⟨0x104, 0, 14⟩
abbrev CV_POOL_CAD_CAD_LOCK : Fld := ⟨0x104, 16, 4⟩
abbrev CV_POOL_STAT_SLOTS_FREE : Fld := ⟨0x108, 0, 5⟩

/-! Fields of R316. -/
abbrev AR_CFG_AVG_HYST : Fld := ⟨0x40, 0, 8⟩
abbrev AR_CFG_ASYNC_TENTHS_PPM : Fld := ⟨0x40, 8, 8⟩
abbrev AR_COUNT_ROUTES : Fld := ⟨0x44, 0, 15⟩
abbrev AR_COUNT_LONG_TAPS : Fld := ⟨0x44, 16, 12⟩
abbrev RQ_INDEX_INDEX : Fld := ⟨0x48, 0, 14⟩
abbrev RQ_STAT_APPLIED : Fld := ⟨0x4C, 0, 17⟩
abbrev RQ_STAT_LONG : Fld := ⟨0x4C, 17, 1⟩
abbrev RQ_STAT_CLASS : Fld := ⟨0x4C, 18, 2⟩
abbrev RQ_STAT_CLAMPED : Fld := ⟨0x4C, 20, 1⟩
abbrev RQ_STAT_XFADE : Fld := ⟨0x4C, 21, 1⟩
abbrev RQ_TARGET_SAMPLES : Fld := ⟨0x50, 0, 17⟩
abbrev RQ_AVERR_NS : Fld := ⟨0x54, 0, 32⟩
abbrev RQ_PATH_P : Fld := ⟨0x58, 0, 8⟩
abbrev RQ_PATH_RESOLVED : Fld := ⟨0x58, 8, 13⟩
abbrev AR_CLIP_DEST : Fld := ⟨0x5C, 0, 12⟩
abbrev AR_LAST_INDEX : Fld := ⟨0x60, 0, 14⟩
abbrev AR_LAST_EVENT : Fld := ⟨0x60, 14, 4⟩
abbrev LIM_CFG_INPUT : Fld := ⟨0x70, 0, 2⟩
abbrev LIM_CFG_QTY : Fld := ⟨0x70, 2, 2⟩
abbrev LIM_CFG_THRESH : Fld := ⟨0x70, 4, 11⟩
abbrev LIM_CFG_EN : Fld := ⟨0x70, 15, 1⟩
abbrev LIM_STAT_LEVEL : Fld := ⟨0x74, 0, 11⟩
abbrev LIM_STAT_VALID : Fld := ⟨0x74, 11, 1⟩
abbrev LIM_SUGGEST_ATTEN : Fld := ⟨0x78, 0, 11⟩
abbrev GEN_CFG_MODE : Fld := ⟨0x100, 0, 2⟩
abbrev GEN_CFG_FREQ : Fld := ⟨0x100, 2, 15⟩
abbrev GEN_CFG_LEVEL : Fld := ⟨0x100, 17, 11⟩
abbrev ASRC_CFG_BASE : Fld := ⟨0x200, 0, 12⟩
abbrev ASRC_CFG_COUNT : Fld := ⟨0x200, 12, 6⟩
abbrev ASRC_CFG_PAIR96 : Fld := ⟨0x200, 18, 1⟩
abbrev ASRC_CFG_GROUP : Fld := ⟨0x200, 19, 6⟩
abbrev ASRC_STAT_STATE : Fld := ⟨0x204, 0, 2⟩
abbrev ASRC_STAT_RATIO_PPB : Fld := ⟨0x204, 8, 24⟩

/-! Fields of R317. -/
abbrev ROUTE_SRC_SRC : Fld := ⟨0x0, 0, 13⟩
abbrev ROUTE_SRC_DST : Fld := ⟨0x0, 13, 12⟩
abbrev ROUTE_SRC_GROUP : Fld := ⟨0x0, 25, 6⟩
abbrev ROUTE_SRC_EN : Fld := ⟨0x0, 31, 1⟩
abbrev ROUTE_GAIN_GAIN : Fld := ⟨0x0, 0, 11⟩
abbrev ROUTE_GAIN_INVERT : Fld := ⟨0x0, 11, 1⟩
abbrev ROUTE_GAIN_SLOT : Fld := ⟨0x0, 12, 3⟩
abbrev ROUTE_TIME_DELAY : Fld := ⟨0x0, 0, 17⟩
abbrev ROUTE_TIME_AUTO : Fld := ⟨0x0, 17, 1⟩
abbrev ROUTE_TIME_AFV : Fld := ⟨0x0, 18, 1⟩

/-! Fields of R318. -/
abbrev DEST_CFG_FOLLOW_INDEX : Fld := ⟨0x0, 0, 11⟩
abbrev DEST_CFG_FOLLOW_TABLE : Fld := ⟨0x0, 11, 1⟩
abbrev DEST_CFG_FOLLOW_EN : Fld := ⟨0x0, 12, 1⟩
abbrev DEST_CFG_PAIR96 : Fld := ⟨0x0, 13, 1⟩
abbrev DEST_CFG_DATA : Fld := ⟨0x0, 14, 1⟩
abbrev DEST_CFG_GROUP : Fld := ⟨0x0, 15, 6⟩
abbrev DEST_STAT_ROUTES : Fld := ⟨0x0, 0, 4⟩
abbrev DEST_STAT_CLIP : Fld := ⟨0x0, 4, 1⟩
abbrev AFV_MAP_BASE : Fld := ⟨0x0, 0, 12⟩
abbrev AFV_MAP_VALID : Fld := ⟨0x0, 15, 1⟩

/-! Fields of R319. -/
abbrev DEEMB_CFG_GROUPS : Fld := ⟨0x40, 0, 8⟩
abbrev DEEMB_STAT_PRESENT : Fld := ⟨0x44, 0, 8⟩
abbrev DEEMB_STAT_RATE96 : Fld := ⟨0x44, 8, 8⟩
abbrev DEEMB_STAT_ASYNC : Fld := ⟨0x44, 16, 1⟩
abbrev DEEMB_STAT_CTRL_PRESENT : Fld := ⟨0x44, 17, 1⟩
abbrev DEEMB_RATE_PPB : Fld := ⟨0x48, 0, 32⟩
abbrev DEEMB_ERR_CORR : Fld := ⟨0x4C, 0, 16⟩
abbrev DEEMB_ERR_UNCORR : Fld := ⟨0x4C, 16, 16⟩
abbrev EMB_CFG_GROUPS : Fld := ⟨0x50, 0, 8⟩
abbrev EMB_CFG_CTRL_EN : Fld := ⟨0x50, 8, 1⟩
abbrev EMB_PCM_NON_PCM : Fld := ⟨0x54, 0, 16⟩
abbrev EMB_STAT_CAPACITY : Fld := ⟨0x58, 0, 6⟩
abbrev EMB_STAT_OVER : Fld := ⟨0x58, 6, 1⟩
abbrev EMB_UNDER_COUNT : Fld := ⟨0x5C, 0, 32⟩
abbrev ANC_SRC_SRC : Fld := ⟨0x60, 0, 12⟩
abbrev ANC_SRC_MODE : Fld := ⟨0x60, 12, 2⟩
abbrev ANC_SRC_ON_REPEAT : Fld := ⟨0x60, 14, 1⟩
abbrev ANC_SRC_BLOCK : Fld := ⟨0x60, 15, 1⟩
abbrev ANC_FILT_DID : Fld := ⟨0x64, 0, 8⟩
abbrev ANC_FILT_SDID : Fld := ⟨0x64, 8, 8⟩
abbrev ANC_FILT_TYPE1 : Fld := ⟨0x64, 16, 1⟩
abbrev ANC_FILT_EN : Fld := ⟨0x64, 17, 1⟩

/-! Fields of R359. -/
abbrev PORT_CFG_FEC : Fld := ⟨0x40, 0, 1⟩
abbrev PORT_CFG_LOOPBACK : Fld := ⟨0x40, 1, 1⟩
abbrev PORT_CFG_TX_POL : Fld := ⟨0x40, 2, 4⟩
abbrev PORT_CFG_RX_POL : Fld := ⟨0x40, 6, 4⟩
abbrev PORT_STAT_LINK : Fld := ⟨0x44, 0, 1⟩
abbrev PORT_STAT_ALIGNED : Fld := ⟨0x44, 1, 1⟩
abbrev PORT_STAT_MOD_PRESENT : Fld := ⟨0x44, 2, 1⟩
abbrev PORT_STAT_MOD_INT : Fld := ⟨0x44, 3, 1⟩
abbrev MAC_LO_BYTES : Fld := ⟨0x48, 0, 32⟩
abbrev MAC_HI_BYTES : Fld := ⟨0x4C, 0, 16⟩
abbrev IP_ADDR_IPV4 : Fld := ⟨0x50, 0, 32⟩
abbrev CNT_RX_FRAMES_COUNT : Fld := ⟨0x54, 0, 32⟩
abbrev CNT_RX_FCS_COUNT : Fld := ⟨0x58, 0, 32⟩
abbrev CNT_RX_FILTERED_COUNT : Fld := ⟨0x5C, 0, 32⟩
abbrev CNT_RX_OVERFLOW_COUNT : Fld := ⟨0x60, 0, 32⟩
abbrev CNT_TX_FRAMES_COUNT : Fld := ⟨0x64, 0, 32⟩
abbrev CNT_TX_LINKDOWN_COUNT : Fld := ⟨0x68, 0, 32⟩
abbrev CNT_FEC_CORR : Fld := ⟨0x6C, 0, 16⟩
abbrev CNT_FEC_UNCORR : Fld := ⟨0x6C, 16, 16⟩
abbrev TX_LOAD_MBPS : Fld := ⟨0x70, 0, 17⟩
abbrev TX_ASK_MBPS : Fld := ⟨0x74, 0, 17⟩
abbrev IP_CAUSE_BITS : Fld := ⟨0x78, 0, 23⟩
abbrev IP_CAUSE_EN_BITS : Fld := ⟨0x7C, 0, 23⟩
abbrev IP_LAST_INDEX : Fld := ⟨0x80, 0, 10⟩
abbrev IP_LAST_CAUSE : Fld := ⟨0x80, 10, 5⟩
abbrev HQ_CFG_RX_EN : Fld := ⟨0x84, 0, 1⟩
abbrev HOST_MCAST_GROUP : Fld := ⟨0x90, 0, 32⟩

/-! Fields of R360. -/
abbrev PTP_CFG_DOMAIN : Fld := ⟨0x0, 0, 8⟩
abbrev PTP_CFG_EN : Fld := ⟨0x0, 8, 1⟩
abbrev PTP_CFG_HYBRID : Fld := ⟨0x0, 9, 1⟩
abbrev PTP_CFG_ANN_TIMEOUT : Fld := ⟨0x0, 10, 3⟩
abbrev PTP_STAT_STATE : Fld := ⟨0x4, 0, 2⟩
abbrev PTP_STAT_TWO_STEP : Fld := ⟨0x4, 2, 1⟩
abbrev PARENT_LO_ID : Fld := ⟨0x8, 0, 32⟩
abbrev PARENT_HI_ID : Fld := ⟨0xC, 0, 32⟩
abbrev PARENT_PORT_NUMBER : Fld := ⟨0x10, 0, 16⟩
abbrev OFFSET_NS : Fld := ⟨0x14, 0, 32⟩
abbrev MEAN_DELAY_NS : Fld := ⟨0x18, 0, 32⟩
abbrev ASYM_NS : Fld := ⟨0x1C, 0, 32⟩
abbrev PTP_CNT_SYNC_MISSED : Fld := ⟨0x20, 0, 16⟩
abbrev PTP_CNT_ANN_TIMEOUTS : Fld := ⟨0x20, 16, 16⟩
abbrev ACCEPT_LO_ID : Fld := ⟨0x28, 0, 32⟩
abbrev ACCEPT_HI_ID : Fld := ⟨0x2C, 0, 32⟩
abbrev ACCEPT_EN_BITS : Fld := ⟨0x48, 0, 4⟩

/-! Fields of R361. -/
abbrev MS_CFG_EN : Fld := ⟨0x0, 0, 1⟩
abbrev MS_CFG_RX_REQUIRE : Fld := ⟨0x0, 1, 1⟩
abbrev CNT_MS_ICV_COUNT : Fld := ⟨0x4, 0, 32⟩
abbrev CNT_MS_REPLAY_COUNT : Fld := ⟨0x8, 0, 32⟩
abbrev CNT_MS_NOSC_COUNT : Fld := ⟨0xC, 0, 32⟩
abbrev CNT_MS_UNPROT_COUNT : Fld := ⟨0x10, 0, 32⟩
abbrev SC_CFG_EN : Fld := ⟨0x0, 0, 1⟩
abbrev SC_CFG_DIR : Fld := ⟨0x0, 1, 1⟩
abbrev SC_CFG_XPN : Fld := ⟨0x0, 2, 1⟩
abbrev SC_CFG_POLICY : Fld := ⟨0x0, 3, 1⟩
abbrev SC_CFG_CUR_SA : Fld := ⟨0x0, 4, 1⟩
abbrev SC_CFG_GROUP : Fld := ⟨0x0, 20, 6⟩
abbrev SCI_LO_VALUE : Fld := ⟨0x4, 0, 32⟩
abbrev SCI_HI_VALUE : Fld := ⟨0x8, 0, 32⟩
abbrev SC_SA_SA0_SLOT : Fld := ⟨0xC, 0, 6⟩
abbrev SC_SA_SA0_AN : Fld := ⟨0xC, 6, 2⟩
abbrev SC_SA_SA0_VALID : Fld := ⟨0xC, 8, 1⟩
abbrev SC_SA_SA1_SLOT : Fld := ⟨0xC, 16, 6⟩
abbrev SC_SA_SA1_AN : Fld := ⟨0xC, 22, 2⟩
abbrev SC_SA_SA1_VALID : Fld := ⟨0xC, 24, 1⟩
abbrev REPLAY_WINDOW_FRAMES : Fld := ⟨0x10, 0, 32⟩
abbrev SSCI_VALUE : Fld := ⟨0x14, 0, 32⟩
abbrev SC_STAT_KEYED : Fld := ⟨0x18, 0, 1⟩
abbrev SC_STAT_PN_LOW : Fld := ⟨0x18, 1, 1⟩
abbrev SC_STAT_EXHAUSTED : Fld := ⟨0x18, 2, 1⟩
abbrev SC_DROPS_COUNT : Fld := ⟨0x1C, 0, 32⟩
abbrev SA0_SALT : Fld := ⟨0x0, 0, 32⟩
abbrev SA1_SALT : Fld := ⟨0xC, 0, 32⟩
abbrev PN_LO_VALUE : Fld := ⟨0x18, 0, 32⟩
abbrev PN_HI_VALUE : Fld := ⟨0x1C, 0, 32⟩

/-! Fields of R362. -/
abbrev OPT_CFG_RESET : Fld := ⟨0x0, 0, 1⟩
abbrev OPT_CFG_LPMODE : Fld := ⟨0x0, 1, 1⟩
abbrev OPT_CFG_FAST : Fld := ⟨0x0, 2, 1⟩
abbrev OPT_CMD_OFFSET : Fld := ⟨0x4, 0, 8⟩
abbrev OPT_CMD_LEN : Fld := ⟨0x4, 8, 8⟩
abbrev OPT_CMD_WRITE : Fld := ⟨0x4, 16, 1⟩
abbrev OPT_CMD_GO : Fld := ⟨0x4, 31, 1⟩
abbrev OPT_STAT_BUSY : Fld := ⟨0x8, 0, 1⟩
abbrev OPT_STAT_NACK : Fld := ⟨0x8, 1, 1⟩
abbrev OPT_BUF : Fld := ⟨0x100, 0, 32⟩

/-! Fields of R363. -/
abbrev RX_CFG_TYPE : Fld := ⟨0x0, 0, 3⟩
abbrev RX_CFG_LEG_B_EN : Fld := ⟨0x0, 3, 1⟩
abbrev RX_CFG_GROUP : Fld := ⟨0x0, 20, 6⟩
abbrev RX_CFG_EN : Fld := ⟨0x0, 31, 1⟩
abbrev RX_FMT_FMT : Fld := ⟨0x4, 0, 8⟩
abbrev RX_FMT_FRATE : Fld := ⟨0x4, 8, 4⟩
abbrev RX_FMT_SAMPLING : Fld := ⟨0x4, 12, 2⟩
abbrev RX_FMT_D12 : Fld := ⟨0x4, 14, 1⟩
abbrev RX_FMT_COLORIMETRY : Fld := ⟨0x4, 15, 1⟩
abbrev RX_FMT_TRANSFER : Fld := ⟨0x4, 16, 2⟩
abbrev RX_AUD_CH_BASE : Fld := ⟨0x8, 0, 10⟩
abbrev RX_AUD_CHANNELS : Fld := ⟨0x8, 10, 7⟩
abbrev RX_AUD_RATE96 : Fld := ⟨0x8, 17, 1⟩
abbrev RX_AUD_L16 : Fld := ⟨0x8, 18, 1⟩
abbrev RX_PLAY_PLAYOUT : Fld := ⟨0xC, 0, 13⟩
abbrev RX_LEGA_DST_IPV4 : Fld := ⟨0x10, 0, 32⟩
abbrev RX_LEGA_SRC_IPV4 : Fld := ⟨0x14, 0, 32⟩
abbrev RX_LEGA_CFG_UDP_PORT : Fld := ⟨0x18, 0, 16⟩
abbrev RX_LEGA_CFG_PORT : Fld := ⟨0x18, 16, 2⟩
abbrev RX_LEGA_CFG_VID : Fld := ⟨0x18, 18, 12⟩
abbrev RX_LEGA_CFG_VLAN_MATCH : Fld := ⟨0x18, 30, 1⟩
abbrev RX_LEGB_DST_LEGB_SRC_LEGB_CFG : Fld := ⟨0x1C, 0, 32⟩
abbrev RX_SKEW_MAX_US : Fld := ⟨0x28, 0, 14⟩
abbrev RX_STAT_STATE : Fld := ⟨0x2C, 0, 2⟩
abbrev RX_STAT_LEGA_OK : Fld := ⟨0x2C, 2, 1⟩
abbrev RX_STAT_LEGB_OK : Fld := ⟨0x2C, 3, 1⟩
abbrev RX_STAT_EPOCH : Fld := ⟨0x2C, 4, 4⟩
abbrev RX_STAT_ASYNC : Fld := ⟨0x2C, 8, 1⟩
abbrev RX_SKEW_STAT_SKEW_US : Fld := ⟨0x30, 0, 14⟩
abbrev RX_SKEW_STAT_B_LATER : Fld := ⟨0x30, 14, 1⟩
abbrev RX_LOST_LEGA : Fld := ⟨0x34, 0, 16⟩
abbrev RX_LOST_LEGB : Fld := ⟨0x34, 16, 16⟩
abbrev RX_UNRECOV_PACKETS : Fld := ⟨0x38, 0, 32⟩
abbrev RX_FRAMES_COUNT : Fld := ⟨0x3C, 0, 32⟩

/-! Fields of R364. -/
abbrev TX_CFG_TYPE : Fld := ⟨0x0, 0, 3⟩
abbrev TX_CFG_LEG_B_EN : Fld := ⟨0x0, 3, 1⟩
abbrev TX_CFG_SENDER_NL : Fld := ⟨0x0, 4, 1⟩
abbrev TX_CFG_IDLE : Fld := ⟨0x0, 5, 1⟩
abbrev TX_CFG_DOMAIN : Fld := ⟨0x0, 6, 3⟩
abbrev TX_CFG_PT : Fld := ⟨0x0, 9, 7⟩
abbrev TX_CFG_GROUP : Fld := ⟨0x0, 20, 6⟩
abbrev TX_CFG_EN : Fld := ⟨0x0, 31, 1⟩
abbrev TX_FMT : Fld := ⟨0x4, 0, 32⟩
abbrev TX_AUD : Fld := ⟨0x8, 0, 19⟩
abbrev TX_AUD_PTIME_125 : Fld := ⟨0x8, 19, 1⟩
abbrev TX_TIME_OFFSET_NS : Fld := ⟨0xC, 0, 28⟩
abbrev TX_TRO_TRO_NS : Fld := ⟨0x10, 0, 28⟩
abbrev TX_LEGA_DST_IPV4 : Fld := ⟨0x14, 0, 32⟩
abbrev TX_LEGA_UDP_DST_PORT : Fld := ⟨0x18, 0, 16⟩
abbrev TX_LEGA_UDP_SRC_PORT : Fld := ⟨0x18, 16, 16⟩
abbrev TX_LEGA_CFG_PORT : Fld := ⟨0x1C, 0, 2⟩
abbrev TX_LEGA_CFG_VID : Fld := ⟨0x1C, 2, 12⟩
abbrev TX_LEGA_CFG_VLAN_EN : Fld := ⟨0x1C, 14, 1⟩
abbrev TX_LEGA_CFG_PCP : Fld := ⟨0x1C, 15, 3⟩
abbrev TX_LEGA_CFG_DSCP : Fld := ⟨0x1C, 18, 6⟩
abbrev TX_LEGA_CFG_SC : Fld := ⟨0x1C, 24, 5⟩
abbrev TX_LEGA_CFG_SC_EN : Fld := ⟨0x1C, 29, 1⟩
abbrev TX_LEGB_DST_LEGB_UDP_LEGB_CFG : Fld := ⟨0x20, 0, 32⟩
abbrev TX_SSRC_VALUE : Fld := ⟨0x2C, 0, 32⟩
abbrev TX_LINK_CONTEXT : Fld := ⟨0x30, 0, 10⟩
abbrev TX_STAT_STATE : Fld := ⟨0x34, 0, 2⟩
abbrev TX_CHARGE_MBPS : Fld := ⟨0x38, 0, 17⟩
abbrev TX_LATE_PACKETS : Fld := ⟨0x3C, 0, 32⟩

/-! Fields of R365. -/
abbrev HQR_STAT_LEN : Fld := ⟨0x0, 0, 12⟩
abbrev HQR_STAT_COUNT : Fld := ⟨0x0, 12, 8⟩
abbrev HQR_STAT_DROPS : Fld := ⟨0x0, 20, 12⟩
abbrev HQR_TS_NS_VALUE : Fld := ⟨0x4, 0, 30⟩
abbrev HQR_TS_SEC_VALUE : Fld := ⟨0x8, 0, 32⟩
abbrev HQR_POP_POP : Fld := ⟨0xC, 0, 1⟩
abbrev HQR_DATA : Fld := ⟨0x800, 0, 32⟩
abbrev HQT_CTRL_LEN : Fld := ⟨0x0, 0, 12⟩
abbrev HQT_CTRL_SC : Fld := ⟨0x0, 12, 5⟩
abbrev HQT_CTRL_SC_EN : Fld := ⟨0x0, 17, 1⟩
abbrev HQT_CTRL_TS_REQ : Fld := ⟨0x0, 18, 1⟩
abbrev HQT_CTRL_SEND : Fld := ⟨0x0, 31, 1⟩
abbrev HQT_STAT_BUSY : Fld := ⟨0x4, 0, 1⟩
abbrev HQT_STAT_TS_VALID : Fld := ⟨0x4, 1, 1⟩
abbrev HQT_TS_NS_VALUE : Fld := ⟨0x8, 0, 30⟩
abbrev HQT_TS_SEC_VALUE : Fld := ⟨0xC, 0, 32⟩
abbrev HQT_DATA : Fld := ⟨0x800, 0, 32⟩

/-! Fields of R391. -/
abbrev MC_CTRL_FAIL : Fld := ⟨0x40, 0, 1⟩
abbrev MC_CTRL_RESTORE : Fld := ⟨0x40, 1, 1⟩
abbrev MC_STAT_STATE : Fld := ⟨0x44, 0, 3⟩
abbrev MC_STAT_REASON : Fld := ⟨0x44, 3, 4⟩
abbrev MC_THRESH_UE_FAIL : Fld := ⟨0x48, 0, 8⟩
abbrev MC_THRESH_CE_FAIL : Fld := ⟨0x48, 8, 16⟩
abbrev MC_CE_COUNT : Fld := ⟨0x4C, 0, 32⟩
abbrev MC_UE_COUNT : Fld := ⟨0x50, 0, 32⟩
abbrev MC_LAST_ADDR_WORD : Fld := ⟨0x54, 0, 32⟩
abbrev MC_LAST_SYN_S : Fld := ⟨0x58, 0, 7⟩
abbrev MC_LAST_SYN_P : Fld := ⟨0x58, 7, 1⟩
abbrev MC_LAST_SYN_UE : Fld := ⟨0x58, 8, 1⟩
abbrev MC_TRAIN_RD_EYE : Fld := ⟨0x5C, 0, 8⟩
abbrev MC_TRAIN_WR_EYE : Fld := ⟨0x5C, 8, 8⟩
abbrev MC_TRAIN_VREF : Fld := ⟨0x5C, 16, 6⟩
abbrev MC_RAW_ADDR_WORD : Fld := ⟨0x60, 0, 32⟩
abbrev MC_RAW_DATA_LO_VALUE : Fld := ⟨0x64, 0, 32⟩
abbrev MC_RAW_DATA_HI_VALUE : Fld := ⟨0x68, 0, 32⟩
abbrev MC_RAW_CHECK_VALUE : Fld := ⟨0x6C, 0, 8⟩
abbrev MC_RAW_CTRL_GO : Fld := ⟨0x70, 0, 1⟩
abbrev MC_RAW_CTRL_WRITE : Fld := ⟨0x70, 1, 1⟩
abbrev MC_RAW_CTRL_BUSY : Fld := ⟨0x70, 2, 1⟩
abbrev MC_RAW_UNLOCK_KEY : Fld := ⟨0x74, 0, 32⟩
abbrev MC_ST_MISMATCH : Fld := ⟨0x78, 0, 16⟩

/-! Fields of R392. -/
abbrev MEM_GEOM_WIDTH : Fld := ⟨0x100, 0, 1⟩
abbrev MEM_GEOM_DENSITY : Fld := ⟨0x100, 1, 1⟩
abbrev MEM_GEOM_RANKS : Fld := ⟨0x100, 2, 1⟩
abbrev MEM_GEOM_SPEED : Fld := ⟨0x100, 3, 3⟩
abbrev MEM_GEOM_REFRESH_2X : Fld := ⟨0x100, 6, 1⟩
abbrev MEM_BOOT_WARM_TEST : Fld := ⟨0x104, 0, 1⟩
abbrev MEM_STAT_FAILED : Fld := ⟨0x108, 0, 2⟩
abbrev MEM_STAT_ERASURE : Fld := ⟨0x108, 2, 1⟩
abbrev MEM_STAT_LOST : Fld := ⟨0x108, 3, 1⟩
abbrev MEM_STAT_INIT_DONE : Fld := ⟨0x108, 4, 1⟩
abbrev MEM_CAP_GIB : Fld := ⟨0x10C, 0, 6⟩
abbrev ST_RESULT_FAILED : Fld := ⟨0x110, 0, 12⟩
abbrev ST_RESULT_RAN : Fld := ⟨0x110, 12, 1⟩
abbrev ST_TIME_MS : Fld := ⟨0x114, 0, 32⟩

/-! Fields of R393. -/
abbrev WN_CFG_EN : Fld := ⟨0x40, 0, 1⟩
abbrev WN_RATE_STRIPES : Fld := ⟨0x44, 0, 24⟩
abbrev WN_REBUILD_STRIPES : Fld := ⟨0x48, 0, 24⟩
abbrev WN_RATE_EFF_STRIPES : Fld := ⟨0x4C, 0, 24⟩
abbrev WN_POS_STRIPE : Fld := ⟨0x50, 0, 32⟩
abbrev WN_PASS_COUNT : Fld := ⟨0x54, 0, 32⟩
abbrev WN_CORR_STRIPES : Fld := ⟨0x58, 0, 32⟩
abbrev WN_POISON_ENTRIES : Fld := ⟨0x5C, 0, 13⟩
abbrev WN_LAST_STRIPE : Fld := ⟨0x60, 0, 32⟩
abbrev WN_LAST_BIN_BIN : Fld := ⟨0x64, 0, 18⟩
abbrev WN_LAST_OWNER_INDEX : Fld := ⟨0x68, 0, 12⟩
abbrev WN_LAST_OWNER_KIND : Fld := ⟨0x68, 13, 3⟩
abbrev POISON_IDX_INDEX : Fld := ⟨0x6C, 0, 12⟩
abbrev POISON_ENTRY_STRIPE : Fld := ⟨0x70, 0, 32⟩
abbrev WN_REBUILD_STAT_CHANNEL : Fld := ⟨0x74, 0, 4⟩
abbrev WN_REBUILD_STAT_ACTIVE : Fld := ⟨0x74, 4, 1⟩

/-! Fields of R417. -/
abbrev BM_MCFG_QOS : Fld := ⟨0x40, 0, 4⟩
abbrev BM_MCFG_OUT_MAX : Fld := ⟨0x40, 4, 5⟩
abbrev BM_MSTAT_OUTSTANDING : Fld := ⟨0x60, 0, 5⟩
abbrev BM_MSTAT_QUARANTINED : Fld := ⟨0x60, 5, 6⟩
abbrev BM_MSTAT_STALLED : Fld := ⟨0x60, 11, 1⟩
abbrev BM_MSTAT_IN_RESET : Fld := ⟨0x60, 12, 1⟩
abbrev BM_QUAR_IDS : Fld := ⟨0x80, 0, 32⟩
abbrev BM_TCFG_PARK : Fld := ⟨0xA0, 0, 4⟩
abbrev BM_TSTAT_LOCKED : Fld := ⟨0xD0, 0, 1⟩
abbrev BM_TSTAT_LOCK_OWNER : Fld := ⟨0xD0, 1, 3⟩
abbrev BM_DEC_INFO_MASTER : Fld := ⟨0x100, 0, 3⟩
abbrev BM_DEC_INFO_ID : Fld := ⟨0x100, 3, 5⟩
abbrev BM_DEC_INFO_WRITE : Fld := ⟨0x100, 8, 1⟩
abbrev BM_DEC_INFO_REASON : Fld := ⟨0x100, 9, 2⟩
abbrev BM_DEC_ADDR_LO_ADDR : Fld := ⟨0x104, 0, 32⟩
abbrev BM_DEC_ADDR_HI_ADDR : Fld := ⟨0x108, 0, 8⟩
abbrev BM_ERR_INFO_MASTER : Fld := ⟨0x10C, 0, 3⟩
abbrev BM_ERR_INFO_ID : Fld := ⟨0x10C, 3, 5⟩
abbrev BM_ERR_INFO_TARGET : Fld := ⟨0x10C, 8, 4⟩
abbrev BM_ERR_INFO_RESP : Fld := ⟨0x10C, 12, 2⟩
abbrev BM_ERR_ADDR_LO_ADDR : Fld := ⟨0x110, 0, 32⟩
abbrev BM_ERR_ADDR_HI_ADDR : Fld := ⟨0x114, 0, 8⟩
abbrev BM_LOCK_INFO_MASTER : Fld := ⟨0x118, 0, 3⟩
abbrev BM_LOCK_INFO_TARGET : Fld := ⟨0x118, 3, 4⟩
abbrev BM_CNT_DEC_COUNT : Fld := ⟨0x11C, 0, 32⟩
abbrev BM_CNT_ERR_COUNT : Fld := ⟨0x120, 0, 32⟩
abbrev BM_CNT_PROMOTE_COUNT : Fld := ⟨0x124, 0, 32⟩
abbrev BM_OUT_BASE_LO_ADDR : Fld := ⟨0x128, 12, 20⟩
abbrev BM_OUT_BASE_HI_ADDR : Fld := ⟨0x12C, 0, 32⟩
abbrev BM_M6_BASE_BIN : Fld := ⟨0x130, 0, 18⟩
abbrev BM_M6_LEN_BYTES : Fld := ⟨0x134, 0, 24⟩
abbrev BM_T0_PARTIAL_COUNT : Fld := ⟨0x138, 0, 32⟩

/-! Fields of R438. -/
abbrev KS_STAT_TAMPERED : Fld := ⟨0x40, 0, 1⟩
abbrev KS_STAT_READY : Fld := ⟨0x40, 1, 1⟩
abbrev KS_STAT_VALID_SLOTS : Fld := ⟨0x40, 2, 7⟩
abbrev KS_TAMPER_CAUSE : Fld := ⟨0x44, 0, 5⟩
abbrev KS_TAMPER_HISTORY : Fld := ⟨0x44, 5, 1⟩
abbrev CMD_OP : Fld := ⟨0x50, 0, 4⟩
abbrev CMD_SLOT : Fld := ⟨0x50, 4, 6⟩
abbrev CMD_PARENT : Fld := ⟨0x50, 10, 6⟩
abbrev CMD_GO : Fld := ⟨0x50, 31, 1⟩
abbrev CMD_ATTR_WORD : Fld := ⟨0x54, 0, 32⟩
abbrev CMD_LEN_LABEL_LEN : Fld := ⟨0x58, 0, 6⟩
abbrev CMD_LEN_CTX_LEN : Fld := ⟨0x58, 6, 7⟩
abbrev KS_CMD_RES_CODE : Fld := ⟨0x5C, 0, 8⟩
abbrev KS_CMD_RES_DONE : Fld := ⟨0x5C, 8, 1⟩
abbrev KS_CMD_RES_BUSY : Fld := ⟨0x5C, 9, 1⟩
abbrev KS_COUNTER_VALUE : Fld := ⟨0x60, 0, 32⟩
abbrev MEAS_STAGES_STAGES : Fld := ⟨0x64, 0, 8⟩
abbrev MEAS_STAGES_FINAL : Fld := ⟨0x64, 8, 1⟩
abbrev KS_LAST_SLOT : Fld := ⟨0x68, 0, 6⟩
abbrev KS_LAST_ENGINE : Fld := ⟨0x68, 8, 3⟩
abbrev LABEL : Fld := ⟨0x80, 0, 32⟩
abbrev CONTEXT : Fld := ⟨0xA0, 0, 32⟩
abbrev CHALLENGE : Fld := ⟨0xE0, 0, 32⟩
abbrev RESPONSE : Fld := ⟨0x100, 0, 32⟩
abbrev MEAS_ACC : Fld := ⟨0x120, 0, 32⟩
abbrev OWNER_HASH : Fld := ⟨0x150, 0, 32⟩
abbrev DEVICE_PUB : Fld := ⟨0x180, 0, 32⟩
abbrev SLOT_ATTR : Fld := ⟨0x200, 0, 32⟩
abbrev SLOT_GEN_GEN : Fld := ⟨0x204, 0, 8⟩
abbrev SLOT_GEN_PARENT_GEN : Fld := ⟨0x204, 8, 8⟩
abbrev UPD_MSG : Fld := ⟨0x400, 0, 32⟩

/-! Fields of R467. -/
abbrev NV_CFG_LEVEL : Fld := ⟨0x40, 0, 5⟩
abbrev NV_CFG_GLEANER_EN : Fld := ⟨0x40, 5, 1⟩
abbrev NV_STAT_INHIBIT : Fld := ⟨0x44, 0, 1⟩
abbrev NV_STAT_READY : Fld := ⟨0x44, 1, 1⟩
abbrev NV_STAT_COMPACTING : Fld := ⟨0x44, 2, 1⟩
abbrev NV_STAT_GATHER_OPEN : Fld := ⟨0x44, 3, 1⟩
abbrev NV_STAT_GATHER_OWNER : Fld := ⟨0x44, 4, 3⟩
abbrev REC_SPACE_ERASED : Fld := ⟨0x48, 0, 5⟩
abbrev REC_SPACE_LIVE_KIB : Fld := ⟨0x48, 8, 11⟩
abbrev REC_SPACE_KEYS : Fld := ⟨0x48, 20, 12⟩
abbrev REC_SEQ_VALUE : Fld := ⟨0x4C, 0, 32⟩
abbrev REC_CMD_OP : Fld := ⟨0x50, 0, 3⟩
abbrev REC_CMD_CRIT : Fld := ⟨0x50, 3, 1⟩
abbrev REC_CMD_LEN : Fld := ⟨0x50, 4, 8⟩
abbrev REC_CMD_GO : Fld := ⟨0x50, 31, 1⟩
abbrev REC_KEY_KEY : Fld := ⟨0x54, 0, 16⟩
abbrev REC_RES_CODE : Fld := ⟨0x58, 0, 8⟩
abbrev REC_RES_DONE : Fld := ⟨0x58, 8, 1⟩
abbrev REC_RES_BUSY : Fld := ⟨0x58, 9, 1⟩
abbrev REC_RES_LEN : Fld := ⟨0x58, 10, 8⟩
abbrev REC_RSEQ_VALUE : Fld := ⟨0x5C, 0, 32⟩
abbrev GATHER_USED_BYTES : Fld := ⟨0x60, 0, 13⟩
abbrev CNT_CMD_INDEX : Fld := ⟨0x64, 0, 4⟩
abbrev CNT_CMD_INC : Fld := ⟨0x64, 31, 1⟩
abbrev CNT_RES_CODE : Fld := ⟨0x68, 0, 8⟩
abbrev CNT_RES_DONE : Fld := ⟨0x68, 8, 1⟩
abbrev CNT_RES_BUSY : Fld := ⟨0x68, 9, 1⟩
abbrev RAW_CTRL_PAGE : Fld := ⟨0x6C, 0, 14⟩
abbrev RAW_CTRL_OP : Fld := ⟨0x6C, 14, 3⟩
abbrev RAW_CTRL_GO : Fld := ⟨0x6C, 31, 1⟩
abbrev RAW_PTR_PTR : Fld := ⟨0x70, 0, 8⟩
abbrev RAW_DATA_BYTES : Fld := ⟨0x74, 0, 32⟩
abbrev RAW_RES_CODE : Fld := ⟨0x78, 0, 8⟩
abbrev RAW_RES_DONE : Fld := ⟨0x78, 8, 1⟩
abbrev RAW_RES_BUSY : Fld := ⟨0x78, 9, 1⟩
abbrev RAW_RES_OWNED : Fld := ⟨0x78, 10, 1⟩
abbrev RAW_RES_OWNER : Fld := ⟨0x78, 11, 3⟩
abbrev FLASH_LAST_PAGE : Fld := ⟨0x7C, 0, 14⟩
abbrev FLASH_LAST_KIND : Fld := ⟨0x7C, 14, 2⟩
abbrev GLEAN_STAT_REWRITTEN : Fld := ⟨0x80, 0, 16⟩
abbrev GLEAN_STAT_RAW_WEAK : Fld := ⟨0x80, 16, 16⟩
abbrev GLEAN_NEXT_MINUTES : Fld := ⟨0x84, 0, 16⟩
abbrev SECT_WEAR_MAX_ERASES : Fld := ⟨0x88, 0, 24⟩
abbrev REC_CMT_VALUE : Fld := ⟨0x8C, 0, 32⟩
abbrev CNT_VAL_VALUE : Fld := ⟨0x90, 0, 32⟩
abbrev CNT_SAT_BITS : Fld := ⟨0xD0, 0, 16⟩
abbrev REC_DATA : Fld := ⟨0x100, 0, 32⟩

/-! Fields of R496. -/
abbrev YM_YM_LINK_UP : Fld := ⟨0x40, 0, 1⟩
abbrev YM_YM_LINK_EVER : Fld := ⟨0x40, 1, 1⟩
abbrev YM_YM_LINK_AGE_MS : Fld := ⟨0x40, 16, 16⟩
abbrev YM_YM_LINK_ERR_CRC : Fld := ⟨0x44, 0, 16⟩
abbrev YM_YM_STAT_MEASURING : Fld := ⟨0x48, 0, 1⟩
abbrev YM_YM_STAT_SEAL_OPEN : Fld := ⟨0x48, 1, 1⟩
abbrev YM_YM_STAT_RTC_VALID : Fld := ⟨0x48, 2, 1⟩
abbrev YM_YM_STAT_METRO_OK : Fld := ⟨0x48, 3, 1⟩
abbrev YM_YM_STAT_SIGN_OK : Fld := ⟨0x48, 4, 1⟩
abbrev YM_YM_STAT_OFFER_VALID : Fld := ⟨0x48, 5, 1⟩
abbrev YM_YM_ID_LO_VALUE : Fld := ⟨0x4C, 0, 32⟩
abbrev YM_YM_ID_HI_VALUE : Fld := ⟨0x50, 0, 32⟩
abbrev YM_YM_S_SEQ_VALUE : Fld := ⟨0x54, 0, 32⟩
abbrev YM_YM_Q_SEQ_VALUE : Fld := ⟨0x58, 0, 32⟩
abbrev YM_YM_AUDIT_VALUE : Fld := ⟨0x5C, 0, 32⟩
abbrev YM_YM_SEAL_COUNT : Fld := ⟨0x60, 0, 16⟩
abbrev YM_YM_SEAL_QOFS : Fld := ⟨0x60, 16, 10⟩
abbrev YM_YM_CAL_ID_VALUE : Fld := ⟨0x64, 0, 32⟩
abbrev YM_YM_RTC_LO_SECONDS : Fld := ⟨0x68, 0, 32⟩
abbrev YM_YM_RTC_HI_SECONDS : Fld := ⟨0x6C, 0, 16⟩
abbrev YM_YM_OFFER_OFFSET_US : Fld := ⟨0x70, 0, 32⟩
abbrev YM_YM_TEMP_VALUE : Fld := ⟨0x74, 0, 16⟩
abbrev YM_YM_HELD_S : Fld := ⟨0x78, 0, 13⟩
abbrev YM_YM_HELD_Q : Fld := ⟨0x78, 16, 12⟩
abbrev YM_IN_EQ_A_S1 : Fld := ⟨0x80, 0, 16⟩
abbrev YM_IN_EQ_A_S60 : Fld := ⟨0x80, 16, 16⟩
abbrev YM_IN_EQ_B_S900 : Fld := ⟨0x84, 0, 16⟩
abbrev YM_IN_EQ_B_S3600 : Fld := ⟨0x84, 16, 16⟩
abbrev YM_IN_PK_LCPEAK : Fld := ⟨0x88, 0, 16⟩
abbrev YM_IN_PK_LAFMAX : Fld := ⟨0x88, 16, 16⟩
abbrev YM_IN_CZ_LCEQ : Fld := ⟨0x8C, 0, 16⟩
abbrev YM_IN_CZ_LZEQ : Fld := ⟨0x8C, 16, 16⟩
abbrev YM_IN_ST_STATUS : Fld := ⟨0x90, 0, 8⟩
abbrev YM_IN_ST_RANGE : Fld := ⟨0x90, 8, 2⟩
abbrev YM_IN_ST_SENS : Fld := ⟨0x90, 16, 16⟩

/-! Fields of R498. -/
abbrev LOG_CFG_S_WIN : Fld := ⟨0x0, 0, 1⟩
abbrev LOG_CFG_Q_WIN : Fld := ⟨0x0, 1, 1⟩
abbrev LOG_S_LO_SEQ : Fld := ⟨0x4, 0, 32⟩
abbrev LOG_S_HI_SEQ : Fld := ⟨0x8, 0, 32⟩
abbrev LOG_Q_LO_SEQ : Fld := ⟨0xC, 0, 32⟩
abbrev LOG_Q_HI_SEQ : Fld := ⟨0x10, 0, 32⟩
abbrev LOG_WR_SLOT : Fld := ⟨0x14, 0, 13⟩
abbrev LOG_RD_SLOT : Fld := ⟨0x18, 0, 13⟩
abbrev LOG_CNT_RECORDS : Fld := ⟨0x1C, 0, 32⟩
abbrev LOG_DROP_RECORDS : Fld := ⟨0x20, 0, 32⟩

/-! Fields of R520. -/
abbrev MG_STAT_SLOT : Fld := ⟨0x40, 0, 1⟩
abbrev MG_STAT_FALLBACK : Fld := ⟨0x40, 1, 1⟩
abbrev MG_STAT_RECOVERY : Fld := ⟨0x40, 2, 1⟩
abbrev MG_VER_VERSION : Fld := ⟨0x44, 0, 32⟩
abbrev MG_WDT_TIMEOUT_MS : Fld := ⟨0x48, 0, 14⟩
abbrev MG_WDT_KICK : Fld := ⟨0x48, 31, 1⟩
abbrev MG_DBG_EN : Fld := ⟨0x4C, 0, 1⟩
abbrev MG_DBG_LOCKED : Fld := ⟨0x4C, 1, 1⟩
abbrev MG_POWERED_HOURS : Fld := ⟨0x50, 0, 32⟩
abbrev UPD_CFG_SRC : Fld := ⟨0x60, 0, 1⟩
abbrev UPD_ADDR_LO_ADDR : Fld := ⟨0x64, 0, 32⟩
abbrev UPD_ADDR_HI_ADDR : Fld := ⟨0x68, 0, 6⟩
abbrev UPD_CMD_START : Fld := ⟨0x6C, 0, 1⟩
abbrev UPD_CMD_ABORT : Fld := ⟨0x6C, 1, 1⟩
abbrev UPD_CMD_BLOCK_READY : Fld := ⟨0x6C, 2, 1⟩
abbrev UPD_STAT_STATE : Fld := ⟨0x70, 0, 3⟩
abbrev UPD_STAT_RESULT : Fld := ⟨0x70, 8, 8⟩
abbrev UPD_STAT_BLOCKS : Fld := ⟨0x70, 16, 11⟩
abbrev DMA_SRC_LO_ADDR : Fld := ⟨0x80, 0, 32⟩
abbrev DMA_SRC_HI_ADDR : Fld := ⟨0x84, 0, 8⟩
abbrev DMA_DST_LO_ADDR : Fld := ⟨0x88, 0, 32⟩
abbrev DMA_DST_HI_ADDR : Fld := ⟨0x8C, 0, 8⟩
abbrev DMA_LEN_BYTES : Fld := ⟨0x90, 0, 25⟩
abbrev DMA_CTRL_QOS : Fld := ⟨0x94, 0, 4⟩
abbrev DMA_CTRL_ABORT : Fld := ⟨0x94, 30, 1⟩
abbrev DMA_CTRL_GO : Fld := ⟨0x94, 31, 1⟩
abbrev DMA_STAT_BUSY : Fld := ⟨0x98, 0, 1⟩
abbrev DMA_STAT_DONE : Fld := ⟨0x98, 1, 1⟩
abbrev DMA_STAT_RESP : Fld := ⟨0x98, 2, 2⟩
abbrev DMA_STAT_BAD_ARG : Fld := ⟨0x98, 4, 1⟩
abbrev DMA_POS_BYTES : Fld := ⟨0x9C, 0, 25⟩

/-! Fields of R521. -/
abbrev TEMP_VALUE : Fld := ⟨0x0, 0, 16⟩
abbrev TEMP_VALID : Fld := ⟨0x0, 16, 1⟩
abbrev TEMP_LIM_WARN : Fld := ⟨0x40, 0, 12⟩
abbrev TEMP_LIM_CRIT : Fld := ⟨0x40, 16, 12⟩
abbrev VOLT_MV : Fld := ⟨0x80, 0, 16⟩
abbrev VOLT_VALID : Fld := ⟨0x80, 16, 1⟩
abbrev VLIM_LOW : Fld := ⟨0x100, 0, 16⟩
abbrev VLIM_HIGH : Fld := ⟨0x100, 16, 16⟩
abbrev SLK_CUR : Fld := ⟨0x0, 0, 16⟩
abbrev SLK_MIN : Fld := ⟨0x0, 16, 16⟩
abbrev AGE_CYC_PS : Fld := ⟨0x80, 0, 32⟩
abbrev EOL_DAYS : Fld := ⟨0xC0, 0, 16⟩
abbrev EOL_SLACK : Fld := ⟨0xC0, 16, 16⟩
abbrev EOL_WARN_DAYS : Fld := ⟨0xE0, 0, 16⟩
abbrev LOG_IDX_ENTRY : Fld := ⟨0x0, 0, 14⟩
abbrev LOG_ENTRY : Fld := ⟨0x4, 0, 32⟩
abbrev MG_LOG_DROPS : Fld := ⟨0x24, 0, 16⟩
abbrev LOG_ENTRY_VALID_VALID : Fld := ⟨0x28, 0, 1⟩
abbrev YF_BASE_LO_ADDR : Fld := ⟨0x40, 0, 32⟩
abbrev YF_BASE_HI_ADDR : Fld := ⟨0x44, 0, 6⟩
abbrev YF_SLOTS_COUNT : Fld := ⟨0x48, 0, 16⟩
abbrev YF_WR_SLOT : Fld := ⟨0x4C, 0, 16⟩
abbrev YF_RD_SLOT : Fld := ⟨0x50, 0, 16⟩

/-! Fields of R522. -/
abbrev SH_SLK_IN_CUR : Fld := ⟨0x40, 0, 16⟩
abbrev SH_SLK_IN_MIN : Fld := ⟨0x40, 16, 16⟩
abbrev SH_SLK_OUT_CUR : Fld := ⟨0x80, 0, 16⟩
abbrev SH_SLK_OUT_MIN : Fld := ⟨0x80, 16, 16⟩
abbrev SH_SLK_FIN_CUR : Fld := ⟨0xC0, 0, 16⟩
abbrev SH_SLK_FIN_MIN : Fld := ⟨0xC0, 16, 16⟩
abbrev SH_AGE_CYC_PS : Fld := ⟨0x100, 0, 32⟩
abbrev SH_AGE_EOL_DAYS : Fld := ⟨0x110, 0, 16⟩

/-! Fields of R523. -/
abbrev CAL_CMD_ITEM : Fld := ⟨0x40, 0, 8⟩
abbrev CAL_CMD_OP : Fld := ⟨0x40, 8, 2⟩
abbrev CAL_CMD_GO : Fld := ⟨0x40, 31, 1⟩
abbrev CAL_UNLOCK_KEY : Fld := ⟨0x44, 0, 32⟩
abbrev CAL_STAT_CODE : Fld := ⟨0x48, 0, 8⟩
abbrev CAL_STAT_BUSY : Fld := ⟨0x48, 8, 1⟩
abbrev CAL_STAT_LEN : Fld := ⟨0x48, 9, 8⟩
abbrev CAL_DATA : Fld := ⟨0x100, 0, 32⟩

end F
end Sys2Proof.Machine
end

