-- ==== Sys2Proof/Machine/RegMap.lean ====
section
/-! DEFINITION. The register map: for every block of R43, R44, R45 and R566 its pages, and for every register of the
chapters' register tables its offset, its number of instances and their stride, its reset value and, bit by bit, the
access codes of R15. A register that no table lists reads zero and discards writes (R46). -/

namespace Sys2Proof.Machine

/-- One register of a register table, or an array of `n` equal ones `stride` bytes apart. Masks say which bits have
which access code: `rw`, `w1c`, `rws` and `rwx` as in R15; `own`: bits (RW, W1C or WO) whose write is a command of its
own in the opcode table; `m1`: bits that only bus master M1 may write (R520). Bits in no mask are RO or reserved. -/
structure Row where
  off : Nat
  n : Nat
  stride : Nat
  reset : Nat
  rw : Nat
  w1c : Nat
  rws : Nat
  rwx : Nat
  own : Nat
  m1 : Nat
deriving DecidableEq, Repr

/-- A block's page run: `cnt` pages or page groups from `page`, `pstride` pages apart; `idType` is the block type of
its header (R566), for a block whose first page it is. -/
structure Blk where
  page : Nat
  cnt : Nat
  pstride : Nat
  idType : Option Nat
  rows : List Row
deriving DecidableEq, Repr

/-- Registers of: identity. -/
def identityRows : List Row :=
  [⟨0, 1, 4, 0, 0, 0, 0, 0, 0, 0⟩, -- ID
   ⟨4, 1, 4, 0x100, 0, 0, 0, 0, 0, 0⟩, -- VERSION
   ⟨8, 1, 4, 0, 0, 0, 0, 0, 0, 0⟩, -- CTRL
   ⟨0xC, 1, 4, 0, 0, 0, 0, 0, 0, 0⟩, -- STAT
   ⟨0x10, 1, 4, 0, 0, 0, 0, 0, 0, 0⟩, -- EV_STICKY
   ⟨0x14, 1, 4, 0, 0, 0, 0, 0, 0, 0⟩, -- EV_ENABLE
   ⟨0x18, 1, 4, 0, 0, 0, 0, 0, 0, 0⟩, -- EV_FORCE
   ⟨0x1C, 1, 4, 0, 0, 0, 0, 0, 0, 0⟩, -- EV_LIVE
   ⟨0x20, 1, 4, 0, 0, 0, 0, 0, 0, 0⟩, -- COMMIT
   ⟨0x24, 1, 4, 0, 0, 0, 0, 0, 0, 0⟩, -- COMMIT_STAT
   ⟨0x28, 1, 4, 0, 0, 0, 0, 0, 0, 0⟩, -- ERR_LOC
   ⟨0x40, 1, 4, 0, 0, 0, 0, 0, 0, 0⟩, -- PART
   ⟨0x44, 1, 4, 0, 0, 0, 0, 0, 0, 0⟩, -- DIE_PRESENT
   ⟨0x48, 1, 4, 0, 0, 0, 0, 0, 0, 0⟩, -- DEVICE_ID_LO
   ⟨0x4C, 1, 4, 0, 0, 0, 0, 0, 0, 0⟩, -- DEVICE_ID_HI
   ⟨0x50, 1, 4, 0, 0, 0, 0, 0, 0, 0⟩] -- STEPPING

/-- Registers of: event and interrupt controller. -/
def eventAndInterruptControllerRows : List Row :=
  [⟨0, 1, 4, 0, 0, 0, 0, 0, 0, 0⟩, -- ID
   ⟨4, 1, 4, 0x100, 0, 0, 0, 0, 0, 0⟩, -- VERSION
   ⟨8, 1, 4, 0, 0, 0, 0, 0, 0, 0⟩, -- CTRL
   ⟨0xC, 1, 4, 0, 0, 0, 0, 0, 0, 0⟩, -- STAT
   ⟨0x10, 1, 4, 0, 0, 0, 0, 0, 7, 0⟩, -- EV_STICKY
   ⟨0x14, 1, 4, 0, 7, 0, 0, 0, 0, 0⟩, -- EV_ENABLE
   ⟨0x18, 1, 4, 0, 0, 0, 0, 0, 7, 0⟩, -- EV_FORCE
   ⟨0x1C, 1, 4, 0, 0, 0, 0, 0, 0, 0⟩, -- EV_LIVE
   ⟨0x20, 1, 4, 0, 0, 0, 0, 0, 0, 0⟩, -- COMMIT
   ⟨0x24, 1, 4, 0, 0, 0, 0, 0, 0, 0⟩, -- COMMIT_STAT
   ⟨0x28, 1, 4, 0, 0, 0, 0, 0, 0, 0⟩, -- ERR_LOC
   ⟨0x40, 0x10, 4, 0, 0, 0, 0, 0, 0, 0⟩, -- EVG_STATE[i]
   ⟨0x80, 0x80, 4, 0, 0xBFBFBFBF, 0, 0, 0, 0, 0⟩, -- EVG_MAP[j]
   ⟨0x280, 0x40, 4, 0, 0xFF0F, 0, 0, 0, 0, 0⟩, -- VEC_CTRL[v]
   ⟨0x380, 1, 4, 0, 0, 0, 0, 0, 0, 0⟩, -- VEC_PEND_LO
   ⟨0x384, 1, 4, 0, 0, 0, 0, 0, 0, 0⟩, -- VEC_PEND_HI
   ⟨0x388, 1, 4, 0, 0, 0, 0, 0, 0x3F, 0⟩, -- VEC_ACK
   ⟨0x38C, 1, 4, 0, 0, 0, 0, 0, 0, 0⟩, -- PIN_STAT
   ⟨0x390, 1, 4, 0, 0, 0, 0, 0, 0xFFFF, 0⟩, -- YUMEN_STICKY
   ⟨0x394, 1, 4, 0, 0xFFFF, 0, 0, 0, 0, 0⟩] -- YUMEN_ENABLE

/-- Registers of: MSI-X table. -/
def msiXTableRows : List Row :=
  [⟨0, 0x40, 0x10, 0, 0xFFFFFFFC, 0, 0, 0, 0, 0⟩, -- MSIX
   ⟨4, 0x40, 0x10, 0, 0xFFFFFFFF, 0, 0, 0, 0, 0⟩, -- MSIX
   ⟨8, 0x40, 0x10, 0, 0xFFFFFFFF, 0, 0, 0, 0, 0⟩, -- MSIX
   ⟨0xC, 0x40, 0x10, 1, 0, 0, 0, 0, 1, 0⟩] -- MSIX

/-- Registers of: MSI-X pending-bit array. -/
def msiXPendingBitArrayRows : List Row :=
  [⟨0, 2, 4, 0, 0, 0, 0, 0, 0, 0⟩] -- MSIX

/-- Registers of: timing core. -/
def timingCoreRows : List Row :=
  [⟨0, 1, 4, 0, 0, 0, 0, 0, 0, 0⟩, -- ID
   ⟨4, 1, 4, 0x100, 0, 0, 0, 0, 0, 0⟩, -- VERSION
   ⟨8, 1, 4, 0, 0, 0, 0, 0, 0, 0⟩, -- CTRL
   ⟨0xC, 1, 4, 0, 0, 0, 0, 0, 0, 0⟩, -- STAT
   ⟨0x10, 1, 4, 0, 0, 0, 0, 0, 0x3FFFFF, 0⟩, -- EV_STICKY
   ⟨0x14, 1, 4, 0, 0x3FFFFF, 0, 0, 0, 0, 0⟩, -- EV_ENABLE
   ⟨0x18, 1, 4, 0, 0, 0, 0, 0, 0x3FFFFF, 0⟩, -- EV_FORCE
   ⟨0x1C, 1, 4, 0, 0, 0, 0, 0, 0, 0⟩, -- EV_LIVE
   ⟨0x20, 1, 4, 0, 0, 0, 0, 0, 0, 0⟩, -- COMMIT
   ⟨0x24, 1, 4, 0, 0, 0, 0, 0, 0, 0⟩, -- COMMIT_STAT
   ⟨0x28, 1, 4, 0, 0, 0, 0, 0, 0, 0⟩, -- ERR_LOC
   ⟨0x40, 1, 4, 1, 0x7FF, 0, 0, 0, 0, 0⟩, -- TC_CFG
   ⟨0x44, 1, 4, 0x80A, 0xFFFF, 0, 0, 0, 0, 0⟩, -- TC_TIMES
   ⟨0x48, 1, 4, 0x1F407D0, 0x3FFF3FFF, 0, 0, 0, 0, 0⟩, -- TC_SLOPE
   ⟨0x4C, 1, 4, 0xA, 0x3FF, 0, 0, 0, 0, 0⟩, -- TC_BW
   ⟨0x50, 1, 4, 0x64, 0xFFFF, 0, 0, 0, 0, 0⟩, -- TC_DISAGREE
   ⟨0x54, 1, 4, 0x3E8, 0xFFFFFF, 0, 0, 0, 0, 0⟩, -- TC_HO_LIMIT
   ⟨0x58, 1, 4, 0x640064, 0xFFFFFFFF, 0, 0, 0, 0, 0⟩, -- TC_HO_MODEL1
   ⟨0x5C, 1, 4, 0x32, 0xFFFF, 0, 0, 0, 0, 0⟩, -- TC_HO_MODEL2
   ⟨0x60, 1, 4, 0x190, 0xFFFF, 0, 0, 0, 0, 0⟩, -- TC_HOST_TEMP
   ⟨0x64, 1, 4, 0x8E8, 0xFFFF, 0, 0, 0, 0, 0⟩, -- TC_QL
   ⟨0x68, 1, 4, 0, 0xFFFFFFFF, 0, 0, 0, 0, 0⟩, -- DCO_FREE
   ⟨0x6C, 1, 4, 0x3C000, 0, 0, 0, 0, 0, 0⟩, -- TC_STAT
   ⟨0x70, 1, 4, 0, 0, 0, 0, 0, 0, 0⟩, -- DCO_STEER
   ⟨0x74, 1, 4, 0, 0, 0, 0, 0, 0, 0⟩, -- DCO_HOLD
   ⟨0x78, 1, 4, 0, 0, 0, 0, 0, 0, 0⟩, -- PHASE_ERR
   ⟨0x7C, 1, 4, 0, 0, 0, 0, 0, 0, 0⟩, -- HELD_OFFSET
   ⟨0x80, 1, 4, 0, 0, 0, 0, 0, 0, 0⟩, -- HOLD_ELAPSED
   ⟨0x84, 1, 4, 0, 0, 0, 0, 0, 0, 0⟩, -- HOLD_PRED
   ⟨0x88, 1, 4, 0, 0, 0, 0, 0, 0, 0⟩, -- HOLD_SPREAD
   ⟨0x8C, 1, 4, 0, 0, 0xFFFFFFFF, 0, 0, 0, 0⟩, -- CAND_CHANGE
   ⟨0x90, 1, 4, 0, 0, 0, 0, 0, 0, 0⟩, -- DISAGREE_PAIR
   ⟨0x94, 1, 4, 0, 0, 0, 0, 0, 0, 0⟩, -- TS_SEC_LO
   ⟨0x98, 1, 4, 0, 0, 0, 0, 0, 0, 0⟩, -- TS_SEC_HI
   ⟨0x9C, 1, 4, 0, 0, 0, 0, 0, 0, 0⟩, -- TS_NS
   ⟨0xA0, 1, 4, 0, 0xFFFFFFFF, 0, 0, 0, 0, 0⟩, -- TS_SET_LO
   ⟨0xA4, 1, 4, 0, 0xFFFF, 0, 0, 0, 0, 0⟩, -- TS_SET_HI
   ⟨0xA8, 1, 4, 0, 0, 0, 0, 0, 1, 0⟩] -- TS_SET_CTRL

/-- Registers of: timing candidates. -/
def timingCandidatesRows : List Row :=
  [⟨0, 0xC, 0x40, 0x91, 0x3FF, 0, 0, 0, 0, 0⟩, -- CAND_CFG
   ⟨0x300, 4, 0x40, 0x91, 0x1FFFF, 0, 0, 0, 0, 0⟩, -- CAND_CFG of the SDI-derived candidates
   ⟨4, 0x10, 0x40, 0x640008, 0x3FF03FF, 0, 0, 0, 0, 0⟩, -- CAND_LIMIT
   ⟨8, 0x10, 0x40, 0x78, 0, 0, 0, 0, 0, 0⟩, -- CAND_STAT
   ⟨0xC, 0x10, 0x40, 0, 0, 0, 0, 0, 0, 0⟩, -- CAND_FREQ
   ⟨0x10, 0x10, 0x40, 0, 0, 0, 0, 0, 0, 0⟩, -- CAND_ABS
   ⟨0x14, 0x10, 0x40, 0, 0, 0, 0, 0, 0, 0⟩, -- CAND_JIT
   ⟨0x18, 0x10, 0x40, 0, 0, 0, 0, 0, 0, 0⟩, -- CAND_WTR
   ⟨0x1C, 0x10, 0x40, 0, 0xFF0000, 0, 0, 0, 0, 0⟩, -- CAND_RQP
   ⟨0x20, 0x10, 0x40, 0, 0, 0, 0, 0, 0, 0⟩, -- CAND_PTP
   ⟨0x24, 0x10, 0x40, 0, 0, 0, 0, 0, 0, 0⟩, -- 
   ⟨0x28, 0x10, 0x40, 0, 0, 0, 0, 0, 0, 0⟩, -- 
   ⟨0x2C, 0x10, 0x40, 0, 0, 0, 0, 0, 0, 0⟩, -- 
   ⟨0x30, 0x10, 0x40, 0, 0, 0, 0, 0, 0, 0⟩, -- 
   ⟨0x34, 0x10, 0x40, 0, 0, 0, 0, 0, 0, 0⟩, -- 
   ⟨0x38, 0x10, 0x40, 0, 0, 0, 0, 0, 0, 0⟩, -- 
   ⟨0x3C, 0x10, 0x40, 0, 0, 0, 0, 0, 0, 0⟩] -- 

/-- Registers of: timing domains. -/
def timingDomainsRows : List Row :=
  [⟨0, 8, 0x40, 0x832A, 0x8000, 0, 0, 0x7FFF, 0, 0⟩, -- TD_CFG
   ⟨4, 8, 0x40, 1, 0, 0, 0, 0, 1, 0⟩, -- TD_CTRL
   ⟨8, 8, 0x40, 0, 0x1FFF0FFF, 0, 0, 0, 0, 0⟩, -- TD_ALIGN0
   ⟨0xC, 8, 0x40, 0, 0xFF, 0, 0, 0, 0, 0⟩, -- TD_ALIGN1
   ⟨0x10, 8, 0x40, 0, 2, 0, 0, 0, 1, 0⟩, -- TD_REALIGN
   ⟨0x14, 8, 0x40, 0, 0xFFFFFFFF, 0, 0, 0, 0, 0⟩, -- TD_JUMP_FRAME
   ⟨0x18, 8, 0x40, 0xC, 0, 0, 0, 0, 0, 0⟩, -- TD_STAT
   ⟨0x1C, 8, 0x40, 0, 0, 0, 0, 0, 0, 0⟩, -- TD_MISALIGN
   ⟨0x20, 8, 0x40, 0, 0, 0, 0, 0, 0, 0⟩, -- TD_FRAME
   ⟨0x24, 8, 0x40, 0, 0, 0, 0, 0, 0, 0⟩, -- 
   ⟨0x28, 8, 0x40, 0, 0, 0, 0, 0, 0, 0⟩, -- 
   ⟨0x2C, 8, 0x40, 0, 0, 0, 0, 0, 0, 0⟩, -- 
   ⟨0x30, 8, 0x40, 0, 0, 0, 0, 0, 0, 0⟩, -- 
   ⟨0x34, 8, 0x40, 0, 0, 0, 0, 0, 0, 0⟩, -- 
   ⟨0x38, 8, 0x40, 0, 0, 0, 0, 0, 0, 0⟩, -- 
   ⟨0x3C, 8, 0x40, 0, 0, 0, 0, 0, 0, 0⟩] -- 

/-- Registers of: PTP mapping table. -/
def ptpMappingTableRows : List Row :=
  [⟨0, 0x80, 4, 0, 0xFFFFFFFF, 0, 0, 0, 0, 0⟩] -- PTP_MAP (QL, ACC_LIMIT, ACC_PENALTY)

/-- Registers of: Floor. -/
def floorRows : List Row :=
  [⟨0, 1, 4, 0, 0, 0, 0, 0, 0, 0⟩, -- ID
   ⟨4, 1, 4, 0x100, 0, 0, 0, 0, 0, 0⟩, -- VERSION
   ⟨8, 1, 4, 0, 0, 0, 0, 0, 0, 0⟩, -- CTRL
   ⟨0xC, 1, 4, 0, 0, 0, 0, 0, 0, 0⟩, -- STAT
   ⟨0x10, 1, 4, 0, 0, 0, 0, 0, 0x7FF, 0⟩, -- EV_STICKY
   ⟨0x14, 1, 4, 0, 0x7FF, 0, 0, 0, 0, 0⟩, -- EV_ENABLE
   ⟨0x18, 1, 4, 0, 0, 0, 0, 0, 0x7FF, 0⟩, -- EV_FORCE
   ⟨0x1C, 1, 4, 0, 0, 0, 0, 0, 0, 0⟩, -- EV_LIVE
   ⟨0x20, 1, 4, 0, 0, 0, 0, 0, 0x8000003F, 0⟩, -- COMMIT
   ⟨0x24, 1, 4, 0, 0, 0, 0, 0, 0, 0⟩, -- COMMIT_STAT
   ⟨0x28, 1, 4, 0, 0, 0, 0, 0, 0, 0⟩, -- ERR_LOC
   ⟨0x40, 1, 4, 0x3E83200, 0xFFFFFF01, 0, 0, 0, 0, 0⟩, -- FL_CFG
   ⟨0x44, 1, 4, 0, 0, 0, 0, 0, 0, 0⟩, -- FL_BW_CAUSE
   ⟨0x48, 1, 4, 0, 0, 0, 0, 0, 0, 0⟩, -- FL_BW_ASK
   ⟨0x50, 6, 8, 0, 0, 0, 0, 0, 0, 0⟩, -- FL_LOAD_TX[s]
   ⟨0x54, 6, 8, 0, 0, 0, 0, 0, 0, 0⟩, -- FL_LOAD_RX[s]
   ⟨0x80, 1, 4, 0, 0, 0, 0, 0, 0, 0⟩, -- FL_LINKS
   ⟨0x84, 1, 4, 0, 0, 0, 0, 0, 0, 0⟩, -- FL_CTX
   ⟨0x88, 1, 4, 0, 0, 0, 0, 0, 0xFF, 0⟩, -- FL_REEXAMINE
   ⟨0x8C, 1, 4, 0, 0, 0, 0, 0, 0, 0⟩] -- FL_LAST

/-- Registers of: layer route table. -/
def layerRouteTableRows : List Row :=
  [⟨0, 0x180, 8, 0xFFF, 0, 0, 0, 0, 0xFFFFFFFF, 0⟩, -- ROUTE_CFG SRC PRIO FORCE_STORE RATE_MODE EPOCH_HOLD GROUP EN
   ⟨4, 0x180, 8, 0, 0, 0, 0, 0, 0, 0⟩] -- ROUTE_STAT PATH SUSPENDED FALLBACK SHED SOURCE_OK WINDOW_OK EPOCH ENGINE SUSPEND_CODE

/-- Registers of: IP transmit route table. -/
def ipTransmitRouteTableRows : List Row :=
  [⟨0, 0x200, 8, 0xFFF, 0, 0, 0, 0, 0xFFFFFFFF, 0⟩, -- ROUTE_CFG SRC PRIO FORCE_STORE RATE_MODE EPOCH_HOLD GROUP EN
   ⟨4, 0x200, 8, 0, 0, 0, 0, 0, 0, 0⟩] -- ROUTE_STAT PATH SUSPENDED FALLBACK SHED SOURCE_OK WINDOW_OK EPOCH ENGINE SUSPEND_CODE

/-- Registers of: FL_LAT. -/
def flLATRows : List Row :=
  [⟨0, 0x180, 4, 0xFFFFFFFF, 0, 0, 0, 0, 0, 0⟩] -- FL_LAT

/-- Registers of: FL_MARGIN. -/
def flMARGINRows : List Row :=
  [⟨0, 0x180, 4, 0x80000000, 0, 0, 0, 0, 0, 0⟩] -- FL_MARGIN

/-- Registers of: FL_IPLAT. -/
def flIPLATRows : List Row :=
  [⟨0, 0x400, 4, 0xFFFFFFFF, 0, 0, 0, 0, 0, 0⟩] -- FL_IPLAT

/-- Registers of: Silo. -/
def siloRows : List Row :=
  [⟨0, 1, 4, 0, 0, 0, 0, 0, 0, 0⟩, -- ID
   ⟨4, 1, 4, 0x100, 0, 0, 0, 0, 0, 0⟩, -- VERSION
   ⟨8, 1, 4, 0, 0, 0, 0, 0, 0, 0⟩, -- CTRL
   ⟨0xC, 1, 4, 0, 0, 0, 0, 0, 0, 0⟩, -- STAT
   ⟨0x10, 1, 4, 0, 0, 0, 0, 0, 0x1FFF, 0⟩, -- EV_STICKY
   ⟨0x14, 1, 4, 0, 0x1FFF, 0, 0, 0, 0, 0⟩, -- EV_ENABLE
   ⟨0x18, 1, 4, 0, 0, 0, 0, 0, 0x1FFF, 0⟩, -- EV_FORCE
   ⟨0x1C, 1, 4, 0, 0, 0, 0, 0, 0, 0⟩, -- EV_LIVE
   ⟨0x20, 1, 4, 0, 0, 0, 0, 0, 0x8000003F, 0⟩, -- COMMIT
   ⟨0x24, 1, 4, 0, 0, 0, 0, 0, 0, 0⟩, -- COMMIT_STAT
   ⟨0x28, 1, 4, 0, 0, 0, 0, 0, 0, 0⟩, -- ERR_LOC
   ⟨0x40, 1, 4, 0x1900, 0xFF01, 0, 0, 0, 0, 0⟩, -- SILO_CFG
   ⟨0x44, 1, 4, 0x30D40, 0x3FFFF, 0, 0, 0, 0, 0⟩, -- SILO_CAP
   ⟨0x48, 1, 4, 0x30D40, 0, 0, 0, 0, 0, 0⟩, -- SILO_LIMIT
   ⟨0x4C, 1, 4, 0, 0, 0, 0, 0, 0, 0⟩, -- SILO_SUM
   ⟨0x50, 5, 4, 0, 0, 0, 0, 0, 0, 0⟩, -- SILO_TERM[k]
   ⟨0x64, 1, 4, 0, 0, 0, 0, 0, 0, 0⟩, -- SILO_ASK
   ⟨0x68, 1, 4, 0, 0, 0, 0, 0, 0, 0⟩, -- SILO_BINS_TOTAL
   ⟨0x6C, 1, 4, 0, 0, 0, 0, 0, 0, 0⟩, -- SILO_BINS_FREE
   ⟨0x70, 1, 4, 0, 0, 0, 0, 0, 0, 0⟩, -- SILO_BINS_SYS
   ⟨0x74, 1, 4, 0, 0, 0, 0, 0, 0, 0⟩, -- SILO_BINS_RUN
   ⟨0x78, 1, 4, 0, 0x3FFFF, 0, 0, 0, 0, 0⟩, -- BAR2_BASE
   ⟨0x7C, 1, 4, 0, 0, 0, 0, 0, 0, 0⟩, -- BAR2_FAULT
   ⟨0x80, 1, 4, 0, 0, 0, 0, 0, 0, 0⟩, -- SILO_CAUSE
   ⟨0x84, 1, 4, 0, 0, 0, 0, 0, 0, 0⟩] -- SILO_LAST

/-- Registers of: SRING_CFG low. -/
def sringCFGLowRows : List Row :=
  [⟨0, 0x60, 4, 3, 0, 0, 0x3F0001F, 0, 0, 0⟩, -- SRING_CFG DEPTH FREEZE KEEP GROUP
   ⟨0x400, 0x300, 4, 3, 0, 0, 0x3F0001F, 0, 0, 0⟩] -- SRING_CFG DEPTH FREEZE KEEP GROUP

/-- Registers of: SRING_CFG high. -/
def sringCFGHighRows : List Row :=
  [⟨0, 0x100, 4, 3, 0, 0, 0x3F0001F, 0, 0, 0⟩] -- SRING_CFG DEPTH FREEZE KEEP GROUP

/-- Registers of: SRING_STAT low. -/
def sringSTATLowRows : List Row :=
  [⟨0, 0x60, 4, 0, 0, 0, 0, 0, 0, 0⟩, -- SRING_STAT STATE VALID BINS EPOCH
   ⟨0x400, 0x300, 4, 0, 0, 0, 0, 0, 0, 0⟩] -- SRING_STAT STATE VALID BINS EPOCH

/-- Registers of: SRING_STAT high. -/
def sringSTATHighRows : List Row :=
  [⟨0, 0x100, 4, 0, 0, 0, 0, 0, 0, 0⟩] -- SRING_STAT STATE VALID BINS EPOCH

/-- Registers of: STORE_CFG. -/
def storeCFGRows : List Row :=
  [⟨0, 0x100, 0x10, 0xC, 0, 0, 0x3F0FFFF, 0, 0, 0⟩, -- KIND DEPTH DECIM FREEZE CAPTURE GROUP
   ⟨4, 0x100, 0x10, 0x24380780, 0, 0, 0x7FFF3FFF, 0, 0, 0⟩, -- WIDTH HEIGHT SFMT
   ⟨8, 0x100, 0x10, 0x64, 0, 0, 0x3FFFF, 0, 0, 0⟩, -- WR_MBPS
   ⟨0xC, 0x100, 0x10, 0, 0, 0, 0, 0, 0, 0⟩] -- 

/-- Registers of: STORE_STAT. -/
def storeSTATRows : List Row :=
  [⟨0, 0x100, 0x10, 0, 0, 0, 0, 0, 0, 0⟩, -- STATE VALID EPOCH CAPTURED
   ⟨4, 0x100, 0x10, 0x3FFFF, 0, 0, 0, 0, 0, 0⟩, -- BASE_BIN
   ⟨8, 0x100, 0x10, 0, 0, 0, 0, 0, 0, 0⟩, -- BINS
   ⟨0xC, 0x100, 0x10, 0, 0, 0, 0, 0, 0, 0⟩] -- PITCH LPB

/-- Registers of: memory channel 0. -/
def memoryChannel0Rows : List Row :=
  [⟨0, 1, 4, 0, 0, 0, 0, 0, 0, 0⟩, -- ID
   ⟨4, 1, 4, 0x100, 0, 0, 0, 0, 0, 0⟩, -- VERSION
   ⟨8, 1, 4, 0, 0, 0, 0, 0, 1, 0⟩, -- CTRL
   ⟨0xC, 1, 4, 1, 0, 0, 0, 0, 0, 0⟩, -- STAT
   ⟨0x10, 1, 4, 0, 0, 0, 0, 0, 3, 0⟩, -- EV_STICKY
   ⟨0x14, 1, 4, 0, 3, 0, 0, 0, 0, 0⟩, -- EV_ENABLE
   ⟨0x18, 1, 4, 0, 0, 0, 0, 0, 3, 0⟩, -- EV_FORCE
   ⟨0x1C, 1, 4, 0, 0, 0, 0, 0, 0, 0⟩, -- EV_LIVE
   ⟨0x20, 1, 4, 0, 0, 0, 0, 0, 0, 0⟩, -- COMMIT
   ⟨0x24, 1, 4, 0, 0, 0, 0, 0, 0, 0⟩, -- COMMIT_STAT
   ⟨0x28, 1, 4, 0, 0, 0, 0, 0, 0, 0⟩, -- ERR_LOC
   ⟨0x40, 1, 4, 0, 0, 0, 0, 0, 3, 0⟩, -- MC_CTRL
   ⟨0x44, 1, 4, 0, 0, 0, 0, 0, 0, 0⟩, -- MC_STAT
   ⟨0x48, 1, 4, 0x100004, 0xFFFFFF, 0, 0, 0, 0, 0⟩, -- MC_THRESH
   ⟨0x4C, 1, 4, 0, 0xFFFFFFFF, 0, 0, 0, 0, 0⟩, -- MC_CE
   ⟨0x50, 1, 4, 0, 0xFFFFFFFF, 0, 0, 0, 0, 0⟩, -- MC_UE
   ⟨0x54, 1, 4, 0, 0, 0, 0, 0, 0, 0⟩, -- MC_LAST_ADDR
   ⟨0x58, 1, 4, 0, 0, 0, 0, 0, 0, 0⟩, -- MC_LAST_SYN
   ⟨0x5C, 1, 4, 0, 0, 0, 0, 0, 0, 0⟩, -- MC_TRAIN
   ⟨0x60, 1, 4, 0, 0xFFFFFFFF, 0, 0, 0, 0, 0⟩, -- MC_RAW_ADDR
   ⟨0x64, 1, 4, 0, 0xFFFFFFFF, 0, 0, 0, 0, 0⟩, -- MC_RAW_DATA_LO
   ⟨0x68, 1, 4, 0, 0xFFFFFFFF, 0, 0, 0, 0, 0⟩, -- MC_RAW_DATA_HI
   ⟨0x6C, 1, 4, 0, 0xFF, 0, 0, 0, 0, 0⟩, -- MC_RAW_CHECK
   ⟨0x70, 1, 4, 0, 2, 0, 0, 0, 1, 0⟩, -- MC_RAW_CTRL
   ⟨0x74, 1, 4, 0, 0, 0, 0, 0, 0xFFFFFFFF, 0⟩, -- MC_RAW_UNLOCK
   ⟨0x78, 1, 4, 0, 0, 0, 0, 0, 0, 0⟩, -- MC_ST
   ⟨0x100, 1, 4, 0x30, 0x40, 0, 0, 0x3F, 0, 0⟩, -- MEM_GEOM
   ⟨0x104, 1, 4, 0, 1, 0, 0, 0, 0, 0⟩, -- MEM_BOOT
   ⟨0x108, 1, 4, 0, 0, 0, 0, 0, 0, 0⟩, -- MEM_STAT
   ⟨0x10C, 1, 4, 0, 0, 0, 0, 0, 0, 0⟩, -- MEM_CAP
   ⟨0x110, 1, 4, 0, 0, 0, 0, 0, 0, 0⟩, -- ST_RESULT
   ⟨0x114, 1, 4, 0, 0, 0, 0, 0, 0, 0⟩] -- ST_TIME

/-- Registers of: memory channels 1-11. -/
def memoryChannels111Rows : List Row :=
  [⟨0, 1, 4, 0, 0, 0, 0, 0, 0, 0⟩, -- ID
   ⟨4, 1, 4, 0x100, 0, 0, 0, 0, 0, 0⟩, -- VERSION
   ⟨8, 1, 4, 0, 0, 0, 0, 0, 0, 0⟩, -- CTRL
   ⟨0xC, 1, 4, 1, 0, 0, 0, 0, 0, 0⟩, -- STAT
   ⟨0x10, 1, 4, 0, 0, 0, 0, 0, 3, 0⟩, -- EV_STICKY
   ⟨0x14, 1, 4, 0, 3, 0, 0, 0, 0, 0⟩, -- EV_ENABLE
   ⟨0x18, 1, 4, 0, 0, 0, 0, 0, 3, 0⟩, -- EV_FORCE
   ⟨0x1C, 1, 4, 0, 0, 0, 0, 0, 0, 0⟩, -- EV_LIVE
   ⟨0x20, 1, 4, 0, 0, 0, 0, 0, 0, 0⟩, -- COMMIT
   ⟨0x24, 1, 4, 0, 0, 0, 0, 0, 0, 0⟩, -- COMMIT_STAT
   ⟨0x28, 1, 4, 0, 0, 0, 0, 0, 0, 0⟩, -- ERR_LOC
   ⟨0x40, 1, 4, 0, 0, 0, 0, 0, 3, 0⟩, -- MC_CTRL
   ⟨0x44, 1, 4, 0, 0, 0, 0, 0, 0, 0⟩, -- MC_STAT
   ⟨0x48, 1, 4, 0x100004, 0xFFFFFF, 0, 0, 0, 0, 0⟩, -- MC_THRESH
   ⟨0x4C, 1, 4, 0, 0xFFFFFFFF, 0, 0, 0, 0, 0⟩, -- MC_CE
   ⟨0x50, 1, 4, 0, 0xFFFFFFFF, 0, 0, 0, 0, 0⟩, -- MC_UE
   ⟨0x54, 1, 4, 0, 0, 0, 0, 0, 0, 0⟩, -- MC_LAST_ADDR
   ⟨0x58, 1, 4, 0, 0, 0, 0, 0, 0, 0⟩, -- MC_LAST_SYN
   ⟨0x5C, 1, 4, 0, 0, 0, 0, 0, 0, 0⟩, -- MC_TRAIN
   ⟨0x60, 1, 4, 0, 0xFFFFFFFF, 0, 0, 0, 0, 0⟩, -- MC_RAW_ADDR
   ⟨0x64, 1, 4, 0, 0xFFFFFFFF, 0, 0, 0, 0, 0⟩, -- MC_RAW_DATA_LO
   ⟨0x68, 1, 4, 0, 0xFFFFFFFF, 0, 0, 0, 0, 0⟩, -- MC_RAW_DATA_HI
   ⟨0x6C, 1, 4, 0, 0xFF, 0, 0, 0, 0, 0⟩, -- MC_RAW_CHECK
   ⟨0x70, 1, 4, 0, 2, 0, 0, 0, 1, 0⟩, -- MC_RAW_CTRL
   ⟨0x74, 1, 4, 0, 0, 0, 0, 0, 0xFFFFFFFF, 0⟩, -- MC_RAW_UNLOCK
   ⟨0x78, 1, 4, 0, 0, 0, 0, 0, 0, 0⟩] -- MC_ST

/-- Registers of: Winnow. -/
def winnowRows : List Row :=
  [⟨0, 1, 4, 0, 0, 0, 0, 0, 0, 0⟩, -- ID
   ⟨4, 1, 4, 0x100, 0, 0, 0, 0, 0, 0⟩, -- VERSION
   ⟨8, 1, 4, 0, 0, 0, 0, 0, 0, 0⟩, -- CTRL
   ⟨0xC, 1, 4, 0, 0, 0, 0, 0, 0, 0⟩, -- STAT
   ⟨0x10, 1, 4, 0, 0, 0, 0, 0, 0xFF, 0⟩, -- EV_STICKY
   ⟨0x14, 1, 4, 0, 0xFF, 0, 0, 0, 0, 0⟩, -- EV_ENABLE
   ⟨0x18, 1, 4, 0, 0, 0, 0, 0, 0xFF, 0⟩, -- EV_FORCE
   ⟨0x1C, 1, 4, 0, 0, 0, 0, 0, 0, 0⟩, -- EV_LIVE
   ⟨0x20, 1, 4, 0, 0, 0, 0, 0, 0, 0⟩, -- COMMIT
   ⟨0x24, 1, 4, 0, 0, 0, 0, 0, 0, 0⟩, -- COMMIT_STAT
   ⟨0x28, 1, 4, 0, 0, 0, 0, 0, 0, 0⟩, -- ERR_LOC
   ⟨0x40, 1, 4, 1, 1, 0, 0, 0, 0, 0⟩, -- WN_CFG
   ⟨0x44, 1, 4, 0, 0xFFFFFF, 0, 0, 0, 0, 0⟩, -- WN_RATE
   ⟨0x48, 1, 4, 0x30D40, 0xFFFFFF, 0, 0, 0, 0, 0⟩, -- WN_REBUILD
   ⟨0x4C, 1, 4, 0, 0, 0, 0, 0, 0, 0⟩, -- WN_RATE_EFF
   ⟨0x50, 1, 4, 0, 0, 0, 0, 0, 0, 0⟩, -- WN_POS
   ⟨0x54, 1, 4, 0, 0, 0, 0, 0, 0, 0⟩, -- WN_PASS
   ⟨0x58, 1, 4, 0, 0xFFFFFFFF, 0, 0, 0, 0, 0⟩, -- WN_CORR
   ⟨0x5C, 1, 4, 0, 0, 0, 0, 0, 0, 0⟩, -- WN_POISON
   ⟨0x60, 1, 4, 0, 0, 0, 0, 0, 0, 0⟩, -- WN_LAST
   ⟨0x64, 1, 4, 0, 0, 0, 0, 0, 0, 0⟩, -- WN_LAST_BIN
   ⟨0x68, 1, 4, 0, 0, 0, 0, 0, 0, 0⟩, -- WN_LAST_OWNER
   ⟨0x6C, 1, 4, 0, 0xFFF, 0, 0, 0, 0, 0⟩, -- POISON_IDX
   ⟨0x70, 1, 4, 0xFFFFFFFF, 0, 0, 0, 0, 0, 0⟩, -- POISON_ENTRY
   ⟨0x74, 1, 4, 0, 0, 0, 0, 0, 0, 0⟩] -- WN_REBUILD_STAT

/-- Registers of: IP port 0. -/
def ipPortRows : List Row :=
  [⟨0, 1, 4, 0, 0, 0, 0, 0, 0, 0⟩, -- ID
   ⟨4, 1, 4, 0x100, 0, 0, 0, 0, 0, 0⟩, -- VERSION
   ⟨8, 1, 4, 0, 0, 0, 0, 0, 0x80000001, 0⟩, -- CTRL
   ⟨0xC, 1, 4, 1, 0, 0, 0, 0, 0, 0⟩, -- STAT
   ⟨0x10, 1, 4, 0, 0, 0, 0, 0, 0xFF, 0⟩, -- EV_STICKY
   ⟨0x14, 1, 4, 0, 0xFF, 0, 0, 0, 0, 0⟩, -- EV_ENABLE
   ⟨0x18, 1, 4, 0, 0, 0, 0, 0, 0xFF, 0⟩, -- EV_FORCE
   ⟨0x1C, 1, 4, 0, 0, 0, 0, 0, 0, 0⟩, -- EV_LIVE
   ⟨0x20, 1, 4, 0, 0, 0, 0, 0, 0x8000003F, 0⟩, -- COMMIT
   ⟨0x24, 1, 4, 0, 0, 0, 0, 0, 0, 0⟩, -- COMMIT_STAT
   ⟨0x28, 1, 4, 0, 0, 0, 0, 0, 0, 0⟩, -- ERR_LOC
   ⟨0x40, 1, 4, 1, 0, 0, 0, 0x3FF, 0, 0⟩, -- PORT_CFG
   ⟨0x44, 1, 4, 0, 0, 0, 0, 0, 0, 0⟩, -- PORT_STAT
   ⟨0x48, 1, 4, 0, 0xFFFFFFFF, 0, 0, 0, 0, 0⟩, -- MAC_LO
   ⟨0x4C, 1, 4, 0, 0xFFFF, 0, 0, 0, 0, 0⟩, -- MAC_HI
   ⟨0x50, 1, 4, 0, 0xFFFFFFFF, 0, 0, 0, 0, 0⟩, -- IP_ADDR
   ⟨0x54, 1, 4, 0, 0xFFFFFFFF, 0, 0, 0, 0, 0⟩, -- CNT_RX_FRAMES
   ⟨0x58, 1, 4, 0, 0xFFFFFFFF, 0, 0, 0, 0, 0⟩, -- CNT_RX_FCS
   ⟨0x5C, 1, 4, 0, 0xFFFFFFFF, 0, 0, 0, 0, 0⟩, -- CNT_RX_FILTERED
   ⟨0x60, 1, 4, 0, 0xFFFFFFFF, 0, 0, 0, 0, 0⟩, -- CNT_RX_OVERFLOW
   ⟨0x64, 1, 4, 0, 0xFFFFFFFF, 0, 0, 0, 0, 0⟩, -- CNT_TX_FRAMES
   ⟨0x68, 1, 4, 0, 0xFFFFFFFF, 0, 0, 0, 0, 0⟩, -- CNT_TX_LINKDOWN
   ⟨0x6C, 1, 4, 0, 0xFFFFFFFF, 0, 0, 0, 0, 0⟩, -- CNT_FEC
   ⟨0x70, 1, 4, 0, 0, 0, 0, 0, 0, 0⟩, -- TX_LOAD
   ⟨0x74, 1, 4, 0, 0, 0, 0, 0, 0, 0⟩, -- TX_ASK
   ⟨0x78, 1, 4, 0, 0, 0x7FFFFF, 0, 0, 0, 0⟩, -- IP_CAUSE
   ⟨0x7C, 1, 4, 0x7FFFFF, 0x7FFFFF, 0, 0, 0, 0, 0⟩, -- IP_CAUSE_EN
   ⟨0x80, 1, 4, 0, 0, 0, 0, 0, 0, 0⟩, -- IP_LAST
   ⟨0x84, 1, 4, 1, 1, 0, 0, 0, 0, 0⟩, -- HQ_CFG
   ⟨0x90, 0x10, 4, 0, 0xFFFFFFFF, 0, 0, 0, 0, 0⟩] -- HOST_MCAST[i]

/-- Registers of: IP port 0 PTP. -/
def ipPort0PTPRows : List Row :=
  [⟨0, 1, 4, 0xC7F, 0x1FFF, 0, 0, 0, 0, 0⟩, -- PTP_CFG
   ⟨4, 1, 4, 0, 0, 0, 0, 0, 0, 0⟩, -- PTP_STAT
   ⟨8, 1, 4, 0, 0, 0, 0, 0, 0, 0⟩, -- PARENT_LO
   ⟨0xC, 1, 4, 0, 0, 0, 0, 0, 0, 0⟩, -- PARENT_HI
   ⟨0x10, 1, 4, 0, 0, 0, 0, 0, 0, 0⟩, -- PARENT_PORT
   ⟨0x14, 1, 4, 0, 0, 0, 0, 0, 0, 0⟩, -- OFFSET
   ⟨0x18, 1, 4, 0, 0, 0, 0, 0, 0, 0⟩, -- MEAN_DELAY
   ⟨0x1C, 1, 4, 0, 0xFFFFFFFF, 0, 0, 0, 0, 0⟩, -- ASYM
   ⟨0x20, 1, 4, 0, 0xFFFFFFFF, 0, 0, 0, 0, 0⟩, -- PTP_CNT
   ⟨0x28, 4, 8, 0, 0xFFFFFFFF, 0, 0, 0, 0, 0⟩, -- ACCEPT_LO[i]
   ⟨0x2C, 4, 8, 0, 0xFFFFFFFF, 0, 0, 0, 0, 0⟩, -- ACCEPT_HI[i]
   ⟨0x48, 1, 4, 0, 0xF, 0, 0, 0, 0, 0⟩] -- ACCEPT_EN

/-- Registers of: IP port 0 MACsec. -/
def ipPort0MACsecRows : List Row :=
  [⟨0, 1, 4, 0, 0, 0, 0, 3, 0, 0⟩, -- MS_CFG
   ⟨4, 1, 4, 0, 0xFFFFFFFF, 0, 0, 0, 0, 0⟩, -- CNT_MS_ICV
   ⟨8, 1, 4, 0, 0xFFFFFFFF, 0, 0, 0, 0, 0⟩, -- CNT_MS_REPLAY
   ⟨0xC, 1, 4, 0, 0xFFFFFFFF, 0, 0, 0, 0, 0⟩, -- CNT_MS_NOSC
   ⟨0x10, 1, 4, 0, 0xFFFFFFFF, 0, 0, 0, 0, 0⟩, -- CNT_MS_UNPROT
   ⟨0x100, 0x20, 0x20, 0, 0, 0, 0x3F0001F, 0, 0, 0⟩, -- SC_CFG
   ⟨0x104, 0x20, 0x20, 0, 0, 0, 0xFFFFFFFF, 0, 0, 0⟩, -- SCI_LO
   ⟨0x108, 0x20, 0x20, 0, 0, 0, 0xFFFFFFFF, 0, 0, 0⟩, -- SCI_HI
   ⟨0x10C, 0x20, 0x20, 0x400000, 0, 0, 0x1FF01FF, 0, 0, 0⟩, -- SC_SA
   ⟨0x110, 0x20, 0x20, 0, 0, 0, 0xFFFFFFFF, 0, 0, 0⟩, -- REPLAY_WINDOW
   ⟨0x114, 0x20, 0x20, 0, 0, 0, 0xFFFFFFFF, 0, 0, 0⟩, -- SSCI
   ⟨0x118, 0x20, 0x20, 0, 0, 0, 0, 0, 0, 0⟩, -- SC_STAT
   ⟨0x11C, 0x20, 0x20, 0, 0xFFFFFFFF, 0, 0, 0, 0, 0⟩, -- SC_DROPS
   ⟨0x800, 0x20, 0x20, 0, 0, 0, 0xFFFFFFFF, 0, 0, 0⟩, -- SA0_SALT
   ⟨0x804, 0x20, 0x20, 0, 0, 0, 0xFFFFFFFF, 0, 0, 0⟩, -- SA0_SALT
   ⟨0x808, 0x20, 0x20, 0, 0, 0, 0xFFFFFFFF, 0, 0, 0⟩, -- SA0_SALT
   ⟨0x80C, 0x20, 0x20, 0, 0, 0, 0xFFFFFFFF, 0, 0, 0⟩, -- SA1_SALT
   ⟨0x810, 0x20, 0x20, 0, 0, 0, 0xFFFFFFFF, 0, 0, 0⟩, -- SA1_SALT
   ⟨0x814, 0x20, 0x20, 0, 0, 0, 0xFFFFFFFF, 0, 0, 0⟩, -- SA1_SALT
   ⟨0x818, 0x20, 0x20, 0, 0, 0, 0, 0, 0, 0⟩, -- PN_LO
   ⟨0x81C, 0x20, 0x20, 0, 0, 0, 0, 0, 0, 0⟩] -- PN_HI

/-- Registers of: IP port 0 optics. -/
def ipPort0OpticsRows : List Row :=
  [⟨0, 1, 4, 0, 7, 0, 0, 0, 0, 0⟩, -- OPT_CFG
   ⟨4, 1, 4, 0x100, 0x1FFFF, 0, 0, 0, 0x80000000, 0⟩, -- OPT_CMD
   ⟨8, 1, 4, 0, 0, 0, 0, 0, 0, 0⟩, -- OPT_STAT
   ⟨0x100, 0x20, 4, 0, 0xFFFFFFFF, 0, 0, 0, 0, 0⟩] -- OPT_BUF

/-- Registers of: IP port 0 receive contexts. -/
def ipPort0ReceiveContextsRows : List Row :=
  [⟨0, 0x40, 0x40, 0, 0, 0, 0x83F0000F, 0, 0, 0⟩, -- RX_CFG
   ⟨4, 0x40, 0x40, 0x506, 0, 0, 0x3FFFF, 0, 0, 0⟩, -- RX_FMT
   ⟨8, 0x40, 0x40, 0x800, 0, 0, 0x7FFFF, 0, 0, 0⟩, -- RX_AUD
   ⟨0xC, 0x40, 0x40, 0x90, 0, 0, 0x1FFF, 0, 0, 0⟩, -- RX_PLAY
   ⟨0x10, 0x40, 0x40, 0, 0, 0, 0xFFFFFFFF, 0, 0, 0⟩, -- LEGA_DST
   ⟨0x14, 0x40, 0x40, 0, 0, 0, 0xFFFFFFFF, 0, 0, 0⟩, -- LEGA_SRC
   ⟨0x18, 0x40, 0x40, 0, 0, 0, 0x7FFFFFFF, 0, 0, 0⟩, -- LEGA_CFG
   ⟨0x1C, 0x40, 0x40, 0, 0, 0, 0xFFFFFFFF, 0, 0, 0⟩, -- LEGB_DST, LEGB_SRC, LEGB_CFG
   ⟨0x20, 0x40, 0x40, 0, 0, 0, 0xFFFFFFFF, 0, 0, 0⟩, -- LEGB_DST, LEGB_SRC, LEGB_CFG
   ⟨0x24, 0x40, 0x40, 0, 0, 0, 0x7FFFFFFF, 0, 0, 0⟩, -- LEGB_DST, LEGB_SRC, LEGB_CFG
   ⟨0x28, 0x40, 0x40, 0x2710, 0, 0, 0x3FFF, 0, 0, 0⟩, -- RX_SKEW
   ⟨0x2C, 0x40, 0x40, 0, 0, 0, 0, 0, 0, 0⟩, -- RX_STAT
   ⟨0x30, 0x40, 0x40, 0, 0, 0, 0, 0, 0, 0⟩, -- RX_SKEW_STAT
   ⟨0x34, 0x40, 0x40, 0, 0xFFFFFFFF, 0, 0, 0, 0, 0⟩, -- RX_LOST
   ⟨0x38, 0x40, 0x40, 0, 0xFFFFFFFF, 0, 0, 0, 0, 0⟩, -- RX_UNRECOV
   ⟨0x3C, 0x40, 0x40, 0, 0, 0, 0, 0, 0, 0⟩] -- RX_FRAMES

/-- Registers of: IP port 0 transmit contexts. -/
def ipPort0TransmitContextsRows : List Row :=
  [⟨0, 0x40, 0x40, 0xC000, 0, 0, 0x83F0FFFF, 0, 0, 0⟩, -- TX_CFG
   ⟨4, 0x40, 0x40, 0x506, 0, 0, 0x3FFFF, 0, 0, 0⟩, -- TX_FMT
   ⟨8, 0x40, 0x40, 0x800, 0, 0, 0xFFFFF, 0, 0, 0⟩, -- TX_AUD
   ⟨0xC, 0x40, 0x40, 0, 0, 0, 0xFFFFFFF, 0, 0, 0⟩, -- TX_TIME
   ⟨0x10, 0x40, 0x40, 0, 0, 0, 0xFFFFFFF, 0, 0, 0⟩, -- TX_TRO
   ⟨0x14, 0x40, 0x40, 0, 0, 0, 0xFFFFFFFF, 0, 0, 0⟩, -- LEGA_DST
   ⟨0x18, 0x40, 0x40, 0, 0, 0, 0xFFFFFFFF, 0, 0, 0⟩, -- LEGA_UDP
   ⟨0x1C, 0x40, 0x40, 0, 0, 0, 0x3FFFFFFF, 0, 0, 0⟩, -- LEGA_CFG
   ⟨0x20, 0x40, 0x40, 0, 0, 0, 0xFFFFFFFF, 0, 0, 0⟩, -- LEGB_DST, LEGB_UDP, LEGB_CFG
   ⟨0x24, 0x40, 0x40, 0, 0, 0, 0xFFFFFFFF, 0, 0, 0⟩, -- LEGB_DST, LEGB_UDP, LEGB_CFG
   ⟨0x28, 0x40, 0x40, 0, 0, 0, 0x3FFFFFFF, 0, 0, 0⟩, -- LEGB_DST, LEGB_UDP, LEGB_CFG
   ⟨0x2C, 0x40, 0x40, 0, 0, 0, 0xFFFFFFFF, 0, 0, 0⟩, -- TX_SSRC
   ⟨0x30, 0x40, 0x40, 0, 0, 0, 0x3FF, 0, 0, 0⟩, -- TX_LINK
   ⟨0x34, 0x40, 0x40, 0, 0, 0, 0, 0, 0, 0⟩, -- TX_STAT
   ⟨0x38, 0x40, 0x40, 0, 0, 0, 0, 0, 0, 0⟩, -- TX_CHARGE
   ⟨0x3C, 0x40, 0x40, 0, 0xFFFFFFFF, 0, 0, 0, 0, 0⟩] -- TX_LATE

/-- Registers of: IP port 0 host receive queue. -/
def ipPort0HostReceiveQueueRows : List Row :=
  [⟨0, 1, 4, 0, 0xFFF00000, 0, 0, 0, 0, 0⟩, -- HQR_STAT
   ⟨4, 1, 4, 0, 0, 0, 0, 0, 0, 0⟩, -- HQR_TS_NS
   ⟨8, 1, 4, 0, 0, 0, 0, 0, 0, 0⟩, -- HQR_TS_SEC
   ⟨0xC, 1, 4, 0, 0, 0, 0, 0, 1, 0⟩, -- HQR_POP
   ⟨0x800, 0x200, 4, 0, 0, 0, 0, 0, 0, 0⟩] -- HQR_DATA

/-- Registers of: IP port 0 host transmit queue. -/
def ipPort0HostTransmitQueueRows : List Row :=
  [⟨0, 1, 4, 0, 0x7FFFF, 0, 0, 0, 0x80000000, 0⟩, -- HQT_CTRL
   ⟨4, 1, 4, 0, 0, 0, 0, 0, 0, 0⟩, -- HQT_STAT
   ⟨8, 1, 4, 0, 0, 0, 0, 0, 0, 0⟩, -- HQT_TS_NS
   ⟨0xC, 1, 4, 0, 0, 0, 0, 0, 0, 0⟩, -- HQT_TS_SEC
   ⟨0x800, 0x200, 4, 0, 0xFFFFFFFF, 0, 0, 0, 0, 0⟩] -- HQT_DATA

/-- Registers of: audio router. -/
def audioRouterRows : List Row :=
  [⟨0, 1, 4, 0, 0, 0, 0, 0, 0, 0⟩, -- ID
   ⟨4, 1, 4, 0x100, 0, 0, 0, 0, 0, 0⟩, -- VERSION
   ⟨8, 1, 4, 0, 0, 0, 0, 0, 0, 0⟩, -- CTRL
   ⟨0xC, 1, 4, 0, 0, 0, 0, 0, 0, 0⟩, -- STAT
   ⟨0x10, 1, 4, 0, 0, 0, 0, 0, 0x3FF, 0⟩, -- EV_STICKY
   ⟨0x14, 1, 4, 0, 0x3FF, 0, 0, 0, 0, 0⟩, -- EV_ENABLE
   ⟨0x18, 1, 4, 0, 0, 0, 0, 0, 0x3FF, 0⟩, -- EV_FORCE
   ⟨0x1C, 1, 4, 0, 0, 0, 0, 0, 0, 0⟩, -- EV_LIVE
   ⟨0x20, 1, 4, 0, 0, 0, 0, 0, 0x8000003F, 0⟩, -- COMMIT
   ⟨0x24, 1, 4, 0, 0, 0, 0, 0, 0, 0⟩, -- COMMIT_STAT
   ⟨0x28, 1, 4, 0, 0, 0, 0, 0, 0, 0⟩, -- ERR_LOC
   ⟨0x40, 1, 4, 0x1460, 0xFFFF, 0, 0, 0, 0, 0⟩, -- AR_CFG
   ⟨0x44, 1, 4, 0, 0, 0, 0, 0, 0, 0⟩, -- AR_COUNT
   ⟨0x48, 1, 4, 0, 0x3FFF, 0, 0, 0, 0, 0⟩, -- RQ_INDEX
   ⟨0x4C, 1, 4, 0, 0, 0, 0, 0, 0, 0⟩, -- RQ_STAT
   ⟨0x50, 1, 4, 0, 0, 0, 0, 0, 0, 0⟩, -- RQ_TARGET
   ⟨0x54, 1, 4, 0x80000000, 0, 0, 0, 0, 0, 0⟩, -- RQ_AVERR
   ⟨0x58, 1, 4, 0x1FFF00, 0, 0, 0, 0, 0, 0⟩, -- RQ_PATH
   ⟨0x5C, 1, 4, 0, 0, 0, 0, 0, 0, 0⟩, -- AR_CLIP
   ⟨0x60, 1, 4, 0, 0, 0, 0, 0, 0, 0⟩, -- AR_LAST
   ⟨0x70, 1, 4, 0x3E80, 0xFFFF, 0, 0, 0, 0, 0⟩, -- LIM_CFG
   ⟨0x74, 1, 4, 0, 0, 0, 0, 0, 0, 0⟩, -- LIM_STAT
   ⟨0x78, 1, 4, 0, 0, 0, 0, 0, 0, 0⟩, -- LIM_SUGGEST
   ⟨0x100, 0x10, 4, 0x1680FA0, 0, 0, 0, 0, 0xFFFFFFF, 0⟩, -- GEN_CFG[k]
   ⟨0x200, 0x60, 8, 0, 0, 0, 0x1FFFFFF, 0, 0, 0⟩, -- ASRC_CFG[k]
   ⟨0x204, 0x60, 8, 0, 0, 0, 0, 0, 0, 0⟩] -- ASRC_STAT[k]

/-- Registers of: ROUTE_SRC. -/
def routeSRCRows : List Row :=
  [⟨0, 0x400, 4, 0x1FFF, 0, 0, 0xFFFFFFFF, 0, 0, 0⟩] -- ROUTE_SRC SRC DST GROUP EN

/-- Registers of: ROUTE_GAIN. -/
def routeGAINRows : List Row :=
  [⟨0, 0x400, 4, 0, 0, 0, 0x7FFF, 0, 0, 0⟩] -- ROUTE_GAIN GAIN INVERT SLOT

/-- Registers of: ROUTE_TIME. -/
def routeTIMERows : List Row :=
  [⟨0, 0x400, 4, 0, 0, 0, 0x7FFFF, 0, 0, 0⟩] -- ROUTE_TIME DELAY AUTO AFV

/-- Registers of: DEST_CFG. -/
def destCFGRows : List Row :=
  [⟨0, 0x400, 4, 0, 0, 0, 0x1FFFFF, 0, 0, 0⟩] -- DEST_CFG FOLLOW_INDEX FOLLOW_TABLE FOLLOW_EN PAIR96 DATA GROUP

/-- Registers of: AFV_MAP low. -/
def afvMAPLowRows : List Row :=
  [⟨0, 0x30, 4, 0, 0x8FFF8FFF, 0, 0, 0, 0, 0⟩, -- AFV_MAP entry BASE VALID
   ⟨0x200, 0x180, 4, 0, 0x8FFF8FFF, 0, 0, 0, 0, 0⟩, -- AFV_MAP entry BASE VALID
   ⟨0x800, 0x200, 4, 0, 0x8FFF8FFF, 0, 0, 0, 0, 0⟩] -- AFV_MAP entry BASE VALID

/-- Registers of: AFV_MAP high. -/
def afvMAPHighRows : List Row :=
  [⟨0, 0x30, 4, 0, 0x8FFF8FFF, 0, 0, 0, 0, 0⟩] -- AFV_MAP entry BASE VALID

/-- Registers of: converter engine 0 and pool. -/
def converterEngine0AndPoolRows : List Row :=
  [⟨0, 1, 4, 0, 0, 0, 0, 0, 0, 0⟩, -- ID
   ⟨4, 1, 4, 0x100, 0, 0, 0, 0, 0, 0⟩, -- VERSION
   ⟨8, 1, 4, 0, 0, 0, 0, 0, 0, 0⟩, -- CTRL
   ⟨0xC, 1, 4, 0, 0, 0, 0, 0, 0, 0⟩, -- STAT
   ⟨0x10, 1, 4, 0, 0, 0, 0, 0, 1, 0⟩, -- EV_STICKY
   ⟨0x14, 1, 4, 0, 1, 0, 0, 0, 0, 0⟩, -- EV_ENABLE
   ⟨0x18, 1, 4, 0, 0, 0, 0, 0, 1, 0⟩, -- EV_FORCE
   ⟨0x1C, 1, 4, 0, 0, 0, 0, 0, 0, 0⟩, -- EV_LIVE
   ⟨0x20, 1, 4, 0, 0, 0, 0, 0, 0, 0⟩, -- COMMIT
   ⟨0x24, 1, 4, 0, 0, 0, 0, 0, 0, 0⟩, -- COMMIT_STAT
   ⟨0x28, 1, 4, 0, 0, 0, 0, 0, 0, 0⟩, -- ERR_LOC
   ⟨0x40, 1, 4, 1, 1, 0, 0, 0, 0, 0⟩, -- CV_CFG
   ⟨0x44, 1, 4, 0, 0, 0, 0, 0, 0, 0⟩, -- CV_STAT
   ⟨0x48, 1, 4, 0, 0, 0, 0, 0, 0, 0⟩, -- CV_LOAD
   ⟨0x4C, 1, 4, 0, 0, 0x1FF, 0, 0, 0, 0⟩, -- CV_CAUSE
   ⟨0x50, 1, 4, 0x1FF, 0x1FF, 0, 0, 0, 0, 0⟩, -- CV_CAUSE_EN
   ⟨0x80, 1, 4, 0, 0, 0, 0, 0, 0, 0⟩, -- CTX_KEY
   ⟨0x84, 1, 4, 0, 0, 0, 0, 0, 0, 0⟩, -- CTX_STAT
   ⟨0x88, 1, 4, 0, 0, 0, 0, 0, 0, 0⟩, -- CTX_DELAY
   ⟨0x8C, 1, 4, 0, 0, 0, 0, 0, 0, 0⟩, -- CTX_LOAD
   ⟨0x90, 1, 4, 0, 0, 0, 0, 0, 0, 0⟩, -- CTX_MEM
   ⟨0x94, 1, 4, 0, 0, 0, 0, 0, 0, 0⟩, -- CTX_PHASE
   ⟨0x98, 1, 4, 0, 0xFFFFFFFF, 0, 0, 0, 0, 0⟩, -- CNT_MC
   ⟨0x9C, 1, 4, 0, 0xFFFFFFFF, 0, 0, 0, 0, 0⟩, -- CNT_BLEND
   ⟨0xA0, 1, 4, 0, 0xFFFFFFFF, 0, 0, 0, 0, 0⟩, -- CNT_REPEAT
   ⟨0xA4, 1, 4, 0, 0xFFFFFFFF, 0, 0, 0, 0, 0⟩, -- CNT_CUT
   ⟨0xA8, 1, 4, 0, 0xFFFFFFFF, 0, 0, 0, 0, 0⟩, -- CNT_LATE
   ⟨0xAC, 5, 4, 0, 0, 0, 0, 0, 0, 0⟩, -- 
   ⟨0xC0, 1, 4, 0, 0, 0, 0, 0, 0, 0⟩, -- CTX_KEY
   ⟨0xC4, 1, 4, 0, 0, 0, 0, 0, 0, 0⟩, -- CTX_STAT
   ⟨0xC8, 1, 4, 0, 0, 0, 0, 0, 0, 0⟩, -- CTX_DELAY
   ⟨0xCC, 1, 4, 0, 0, 0, 0, 0, 0, 0⟩, -- CTX_LOAD
   ⟨0xD0, 1, 4, 0, 0, 0, 0, 0, 0, 0⟩, -- CTX_MEM
   ⟨0xD4, 1, 4, 0, 0, 0, 0, 0, 0, 0⟩, -- CTX_PHASE
   ⟨0xD8, 1, 4, 0, 0xFFFFFFFF, 0, 0, 0, 0, 0⟩, -- CNT_MC
   ⟨0xDC, 1, 4, 0, 0xFFFFFFFF, 0, 0, 0, 0, 0⟩, -- CNT_BLEND
   ⟨0xE0, 1, 4, 0, 0xFFFFFFFF, 0, 0, 0, 0, 0⟩, -- CNT_REPEAT
   ⟨0xE4, 1, 4, 0, 0xFFFFFFFF, 0, 0, 0, 0, 0⟩, -- CNT_CUT
   ⟨0xE8, 1, 4, 0, 0xFFFFFFFF, 0, 0, 0, 0, 0⟩, -- CNT_LATE
   ⟨0xEC, 5, 4, 0, 0, 0, 0, 0, 0, 0⟩, -- 
   ⟨0x100, 1, 4, 0x31840A0, 0xFFFFFFF, 0, 0, 0, 0, 0⟩, -- CV_POOL_CONF
   ⟨0x104, 1, 4, 0x40010, 0xF3FFF, 0, 0, 0, 0, 0⟩, -- CV_POOL_CAD
   ⟨0x108, 1, 4, 0x10, 0, 0, 0, 0, 0, 0⟩, -- CV_POOL_STAT
   ⟨0x800, 0x80, 4, 0, 0xFFFFFFFF, 0, 0, 0, 0, 0⟩] -- CV_SRCMODE

/-- Registers of: converter engines 1-7. -/
def converterEngines17Rows : List Row :=
  [⟨0, 1, 4, 0, 0, 0, 0, 0, 0, 0⟩, -- ID
   ⟨4, 1, 4, 0x100, 0, 0, 0, 0, 0, 0⟩, -- VERSION
   ⟨8, 1, 4, 0, 0, 0, 0, 0, 0, 0⟩, -- CTRL
   ⟨0xC, 1, 4, 0, 0, 0, 0, 0, 0, 0⟩, -- STAT
   ⟨0x10, 1, 4, 0, 0, 0, 0, 0, 1, 0⟩, -- EV_STICKY
   ⟨0x14, 1, 4, 0, 1, 0, 0, 0, 0, 0⟩, -- EV_ENABLE
   ⟨0x18, 1, 4, 0, 0, 0, 0, 0, 1, 0⟩, -- EV_FORCE
   ⟨0x1C, 1, 4, 0, 0, 0, 0, 0, 0, 0⟩, -- EV_LIVE
   ⟨0x20, 1, 4, 0, 0, 0, 0, 0, 0, 0⟩, -- COMMIT
   ⟨0x24, 1, 4, 0, 0, 0, 0, 0, 0, 0⟩, -- COMMIT_STAT
   ⟨0x28, 1, 4, 0, 0, 0, 0, 0, 0, 0⟩, -- ERR_LOC
   ⟨0x40, 1, 4, 1, 1, 0, 0, 0, 0, 0⟩, -- CV_CFG
   ⟨0x44, 1, 4, 0, 0, 0, 0, 0, 0, 0⟩, -- CV_STAT
   ⟨0x48, 1, 4, 0, 0, 0, 0, 0, 0, 0⟩, -- CV_LOAD
   ⟨0x4C, 1, 4, 0, 0, 0x1FF, 0, 0, 0, 0⟩, -- CV_CAUSE
   ⟨0x50, 1, 4, 0x1FF, 0x1FF, 0, 0, 0, 0, 0⟩, -- CV_CAUSE_EN
   ⟨0x80, 1, 4, 0, 0, 0, 0, 0, 0, 0⟩, -- CTX_KEY
   ⟨0x84, 1, 4, 0, 0, 0, 0, 0, 0, 0⟩, -- CTX_STAT
   ⟨0x88, 1, 4, 0, 0, 0, 0, 0, 0, 0⟩, -- CTX_DELAY
   ⟨0x8C, 1, 4, 0, 0, 0, 0, 0, 0, 0⟩, -- CTX_LOAD
   ⟨0x90, 1, 4, 0, 0, 0, 0, 0, 0, 0⟩, -- CTX_MEM
   ⟨0x94, 1, 4, 0, 0, 0, 0, 0, 0, 0⟩, -- CTX_PHASE
   ⟨0x98, 1, 4, 0, 0xFFFFFFFF, 0, 0, 0, 0, 0⟩, -- CNT_MC
   ⟨0x9C, 1, 4, 0, 0xFFFFFFFF, 0, 0, 0, 0, 0⟩, -- CNT_BLEND
   ⟨0xA0, 1, 4, 0, 0xFFFFFFFF, 0, 0, 0, 0, 0⟩, -- CNT_REPEAT
   ⟨0xA4, 1, 4, 0, 0xFFFFFFFF, 0, 0, 0, 0, 0⟩, -- CNT_CUT
   ⟨0xA8, 1, 4, 0, 0xFFFFFFFF, 0, 0, 0, 0, 0⟩, -- CNT_LATE
   ⟨0xAC, 5, 4, 0, 0, 0, 0, 0, 0, 0⟩, -- 
   ⟨0xC0, 1, 4, 0, 0, 0, 0, 0, 0, 0⟩, -- CTX_KEY
   ⟨0xC4, 1, 4, 0, 0, 0, 0, 0, 0, 0⟩, -- CTX_STAT
   ⟨0xC8, 1, 4, 0, 0, 0, 0, 0, 0, 0⟩, -- CTX_DELAY
   ⟨0xCC, 1, 4, 0, 0, 0, 0, 0, 0, 0⟩, -- CTX_LOAD
   ⟨0xD0, 1, 4, 0, 0, 0, 0, 0, 0, 0⟩, -- CTX_MEM
   ⟨0xD4, 1, 4, 0, 0, 0, 0, 0, 0, 0⟩, -- CTX_PHASE
   ⟨0xD8, 1, 4, 0, 0xFFFFFFFF, 0, 0, 0, 0, 0⟩, -- CNT_MC
   ⟨0xDC, 1, 4, 0, 0xFFFFFFFF, 0, 0, 0, 0, 0⟩, -- CNT_BLEND
   ⟨0xE0, 1, 4, 0, 0xFFFFFFFF, 0, 0, 0, 0, 0⟩, -- CNT_REPEAT
   ⟨0xE4, 1, 4, 0, 0xFFFFFFFF, 0, 0, 0, 0, 0⟩, -- CNT_CUT
   ⟨0xE8, 1, 4, 0, 0xFFFFFFFF, 0, 0, 0, 0, 0⟩, -- CNT_LATE
   ⟨0xEC, 5, 4, 0, 0, 0, 0, 0, 0, 0⟩] -- 

/-- Registers of: key store. -/
def keyStoreRows : List Row :=
  [⟨0, 1, 4, 0, 0, 0, 0, 0, 0, 0⟩, -- ID
   ⟨4, 1, 4, 0x100, 0, 0, 0, 0, 0, 0⟩, -- VERSION
   ⟨8, 1, 4, 0, 0, 0, 0, 0, 0, 0⟩, -- CTRL
   ⟨0xC, 1, 4, 0, 0, 0, 0, 0, 0, 0⟩, -- STAT
   ⟨0x10, 1, 4, 0, 0, 0, 0, 0, 0xFF, 0⟩, -- EV_STICKY
   ⟨0x14, 1, 4, 0, 0xFF, 0, 0, 0, 0, 0⟩, -- EV_ENABLE
   ⟨0x18, 1, 4, 0, 0, 0, 0, 0, 0xFF, 0⟩, -- EV_FORCE
   ⟨0x1C, 1, 4, 0, 0, 0, 0, 0, 0, 0⟩, -- EV_LIVE
   ⟨0x20, 1, 4, 0, 0, 0, 0, 0, 0, 0⟩, -- COMMIT
   ⟨0x24, 1, 4, 0, 0, 0, 0, 0, 0, 0⟩, -- COMMIT_STAT
   ⟨0x28, 1, 4, 0, 0, 0, 0, 0, 0, 0⟩, -- ERR_LOC
   ⟨0x40, 1, 4, 0, 0, 0, 0, 0, 0, 0⟩, -- KS_STAT
   ⟨0x44, 1, 4, 0, 0, 0, 0, 0, 0, 0⟩, -- KS_TAMPER
   ⟨0x50, 1, 4, 0, 0xFFFF, 0, 0, 0, 0x80000000, 0⟩, -- CMD
   ⟨0x54, 1, 4, 0, 0xFFFFFFFF, 0, 0, 0, 0, 0⟩, -- CMD_ATTR
   ⟨0x58, 1, 4, 0, 0x1FFF, 0, 0, 0, 0, 0⟩, -- CMD_LEN
   ⟨0x5C, 1, 4, 0, 0, 0, 0, 0, 0, 0⟩, -- KS_CMD_RES
   ⟨0x60, 1, 4, 0, 0, 0, 0, 0, 0, 0⟩, -- KS_COUNTER
   ⟨0x64, 1, 4, 0, 0, 0, 0, 0, 0, 0⟩, -- MEAS_STAGES
   ⟨0x68, 1, 4, 0, 0, 0, 0, 0, 0, 0⟩, -- KS_LAST
   ⟨0x80, 8, 4, 0, 0xFFFFFFFF, 0, 0, 0, 0, 0⟩, -- LABEL
   ⟨0xA0, 0x10, 4, 0, 0xFFFFFFFF, 0, 0, 0, 0, 0⟩, -- CONTEXT
   ⟨0xE0, 8, 4, 0, 0xFFFFFFFF, 0, 0, 0, 0, 0⟩, -- CHALLENGE
   ⟨0x100, 8, 4, 0, 0, 0, 0, 0, 0, 0⟩, -- RESPONSE
   ⟨0x120, 0xC, 4, 0, 0, 0, 0, 0, 0, 0⟩, -- MEAS_ACC
   ⟨0x150, 0xC, 4, 0, 0, 0, 0, 0, 0, 0⟩, -- OWNER_HASH
   ⟨0x180, 0x18, 4, 0, 0, 0, 0, 0, 0, 0⟩, -- DEVICE_PUB
   ⟨0x200, 0x40, 8, 0, 0, 0, 0, 0, 0, 0⟩, -- SLOT_ATTR[s]
   ⟨0x204, 0x40, 8, 0, 0, 0, 0, 0, 0, 0⟩, -- SLOT_GEN[s]
   ⟨0x400, 0x5E, 4, 0, 0xFFFFFFFF, 0, 0, 0, 0, 0⟩] -- UPD_MSG

/-- Registers of: flash controller. -/
def flashControllerRows : List Row :=
  [⟨0, 1, 4, 0, 0, 0, 0, 0, 0, 0⟩, -- ID
   ⟨4, 1, 4, 0x100, 0, 0, 0, 0, 0, 0⟩, -- VERSION
   ⟨8, 1, 4, 0, 0, 0, 0, 0, 0, 0⟩, -- CTRL
   ⟨0xC, 1, 4, 0, 0, 0, 0, 0, 0, 0⟩, -- STAT
   ⟨0x10, 1, 4, 0, 0, 0, 0, 0, 0xFF, 0⟩, -- EV_STICKY
   ⟨0x14, 1, 4, 0, 0xFF, 0, 0, 0, 0, 0⟩, -- EV_ENABLE
   ⟨0x18, 1, 4, 0, 0, 0, 0, 0, 0xFF, 0⟩, -- EV_FORCE
   ⟨0x1C, 1, 4, 0, 0, 0, 0, 0, 0, 0⟩, -- EV_LIVE
   ⟨0x20, 1, 4, 0, 0, 0, 0, 0, 0, 0⟩, -- COMMIT
   ⟨0x24, 1, 4, 0, 0, 0, 0, 0, 0, 0⟩, -- COMMIT_STAT
   ⟨0x28, 1, 4, 0, 0, 0, 0, 0, 0, 0⟩, -- ERR_LOC
   ⟨0x40, 1, 4, 0x2A, 0x3F, 0, 0, 0, 0, 0⟩, -- NV_CFG
   ⟨0x44, 1, 4, 1, 0, 0, 0, 0, 0, 0⟩, -- NV_STAT
   ⟨0x48, 1, 4, 0, 0, 0, 0, 0, 0, 0⟩, -- REC_SPACE
   ⟨0x4C, 1, 4, 0, 0, 0, 0, 0, 0, 0⟩, -- REC_SEQ
   ⟨0x50, 1, 4, 0, 0xFFF, 0, 0, 0, 0x80000000, 0⟩, -- REC_CMD
   ⟨0x54, 1, 4, 0, 0xFFFF, 0, 0, 0, 0, 0⟩, -- REC_KEY
   ⟨0x58, 1, 4, 0, 0, 0, 0, 0, 0, 0⟩, -- REC_RES
   ⟨0x5C, 1, 4, 0, 0, 0, 0, 0, 0, 0⟩, -- REC_RSEQ
   ⟨0x60, 1, 4, 0, 0, 0, 0, 0, 0, 0⟩, -- GATHER_USED
   ⟨0x64, 1, 4, 0, 0xF, 0, 0, 0, 0x80000000, 0⟩, -- CNT_CMD
   ⟨0x68, 1, 4, 0, 0, 0, 0, 0, 0, 0⟩, -- CNT_RES
   ⟨0x6C, 1, 4, 0, 0x1FFFF, 0, 0, 0, 0x80000000, 0⟩, -- RAW_CTRL
   ⟨0x70, 1, 4, 0, 0xFF, 0, 0, 0, 0, 0⟩, -- RAW_PTR
   ⟨0x74, 1, 4, 0xFFFFFFFF, 0, 0, 0, 0, 0xFFFFFFFF, 0⟩, -- RAW_DATA
   ⟨0x78, 1, 4, 0, 0, 0, 0, 0, 0, 0⟩, -- RAW_RES
   ⟨0x7C, 1, 4, 0, 0, 0, 0, 0, 0, 0⟩, -- FLASH_LAST
   ⟨0x80, 1, 4, 0, 0, 0, 0, 0, 0, 0⟩, -- GLEAN_STAT
   ⟨0x84, 1, 4, 0x5A0, 0, 0, 0, 0, 0, 0⟩, -- GLEAN_NEXT
   ⟨0x88, 1, 4, 0, 0, 0, 0, 0, 0, 0⟩, -- SECT_WEAR
   ⟨0x8C, 1, 4, 0, 0, 0, 0, 0, 0, 0⟩, -- REC_CMT
   ⟨0x90, 0x10, 4, 0, 0, 0, 0, 0, 0, 0⟩, -- CNT_VAL[i]
   ⟨0xD0, 1, 4, 0, 0, 0, 0, 0, 0, 0⟩, -- CNT_SAT
   ⟨0x100, 0x3C, 4, 0, 0xFFFFFFFF, 0, 0, 0, 0, 0⟩] -- REC_DATA

/-- Registers of: bus matrix. -/
def busMatrixRows : List Row :=
  [⟨0, 1, 4, 0, 0, 0, 0, 0, 0, 0⟩, -- ID
   ⟨4, 1, 4, 0x100, 0, 0, 0, 0, 0, 0⟩, -- VERSION
   ⟨8, 1, 4, 0, 0, 0, 0, 0, 0, 0⟩, -- CTRL
   ⟨0xC, 1, 4, 0, 0, 0, 0, 0, 0, 0⟩, -- STAT
   ⟨0x10, 1, 4, 0, 0, 0, 0, 0, 0xFF, 0⟩, -- EV_STICKY
   ⟨0x14, 1, 4, 0, 0xFF, 0, 0, 0, 0, 0⟩, -- EV_ENABLE
   ⟨0x18, 1, 4, 0, 0, 0, 0, 0, 0xFF, 0⟩, -- EV_FORCE
   ⟨0x1C, 1, 4, 0, 0, 0, 0, 0, 0, 0⟩, -- EV_LIVE
   ⟨0x20, 1, 4, 0, 0, 0, 0, 0, 0, 0⟩, -- COMMIT
   ⟨0x24, 1, 4, 0, 0, 0, 0, 0, 0, 0⟩, -- COMMIT_STAT
   ⟨0x28, 1, 4, 0, 0, 0, 0, 0, 0, 0⟩, -- ERR_LOC
   ⟨0x40, 8, 4, 0x100, 0x1FF, 0, 0, 0, 0, 0⟩, -- BM_MCFG[m]
   ⟨0x60, 8, 4, 0, 0, 0, 0, 0, 0, 0⟩, -- BM_MSTAT[m]
   ⟨0x80, 8, 4, 0, 0, 0, 0, 0, 0, 0⟩, -- BM_QUAR[m]
   ⟨0xA0, 9, 4, 1, 0xF, 0, 0, 0, 0, 0⟩, -- BM_TCFG[t]
   ⟨0xD0, 9, 4, 0, 0, 0, 0, 0, 0, 0⟩, -- BM_TSTAT[t]
   ⟨0x100, 1, 4, 0, 0, 0, 0, 0, 0, 0⟩, -- BM_DEC_INFO
   ⟨0x104, 1, 4, 0, 0, 0, 0, 0, 0, 0⟩, -- BM_DEC_ADDR_LO
   ⟨0x108, 1, 4, 0, 0, 0, 0, 0, 0, 0⟩, -- BM_DEC_ADDR_HI
   ⟨0x10C, 1, 4, 0, 0, 0, 0, 0, 0, 0⟩, -- BM_ERR_INFO
   ⟨0x110, 1, 4, 0, 0, 0, 0, 0, 0, 0⟩, -- BM_ERR_ADDR_LO
   ⟨0x114, 1, 4, 0, 0, 0, 0, 0, 0, 0⟩, -- BM_ERR_ADDR_HI
   ⟨0x118, 1, 4, 0, 0, 0, 0, 0, 0, 0⟩, -- BM_LOCK_INFO
   ⟨0x11C, 1, 4, 0, 0xFFFFFFFF, 0, 0, 0, 0, 0⟩, -- BM_CNT_DEC
   ⟨0x120, 1, 4, 0, 0xFFFFFFFF, 0, 0, 0, 0, 0⟩, -- BM_CNT_ERR
   ⟨0x124, 1, 4, 0, 0xFFFFFFFF, 0, 0, 0, 0, 0⟩, -- BM_CNT_PROMOTE
   ⟨0x128, 1, 4, 0, 0xFFFFF000, 0, 0, 0, 0, 0⟩, -- BM_OUT_BASE_LO
   ⟨0x12C, 1, 4, 0, 0xFFFFFFFF, 0, 0, 0, 0, 0⟩, -- BM_OUT_BASE_HI
   ⟨0x130, 1, 4, 0, 0, 0, 0, 0, 0, 0⟩, -- BM_M6_BASE
   ⟨0x134, 1, 4, 0, 0, 0, 0, 0, 0, 0⟩, -- BM_M6_LEN
   ⟨0x138, 1, 4, 0, 0xFFFFFFFF, 0, 0, 0, 0, 0⟩] -- BM_T0_PARTIAL

/-- Registers of: Mernak. -/
def mernakRows : List Row :=
  [⟨0, 1, 4, 0, 0, 0, 0, 0, 0, 0⟩, -- ID
   ⟨4, 1, 4, 0x100, 0, 0, 0, 0, 0, 0⟩, -- VERSION
   ⟨8, 1, 4, 0, 0, 0, 0, 0, 0, 0⟩, -- CTRL
   ⟨0xC, 1, 4, 0, 0, 0, 0, 0, 0, 0⟩, -- STAT
   ⟨0x10, 1, 4, 0, 0, 0, 0, 0, 0xFFFFF, 0⟩, -- EV_STICKY
   ⟨0x14, 1, 4, 0, 0xFFFFF, 0, 0, 0, 0, 0⟩, -- EV_ENABLE
   ⟨0x18, 1, 4, 0, 0, 0, 0, 0, 0xFFFFF, 0⟩, -- EV_FORCE
   ⟨0x1C, 1, 4, 0, 0, 0, 0, 0, 0, 0⟩, -- EV_LIVE
   ⟨0x20, 1, 4, 0, 0, 0, 0, 0, 0, 0⟩, -- COMMIT
   ⟨0x24, 1, 4, 0, 0, 0, 0, 0, 0, 0⟩, -- COMMIT_STAT
   ⟨0x28, 1, 4, 0, 0, 0, 0, 0, 0, 0⟩, -- ERR_LOC
   ⟨0x40, 1, 4, 0, 0, 0, 0, 0, 0, 0⟩, -- MG_STAT
   ⟨0x44, 1, 4, 0, 0, 0, 0, 0, 0, 0⟩, -- MG_VER
   ⟨0x48, 1, 4, 0x3E8, 0, 0, 0, 0, 0x80000000, 0x3FFF⟩, -- MG_WDT
   ⟨0x4C, 1, 4, 0, 0, 0, 0, 0, 1, 0⟩, -- MG_DBG
   ⟨0x50, 1, 4, 0, 0, 0, 0, 0, 0, 0⟩, -- MG_POWERED
   ⟨0x60, 1, 4, 0, 1, 0, 0, 0, 0, 0⟩, -- UPD_CFG
   ⟨0x64, 1, 4, 0, 0xFFFFFFFF, 0, 0, 0, 0, 0⟩, -- UPD_ADDR_LO
   ⟨0x68, 1, 4, 0, 0x3F, 0, 0, 0, 0, 0⟩, -- UPD_ADDR_HI
   ⟨0x6C, 1, 4, 0, 0, 0, 0, 0, 7, 0⟩, -- UPD_CMD
   ⟨0x70, 1, 4, 0, 0, 0, 0, 0, 0, 0⟩, -- UPD_STAT
   ⟨0x80, 1, 4, 0, 0xFFFFFFFF, 0, 0, 0, 0, 0⟩, -- DMA_SRC_LO
   ⟨0x84, 1, 4, 0, 0xFF, 0, 0, 0, 0, 0⟩, -- DMA_SRC_HI
   ⟨0x88, 1, 4, 0, 0xFFFFFFFF, 0, 0, 0, 0, 0⟩, -- DMA_DST_LO
   ⟨0x8C, 1, 4, 0, 0xFF, 0, 0, 0, 0, 0⟩, -- DMA_DST_HI
   ⟨0x90, 1, 4, 0, 0x1FFFFFF, 0, 0, 0, 0, 0⟩, -- DMA_LEN
   ⟨0x94, 1, 4, 4, 0xF, 0, 0, 0, 0xC0000000, 0⟩, -- DMA_CTRL
   ⟨0x98, 1, 4, 0, 0, 0, 0, 0, 0, 0⟩, -- DMA_STAT
   ⟨0x9C, 1, 4, 0, 0, 0, 0, 0, 0, 0⟩] -- DMA_POS

/-- Registers of: sensors. -/
def sensorsRows : List Row :=
  [⟨0, 0xB, 4, 0, 0, 0, 0, 0, 0, 0⟩, -- TEMP[i]
   ⟨0x40, 1, 4, 0x6E00640, 0xFFF0FFF, 0, 0, 0, 0, 0⟩, -- TEMP_LIM
   ⟨0x80, 0xD, 4, 0, 0, 0, 0, 0, 0, 0⟩, -- VOLT[r]
   ⟨0x100, 0xD, 4, 0, 0xFFFFFFFF, 0, 0, 0, 0, 0⟩] -- VLIM[r]

/-- Registers of: slack and ageing (Granary). -/
def slackAndAgeingGranaryRows : List Row :=
  [⟨0, 0x1A, 4, 0, 0, 0, 0, 0, 0, 0⟩, -- SLK[k]
   ⟨0x80, 8, 4, 0, 0, 0, 0, 0, 0, 0⟩, -- AGE_CYC[l]
   ⟨0xC0, 7, 4, 0xFFFF, 0, 0, 0, 0, 0, 0⟩, -- EOL[d]
   ⟨0xE0, 1, 4, 0x16D, 0xFFFF, 0, 0, 0, 0, 0⟩] -- EOL_WARN

/-- Registers of: fault log and Yumen forwarding. -/
def faultLogAndYumenForwardingRows : List Row :=
  [⟨0, 1, 4, 0, 0x3FFF, 0, 0, 0, 0, 0⟩, -- LOG_IDX
   ⟨4, 8, 4, 0, 0, 0, 0, 0, 0, 0⟩, -- LOG_ENTRY
   ⟨0x24, 1, 4, 0, 0xFFFF, 0, 0, 0, 0, 0⟩, -- MG_LOG
   ⟨0x28, 1, 4, 0, 0, 0, 0, 0, 0, 0⟩, -- LOG_ENTRY_VALID
   ⟨0x40, 1, 4, 0, 0xFFFFFFFF, 0, 0, 0, 0, 0⟩, -- YF_BASE_LO
   ⟨0x44, 1, 4, 0, 0x3F, 0, 0, 0, 0, 0⟩, -- YF_BASE_HI
   ⟨0x48, 1, 4, 0, 0xFFFF, 0, 0, 0, 0, 0⟩, -- YF_SLOTS
   ⟨0x4C, 1, 4, 0, 0, 0, 0, 0, 0, 0⟩, -- YF_WR
   ⟨0x50, 1, 4, 0, 0xFFFF, 0, 0, 0, 0, 0⟩] -- YF_RD

/-- Registers of: update block window. -/
def updateBlockWindowRows : List Row :=
  [⟨0, 0x400, 4, 0, 0, 0, 0, 0, 0xFFFFFFFF, 0⟩] -- UPD_WINDOW

/-- Registers of: Yumen bridge. -/
def yumenBridgeRows : List Row :=
  [⟨0, 1, 4, 0, 3, 0, 0, 0, 0, 0⟩, -- LOG_CFG
   ⟨4, 1, 4, 0, 0xFFFFFFFF, 0, 0, 0, 0, 0⟩, -- LOG_S_LO
   ⟨8, 1, 4, 0, 0xFFFFFFFF, 0, 0, 0, 0, 0⟩, -- LOG_S_HI
   ⟨0xC, 1, 4, 0, 0xFFFFFFFF, 0, 0, 0, 0, 0⟩, -- LOG_Q_LO
   ⟨0x10, 1, 4, 0, 0xFFFFFFFF, 0, 0, 0, 0, 0⟩, -- LOG_Q_HI
   ⟨0x14, 1, 4, 0, 0, 0, 0, 0, 0, 0⟩, -- LOG_WR
   ⟨0x18, 1, 4, 0, 0x1FFF, 0, 0, 0, 0, 0⟩, -- LOG_RD
   ⟨0x1C, 1, 4, 0, 0xFFFFFFFF, 0, 0, 0, 0, 0⟩, -- LOG_CNT
   ⟨0x20, 1, 4, 0, 0xFFFFFFFF, 0, 0, 0, 0, 0⟩] -- LOG_DROP

/-- Registers of: commit sequencer. -/
def commitSequencerRows : List Row :=
  [⟨0, 1, 4, 0, 0, 0, 0, 0, 0, 0⟩, -- ID
   ⟨4, 1, 4, 0x100, 0, 0, 0, 0, 0, 0⟩, -- VERSION
   ⟨8, 1, 4, 0, 0, 0, 0, 0, 0, 0⟩, -- CTRL
   ⟨0xC, 1, 4, 0, 0, 0, 0, 0, 0, 0⟩, -- STAT
   ⟨0x10, 1, 4, 0, 0, 0, 0, 0, 0x3F, 0⟩, -- EV_STICKY
   ⟨0x14, 1, 4, 0, 0x3F, 0, 0, 0, 0, 0⟩, -- EV_ENABLE
   ⟨0x18, 1, 4, 0, 0, 0, 0, 0, 0x3F, 0⟩, -- EV_FORCE
   ⟨0x1C, 1, 4, 0, 0, 0, 0, 0, 0, 0⟩, -- EV_LIVE
   ⟨0x20, 1, 4, 0, 0, 0, 0, 0, 0, 0⟩, -- COMMIT
   ⟨0x24, 1, 4, 0, 0, 0, 0, 0, 0, 0⟩, -- COMMIT_STAT
   ⟨0x28, 1, 4, 0, 0, 0, 0, 0, 0, 0⟩, -- ERR_LOC
   ⟨0x40, 1, 4, 0xC64, 0x3FFFF, 0, 0, 0, 0, 0⟩, -- SEQ_CFG
   ⟨0x44, 1, 4, 1, 0, 0, 0, 0, 0, 0⟩, -- TOKEN_NEXT
   ⟨0x100, 0x40, 0x10, 0, 0, 0, 0, 0, 0xF, 0⟩, -- CG_CFG
   ⟨0x104, 0x40, 0x10, 0, 0, 0, 0, 0, 3, 0⟩, -- CG_CTRL
   ⟨0x108, 0x40, 0x10, 0, 0, 0, 0, 0, 0, 0⟩, -- CG_STAT
   ⟨0x10C, 0x40, 0x10, 0, 0, 0, 0, 0, 0, 0⟩, -- CG_CAUSE
   ⟨0x500, 0x40, 4, 0, 0, 0, 0, 0, 0, 0⟩] -- CG_FRAME

/-- Registers of: calibration set. -/
def calibrationSetRows : List Row :=
  [⟨0, 1, 4, 0, 0, 0, 0, 0, 0, 0⟩, -- ID
   ⟨4, 1, 4, 0x100, 0, 0, 0, 0, 0, 0⟩, -- VERSION
   ⟨8, 1, 4, 0, 0, 0, 0, 0, 0, 0⟩, -- CTRL
   ⟨0xC, 1, 4, 0, 0, 0, 0, 0, 0, 0⟩, -- STAT
   ⟨0x10, 1, 4, 0, 0, 0, 0, 0, 0, 0⟩, -- EV_STICKY
   ⟨0x14, 1, 4, 0, 0, 0, 0, 0, 0, 0⟩, -- EV_ENABLE
   ⟨0x18, 1, 4, 0, 0, 0, 0, 0, 0, 0⟩, -- EV_FORCE
   ⟨0x1C, 1, 4, 0, 0, 0, 0, 0, 0, 0⟩, -- EV_LIVE
   ⟨0x20, 1, 4, 0, 0, 0, 0, 0, 0, 0⟩, -- COMMIT
   ⟨0x24, 1, 4, 0, 0, 0, 0, 0, 0, 0⟩, -- COMMIT_STAT
   ⟨0x28, 1, 4, 0, 0, 0, 0, 0, 0, 0⟩, -- ERR_LOC
   ⟨0x40, 1, 4, 0, 0x3FF, 0, 0, 0, 0x80000000, 0⟩, -- CAL_CMD
   ⟨0x44, 1, 4, 0, 0, 0, 0, 0, 0xFFFFFFFF, 0⟩, -- CAL_UNLOCK
   ⟨0x48, 1, 4, 0, 0, 0, 0, 0, 0, 0⟩, -- CAL_STAT
   ⟨0x100, 0x3C, 4, 0, 0xFFFFFFFF, 0, 0, 0, 0, 0⟩] -- CAL_DATA

/-- Registers of: Sheaf identity. -/
def sheafIdentityRows : List Row :=
  [⟨0, 1, 4, 0, 0, 0, 0, 0, 0, 0⟩, -- ID
   ⟨4, 1, 4, 0x100, 0, 0, 0, 0, 0, 0⟩, -- VERSION
   ⟨8, 1, 4, 0, 0, 0, 0, 0, 0, 0⟩, -- CTRL
   ⟨0xC, 1, 4, 0, 0, 0, 0, 0, 0, 0⟩, -- STAT
   ⟨0x10, 1, 4, 0, 0, 0, 0, 0, 0, 0⟩, -- EV_STICKY
   ⟨0x14, 1, 4, 0, 0, 0, 0, 0, 0, 0⟩, -- EV_ENABLE
   ⟨0x18, 1, 4, 0, 0, 0, 0, 0, 0, 0⟩, -- EV_FORCE
   ⟨0x1C, 1, 4, 0, 0, 0, 0, 0, 0, 0⟩, -- EV_LIVE
   ⟨0x20, 1, 4, 0, 0, 0, 0, 0, 0, 0⟩, -- COMMIT
   ⟨0x24, 1, 4, 0, 0, 0, 0, 0, 0, 0⟩, -- COMMIT_STAT
   ⟨0x28, 1, 4, 0, 0, 0, 0, 0, 0, 0⟩] -- ERR_LOC

/-- Registers of: Sheaf events. -/
def sheafEventsRows : List Row :=
  [⟨0, 1, 4, 0, 0, 0, 0, 0, 0, 0⟩, -- ID
   ⟨4, 1, 4, 0x100, 0, 0, 0, 0, 0, 0⟩, -- VERSION
   ⟨8, 1, 4, 0, 0, 0, 0, 0, 0, 0⟩, -- CTRL
   ⟨0xC, 1, 4, 0, 0, 0, 0, 0, 0, 0⟩, -- STAT
   ⟨0x10, 1, 4, 0, 0, 0, 0, 0, 0x38, 0⟩, -- EV_STICKY
   ⟨0x14, 1, 4, 0, 0x38, 0, 0, 0, 0, 0⟩, -- EV_ENABLE
   ⟨0x18, 1, 4, 0, 0, 0, 0, 0, 0x38, 0⟩, -- EV_FORCE
   ⟨0x1C, 1, 4, 0, 0, 0, 0, 0, 0, 0⟩, -- EV_LIVE
   ⟨0x20, 1, 4, 0, 0, 0, 0, 0, 0, 0⟩, -- COMMIT
   ⟨0x24, 1, 4, 0, 0, 0, 0, 0, 0, 0⟩, -- COMMIT_STAT
   ⟨0x28, 1, 4, 0, 0, 0, 0, 0, 0, 0⟩] -- ERR_LOC

/-- Registers of: input. -/
def inputRows : List Row :=
  [⟨0, 1, 4, 0, 0, 0, 0, 0, 0, 0⟩, -- ID
   ⟨4, 1, 4, 0x100, 0, 0, 0, 0, 0, 0⟩, -- VERSION
   ⟨8, 1, 4, 0, 0, 0, 0, 0, 0x80000001, 0⟩, -- CTRL
   ⟨0xC, 1, 4, 1, 0, 0, 0, 0, 0, 0⟩, -- STAT
   ⟨0x10, 1, 4, 0, 0, 0, 0, 0, 0x1FFF, 0⟩, -- EV_STICKY
   ⟨0x14, 1, 4, 0, 0x1FFF, 0, 0, 0, 0, 0⟩, -- EV_ENABLE
   ⟨0x18, 1, 4, 0, 0, 0, 0, 0, 0x1FFF, 0⟩, -- EV_FORCE
   ⟨0x1C, 1, 4, 0, 0, 0, 0, 0, 0, 0⟩, -- EV_LIVE
   ⟨0x20, 1, 4, 0, 0, 0, 0, 0, 0, 0⟩, -- COMMIT
   ⟨0x24, 1, 4, 0, 0, 0, 0, 0, 0, 0⟩, -- COMMIT_STAT
   ⟨0x28, 1, 4, 0, 0, 0, 0, 0, 0, 0⟩, -- ERR_LOC
   ⟨0x40, 1, 4, 0, 0x10, 0, 0, 0xF, 0, 0⟩, -- IN_CFG
   ⟨0x44, 1, 4, 0, 0, 0, 0, 0, 0, 0⟩, -- IN_STAT
   ⟨0x48, 1, 4, 0, 0, 0, 0, 0, 0, 0⟩, -- IN_FMT
   ⟨0x4C, 1, 4, 0, 0, 0, 0, 0, 0, 0⟩, -- IN_PID
   ⟨0x50, 1, 4, 0, 0, 0, 0, 0, 0, 0⟩, -- IN_RASTER
   ⟨0x54, 1, 4, 0, 0xFFFFFFFF, 0, 0, 0, 0, 0⟩, -- IN_ERR
   ⟨0x58, 1, 4, 0, 0, 0, 0, 0, 0, 0⟩, -- IN_EQ
   ⟨0x5C, 1, 4, 0, 0, 0, 0, 0, 0, 0⟩, -- IN_QUAD
   ⟨0x60, 1, 4, 0, 0, 0, 0, 0, 0xF, 0⟩, -- IN_OVERRIDE
   ⟨0x64, 1, 4, 3, 3, 0, 0, 0, 0, 0⟩, -- IN_ANC_CFG
   ⟨0x68, 1, 4, 0, 0, 0, 0, 0, 0, 0⟩, -- IN_ANC_STAT
   ⟨0x6C, 1, 4, 0, 0, 0, 0, 0, 0, 0⟩] -- IN_FRAME

/-- Registers of: output. -/
def outputRows : List Row :=
  [⟨0, 1, 4, 0, 0, 0, 0, 0, 0, 0⟩, -- ID
   ⟨4, 1, 4, 0x100, 0, 0, 0, 0, 0, 0⟩, -- VERSION
   ⟨8, 1, 4, 0, 0, 0, 0, 0, 0x80000007, 0⟩, -- CTRL
   ⟨0xC, 1, 4, 1, 0, 0, 0, 0, 0, 0⟩, -- STAT
   ⟨0x10, 1, 4, 0, 0, 0, 0, 0, 0x3F, 0⟩, -- EV_STICKY
   ⟨0x14, 1, 4, 0, 0x3F, 0, 0, 0, 0, 0⟩, -- EV_ENABLE
   ⟨0x18, 1, 4, 0, 0, 0, 0, 0, 0x3F, 0⟩, -- EV_FORCE
   ⟨0x1C, 1, 4, 0, 0, 0, 0, 0, 0, 0⟩, -- EV_LIVE
   ⟨0x20, 1, 4, 0, 0, 0, 0, 0, 0, 0⟩, -- COMMIT
   ⟨0x24, 1, 4, 0, 0, 0, 0, 0, 0, 0⟩, -- COMMIT_STAT
   ⟨0x28, 1, 4, 0, 0, 0, 0, 0, 0, 0⟩, -- ERR_LOC
   ⟨0x40, 1, 4, 0x506, 0, 0, 0, 0x7FFFFF, 0, 0⟩, -- OUT_CFG
   ⟨0x44, 1, 4, 0, 0, 0, 0, 0, 0, 0⟩, -- OUT_STAT
   ⟨0x48, 1, 4, 0x903, 0xFF07, 0, 0, 0, 0, 0⟩, -- OUT_ANC
   ⟨0x4C, 1, 4, 0, 0xFFFF, 0, 0, 0, 0, 0⟩, -- OUT_RQP
   ⟨0x50, 1, 4, 0, 0xFFFFFFFF, 0, 0, 0, 0, 0⟩, -- OUT_REPEAT
   ⟨0x54, 1, 4, 0, 0, 0, 0, 0, 0, 0⟩, -- OUT_FRAME
   ⟨0x58, 1, 4, 0, 0, 0, 0, 0, 0, 0⟩] -- OUT_POS

/-- Registers of: composer. -/
def composerRows : List Row :=
  [⟨0, 1, 4, 0, 0, 0, 0, 0, 0, 0⟩, -- ID
   ⟨4, 1, 4, 0x100, 0, 0, 0, 0, 0, 0⟩, -- VERSION
   ⟨8, 1, 4, 0, 0, 0, 0, 0, 0x80000000, 0⟩, -- CTRL
   ⟨0xC, 1, 4, 0, 0, 0, 0, 0, 0, 0⟩, -- STAT
   ⟨0x10, 1, 4, 0, 0, 0, 0, 0, 0xFF, 0⟩, -- EV_STICKY
   ⟨0x14, 1, 4, 0, 0xFF, 0, 0, 0, 0, 0⟩, -- EV_ENABLE
   ⟨0x18, 1, 4, 0, 0, 0, 0, 0, 0xFF, 0⟩, -- EV_FORCE
   ⟨0x1C, 1, 4, 0, 0, 0, 0, 0, 0, 0⟩, -- EV_LIVE
   ⟨0x20, 1, 4, 0, 0, 0, 0, 0, 0x8000003F, 0⟩, -- COMMIT
   ⟨0x24, 1, 4, 0, 0, 0, 0, 0, 0, 0⟩, -- COMMIT_STAT
   ⟨0x28, 1, 4, 0, 0, 0, 0, 0, 0, 0⟩, -- ERR_LOC
   ⟨0x40, 1, 4, 0, 0, 0, 0, 3, 0, 0⟩, -- COMP_CFG
   ⟨0x44, 1, 4, 0xE4, 0, 0, 0xFF, 0, 0, 0⟩, -- COMP_ORDER
   ⟨0x48, 1, 4, 0, 0, 0, 0x3FFF3FFF, 0, 0, 0⟩, -- COMP_BG0
   ⟨0x4C, 1, 4, 0, 0, 0, 0x3FFF, 0, 0, 0⟩, -- COMP_BG1
   ⟨0x50, 1, 4, 0, 0, 0, 0xF, 0, 0, 0⟩, -- COMP_COLOR
   ⟨0x54, 1, 4, 4, 0, 0, 0xF, 0, 0, 0⟩, -- COMP_DITHER
   ⟨0x58, 1, 4, 1, 0, 0, 0xFFFFFFFF, 0, 0, 0⟩, -- DITHER_SEED
   ⟨0x5C, 1, 4, 0x2000, 0, 0, 0xFFFFFFFF, 0, 0, 0⟩, -- ENC_M0
   ⟨0x60, 1, 4, 0, 0, 0, 0xFFFFFFFF, 0, 0, 0⟩, -- ENC_M1
   ⟨0x64, 1, 4, 0x2000, 0, 0, 0xFFFFFFFF, 0, 0, 0⟩, -- ENC_M2
   ⟨0x68, 1, 4, 0, 0, 0, 0xFFFFFFFF, 0, 0, 0⟩, -- ENC_M3
   ⟨0x6C, 1, 4, 0x2000, 0, 0, 0xFFFF, 0, 0, 0⟩, -- ENC_M4
   ⟨0x70, 1, 4, 0, 0, 0, 0xFFFFFFFF, 0, 0, 0⟩, -- ENC_OFS0
   ⟨0x74, 1, 4, 0, 0, 0, 0xFFFFFFFF, 0, 0, 0⟩, -- ENC_OFS1
   ⟨0x78, 1, 4, 0, 0, 0, 0xFFFFFFFF, 0, 0, 0⟩, -- ENC_OFS2
   ⟨0x80, 1, 4, 0, 0, 0, 0, 0, 0, 0⟩, -- COMP_STAT
   ⟨0x84, 1, 4, 0, 0xFFFFFFFF, 0, 0, 0, 0, 0⟩, -- COMP_SUB
   ⟨0x88, 1, 4, 0, 0xFFFFFFFF, 0, 0, 0, 0, 0⟩, -- COMP_HIDE
   ⟨0x90, 1, 4, 0, 0, 0, 0, 0, 3, 0⟩, -- COEF_CTRL
   ⟨0x200, 1, 4, 0, 0, 0, 0, 0, 0xFFFFFFFF, 0⟩, -- FENCE_DOORBELL_G1
   ⟨0x204, 1, 4, 0, 0, 0, 0, 0, 0xFFFFFFFF, 0⟩, -- FENCE_DOORBELL_G2
   ⟨0x208, 1, 4, 0, 0, 0, 0, 0, 0, 0⟩, -- FENCE_DEFERS
   ⟨0x210, 4, 4, 0, 0, 0, 0, 0, 0, 0⟩, -- LAYER_STAT[k]
   ⟨0x100, 1, 4, 4, 0, 0, 0x1F, 0, 0, 0⟩, -- LAYER_CTRL
   ⟨0x104, 1, 4, 0, 0, 0, 0xFFFFFFFF, 0, 0, 0⟩, -- LAYER_POS
   ⟨0x108, 1, 4, 0x4380780, 0, 0, 0x3FFF3FFF, 0, 0, 0⟩, -- LAYER_SIZE
   ⟨0x10C, 1, 4, 0, 0, 0, 0x1FFF3FFF, 0, 0, 0⟩, -- LAYER_CROP_POS
   ⟨0x110, 1, 4, 0, 0, 0, 0x1FFF3FFF, 0, 0, 0⟩, -- LAYER_CROP_SIZE
   ⟨0x114, 1, 4, 0x4000, 0, 0, 0x7FFF, 0, 0, 0⟩, -- LAYER_ALPHA
   ⟨0x118, 1, 4, 0x2000, 0, 0, 0xFFFFFFFF, 0, 0, 0⟩, -- LAYER_M0–LAYER_M4
   ⟨0x11C, 1, 4, 0, 0, 0, 0xFFFFFFFF, 0, 0, 0⟩, -- LAYER_M0–LAYER_M4
   ⟨0x120, 1, 4, 0x2000, 0, 0, 0xFFFFFFFF, 0, 0, 0⟩, -- LAYER_M0–LAYER_M4
   ⟨0x124, 1, 4, 0, 0, 0, 0xFFFFFFFF, 0, 0, 0⟩, -- LAYER_M0–LAYER_M4
   ⟨0x128, 1, 4, 0x2000, 0, 0, 0xFFFF, 0, 0, 0⟩, -- LAYER_M0–LAYER_M4
   ⟨0x12C, 3, 4, 0, 0, 0, 0xFFFFFFFF, 0, 0, 0⟩, -- LAYER_OFS0–LAYER_OFS2
   ⟨0x138, 1, 4, 0, 0, 0, 0, 0, 0, 0⟩, -- reserved on V layers
   ⟨0x13C, 1, 4, 0, 0, 0, 0, 0, 0, 0⟩, -- reserved on V layers
   ⟨0x140, 1, 4, 4, 0, 0, 0x1F, 0, 0, 0⟩, -- LAYER_CTRL
   ⟨0x144, 1, 4, 0, 0, 0, 0xFFFFFFFF, 0, 0, 0⟩, -- LAYER_POS
   ⟨0x148, 1, 4, 0x4380780, 0, 0, 0x3FFF3FFF, 0, 0, 0⟩, -- LAYER_SIZE
   ⟨0x14C, 1, 4, 0, 0, 0, 0x1FFF3FFF, 0, 0, 0⟩, -- LAYER_CROP_POS
   ⟨0x150, 1, 4, 0, 0, 0, 0x1FFF3FFF, 0, 0, 0⟩, -- LAYER_CROP_SIZE
   ⟨0x154, 1, 4, 0x4000, 0, 0, 0x7FFF, 0, 0, 0⟩, -- LAYER_ALPHA
   ⟨0x158, 1, 4, 0x2000, 0, 0, 0xFFFFFFFF, 0, 0, 0⟩, -- LAYER_M0–LAYER_M4
   ⟨0x15C, 1, 4, 0, 0, 0, 0xFFFFFFFF, 0, 0, 0⟩, -- LAYER_M0–LAYER_M4
   ⟨0x160, 1, 4, 0x2000, 0, 0, 0xFFFFFFFF, 0, 0, 0⟩, -- LAYER_M0–LAYER_M4
   ⟨0x164, 1, 4, 0, 0, 0, 0xFFFFFFFF, 0, 0, 0⟩, -- LAYER_M0–LAYER_M4
   ⟨0x168, 1, 4, 0x2000, 0, 0, 0xFFFF, 0, 0, 0⟩, -- LAYER_M0–LAYER_M4
   ⟨0x16C, 3, 4, 0, 0, 0, 0xFFFFFFFF, 0, 0, 0⟩, -- LAYER_OFS0–LAYER_OFS2
   ⟨0x178, 1, 4, 0, 0, 0, 0, 0, 0, 0⟩, -- reserved on V layers
   ⟨0x17C, 1, 4, 0, 0, 0, 0, 0, 0, 0⟩, -- reserved on V layers
   ⟨0x180, 1, 4, 4, 0, 0, 0x1F, 0, 0, 0⟩, -- LAYER_CTRL
   ⟨0x184, 1, 4, 0, 0, 0, 0xFFFFFFFF, 0, 0, 0⟩, -- LAYER_POS
   ⟨0x188, 1, 4, 0, 0, 0, 0, 0, 0, 0⟩, -- reserved on G layers
   ⟨0x18C, 1, 4, 0, 0, 0, 0x1FFF3FFF, 0, 0, 0⟩, -- LAYER_CROP_POS
   ⟨0x190, 1, 4, 0, 0, 0, 0x1FFF3FFF, 0, 0, 0⟩, -- LAYER_CROP_SIZE
   ⟨0x194, 1, 4, 0x4000, 0, 0, 0x7FFF, 0, 0, 0⟩, -- LAYER_ALPHA
   ⟨0x198, 1, 4, 0x2000, 0, 0, 0xFFFFFFFF, 0, 0, 0⟩, -- LAYER_M0–LAYER_M4
   ⟨0x19C, 1, 4, 0, 0, 0, 0xFFFFFFFF, 0, 0, 0⟩, -- LAYER_M0–LAYER_M4
   ⟨0x1A0, 1, 4, 0x2000, 0, 0, 0xFFFFFFFF, 0, 0, 0⟩, -- LAYER_M0–LAYER_M4
   ⟨0x1A4, 1, 4, 0, 0, 0, 0xFFFFFFFF, 0, 0, 0⟩, -- LAYER_M0–LAYER_M4
   ⟨0x1A8, 1, 4, 0x2000, 0, 0, 0xFFFF, 0, 0, 0⟩, -- LAYER_M0–LAYER_M4
   ⟨0x1AC, 3, 4, 0, 0, 0, 0xFFFFFFFF, 0, 0, 0⟩, -- LAYER_OFS0–LAYER_OFS2
   ⟨0x1B8, 1, 4, 0x188, 0x7F80, 0, 0x7F, 0, 0, 0⟩, -- FENCE_CFG
   ⟨0x1BC, 1, 4, 0, 0, 0, 0xFFFFFFFF, 0, 0, 0⟩, -- FENCE_ARM
   ⟨0x1C0, 1, 4, 4, 0, 0, 0x1F, 0, 0, 0⟩, -- LAYER_CTRL
   ⟨0x1C4, 1, 4, 0, 0, 0, 0xFFFFFFFF, 0, 0, 0⟩, -- LAYER_POS
   ⟨0x1C8, 1, 4, 0, 0, 0, 0, 0, 0, 0⟩, -- reserved on G layers
   ⟨0x1CC, 1, 4, 0, 0, 0, 0x1FFF3FFF, 0, 0, 0⟩, -- LAYER_CROP_POS
   ⟨0x1D0, 1, 4, 0, 0, 0, 0x1FFF3FFF, 0, 0, 0⟩, -- LAYER_CROP_SIZE
   ⟨0x1D4, 1, 4, 0x4000, 0, 0, 0x7FFF, 0, 0, 0⟩, -- LAYER_ALPHA
   ⟨0x1D8, 1, 4, 0x2000, 0, 0, 0xFFFFFFFF, 0, 0, 0⟩, -- LAYER_M0–LAYER_M4
   ⟨0x1DC, 1, 4, 0, 0, 0, 0xFFFFFFFF, 0, 0, 0⟩, -- LAYER_M0–LAYER_M4
   ⟨0x1E0, 1, 4, 0x2000, 0, 0, 0xFFFFFFFF, 0, 0, 0⟩, -- LAYER_M0–LAYER_M4
   ⟨0x1E4, 1, 4, 0, 0, 0, 0xFFFFFFFF, 0, 0, 0⟩, -- LAYER_M0–LAYER_M4
   ⟨0x1E8, 1, 4, 0x2000, 0, 0, 0xFFFF, 0, 0, 0⟩, -- LAYER_M0–LAYER_M4
   ⟨0x1EC, 3, 4, 0, 0, 0, 0xFFFFFFFF, 0, 0, 0⟩, -- LAYER_OFS0–LAYER_OFS2
   ⟨0x1F8, 1, 4, 0x188, 0x7F80, 0, 0x7F, 0, 0, 0⟩, -- FENCE_CFG
   ⟨0x1FC, 1, 4, 0, 0, 0, 0xFFFFFFFF, 0, 0, 0⟩] -- FENCE_ARM

/-- Registers of: composer coefficients. -/
def composerCoefficientsRows : List Row :=
  [⟨0, 0x100, 4, 0, 0, 0, 0, 0, 0xFFF0FFF, 0⟩, -- V1_HCOEF
   ⟨0x400, 0x40, 0x10, 0, 0, 0, 0, 0, 0xFFF0FFF, 0⟩, -- V1_VCOEF
   ⟨0x404, 0x40, 0x10, 0, 0, 0, 0, 0, 0xFFF0FFF, 0⟩, -- V1_VCOEF
   ⟨0x408, 0x40, 0x10, 0, 0, 0, 0, 0, 0xFFF0FFF, 0⟩, -- V1_VCOEF
   ⟨0x800, 0x100, 4, 0, 0, 0, 0, 0, 0xFFF0FFF, 0⟩, -- V2_HCOEF
   ⟨0xC00, 0x40, 0x10, 0, 0, 0, 0, 0, 0xFFF0FFF, 0⟩, -- V2_VCOEF
   ⟨0xC04, 0x40, 0x10, 0, 0, 0, 0, 0, 0xFFF0FFF, 0⟩, -- V2_VCOEF
   ⟨0xC08, 0x40, 0x10, 0, 0, 0, 0, 0, 0xFFF0FFF, 0⟩] -- V2_VCOEF

/-- Registers of: composer LUT port. -/
def composerLUTPortRows : List Row :=
  [⟨0, 1, 4, 0x10000, 0x1FFFF, 0, 0, 0, 0, 0⟩, -- LUT_ADDR
   ⟨4, 1, 4, 0, 0x3FFF3FFF, 0, 0, 0, 0, 0⟩, -- LUT_DATA0
   ⟨8, 1, 4, 0, 0, 0, 0, 0, 0x3FFF, 0⟩] -- LUT_DATA1

/-- Registers of: audio de-embed and embed. -/
def audioDeEmbedAndEmbedRows : List Row :=
  [⟨0, 1, 4, 0, 0, 0, 0, 0, 0, 0⟩, -- ID
   ⟨4, 1, 4, 0x100, 0, 0, 0, 0, 0, 0⟩, -- VERSION
   ⟨8, 1, 4, 0, 0, 0, 0, 0, 0, 0⟩, -- CTRL
   ⟨0xC, 1, 4, 0, 0, 0, 0, 0, 0, 0⟩, -- STAT
   ⟨0x10, 1, 4, 0, 0, 0, 0, 0, 0x30F, 0⟩, -- EV_STICKY
   ⟨0x14, 1, 4, 0, 0x30F, 0, 0, 0, 0, 0⟩, -- EV_ENABLE
   ⟨0x18, 1, 4, 0, 0, 0, 0, 0, 0x30F, 0⟩, -- EV_FORCE
   ⟨0x1C, 1, 4, 0, 0, 0, 0, 0, 0, 0⟩, -- EV_LIVE
   ⟨0x20, 1, 4, 0, 0, 0, 0, 0, 0x8000003F, 0⟩, -- COMMIT
   ⟨0x24, 1, 4, 0, 0, 0, 0, 0, 0, 0⟩, -- COMMIT_STAT
   ⟨0x28, 1, 4, 0, 0, 0, 0, 0, 0, 0⟩, -- ERR_LOC
   ⟨0x40, 1, 4, 0xFF, 0xFF, 0, 0, 0, 0, 0⟩, -- DEEMB_CFG
   ⟨0x44, 1, 4, 0, 0, 0, 0, 0, 0, 0⟩, -- DEEMB_STAT
   ⟨0x48, 1, 4, 0, 0, 0, 0, 0, 0, 0⟩, -- DEEMB_RATE
   ⟨0x4C, 1, 4, 0, 0xFFFFFFFF, 0, 0, 0, 0, 0⟩, -- DEEMB_ERR
   ⟨0x50, 1, 4, 0x1FF, 0x1FF, 0, 0, 0, 0, 0⟩, -- EMB_CFG
   ⟨0x54, 1, 4, 0, 0xFFFF, 0, 0, 0, 0, 0⟩, -- EMB_PCM
   ⟨0x58, 1, 4, 0x10, 0, 0, 0, 0, 0, 0⟩, -- EMB_STAT
   ⟨0x5C, 1, 4, 0, 0xFFFFFFFF, 0, 0, 0, 0, 0⟩, -- EMB_UNDER
   ⟨0x60, 1, 4, 0x9FFF, 0, 0, 0xFFFF, 0, 0, 0⟩, -- ANC_SRC
   ⟨0x64, 8, 4, 0, 0, 0, 0x3FFFF, 0, 0, 0⟩] -- ANC_FILT[i]

/-- Registers of: slack and ageing. -/
def slackAndAgeingRows : List Row :=
  [⟨0, 1, 4, 0, 0, 0, 0, 0, 0, 0⟩, -- ID
   ⟨4, 1, 4, 0x100, 0, 0, 0, 0, 0, 0⟩, -- VERSION
   ⟨8, 1, 4, 0, 0, 0, 0, 0, 0, 0⟩, -- CTRL
   ⟨0xC, 1, 4, 0, 0, 0, 0, 0, 0, 0⟩, -- STAT
   ⟨0x10, 1, 4, 0, 0, 0, 0, 0, 7, 0⟩, -- EV_STICKY
   ⟨0x14, 1, 4, 0, 7, 0, 0, 0, 0, 0⟩, -- EV_ENABLE
   ⟨0x18, 1, 4, 0, 0, 0, 0, 0, 7, 0⟩, -- EV_FORCE
   ⟨0x1C, 1, 4, 0, 0, 0, 0, 0, 0, 0⟩, -- EV_LIVE
   ⟨0x20, 1, 4, 0, 0, 0, 0, 0, 0, 0⟩, -- COMMIT
   ⟨0x24, 1, 4, 0, 0, 0, 0, 0, 0, 0⟩, -- COMMIT_STAT
   ⟨0x28, 1, 4, 0, 0, 0, 0, 0, 0, 0⟩, -- ERR_LOC
   ⟨0x40, 0x10, 4, 0, 0, 0, 0, 0, 0, 0⟩, -- SLK_IN[p]
   ⟨0x80, 0x10, 4, 0, 0, 0, 0, 0, 0, 0⟩, -- SLK_OUT[p]
   ⟨0xC0, 2, 4, 0, 0, 0, 0, 0, 0, 0⟩, -- SLK_FIN[d]
   ⟨0x100, 4, 4, 0, 0, 0, 0, 0, 0, 0⟩, -- AGE_CYC[l]
   ⟨0x110, 1, 4, 0xFFFF, 0, 0, 0, 0, 0, 0⟩] -- AGE_EOL

/-- Registers of: Yumen window. -/
def yumenWindowRows : List Row :=
  [⟨0, 1, 4, 0, 0, 0, 0, 0, 0, 0⟩, -- ID
   ⟨4, 1, 4, 0x100, 0, 0, 0, 0, 0, 0⟩, -- VERSION
   ⟨8, 1, 4, 0, 0, 0, 0, 0, 0, 0⟩, -- CTRL
   ⟨0xC, 1, 4, 0, 0, 0, 0, 0, 0, 0⟩, -- STAT
   ⟨0x10, 1, 4, 0, 0, 0, 0, 0, 0, 0⟩, -- EV_STICKY
   ⟨0x14, 1, 4, 0, 0, 0, 0, 0, 0, 0⟩, -- EV_ENABLE
   ⟨0x18, 1, 4, 0, 0, 0, 0, 0, 0, 0⟩, -- EV_FORCE
   ⟨0x1C, 1, 4, 0, 0, 0, 0, 0, 0, 0⟩, -- EV_LIVE
   ⟨0x20, 1, 4, 0, 0, 0, 0, 0, 0, 0⟩, -- COMMIT
   ⟨0x24, 1, 4, 0, 0, 0, 0, 0, 0, 0⟩, -- COMMIT_STAT
   ⟨0x28, 1, 4, 0, 0, 0, 0, 0, 0, 0⟩, -- ERR_LOC
   ⟨0x40, 1, 4, 0, 0, 0, 0, 0, 0, 0⟩, -- YM_LINK
   ⟨0x44, 1, 4, 0, 0, 0, 0, 0, 0, 0⟩, -- YM_LINK_ERR
   ⟨0x48, 1, 4, 0, 0, 0, 0, 0, 0, 0⟩, -- YM_STAT
   ⟨0x4C, 1, 4, 0, 0, 0, 0, 0, 0, 0⟩, -- YM_ID_LO
   ⟨0x50, 1, 4, 0, 0, 0, 0, 0, 0, 0⟩, -- YM_ID_HI
   ⟨0x54, 1, 4, 0, 0, 0, 0, 0, 0, 0⟩, -- YM_S_SEQ
   ⟨0x58, 1, 4, 0, 0, 0, 0, 0, 0, 0⟩, -- YM_Q_SEQ
   ⟨0x5C, 1, 4, 0, 0, 0, 0, 0, 0, 0⟩, -- YM_AUDIT
   ⟨0x60, 1, 4, 0, 0, 0, 0, 0, 0, 0⟩, -- YM_SEAL
   ⟨0x64, 1, 4, 0, 0, 0, 0, 0, 0, 0⟩, -- YM_CAL_ID
   ⟨0x68, 1, 4, 0, 0, 0, 0, 0, 0, 0⟩, -- YM_RTC_LO
   ⟨0x6C, 1, 4, 0, 0, 0, 0, 0, 0, 0⟩, -- YM_RTC_HI
   ⟨0x70, 1, 4, 0, 0, 0, 0, 0, 0, 0⟩, -- YM_OFFER
   ⟨0x74, 1, 4, 0, 0, 0, 0, 0, 0, 0⟩, -- YM_TEMP
   ⟨0x78, 1, 4, 0, 0, 0, 0, 0, 0, 0⟩, -- YM_HELD
   ⟨0x7C, 1, 4, 0, 0, 0, 0, 0, 0, 0⟩, -- 
   ⟨0x80, 4, 0x20, 0, 0, 0, 0, 0, 0, 0⟩, -- IN_EQ_A[i]
   ⟨0x84, 4, 0x20, 0, 0, 0, 0, 0, 0, 0⟩, -- IN_EQ_B[i]
   ⟨0x88, 4, 0x20, 0, 0, 0, 0, 0, 0, 0⟩, -- IN_PK[i]
   ⟨0x8C, 4, 0x20, 0, 0, 0, 0, 0, 0, 0⟩, -- IN_CZ[i]
   ⟨0x90, 4, 0x20, 0, 0, 0, 0, 0, 0, 0⟩, -- IN_ST[i]
   ⟨0x94, 4, 0x20, 0, 0, 0, 0, 0, 0, 0⟩] -- 

/-- Registers of: Yumen record window. -/
def yumenRecordWindowRows : List Row :=
  [⟨0, 0x40, 4, 0, 0, 0, 0, 0, 0, 0⟩, -- S_RECORD
   ⟨0x100, 0x40, 4, 0, 0, 0, 0, 0, 0, 0⟩] -- Q_RECORD

/-- Registers of: Yumen identity window. -/
def yumenIdentityWindowRows : List Row :=
  [⟨0, 0x10, 4, 0, 0, 0, 0, 0, 0, 0⟩, -- PUBLIC_KEY
   ⟨0x40, 1, 4, 0, 0, 0, 0, 0, 0, 0⟩, -- CERT_LEN
   ⟨0x100, 0x100, 4, 0, 0, 0, 0, 0, 0, 0⟩] -- CERTIFICATE

/-- The pages of Granary (R43). -/
def granaryBlocks : List Blk :=
  [⟨0x000, 1, 1, some 0x0000, identityRows⟩, -- identity
   ⟨0x010, 1, 1, some 0x0001, eventAndInterruptControllerRows⟩, -- event and interrupt controller
   ⟨0x011, 1, 1, none, msiXTableRows⟩, -- MSI-X table
   ⟨0x012, 1, 1, none, msiXPendingBitArrayRows⟩, -- MSI-X pending-bit array
   ⟨0x020, 1, 1, some 0x0002, timingCoreRows⟩, -- timing core
   ⟨0x021, 1, 1, none, timingCandidatesRows⟩, -- timing candidates
   ⟨0x022, 1, 1, none, timingDomainsRows⟩, -- timing domains
   ⟨0x023, 1, 1, none, ptpMappingTableRows⟩, -- PTP mapping table
   ⟨0x040, 1, 1, some 0x0003, floorRows⟩, -- Floor
   ⟨0x041, 1, 1, none, layerRouteTableRows⟩, -- layer route table
   ⟨0x042, 2, 1, none, ipTransmitRouteTableRows⟩, -- IP transmit route table
   ⟨0x044, 1, 1, none, ipTransmitRouteTableRows⟩, -- store route table
   ⟨0x045, 1, 1, none, flLATRows⟩, -- FL_LAT
   ⟨0x046, 1, 1, none, flMARGINRows⟩, -- FL_MARGIN
   ⟨0x047, 1, 1, none, flIPLATRows⟩, -- FL_IPLAT
   ⟨0x080, 1, 1, some 0x0004, siloRows⟩, -- Silo
   ⟨0x081, 1, 1, none, sringCFGLowRows⟩, -- SRING_CFG low
   ⟨0x082, 1, 1, none, sringCFGHighRows⟩, -- SRING_CFG high
   ⟨0x083, 1, 1, none, sringSTATLowRows⟩, -- SRING_STAT low
   ⟨0x084, 1, 1, none, sringSTATHighRows⟩, -- SRING_STAT high
   ⟨0x085, 2, 1, none, storeCFGRows⟩, -- STORE_CFG
   ⟨0x087, 2, 1, none, storeSTATRows⟩, -- STORE_STAT
   ⟨0x0C0, 1, 1, some 0x0007, memoryChannel0Rows⟩, -- memory channel 0
   ⟨0x0C1, 11, 1, some 0x0007, memoryChannels111Rows⟩, -- memory channels 1-11
   ⟨0x0D0, 1, 1, some 0x0009, winnowRows⟩, -- Winnow
   ⟨0x100, 1, 1, some 0x0005, ipPortRows⟩, -- IP port 0
   ⟨0x101, 1, 1, none, ipPort0PTPRows⟩, -- IP port 0 PTP
   ⟨0x102, 1, 1, none, ipPort0MACsecRows⟩, -- IP port 0 MACsec
   ⟨0x103, 1, 1, none, ipPort0OpticsRows⟩, -- IP port 0 optics
   ⟨0x104, 4, 1, none, ipPort0ReceiveContextsRows⟩, -- IP port 0 receive contexts
   ⟨0x108, 4, 1, none, ipPort0TransmitContextsRows⟩, -- IP port 0 transmit contexts
   ⟨0x10E, 1, 1, none, ipPort0HostReceiveQueueRows⟩, -- IP port 0 host receive queue
   ⟨0x10F, 1, 1, none, ipPort0HostTransmitQueueRows⟩, -- IP port 0 host transmit queue
   ⟨0x110, 1, 1, some 0x0005, ipPortRows⟩, -- IP port 1
   ⟨0x111, 1, 1, none, ipPort0PTPRows⟩, -- IP port 1 PTP
   ⟨0x112, 1, 1, none, ipPort0MACsecRows⟩, -- IP port 1 MACsec
   ⟨0x113, 1, 1, none, ipPort0OpticsRows⟩, -- IP port 1 optics
   ⟨0x114, 4, 1, none, ipPort0ReceiveContextsRows⟩, -- IP port 1 receive contexts
   ⟨0x118, 4, 1, none, ipPort0TransmitContextsRows⟩, -- IP port 1 transmit contexts
   ⟨0x11E, 1, 1, none, ipPort0HostReceiveQueueRows⟩, -- IP port 1 host receive queue
   ⟨0x11F, 1, 1, none, ipPort0HostTransmitQueueRows⟩, -- IP port 1 host transmit queue
   ⟨0x120, 1, 1, some 0x0005, ipPortRows⟩, -- IP port 2
   ⟨0x121, 1, 1, none, ipPort0PTPRows⟩, -- IP port 2 PTP
   ⟨0x122, 1, 1, none, ipPort0MACsecRows⟩, -- IP port 2 MACsec
   ⟨0x123, 1, 1, none, ipPort0OpticsRows⟩, -- IP port 2 optics
   ⟨0x124, 4, 1, none, ipPort0ReceiveContextsRows⟩, -- IP port 2 receive contexts
   ⟨0x128, 4, 1, none, ipPort0TransmitContextsRows⟩, -- IP port 2 transmit contexts
   ⟨0x12E, 1, 1, none, ipPort0HostReceiveQueueRows⟩, -- IP port 2 host receive queue
   ⟨0x12F, 1, 1, none, ipPort0HostTransmitQueueRows⟩, -- IP port 2 host transmit queue
   ⟨0x130, 1, 1, some 0x0005, ipPortRows⟩, -- IP port 3
   ⟨0x131, 1, 1, none, ipPort0PTPRows⟩, -- IP port 3 PTP
   ⟨0x132, 1, 1, none, ipPort0MACsecRows⟩, -- IP port 3 MACsec
   ⟨0x133, 1, 1, none, ipPort0OpticsRows⟩, -- IP port 3 optics
   ⟨0x134, 4, 1, none, ipPort0ReceiveContextsRows⟩, -- IP port 3 receive contexts
   ⟨0x138, 4, 1, none, ipPort0TransmitContextsRows⟩, -- IP port 3 transmit contexts
   ⟨0x13E, 1, 1, none, ipPort0HostReceiveQueueRows⟩, -- IP port 3 host receive queue
   ⟨0x13F, 1, 1, none, ipPort0HostTransmitQueueRows⟩, -- IP port 3 host transmit queue
   ⟨0x180, 1, 1, some 0x0006, audioRouterRows⟩, -- audio router
   ⟨0x181, 16, 1, none, routeSRCRows⟩, -- ROUTE_SRC
   ⟨0x191, 16, 1, none, routeGAINRows⟩, -- ROUTE_GAIN
   ⟨0x1A1, 16, 1, none, routeTIMERows⟩, -- ROUTE_TIME
   ⟨0x1B1, 4, 1, none, destCFGRows⟩, -- DEST_CFG
   ⟨0x1B5, 4, 1, none, flIPLATRows⟩, -- DEST_STAT
   ⟨0x1B9, 1, 1, none, afvMAPLowRows⟩, -- AFV_MAP low
   ⟨0x1BA, 1, 1, none, afvMAPHighRows⟩, -- AFV_MAP high
   ⟨0x1C0, 1, 1, some 0x0008, converterEngine0AndPoolRows⟩, -- converter engine 0 and pool
   ⟨0x1C1, 7, 1, some 0x0008, converterEngines17Rows⟩, -- converter engines 1-7
   ⟨0x200, 1, 1, some 0x000B, keyStoreRows⟩, -- key store
   ⟨0x210, 1, 1, some 0x000C, flashControllerRows⟩, -- flash controller
   ⟨0x220, 1, 1, some 0x000A, busMatrixRows⟩, -- bus matrix
   ⟨0x230, 1, 1, some 0x000D, mernakRows⟩, -- Mernak
   ⟨0x231, 1, 1, none, sensorsRows⟩, -- sensors
   ⟨0x232, 1, 1, none, slackAndAgeingGranaryRows⟩, -- slack and ageing (Granary)
   ⟨0x233, 1, 1, none, faultLogAndYumenForwardingRows⟩, -- fault log and Yumen forwarding
   ⟨0x234, 1, 1, none, updateBlockWindowRows⟩, -- update block window
   ⟨0x23F, 1, 1, none, yumenBridgeRows⟩, -- Yumen bridge
   ⟨0x240, 1, 1, some 0x000F, commitSequencerRows⟩, -- commit sequencer
   ⟨0x250, 1, 1, some 0x000E, calibrationSetRows⟩] -- calibration set

/-- The pages of a Sheaf die (R44). -/
def sheafBlocks : List Blk :=
  [⟨0x000, 1, 1, some 0x0300, sheafIdentityRows⟩, -- Sheaf identity
   ⟨0x010, 1, 1, some 0x0306, sheafEventsRows⟩, -- Sheaf events
   ⟨0x100, 16, 1, some 0x0301, inputRows⟩, -- input
   ⟨0x200, 16, 1, some 0x0302, outputRows⟩, -- output
   ⟨0x300, 16, 4, some 0x0303, composerRows⟩, -- composer
   ⟨0x301, 16, 4, none, composerCoefficientsRows⟩, -- composer coefficients
   ⟨0x302, 16, 4, none, composerLUTPortRows⟩, -- composer LUT port
   ⟨0x400, 16, 1, some 0x0304, audioDeEmbedAndEmbedRows⟩, -- audio de-embed and embed
   ⟨0x500, 1, 1, some 0x0305, slackAndAgeingRows⟩] -- slack and ageing

/-- Yumen's read-only window (R45, R496, R497). -/
def yumenBlocks : List Blk :=
  [⟨0x000, 1, 1, some 0x0700, yumenWindowRows⟩, -- Yumen window
   ⟨0x001, 1, 1, none, yumenRecordWindowRows⟩, -- Yumen record window
   ⟨0x002, 1, 1, none, yumenIdentityWindowRows⟩] -- Yumen identity window

/-- Horizontal default coefficients of R230 after R231, two to a word as in R256. Words 0 to 31. -/
def coefH0 : List Nat :=
  [0x00000000, 0x04000000, 0x00000000, 0x00000000, 0x00050FFE, 0x03FF0FF2, 0x0FFB000F, 0x00000002,
   0x000A0FFD, 0x03FE0FE4, 0x0FF6001E, 0x00000003, 0x000F0FFC, 0x03FB0FD7, 0x0FF0002E, 0x00000005,
   0x00130FFA, 0x03F90FCB, 0x0FEA003E, 0x00000007, 0x00170FF9, 0x03F40FBF, 0x0FE5004F, 0x00000009,
   0x001B0FF8, 0x03F00FB4, 0x0FDF0060, 0x0FFF000B, 0x001F0FF7, 0x03EB0FA9, 0x0FD90071, 0x0FFF000D]

/-- Horizontal default coefficients of R230 after R231, two to a word as in R256. Words 32 to 63. -/
def coefH1 : List Nat :=
  [0x00230FF6, 0x03E30F9F, 0x0FD30084, 0x0FFF000F, 0x00260FF5, 0x03DC0F96, 0x0FCD0096, 0x0FFF0011,
   0x002A0FF4, 0x03D40F8D, 0x0FC700A9, 0x0FFE0013, 0x002D0FF3, 0x03CC0F84, 0x0FC100BC, 0x0FFE0015,
   0x00300FF2, 0x03C10F7D, 0x0FBB00D0, 0x0FFE0017, 0x00320FF2, 0x03B70F76, 0x0FB400E4, 0x0FFD001A,
   0x00350FF1, 0x03AC0F6F, 0x0FAE00F8, 0x0FFD001C, 0x00370FF1, 0x03A00F69, 0x0FA8010D, 0x0FFC001E]

/-- Horizontal default coefficients of R230 after R231, two to a word as in R256. Words 64 to 95. -/
def coefH2 : List Nat :=
  [0x00390FF1, 0x03920F64, 0x0FA20122, 0x0FFC0020, 0x003B0FF0, 0x03860F5F, 0x0F9C0137, 0x0FFB0022,
   0x003C0FF0, 0x03770F5B, 0x0F96014C, 0x0FFB0025, 0x003D0FF0, 0x03690F57, 0x0F900162, 0x0FFA0027,
   0x003F0FF0, 0x03590F54, 0x0F8A0177, 0x0FFA0029, 0x00400FF0, 0x03480F52, 0x0F85018D, 0x0FF9002B,
   0x00400FF0, 0x03380F50, 0x0F7F01A3, 0x0FF9002D, 0x00410FF0, 0x03270F4E, 0x0F7A01B9, 0x0FF8002F]

/-- Horizontal default coefficients of R230 after R231, two to a word as in R256. Words 96 to 127. -/
def coefH3 : List Nat :=
  [0x00410FF0, 0x03150F4D, 0x0F7501CF, 0x0FF80031, 0x00410FF0, 0x03030F4D, 0x0F7001E5, 0x0FF70033,
   0x00410FF1, 0x02F00F4D, 0x0F6C01FA, 0x0FF60035, 0x00410FF1, 0x02DE0F4D, 0x0F670210, 0x0FF60036,
   0x00410FF1, 0x02CA0F4E, 0x0F630226, 0x0FF50038, 0x00400FF2, 0x02B50F4F, 0x0F5F023C, 0x0FF5003A,
   0x003F0FF2, 0x02A20F51, 0x0F5C0251, 0x0FF4003B, 0x003E0FF3, 0x028E0F53, 0x0F580266, 0x0FF4003C]

/-- Horizontal default coefficients of R230 after R231, two to a word as in R256. Words 128 to 159. -/
def coefH4 : List Nat :=
  [0x003D0FF3, 0x027B0F56, 0x0F560279, 0x0FF3003D, 0x003C0FF4, 0x02660F58, 0x0F53028E, 0x0FF3003E,
   0x003B0FF4, 0x02510F5C, 0x0F5102A2, 0x0FF2003F, 0x003A0FF5, 0x023C0F5F, 0x0F4F02B5, 0x0FF20040,
   0x00380FF5, 0x02260F63, 0x0F4E02CA, 0x0FF10041, 0x00360FF6, 0x02100F67, 0x0F4D02DE, 0x0FF10041,
   0x00350FF6, 0x01FA0F6C, 0x0F4D02F0, 0x0FF10041, 0x00330FF7, 0x01E50F70, 0x0F4D0303, 0x0FF00041]

/-- Horizontal default coefficients of R230 after R231, two to a word as in R256. Words 160 to 191. -/
def coefH5 : List Nat :=
  [0x00310FF8, 0x01CF0F75, 0x0F4D0315, 0x0FF00041, 0x002F0FF8, 0x01B90F7A, 0x0F4E0327, 0x0FF00041,
   0x002D0FF9, 0x01A30F7F, 0x0F500338, 0x0FF00040, 0x002B0FF9, 0x018D0F85, 0x0F520348, 0x0FF00040,
   0x00290FFA, 0x01770F8A, 0x0F540359, 0x0FF0003F, 0x00270FFA, 0x01620F90, 0x0F570369, 0x0FF0003D,
   0x00250FFB, 0x014C0F96, 0x0F5B0377, 0x0FF0003C, 0x00220FFB, 0x01370F9C, 0x0F5F0386, 0x0FF0003B]

/-- Horizontal default coefficients of R230 after R231, two to a word as in R256. Words 192 to 223. -/
def coefH6 : List Nat :=
  [0x00200FFC, 0x01220FA2, 0x0F640392, 0x0FF10039, 0x001E0FFC, 0x010D0FA8, 0x0F6903A0, 0x0FF10037,
   0x001C0FFD, 0x00F80FAE, 0x0F6F03AC, 0x0FF10035, 0x001A0FFD, 0x00E40FB4, 0x0F7603B7, 0x0FF20032,
   0x00170FFE, 0x00D00FBB, 0x0F7D03C1, 0x0FF20030, 0x00150FFE, 0x00BC0FC1, 0x0F8403CC, 0x0FF3002D,
   0x00130FFE, 0x00A90FC7, 0x0F8D03D4, 0x0FF4002A, 0x00110FFF, 0x00960FCD, 0x0F9603DC, 0x0FF50026]

/-- Horizontal default coefficients of R230 after R231, two to a word as in R256. Words 224 to 255. -/
def coefH7 : List Nat :=
  [0x000F0FFF, 0x00840FD3, 0x0F9F03E3, 0x0FF60023, 0x000D0FFF, 0x00710FD9, 0x0FA903EB, 0x0FF7001F,
   0x000B0FFF, 0x00600FDF, 0x0FB403F0, 0x0FF8001B, 0x00090000, 0x004F0FE5, 0x0FBF03F4, 0x0FF90017,
   0x00070000, 0x003E0FEA, 0x0FCB03F9, 0x0FFA0013, 0x00050000, 0x002E0FF0, 0x0FD703FB, 0x0FFC000F,
   0x00030000, 0x001E0FF6, 0x0FE403FE, 0x0FFD000A, 0x00020000, 0x000F0FFB, 0x0FF203FF, 0x0FFE0005]

/-- Horizontal default coefficients of R230 after R231, two to a word as in R256. -/
def coefH : List Nat :=
  coefH0 ++ coefH1 ++ coefH2 ++ coefH3 ++ coefH4 ++ coefH5 ++ coefH6 ++ coefH7

/-- Vertical default coefficients of R230 after R231, two to a word as in R256. Words 0 to 31. -/
def coefV0 : List Nat :=
  [0x00000000, 0x00000400, 0x00000000, 0x0FF30003, 0x000E03FF, 0x00000FFD, 0x0FE70006, 0x001C03FE,
   0x00000FF9, 0x0FDB0009, 0x002A03FD, 0x00000FF5, 0x0FD0000C, 0x003903FA, 0x00000FF1, 0x0FC5000E,
   0x004903F6, 0x00010FED, 0x0FBB0011, 0x005903F1, 0x00010FE9, 0x0FB20013, 0x006A03EB, 0x00010FE5,
   0x0FA90015, 0x007B03E4, 0x00020FE1, 0x0FA10017, 0x008D03DD, 0x00020FDC, 0x0F990018, 0x009F03D5]

/-- Vertical default coefficients of R230 after R231, two to a word as in R256. Words 32 to 63. -/
def coefV1 : List Nat :=
  [0x00030FD8, 0x0F92001A, 0x00B203CB, 0x00040FD3, 0x0F8C001B, 0x00C503C2, 0x00040FCE, 0x0F86001C,
   0x00D803B8, 0x00050FC9, 0x0F81001D, 0x00EC03AC, 0x00060FC4, 0x0F7C001E, 0x0100039F, 0x00070FC0,
   0x0F78001F, 0x01150391, 0x00080FBB, 0x0F74001F, 0x01290386, 0x00080FB6, 0x0F710020, 0x013E0377,
   0x00090FB1, 0x0F6F0020, 0x01540367, 0x000A0FAC, 0x0F6D0020, 0x01690357, 0x000C0FA7, 0x0F6B0020]

/-- Vertical default coefficients of R230 after R231, two to a word as in R256. Words 64 to 95. -/
def coefV2 : List Nat :=
  [0x017F0347, 0x000D0FA2, 0x0F6A0020, 0x01940337, 0x000E0F9D, 0x0F69001F, 0x01AA0326, 0x000F0F99,
   0x0F69001F, 0x01C00314, 0x00100F94, 0x0F69001F, 0x01D60301, 0x00110F90, 0x0F6A001E, 0x01EC02EF,
   0x00120F8B, 0x0F6B001D, 0x020202DC, 0x00130F87, 0x0F6D001D, 0x021802C6, 0x00150F83, 0x0F6E001C,
   0x022E02B3, 0x00160F7F, 0x0F70001B, 0x0244029E, 0x00170F7C, 0x0F73001A, 0x02590289, 0x00180F79]

/-- Vertical default coefficients of R230 after R231, two to a word as in R256. Words 96 to 127. -/
def coefV3 : List Nat :=
  [0x0F760019, 0x0273026F, 0x00190F76, 0x0F790018, 0x02890259, 0x001A0F73, 0x0F7C0017, 0x029E0244,
   0x001B0F70, 0x0F7F0016, 0x02B3022E, 0x001C0F6E, 0x0F830015, 0x02C60218, 0x001D0F6D, 0x0F870013,
   0x02DC0202, 0x001D0F6B, 0x0F8B0012, 0x02EF01EC, 0x001E0F6A, 0x0F900011, 0x030101D6, 0x001F0F69,
   0x0F940010, 0x031401C0, 0x001F0F69, 0x0F99000F, 0x032601AA, 0x001F0F69, 0x0F9D000E, 0x03370194]

/-- Vertical default coefficients of R230 after R231, two to a word as in R256. Words 128 to 159. -/
def coefV4 : List Nat :=
  [0x00200F6A, 0x0FA2000D, 0x0347017F, 0x00200F6B, 0x0FA7000C, 0x03570169, 0x00200F6D, 0x0FAC000A,
   0x03670154, 0x00200F6F, 0x0FB10009, 0x0377013E, 0x00200F71, 0x0FB60008, 0x03860129, 0x001F0F74,
   0x0FBB0008, 0x03910115, 0x001F0F78, 0x0FC00007, 0x039F0100, 0x001E0F7C, 0x0FC40006, 0x03AC00EC,
   0x001D0F81, 0x0FC90005, 0x03B800D8, 0x001C0F86, 0x0FCE0004, 0x03C200C5, 0x001B0F8C, 0x0FD30004]

/-- Vertical default coefficients of R230 after R231, two to a word as in R256. Words 160 to 191. -/
def coefV5 : List Nat :=
  [0x03CB00B2, 0x001A0F92, 0x0FD80003, 0x03D5009F, 0x00180F99, 0x0FDC0002, 0x03DD008D, 0x00170FA1,
   0x0FE10002, 0x03E4007B, 0x00150FA9, 0x0FE50001, 0x03EB006A, 0x00130FB2, 0x0FE90001, 0x03F10059,
   0x00110FBB, 0x0FED0001, 0x03F60049, 0x000E0FC5, 0x0FF10000, 0x03FA0039, 0x000C0FD0, 0x0FF50000,
   0x03FD002A, 0x00090FDB, 0x0FF90000, 0x03FE001C, 0x00060FE7, 0x0FFD0000, 0x03FF000E, 0x00030FF3]

/-- Vertical default coefficients of R230 after R231, two to a word as in R256. -/
def coefV : List Nat :=
  coefV0 ++ coefV1 ++ coefV2 ++ coefV3 ++ coefV4 ++ coefV5

/-- The row of a block that holds the register at a page offset. -/
def Row.hit (r : Row) (off : Nat) : Bool :=
  r.off ≤ off && (off - r.off) % r.stride == 0 && (off - r.off) / r.stride < r.n

/-- Die slot, page and offset of a BAR0 address (R13). -/
def dieOf (a : Nat) : Nat := a / 0x800000 % 8
def pageOf (a : Nat) : Nat := a / 0x1000 % 0x800
def offOf (a : Nat) : Nat := a % 0x1000

/-- The BAR0 address of an offset in a page of a die (R13). -/
def addrOf (die page off : Nat) : Nat := die * 0x800000 + page * 0x1000 + off

/-- The block a page belongs to, among the blocks of the kind of die that a slot holds (R43, R44, R45). -/
def blkOf (die page : Nat) : Option Blk :=
  (if die = 0 then granaryBlocks else if die = 7 then yumenBlocks else sheafBlocks).find? fun b =>
    b.page ≤ page && (page - b.page) % b.pstride == 0 && (page - b.page) / b.pstride < b.cnt

/-- The row of the register map for an address; none for a register that no table lists. -/
def rowOf (a : Nat) : Option Row :=
  match blkOf (dieOf a) (pageOf a) with
  | none => none
  | some b => b.rows.find? fun r => r.hit (offOf a)

/-- The QL that the PTP mapping table resets to for a clockClass (R122). -/
def ptpResetQl (cls : Nat) : Nat :=
  if cls = 6 then 1 else if cls = 13 then 2 else if cls = 7 then 3 else if cls = 14 then 4 else if cls = 52 then 6
  else if cls = 58 then 7 else if cls = 187 then 8 else if cls = 193 then 9 else if cls = 248 then 12 else 15

/-- One 16-bit entry of the PTP mapping table at reset (R122, R155). -/
def ptpResetEntry (cls : Nat) : Nat := ptpResetQl cls + 0xFE * 16

/-- The kind of candidate `c` (R117, R153). -/
def candKind (c : Nat) : Nat :=
  if c < 4 then 0 else if c < 6 then 1 else if c < 8 then 2 else if c < 12 then 3 else 4

/-- Reset limits LOW and HIGH of rail `r` in mV (R512). -/
def railLimits (r : Nat) : Nat × Nat :=
  if r ≤ 6 then (768, 832) else if r = 7 ∨ r = 8 ∨ r = 10 then (864, 936)
  else if r = 9 then (1152, 1248) else if r = 11 then (1728, 1872) else (3168, 3432)

/-- Reset QoS of bus master `m` (R397). -/
def masterQos (m : Nat) : Nat :=
  if m = 0 ∨ m = 1 then 12 else if m = 2 then 8 else if m = 3 then 4 else if m = 4 then 6 else if m = 5 then 2
  else if m = 6 then 14 else 15

/-- The entry of AFV_MAP for video source code `v` at reset: SDI input g maps to audio base 32g (R318). -/
def afvReset (v : Nat) : Nat := if v < 96 then 32 * v + 0x8000 else 0

/-- Reset values that a table gives per instance: those of R49 (ID), R122, R153, R230, R318, R397 and R512. -/
def specialReset (die page off : Nat) : Option Nat :=
  if off = 0 then
    match blkOf die page with
    | some ⟨p, _, st, some ty, _⟩ => some (ty + ((page - p) / st + (if 0x0C1 ≤ page && page ≤ 0x0CB && die == 0 then 1
        else if die == 0 && 0x1C1 ≤ page && page ≤ 0x1C7 then 1
        else if die == 0 && 0x100 ≤ page && page < 0x140 then (page - 0x100) / 16 else 0)) * 0x10000 + die * 0x1000000)
    | _ => resetRest die page off
  else resetRest die page off
where
  resetRest (die page off : Nat) : Option Nat :=
    if die = 0 then
      if page = 0x021 then
        if off % 64 = 8 then some (15 * 8 + candKind (off / 64) * 0x20000) else none
      else if page = 0x023 then
        if off < 0x200 then some (ptpResetEntry (off / 2) + ptpResetEntry (off / 2 + 1) * 0x10000) else none
      else if page = 0x1B9 then
        if off < 0xC0 then some (afvReset (off / 2) + afvReset (off / 2 + 1) * 0x10000) else none
      else if page = 0x220 then
        if 0x40 ≤ off && off < 0x60 then some (masterQos ((off - 0x40) / 4) + 16 * 16) else none
      else if page = 0x231 then
        if 0x100 ≤ off && off < 0x134 then
          some ((railLimits ((off - 0x100) / 4)).1 + (railLimits ((off - 0x100) / 4)).2 * 0x10000)
        else none
      else none
    else if die = 7 then none
    else if 0x301 ≤ page && page ≤ 0x33D && (page - 0x301) % 4 == 0 then
      if off % 0x800 < 0x400 then coefH[off % 0x400 / 4]?
      else if off % 16 < 12 then coefV[off % 0x400 / 16 * 3 + off % 16 / 4]? else none
    else none

/-- The value of the register at an address after part reset (R17); 0 for a register that no table lists (R46). -/
def resetWord (a : Nat) : Word :=
  BitVec.ofNat 32 (match specialReset (dieOf a) (pageOf a) (offOf a) with
    | some v => v
    | none =>
      match rowOf a with
      | some r => r.reset
      | none => 0)

end Sys2Proof.Machine
end

