-- ==== Sys2Proof/Config.lean ====
section
/-! DEFINITION. What the spec leaves open: functions and values without a body, so that nothing can be proved of what they
are. The published standards that the spec names and does not restate (SHA, HMAC, AES-GCM, ECDSA and ECDH) stand here too,
as do the part's and Yumen's secrets. -/

namespace Sys2Proof.Config

/-- Free values, by the counter of the state that each use advances. -/
opaque freeValue : Nat → BitVec 256

/-- SHA-256 of a byte string. -/
opaque sha256 : List Byte → List Byte
/-- SHA-384 of a byte string. -/
opaque sha384 : List Byte → List Byte
/-- HMAC-SHA-256 of a byte string under a key. -/
opaque hmacSha256 : List Byte → List Byte → List Byte
/-- AES-256-GCM: key, IV, additional data and plaintext to ciphertext and tag. -/
opaque gcmEncrypt : List Byte → List Byte → List Byte → List Byte → List Byte × List Byte
/-- AES-256-GCM: key, IV, additional data, ciphertext and tag to the plaintext; none where the tag fails. -/
opaque gcmDecrypt : List Byte → List Byte → List Byte → List Byte → List Byte → Option (List Byte)
/-- ECDSA P-384 with SHA-384: public key, message and signature. -/
opaque ecdsaVerify : List Byte → List Byte → List Byte → Bool
/-- x-coordinate of a private scalar times a P-384 point. -/
opaque ecdhX : List Byte → List Byte → List Byte
/-- Public point X ‖ Y of a P-384 private scalar. -/
opaque ecPublic : List Byte → List Byte
/-- The reduction (v mod (n − 1)) + 1 with the P-384 order n (R425). -/
opaque p384Scalar : List Byte → List Byte

/-- The device-unique secret S in OTP (R425). -/
opaque otpSecret : List Byte
/-- SHA-384 of the boot ROM (R507). -/
opaque bootRomDigest : List Byte
/-- A byte of the boot ROM (R398). -/
opaque bootRom : Nat → Byte

/-- A byte of the plaintext of an image loaded into SRAM (R505): number of the load and offset. No command carries it. -/
opaque imageByte : Nat → Nat → Byte

/-- Yumen's identity, public key and certificate (R476, R478). -/
opaque ymIdentity : BitVec 64
opaque ymPublicKey : List Byte
opaque ymCertificate : List Byte
/-- Yumen's ECDSA P-256 signature of a byte string (R478). -/
opaque ymSign : List Byte → List Byte

/-- A sample of a converter frame built by motion compensation (R269): the spec does not give the interpolation. -/
opaque mcSample : Nat → Nat
/-- A sample of a field deinterlaced into a picture (R262, R275): the spec does not define it to the bit. -/
opaque deintSample : Nat → Nat
/-- A sample out of a sample-rate converter (R302): the spec gives neither filter nor coefficients. -/
opaque asrcSample : Nat → Int

/-- Entry `i` (of nine) of loop `l` of an ageing item, and of its shipment margin: the spec does not give the item's layout
(R515, R516, R518). -/
opaque ageBaseline : List Byte → Nat → Nat → Nat
opaque ageMargin : List Byte → Nat → Nat

/-- A byte of the tag that the Silo writes to a bin at allocation and release (R187): the spec does not give its contents (DESIGN CHOICE,
log 74). -/
opaque binTag : Nat → Byte
/-- A byte of a surface allocated anew that the host has not written (R193; DESIGN CHOICE, log 74), by number of the allocation and place. -/
opaque undefByte : Nat → Byte
/-- The sample that a reader's blend makes of a sample of the older frame and one of the newer (R203): the spec gives no weights (DESIGN
CHOICE, log 73). -/
opaque frameBlend : Nat → Nat → Nat
/-- Data words of an EDH packet, from the lines sent since the one before and whether the input of the upstream flags had errors (R105):
the spec names RP 165 for them (DESIGN CHOICE, log 72). -/
opaque edhData : List (Nat × List Nat) → Bool → List Byte

/-- A byte of host memory that a command reads when a bus master, and no operand, starts it: number of the read and place. -/
opaque hostByte : Nat → Nat → Byte

/-- TRO_DEFAULT of ST 2110-21 in ns, by FMT and FRATE (R343). -/
opaque troDefault : Nat → Nat → Nat

/-- The four bytes of the ST 352 payload identifier that describes an OUT_CFG word, on link `k` of a group counted from 0 (R101): the spec
names ST 352 for them (DESIGN CHOICE, log 70). -/
opaque pidBytes : Word → Nat → List Byte

end Sys2Proof.Config
end

