-- ==== Sys2Proof/Machine/State.lean ====
section
/-! DEFINITION. The state of the part as plain data: the register file, shadows and commit groups, events and
interrupts, and the state of every block that no register shows. `State.reset` is the part after part reset (R17, R49),
before the start-up sequence of R530 has run. -/

namespace Sys2Proof.Machine

/-- The stops the model has: none. No rule of the spec ends the machine; every fault the spec describes is an event,
a locator or an error response, which is an effect on the state. Nobody raises this constructor; it is safe. -/
inductive Fault where
  /-- Never raised. -/
  | none
deriving DecidableEq, Repr

/-- Reasons a command is refused. -/
inductive Refusal where
  /-- A command without a meaning yet; raised by the dispatch only. Safe: nothing can be proved of it. -/
  | notModelled (mnemonic : String)
deriving DecidableEq, Repr

/-- The format of a stream or stored picture: size, bits per pixel, frame rate (none for a surface or a still), scan,
sampling (0 4:2:2, 1 4:4:4 Y′CbCr, 2 R′G′B′, 3 surface with alpha), depth, format code and lines dropped by DECIM. -/
structure SrcFmt where
  w : Nat
  h : Nat
  bpp : Nat
  frate : Option Nat
  scan : Nat
  kind : Nat
  depth : Nat
  fmt : Nat
deriving DecidableEq, Repr

/-- A commit group between its arm and its completion (R52 to R63), beside what CG_CFG, CG_STAT, CG_CAUSE and CG_FRAME
show of it. -/
structure Grp where
  /-- the staging sets of all members: shadow word and value snapshotted at the cut-off (R55) -/
  staging : List (Nat × Word)
  /-- header addresses of the blocks that are members of the take in progress (R52) -/
  members : List Nat
  /-- dies that have acknowledged the take message, bit n for slot n (R56) -/
  acks : Nat
  /-- consecutive fence deferrals (R63) -/
  defers : Nat
  /-- the frame named by the take message (R56) -/
  frame : Nat
deriving DecidableEq, Repr

/-- The part of the interrupt controller that no register shows (R76, R77). -/
structure Irq where
  /-- events on their way to the controller, oldest first: die slot and global event number (R40) -/
  inFlight : List (Nat × Nat)
  /-- vectors whose HOLDOFF gap is running, bit v (R76) -/
  held : Nat
  /-- vectors with a message delayed by HOLDOFF, bit v (R76) -/
  delayed : Nat
  /-- MSI-X Enable and Function Mask of the PCIe function (R76, R77) -/
  msixEnable : Bool
  funcMask : Bool
deriving DecidableEq, Repr

/-- What leaves the part. -/
inductive OutMsg where
  /-- an MSI-X message: vector, address, data (R76) -/
  | msix (v : Nat) (lo hi data : Word)
  /-- a take message: group, token, frame (R56) -/
  | take (g token frame : Nat)
  /-- a take is cancelled on every die (R56) -/
  | cancel (g : Nat)
  /-- a line of active picture on an SDI output: frame line, active line and samples; its TRS words, line number and CRCs go with
  it (R36) -/
  | sdiLine (g frameLine line : Nat) (samples : List Nat)
  /-- a frame line without active picture, switching lines among them, with its TRS words, line number, CRCs and blanking (R36) -/
  | sdiBlank (g frameLine : Nat)
  /-- an ANC packet embedded by an output: frame line, in VANC, packet, and its words of ten bits from DID to the last user word:
  bit 8 even parity, bit 9 its inverse (R103, R123) -/
  | sdiAnc (g line : Nat) (vanc : Bool) (p : AncPkt) (words : List Nat)
  /-- audio samples embedded by an output in the HANC of a frame line: channel (R298); with its source's label bits on a DATA
  destination, otherwise regenerated ones (R293) -/
  | sdiAudio (g frameLine ch : Nat) (rate96 nonAudio : Bool) (samples : List (Int × Option Nat))
  /-- an audio control packet of a group (R298) -/
  | audCtrl (g group : Nat) (rate96 : Bool)
  /-- an Ethernet frame from its destination MAC address to the byte before the FCS (R329, R343) -/
  | eth (port : Nat) (bytes : List Byte)
  /-- an I²C write to a module: offset and bytes (R325) -/
  | i2c (port offset : Nat) (bytes : List Byte)
  /-- a memory read's answer: stripe, and its bytes unless it is uncorrectable (R380) -/
  | memData (stripe : Nat) (data : Option (List Byte))
  /-- a command of a memory channel (R372) -/
  | dram (c : Nat) (what : Refresh)
  /-- an error response to a host access (R197, R404) -/
  | busError
  /-- a response of the bus matrix: master, ID, code, data (R401) -/
  | busResp (m id resp : Nat) (data : List (BitVec 128))
  /-- a write into the fabric of registers through T0: master, address, word (R403) -/
  | fabric (m addr : Nat) (v : Word)
  /-- a write to host memory: T7 offset and bytes -/
  | pcie (addr : Nat) (bytes : List Byte)
  /-- a write to the external flash, or an erase of a slot (empty) (R509) -/
  | qspi (addr : Nat) (bytes : List Byte)
  /-- a time-offer message (R482) -/
  | offer (bytes : List Byte)
  /-- an answer on METRO_CAL: opcode and payload (R486) -/
  | metro (op : Nat) (payload : List Byte)
  /-- a write-back line for the Floor: output, line and samples (R245) -/
  | writeBack (g line : Nat) (samples : List Nat)
deriving DecidableEq, Repr

/-- A receiver and its input pipe, beside the registers of the input page (R86 to R100, R568). -/
structure Rx where
  /-- measurement of the last frame: total lines, samples per line, frame rate code, interlaced transport -/
  meas : Option (Nat × Nat × Nat × Bool)
  /-- consecutive frames with that measurement, while not locked (R87) -/
  same : Nat
  /-- consecutive frames measured differently from the locked format (R90) -/
  differ : Nat
  /-- this link is in FMT_LOCK (R97: a link's own lock within a bonded group) -/
  link : Bool
  /-- the payload identifier of the last frame -/
  pid : Option Pid
  /-- format word (laid out as IN_FMT, received colour) found by detection -/
  found : Word
  /-- format word of the last lock; none before the first (R91) -/
  lastLock : Option Word
  /-- frames begin to be delivered: a frame has begun since the lock and since the start (R568) -/
  delivering : Bool
  /-- complete frames delivered since lock and since the input last started (R92) -/
  frames : Nat
  /-- ordinary ANC queued in the frame in progress (R100) -/
  anc : List AncPkt
  ancBytes : Nat
  /-- first port of a bonded group: frames in which all four links were locked together (R97) -/
  together : Nat
  /-- first port of a bonded group: the group is locked -/
  group : Bool
  /-- rate class the search tries first (R86) -/
  search : Nat
  /-- the last line the input pipe passed on: active line, missing flag, epoch, samples (R35, R91) -/
  lastLine : Option (Nat × Bool × Nat × List Nat)
  /-- epoch of this link's own locks, and the format word of its last (R97) -/
  epoch : Nat
  linkLast : Option Word
  /-- first port of a bonded group: sub-image line put together last, missing flag, and its two picture lines (R94) -/
  quad : Option (Nat × Bool × List Nat × List Nat)
  /-- EDH error flags were set in the frame in progress, and in the frame before (R105) -/
  edh : Bool
  edhUp : Bool
deriving DecidableEq, Repr

/-- A transmitter, beside the registers of the output page (R67, R106 to R109). -/
structure Tx where
  /-- RUN is set and the output waits for the frame pulse at which it starts (R67) -/
  starting : Bool
  /-- OUT_CFG of the raster that last ran; none before the first run (R106) -/
  ran : Option Word
  /-- the black frame in progress ends with the output going quiet (R107) -/
  finishing : Bool
  /-- a raster, rate class or domain was written since the output last ran or sent black (R107) -/
  dirty : Bool
  /-- STOP_MODE was changed to black while quiet: black begins at the next pulse (R107) -/
  toBlack : Bool
  /-- the line sent last (R36) -/
  lastLine : List Nat
  /-- ordinary ANC of the newest frame of the source that ANC_SRC names (R311, MODE 2) -/
  anc : List AncPkt
  /-- those packets have been inserted once -/
  ancSent : Bool
  /-- the driver monitor finds the output open or shorted (R113) -/
  driverFault : Bool
  /-- EMB_CFG.GROUPS of the frame in progress (R298) -/
  groups : Nat
  /-- lines sent since the last EDH packet: frame line and samples (R105) -/
  sent : List (Nat × List Nat)
deriving DecidableEq, Repr

/-- The timing core beside its registers (R114 to R151). -/
structure Tc where
  /-- the core has started (R145) -/
  started : Bool
  /-- time scale T in ns, and loop updates since the start -/
  now : Nat
  ms : Nat
  /-- the TS_SET setting captured and not yet applied (R116) -/
  tsSet : Option Nat
  /-- candidates that are active, qualified, and serving their wait, bit c -/
  active : Nat
  /-- word clocks of 96 kHz, bit c (R117) -/
  khz96 : Nat
  qualified : Nat
  waiting : Nat
  /-- a selection has been made since reset (R127) -/
  everSel : Bool
  /-- the select hold (R128): 0 not started, 1 running, 2 over -/
  selHold : Nat
  /-- a pull begun from free-run or from holdover past its limit (R143) -/
  specLow : Bool
  /-- FORCED_LOST has been raised for the present loss (R134) -/
  forcedLost : Bool
  /-- held offset S in ps (R130) -/
  held : Int
  /-- loop integrator in 10⁻⁹ ppt, and bandwidth in 1/409,600 Hz (R139, R140) -/
  integ : Int
  bw : Nat
  /-- phase errors of the last ten updates in ps, newest first (R141) -/
  errs : List Int
  /-- one-second values of the present or last tracking spell, newest first: steer in ppt, temperature in 1/16 °C; and the loop
  update of the newest (R135) -/
  hist : List (Int × Int)
  histAt : Nat
  /-- quality level of the candidate selected last (R125) -/
  lastQl : Nat
  /-- T_base in 1/16 °C, the correction in force in ppt, s in 10⁻⁶ ppb, and the sum of |T(i) − T_base| in 1/16 °C (R136, R137) -/
  tBase : Int
  corr : Int
  spread : Nat
  sumTemp : Nat
  /-- the selected temperature source is known to be invalid (R136) -/
  tempBad : Bool
  /-- disagreeing pairs, 16 × lower + higher (R133) -/
  pairs : List Nat
  /-- DCO temperature table in 1/16 ppb, 33 entries (R136) -/
  dcoTable : List Int
deriving DecidableEq, Repr

/-- A timing domain beside its registers (R145 to R151). -/
structure Td where
  /-- the cut-off of the next frame has passed (R54) -/
  cutPassed : Bool
  /-- started, and waiting for its first target instant (R145) -/
  starting : Bool
  /-- a stop is requested (R146) -/
  stopping : Bool
  /-- frame at whose end the pending jump is made, and whether ALIGN_IDLE asked for it (R149, R150) -/
  jumpFrame : Nat
  jumpIdle : Bool
  /-- the jump is made and the new pulse awaited (R150) -/
  jumped : Bool
  /-- misalignment in fs, of which TD_MISALIGN shows the whole ns (R149) -/
  mis : Int
deriving DecidableEq, Repr

/-- A route's state that ROUTE_STAT does not show (R168 to R174, R183, R213). -/
structure RouteX where
  /-- shed by the Floor (R183) and by the Silo (R212) -/
  floorShed : Bool
  siloShed : Bool
  /-- consecutive output frames with margin at or above GUARD_NS while on fallback (R169) -/
  good : Nat
  /-- work due at the next switching line: 0 none, 1 fallback, 2 return, 3 resume, 4 stop of a shed route -/
  due : Nat
  /-- epoch of an IP, store or write-back source that the route accepted (R174) -/
  epoch : Nat
  /-- the source has not delivered since the loss (R172) -/
  lost : Bool
  /-- path chosen at the cut-off of the take or re-check that is under way: as ROUTE_STAT.PATH, 0 for none (R165, R170) -/
  chosen : Nat
  /-- cut-through before its source was frozen (R204) -/
  wasCut : Bool
  /-- the frame shown is a repeat or a drop (R201), and its ledger value came with LATENCY_CHANGE (R309) -/
  slip : Bool
  jump : Bool
deriving DecidableEq, Repr

/-- A line of a stream on its way over Finano (R24, R25, R35): active line, frame count, epoch, missing flag and samples; `arrived`: it
waits at the receiving die for the lines before it. -/
structure FlLine where
  line : Nat
  frame : Nat
  epoch : Nat
  missing : Bool
  words : List Nat
  arrived : Bool
deriving DecidableEq, Repr

/-- The Floor beside its registers. -/
structure Floor where
  /-- per route: key table × 4,096 + entry -/
  routes : List (Nat × RouteX)
  /-- last measured leads of an SDI source against a destination, key destination × 128 + source: ps for field 1 and 2 -/
  phases : List (Nat × (Int × Int))
  /-- entry instants in ns shown by a destination's route, for the ledger (R178), key table × 4,096 + entry -/
  shown : List (Nat × Int)
  /-- lines on their way to Granary, by source code, oldest first (R25) -/
  toG : List (Nat × List FlLine)
  /-- lines on their way to the cut-through layers of a Sheaf, key slot × 4,096 + source code, oldest first -/
  toS : List (Nat × List FlLine)
  /-- next line and frame of each stream in the order the receiving die restores (R25), key slot × 8,192 + direction × 4,096 + tag -/
  order : List (Nat × (Nat × Nat))
  /-- lines a link direction has carried, key slot × 4 + direction × 2 + link (R25) -/
  carried : List (Nat × Nat)
  /-- directions with a failed link whose lines have moved to the surviving link (R30), key slot × 2 + direction -/
  moved : List (Nat × Bool)
  /-- failed links that have passed the test pattern (R537), key slot × 4 + direction × 2 + link -/
  tested : List (Nat × Bool)
  /-- destinations whose ledger is that of the frame in progress, key as R166's measurements: output g, or 128 + context -/
  done : List (Nat × Bool)
deriving DecidableEq, Repr

/-- One frame buffer of a ring, still or surface (R200): its state (0 empty, 1 being written, 2 complete), the order in
which its frame was started, its epoch and entry instant, and the destinations that hold it (R201). -/
structure Buf where
  st : Nat
  seq : Nat
  epoch : Nat
  entry : Int
  readers : List Nat
  /-- the frame's ordinary ANC packets (R311) -/
  anc : List AncPkt
  /-- source and format word of the frame (R177, R207) -/
  src : Nat
  fmt : Nat
  /-- bins of the buffer, in order (R188) -/
  bins : List Nat
  /-- source lines of the copy line in progress of a decimated copy (R194) -/
  decim : List (List Nat)
  /-- given up by a ring whose depth has fallen, and held by a reader (R192) -/
  gone : Bool
deriving DecidableEq, Repr

/-- A ring or store beside its status word. -/
structure Ring where
  bufs : List Buf
  /-- frames started so far -/
  seq : Nat
  /-- STORE_CFG.CAPTURE value being captured, none when no capture waits (R195) -/
  capture : Option Nat
  /-- CAPTURE value of the last capture asked for -/
  asked : Nat
  /-- source epoch whose frames may be written (R174, R207) -/
  accepted : Nat
  /-- format word of the frames written last (R207) -/
  fmt : Nat
  /-- the source delivers (R172) -/
  delivering : Bool
deriving DecidableEq, Repr

/-- A read context: one ring or store for one destination (R159, R201). -/
structure Reader where
  /-- sequence of the frame shown; 0 for none -/
  seq : Nat
  /-- entry instant of the frame shown; of the older one for a blending reader (R203) -/
  entry : Int
  /-- consecutive output frames that repeated (R205) -/
  repeats : Nat
  /-- sequence of the buffer held, and of the older one of a blending reader -/
  buf : Option Nat
  buf2 : Option Nat
  /-- sequences shown in the output frame before: the frame's, and the older one's of a blending reader (R247) -/
  prev : Option Nat
  prev2 : Option Nat
deriving DecidableEq, Repr

/-- An open combining entry: bin, stripe within the bin, and the bytes written so far by offset in the stripe (R198). -/
structure Combine where
  bin : Nat
  stripe : Nat
  bytes : List (Nat × Byte)
deriving DecidableEq, Repr

/-- The Silo beside its registers. -/
structure Silo where
  /-- per ring or store (source code, or 0x600 + store) -/
  rings : List (Nat × Ring)
  /-- read contexts, key destination × 4,096 + source code -/
  readers : List (Nat × Reader)
  /-- bins held, key as `rings`, with the signature of the format they were allocated for -/
  bins : List (Nat × (Nat × List Nat))
  /-- bins on their way to be free: domain, frame pulses still to come, bins (R191) -/
  releasing : List (Nat × Nat × List Nat)
  /-- bins allocated at a cut-off for a take not yet made: group, key as `rings`, signature and bins (R191) -/
  reserved : List (Nat × Nat × (Nat × List Nat))
  /-- open combining entries, oldest first (R198) -/
  combining : List Combine
  /-- bytes charged to each surface in its window (R199) -/
  charge : List (Nat × Nat)
  /-- BAR2 writes held for the next window, oldest first: surface, place in the bins, bytes (R199); behind them, under 512, writes to
  what is no surface, with their BAR2 offset (R197), and under 513 doorbells, with their register (R253) -/
  held : List (Nat × Nat × List Byte)
  /-- layers hidden under R205, key 4g + k -/
  hidden : List (Nat × Bool)
  /-- bins of surfaces allocated anew: number of the allocation, and the stripes that the host has written since; the others hold
  undefined data (R193) -/
  undef : List (Nat × (Nat × List Nat))
  /-- SILO_LIMIT has risen since it last fell: shed routes are tried (R213) -/
  rose : Bool
deriving DecidableEq, Repr

/-- A layer of a composer: the source lines of the frame in progress and of the frame before by source line, lines
damaged, the line from which it is hidden (R247), the frame its source has delivered, and the staging held by a fence
(R250). -/
structure LayerSt where
  lines : List (Nat × List Nat)
  prev : List (Nat × List Nat)
  damaged : List Nat
  hiddenFrom : Option Nat
  heldStaging : List (Nat × Word)
  /-- a complete frame of the source has been delivered since the route was taken (R225) -/
  fed : Bool
  /-- outcome of the fence of the take in progress, once evaluated; the deadline of the frame has passed; the held staging
  is ready (R250) -/
  verdict : Option Bool
  deadline : Bool
  heldReady : Bool
  /-- a take has changed the layer's route, and its take line is still to come: no line is accepted (R176), and the layer's staging is
  applied without its fence (R251) -/
  rerouted : Bool
  /-- cut-through: source frame whose lines the output's frame takes, and that of the output frame before (R176) -/
  cur : Option Nat
  last : Option Nat
  /-- surface and buffer shown in the output frame in progress and in the one before (R247) -/
  surf : Option (Nat × Nat)
  prevSurf : Option (Nat × Nat)
deriving DecidableEq, Repr

/-- A composer beside its registers. -/
structure Comp where
  layers : List LayerSt
  /-- pre-LUT, 3D LUT and post-LUT of banks 0 and 1: entries written, key index × 8 + bank × 4 + table -/
  luts : List (Nat × (Nat × Nat × Nat))
  /-- coefficient phases that use the reset coefficients after a fault (R248), key layer × 128 + vertical × 64 + phase -/
  badCoef : List (Nat × Bool)
  /-- epoch of the write-back and format word of its last frames (R245) -/
  wbEpoch : Nat
  wbFmt : Option Nat
deriving DecidableEq, Repr

/-- A source frame that a converter context holds (R264, R271): its number, entry instant, source epoch, source and format word, whether it
is complete, whether it started to enter after the source last began to deliver (R280), its lines by number, its ordinary ANC packets
(R311) and, for each picture of it that cadence detection has classed, the film frame it belongs to, counted from 1, and how many
pictures that film frame has; 0 for none (R277, R279). -/
structure CvPic where
  id : Nat
  entry : Int
  epoch : Nat
  src : Nat
  fmt : Nat
  done : Bool
  fresh : Bool
  lines : List (Nat × List Nat)
  anc : List AncPkt
  films : List (Nat × Nat)
deriving DecidableEq, Repr

/-- A converter context beside its slot registers (R265 to R280). -/
structure Ctx where
  /-- entries of the routes that share it: table × 4,096 + entry -/
  routes : List Nat
  /-- pulses of its domain until its release takes effect (R266); none while it is kept -/
  release : Option Nat
  /-- consecutive frames that qualify for blend and for motion compensation, as higher methods (R273) -/
  qualBlend : Nat
  qualMc : Nat
  /-- method in force: 0 motion-compensated, 1 blend, 2 repeat -/
  level : Nat
  /-- the last frame that counts for FALLBACK was motion-compensated -/
  usedMc : Bool
  /-- no frame has been built under R269 yet (R271) -/
  warm : Bool
  /-- pictures classed so far for cadence: newest first, true for a repeat (R277) -/
  pattern : List Bool
  /-- consecutive breaks of a locked pattern, and the phase of the locked pattern (R278) -/
  breaks : Nat
  phase : Nat
  /-- the frame in progress is late (R276) -/
  late : Bool
  /-- instant of the picture shown last, in ns, and consecutive frames that repeated it (R280, R205) -/
  shown : Option Int
  hold : Nat
  /-- lines of the frame delivered, and of the picture that a repeat delivers in its place (R275, R283) -/
  out : List (List Nat)
  rep : List (List Nat)
  /-- ordinary ANC that comes with the frame (R311) -/
  anc : List AncPkt
  /-- format of the source at allocation (R268, R569) -/
  fmt : Option SrcFmt
  /-- source frames held, oldest first (R264, R271) -/
  pics : List CvPic
  /-- instants of the pair of pictures that the engine estimated last (R273) -/
  pair : Option (Int × Int)
  /-- film frames told apart so far (R279), and the source frame whose ordinary ANC was delivered last (R311) -/
  film : Nat
  ancOf : Option Nat
deriving DecidableEq, Repr

/-- One route's part in a destination (R294): source code, delay, gain code, polarity, how the source reads (0 its
history, 1 zero, 2 through its converter group), and, for a generator, its GEN_CFG word and first sample (R303). -/
structure Tap where
  src : Nat
  delay : Nat
  gain : Int
  invert : Bool
  mode : Nat
  gen : Nat
  since : Nat
  /-- the route context -/
  ctx : Nat
  /-- the samples read lie in a gap or are poisoned: zero is taken (R297, R314) -/
  gap : Bool
deriving DecidableEq, Repr

/-- A destination's output: the route states that its crossfades run through, oldest first, each with the crossfade's
next sample number (R295). -/
structure DestSt where
  layers : List (Nat × List Tap)
  /-- switched hard (R295, R300) -/
  data : Bool
  /-- a sample has saturated in the frame in progress -/
  clip : Bool
  /-- the last sample -/
  last : Int
deriving DecidableEq, Repr

/-- A route context beside its three words (R306 to R309). -/
structure ACtx where
  applied : Nat
  target : Nat
  cls : Nat
  clamped : Bool
  /-- an applied delay exists (R309, class 3) -/
  held : Bool
  /-- applied delay that moves at the next switch instant -/
  next : Option Nat
  /-- ledger values of the last destination frames, newest first (R309, class 2) -/
  ledger : List Nat
  /-- source in use (R307) -/
  resolved : Nat
  /-- a take has changed the route or the route it follows: at the next switch instant its source is resolved and its target taken
  anew (R307, R310) -/
  due : Bool
  /-- what the route in use connects: source code, destination, flags and followed route; empty for none -/
  key : List Nat
deriving DecidableEq, Repr

/-- A de-embedder (R297): groups found and groups with a control packet in the frame in progress, each group's signalled rate, and
the groups at 96 kHz whose next sample is one of an odd instant. -/
structure Deemb where
  found : Nat
  ctrl : Nat
  rates : List AudRate
  odd : Nat
deriving DecidableEq, Repr

/-- The audio router and the de-embedders, beside their registers. -/
structure Aud where
  /-- samples received and waiting for their system sample, by source code, each with its flag of a gap: of an uncorrectable
  packet, of an unsupported rate or of a late packet (R297, R337) -/
  queue : List (Nat × List (AudSmp × Bool))
  /-- history of each source code, newest first, at most 98,304 samples, with the same flag (R304) -/
  hist : List (Nat × List (AudSmp × Bool))
  dests : List (Nat × DestSt)
  ctxs : List (Nat × ACtx)
  deemb : List (Nat × Deemb)
  /-- system samples since the start, and the sample number of each generator's last GEN_CFG write (R303) -/
  count : Nat
  genAt : List (Nat × Nat)
  /-- samples of destinations waiting to be embedded or packed, by destination code, with the label bits that a DATA destination
  carries on (R300) -/
  ready : List (Nat × List (Int × Option Nat))
  /-- the sample each SDI destination channel sent last, and the late samples whose slots have been sent without them (R298) -/
  sent : List (Nat × (Int × Option Nat))
  skip : List (Nat × Nat)
  /-- ASRC_CFG with which each converter group runs (R302) -/
  asrc : List (Nat × Nat)
  /-- contexts disabled by an uncorrectable table word (R314) -/
  disabled : List Nat
  /-- an unconverted source has slipped since the last take (R302) -/
  slipped : Bool
deriving DecidableEq, Repr

/-- What a packet of a receive context carries: field bit, segments of picture lines (line, byte offset, bytes), ancillary
packets (R334, R338). -/
structure RxPart where
  field : Nat
  segs : List (Nat × Nat × List Byte)
  anc : List AncPkt
deriving DecidableEq, Repr

/-- A receive context beside its registers (R334 to R340). -/
structure IpRx where
  /-- first extended sequence number of the open set; none before the first marker -/
  start : Option Nat
  /-- highest extended sequence number seen -/
  high : Option Nat
  /-- extended sequence numbers of the open set and around it, on leg A and on leg B -/
  gotA : List Nat
  gotB : List Nat
  /-- marker packets seen and not yet passed, ascending -/
  markers : List Nat
  /-- the set completed last, for the losses of each leg: first and last number -/
  prev : Option (Nat × Nat)
  /-- legs lost (R340), bit 0 leg A -/
  lost : Nat
  /-- segments of the lines of the open set that are not yet whole: picture line and segments -/
  rows : List (Nat × List (Nat × List Byte))
  /-- lines of the open set already delivered -/
  whole : List Nat
  /-- packets of sets that follow the open one -/
  held : List (Nat × RxPart)
  /-- field bit of the open set -/
  field : Nat
  /-- TYPE 4: ancillary packets of the frame in progress, by sequence number -/
  anc : List (Nat × List AncPkt)
  /-- arrival in ns of recent packets, by number: on leg A, on leg B -/
  seenA : List (Nat × Nat)
  seenB : List (Nat × Nat)
  /-- differences of arrival in the last second: arrival, microseconds, leg B later -/
  skews : List (Nat × Nat × Bool)
  /-- RTP timestamp seen last, and the entry instant in ns that it stands for (R336) -/
  ts : Option Nat
  entry : Int
  /-- audio: an RTP sample number, and the system sample at which it enters the router (R337) -/
  anchor : Option (Int × Int)
deriving DecidableEq, Repr

/-- A transmit context beside its registers (R342 to R345). -/
structure IpTx where
  /-- next sequence number, 32 bits -/
  seq : Nat
  /-- RTP timestamp of the frame and of its second field, and packets sent of the frame -/
  ts : Nat
  ts2 : Nat
  sent : Nat
  /-- the frame is black (1), none (2) or media (0) -/
  what : Nat
  /-- source frame shown last, for TYPE 4 (R345) -/
  shown : Option Nat
  /-- the route has shown a frame of its source -/
  started : Bool
  /-- cut-through: the newest samples received of each active line of the source (R176) -/
  lines : List (Nat × List Nat)
deriving DecidableEq, Repr

/-- The engine's side of an association (R352 to R355): key, next or highest packet number. -/
structure Assoc where
  slot : Nat
  key : List Byte
  pn : Nat
  exhausted : Bool
deriving DecidableEq, Repr

/-- The PTP instance of a port (R349). -/
structure Ptp where
  /-- Announce messages in force, newest of each sender -/
  masters : List Announce
  /-- sequence number, t1, t2 of the last Sync: t1 none until the Follow_Up of a two-step Sync -/
  sync : Option (Nat × Option Int × Int)
  /-- sequence number and t3 of the last Delay_Req -/
  req : Option (Nat × Int)
  /-- sequence number of the next Delay_Req -/
  reqSeq : Nat
  /-- last Sync minus offset is known: meanPathDelay measured -/
  delay : Option Int
  /-- offset of the last mark in ns, for the timing core -/
  mark : Int
deriving DecidableEq, Repr

/-- The media ports beside their registers. -/
structure Ip where
  rx : List (Nat × IpRx)
  tx : List (Nat × IpTx)
  /-- key port × 64 + channel × 2 + association -/
  assocs : List (Nat × Assoc)
  ptp : List (Nat × Ptp)
  /-- host receive queue of each port: frames and ingress timestamps, oldest first -/
  hqr : List (Nat × List (List Byte × Nat))
  /-- host frame being sent -/
  hqt : List (Nat × List Byte)
  /-- I²C transfers queued on each controller, oldest first: port, OPT_CMD -/
  i2c : List (Nat × List (Nat × Nat))
  /-- entries dead after an uncorrectable table word (R357): port × 4,096 + array × 1,024 + entry of the table -/
  dead : List Nat
deriving DecidableEq, Repr

/-- The memory subsystem and Winnow beside their registers (R368 to R390). -/
structure Mem where
  /-- stored bytes: key (16 × word index + channel) × 16 + byte, byte 8 the check byte; canonical (see Memory.wf) -/
  cells : List Host.Cell
  /-- channels whose bursts every read treats as erased, bit c (R383) -/
  erased : Nat
  /-- poison table: entry and stripe (R381) -/
  poison : List (Nat × Nat)
  /-- corrected and uncorrectable words of the present 1 s window, by channel (R382) -/
  ceWin : List (Nat × Nat)
  ueWin : List (Nat × Nat)
  /-- raw mode is open, bit c (R387) -/
  raw : Nat
  /-- training follows a RESTORE, bit c (R384) -/
  restoring : Nat
  /-- a burst read next on the channel is treated as erased (R390), bit c -/
  badBurst : Nat
  /-- next stripe of the rebuild walk (R384) -/
  rebuildPos : Nat
  /-- the initialisation in progress follows a cold start (R389) -/
  cold : Bool
deriving DecidableEq, Repr

/-- A transaction in the matrix (R401 to R414). -/
structure BusTx where
  req : BusReq
  target : Nat
  /-- 0 stalled at the master port, 1 waiting at the target, 2 granted and not yet applied, 3 applied, 4 failed in a queue
  (R416) -/
  st : Nat
  /-- arbitrations lost, and effective QoS (R408) -/
  losses : Nat
  qos : Nat
  /-- response code and data, once the target has them -/
  resp : Nat
  data : List (BitVec 128)
  /-- the response is absorbed: its ID is in quarantine (R414) -/
  absorb : Bool
deriving DecidableEq, Repr

/-- The control bus matrix beside its registers. -/
structure Bus where
  /-- transactions in order of acceptance -/
  txs : List BusTx
  /-- master that won last at each target (R407) -/
  ptr : List (Nat × Nat)
  /-- broken sequences not yet ended: target × 8 + master (R411) -/
  broken : List Nat
  /-- master ports that accept nothing until their responses are absorbed (R416), bit m -/
  blocked : Nat
  /-- Mernak SRAM contents (R398), zero where not listed -/
  sram : List Host.Cell
  /-- bytes of the image that start-up copied into SRAM from its start, and number of images copied (R505, R507) -/
  image : Nat × Nat
deriving DecidableEq, Repr

/-- A derivation recipe (R426): label and context. -/
structure Recipe where
  label : List Byte
  context : List Byte
deriving DecidableEq, Repr

/-- The key store beside its registers (R420 to R437). Slot values are held masked (R423). -/
structure Ks where
  /-- masked value of each slot, and its mask -/
  masked : List (Nat × BitVec 256)
  masks : List (Nat × BitVec 256)
  recipes : List (Nat × Recipe)
  /-- root copies; empty while cleared (R425, R437) -/
  kSeal : List Byte
  dDev : List Byte
  /-- the entropy source has failed (R423) -/
  rngBad : Bool
  /-- a command that waits for the entropy source -/
  waiting : Option Word
  /-- the tamper record is to be written and every slot record deleted (R437) -/
  tamperDue : Bool
  /-- slots whose record is to be written or deleted (R426) -/
  due : List Nat
  /-- extends that Mernak's T3 port holds behind a host command in progress: digest and FINAL (R436) -/
  queue : List (List Byte × Bool)
  /-- key of the permutation that places slots in SRAM rows (R423) -/
  rowKey : BitVec 256
deriving DecidableEq, Repr

/-- A record in the gather buffer (R444): key, version, flags byte and data. -/
structure GRec where
  key : Nat
  seq : Nat
  flags : Nat
  data : List Byte
deriving DecidableEq, Repr

/-- The flash controller beside its registers (R441 to R466). -/
structure Nv where
  /-- array contents, 0xFF where not listed -/
  flash : List Host.Cell
  /-- owner and records of the open gather buffer -/
  gather : Option (Nat × List GRec)
  /-- masters whose next command returns ABORTED, or FLASH_FAULT: master (8 + master for a raw command) and code (R449, R466) -/
  notice : List (Nat × Nat)
  /-- open record-area sector and append pointer -/
  ptr : Option Nat
  /-- page buffer, 256 bytes, and its owner (R453) -/
  buf : List Byte
  owner : Option Nat
  /-- sectors queued for erase, oldest first (R458, R462) -/
  eraseQ : List Nat
  /-- active counter sector; none before step 1 of R462 -/
  active : Option Nat
  /-- weak items whose repair waits while NV_INHIBIT holds (R461, R462) -/
  weakQ : List Weak
deriving DecidableEq, Repr

/-- Calibration of one input (R486): EN, RANGE, SENS. -/
structure YmCal where
  en : Bool
  range : Nat
  sens : Nat
deriving DecidableEq, Repr

/-- An input's block of the last S-record, its rolling window (mean squares of the last records, newest first, none for a
second that is not valid), and what it adds to the quarter in progress (R473, R477). -/
structure YmIn where
  block : List Byte
  window : List (Option Nat)
  /-- sums of the mean squares over the valid covered seconds, and their number -/
  sumA : Nat
  sumC : Nat
  sumZ : Nat
  valid : Nat
  /-- highest LAFmax, LASmax, LCpeak and LZpeak of the covered seconds -/
  highs : List Nat
  /-- OR of STATUS -/
  status : Nat
deriving DecidableEq, Repr

/-- Yumen (R471 to R500). Nothing of Granary writes here but the offer (R482). -/
structure Ym where
  powered : Bool
  measuring : Bool
  /-- the next record is the first since power-up -/
  first : Bool
  rtc : Nat
  rtcValid : Bool
  /-- RTC value in flash (R489) -/
  rtcFlash : Nat
  cals : List YmCal
  qofs : Nat
  /-- calibration block and RTC value that take effect at the next second boundary (R484, R487) -/
  nextCals : Option (List YmCal × Nat)
  nextRtc : Option Nat
  audit : Nat
  seals : Nat
  sealOpen : Bool
  /-- the seal was open in the period of the record in progress -/
  sealSeen : Bool
  /-- CAL_CHANGED and RTC_SET of the record in progress -/
  calChanged : Bool
  rtcSet : Bool
  sSeq : Nat
  qSeq : Nat
  ins : List YmIn
  /-- last valid offer of the second in progress: seconds, offset in µs, state -/
  offer : Option (Nat × Int × Nat)
  /-- quarter in progress: first RTC value, first S_SEQ, flags, last offer, images of its S-records -/
  qStart : Nat
  qFirst : Nat
  qFlags : Nat
  qEvents : Nat
  qOffer : Option (Nat × Int × Nat)
  qImages : List (List Byte)
  /-- records held, newest first (R489) -/
  sRing : List (Nat × List Byte)
  qRing : List (Nat × List Byte)
  /-- events raised in the second in progress, and since the last status frame; live bits -/
  events : Nat
  evStatus : Nat
  live : Nat
  signOk : Bool
  temp : Nat
  /-- locator of the last fault (R500) -/
  locator : Word
  /-- record frames on the link, oldest first: type and record (R491) -/
  link : List (Nat × List Byte)
  /-- position of the carousel (R492) -/
  carousel : Nat
deriving DecidableEq, Repr

/-- A die's ageing record (R515, R516). -/
structure Ageing where
  /-- largest drift of the last measurement in ppm -/
  drift : Int
  /-- operating points of the last hour, newest first: mV, 1/16 °C -/
  points : List (Nat × Int)
  /-- Σ D √t and Σ t, the first in 10⁻⁶, and daily samples -/
  sumD : Int
  sumT : Nat
  days : Nat
deriving DecidableEq, Repr

/-- Mernak, the DMA and update engines, health and the calibration set, beside their registers (R502 to R519). -/
structure Mg where
  /-- watchdog time left in ms after the last kick (R502) -/
  wdt : Nat
  /-- the update in progress: header block, key slot, slot written -/
  updHeader : List Byte
  updKey : Option Nat
  updSlot : Nat
  /-- the update in progress takes its blocks through the window (R509) -/
  updWin : Bool
  /-- slot whose boot record waits while NV_INHIBIT holds (R463, R509) -/
  selWait : Option Nat
  /-- ageing of Granary (0) and Sheaf 1–6 -/
  ageing : List (Nat × Ageing)
  /-- next fault-log entry to program (0–16,383), whether the log runs, and entries that wait (R517) -/
  logNext : Nat
  logOn : Bool
  logWait : List (List Byte)
  /-- calibration items as loaded (R518) -/
  cal : List (Nat × List Byte)
  /-- a calibration write window is open (R519) -/
  calOpen : Bool
  /-- slack monitors that have ended a window, by the address of their register (R32) -/
  slack : List (Nat × Bool)
  /-- the record log ring of the Yumen bridge holds unconsumed records in every slot (R493) -/
  logFull : Bool
  /-- Sheaf on which rail 7 was read last (R512) -/
  sdiLow : Nat
deriving DecidableEq, Repr

/-- Start and bring-up (R527 to R535). -/
structure Pwr where
  /-- PORST_N low or the start-up sequence not yet run -/
  inReset : Bool
  /-- the next start is cold (R527) -/
  coldNext : Bool
  /-- Sheaf dies that are up, bit n for slot n (R532) -/
  up : Nat
  /-- step 6 of R530 has passed (R531) -/
  sheafsOut : Bool
  pcie : Bool
deriving DecidableEq, Repr

/-- The state of the part. -/
structure State where
  /-- registers that differ from their reset value, by BAR0 address: for a shadowed field the shadow (R15) -/
  regs : List (Nat × Word)
  /-- values in effect of shadowed registers, where they differ from the reset value (R15) -/
  eff : List (Nat × Word)
  /-- shadow words not yet taken, with the group they are tagged with (R52) -/
  tags : List (Nat × Nat)
  /-- commit groups beside their registers (R52 to R63) -/
  grps : List (Nat × Grp)
  irq : Irq
  sdiRx : List (Nat × Rx)
  sdiTx : List (Nat × Tx)
  tc : Tc
  tds : List (Nat × Td)
  floor : Floor
  silo : Silo
  comps : List (Nat × Comp)
  /-- converter contexts, key 2 × engine + slot -/
  conv : List (Nat × Ctx)
  aud : Aud
  ip : Ip
  mem : Mem
  bus : Bus
  ks : Ks
  nv : Nv
  ym : Ym
  mg : Mg
  pwr : Pwr
  /-- value of the last host read -/
  readData : Word
  /-- what has left the part, oldest first -/
  out : List OutMsg
  /-- index of the next free value (the model's own, see Config) -/
  freeCtr : Nat
  /-- commands that wait, first in, first out -/
  pending : List Instr
deriving DecidableEq, Repr

/-- An input of Yumen at power-up. -/
def YmIn.empty : YmIn := ⟨List.replicate 24 0, [], 0, 0, 0, 0, [0, 0, 0, 0], 0⟩

/-- The calibration of an input before any SET_INPUT. -/
def YmCal.empty : YmCal := ⟨false, 0, 0⟩

/-- The unpowered Yumen of a part that has never run. -/
def Ym.reset : Ym :=
  ⟨false, false, true, 0, false, 0, List.replicate 4 YmCal.empty, 37, none, none, 0, 0, false, false, false, false, 0, 0,
    List.replicate 4 YmIn.empty, none, 0, 0, 0, 0, none, [], [], [], 0, 0, 0, true, 0, 0, [], 0⟩

/-- The timing core after part reset (R116, R140). -/
def Tc.reset : Tc :=
  ⟨false, 0, 0, none, 0, 0, 0, 0, false, 0, false, false, 0, 0, 0, [], [], 0, 15, 400, 0, 0, 0, false, [], List.replicate 33 0⟩

/-- A domain after part reset: running, its first pulse awaited (R145). -/
def Td.reset : Td := ⟨false, true, false, 0, false, false, 0⟩

/-- The part after part reset, before the start-up sequence of R530. The registers listed are those whose value after
reset the register tables do not give: the fused identity words (R47) the map of the populated dies, and
the Finano links of a full part (R185). -/
def State.reset : State where
  regs := [(0x40, 0x18096), (0x44, 0xFF), (0x40080, 0xFFFFFF)]
  eff := []
  tags := []
  grps := []
  irq := ⟨[], 0, 0, false, false⟩
  sdiRx := []
  sdiTx := []
  tc := Tc.reset
  tds := []
  floor := ⟨[], [], [], [], [], [], [], [], [], []⟩
  silo := ⟨[], [], [], [], [], [], [], [], [], [], false⟩
  comps := []
  conv := []
  aud := ⟨[], [], [], [], [], 0, [], [], [], [], [], [], false⟩
  ip := ⟨[], [], [], [], [], [], [], []⟩
  mem := ⟨[], 0, [], [], [], 0, 0, 0, 0, true⟩
  bus := ⟨[], [], [], 0, [], (0, 0)⟩
  ks := ⟨[], [], [], [], [], false, none, false, [], [], 0⟩
  nv := ⟨[], none, [], none, List.replicate 256 0xFF, none, [], none, []⟩
  ym := Ym.reset
  mg := ⟨1000, [], none, 0, false, none, [], 0, false, [], [], false, [], false, 0⟩
  pwr := ⟨true, true, 0, false, false⟩
  readData := 0
  out := []
  freeCtr := 0
  pending := []


end Sys2Proof.Machine
end

