-- ==== Sys2Proof/Machine/Ops.lean ====
section
/-! DEFINITION. The named operations over the register file, the shadows and what leaves the part. Every register is
read and written here and nowhere else. -/

namespace Sys2Proof.Machine

/-- The register at a BAR0 address: for an RWS field the shadow, otherwise the value in effect (R15). -/
def State.rd (s : State) (a : Nat) : Word := tget (resetWord a) s.regs a

/-- Set the register at a BAR0 address. -/
def State.wr (s : State) (a : Nat) (v : Word) : State := { s with regs := tset (resetWord a) s.regs a v }

/-- The value in effect of a shadowed register (R15). -/
def State.effRd (s : State) (a : Nat) : Word := tget (resetWord a) s.eff a

/-- Set the value in effect of a shadowed register. -/
def State.effWr (s : State) (a : Nat) (v : Word) : State := { s with eff := tset (resetWord a) s.eff a v }

/-- A field of the register file; `base` is the address of the block, page or entry. -/
def State.get (s : State) (base : Nat) (f : Fld) : Nat := fldGet (s.rd (base + f.off)) f.lo f.width

/-- A field set to the low bits of a value. -/
def State.put (s : State) (base : Nat) (f : Fld) (v : Nat) : State :=
  s.wr (base + f.off) (fldSet (s.rd (base + f.off)) f.lo f.width v)

/-- A shadowed field's value in effect. -/
def State.effGet (s : State) (base : Nat) (f : Fld) : Nat := fldGet (s.effRd (base + f.off)) f.lo f.width

/-- A field read as a Bool. -/
def State.is (s : State) (base : Nat) (f : Fld) : Bool := s.get base f != 0

/-- A shadowed field's value in effect read as a Bool. -/
def State.effIs (s : State) (base : Nat) (f : Fld) : Bool := s.effGet base f != 0

/-- A saturating count of `n` more. -/
def State.bump (s : State) (base : Nat) (f : Fld) (n : Nat := 1) : State :=
  s.put base f (min (2 ^ f.width - 1) (s.get base f + n))

/-- A list of fields of one base set in order. -/
def State.puts (s : State) (base : Nat) : List (Fld × Nat) → State
  | [] => s
  | (f, v) :: t => (s.put base f v).puts base t

/-- What leaves the part, recorded in order. -/
def State.emit (s : State) (m : OutMsg) : State := { s with out := s.out ++ [m] }

/-- The value a host read returned. -/
def State.answer (s : State) (v : Word) : State := { s with readData := v }

/-- The next free value's index (a value the spec leaves open is an opaque constant of Config at this index). -/
def State.tick (s : State) : State := { s with freeCtr := s.freeCtr + 1 }

/-- Fold a state operation over a list of numbers. -/
def State.forAll (s : State) (l : List Nat) (f : Nat → State → State) : State := l.foldl (fun t i => f i t) s

/-- A state operation taken when a condition holds. -/
def State.whenB (s : State) (b : Bool) (f : State → State) : State := if b then f s else s

/-- The die in a slot is populated (R3, R5). -/
def State.populated (s : State) (die : Nat) : Bool := bitN (s.get 0 F.DIE_PRESENT_MAP) die

/-- The die in a slot answers: it is populated and, for a Sheaf, up; a Sheaf that is not up acts as an absent die
(R532). -/
def State.present (s : State) (die : Nat) : Bool :=
  s.populated die && (die == 0 || die == 7 || bitN s.pwr.up die)

/-! Addresses of the blocks (R43, R44, R8). -/

/-- Page address on Granary. -/
abbrev gPage (page : Nat) : Nat := page * 0x1000

/-- Page address on the Sheaf that carries port g, with the page's own stride per port (R8). -/
def portPage (g first stride : Nat) : Nat := (g / 16 + 1) * 0x800000 + (first + g % 16 * stride) * 0x1000

/-- The page of input g. -/
abbrev inB (g : Nat) : Nat := portPage g 0x100 1
/-- The page of output g. -/
abbrev outB (g : Nat) : Nat := portPage g 0x200 1
/-- The first page of output g's composer. -/
abbrev compB (g : Nat) : Nat := portPage g 0x300 4
/-- The audio page of port g. -/
abbrev audB (g : Nat) : Nat := portPage g 0x400 1
/-- Layer k of output g's composer (R255). -/
abbrev layB (g k : Nat) : Nat := compB g + 0x100 + 64 * k
/-- A page of the Sheaf in slot s. -/
abbrev shB (slot page : Nat) : Nat := slot * 0x800000 + page * 0x1000

abbrev evcB : Nat := gPage 0x010
abbrev tcB : Nat := gPage 0x020
/-- Candidate c (R153). -/
abbrev candB (c : Nat) : Nat := gPage 0x021 + 64 * c
/-- Domain d (R154). -/
abbrev tdB (d : Nat) : Nat := gPage 0x022 + 64 * d
abbrev flB : Nat := gPage 0x040
abbrev siloB : Nat := gPage 0x080
/-- Memory channel c (R391). -/
abbrev mcB (c : Nat) : Nat := gPage (0x0C0 + c)
abbrev wnB : Nat := gPage 0x0D0
/-- Page k of IP port n (R358). -/
abbrev ipB (n k : Nat) : Nat := gPage (0x100 + 16 * n + k)
abbrev arB : Nat := gPage 0x180
/-- Converter engine e (R284). -/
abbrev cvB (e : Nat) : Nat := gPage (0x1C0 + e)
abbrev ksB : Nat := gPage 0x200
abbrev nvB : Nat := gPage 0x210
abbrev bmB : Nat := gPage 0x220
abbrev mgB : Nat := gPage 0x230
abbrev brB : Nat := gPage 0x23F
abbrev seqB : Nat := gPage 0x240
abbrev calB : Nat := gPage 0x250
abbrev ymB : Nat := 7 * 0x800000
/-- Group n's registers at 0x100 + 16n (R65): added to the offsets of group 0. -/
abbrev cgB (n : Nat) : Nat := seqB + 16 * n

/-- The first page of the block an address belongs to (R43, R44). -/
def blockBase (a : Nat) : Nat :=
  let d := dieOf a
  let p := pageOf a
  let q :=
    if d = 0 then
      if 0x010 ≤ p ∧ p < 0x020 then 0x010
      else if 0x020 ≤ p ∧ p < 0x040 then 0x020
      else if 0x040 ≤ p ∧ p < 0x080 then 0x040
      else if 0x080 ≤ p ∧ p < 0x0C0 then 0x080
      else if 0x100 ≤ p ∧ p < 0x140 then p - p % 16
      else if 0x180 ≤ p ∧ p < 0x1C0 then 0x180
      else if 0x230 ≤ p ∧ p < 0x240 then 0x230
      else p
    else if d = 7 then (if p < 0x010 then 0 else p)
    else if 0x300 ≤ p ∧ p < 0x340 then p - p % 4
    else p
  addrOf d q 0

/-- The port number g that a page of a Sheaf belongs to, with the page's first page number and stride (R8). -/
def portOf (a first stride : Nat) : Nat := (dieOf a - 1) * 16 + (pageOf a - first) / stride

/-- A locator word (R10, R11). -/
def locator (die slice block array index : Nat) : Word :=
  BitVec.ofNat 32 (die % 8 * 2 ^ 29 + slice % 64 * 2 ^ 23 + block % 256 * 2 ^ 15 + array % 64 * 2 ^ 9 + index % 512)

/-- The slice of a block (R12); 0x3F where it belongs to none (R11). Yumen builds its own locators (R500). -/
def sliceOf (base : Nat) : Nat :=
  let d := dieOf base
  let p := pageOf base
  if d = 0 then
    if 0x0C0 ≤ p ∧ p ≤ 0x0CB then p - 0x0C0
    else if 0x100 ≤ p ∧ p < 0x140 then 12 + (p - 0x100) / 16
    else if 0x1C0 ≤ p ∧ p < 0x1C8 then 16 + (p - 0x1C0)
    else 0x3F
  else if d = 7 then 0x3F
  else if 0x100 ≤ p ∧ p < 0x110 then p - 0x100
  else if 0x200 ≤ p ∧ p < 0x210 then 16 + (p - 0x200)
  else if 0x300 ≤ p ∧ p < 0x340 then 16 + (p - 0x300) / 4
  else if 0x400 ≤ p ∧ p < 0x410 then 16 + (p - 0x400)
  else 0x3F

/-- Report a fault of an array word of a block: ERR_LOC and STAT.FAULT (R10, R49). -/
def State.setFault (s : State) (base array index : Nat) : State :=
  (s.wr (base + 0x28) (locator (dieOf base) (sliceOf base) (pageOf base / 8) array index)).put base F.STAT_FAULT 1

/-- The block whose STOPPED and BUSY a block's STAT shows: the composer and audio pages show the state of their output, the
memory channels that of channel 0, every other block its own (R254, R319, R391, R566). -/
def statBase (base : Nat) : Nat :=
  let p := pageOf base
  if dieOf base = 0 then (if 0x0C0 ≤ p ∧ p ≤ 0x0CB then mcB 0 else base)
  else if 0x300 ≤ p ∧ p < 0x340 then outB (portOf base 0x300 4)
  else if 0x400 ≤ p ∧ p < 0x410 then outB (portOf base 0x400 1)
  else base

/-- STAT.STOPPED as a block reads it. -/
def State.stopped (s : State) (base : Nat) : Bool := s.is (statBase base) F.STAT_STOPPED

/-- The word that a read of a register finds: STAT with the STOPPED and BUSY that the block shows, any other as it is held. -/
def State.shown (s : State) (a : Nat) : Word :=
  let b := blockBase a
  if a = b + 0xC then (s.rd a &&& ~~~3#32) ||| (s.rd (statBase b + 0xC) &&& 3#32) else s.rd a

/-! Shadows, tags and staging sets (R52, R55). -/

/-- The group an un-taken shadow word is tagged with; 64 for none. -/
def State.tagOf (s : State) (a : Nat) : Nat := tget 64 s.tags a

/-- Set or clear (64) the tag of a shadow word. -/
def State.setTag (s : State) (a n : Nat) : State := { s with tags := tset 64 s.tags a n }

/-- The group state at reset. -/
def Grp.idle : Grp := ⟨[], [], 0, 0, 0⟩

/-- The commit group n beside its registers. -/
def State.grp (s : State) (n : Nat) : Grp := tget Grp.idle s.grps n

/-- Set commit group n. -/
def State.setGrp (s : State) (n : Nat) (g : Grp) : State := { s with grps := tset Grp.idle s.grps n g }

/-- Shadow words tagged with group n, with their values: what the cut-off snapshots (R55). -/
def State.tagged (s : State) (n : Nat) : List (Nat × Word) :=
  (s.tags.filter fun p => p.2 == n).map fun p => (p.1, s.rd p.1)

/-- Remove repetitions, keeping first occurrences. -/
def dedupN : List Nat → List Nat
  | [] => []
  | a :: t => a :: (dedupN t).filter (· != a)

/-- The blocks with a shadow write tagged n: the members of group n (R52). -/
def State.membersOf (s : State) (n : Nat) : List Nat :=
  dedupN ((s.tags.filter fun p => p.2 == n).map fun p => blockBase p.1)

/-- Put a staging set into effect: each word's value in effect becomes the staged one. -/
def State.applyStaging (s : State) : List (Nat × Word) → State
  | [] => s
  | (a, v) :: t => (s.effWr a v).applyStaging t

/-- Report a refused direct write: COMMIT_STAT.RESULT with SRC = 1; TOKEN and PENDING are unchanged (R49). -/
def State.refuseDirect (s : State) (base code : Nat) : State :=
  (s.put base F.COMMIT_STAT_RESULT code).put base F.COMMIT_STAT_SRC 1

/-- The result codes of R61. -/
abbrev rcOk : Nat := 0x00
abbrev rcBandwidth : Nat := 0x01
abbrev rcLinebuf : Nat := 0x02
abbrev rcFormat : Nat := 0x03
abbrev rcNoConverter : Nat := 0x04
abbrev rcDomain : Nat := 0x05
abbrev rcFence : Nat := 0x06
abbrev rcStructural : Nat := 0x07
abbrev rcKey : Nat := 0x08
abbrev rcTableFull : Nat := 0x09
abbrev rcAbsent : Nat := 0x0A
abbrev rcBusy : Nat := 0x0B

end Sys2Proof.Machine
end

