-- ==== Sys2Proof/Machine/Flags.lean ====
section
/-! DEFINITION. Event flags: raising an event, its way to the controller, the global state, the vectors, the IRQ_N pins
and MSI-X messages (R70 to R79). -/

namespace Sys2Proof.Machine

/-- The global event number of bit `k` of a block's EV_STICKY (R70, R72); none for a bit that is no event. -/
def gev (base k : Nat) : Option Nat :=
  let d := dieOf base
  let p := pageOf base
  if d = 0 then
    if p = 0x010 then some k
    else if p = 0x020 then some (16 + k)
    else if p = 0x040 then some (48 + k)
    else if p = 0x080 then some (80 + k)
    else if 0x0C0 ≤ p ∧ p ≤ 0x0CB then some (112 + 2 * (p - 0x0C0) + k)
    else if p = 0x0D0 then some (136 + k)
    else if 0x100 ≤ p ∧ p < 0x140 then some (144 + 8 * ((p - 0x100) / 16) + k)
    else if p = 0x180 then some (176 + k)
    else if 0x1C0 ≤ p ∧ p < 0x1C8 then some (192 + (p - 0x1C0))
    else if p = 0x200 then some (200 + k)
    else if p = 0x210 then some (208 + k)
    else if p = 0x220 then some (216 + k)
    else if p = 0x230 then some (224 + k)
    else if p = 0x240 then some (248 + k)
    else none
  else if d = 7 then some (496 + k)
  else
    let b := 256 + 40 * (d - 1)
    if 0x100 ≤ p ∧ p < 0x110 then some (b + (p - 0x100))
    else if 0x200 ≤ p ∧ p < 0x210 then some (b + 16 + (p - 0x200))
    else if 0x300 ≤ p ∧ p < 0x340 then some (b + 16 + (p - 0x300) / 4)
    else if 0x400 ≤ p ∧ p < 0x410 then some (b + (if k < 8 then 0 else 16) + (p - 0x400))
    else if p = 0x500 ∨ p = 0x010 then some (b + 32 + k)
    else none

/-- Sticky and enabled bits of a block's events under a mask (R71). -/
def State.evOn (s : State) (base mask : Nat) : Bool :=
  (s.rd (base + 0x10) &&& s.rd (base + 0x14) &&& BitVec.ofNat 32 mask) != 0

/-- An event is globally active: a Granary event when its sticky and enable bits are both 1 (R71), a Sheaf event when
any bit it summarises is (R72), a Yumen event under YUMEN_STICKY and YUMEN_ENABLE (R73). -/
def State.evActive (s : State) (ev : Nat) : Bool :=
  if ev < 16 then s.evOn evcB (2 ^ ev)
  else if ev < 48 then s.evOn tcB (2 ^ (ev - 16))
  else if ev < 80 then s.evOn flB (2 ^ (ev - 48))
  else if ev < 112 then s.evOn siloB (2 ^ (ev - 80))
  else if ev < 136 then s.evOn (mcB ((ev - 112) / 2)) (2 ^ (ev % 2))
  else if ev < 144 then s.evOn wnB (2 ^ (ev - 136))
  else if ev < 176 then s.evOn (ipB ((ev - 144) / 8) 0) (2 ^ (ev % 8))
  else if ev < 192 then s.evOn arB (2 ^ (ev - 176))
  else if ev < 200 then s.evOn (cvB (ev - 192)) 1
  else if ev < 208 then s.evOn ksB (2 ^ (ev - 200))
  else if ev < 216 then s.evOn nvB (2 ^ (ev - 208))
  else if ev < 224 then s.evOn bmB (2 ^ (ev - 216))
  else if ev < 248 then s.evOn mgB (2 ^ (ev - 224))
  else if ev < 256 then s.evOn seqB (2 ^ (ev - 248))
  else if ev < 496 then
    let d := (ev - 256) / 40 + 1
    let k := (ev - 256) % 40
    if k < 16 then s.evOn (shB d (0x100 + k)) 0xFFFFFFFF || s.evOn (shB d (0x400 + k)) 0xFF
    else if k < 32 then
      s.evOn (shB d (0x200 + (k - 16))) 0xFFFFFFFF || s.evOn (shB d (0x300 + 4 * (k - 16))) 0xFFFFFFFF
        || s.evOn (shB d (0x400 + (k - 16))) 0xFF00
    else s.evOn (shB d 0x500) (2 ^ (k - 32)) || s.evOn (shB d 0x010) (2 ^ (k - 32))
  else (s.rd (evcB + 0x390) &&& s.rd (evcB + 0x394) &&& BitVec.ofNat 32 (2 ^ (ev - 496))) != 0

/-- The die an event belongs to (R70). -/
def evDie (ev : Nat) : Nat := if ev < 256 then 0 else if ev < 496 then (ev - 256) / 40 + 1 else 7

/-- Set or clear one bit of EVG_STATE. -/
def State.setEvg (s : State) (ev : Nat) (b : Bool) : State :=
  s.put (evcB + 4 * (ev / 32)) ⟨0x40, ev % 32, 1⟩ (b2n b)

/-- EVG_MAP's vector and enable of an event (R74). -/
def State.evMap (s : State) (ev : Nat) : Nat × Bool :=
  let b := fldGet (s.rd (evcB + 0x80 + 4 * (ev / 4))) (8 * (ev % 4)) 8
  (b % 64, bitN b 7)

/-- The vectors with at least one mapped, enabled and globally active event, as a mask (R75). -/
def State.pendMask (s : State) : Nat :=
  (List.range 16).foldl (fun m i =>
    let w := (s.rd (evcB + 0x40 + 4 * i)).toNat
    if w = 0 then m else
      (List.range 32).foldl (fun m j =>
        if w.testBit j then
          let e := s.evMap (32 * i + j)
          if e.2 then m ||| 2 ^ e.1 else m
        else m) m) 0

/-- VEC_PEND_LO and VEC_PEND_HI as one mask. -/
def State.pending64 (s : State) : Nat :=
  s.get evcB F.VEC_PEND_LO_BITS + s.get evcB F.VEC_PEND_HI_BITS * 2 ^ 32

/-- The IRQ_N pins driven low by a mask of pending vectors (R75). -/
def State.pinLevel (s : State) (pend : Nat) : Nat :=
  (List.range 64).foldl (fun m v => if pend.testBit v then m ||| s.get (evcB + 4 * v) F.VEC_CTRL_PINS else m) 0

/-- A vector's message may not be sent now: masked in the table or for the function, or MSI-X disabled (R77). -/
def State.msixBlocked (s : State) (v : Nat) : Bool :=
  !s.irq.msixEnable || s.irq.funcMask || bitN (s.rd (gPage 0x011 + 16 * v + 12)).toNat 0

/-- PCIe pending bit of a vector (R74, R77). -/
def State.setPba (s : State) (v : Nat) (b : Bool) : State :=
  s.put (gPage 0x012 + 4 * (v / 32)) ⟨0, v % 32, 1⟩ (b2n b)

/-- Send the message of a vector and start its HOLDOFF gap (R76). -/
def State.msixSend (s : State) (v : Nat) : State :=
  let b := gPage 0x011 + 16 * v
  let t := ((s.emit (.msix v (s.rd b) (s.rd (b + 4)) (s.rd (b + 8)))).setPba v false)
  { t with irq := { t.irq with
      held := if t.get (evcB + 4 * v) F.VEC_CTRL_HOLDOFF = 0 then t.irq.held else t.irq.held ||| 2 ^ v
      delayed := setBit t.irq.delayed v false } }

/-- A sticky bit set and the event put on its way to the controller; the events of an absent die are never raised
(R6, R40, R49). -/
def State.raise (s : State) (base k : Nat) : State :=
  if s.present (dieOf base) then
    let t := s.wr (base + 0x10) (s.rd (base + 0x10) ||| BitVec.ofNat 32 (2 ^ k))
    match gev base k with
    | some e => { t with irq := { t.irq with inFlight := t.irq.inFlight ++ [(dieOf base, e)] } }
    | none => t
  else s

/-- Raise an event where a condition holds. -/
def State.raiseIf (s : State) (b : Bool) (base k : Nat) : State := if b then s.raise base k else s

/-- The live state of an event condition (EV_LIVE, R49). -/
def State.live (s : State) (base k : Nat) (b : Bool) : State := s.put base ⟨0x1C, k, 1⟩ (b2n b)

/-- A message of a pending vector is asked for: sent at once, delayed by HOLDOFF, or, where the vector is blocked, left
as the PCIe pending bit with MSI_BLOCKED raised (R76, R77). -/
def State.msixRequest (s : State) (v : Nat) : State :=
  if s.msixBlocked v then (s.setPba v true).raise evcB 0
  else if bitN s.irq.held v then { s with irq := { s.irq with delayed := s.irq.delayed ||| 2 ^ v } }
  else s.msixSend v

/-- Bring VEC_PEND, the pins and MSI-X up to date with EVG_STATE and EVG_MAP (R75 to R77). -/
def State.refreshVecs (s : State) : State :=
  let old := s.pending64
  let new := s.pendMask
  let t := (((s.put evcB F.VEC_PEND_LO_BITS (new % 2 ^ 32)).put evcB F.VEC_PEND_HI_BITS (new / 2 ^ 32)).put evcB
    F.PIN_STAT_LEVEL (s.pinLevel new))
  t.forAll (List.range 64) fun v u =>
    if new.testBit v && !old.testBit v then u.msixRequest v
    else if !new.testBit v && old.testBit v then
      { u.setPba v false with irq := { u.irq with delayed := setBit u.irq.delayed v false } }
    else u

/-- The controller takes up the state of one event (R40, R71). -/
def State.refreshEv (s : State) (ev : Nat) : State := (s.setEvg ev (s.evActive ev)).refreshVecs

/-- The events whose active state the bits of a block's EV_STICKY bear on. -/
def blockEvs (base mask : Nat) : List Nat :=
  dedupN ((List.range 32).filterMap fun k => if mask.testBit k then gev base k else none)

/-- The controller takes up the state of the events of a block's bits at once. -/
def State.refreshBlock (s : State) (base mask : Nat) : State :=
  ((blockEvs base mask).foldl (fun t e => t.setEvg e (t.evActive e)) s).refreshVecs

/-- Bits of EV_STICKY that a block's event table assigns (R566). -/
def evMaskOf (base : Nat) : Nat :=
  match rowOf (base + 0x10) with
  | some r => r.own
  | none => 0

/-- Raise a set of cause bits of a W1C cause register that feeds one event bit. -/
def State.cause (s : State) (base : Nat) (f : Fld) (bit : Nat) : State :=
  s.put base f (s.get base f ||| 2 ^ bit)

end Sys2Proof.Machine
end

