-- ==== Sys2Proof/Machine/Operands.lean ====
section
/-! DEFINITION. Video formats and frame rates (R80 to R88, R147, R175, R565), source codes and destinations (R157, R158)
and the route tables' addresses (R160): the operand forms that several blocks share. -/

namespace Sys2Proof.Machine

/-- Numerator and denominator of a frame rate code (R20, R83); codes 11 to 15 are not used. -/
def rateOf (f : Nat) : Nat × Nat :=
  match f with
  | 0 => (24000, 1001) | 1 => (24, 1) | 2 => (25, 1) | 3 => (30000, 1001) | 4 => (30, 1) | 5 => (50, 1)
  | 6 => (60000, 1001) | 7 => (60, 1) | 8 => (100, 1) | 9 => (120000, 1001) | 10 => (120, 1) | _ => (1, 1)

/-- Active width and height of a format (R82); 0 for a code that is no format. -/
def activeOf (fmt : Nat) : Nat × Nat :=
  match fmt with
  | 1 => (720, 486) | 2 => (720, 576) | 3 => (1280, 720) | 4 => (1920, 1080) | 5 => (1920, 1080) | 6 => (1920, 1080)
  | 7 => (3840, 2160) | 8 => (7680, 4320) | 9 => (7680, 2160) | _ => (0, 0)

/-- Scan of a format: 0 progressive, 1 interlaced, 2 PsF (R82). -/
def scanOf (fmt : Nat) : Nat := if fmt = 1 ∨ fmt = 2 ∨ fmt = 4 then 1 else if fmt = 5 then 2 else 0

/-- Quad-link formats (R82). -/
def isQuad (fmt : Nat) : Bool := fmt == 8 || fmt == 9

/-- Total lines of the raster, on each link for a quad-link format (R565). -/
def totalLinesOf (fmt : Nat) : Nat :=
  match fmt with
  | 1 => 525 | 2 => 625 | 3 => 750 | 4 => 1125 | 5 => 1125 | 6 => 1125 | 7 => 2250 | 8 => 2250 | 9 => 1125 | _ => 1

/-- Total samples per line of the raster, on each link (R84, R87). -/
def totalSamplesOf (fmt frate : Nat) : Nat :=
  match fmt with
  | 1 => 858
  | 2 => 864
  | 3 => if frate ≤ 1 then 4125 else if frate = 2 then 3960 else if frate ≤ 4 then 3300
         else if frate = 5 ∨ frate = 8 then 1980 else 1650
  | 9 => if frate = 5 then 5280 else 4400
  | 7 => if frate ≤ 1 then 5500 else if frate = 2 ∨ frate = 5 then 5280 else 4400
  | 8 => if frate ≤ 1 then 5500 else if frate = 2 ∨ frate = 5 then 5280 else 4400
  | _ => if frate ≤ 1 then 2750 else if frate = 2 ∨ frate = 5 ∨ frate = 8 then 2640 else 2200

/-- Rate class of a format, rate and kind of sampling (R82); none for a row that the table does not allow. `high` is
4:4:4 at any depth or 4:2:2 at 12 bits. -/
def rateClass (fmt frate : Nat) (high : Bool) : Option Nat :=
  match fmt with
  | 1 => if frate = 3 ∧ !high then some 1 else none
  | 2 => if frate = 2 ∧ !high then some 1 else none
  | 3 => if frate ≤ 7 then some (if high then 3 else 2) else if frate ≤ 10 then some (if high then 4 else 3) else none
  | 4 => if 2 ≤ frate ∧ frate ≤ 4 then some (if high then 3 else 2) else none
  | 5 => if frate ≤ 4 then some (if high then 3 else 2) else none
  | 6 => if frate ≤ 4 then some (if high then 3 else 2) else if frate ≤ 7 then some (if high then 4 else 3)
         else if frate ≤ 10 then some (if high then 5 else 4) else none
  | 7 => if frate ≤ 4 then some (if high then 5 else 4) else if frate ≤ 7 ∧ !high then some 5 else none
  | 8 => if frate ≤ 4 then some 5 else if frate ≤ 7 ∧ !high then some 5 else none
  | 9 => if 5 ≤ frate ∧ frate ≤ 7 ∧ !high then some 4 else none
  | _ => none

/-- 4:4:4, or 12 bits (R82). -/
def isHigh (sampling : Nat) (d12 : Bool) : Bool := sampling != 0 || d12

/-- Bits per pixel of a stream without alpha (R26). -/
def bppOf (sampling : Nat) (d12 : Bool) : Nat := (if sampling = 0 then 2 else 3) * (if d12 then 12 else 10)

/-- Bits per pixel of a surface (R196). -/
def surfBpp (sfmt : Nat) : Nat := if sfmt = 0 then 32 else if sfmt = 1 then 40 else 48

/-- Family of a frame rate: the timing-domain FAMILY code it belongs to (R147). -/
def familyOf (frate : Nat) : Nat :=
  if frate = 0 then 0 else if frate = 1 then 1 else if frate = 2 ∨ frate = 5 ∨ frate = 8 then 2
  else if frate = 3 ∨ frate = 6 ∨ frate = 9 then 3 else 4

/-- Line period in femtoseconds: frame period over the total lines of the (link) raster. -/
def lineFs (fmt frate : Nat) : Nat :=
  let r := rateOf frate
  10 ^ 15 * r.2 / (r.1 * totalLinesOf fmt)

/-- Femtoseconds between successive active lines of a picture or field; on a quad-link format two active lines share
one line of the link raster (R94, R565). -/
def activeLineFs (fmt frate : Nat) : Nat := if isQuad fmt then lineFs fmt frate / 2 else lineFs fmt frate

/-- Duration of one active source line in femtoseconds (Ds of R166). -/
def activeDurFs (fmt frate : Nat) : Nat :=
  let w := if isQuad fmt then (activeOf fmt).1 / 2 else (activeOf fmt).1
  lineFs fmt frate * w / totalSamplesOf fmt frate

/-- Take line of an output format (R175). -/
def takeLine (fmt : Nat) : Nat := if fmt = 1 then 10 else if fmt = 2 then 6 else 7

/-- The other switching line of a format, of its second field (R175). -/
def secondSwitchLine (fmt : Nat) : Option Nat :=
  if fmt = 1 then some 273 else if fmt = 2 then some 319 else if fmt = 4 then some 569 else none

/-- Frame line on which active line `y` of a format lies, on its link for a quad-link format (R565). -/
def frameLineOf (fmt y : Nat) : Nat :=
  match fmt with
  | 1 => if y % 2 = 1 then 21 + y / 2 else 283 + y / 2
  | 2 => if y % 2 = 0 then 23 + y / 2 else 336 + y / 2
  | 3 => 26 + y
  | 4 => if y % 2 = 0 then 21 + y / 2 else 584 + y / 2
  | 5 => if y % 2 = 0 then 21 + y / 2 else 584 + y / 2
  | 6 => 42 + y
  | 7 => 84 + y
  | 8 => 84 + y / 2
  | 9 => 42 + y / 2
  | _ => 0

/-- The two-sample interleave (R94): link number less one, sub-image line and sub-image sample of a picture sample. -/
def interleave (x y : Nat) : Nat × Nat × Nat :=
  let q := x / 2
  (2 * (y % 2) + q % 2, y / 2, 2 * (q / 2) + x % 2)

/-! Source codes (R157). -/

/-- A code that names a source: SDI input, IP receive context, store or write-back (R157). -/
def isSource (c : Nat) : Bool :=
  c < 0x60 || (0x100 ≤ c && c < 0x500) || (0x600 ≤ c && c < 0x800) || (0x800 ≤ c && c < 0x860)

def srcIsSdi (c : Nat) : Bool := c < 0x60
def srcIsIp (c : Nat) : Bool := 0x100 ≤ c && c < 0x500
def srcIsStore (c : Nat) : Bool := 0x600 ≤ c && c < 0x800
def srcIsWb (c : Nat) : Bool := 0x800 ≤ c && c < 0x860

/-! Tables and entries (R160, R214, R358). Tables: 0 layer, 1 IP transmit, 2 store. -/

/-- Address of ROUTE_CFG of an entry; ROUTE_STAT lies 4 above (R160). -/
def routeA (table i : Nat) : Nat :=
  if table = 0 then gPage 0x041 + 8 * i else if table = 1 then gPage 0x042 + 8 * i else gPage 0x044 + 8 * i

/-- Number of entries of a route table. -/
def routeN (table : Nat) : Nat := if table = 0 then 384 else if table = 1 then 1024 else 512

/-- ROUTE_STAT's fields are given from the start of the word. -/
abbrev routeStatA (table i : Nat) : Nat := routeA table i + 4

/-- SRING_CFG of a source code (R214). -/
abbrev sringA (c : Nat) : Nat := gPage 0x081 + 4 * c
/-- SRING_STAT of a source code. -/
abbrev sringStatA (c : Nat) : Nat := gPage 0x083 + 4 * c
/-- STORE_CFG of a store. -/
abbrev storeA (i : Nat) : Nat := gPage 0x085 + 16 * i
/-- STORE_STAT of a store. -/
abbrev storeStatA (i : Nat) : Nat := gPage 0x087 + 16 * i
/-- IP receive context c (R358). -/
def rxA (c : Nat) : Nat := ipB (c / 256) 4 + 64 * (c % 256)
/-- IP transmit context c (R358). -/
def txA (c : Nat) : Nat := ipB (c / 256) 8 + 64 * (c % 256)

/-- First port of the bonded input group a port belongs to, when that group is bonded (R95). -/
def State.inBonded (s : State) (g : Nat) : Bool := s.is (inB (g - g % 4)) F.IN_CFG_BOND
/-- A member (not the first port) of a bonded input group (R98). -/
def State.inMember (s : State) (g : Nat) : Bool := g % 4 != 0 && s.inBonded g
/-- The output group of a port is bonded. -/
def State.outBonded (s : State) (g : Nat) : Bool := s.is (outB (g - g % 4)) F.OUT_CFG_BOND
/-- A member (not the first port) of a bonded output group (R98). -/
def State.outMember (s : State) (g : Nat) : Bool := g % 4 != 0 && s.outBonded g

/-- The outputs that an output's first port drives: the four of its bonded group, or itself. -/
def State.outGroup (s : State) (g : Nat) : List Nat :=
  if g % 4 = 0 ∧ s.outBonded g then [g, g + 1, g + 2, g + 3] else [g]

/-- An output's OUT_CFG passes the checks of R108. -/
def State.outCfgOk (s : State) (g : Nat) : Bool :=
  let fmt := s.get (outB g) F.OUT_CFG_FMT
  let fr := s.get (outB g) F.OUT_CFG_FRATE
  let sm := s.get (outB g) F.OUT_CFG_SAMPLING
  let d12 := s.is (outB g) F.OUT_CFG_D12
  let bond := s.is (outB g) F.OUT_CFG_BOND
  let lb := s.is (outB g) F.OUT_CFG_LEVEL_B
  (rateClass fmt fr (isHigh sm d12)).isSome && sm < 3 && fr ≤ 10
    && (bond == isQuad fmt)
    && (!lb || (fmt == 6 && 5 ≤ fr && fr ≤ 7 && sm == 0 && !d12))
    && familyOf fr == s.get (tdB (s.get (outB g) F.OUT_CFG_DOMAIN)) F.TD_CFG_FAMILY

/-- A word with its parity bits (R123): b8 even parity of b7–b0, b9 its inverse. -/
def parity10 (v : Nat) : Nat :=
  let v := v % 256
  let p := (List.range 8).foldl (fun n i => n + v / 2 ^ i % 2) 0 % 2
  v + 256 * p + 512 * (1 - p)

/-- Ten-bit words of a packet from DID to the last user word (R123). -/
def ancTens (p : AncPkt) : List Nat :=
  [parity10 p.did.toNat, parity10 p.sdid.toNat, parity10 p.data.length] ++ p.data.map fun b => parity10 b.toNat

end Sys2Proof.Machine
end

