-- ==== Sys2Proof/Machine/Pixel.lean ====
section
/-! DEFINITION. The arithmetic of a pixel (R221, R226 to R229, R236 to R244, R194, R275): integer functions, defined to
the bit, over the components of a pixel. A pixel is (c0, c1, c2, α). -/

namespace Sys2Proof.Machine

/-- clamp(v) of R221. -/
def clamp14 (v : Int) : Nat := if v < 0 then 0 else if 16383 < v then 16383 else v.toNat

/-- Arithmetic shift right: floor division by a power of two. -/
def asr (v : Int) (n : Nat) : Int := v / (2 ^ n : Nat)

/-- A component of depth `d` to 14 bits (R226). -/
def to14 (d v : Nat) : Nat := v * 2 ^ (14 - d)

/-- Alpha of depth `d`: bit replication to 14 bits, then 16,384 at full scale (R226). -/
def alphaTo (d a : Nat) : Nat :=
  let a14 := a * 2 ^ (14 - d) ||| a / 2 ^ (2 * d - 14)
  a14 + a14 / 2 ^ 13

/-- Element `i` of a line, indices clamped to the line (R227, R242). -/
def atClamp (l : List Nat) (i : Int) : Nat :=
  if i < 0 then l.headD 0 else if (l.length : Int) ≤ i then l.getLastD 0 else l.getD i.toNat 0

/-- Chroma of pixel `x` interpolated from the co-sited samples of a 4:2:2 line (R227). -/
def chromaUp (c : List Nat) (x : Nat) : Nat :=
  let k : Int := (x / 2 : Nat)
  if x % 2 = 0 then atClamp c k
  else clamp14 (asr (-(atClamp c (k - 1) : Int) + 9 * atClamp c k + 9 * atClamp c (k + 1) - atClamp c (k + 2) + 8) 4)

/-- Every second, fourth or n-th element of a list from an offset. -/
def everyN (l : List Nat) (off n : Nat) : List Nat :=
  (List.range ((l.length + n - 1 - off) / n)).map fun i => l.getD (off + n * i) 0

/-- A pixel of four components. -/
abbrev Px := Nat × Nat × Nat × Nat

/-- Stages 1 and 2: a source line in transmission order (R189) to pixels of 14-bit components (R226, R227). `kind`: 0
4:2:2 Y′CbCr, 1 4:4:4 Y′CbCr, 2 4:4:4 R′G′B′ video, 3 surface with alpha. -/
def unpackLine (kind depth : Nat) (srcAlpha : Bool) (l : List Nat) : List Px :=
  let a := l.map (to14 depth)
  if kind = 0 then
    let y := everyN a 1 2
    let cb := everyN a 0 4
    let cr := everyN a 2 4
    (List.range y.length).map fun x => (y.getD x 0, chromaUp cb x, chromaUp cr x, 16384)
  else if kind = 1 then
    (List.range (l.length / 3)).map fun x => (a.getD (3 * x + 1) 0, a.getD (3 * x) 0, a.getD (3 * x + 2) 0, 16384)
  else if kind = 2 then
    (List.range (l.length / 3)).map fun x => (a.getD (3 * x + 2) 0, a.getD (3 * x) 0, a.getD (3 * x + 1) 0, 16384)
  else
    (List.range (l.length / 4)).map fun x =>
      (a.getD (4 * x) 0, a.getD (4 * x + 1) 0, a.getD (4 * x + 2) 0,
        if srcAlpha then alphaTo depth (l.getD (4 * x + 3) 0) else 16384)

/-- Positions per destination pixel (R228). -/
def scaleQ (s t : Nat) : Nat := if s > t then ceilDiv s t else 1

/-- Source position of scaling position `u` (R228): integer part and phase. -/
def scalePos (s t u : Nat) : Int × Nat :=
  let n := scaleQ s t * t
  let num : Int := (2 * u + 1) * s - n
  let m := num / (2 * n : Nat)
  let f := (num - m * (2 * n : Nat)).toNat
  let ph := (64 * f + n) / (2 * n)
  if ph = 64 then (m + 1, 0) else (m, ph)

/-- A weighted sum of taps, rounded and clamped (R229): `top` is 16,383 for colour and 16,384 for alpha (R221). -/
def tapSum (top : Nat) (coefs : List Int) (taps : List Nat) : Nat :=
  let sum : Int := (coefs.zip taps).foldl (fun acc p => acc + p.1 * (p.2 : Int)) 0
  (clampI 0 top (asr (sum + 512) 10)).toNat

/-- Average of the interpolated positions of a destination value (R228). -/
def tapMean (l : List Nat) : Nat := (l.foldl (· + ·) 0 + l.length / 2) / l.length

/-- The taps of a position: `n` values that start `before` positions before `m`, indices clamped to the window (R229). -/
def tapsAt (vals : List Nat) (m : Int) (before n : Nat) : List Nat :=
  (List.range n).map fun t => atClamp vals (m - (before : Int) + (t : Int))

/-- The positions that a destination index averages (R228). -/
def scalePositions (s t x : Nat) : List (Int × Nat) :=
  (List.range (scaleQ s t)).map fun j => scalePos s t (scaleQ s t * x + j)

/-- A line scaled horizontally, one component (R228, R229). `coef ph` gives the coefficients. -/
def scaleLine (top : Nat) (coef : Nat → List Int) (vals : List Nat) (t : Nat) : List Nat :=
  (List.range t).map fun x =>
    tapMean ((scalePositions vals.length t x).map fun p => tapSum top (coef p.2) (tapsAt vals p.1 3 8))

/-- Matrix of R236: coefficients by row, input offsets, output offsets; `(Σ M × (x + I) + 4,096 >> 13) + O`. -/
def matRow (m i : List Int) (o : Int) (x : List Nat) : Nat :=
  let sum : Int := (List.range 3).foldl (fun acc j => acc + m.getD j 0 * ((x.getD j 0 : Int) + i.getD j 0)) 0
  clamp14 (asr (sum + 4096) 13 + o)

/-- Layer or encode matrix over three components (R236). -/
def matrix (m i o : List Int) (c : Nat × Nat × Nat) : Nat × Nat × Nat :=
  let x := [c.1, c.2.1, c.2.2]
  (matRow (m.take 3) i (o.getD 0 0) x, matRow ((m.drop 3).take 3) i (o.getD 1 0) x,
    matRow ((m.drop 6).take 3) i (o.getD 2 0) x)

/-- Offsets of a premultiplied layer, scaled by the source alpha (R237). -/
def scaleOfs (o : List Int) (a : Nat) : List Int := o.map fun v => asr (v * (a : Int) + 8192) 14

/-- Effective alpha (R238). -/
def effAlpha (as a : Nat) : Nat := (as * a + 8192) / 2 ^ 14

/-- Premultiplied component (R238). -/
def premul (c k : Nat) : Nat := (c * k + 8192) / 2 ^ 14

/-- Blend of one component over the picture below (R238). -/
def blendOver (cp ae d : Nat) : Nat := min 16383 (cp + ((16384 - ae) * d + 8192) / 2 ^ 14)

/-- 1D LUT with 1,024 entries (R239). -/
def lut1d (e : Nat → Nat) (v : Nat) : Nat :=
  let i := v / 16
  let f := v % 16
  let d : Int := if i < 1023 then (e (i + 1) : Int) - e i else (e 1023 : Int) - e 1022
  clamp14 ((e i : Int) + asr (d * f + 8) 4)

/-- The order of three fractions, largest first, ties in component order (R240). -/
def fracOrder (f : List Nat) : List Nat :=
  let g (i : Nat) := f.getD i 0
  let a := if g 0 ≥ g 1 ∧ g 0 ≥ g 2 then 0 else if g 1 ≥ g 2 then 1 else 2
  let r := [0, 1, 2].filter (· != a)
  let b := if g (r.getD 0 0) ≥ g (r.getD 1 0) then r.getD 0 0 else r.getD 1 0
  [a, b, 3 - a - b]

/-- 3D LUT by tetrahedral interpolation (R240). `node` gives a component of the node at an index. -/
def lut3d (node : Nat → Nat) (v : List Nat) : Nat :=
  let i := v.map (· / 1024)
  let f := v.map (· % 1024)
  let o := fracOrder f
  let ix (p : List Nat) := 289 * p.getD 0 0 + 17 * p.getD 1 0 + p.getD 2 0
  let step (p : List Nat) (k : Nat) := p.set k (p.getD k 0 + 1)
  let p1 := step i (o.getD 0 0)
  let p2 := step p1 (o.getD 1 0)
  let p3 := step p2 (o.getD 2 0)
  let fa := f.getD (o.getD 0 0) 0
  let fb := f.getD (o.getD 1 0) 0
  let fc := f.getD (o.getD 2 0) 0
  clamp14 ((((1024 - fa) * node (ix i) + (fa - fb) * node (ix p1) + (fb - fc) * node (ix p2) + fc * node (ix p3) + 512)
    / 1024 : Nat) : Int)

/-- Reset contents of the LUTs (R239, R240): entry `i` of a 1D LUT, or node `i` of the 3D LUT. -/
def lutReset (table i : Nat) : Nat × Nat × Nat :=
  if table = 1 then (min (1024 * (i / 289)) 16383, min (1024 * (i / 17 % 17)) 16383, min (1024 * (i % 17)) 16383)
  else (16 * i, 16 * i, 16 * i)

/-- Chroma decimation to the sample co-sited with pixel 2k (R242). -/
def chromaDown (c : List Nat) (k : Nat) : Nat :=
  let j : Int := (2 * k : Nat)
  (atClamp c (j - 1) + 2 * atClamp c j + atClamp c (j + 1) + 2) / 4

/-- One of the sixteen shifts of the dither generator (R243), on 32 bits. -/
def ditherShift (s : Nat) : Nat :=
  (s * 2) % 2 ^ 32 ||| (s / 2 ^ 31 ^^^ s / 2 ^ 21 ^^^ s / 2 ^ 1 ^^^ s) % 2

/-- Sixteen shifts of the generator per sample (R243). -/
def ditherStep (s : Nat) : Nat := (List.range 16).foldl (fun t _ => ditherShift t) s

/-- The generator's seed of a line (R243). -/
def ditherSeed (seed mode y f : Nat) : Nat :=
  let s := seed ^^^ ((y + 1) * 0x9E3779B9) % 2 ^ 32 ^^^ (if mode = 2 then f * 0x85EBCA6B % 2 ^ 32 else 0)
  if s = 0 then 1 else s

/-- The ordered pattern B of R243. -/
def ditherB : List (List Nat) := [[0, 8, 2, 10], [12, 4, 14, 6], [3, 11, 1, 9], [15, 7, 13, 5]]

/-- Noise of the samples of a line (R243): `xs` are the columns of the samples in transmission order. -/
def ditherNoise (mode k seed y f : Nat) (xs : List Nat) : List Nat :=
  if mode = 0 then xs.map fun _ => 2 ^ (k - 1)
  else if mode = 3 then xs.map fun x => (ditherB.getD (y % 4) []).getD (x % 4) 0 * 2 ^ k / 16
  else (xs.foldl (fun (acc : Nat × List Nat) _ =>
    let s := ditherStep acc.1
    (s, acc.2 ++ [s / 2 ^ (32 - k)])) (ditherSeed seed mode y f, [])).2

/-- Quantise to `d` bits with noise `n`, pack into a word of `dd` bits and clamp to the legal range (R244). -/
def packSample (d dd n v : Nat) : Nat :=
  let vd := min (2 ^ d - 1) ((v + n) / 2 ^ (14 - d))
  let w := vd * 2 ^ (dd - d)
  if dd = 12 then clampN 16 4079 w else clampN 4 1019 w

/-- A decimated copy's line from `d` source lines, component by component (R194). -/
def decimLine (d : Nat) (ls : List (List Nat)) : List Nat :=
  (List.range (ls.headD []).length).map fun i => (ls.foldl (fun acc l => acc + l.getD i 0) 0 + d / 2) / d

/-- Blend of two stored samples at phase φ (R275). -/
def convBlend (a b ph : Nat) : Nat := (a * (256 - ph) + b * ph + 128) / 256

/-- Phase of an interpolated frame (R269): 256 stands for the next picture. -/
def convPhase (tau ta tb : Int) : Nat :=
  if tb ≤ ta then 0 else ((2 * ((tau - ta) * 256) + (tb - ta)) / (2 * (tb - ta))).toNat

end Sys2Proof.Machine
end

