-- ==== Sys2Proof/Machine/Plan.lean ====
section
/-! DEFINITION. What a set of routes and stores asks of the part (chapters 05, 06 and 08): declared formats, rings and
bins, read and write contexts, the Finano load (R26, R27, R182) and the admission sum (R208). Every function reads the
values in effect of the state it is given; a commit is planned on the state with its staging sets put into effect. -/

namespace Sys2Proof.Machine

/-- A picture format from a word laid out as IN_FMT (R110): FMT, FRATE, SAMPLING, D12. -/
def fmtOfWord (w : Nat) : Option SrcFmt :=
  let fmt := w % 256
  if (activeOf fmt).1 = 0 then none
  else
    let sm := w / 0x1000 % 4
    let d12 := bitN w 14
    some ⟨(activeOf fmt).1, (activeOf fmt).2, bppOf sm d12, some (w / 256 % 16), scanOf fmt, sm,
      if d12 then 12 else 10, fmt⟩

/-- Declared format of an SDI input, IP receive context or write-back (R569). -/
def State.baseFmt (s : State) (c : Nat) : Option SrcFmt :=
  if srcIsSdi c then fmtOfWord (s.rd (inB c + 0x48)).toNat
  else if srcIsIp c then fmtOfWord (s.effRd (rxA (c - 0x100) + 4)).toNat
  else if srcIsWb c then fmtOfWord (s.rd (outB (c - 0x800) + 0x40)).toNat
  else none

/-- DECIM's factor (R194). -/
def decimOf (d : Nat) : Nat := if d = 1 then 2 else if d = 2 then 4 else 1

/-- A decimated copy's format (R194): each field keeps floor(Hf ÷ D) lines. -/
def SrcFmt.decimate (f : SrcFmt) (d : Nat) : SrcFmt :=
  { f with h := if f.scan = 0 then f.h / d else 2 * (f.h / 2 / d) }

/-- SHED or SUSPENDED routes do not count; a route is active when it is enabled and fed (R161, R208). -/
def State.routeActive (s : State) (t i : Nat) : Bool :=
  s.effIs (routeA t i) F.ROUTE_CFG_EN && s.effGet (routeA t i) F.ROUTE_CFG_SRC != 0xFFF
    && !s.is (routeStatA t i) F.ROUTE_STAT_SUSPENDED && !s.is (routeStatA t i) F.ROUTE_STAT_SHED

/-- Source code of a route in effect. -/
abbrev State.routeSrc (s : State) (t i : Nat) : Nat := s.effGet (routeA t i) F.ROUTE_CFG_SRC

/-- Declared format of any source (R569). -/
def State.srcFmt (s : State) (c : Nat) : Option SrcFmt :=
  if srcIsStore c then
    let i := c - 0x600
    let kind := s.effGet (storeA i) F.STORE_CFG_KIND
    if kind = 3 then
      let sf := s.effGet (storeA i) F.STORE_CFG_SFMT
      some ⟨s.effGet (storeA i) F.STORE_CFG_WIDTH, s.effGet (storeA i) F.STORE_CFG_HEIGHT, surfBpp sf, none, 0, 3,
        if sf = 0 then 8 else if sf = 1 then 10 else 12, 0⟩
    else if kind = 0 then none
    else
      let d := decimOf (s.effGet (storeA i) F.STORE_CFG_DECIM)
      let base := if s.effIs (routeA 2 i) F.ROUTE_CFG_EN then s.baseFmt (s.routeSrc 2 i)
        else fmtOfWord (tget 0 (s.silo.rings.map fun p => (p.1, p.2.fmt)) c)
      base.map fun f => { f.decimate d with frate := if kind = 2 then none else f.frate }
  else s.baseFmt c

/-- Line pitch in bytes (R188). -/
def pitchOf (w b : Nat) : Nat := 640 * ceilDiv (w * b) 5120
/-- Lines per bin (R188). -/
def lpbOf (p : Nat) : Nat := if p = 0 then 1 else 3276 / (p / 640)
/-- Bins per buffer (R188). -/
def binsPerBuf (f : SrcFmt) : Nat := ceilDiv f.h (max 1 (lpbOf (pitchOf f.w f.bpp)))

/-- Entries of a route table that are listed in effect, with their words: every enabled route is among them, since a
route is disabled at reset. -/
def State.entries (s : State) (t : Nat) : List (Nat × Word) :=
  s.eff.filterMap fun p =>
    let b := routeA t 0
    if b ≤ p.1 ∧ p.1 < b + 8 * routeN t ∧ (p.1 - b) % 8 = 0 then some ((p.1 - b) / 8, p.2) else none

/-- Active routes of a table, in ascending index. -/
def State.active (s : State) (t : Nat) : List Nat :=
  (s.entries t).filterMap fun p => if s.routeActive t p.1 then some p.1 else none

/-- Frame rate code of a route's destination (R165, R346). -/
def State.dstRate (s : State) (t i : Nat) : Nat :=
  if t = 0 then s.get (outB (i / 4)) F.OUT_CFG_FRATE else s.effGet (txA i) ⟨4, 8, 4⟩
/-- Timing domain of a route's destination (R164). -/
def State.dstDomain (s : State) (t i : Nat) : Nat :=
  if t = 0 then s.get (outB (i / 4)) F.OUT_CFG_DOMAIN else s.effGet (txA i) F.TX_CFG_DOMAIN
/-- Destination key: output g, or 128 + IP transmit context. -/
def destKey (t i : Nat) : Nat := if t = 0 then i / 4 else 128 + i

/-- Address of slot `c` of converter engine `e` (R286). -/
abbrev ctxA (e c : Nat) : Nat := cvB e + 0x80 + 0x40 * c

/-- The slots of the pool in order. -/
def allSlots : List (Nat × Nat) := (List.range 16).map fun k => (k / 2, k % 2)

/-- A slot holds a context. -/
def State.slotUsed (s : State) (e c : Nat) : Bool := s.get (ctxA e c) F.CTX_STAT_STATE != 0

/-- The empty context. -/
def Ctx.empty : Ctx := ⟨[], none, 0, 0, 0, false, true, [], 0, 0, false, none, 0, [], [], [], none, [], none, 0, none⟩
def State.ctx (s : State) (e c : Nat) : Ctx := tget Ctx.empty s.conv (2 * e + c)
def State.setCtx (s : State) (e c : Nat) (x : Ctx) : State := { s with conv := tset Ctx.empty s.conv (2 * e + c) x }

/-- Added to an entry that has joined a context at a check and whose take is still to come (R265). -/
abbrev ctxJoin : Nat := 65536

/-- A context that serves a route or that it has joined, for the source that it names. -/
def State.routeCtx (s : State) (t i : Nat) : Option (Nat × Nat) :=
  allSlots.find? fun p => s.slotUsed p.1 p.2 && s.get (ctxA p.1 p.2) F.CTX_KEY_SRC == s.routeSrc t i
    && ((s.ctx p.1 p.2).routes.contains (t * 4096 + i) || (s.ctx p.1 p.2).routes.contains (ctxJoin + t * 4096 + i))

/-- The source and destination frame rates of a route differ (R263): sources without a rate never do. -/
def State.ratesDiffer (s : State) (t i : Nat) : Bool :=
  match (s.srcFmt (s.routeSrc t i)).bind (·.frate) with
  | some f => f != s.dstRate t i
  | none => false

/-- The route is converted (R263). While its source reports no format it stays with the context that it has (R266, R280). -/
def State.isConv (s : State) (t i : Nat) : Bool :=
  t < 2 && s.effGet (routeA t i) F.ROUTE_CFG_RATE_MODE == 2
    && (if (s.srcFmt (s.routeSrc t i)).isSome then s.ratesDiffer t i else (s.routeCtx t i).isSome)
/-- The route's reader blends two frames (R203). -/
def State.isBlend (s : State) (t i : Nat) : Bool :=
  t < 2 && s.effGet (routeA t i) F.ROUTE_CFG_RATE_MODE == 1 && s.ratesDiffer t i

/-- Active layer and IP transmit routes that are not converted: pairs of table and index. -/
def State.readRoutes (s : State) : List (Nat × Nat) :=
  ((s.active 0).map fun i => (0, i)) ++ ((s.active 1).map fun i => (1, i)) |>.filter fun p => !s.isConv p.1 p.2
/-- Active converter routes in the order of R265. -/
def State.convRoutes (s : State) : List (Nat × Nat) :=
  ((s.active 0).map fun i => (0, i)) ++ ((s.active 1).map fun i => (1, i)) |>.filter fun p => s.isConv p.1 p.2

/-- Source codes whose SRING_CFG.KEEP is in effect. -/
def State.keptRings (s : State) : List Nat :=
  s.eff.filterMap fun p =>
    let b := sringA 0
    if b ≤ p.1 ∧ p.1 < b + 0x1400 ∧ bitN p.2.toNat 4 then some ((p.1 - b) / 4) else none

/-- Source rings that are allocated (R192): those with a reading route or KEEP. -/
def State.ringsOn (s : State) : List Nat :=
  dedupN (((s.readRoutes.map fun p => s.routeSrc p.1 p.2).filter fun c => srcIsSdi c || srcIsIp c) ++ s.keptRings)

/-- Stores whose KIND in effect is not 0. -/
def State.storesOn (s : State) : List Nat :=
  s.eff.filterMap fun p =>
    let b := storeA 0
    if b ≤ p.1 ∧ p.1 < b + 0x2000 ∧ (p.1 - b) % 16 = 0 ∧ p.2.toNat % 4 ≠ 0 then some ((p.1 - b) / 16) else none

/-- Buffers of a source ring (R216). -/
def State.ringDepth (s : State) (c : Nat) : Nat := clampN 2 4 (s.effGet (sringA c) F.SRING_CFG_DEPTH)
/-- Buffers of a store (R193, R218). -/
def State.storeDepth (s : State) (i : Nat) : Nat :=
  let d := s.effGet (storeA i) F.STORE_CFG_DEPTH
  let k := s.effGet (storeA i) F.STORE_CFG_KIND
  if k = 1 then clampN 2 4 d else if k = 2 then 2 else if k = 3 then clampN 1 4 d else 0

/-- What a ring or store needs: its key, a signature of its format, its bins, and whether they are contiguous. -/
structure Need where
  key : Nat
  sig : Nat
  bins : Nat
  run : Bool
deriving DecidableEq, Repr

/-- The needs of every ring and store (R191, R192, R193, R569). -/
def State.needs (s : State) : List Need :=
  (s.ringsOn.filterMap fun c => (s.srcFmt c).map fun f =>
    ⟨c, pitchOf f.w f.bpp * 0x10000 + f.h, s.ringDepth c * binsPerBuf f, false⟩) ++
  (s.storesOn.filterMap fun i => (s.srcFmt (0x600 + i)).map fun f =>
    ⟨0x600 + i, (pitchOf f.w f.bpp * 0x10000 + f.h) * 4 + s.effGet (storeA i) F.STORE_CFG_KIND,
      s.storeDepth i * binsPerBuf f, s.effGet (storeA i) F.STORE_CFG_KIND == 3⟩)

/-- Bins of the buffers that rings have given up and readers still hold, unless they are on their way to be free (R192). -/
def State.goneBins (s : State) : List Nat :=
  let out := s.silo.releasing.flatMap fun p => p.2.2
  (s.silo.rings.flatMap fun p => (p.2.bufs.filter (·.gone)).flatMap (·.bins)).filter fun b => !out.contains b

/-- Bins held by any ring, store or reader, held for a take not yet made, or on their way to be free. -/
def State.usedBins (s : State) : List Nat :=
  (s.silo.bins.flatMap fun p => p.2.2) ++ s.goneBins ++ (s.silo.releasing.flatMap fun p => p.2.2)
    ++ (s.silo.reserved.flatMap fun p => p.2.2.2.filter fun b => !(tget (0, ([] : List Nat)) s.silo.bins p.2.1).2.contains b)

/-- Free bins (R191). -/
def State.freeBins (s : State) : Nat :=
  s.get siloB F.SILO_BINS_TOTAL_COUNT - s.get siloB F.SILO_BINS_SYS_COUNT - s.usedBins.length

/-- The `n` lowest-numbered bins from `c` that are not used; `fuel` bounds the bins looked at. -/
def lowFree (used : List Nat) : Nat → Nat → Nat → List Nat
  | 0, _, _ => []
  | _ + 1, 0, _ => []
  | fuel + 1, n + 1, c => if used.contains c then lowFree used fuel (n + 1) (c + 1) else c :: lowFree used fuel n (c + 1)

/-- Insertion into an ascending list. -/
def insAsc (x : Nat) : List Nat → List Nat
  | [] => [x]
  | y :: t => if x ≤ y then x :: y :: t else y :: insAsc x t

/-- Free runs between used bins: start and length, ascending. -/
def runsFrom (lo hi : Nat) : List Nat → List (Nat × Nat)
  | [] => if lo < hi then [(lo, hi - lo)] else []
  | u :: t => (if lo < u then [(lo, u - lo)] else []) ++ runsFrom (max lo (u + 1)) hi t

/-- The free runs of bins. -/
def State.freeRuns (s : State) : List (Nat × Nat) :=
  runsFrom (s.get siloB F.SILO_BINS_SYS_COUNT) (s.get siloB F.SILO_BINS_TOTAL_COUNT)
    (s.usedBins.foldl (fun l x => insAsc x l) [])

/-- The first bin of the highest-numbered run of `n` bins (R191). -/
def State.highRun (s : State) (n : Nat) : Option Nat :=
  s.freeRuns.foldl (fun best r => if n ≤ r.2 then some (r.1 + r.2 - n) else best) none

/-- Bins a ring or store holds, with the signature they were allocated under. -/
def State.binsOf (s : State) (key : Nat) : Nat × List Nat := tget (0, []) s.silo.bins key

/-- Set the bins of a ring or store. -/
def State.setBins (s : State) (key : Nat) (v : Nat × List Nat) : State :=
  { s with silo := { s.silo with bins := tset (0, []) s.silo.bins key v } }

/-- Give up bins: they are free after `pulses` more frame pulses of a domain (R191). -/
def State.releaseBins (s : State) (domain pulses : Nat) (l : List Nat) : State :=
  if l.isEmpty then s else
    { s with silo := { s.silo with releasing := s.silo.releasing ++ [(domain, pulses, l)] } }

/-- Allocate what one need asks for beyond what its item holds (R191, R192, R207); on a lack of bins, the reason code of
SILO_CAUSE. -/
def State.allocNeed (s : State) (domain : Nat) (n : Need) : Except Nat State :=
  let have0 := s.binsOf n.key
  if have0.1 = n.sig ∧ have0.2.length = n.bins then .ok s
  else if have0.1 = n.sig ∧ n.run = false then
    if n.bins < have0.2.length then
      .ok ((s.setBins n.key (n.sig, have0.2.take n.bins)).releaseBins domain 2 (have0.2.drop n.bins))
    else if s.freeBins < n.bins - have0.2.length then .error 0
    else
      let used := s.usedBins
      let add := n.bins - have0.2.length
      .ok (s.setBins n.key (n.sig, have0.2 ++ lowFree used (add + used.length) add (s.get siloB F.SILO_BINS_SYS_COUNT)))
  else if s.freeBins < n.bins then .error 0
  else if n.run then
    match s.highRun n.bins with
    | none => .error 1
    | some b => .ok ((s.setBins n.key (n.sig, (List.range n.bins).map (b + ·))).releaseBins domain 2 have0.2)
  else
    let used := s.usedBins
    .ok ((s.setBins n.key (n.sig, lowFree used (n.bins + used.length) n.bins (s.get siloB F.SILO_BINS_SYS_COUNT))).releaseBins
      domain 2 have0.2)

/-- Allocate a list of needs in order; on failure the key and the reason. -/
def State.allocNeeds (s : State) (domain : Nat) : List Need → Except (Nat × Nat) State
  | [] => .ok s
  | n :: t =>
    match s.allocNeed domain n with
    | .error r => .error (n.key, r)
    | .ok s' => s'.allocNeeds domain t

/-- Items that are no longer needed give up their bins. A source ring keeps its bins while its input reports no format
(R205, R569). -/
def State.dropUnneeded (s : State) (domain : Nat) (pulses : Nat := 2) : State :=
  let keys := s.needs.map (·.key)
  s.silo.bins.foldl (fun t p =>
    if keys.contains p.1 || (s.ringsOn.contains p.1) || (srcIsStore p.1 && s.effGet (storeA (p.1 - 0x600)) F.STORE_CFG_KIND != 0)
    then t else (t.setBins p.1 (0, [])).releaseBins domain pulses p.2.2) s

/-! Contexts and loads. -/

/-- Read contexts (R159): destination, source, two frames held. -/
def State.readCtx (s : State) : List (Nat × Nat × Bool) :=
  let keys := dedupN (s.readRoutes.map fun p => destKey p.1 p.2 * 4096 + s.routeSrc p.1 p.2)
  keys.map fun k =>
    (k / 4096, k % 4096, s.readRoutes.any fun p => destKey p.1 p.2 * 4096 + s.routeSrc p.1 p.2 == k && s.isBlend p.1 p.2)

/-- Write contexts (R159): source rings and the stores with an active store route. -/
def State.writeCtx (s : State) : Nat :=
  s.ringsOn.length +
    (s.storesOn.filter fun i => s.routeActive 2 i && s.effGet (storeA i) F.STORE_CFG_KIND != 3).length

/-- Rate of a stream in Mb/s, rounded up (R26, R182), delivered at a frame rate. -/
def streamMbps (f : SrcFmt) (frate : Nat) : Nat :=
  ceilDiv (f.h * (rateOf frate).1 * (ceilDiv (f.w * f.bpp) 64 + 1) * 64) ((rateOf frate).2 * 10 ^ 6)

/-- Converter mode of a source code (R272, R288). -/
def State.srcMode (s : State) (c : Nat) : Nat := fldGet (s.rd (cvB 0 + 0x800 + 4 * (c / 16))) (2 * (c % 16)) 2

/-- Format of a converted source: as declared, or while it reports none that of a context of it. -/
def State.convFmt (s : State) (c : Nat) : Option SrcFmt :=
  match s.srcFmt c with
  | some f => some f
  | none => match allSlots.find? fun p => s.slotUsed p.1 p.2 && s.get (ctxA p.1 p.2) F.CTX_KEY_SRC == c with
    | some p => (s.ctx p.1 p.2).fmt
    | none => none

/-- Converter mode of the context that serves a route, plus 1; 0 for a route that is not converted (R281). -/
def State.streamMode (s : State) (t i : Nat) : Nat :=
  if s.isConv t i then
    1 + (match s.routeCtx t i with
      | some p => s.get (ctxA p.1 p.2) F.CTX_KEY_SRCMODE
      | none => s.srcMode (s.routeSrc t i))
  else 0

/-- Distinct streams delivered to a Sheaf (R27, R281): source, destination rate, domain, converter mode; packed. A source read cut-through
in two domains counts twice as a ring does, and read cut-through and stored at one rate in one domain once (DESIGN CHOICE, log 61). -/
def State.txStreams (s : State) (sheaf : Nat) : List Nat :=
  dedupN ((s.active 0).filterMap fun i =>
    if i / 4 / 16 + 1 = sheaf then
      some (((s.routeSrc 0 i * 16 + s.dstRate 0 i) * 8 + s.dstDomain 0 i) * 8 + s.streamMode 0 i)
    else none)

/-- Granary-to-Sheaf load in Mb/s (R27, R182): a converted stream has its context's format. -/
def State.txLoad (s : State) (sheaf : Nat) : Nat :=
  (s.txStreams sheaf).foldl (fun acc k =>
    match (if k % 8 = 0 then s.srcFmt (k / 1024) else s.convFmt (k / 1024)) with
    | some f => acc + streamMbps f (k / 64 % 16)
    | none => acc) 0

/-- Streams a Sheaf sends: inputs with at least one route, store or kept ring using them, and write-backs read by an
active store route (R27). -/
def State.rxStreams (s : State) (sheaf : Nat) : List Nat :=
  let used := ((s.active 0).map (s.routeSrc 0 ·)) ++ ((s.active 1).map (s.routeSrc 1 ·)) ++ ((s.active 2).map (s.routeSrc 2 ·))
    ++ s.keptRings
  dedupN (used.filter fun c => (srcIsSdi c && c / 16 + 1 == sheaf) || (srcIsWb c && (c - 0x800) / 16 + 1 == sheaf))

/-- Sheaf-to-Granary load in Mb/s (R27, R182). -/
def State.rxLoad (s : State) (sheaf : Nat) : Nat :=
  (s.rxStreams sheaf).foldl (fun acc c =>
    match s.baseFmt c with
    | some f => acc + streamMbps f (f.frate.getD 0)
    | none => acc) 0

/-- A link of a Sheaf direction is up (R185): direction 0 Granary to Sheaf. -/
def State.linkUp (s : State) (sheaf dir link : Nat) : Bool :=
  bitN (s.get flB F.FL_LINKS_UP) (4 * (sheaf - 1) + 2 * dir + link)

/-- Budget of a Sheaf direction in Mb/s (R27, R30). -/
def State.finBudget (s : State) (sheaf dir : Nat) : Nat :=
  if s.linkUp sheaf dir 0 && s.linkUp sheaf dir 1 then 336000 else 168000

/-- Bytes per second to whole MB/s, rounded up, of a stored picture of pitch and height at a frame rate (R208). -/
def memMb (f : SrcFmt) (num den : Nat) : Nat := ceilDiv (f.h * pitchOf f.w f.bpp * num) (den * 10 ^ 6)

/-- W terms (R208), by key. -/
def State.wTerms (s : State) : List (Nat × Nat) :=
  (s.ringsOn.map fun c => (c, match s.srcFmt c with
    | some f => memMb f (rateOf (f.frate.getD 0)).1 (rateOf (f.frate.getD 0)).2
    | none => 0)) ++
  ((s.storesOn.filter fun i => s.routeActive 2 i && s.effGet (storeA i) F.STORE_CFG_KIND != 3).map fun i =>
    (0x600 + i, match s.srcFmt (0x600 + i), s.baseFmt (s.routeSrc 2 i) with
      | some f, some b => memMb f (rateOf (b.frate.getD 0)).1 (rateOf (b.frate.getD 0)).2
      | _, _ => 0))

/-- Frame rate code of a destination key. -/
def State.rateOfDest (s : State) (d : Nat) : Nat := if d < 128 then s.dstRate 0 (4 * d) else s.dstRate 1 (d - 128)

/-- V terms (R208). -/
def State.vTerm (s : State) : Nat :=
  s.readCtx.foldl (fun acc k =>
    match s.srcFmt k.2.1 with
    | some f =>
      let r := rateOf (s.rateOfDest k.1)
      acc + (if k.2.2 then 2 else 1) * memMb f r.1 r.2
    | none => acc) 0

/-- U terms (R208). -/
def State.uTerm (s : State) : Nat :=
  (s.storesOn.filter fun i => s.effGet (storeA i) F.STORE_CFG_KIND == 3).foldl (fun acc i =>
    acc + s.effGet (storeA i) F.STORE_CFG_WR_MBPS) 0

/-- Sum of a list of terms. -/
def sumN (l : List Nat) : Nat := l.foldl (· + ·) 0

/-- Destinations that read a context (n_r of R282). -/
def State.ctxReaders (s : State) (x : Ctx) : Nat :=
  (dedupN ((x.routes.filter fun r => r < ctxJoin && s.routeActive (r / 4096) (r % 4096)).map fun r => destKey (r / 4096) (r % 4096))).length

/-- C of a context in MB/s (R282). -/
def State.ctxMb (s : State) (e c : Nat) : Nat :=
  match (s.ctx e c).fmt with
  | none => 0
  | some f =>
    let rs := rateOf (s.get (ctxA e c) F.CTX_KEY_SRC_FRATE)
    let rd := rateOf (s.get (ctxA e c) F.CTX_KEY_DST_FRATE)
    let hp := f.h * pitchOf f.w f.bpp
    ceilDiv (hp * (4 * rs.1 * rd.2 + (1 + s.ctxReaders (s.ctx e c)) * rd.1 * rs.2)) (rs.2 * rd.2 * 10 ^ 6)

/-- C terms (R208). -/
def State.cTerm (s : State) : Nat :=
  sumN ((allSlots.filter fun p => s.slotUsed p.1 p.2 && (s.ctx p.1 p.2).release.isNone).map fun p => s.ctxMb p.1 p.2)

/-- S and K terms (R208). -/
def State.skTerm (s : State) : Nat := ceilDiv (s.get wnB F.WN_RATE_EFF_STRIPES * 1536) (10 ^ 6) + 1500

/-- The admission sum A in MB/s (R208). -/
def State.admission (s : State) : Nat :=
  sumN (s.wTerms.map (·.2)) + s.vTerm + s.uTerm + s.cTerm + s.skTerm

/-! Converter contexts (R260 to R267). -/

/-- Load of a context in pixels per second, rounded up (R260). -/
def ctxLoad (f : SrcFmt) (fsrc fdst : Nat) : Nat :=
  let a := rateOf fsrc
  let b := rateOf fdst
  let an := if f.scan = 1 then 2 * a.1 else a.1
  max (ceilDiv (f.w * f.h * an) a.2) (ceilDiv (f.w * f.h * b.1) b.2)

/-- Capacity of an engine in pixels per second (R260). -/
def engineCap : Nat := 497664000

/-- Context delay D in ns (R268). -/
def ctxDelay (mode fsrc fdst : Nat) : Nat :=
  let a := rateOf fsrc
  let b := rateOf fdst
  -- twice the number of source periods
  let m := if mode = 1 then 10 else if mode = 3 then 3 else 4
  roundDiv (10 ^ 9 * (m * a.2 * b.1 + 2 * b.2 * a.1)) (2 * a.1 * b.1) + 500000

/-- Exact load sum of an engine in pixels per second, without its slot `c` counted twice. -/
def State.engineLoad (s : State) (e : Nat) : Nat :=
  sumN ((List.range 2).map fun c =>
    if s.slotUsed e c then
      match (s.ctx e c).fmt with
      | some f => ctxLoad f (s.get (ctxA e c) F.CTX_KEY_SRC_FRATE) (s.get (ctxA e c) F.CTX_KEY_DST_FRATE)
      | none => 1000 * s.get (ctxA e c) F.CTX_LOAD_KPPS
    else 0)

/-- The slot whose context a converter route may join (R265): the key of R261, in the order of the slots. -/
def State.ctxFor (s : State) (code domain fdst : Nat) (mode : Option Nat) : Option (Nat × Nat) :=
  allSlots.find? fun p =>
    s.slotUsed p.1 p.2 && s.get (ctxA p.1 p.2) F.CTX_KEY_SRC == code
      && s.get (ctxA p.1 p.2) F.CTX_KEY_DOMAIN == domain && s.get (ctxA p.1 p.2) F.CTX_KEY_DST_FRATE == fdst
      && (match mode with | some m => s.get (ctxA p.1 p.2) F.CTX_KEY_SRCMODE == m | none => true)

/-- The engine and slot a new context takes (R265). -/
def State.freeSlot (s : State) (load : Nat) : Option (Nat × Nat) :=
  allSlots.find? fun p =>
    s.is (cvB p.1) F.CV_CFG_ALLOC && !s.is (cvB p.1) F.CV_STAT_FAULT_MODE && !s.slotUsed p.1 p.2
      && s.engineLoad p.1 + load ≤ engineCap

/-- Slot registers of a context (R286) and the sums of its engine (R285), after a change of its readers. -/
def State.ctxRefresh (s : State) (e c : Nat) : State :=
  let t := ((s.put (ctxA e c) F.CTX_STAT_READERS (s.ctxReaders (s.ctx e c))).put (ctxA e c) F.CTX_MEM_MBPS (s.ctxMb e c))
  (t.put (cvB e) F.CV_STAT_SLOTS (b2n (t.slotUsed e 0) + b2n (t.slotUsed e 1))).put (cvB e) F.CV_LOAD_KPPS
    (ceilDiv (t.engineLoad e) 1000)

/-- Set an engine's cause bit; it sets EV_STICKY bit 0 where its enable bit is 1 (R285, R289). -/
def State.cvCause (s : State) (e bit : Nat) : State :=
  (s.cause (cvB e) F.CV_CAUSE_BITS bit).raiseIf
    (!bitN (s.get (cvB e) F.CV_CAUSE_BITS) bit && bitN (s.get (cvB e) F.CV_CAUSE_EN_BITS) bit) (cvB e) 0

/-- Free slots of engines with ALLOC = 1 and no fault mode (R287). -/
def State.poolRefresh (s : State) : State :=
  s.put (cvB 0) F.CV_POOL_STAT_SLOTS_FREE ((allSlots.filter fun p =>
    s.is (cvB p.1) F.CV_CFG_ALLOC && !s.is (cvB p.1) F.CV_STAT_FAULT_MODE && !s.slotUsed p.1 p.2).length)

/-- A context's entry: every slot register and counter at its value on allocation (R265, R268, R286). -/
def State.newCtx (s : State) (e c : Nat) (f : SrcFmt) (code domain fsrc fdst mode entry : Nat) : State :=
  let a := ctxA e c
  let t := (s.puts a [(F.CTX_KEY_SRC, code), (F.CTX_KEY_DOMAIN, domain), (F.CTX_KEY_DST_FRATE, fdst),
    (F.CTX_KEY_SRC_FRATE, fsrc), (F.CTX_KEY_SRC_INTERLACED, b2n (f.scan == 1)), (F.CTX_KEY_SRCMODE, mode),
    (F.CTX_STAT_STATE, 1), (F.CTX_STAT_METHOD, 0), (F.CTX_STAT_CADENCE, 0), (F.CTX_STAT_CONF, 0), (F.CTX_STAT_CUT, 0),
    (F.CTX_DELAY_NS, ctxDelay mode fsrc fdst), (F.CTX_LOAD_KPPS, ceilDiv (ctxLoad f fsrc fdst) 1000),
    (F.CTX_PHASE_PHASE, 0), (F.CNT_MC_FRAMES, 0), (F.CNT_BLEND_FRAMES, 0), (F.CNT_REPEAT_FRAMES, 0),
    (F.CNT_CUT_CUTS, 0), (F.CNT_LATE_FRAMES, 0)])
  (((t.setCtx e c { Ctx.empty with routes := [entry], fmt := some f }).ctxRefresh e c).cvCause e 0).poolRefresh

/-- A route's entry leaves every context but one (R265). -/
def State.leaveOthers (s : State) (e c entry : Nat) : State :=
  { s with conv := s.conv.map fun (p : Nat × Ctx) =>
    if p.1 = 2 * e + c then p else (p.1, { p.2 with routes := p.2.routes.filter (· != entry) }) }

/-- Give a converter route its context: keep, join or allocate (R265, R266). Where its source reports no format, only one that it has. -/
def State.allocCtx (s : State) (t i : Nat) : Option State :=
  let entry := t * 4096 + i
  let code := s.routeSrc t i
  let dom := s.dstDomain t i
  let fd := s.dstRate t i
  match s.srcFmt code with
  | none => (s.routeCtx t i).map fun _ => s
  | some f =>
    let fs := f.frate.getD 0
    let kept := allSlots.find? fun p => s.slotUsed p.1 p.2 && (s.ctx p.1 p.2).routes.contains entry
      && s.ctxFor code dom fd (some (s.get (ctxA p.1 p.2) F.CTX_KEY_SRCMODE)) == some p
    match (match kept with | some p => some p | none => s.ctxFor code dom fd (some (s.srcMode code))) with
    | some (e, c) =>
      let x := s.ctx e c
      some (((s.setCtx e c { x with
        routes := if x.routes.contains entry then x.routes else x.routes ++ [entry], release := none }).leaveOthers e c
          entry).ctxRefresh e c)
    | none =>
      match s.freeSlot (ctxLoad f fs fd) with
      | some (e, c) => some ((s.newCtx e c f code dom fs fd (s.srcMode code) entry).leaveOthers e c entry)
      | none => none

/-- Every converter route in effect has a context, in the order of R265; none when an engine is lacking. -/
def State.allocCtxs (s : State) : List (Nat × Nat) → Option State
  | [] => some s
  | (t, i) :: rest =>
    match s.allocCtx t i with
    | none => none
    | some s' => s'.allocCtxs rest

/-- A word waits in the staging set of a take that is on its way (R55, R57). -/
def State.staged (s : State) (a : Nat) : Bool := s.grps.any fun g => g.2.staging.any fun p => p.1 == a

/-- Routes that no longer need a context leave it, those of a take on its way apart; a context without routes is released after `pulses` frame pulses of
its domain (R266). -/
def State.dropCtxs (s : State) (pulses : Nat) : State :=
  let keep := s.convRoutes
  allSlots.foldl (fun t p =>
    if t.slotUsed p.1 p.2 then
      let x := t.ctx p.1 p.2
      let rs := x.routes.filter fun r => ctxJoin ≤ r || s.staged (routeA (r / 4096) (r % 4096)) ||
        (keep.contains (r / 4096, r % 4096) && t.routeSrc (r / 4096) (r % 4096) == t.get (ctxA p.1 p.2) F.CTX_KEY_SRC
          && t.dstRate (r / 4096) (r % 4096) == t.get (ctxA p.1 p.2) F.CTX_KEY_DST_FRATE
          && t.dstDomain (r / 4096) (r % 4096) == t.get (ctxA p.1 p.2) F.CTX_KEY_DOMAIN)
      (t.setCtx p.1 p.2 { x with
        routes := rs
        release := if rs.isEmpty then (match x.release with | none => some pulses | some n => some n) else none }).ctxRefresh p.1 p.2
    else t) s

/-- Free a slot: it reads zero (R286), and an engine in fault mode that holds no context leaves it (R283). -/
def State.freeCtx (s : State) (e c : Nat) : State :=
  let t := (List.range 11).foldl (fun u k => u.wr (ctxA e c + 4 * k) 0) s
  let t := ((t.setCtx e c Ctx.empty).ctxRefresh e c).wr (ctxA e c + 4) 0
  let t := t.wr (ctxA e c + 0x10) 0
  let t := if t.slotUsed e 0 || t.slotUsed e 1 then t else (t.put (cvB e) F.CV_STAT_FAULT_MODE 0).live (cvB e) 0 false
  (t.cvCause e 1).poolRefresh

end Sys2Proof.Machine
end

