-- ==== Sys2Proof/Machine/Registers.lean ====
section
/-! DEFINITION. Host accesses, shadow writes and events: the commands of chapter 02 that act on one block's registers or
on the event and interrupt controller. -/

namespace Sys2Proof.Machine

/-- ABSENT_DIE_ACCESS for a host access to a die that does not answer; before step 6 of a start a populated Sheaf raises
nothing (R5, R531, R532). -/
def State.absentAccess (s : State) (die : Nat) : State :=
  s.raiseIf (!(s.populated die && !s.pwr.sheafsOut)) evcB 1

/-- A host write to a die: a write to slot 7 is discarded and one to an absent die too (R5, R13); otherwise it acts, and `t` is the state
after it. -/
def State.hostWrite (s : State) (die : Nat) (t : State) : State :=
  if die = 7 then (if s.present 7 then s else s.absentAccess 7).raise evcB 2
  else if s.present die then t
  else s.absentAccess die

/-- BAR0 address of an operand. -/
def regAddr (a : RegAddr) : Nat := addrOf a.die.val a.page.val (4 * a.word.val)
/-- Header address of the block that a block operand names by one of its pages. -/
def blkAddr (b : BlockAddr) : Nat := blockBase (addrOf b.die.val b.page.val 0)

/-- HOST_ACCESS_ABSENT_DIE (R5): a read returns all ones, a write is discarded. -/
def execHostAccessAbsentDie (a : RegAddr) (acc : Access) (s : State) : Host.Outcome State Fault Refusal :=
  .next (if s.present a.die.val then s
    else match acc with
      | .read => (s.absentAccess a.die.val).answer 0xFFFFFFFF
      | .write _ => s.hostWrite a.die.val s)

/-- HOST_WRITE_SLOT7 (R13): the write is discarded. -/
def execHostWriteSlot7 (_page : Fin 2048) (_word : Fin 1024) (_v : Word) (s : State) :
    Host.Outcome State Fault Refusal :=
  .next (s.hostWrite 7 s)

/-- ERR_LOC_READ (R49): the read returns the locator and clears STAT.FAULT. -/
def execErrLocRead (b : BlockAddr) (s : State) : Host.Outcome State Fault Refusal :=
  .next (if s.present b.die.val then (s.answer (s.rd ((blkAddr b) + 0x28))).put (blkAddr b) F.STAT_FAULT 0
    else (s.absentAccess b.die.val).answer 0xFFFFFFFF)

/-- A field of a word confined to a range. -/
def clampFld (lo width a b : Nat) (w : Word) : Word := fldSet w lo width (clampN a b (fldGet w lo width))

/-- The written word of a register whose table clamps a field, or reserves fields of codes that are no sources (R65, R152, R153, R185,
R215, R288, R308, R363, R521). -/
def clampReg (a : Nat) (w : Word) : Word :=
  let p := pageOf a
  let o := offOf a
  if dieOf a ≠ 0 then w
  else if p = 0x240 ∧ o = 0x40 then clampFld 0 10 95 1000 w
  else if p = 0x020 ∧ o = 0x44 then clampFld 10 6 0 60 (clampFld 0 10 0 600 w)
  else if p = 0x020 ∧ o = 0x48 then clampFld 16 14 1 10000 (clampFld 0 14 10 10000 w)
  else if p = 0x020 ∧ o = 0x4C then clampFld 0 10 1 1000 w
  else if p = 0x021 ∧ o % 64 = 4 then clampFld 16 10 1 1023 (clampFld 0 10 1 1000 w)
  else if p = 0x040 ∧ o = 0x40 then clampFld 16 16 100 20000 w
  else if p = 0x080 ∧ o = 0x44 then clampFld 0 18 10000 245000 w
  else if p = 0x230 ∧ o = 0x48 then clampFld 0 14 10 10000 w
  else if p = 0x1B9 ∨ p = 0x1BA then
    let c := (p - 0x1B9) * 0x800 + o / 2
    let m := (if isSource c then 0xFFFF else 0) + (if isSource (c + 1) then 0xFFFF0000 else 0)
    w &&& BitVec.ofNat 32 m
  else if p = 0x1C0 ∧ 0x800 ≤ o ∧ o < 0xA00 then
    let m := (List.range 16).foldl (fun m i => if isSource (4 * (o - 0x800) + i) then m + 3 * 4 ^ i else m) 0
    w &&& BitVec.ofNat 32 m
  else if 0x100 ≤ p ∧ p < 0x140 ∧ 4 ≤ p % 16 ∧ p % 16 < 8 ∧ o % 64 = 0xC then clampFld 0 13 6 4800 w
  else w

/-- The group that a shadow write is tagged with: the group field of the entry for the blocks that R52 names, otherwise
the block's COMMIT.GROUP (R52, R162, R216, R218, R317, R318, R361, R363, R364). `s` already holds the new word. -/
def State.groupOf (s : State) (a : Nat) : Nat :=
  let p := pageOf a
  let o := offOf a
  if dieOf a = 0 then
    if 0x041 ≤ p ∧ p ≤ 0x044 then s.get a F.ROUTE_CFG_GROUP
    else if p = 0x081 ∨ p = 0x082 then s.get a F.SRING_CFG_GROUP
    else if p = 0x085 ∨ p = 0x086 then s.get (a - o % 16) F.STORE_CFG_GROUP
    else if 0x100 ≤ p ∧ p < 0x140 then
      if 4 ≤ p % 16 ∧ p % 16 < 12 then s.get (a - o % 64) F.RX_CFG_GROUP
      else if p % 16 = 2 then
        -- channels of 32 bytes from 0x100, salts and packet numbers from 0x800 (R361)
        if o < 0x800 then s.get (a - o % 32) F.SC_CFG_GROUP
        else s.get (a - o + 0x100 + (o - 0x800) / 32 * 32) F.SC_CFG_GROUP
      else s.get (blockBase a) F.COMMIT_GROUP
    else if p = 0x180 then s.get a ⟨0, 19, 6⟩
    else if 0x181 ≤ p ∧ p ≤ 0x190 then s.get a ⟨0, 25, 6⟩
    else if 0x191 ≤ p ∧ p ≤ 0x1A0 then s.get (a - 0x10000) ⟨0, 25, 6⟩
    else if 0x1A1 ≤ p ∧ p ≤ 0x1B0 then s.get (a - 0x20000) ⟨0, 25, 6⟩
    else if 0x1B1 ≤ p ∧ p ≤ 0x1B4 then s.get a F.DEST_CFG_GROUP
    else s.get (blockBase a) F.COMMIT_GROUP
  else s.get (blockBase a) F.COMMIT_GROUP

/-- The block has untaken shadow writes of group n (R52). -/
def State.isMember (s : State) (base n : Nat) : Bool :=
  s.tags.any fun p => p.2 == n && blockBase p.1 == base

/-- The block is a member of a group that is armed and neither taken nor refused (R49, R52). -/
def State.memberOfArmed (s : State) (base : Nat) : Bool :=
  (List.range 64).any fun n =>
    let st := s.get (cgB n) F.CG_STAT_STATE
    if st = 0 then false
    else if st = 1 ∨ st = 3 then s.isMember base n
    else (s.grp n).members.contains base

/-- COMMIT_STAT.PENDING of a block (R49). -/
def State.pendingRefresh (s : State) (base : Nat) : State :=
  s.put base F.COMMIT_STAT_PENDING (b2n (s.memberOfArmed base))

/-- The shadow write of the bits of a mask, with its tag (R15, R52). -/
def State.shadowPut (s : State) (a : Nat) (v : Word) (mask : Nat) : State :=
  let t := s.wr a (clampReg a (mergeWord (s.rd a) v mask))
  (t.setTag a (t.groupOf a)).pendingRefresh (blockBase a)

/-- The shadow write of a register's RWS fields (R15, R52). -/
def State.shadowStore (s : State) (a : Nat) (v : Word) : State :=
  match rowOf a with
  | none => s
  | some r => if r.rws = 0 then s else s.shadowPut a v r.rws

/-- SHADOW_WRITE (R52): the RWS fields of a register. -/
def execShadowWrite (a : RegAddr) (v : Word) (s : State) : Host.Outcome State Fault Refusal :=
  .next (s.hostWrite a.die.val (s.shadowStore (regAddr a) v))

/-! Events and interrupts. -/

/-- EV_STICKY_CLEAR (R49): every bit written as 1 clears. -/
def execEvStickyClear (b : BlockAddr) (bits : Word) (s : State) : Host.Outcome State Fault Refusal :=
  .next (s.hostWrite b.die.val (
    (s.wr ((blkAddr b) + 0x10) (s.rd ((blkAddr b) + 0x10) &&& ~~~bits)).refreshBlock (blkAddr b) (bits.toNat &&& evMaskOf (blkAddr b))))

/-- EV_FORCE (R78): every bit written as 1 is raised. -/
def execEvForce (b : BlockAddr) (bits : Word) (s : State) : Host.Outcome State Fault Refusal :=
  .next (s.hostWrite b.die.val (
    s.forAll (List.range 32) fun k u => u.raiseIf (bitN (bits.toNat &&& evMaskOf (blkAddr b)) k) (blkAddr b) k))

/-- YUMEN_STICKY_CLEAR (R73). -/
def execYumenStickyClear (bits : BitVec 16) (s : State) : Host.Outcome State Fault Refusal :=
  let t := s.put evcB F.YUMEN_STICKY_BITS ((s.get evcB F.YUMEN_STICKY_BITS) &&& (0xFFFF - bits.toNat))
  .next (((List.range 16).foldl (fun u k => u.setEvg (496 + k) (u.evActive (496 + k))) t).refreshVecs)

/-- The oldest event of a die leaves the list of events on their way (R40). -/
def takeEvent (die : Nat) : List (Nat × Nat) → Option (Nat × List (Nat × Nat))
  | [] => none
  | p :: t =>
    if p.1 = die then some (p.2, t)
    else match takeEvent die t with
      | some (e, t') => some (e, p :: t')
      | none => none

/-- EVENT_MESSAGE (R40): the oldest event of a die reaches the controller; the pins, the vectors and MSI-X follow
(R71 to R77). -/
def execEventMessage (die : Fin 8) (s : State) : Host.Outcome State Fault Refusal :=
  .next (match takeEvent die.val s.irq.inFlight with
    | none => s
    | some (e, rest) => ({ s with irq := { s.irq with inFlight := rest } }).refreshEv e)

/-- MSIX_HOLDOFF_EXPIRY (R76): a message delayed by HOLDOFF is sent if its vector is still pending; a vector that is
masked by then keeps it as its PCIe pending bit (R77; DESIGN CHOICE, log 68). -/
def execMsixHoldoffExpiry (v : Fin 64) (s : State) : Host.Outcome State Fault Refusal :=
  let t := { s with irq := { s.irq with held := setBit s.irq.held v.val false, delayed := setBit s.irq.delayed v.val false } }
  .next (if bitN s.irq.held v.val && bitN s.irq.delayed v.val && bitN s.pending64 v.val then t.msixRequest v.val else t)

/-- VEC_ACK (R76): a vector that is still pending asks for a fresh message. -/
def execVecAck (v : Fin 64) (s : State) : Host.Outcome State Fault Refusal :=
  .next (if bitN s.pending64 v.val then s.msixRequest v.val else s)

/-- A vector unmasked or enabled sends the message its PCIe pending bit stands for, subject to HOLDOFF (R77). -/
def State.msixRelease (s : State) (v : Nat) : State :=
  if bitN s.pending64 v && s.is (gPage 0x012 + 4 * (v / 32)) ⟨0, v % 32, 1⟩ && !s.msixBlocked v then
    if bitN s.irq.held v then { s.setPba v false with irq := { s.irq with delayed := s.irq.delayed ||| 2 ^ v } }
    else s.msixSend v
  else s

/-- MSIX_UNMASK (R77). -/
def execMsixUnmask (u : Unmask) (s : State) : Host.Outcome State Fault Refusal :=
  .next (match u with
    | .vector v => (s.put (gPage 0x011 + 16 * v.val + 12) ⟨0, 0, 1⟩ 0).msixRelease v.val
    | .enable =>
      ({ s with irq := { s.irq with msixEnable := true, funcMask := false } }).forAll (List.range 64) fun v t =>
        t.msixRelease v)

end Sys2Proof.Machine
end

