-- ==== Sys2Proof/Machine/Timing.lean ====
section
/-! DEFINITION. The timing core (chapter 04): candidates and their quality levels, selection, holdover, the loop, the
time scale, and the part of the timing domains that needs no other block. -/

namespace Sys2Proof.Machine

/-- Update the state of the timing core. -/
def State.modTc (s : State) (f : Tc → Tc) : State := { s with tc := f s.tc }
/-- Timing domain d beside its registers. -/
def State.td (s : State) (d : Nat) : Td := tget Td.reset s.tds d
/-- Set timing domain d. -/
def State.setTd (s : State) (d : Nat) (x : Td) : State := { s with tds := tset Td.reset s.tds d x }
/-- A register read as a signed number. -/
def State.geti (s : State) (base : Nat) (f : Fld) : Int := sgn f.width (s.get base f)
/-- A register set to a signed number, confined to its range. -/
def State.puti (s : State) (base : Nat) (f : Fld) (v : Int) : State :=
  s.put base f (unsgn f.width (clampI (-(2 ^ (f.width - 1) : Nat)) ((2 ^ (f.width - 1) : Nat) - 1) v))

/-! Candidates. -/

/-- Effective steer in ppt. -/
def State.steer (s : State) : Int := s.geti tcB F.DCO_STEER_PPT
/-- The candidate is active, qualified, or serves its wait (R119, R120, R127). -/
def State.candActive (s : State) (c : Nat) : Bool := bitN s.tc.active c
def State.candQualified (s : State) (c : Nat) : Bool := bitN s.tc.qualified c
def State.candWaiting (s : State) (c : Nat) : Bool := bitN s.tc.waiting c
/-- Selected candidate (R128). -/
def State.sel (s : State) : Option Nat :=
  if s.is tcB F.TC_STAT_SEL_VALID then some (s.get tcB F.TC_STAT_SELECTED) else none
/-- Usable and eligible (R126). -/
def State.candUsable (s : State) (c : Nat) : Bool :=
  s.candQualified c && s.is (candB c) F.CAND_CFG_EN && !s.is (candB c) F.CAND_CFG_LOCKOUT
def State.candEligible (s : State) (c : Nat) : Bool := s.candUsable c && !s.candWaiting c
/-- Rank as one number: the quality level first (R126). -/
def State.candRank (s : State) (c : Nat) : Nat := s.get (candB c) F.CAND_STAT_QL * 16 + s.get (candB c) F.CAND_CFG_PRIORITY

/-- The frequency, jitter, level and family conditions of qualification hold (R120). -/
def State.candFit (s : State) (c : Nat) (m : CandMeas) : Bool :=
  let win : Int := 1000 * s.get (candB c) F.CAND_LIMIT_FREQ_WIN
  let abs := m.freq + roundDivI s.steer 1000
  (-win ≤ abs) && abs ≤ win && m.jit ≤ s.get (candB c) F.CAND_LIMIT_JIT_LIMIT && s.get (candB c) F.CAND_STAT_QL < 15
    && (!(candKind c == 0 || candKind c == 4) || s.is (candB c) F.CAND_STAT_FAMILY_VALID)

/-- CAND_STAT.STATE (R153). -/
def State.candState (s : State) (c : Nat) : Nat :=
  if !s.candActive c then 0
  else if s.sel = some c then 4
  else if !s.is (candB c) F.CAND_CFG_EN || s.is (candB c) F.CAND_CFG_LOCKOUT then 6
  else if s.candQualified c then (if s.candWaiting c then 2 else 3)
  else if s.candFit c ⟨s.geti (candB c) F.CAND_FREQ_PPB, s.get (candB c) F.CAND_JIT_NS, 0⟩ then 1
  else 5

/-- Holdover prediction past its limit (R137), as the event's live bit shows it. -/
def State.pastLimit (s : State) : Bool := s.is tcB ⟨0x1C, 6, 1⟩

/-- Quality level and holdover flag that outputs send (R125). -/
def State.sysQl (s : State) : Nat × Bool :=
  let st := s.get tcB F.TC_STAT_REF_STATE
  if st = 1 then (match s.sel with | some c => s.get (candB c) F.CAND_STAT_QL | none => 15, false)
  else if st = 2 then
    (if s.pastLimit then s.get tcB F.TC_QL_SPEC_LOST_QL else max s.tc.lastQl (s.get tcB F.TC_QL_HOLD_QL), true)
  else (15, false)

/-- Hop count that outputs send (R125). -/
def State.sysHop (s : State) : Nat :=
  match s.sel with
  | some c => if candKind c = 4 ∧ s.is (candB c) F.CAND_STAT_QL_FROM_MSG then min 255 (s.get (candB c) F.CAND_STAT_HOP + 1) else 0
  | none => 0

/-- Alignment point of a domain (R148): 1 frame marks, 2 reference time, 3 T. -/
def State.alignSrc (s : State) (d : Nat) : Nat :=
  if s.get tcB F.TC_STAT_REF_STATE ≠ 1 then 3
  else match s.sel with
    | none => 3
    | some c =>
      let k := candKind c
      if k = 1 ∨ k = 3 then 2
      else if (k = 0 ∨ k = 4) ∧ s.is (candB c) F.CAND_STAT_FAMILY_VALID
          ∧ s.get (candB c) F.CAND_STAT_FAMILY = s.get (tdB d) F.TD_CFG_FAMILY then 1
      else 3

/-- What follows from the state of the reference: pins, the level sent, live bits, the candidates' states and the
alignment source of every domain (R125, R143, R144, R148, R153). -/
def State.tcRefresh (s : State) : State :=
  let st := s.get tcB F.TC_STAT_REF_STATE
  let pins := if st = 1 then (if s.tc.specLow && s.is tcB F.TC_STAT_PULLING then 1 else 5)
    else if st = 2 then (if s.pastLimit then 2 else 6) else 0
  let t := (s.put tcB F.TC_STAT_PINS pins).put tcB F.TC_STAT_SYS_QL s.sysQl.1
  let t := ((t.live tcB 5 (st == 2)).live tcB 8 (st == 0)).live tcB 11 (s.tc.pairs != [])
  let t := if st = 2 then t else t.live tcB 6 false
  let t := t.forAll (List.range 16) fun c u => u.put (candB c) F.CAND_STAT_STATE (u.candState c)
  t.forAll (List.range 8) fun d u => u.put (tdB d) F.TD_STAT_ALIGN_SRC (u.alignSrc d)

/-- A candidate loses qualification: CAND_DOWN (R120). -/
def State.candDown (s : State) (c : Nat) : State :=
  if s.candQualified c then
    ((s.modTc fun t => { t with qualified := setBit t.qualified c false, waiting := setBit t.waiting c false }).put
      (candB c) F.CAND_WTR_LEFT 0).cause tcB F.CAND_CHANGE_DOWN c |>.raise tcB 3
  else s

/-- The effective quality level of a candidate (R121): QL_CHANGE where it changes, and loss of qualification at 15. -/
def State.setQl (s : State) (c ql : Nat) (fromMsg : Bool) : State :=
  let q := if s.candActive c then ql else 15
  let old := s.get (candB c) F.CAND_STAT_QL
  let t := (s.put (candB c) F.CAND_STAT_QL q).put (candB c) F.CAND_STAT_QL_FROM_MSG (b2n (fromMsg && s.candActive c))
  let t := t.raiseIf (q != old) tcB 13
  if q = 15 then t.candDown c else t

/-- The level that the PTP mapping table gives for the selected master of a port (R122). -/
def State.ptpQl (s : State) (c : Nat) : Nat :=
  let cls := s.get (candB c) F.CAND_PTP_CLOCK_CLASS
  let e := fldGet (s.rd (gPage 0x023 + 4 * (cls / 2))) (16 * (cls % 2)) 16
  min 15 (e % 16 + (if s.get (candB c) F.CAND_PTP_CLOCK_ACCURACY > e / 16 % 256 then e / 4096 else 0))

/-- The level of a candidate that does not come from a packet is taken again: after a write of QL_STATIC, of the mapping
table, or a new Announce (R121). -/
def State.requal (s : State) (c : Nat) : State :=
  if candKind c = 3 then s.setQl c (s.ptpQl c) true
  else if s.is (candB c) F.CAND_STAT_QL_FROM_MSG then s
  else s.setQl c (s.get (candB c) F.CAND_CFG_QL_STATIC) false

/-- An SDI-derived candidate's source can serve (R118); the port of a PTP candidate has its link (R119). -/
def State.candSrcOk (s : State) (c : Nat) : Bool :=
  if candKind c = 3 then s.is (ipB (c - 8) 0) F.PORT_STAT_LINK && !s.is (ipB (c - 8) 0) F.STAT_STOPPED
  else candKind c != 4 ||
    (let g := s.get (candB c) F.CAND_CFG_SRC
     g < 96 && s.present (g / 16 + 1) && !s.inMember g && s.get (inB g) F.IN_STAT_STATE == 3)

/-- Family of the frame marks of a candidate: of an SDI-derived one the family of the format of the input it names (R117). -/
def State.candFamily (s : State) (c : Nat) (family : Option (Fin 5)) : Option Nat :=
  if candKind c = 0 then family.map (·.val)
  else if candKind c = 4 then
    (let fr := s.get (inB (s.get (candB c) F.CAND_CFG_SRC)) F.IN_FMT_FRATE
     if fr ≤ 10 then some (familyOf fr) else none)
  else none

/-- CAND_ACTIVE (R119). -/
def execCandActive (c : Fin 16) (family : Option (Fin 5)) (khz96 : Bool) (s : State) :
    Host.Outcome State Fault Refusal :=
  .next (if s.candActive c.val || !s.candSrcOk c.val then s
    else
      let fam := s.candFamily c.val family
      let t := s.modTc fun t => { t with
        active := setBit t.active c.val true, khz96 := setBit t.khz96 c.val (khz96 && candKind c.val == 2) }
      let t := t.puts (candB c.val) [(F.CAND_STAT_FAMILY, fam.getD 0), (F.CAND_STAT_FAMILY_VALID, b2n fam.isSome)]
      (t.requal c.val).tcRefresh)

/-- A candidate stops being active (R119). -/
def State.candLost (s : State) (c : Nat) : State :=
  let t := (s.candDown c).modTc fun t => { t with active := setBit t.active c false }
  (t.puts (candB c) [(F.CAND_STAT_HOLD_FLAG, 0), (F.CAND_STAT_HOP, 0), (F.CAND_STAT_FAMILY_VALID, 0)]).setQl c 15 false
    |>.tcRefresh

/-- The SDI-derived candidates whose input no longer serves stop being active with it (R118, R119). -/
def State.candsFollow (s : State) : State :=
  s.forAll [12, 13, 14, 15] fun c t => if t.candActive c && !t.candSrcOk c then t.candLost c else t

/-- CAND_LOSS (R119). -/
def execCandLoss (c : Fin 16) (s : State) : Host.Outcome State Fault Refusal :=
  .next (if s.candActive c.val then s.candLost c.val else s)

/-- The measurements of a candidate as its registers show them (R120). -/
def State.candMeas (s : State) (c : Nat) (m : CandMeas) : State :=
  ((s.puti (candB c) F.CAND_FREQ_PPB m.freq).puti (candB c) F.CAND_ABS_PPB (m.freq + roundDivI s.steer 1000)).put
    (candB c) F.CAND_JIT_NS (min 0xFFFF m.jit)

/-- CAND_QUALIFY (R120, R127). -/
def execCandQualify (c : Fin 16) (m : CandMeas) (s : State) : Host.Outcome State Fault Refusal :=
  .next (if s.candActive c.val && !s.candQualified c.val && s.candFit c.val m then
      let w := s.get tcB F.TC_TIMES_WTR_S
      let wait := s.tc.everSel && w != 0
      let t := (s.candMeas c.val m).modTc fun t => { t with
        qualified := setBit t.qualified c.val true, waiting := setBit t.waiting c.val wait
        selHold := if s.get tcB F.TC_STAT_REF_STATE = 0 ∧ t.selHold = 0 then 1 else t.selHold }
      ((t.put (candB c.val) F.CAND_WTR_LEFT (if wait then w else 0)).cause tcB F.CAND_CHANGE_UP c.val |>.raise tcB 2).tcRefresh
    else s)

/-- CAND_DISQUALIFY (R120). -/
def execCandDisqualify (c : Fin 16) (why : QualLoss) (s : State) : Host.Outcome State Fault Refusal :=
  let win : Int := 1000 * s.get (candB c.val) F.CAND_LIMIT_FREQ_WIN
  let lost := match why with
    | .freq ppb => let a := ppb + roundDivI s.steer 1000; a < -win || win < a
    | .jitter ns => s.get (candB c.val) F.CAND_LIMIT_JIT_LIMIT < ns
    | .level => s.get (candB c.val) F.CAND_STAT_QL == 15
  .next (if s.candQualified c.val && lost then (s.candDown c.val).tcRefresh else s)

/-- WTR_EXPIRY (R127). -/
def execWtrExpiry (c : Fin 16) (s : State) : Host.Outcome State Fault Refusal :=
  .next (if s.candWaiting c.val then
      (((s.modTc fun t => { t with waiting := setBit t.waiting c.val false }).put (candB c.val) F.CAND_WTR_LEFT 0).raise
        tcB 4).tcRefresh
    else s)

/-- SELECT_HOLD_EXPIRY (R128). -/
def execSelectHoldExpiry (s : State) : Host.Outcome State Fault Refusal :=
  .next (if s.tc.selHold = 1 then s.modTc fun t => { t with selHold := 2 } else s)

/-! Reference Quality Packet (R123 to R125). -/

/-- One bit step of the CRC-8 with polynomial 0x07. -/
def crc8Step (c : Nat) : Nat := if c ≥ 128 then (2 * c % 256) ^^^ 7 else 2 * c
/-- CRC-8 of R123. -/
def crc8 (l : List Nat) : Nat := l.foldl (fun c b => (List.range 8).foldl (fun x _ => crc8Step x) (c ^^^ b)) 0xFF

/-- A packet reaches a candidate (R124). -/
def State.rqpTo (s : State) (c : Nat) (d : List Nat) : State :=
  let u (i : Nat) := d.getD i 0
  let t := s.put (candB c) F.CAND_RQP_VERSION (u 0)
  if d.length ≠ 8 ∨ u 7 ≠ crc8 (d.take 7) ∨ u 0 ≠ 1 ∨ u 1 / 32 ≠ 0 ∨ u 5 ≠ 0 ∨ u 6 ≠ 0 then
    (t.bump (candB c) F.CAND_RQP_ERRORS).raise tcB 14
  else
    let hop := s.get tcB F.TC_QL_HOP_MAX < u 4
    let t := t.puts (candB c) [(F.CAND_RQP_SOURCE_ID, u 2 + 256 * u 3), (F.CAND_STAT_HOP, u 4),
      (F.CAND_STAT_HOLD_FLAG, u 1 / 16 % 2)]
    ((t.raiseIf hop tcB 15).setQl c (if hop then 15 else u 1 % 16) true).tcRefresh

/-- A Reference Quality Packet of input g reaches the candidates mapped to it (R99, R124). -/
def State.rqp (s : State) (g : Nat) (data : List Byte) : State :=
  s.forAll [12, 13, 14, 15] fun c t =>
    if t.get (candB c) F.CAND_CFG_SRC == g then t.rqpTo c (data.map (·.toNat)) else t

/-- The bytes of the packet an output inserts (R123, R125). -/
def State.rqpBytes (s : State) (g : Nat) : List Byte :=
  let q := s.sysQl
  let id := s.get (outB g) F.OUT_RQP_SOURCE_ID
  let l := [1, q.1 + 16 * b2n q.2, id % 256, id / 256, s.sysHop, 0, 0]
  (l ++ [crc8 l]).map (BitVec.ofNat 8 ·)

/-- RQP_AGE_EXPIRY (R121). -/
def execRqpAgeExpiry (c : Fin 4) (s : State) : Host.Outcome State Fault Refusal :=
  let k := 12 + c.val
  .next (if s.is (candB k) F.CAND_STAT_QL_FROM_MSG then
      (((s.put (candB k) F.CAND_STAT_HOLD_FLAG 0).put (candB k) F.CAND_STAT_HOP 0).setQl k
        (s.get (candB k) F.CAND_CFG_QL_STATIC) false).tcRefresh
    else s)

/-! Temperature (R136). -/

/-- Reading of the selected temperature source in 1/16 °C; none while it is invalid. -/
def State.tcTemp (s : State) : Option Int :=
  let src := s.get tcB F.TC_CFG_TEMP_SRC
  if src = 5 then some (s.geti tcB F.TC_HOST_TEMP_VALUE)
  else
    let i := if src < 5 then src else 0
    let a := gPage 0x231 + 4 * i
    if s.is a F.TEMP_VALID then some (s.geti a F.TEMP_VALUE) else none

/-- C(T) in ppt: linear between the entries of the DCO temperature table, held at its ends (R136). -/
def dcoCorr (table : List Int) (t : Int) : Int :=
  let x := clampI 0 2048 (t + 160)
  let i := (x / 64).toNat
  let f := x % 64
  let e0 := table.getD i 0
  let e1 := table.getD (i + 1) e0
  -- 1/16 ppb is 62.5 ppt
  roundDivI ((e0 * (64 - f) + e1 * f) * 125) 128

/-- TEMP_VALID and TEMP_SRC_BAD follow the selected source (R136, R156). -/
def State.tempRefresh (s : State) : State :=
  let bad := s.tcTemp.isNone
  let t := (s.put tcB F.TC_STAT_TEMP_VALID (b2n !bad)).raiseIf (bad && !s.tc.tempBad) tcB 21
  t.modTc fun x => { x with tempBad := bad }

/-! Selection (R128 to R134). -/

/-- Mark period in ps as a fraction (R130). -/
def State.markPeriod (s : State) (c : Nat) : Nat × Nat :=
  let k := candKind c
  if k = 1 ∨ k = 3 then (10 ^ 12, 1)
  else if k = 2 then (10 ^ 12, if bitN s.tc.khz96 c then 96000 else 48000)
  else match s.get (candB c) F.CAND_STAT_FAMILY with
    | 0 => (1001 * 10 ^ 12, 24000)
    | 1 => (10 ^ 12, 24)
    | 2 => (10 ^ 12, 25)
    | 3 => (1001 * 10 ^ 12, 30000)
    | _ => (10 ^ 12, 30)

/-- A phase reduced into ±½ of a period `p.1 / p.2` ps. -/
def reducePhase (p : Nat × Nat) (x : Int) : Int :=
  let n : Int := x * (2 * p.2 : Nat) + p.1
  (n % (2 * p.1 : Nat) - (p.1 : Nat)) / (2 * p.2 : Nat)

/-- Integer square root, bit by bit from bit `k`. -/
def isqrtFrom : Nat → Nat → Nat → Nat
  | 0, _, r => r
  | k + 1, n, r => let c := r + 2 ^ k; isqrtFrom k n (if c * c ≤ n then c else r)
/-- Integer square root of numbers below 2 ^ 256. -/
def isqrt (n : Nat) : Nat := isqrtFrom 128 n 0

/-- Natural frequency of the loop in 10⁻¹² rad/s for a bandwidth in 1/409,600 Hz (R139): 2πB ÷ 2.5. -/
def loopWn (bw : Nat) : Int := (8 * 3141592653589793 * bw / (10 * 409600 * 1000) : Nat)

/-- The integrator after a change of bandwidth: the steer does not move (R140). -/
def State.rebase (s : State) (bw : Nat) (e : Int) : State :=
  s.modTc fun t => { t with bw := bw, integ := s.steer * 10 ^ 9 - 2 * loopWn bw * e / 1000 }

/-- A write of TRACK_BW while in TRACK changes the loop's bandwidth (R140). -/
def State.trackBwChanged (s : State) : State :=
  let bw := s.get tcB F.TC_BW_TRACK_BW * 4096
  if s.get tcB F.TC_STAT_LOOP = 3 ∧ bw ≠ s.tc.bw then s.rebase bw (s.tc.errs.headD 0) else s

/-- A switch to a candidate (R130): the held offset is captured and a pull starts. HOLDOVER_OUT is live from the end of a holdover
until the next one is entered (DESIGN CHOICE, log 53: R144 names no condition of its own). -/
def State.switchTo (s : State) (c : Nat) (phase : Int) : State :=
  let st := s.get tcB F.TC_STAT_REF_STATE
  let h := reducePhase (s.markPeriod c) phase
  let low := st == 0 || (st == 2 && s.pastLimit)
  let t := s.puts tcB [(F.TC_STAT_REF_STATE, 1), (F.TC_STAT_LOOP, 1), (F.TC_STAT_SELECTED, c), (F.TC_STAT_SEL_VALID, 1),
    (F.TC_STAT_PULLING, 1), (F.TC_STAT_HOLD_SHORT, 0), (F.TC_STAT_SLOPE_LIMITED, 0), (F.TC_STAT_SLEW_LIMITED, 0)]
  let t := ((t.puti tcB F.HELD_OFFSET_NS (roundDivI h 1000)).puti tcB F.PHASE_ERR_NS 0).put (candB c) F.CAND_WTR_LEFT 0
  let t := t.modTc fun x => { x with
    everSel := true, specLow := low, held := h, errs := [], lastQl := s.get (candB c) F.CAND_STAT_QL
    waiting := setBit x.waiting c false, forcedLost := false }
  let t := (t.rebase 20480000 0).raise tcB 0
  if st = 2 then (t.raise tcB 7).live tcB 7 true else t

/-- The base window's values of the history that is usable (R135): at most 60 values, the newest two seconds left out. -/
def State.window (s : State) : List (Int × Int) :=
  if s.tc.hist.length < 10 ∨ s.tc.ms ≥ s.tc.histAt + 3600000 then [] else (s.tc.hist.drop 2).take 60

/-- Entry to holdover (R135 to R137). -/
def State.enterHold (s : State) : State :=
  let w := s.window
  let n := w.length
  let sx := w.foldl (fun a p => a + p.1) (0 : Int)
  let sxx := w.foldl (fun a p => a + p.1 * p.1) (0 : Int)
  let base := if n = 0 then s.steer else roundDivI sx n
  let temp := match s.tcTemp with | some v => v | none => s.tc.tBase
  let tb := if n = 0 then temp else roundDivI (w.foldl (fun a p => a + p.2) (0 : Int)) n
  -- s in 10⁻⁶ ppb: population standard deviation over the square root of the count
  let sp := if n = 0 then 100000000 else isqrt (((n : Int) * sxx - sx * sx).toNat * 10 ^ 6 / n ^ 3)
  let t := s.puts tcB [(F.TC_STAT_REF_STATE, 2), (F.TC_STAT_LOOP, 4), (F.TC_STAT_SEL_VALID, 0), (F.TC_STAT_PULLING, 0),
    (F.TC_STAT_HOLD_SHORT, b2n (n == 0)), (F.HOLD_ELAPSED_SECONDS, 0), (F.HOLD_PRED_NS, 0),
    (F.HOLD_SPREAD_S, min 0xFFFF (roundDiv sp 10000)), (F.HOLD_SPREAD_COUNT, n), (F.TC_STAT_SLOPE_LIMITED, 0),
    (F.TC_STAT_SLEW_LIMITED, 0)]
  let t := (t.puti tcB F.DCO_HOLD_PPT base).modTc fun x => { x with
    tBase := tb, corr := 0, spread := sp, sumTemp := 0, specLow := false }
  (t.raise tcB 5).live tcB 7 false

/-- Entry to free-run (R134, R144). -/
def State.enterFree (s : State) : State :=
  if s.get tcB F.TC_STAT_REF_STATE = 0 then s
  else (s.puts tcB [(F.TC_STAT_REF_STATE, 0), (F.TC_STAT_LOOP, 0), (F.TC_STAT_SEL_VALID, 0), (F.TC_STAT_PULLING, 0),
    (F.TC_STAT_HOLD_SHORT, 0), (F.TC_STAT_SLOPE_LIMITED, 0), (F.TC_STAT_SLEW_LIMITED, 0)]).modTc
      (fun x => { x with selHold := if x.qualified = 0 then 0 else 1 }) |>.raise tcB 8

/-- Holdover, or free-run where no selection was ever made or the part is in free-run already (R135). -/
def State.holdOrFree (s : State) (lost : Bool) : State :=
  if !s.tc.everSel then s
  else if lost && s.get tcB F.TC_STAT_REF_STATE = 1 then s.enterHold else s

/-- The eligible candidate of best rank; the lower index of equals (R126). -/
def State.bestEligible (s : State) : Option Nat :=
  (List.range 16).foldl (fun b c =>
    if s.candEligible c then
      match b with
      | some x => if s.candRank c < s.candRank x then some c else b
      | none => some c
    else b) none

/-- Insertion into an ascending list of integers. -/
def insI (x : Int) : List Int → List Int
  | [] => [x]
  | y :: t => if x ≤ y then x :: y :: t else y :: insI x t

/-- The choice among eligible candidates that share the best rank (R129). -/
def State.tieBreak (s : State) (best : Nat) : Nat :=
  let l := (List.range 16).filter fun c => s.candEligible c && s.candRank c == s.candRank best
  if l.length < 3 then l.headD best
  else
    let v (c : Nat) := s.geti (candB c) F.CAND_ABS_PPB
    let o := l.foldl (fun a c => insI (v c) a) ([] : List Int)
    let n := o.length
    -- twice the median
    let m2 := if n % 2 = 1 then 2 * o.getD (n / 2) 0 else o.getD (n / 2 - 1) 0 + o.getD (n / 2) 0
    let dist (c : Nat) := (2 * v c - m2).natAbs
    l.foldl (fun b c => if dist c < dist b then c else b) (l.headD best)

/-- Evaluation in AUTO mode (R128). `ph` gives a candidate's phase. -/
def State.selectAuto (s : State) (ph : Nat → Int) : State :=
  let best := s.bestEligible
  let usable := match s.sel with | some c => s.candUsable c | none => false
  if usable then
    match s.sel, best with
    | some c, some b =>
      if s.is tcB F.TC_STAT_PULLING || !s.is tcB F.TC_CFG_REVERTIVE then s
      else if s.candRank b < s.candRank c then s.switchTo b (ph b) else s
    | _, _ => s
  else
    let lost := s.sel.isSome
    let t := (s.raiseIf lost tcB 1)
    match best with
    | none => t.holdOrFree lost
    | some b =>
      if t.get tcB F.TC_STAT_REF_STATE = 0 ∧ t.tc.selHold ≠ 2 then t
      else let c := t.tieBreak b; t.switchTo c (ph c)

/-- Evaluation in FORCED mode (R134): with its candidate not qualified the part enters holdover, from free-run too where a
selection was ever made (R135). -/
def State.selectForced (s : State) (ph : Nat → Int) : State :=
  let f := s.get tcB F.TC_CFG_FORCE_CAND
  if s.candQualified f then (if s.sel = some f then s else s.switchTo f (ph f))
  else
    let t := (s.raiseIf (s.sel == some f) tcB 1).raiseIf (!s.tc.forcedLost) tcB 16
    (if !s.tc.everSel || s.get tcB F.TC_STAT_REF_STATE == 2 then t else t.enterHold).modTc fun x => { x with forcedLost := true }

/-- The measurements of every active candidate (R120). -/
def State.measured (s : State) (m : List CandMeas) : State :=
  s.forAll (List.range 16) fun c u =>
    match m[c]? with
    | some x => if u.candActive c then u.candMeas c x else u
    | none => u

/-- The evaluation of the mode in force (R128, R134). -/
def State.evaluate (s : State) (ph : Nat → Int) : State :=
  match s.get tcB F.TC_CFG_MODE with
  | 0 => (s.selectAuto ph).modTc fun x => { x with forcedLost := false }
  | 1 => s.selectForced ph
  | 2 => (if s.get tcB F.TC_STAT_REF_STATE = 2 ∨ !s.tc.everSel then s else s.enterHold).modTc fun x => { x with forcedLost := false }
  | _ => s.enterFree.modTc fun x => { x with forcedLost := false }

/-- What follows an evaluation: pairs that no longer disagree are dropped (R133), and the level of the selected candidate is kept. -/
def State.evaluated (s : State) : State :=
  let apart (p : Nat) : Bool :=
    s.candQualified (p / 16) && s.candQualified (p % 16) && s.candRank (p / 16) == s.candRank (p % 16)
      && s.get tcB F.TC_DISAGREE_THRESH_PPB
          < (s.geti (candB (p / 16)) F.CAND_ABS_PPB - s.geti (candB (p % 16)) F.CAND_ABS_PPB).natAbs
  (s.modTc fun x => { x with
    pairs := x.pairs.filter apart
    lastQl := match s.sel with | some c => s.get (candB c) F.CAND_STAT_QL | none => x.lastQl }).tcRefresh

/-- SELECT_EVALUATION (R128). -/
def execSelectEvaluation (m : List CandMeas) (s : State) : Host.Outcome State Fault Refusal :=
  .next (if !s.tc.started then s
    else ((s.measured m).evaluate fun c => ((m[c]?).map (·.phase)).getD 0).evaluated)

/-- DISAGREE_DETECT (R133). -/
def execDisagreeDetect (a b : Fin 16) (s : State) : Host.Outcome State Fault Refusal :=
  let d := (s.geti (candB a.val) F.CAND_ABS_PPB - s.geti (candB b.val) F.CAND_ABS_PPB).natAbs
  .next (if a.val < b.val && s.candQualified a.val && s.candQualified b.val && s.candRank a.val == s.candRank b.val
      && s.get tcB F.TC_DISAGREE_THRESH_PPB < d then
      let t := s.puts tcB [(F.DISAGREE_PAIR_A, a.val), (F.DISAGREE_PAIR_B, b.val), (F.DISAGREE_PAIR_PPB, min 0xFFFFFF d)]
      let k := 16 * a.val + b.val
      ((t.modTc fun x => { x with pairs := if x.pairs.contains k then x.pairs else x.pairs ++ [k] }).raise tcB 11).tcRefresh
    else s)

/-! The loop (R139 to R142). -/

/-- The steer set, held at ±10⁹ ppt (R114). -/
def State.setSteer (s : State) (y : Int) : State :=
  let y' := clampI (-1000000000) 1000000000 y
  (s.puti tcB F.DCO_STEER_PPT y').raiseIf (y' != y) tcB 17

/-- A step of the steer toward a target, limited by FREQ_SLEW (R115). -/
def State.slew (s : State) (target : Int) : Int :=
  let d : Int := s.get tcB F.TC_SLOPE_FREQ_SLEW
  clampI (s.steer - d) (s.steer + d) target

/-- The steer in holdover: the base plus the temperature correction, held while the sensor is invalid (R136). -/
def State.holdSteer (s : State) : State :=
  let t := s.tempRefresh
  let t := match t.tcTemp with
    | some v => t.modTc fun x => { x with corr := dcoCorr x.dcoTable v - dcoCorr x.dcoTable x.tBase }
    | none => t
  t.setSteer (t.slew (t.geti tcB F.DCO_HOLD_PPT + t.tc.corr))

/-- A phase step moves into the held offset (R142). -/
def State.phaseStep (s : State) (e : Int) : State := (s.modTc fun x => { x with held := x.held + e }).raise tcB 12

/-- One update of the proportional-integral loop on a phase error (R139, R141, R142). -/
def State.piLoop (s : State) (c : Nat) (phase : Int) : State :=
  let lp := s.get tcB F.TC_STAT_LOOP
  let e0 := reducePhase (s.markPeriod c) (phase - s.tc.held)
  let stepped := lp != 1 && s.tc.errs.any fun x => 1000000 < (e0 - x).natAbs
  let s := if stepped then s.phaseStep e0 else s
  let e := if stepped then 0 else e0
  let wn := loopWn s.tc.bw
  let i := s.tc.integ + roundDivI (wn * wn * e) (10 ^ 18)
  let y0 := roundDivI (i + roundDivI (2 * wn * e) 1000) (10 ^ 9)
  let y1 := s.slew y0
  let f : Int := 1000 * s.geti (candB c) F.CAND_ABS_PPB
  let sl : Int := 1000 * s.get tcB F.TC_SLOPE_PHASE_SLOPE
  let y2 := clampI (f - sl) (f + sl) y1
  let p : Int := max 9000000 f.natAbs
  let y3 := if s.is tcB F.TC_STAT_PULLING then clampI (-p) p y2 else y2
  let y4 := clampI (-1000000000) 1000000000 y3
  let t := s.modTc fun x => { x with
    integ := if y4 = y0 then i else x.integ, errs := if stepped then [0] else (e :: x.errs).take 10 }
  let t := t.puts tcB [(F.TC_STAT_SLEW_LIMITED, b2n (y1 != y0)), (F.TC_STAT_SLOPE_LIMITED, b2n (y2 != y1))]
  ((t.puti tcB F.PHASE_ERR_NS (roundDivI e 1000)).puti tcB F.HELD_OFFSET_NS (roundDivI t.tc.held 1000)).setSteer y3

/-- One millisecond of the time scale; every second the waits count down (R116, R127). -/
def State.tcTick (s : State) : State :=
  let t := s.modTc fun x => { x with now := x.now + 1000000, ms := x.ms + 1 }
  if t.tc.ms % 1000 = 0 then t.forAll (List.range 16) fun c u =>
      if u.candWaiting c then u.put (candB c) F.CAND_WTR_LEFT (u.get (candB c) F.CAND_WTR_LEFT - 1) else u
    else t

/-- The steer of the state of the loop (R115, R136, R139). -/
def State.loopStep (s : State) (phase : Int) : State :=
  let lp := s.get tcB F.TC_STAT_LOOP
  if lp = 0 then s.setSteer (s.slew (s.geti tcB F.DCO_FREE_PPT))
  else if lp = 4 then s.holdSteer
  else match s.sel with
    | some c => s.piLoop c phase
    | none => s

/-- Rate of a slope realignment in ns/s (R150): PHASE_SLOPE, reduced so that the DCO's offset and the domain's together stay within
±9 ppm, and at least 10 ns/s. A domain that is late runs faster, one that is early slower. -/
def State.slopeRate (s : State) (d : Nat) : Int :=
  let toward := if 0 ≤ (s.td d).mis then s.steer else -s.steer
  max 10 (min (s.get tcB F.TC_SLOPE_PHASE_SLOPE : Int) ((9000000 - toward) / 1000))

/-- One millisecond of a slope realignment (R150). -/
def State.slopeStep (s : State) (d : Nat) : State :=
  if s.is (tdB d) F.TD_STAT_PULLING then
    let m := (s.td d).mis
    let step := 1000 * s.slopeRate d
    let m' := if m.natAbs ≤ step.toNat then 0 else if 0 ≤ m then m - step else m + step
    (s.setTd d { s.td d with mis := m' }).puti (tdB d) F.TD_MISALIGN_NS (Int.tdiv m' 1000000)
  else s

/-- LOOP_UPDATE (R139, R150). -/
def execLoopUpdate (phase : Int) (s : State) : Host.Outcome State Fault Refusal :=
  .next (if !s.tc.started then s else (s.tcTick.loopStep phase).forAll (List.range 8) fun d t => t.slopeStep d)

/-- The loop phase error is below 100 ns (R131, R140). -/
def State.errSmall (s : State) : Bool := s.tc.errs.all fun e => e.natAbs < 100000

/-- ACQUIRE_DONE (R140). -/
def execAcquireDone (s : State) : Host.Outcome State Fault Refusal :=
  .next (if s.get tcB F.TC_STAT_LOOP = 1 && s.errSmall then s.put tcB F.TC_STAT_LOOP 2 else s)

/-- PULL_COMPLETE (R131). -/
def execPullComplete (s : State) : Host.Outcome State Fault Refusal :=
  .next (if s.is tcB F.TC_STAT_PULLING && s.errSmall then
      (((s.put tcB F.TC_STAT_PULLING 0).modTc fun x => { x with specLow := false }).raise tcB 10).tcRefresh
    else s)

/-- BANDWIDTH_HALVING (R140). -/
def execBandwidthHalving (s : State) : Host.Outcome State Fault Refusal :=
  .next (if s.get tcB F.TC_STAT_LOOP = 2 then
      let half := s.tc.bw / 2
      let track := s.get tcB F.TC_BW_TRACK_BW * 4096
      let e := s.tc.errs.headD 0
      if half ≤ track then
        (((s.rebase track e).put tcB F.TC_STAT_LOOP 3).modTc fun x => { x with hist := [] }).raise tcB 9
      else s.rebase half e
    else s)

/-- HISTORY_SAMPLE (R135). -/
def execHistorySample (s : State) : Host.Outcome State Fault Refusal :=
  let temp := match s.tcTemp with | some v => v | none => ((s.tc.hist.head?).map (·.2)).getD 400
  .next (if s.get tcB F.TC_STAT_LOOP = 3 then
      s.tempRefresh.modTc fun x => { x with hist := ((s.steer, temp) :: x.hist).take 62, histAt := x.ms }
    else s)

/-- HOLDOVER_PREDICT (R137): E in 10⁻⁶ ns. -/
def execHoldoverPredict (s : State) : Host.Outcome State Fault Refusal :=
  .next (if s.get tcB F.TC_STAT_REF_STATE = 2 then
      let s := s.tempRefresh
      let dt := match s.tcTemp with | some v => (v - s.tc.tBase).natAbs | none => 0
      let sum := s.tc.sumTemp + dt
      let n := s.get tcB F.HOLD_ELAPSED_SECONDS + 1
      let e := (s.get tcB F.TC_HO_MODEL1_INIT * 10000 + s.tc.spread) * n
        + s.get tcB F.TC_HO_MODEL1_AGE * 10000 * n * n / 172800
        + s.get tcB F.TC_HO_MODEL2_TEMP_COEF * 10000 * sum / 16
      let past := s.get tcB F.TC_HO_LIMIT_LIMIT_NS * 10 ^ 6 < e
      let t := (s.modTc fun x => { x with sumTemp := sum }).puts tcB
        [(F.HOLD_ELAPSED_SECONDS, min 0xFFFFFFFF n), (F.HOLD_PRED_NS, min 0xFFFFFFFF (roundDiv e (10 ^ 6)))]
      ((t.raiseIf (past && !s.pastLimit) tcB 6).live tcB 6 (past || s.pastLimit)).tcRefresh
    else s)

/-- The entry of the DCO temperature table nearest the mean temperature of the last minute (R136). -/
def State.learnEntry (s : State) : Nat :=
  let w := s.tc.hist.take 60
  (clampI 0 32 ((roundDivI (w.foldl (fun a p => a + p.2) (0 : Int)) w.length + 160 + 32) / 64)).toNat

/-- What learning makes of that entry (R136): the mean steer in 1/16 ppb is its sum × 2 ÷ (125 n). -/
def State.learnValue (s : State) : Int :=
  let w := s.tc.hist.take 60
  let n := w.length
  let e := s.tc.dcoTable.getD s.learnEntry 0
  let sx := w.foldl (fun a p => a + p.1) (0 : Int)
  clampI (-32768) 32767 (e + roundDivI (2 * sx - 125 * (n : Int) * e) (1000 * n))

/-- DCO_TABLE_LEARN (R136). -/
def execDcoTableLearn (s : State) : Host.Outcome State Fault Refusal :=
  .next (if s.get tcB F.TC_STAT_LOOP = 3 && s.is tcB F.TC_CFG_LEARN && !s.tc.hist.isEmpty then
      s.modTc fun x => { x with dcoTable := x.dcoTable.set s.learnEntry s.learnValue }
    else s)

/-! The time scale (R116). -/

/-- A time in ns on the 48-bit scale of seconds (R116). -/
def onScale (x : Int) : Nat := (x % (2 ^ 48 * 10 ^ 9 : Nat)).toNat

/-- What reference time adds to T, in ns: the held offset of a selected PTP or 10 MHz/1PPS candidate (R116, R130). -/
def State.refAhead (s : State) : Int :=
  match s.sel with
  | some c => if candKind c = 1 ∨ candKind c = 3 then roundDivI s.tc.held 1000 else 0
  | none => 0

/-- Time as the TS registers read it (R116), `ns` after the last update. -/
def State.timeNow (s : State) (ns : Nat) : Nat := onScale ((s.tc.now + ns : Nat) + s.refAhead)

/-- TS_SET_ARM (R116). -/
def execTsSetArm (s : State) : Host.Outcome State Fault Refusal :=
  .next (s.modTc fun x => { x with tsSet := some (s.get tcB F.TS_SET_LO_VALUE + s.get tcB F.TS_SET_HI_VALUE * 2 ^ 32) })

/-- A 10 MHz/1PPS candidate is selected: its edge applies a captured setting (R116). -/
def State.ppsSelected (s : State) : Bool := match s.sel with | some c => candKind c == 1 | none => false

/-- How many ns after the last update a captured setting applies (R116): at a free value where the edge of the selected
10 MHz/1PPS candidate stands (log 82), or else at the next whole second of T. -/
def State.setPoint (s : State) : Nat :=
  if s.ppsSelected then (Config.freeValue s.freeCtr).toNat % 10 ^ 6 else (10 ^ 9 - s.tc.now % 10 ^ 9) % 10 ^ 9

/-- TS_SET_APPLY (R116), where that moment comes before the next update. The registers read the captured time there. -/
def execTsSetApply (s : State) : Host.Outcome State Fault Refusal :=
  .next (match s.tc.tsSet with
    | none => s
    | some v =>
      if s.setPoint < 10 ^ 6 then
        let ahead := if s.ppsSelected then s.refAhead else 0
        ((s.modTc fun x => { x with now := onScale ((v * 10 ^ 9 : Nat) - ahead - (s.setPoint : Nat)), tsSet := none }).raise tcB 20).tick
      else s)

/-- TS_SEC_READ (R152): the read latches TS_SEC_HI and TS_NS. -/
def execTsSecRead (ns : Fin 1000000) (s : State) : Host.Outcome State Fault Refusal :=
  let t := s.timeNow ns.val
  let sec := t / 10 ^ 9 % 2 ^ 48
  .next ((s.puts tcB [(F.TS_SEC_LO_VALUE, sec % 2 ^ 32), (F.TS_SEC_HI_VALUE, sec / 2 ^ 32), (F.TS_NS_VALUE, t % 10 ^ 9)]).answer
    (BitVec.ofNat 32 sec))

/-! Domains (R145 to R151). -/

/-- FRATE belongs to FAMILY, and FMT and FRATE form a pair of R82 (R146). -/
def State.tdCfgOk (s : State) (d : Nat) : Bool :=
  let fr := s.get (tdB d) F.TD_CFG_FRATE
  let fm := s.get (tdB d) F.TD_CFG_FMT
  let fm := if 1 ≤ fm ∧ fm ≤ 7 then fm else 6
  fr ≤ 10 && familyOf fr == s.get (tdB d) F.TD_CFG_FAMILY
    && ((rateClass fm fr false).isSome || (rateClass fm fr true).isSome)

/-- RUN acted on in a stopped domain (R146): it starts, or the check fails. -/
def State.tdStart (s : State) (d : Nat) : State :=
  if s.tdCfgOk d then
    (s.puts (tdB d) [(F.TD_CTRL_RUN, 1), (F.TD_STAT_STOPPED, 0)]).setTd d { s.td d with
      starting := true, stopping := false, cutPassed := false }
  else ((s.put (tdB d) F.TD_CTRL_RUN 0).refuseDirect tcB rcFormat).raise seqB 3

/-- TD_RUN_WRITE (R146). -/
def execTdRunWrite (d : Fin 8) (run : Bool) (s : State) : Host.Outcome State Fault Refusal :=
  .next (if run then
      if s.is (tdB d.val) F.TD_STAT_STOPPED then s.tdStart d.val else s.put (tdB d.val) F.TD_CTRL_RUN 1
    else
      let t := s.put (tdB d.val) F.TD_CTRL_RUN 0
      if s.is (tdB d.val) F.TD_STAT_STOPPED then t else t.setTd d.val { s.td d.val with stopping := true })

/-- Frame period of a domain in fs. -/
def State.tdFrameFs (s : State) (d : Nat) : Nat :=
  let r := rateOf (s.get (tdB d) F.TD_CFG_FRATE)
  10 ^ 15 * r.2 / r.1

/-- TD_ALIGN's offset in fs (R148). -/
def State.tdOffset (s : State) (d : Nat) : Nat :=
  let fm := s.get (tdB d) F.TD_CFG_FMT
  let fm := if 1 ≤ fm ∧ fm ≤ 7 then fm else 6
  let l := totalLinesOf fm
  let n := totalSamplesOf fm (s.get (tdB d) F.TD_CFG_FRATE)
  let li := s.get (tdB d) F.TD_ALIGN0_LINES
  let sa := s.get (tdB d) F.TD_ALIGN0_SAMPLES
  let li := if li < l then li else 0
  let sa := if sa < n then sa else 0
  s.tdFrameFs d * ((li * n + sa) * 256 + s.get (tdB d) F.TD_ALIGN1_FRAC) / (l * n * 256)

/-- TD_MISALIGN at a pulse that falls `fromPoint` fs after its alignment point (R148, R149). -/
def State.tdMeasure (s : State) (d : Nat) (fromPoint : Int) : State :=
  let p : Int := s.tdFrameFs d
  let m := (fromPoint - s.tdOffset d + p / 2) % p - p / 2
  ((s.setTd d { s.td d with mis := m }).puti (tdB d) F.TD_MISALIGN_NS (Int.tdiv m 1000000)).put (tdB d) F.TD_STAT_ALIGNED
    (b2n (m.natAbs < 1000000))

/-- A frame number whose cut-off has passed: 32-bit counters compared across their wrap (R151). -/
def State.cutOver (s : State) (d frame : Nat) : Bool :=
  let next := s.get (tdB d) F.TD_FRAME_COUNT + 1 + b2n (s.td d).cutPassed
  let k := (frame + 2 ^ 32 - next % 2 ^ 32) % 2 ^ 32
  k ≥ 2 ^ 31

/-- TD_REALIGN_GO (R150, R151). -/
def execTdRealignGo (d : Fin 8) (jump : Bool) (s : State) : Host.Outcome State Fault Refusal :=
  let b := tdB d.val
  let x := s.td d.val
  let t := s.put b F.TD_REALIGN_MODE (b2n jump)
  let named := s.get b F.TD_JUMP_FRAME_VALUE
  let busy := s.is b F.TD_STAT_PULLING || s.is b F.TD_STAT_JUMP_PENDING || x.jumped
  .next (if busy || s.is b F.TD_STAT_STOPPED || (jump && named != 0 && s.cutOver d.val named) then
      (t.put b F.TD_STAT_REALIGN_REFUSED 1).raise tcB 19
    else
      let t := t.put b F.TD_STAT_REALIGN_REFUSED 0
      if jump then
        let f := if named = 0 then (s.get b F.TD_FRAME_COUNT + 1 + b2n x.cutPassed) % 2 ^ 32 else named
        (t.put b F.TD_STAT_JUMP_PENDING 1).setTd d.val { x with jumpFrame := f, jumpIdle := false }
      else t.put b F.TD_STAT_PULLING 1)

/-- REALIGN_SLOPE_DONE (R150): the misalignment is below 1 ns. -/
def execRealignSlopeDone (d : Fin 8) (s : State) : Host.Outcome State Fault Refusal :=
  .next (if s.is (tdB d.val) F.TD_STAT_PULLING && (s.td d.val).mis.natAbs < 1000000 then
      (s.puts (tdB d.val) [(F.TD_STAT_PULLING, 0), (F.TD_STAT_ALIGNED, 1), (F.TD_MISALIGN_NS, 0)]).raise tcB 18
    else s)

/-- Outputs assigned to a domain on dies that answer. -/
def State.outputsOf (s : State) (d : Nat) : List Nat :=
  (List.range 96).filter fun g => s.present (g / 16 + 1) && s.get (outB g) F.OUT_CFG_DOMAIN == d

/-- REALIGN_JUMP (R150): every output of the domain sends quiet until the new pulse. -/
def execRealignJump (d : Fin 8) (s : State) : Host.Outcome State Fault Refusal :=
  let x := s.td d.val
  .next (if s.is (tdB d.val) F.TD_STAT_JUMP_PENDING && s.get (tdB d.val) F.TD_FRAME_COUNT == x.jumpFrame then
      let t := (s.put (tdB d.val) F.TD_STAT_JUMP_PENDING 0).setTd d.val { x with jumped := true }
      t.forAll (s.outputsOf d.val) fun g u =>
        if u.get (outB g) F.OUT_STAT_STATE = 3 then u else (u.put (outB g) F.OUT_STAT_STATE 0).put (outB g) F.OUT_STAT_RATE 0
    else s)

end Sys2Proof.Machine
end

