-- ==== Sys2Proof/Machine/Sources.lean ====
section
/-! DEFINITION. What several blocks share of routes, rings and stores: whether a source delivers (R92, R172), a route's
margin and path (R165 to R171), the status words of rings and stores (R217, R219), and the sums that the Floor and the
Silo report (R182, R208). -/

namespace Sys2Proof.Machine

/-! Records beside the registers. -/

/-- A route at reset. -/
def RouteX.idle : RouteX := ⟨false, false, 0, 0, 0, false, 0, false, false, false⟩
/-- Route i of table t beside ROUTE_STAT. -/
def State.route (s : State) (t i : Nat) : RouteX := tget RouteX.idle s.floor.routes (t * 4096 + i)
def State.setRoute (s : State) (t i : Nat) (x : RouteX) : State :=
  { s with floor := { s.floor with routes := tset RouteX.idle s.floor.routes (t * 4096 + i) x } }
/-- A ring that holds nothing. -/
def Ring.empty : Ring := ⟨[], 0, none, 0, 0, 0, false⟩
/-- Ring or store by key: the source code, or 0x600 + store. -/
def State.ring (s : State) (key : Nat) : Ring := tget Ring.empty s.silo.rings key
def State.setRing (s : State) (key : Nat) (x : Ring) : State :=
  { s with silo := { s.silo with rings := tset Ring.empty s.silo.rings key x } }
/-- An empty buffer. -/
def Buf.empty : Buf := ⟨0, 0, 0, 0, [], [], 0, 0, [], [], false⟩
/-- A buffer that holds no frame any more: its bins and its readers stay. -/
def Buf.clear (b : Buf) : Buf := { Buf.empty with bins := b.bins, readers := b.readers, gone := b.gone }
/-- A receiver at reset. -/
def Rx.idle : Rx := ⟨none, 0, 0, false, none, 0, none, false, 0, [], 0, 0, false, 5, none, 0, none, none, false, false⟩
def State.rx (s : State) (g : Nat) : Rx := tget Rx.idle s.sdiRx g
def State.setRx (s : State) (g : Nat) (x : Rx) : State := { s with sdiRx := tset Rx.idle s.sdiRx g x }
/-- A transmitter at reset. -/
def Tx.idle : Tx := ⟨false, none, false, false, false, [], [], false, false, 0, []⟩
def State.tx (s : State) (g : Nat) : Tx := tget Tx.idle s.sdiTx g
def State.setTx (s : State) (g : Nat) (x : Tx) : State := { s with sdiTx := tset Tx.idle s.sdiTx g x }
/-- A de-embedder at reset. -/
def Deemb.idle : Deemb := ⟨0, 0, [], 0⟩
/-- A layer and a composer at reset. -/
def LayerSt.empty : LayerSt := ⟨[], [], [], none, [], false, none, false, false, false, none, none, none, none⟩
def Comp.empty : Comp := ⟨[], [], [], 0, none⟩
def State.comp (s : State) (g : Nat) : Comp := tget Comp.empty s.comps g
def State.setComp (s : State) (g : Nat) (x : Comp) : State := { s with comps := tset Comp.empty s.comps g x }
def State.layer (s : State) (g k : Nat) : LayerSt := (s.comp g).layers.getD k LayerSt.empty
def State.setLayer (s : State) (g k : Nat) (l : LayerSt) : State :=
  let c := s.comp g
  let ls := if c.layers.length < 4 then List.replicate 4 LayerSt.empty else c.layers
  s.setComp g { c with layers := ls.set k l }

/-- The destination's ledger is that of the frame in progress: a command of its next frame begins with the marks of the
last one gone (R201, R309). -/
def State.frameRoll (s : State) (t i : Nat) : State :=
  let d := destKey t i
  if tget false s.floor.done d then
    let s := { s with floor := { s.floor with done := tset false s.floor.done d false } }
    let rs : List (Nat × Nat) := if t = 0 then (List.range 4).map fun k => (0, 4 * (i / 4) + k) else [(t, i)]
    rs.foldl (fun u p => u.setRoute p.1 p.2 { u.route p.1 p.2 with slip := false, jump := false }) s
  else s

/-! Route events (R186). -/

/-- An event of a route, named in FL_LAST (R185, R186). -/
def State.routeEvent (s : State) (t i bit : Nat) : State :=
  (s.raise flB bit).puts flB [(F.FL_LAST_ROUTE, i), (F.FL_LAST_TABLE, t), (F.FL_LAST_EVENT, bit)]

/-- An event of a ring, store or route, named in SILO_LAST; `table` as SILO_CAUSE.TABLE (R215, R220). -/
def State.siloEvent (s : State) (table i bit : Nat) : State :=
  (s.raise siloB bit).puts siloB [(F.SILO_LAST_INDEX, i), (F.SILO_LAST_TABLE, table), (F.SILO_LAST_EVENT, bit)]

/-- Table and index of a ring or store as SILO_CAUSE gives them. -/
def ringTable (key : Nat) : Nat × Nat := if srcIsStore key then (1, key - 0x600) else (0, key)
/-- SILO_CAUSE.TABLE of a route table. -/
def routeTable (t : Nat) : Nat := 2 + t

/-- Enabled routes of a table that name a source. -/
def State.enabled (s : State) (t : Nat) : List Nat :=
  (s.entries t).filterMap fun p =>
    if s.effIs (routeA t p.1) F.ROUTE_CFG_EN && s.routeSrc t p.1 != 0xFFF then some p.1 else none

/-- Enabled routes of every table, as table and index. -/
def State.allRoutes (s : State) : List (Nat × Nat) :=
  [0, 1, 2].flatMap fun t => (s.enabled t).map fun i => (t, i)

/-! Sources. -/

/-- The epoch of a source (R91, R219, R245, R335). -/
def State.srcEpoch (s : State) (c : Nat) : Nat :=
  if srcIsSdi c then s.get (inB c) F.IN_STAT_EPOCH
  else if srcIsIp c then s.get (rxA (c - 0x100)) F.RX_STAT_EPOCH
  else if srcIsStore c then s.get (storeStatA (c - 0x600)) F.STORE_STAT_EPOCH
  else if srcIsWb c then (s.comp (c - 0x800)).wbEpoch
  else 0

/-- An SDI input stream is present (R92, R97, R98). -/
def State.inPresent (s : State) (g : Nat) : Bool :=
  s.present (g / 16 + 1) && !s.inMember g && !s.is (inB g) F.STAT_STOPPED && s.get (inB g) F.IN_STAT_STATE == 3
    && !s.is (inB g) F.IN_STAT_UNSUP && (s.rx g).frames != 0 && (!s.inBonded g || (s.rx g).group)

/-- Buffers of a ring that hold a complete frame: those given up only while there is no other (R207). -/
def Ring.complete (r : Ring) : List Buf :=
  let l := r.bufs.filter (·.st == 2)
  if l.all (·.gone) then l else l.filter fun b => !b.gone
/-- Sequence of the newest complete frame; 0 for none. -/
def Ring.newest (r : Ring) : Nat := r.complete.foldl (fun m b => max m b.seq) 0

/-- Buffers given up leave the ring once nobody holds them, none is being written, and a newer frame is complete (R192, R207). -/
def Ring.tidy (r : Ring) : Ring :=
  { r with bufs := r.bufs.filter fun b => !(b.gone && b.readers.isEmpty && b.st != 1 && !(b.st == 2 && b.seq == r.newest)) }

/-- A route's frames are shown: it is enabled, fed and not suspended, and not shed, or shed and not yet stopped (R183). -/
def State.routeShows (s : State) (t i : Nat) : Bool :=
  s.effIs (routeA t i) F.ROUTE_CFG_EN && s.routeSrc t i != 0xFFF && !s.is (routeStatA t i) F.ROUTE_STAT_SUSPENDED
    && (!s.is (routeStatA t i) F.ROUTE_STAT_SHED || (s.route t i).due == 4)

/-- The write-back of an output is on (R245). -/
def State.wbOn (s : State) (g : Nat) : Bool :=
  s.present (g / 16 + 1) && !s.outMember g
    && (s.get (compB g) F.COMP_CFG_WB_MODE == 1 || s.get (compB g) F.COMP_CFG_WB_MODE == 2)

/-- A source that a check finds present (R92, R164): an IP receive context that is receiving, a store that is configured,
a write-back that is on. -/
def State.srcPresent (s : State) (c : Nat) : Bool :=
  if srcIsSdi c then s.inPresent c
  else if srcIsIp c then s.get (rxA (c - 0x100)) F.RX_STAT_STATE == 2
  else if srcIsStore c then s.effGet (storeA (c - 0x600)) F.STORE_CFG_KIND != 0
  else srcIsWb c && s.wbOn (c - 0x800)

/-- The source delivers frames (R172): a ring store while its writer does and it holds a frame, a still that holds a
frame, a surface always, a write-back while its output runs (R245). -/
def State.srcDelivers (s : State) (c : Nat) : Bool :=
  if srcIsStore c then
    let k := s.effGet (storeA (c - 0x600)) F.STORE_CFG_KIND
    if k = 3 then true else if k = 0 then false
    else if k = 2 then (s.ring c).newest != 0 else (s.ring c).newest != 0 && (s.ring c).delivering
  else if srcIsWb c then s.srcPresent c && !s.is (outB (c - 0x800)) F.STAT_STOPPED
  else s.srcPresent c

/-- Live bits of ROUTE_SUSPENDED, SOURCE_LOST and FINANO_LINK_DOWN (R186). -/
def State.floorLive (s : State) : State :=
  let rs := s.allRoutes
  let s := s.live flB 2 (rs.any fun p => s.is (routeStatA p.1 p.2) F.ROUTE_STAT_SUSPENDED)
  let s := s.live flB 4 (rs.any fun p => !s.srcDelivers (s.routeSrc p.1 p.2))
  s.live flB 6 ((List.range 6).any fun k => s.populated (k + 1) && s.get flB ⟨0x80, 4 * k, 4⟩ != 15)

/-! Rings and stores (R200, R217, R219). -/

/-- The status words of a ring or store. -/
def State.siloStat (s : State) (key : Nat) : State :=
  let r := s.ring key
  let bins := (s.binsOf key).2
  let new := r.newest
  let valid := min 7 r.complete.length
  if srcIsStore key then
    let i := key - 0x600
    let a := storeStatA i
    let k := s.effGet (storeA i) F.STORE_CFG_KIND
    let fmt := s.srcFmt key
    let p := match fmt with | some f => pitchOf f.w f.bpp | none => 0
    let st := if k = 0 then 0 else if k = 3 then 1 else if new = 0 then 3
      else if k = 2 then 2 else if s.effIs (storeA i) F.STORE_CFG_FREEZE then 2 else 1
    s.puts a [(F.STORE_STAT_STATE, st), (F.STORE_STAT_VALID, if k = 3 then s.storeDepth i else valid),
      (F.STORE_STAT_BASE_BIN, if k = 3 then bins.headD 0x3FFFF else 0x3FFFF), (F.STORE_STAT_BINS, bins.length),
      (F.STORE_STAT_PITCH, if k = 0 then 0 else p), (F.STORE_STAT_LPB, if k = 0 ∨ p = 0 then 0 else lpbOf p)]
  else
    let a := sringStatA key
    let st := if bins.isEmpty then 0 else if s.effIs (sringA key) F.SRING_CFG_FREEZE then 2
      else if s.srcDelivers key then 1 else 3
    let ep := match r.bufs.find? fun b => b.st == 2 && b.seq == new with | some b => b.epoch | none => s.get a F.SRING_STAT_EPOCH
    s.puts a [(F.SRING_STAT_STATE, st), (F.SRING_STAT_VALID, valid), (F.SRING_STAT_BINS, bins.length),
      (F.SRING_STAT_EPOCH, ep)]

/-- Rings and stores that are no longer needed give up their bins and their frames (R191 to R193, R217, R219). -/
def State.dropRings (s : State) (domain : Nat) (pulses : Nat := 2) : State :=
  (s.silo.bins.map (·.1)).foldl (fun u k =>
    if (u.binsOf k).2.isEmpty && !(u.ring k).bufs.isEmpty then
      (u.setRing k { u.ring k with bufs := [], capture := none }).siloStat k
    else u) (s.dropUnneeded domain pulses)

/-! Lines on their way (R23 to R25). -/

/-- A source's lines cross to Granary: some route, store or kept ring uses it (R27). -/
def State.streamUsed (s : State) (c : Nat) : Bool :=
  [0, 1, 2].any (fun t => (s.active t).any fun i => s.routeSrc t i == c) || s.keptRings.contains c

/-- A line leaves its Sheaf for Granary. -/
def State.lineOut (s : State) (c : Nat) (l : FlLine) : State :=
  if s.streamUsed c then { s with floor := { s.floor with toG := tset [] s.floor.toG c (tget [] s.floor.toG c ++ [l]) } } else s

/-- The first line of a number and frame count that has not arrived arrives, flagged missing where the link lost it. -/
def arrive (line frame : Nat) (bad : Bool) : List FlLine → List FlLine
  | [] => []
  | x :: t =>
    if x.line = line ∧ x.frame = frame ∧ !x.arrived then
      { x with arrived := true, missing := x.missing || bad, words := if bad then [] else x.words } :: t
    else x :: arrive line frame bad t

/-- Lines that have arrived with every line before them, and the rest (R25). -/
def inOrder (l : List FlLine) : List FlLine × List FlLine := (l.takeWhile (·.arrived), l.dropWhile (·.arrived))

/-! Source loss (R172). -/

/-- The routes of a source see it stop: SOURCE_OK clears and SOURCE_LOST is raised, once for each loss; `was`: the source delivered, so
that this is a new loss also for a route that has not resumed since the last. -/
def State.routesLose (s : State) (c : Nat) (was : Bool) : State :=
  (s.allRoutes.filter fun p => s.routeSrc p.1 p.2 == c).foldl (fun u p =>
    if (u.route p.1 p.2).lost && !was then u
    else ((u.setRoute p.1 p.2 { u.route p.1 p.2 with lost := true }).put (routeStatA p.1 p.2) F.ROUTE_STAT_SOURCE_OK 0).routeEvent
      p.1 p.2 4) s

/-- A source's epoch has changed: no route receives frames in the epoch it accepted (R163, R174). -/
def State.epochMoves (s : State) (c : Nat) : State :=
  (s.allRoutes.filter fun p => s.routeSrc p.1 p.2 == c).foldl (fun u p =>
    u.put (routeStatA p.1 p.2) F.ROUTE_STAT_SOURCE_OK 0) s

/-- What a context holds when its source stops: the frames that are complete, none of them new to what comes after (R280). -/
def Ctx.held (x : Ctx) : Ctx :=
  { x with pics := (x.pics.filter (·.done)).map fun (p : CvPic) => { p with fresh := false } }

/-- The converter contexts of a source that stops delivering hold what they have (R280). -/
def State.contextsHold (s : State) (c : Nat) : State :=
  allSlots.foldl (fun u p =>
    if u.slotUsed p.1 p.2 && u.get (ctxA p.1 p.2) F.CTX_KEY_SRC == c then
      (u.setCtx p.1 p.2 (u.ctx p.1 p.2).held).put (ctxA p.1 p.2) F.CTX_STAT_STATE 3
    else u) s

/-- A ring store stops delivering, and its readers lose it (R172). -/
def State.storeStops (s : State) (i : Nat) : State :=
  let k := 0x600 + i
  if (s.ring k).delivering then
    (((s.setRing k { s.ring k with delivering := false }).routesLose k true).contextsHold k).siloStat k
  else s

/-- The ring stores that a route of a source writes stop delivering (R172). -/
def State.storesLose (s : State) (c : Nat) : State :=
  ((s.enabled 2).filter fun i => s.routeSrc 2 i == c && s.effGet (storeA i) F.STORE_CFG_KIND == 1).foldl State.storeStops s

/-- A source stops delivering, as it did if `was`. A frame of its ring in progress is cut short (R200). -/
def State.sourceStops (s : State) (c : Nat) (was : Bool) : State :=
  let cut (u : State) (k : Nat) : State :=
    let r := u.ring k
    if r.bufs.any (fun b => b.st == 1 && b.src == c) then
      u.setRing k { r with bufs := r.bufs.map fun b => if b.st = 1 ∧ b.src = c then b.clear else b }
    else u
  let s := s.silo.rings.foldl (fun u p => cut u p.1) s
  let s := ((s.routesLose c was).contextsHold c).storesLose c
  let s := if srcIsStore c then s else s.siloStat c
  s.floorLive

/-! Lead, margin and path (R165 to R171). -/

/-- The parity of the active lines of a field or segment (R565). -/
def fieldParity (fmt field : Nat) : Int := if fmt = 1 then 1 - (field : Int) else field

/-- Margin in fs of one raster or field: `lead0` in fs between active lines 0, `lo` and `ls` line periods, `ds` duration
of a source line, `n` the bound in lines, `rows` destination lines; the rectangle and the window in that field's lines. -/
def marginOf (lead0 : Int) (lo ls ds n : Nat) (rows y0 hd cy hs : Int) : Option Int :=
  let first := max 0 y0
  let last := min rows (y0 + hd) - 1
  if last < first ∨ hd ≤ 0 then none
  else
    let nOf (i : Int) : Int := if hd = hs then i - y0 else min (hs - 1) ((i - y0 + 1) * hs / hd + 3)
    let lead (i : Int) : Int := lead0 + i * lo - (cy + nOf i) * ls
    let m (i : Int) : Int := min (lead i - (ds + 1500000000)) ((n * lo : Nat) + 1500000000 - lead i)
    some (min (m first) (m last))

/-- The rectangle's top and height and the window's top and height of a layer, in frame lines (R224). -/
def State.layerRows (s : State) (g k srcH : Nat) : Int × Int × Int × Int :=
  let b := layB g k
  let cy : Int := s.effGet b F.LAYER_CROP_POS_CY
  let ch := s.effGet b F.LAYER_CROP_SIZE_CH
  let hs : Int := if ch = 0 then srcH - cy else ch
  let hd : Int := if k < 2 then s.effGet b F.LAYER_SIZE_HD else hs
  (sgn 16 (s.effGet b F.LAYER_POS_Y0), hd, cy, hs)

/-- Destination format and rate codes of a route. -/
def State.dstFmt (s : State) (t i : Nat) : Nat := if t = 0 then s.get (outB (i / 4)) F.OUT_CFG_FMT else s.effGet (txA i) ⟨4, 0, 8⟩

/-- A route that the first four conditions of R165 leave a candidate for cut-through: the source's format. -/
def State.cutCandidate (s : State) (t i : Nat) : Option SrcFmt :=
  let c := s.routeSrc t i
  if t < 2 ∧ s.effIs (routeA t i) F.ROUTE_CFG_EN ∧ srcIsSdi c ∧ !s.effIs (routeA t i) F.ROUTE_CFG_FORCE_STORE
      ∧ !s.inMember c then
    match s.srcFmt c with
    | some f => if f.frate = some (s.dstRate t i) ∧ f.scan = scanOf (s.dstFmt t i) then some f else none
    | none => none
  else none

/-- Margin of a route in fs (R166, R167); none where it is no candidate or nothing is measured yet. -/
def State.margin (s : State) (t i : Nat) : Option Int :=
  match s.cutCandidate t i with
  | none => none
  | some f =>
    match s.floor.phases.find? fun p => p.1 == destKey t i * 128 + s.routeSrc t i with
    | none => none
    | some ph =>
      let df := s.dstFmt t i
      let fr := s.dstRate t i
      let lo := activeLineFs df fr
      let ls := activeLineFs f.fmt fr
      let ds := activeDurFs f.fmt fr
      let dh : Int := (activeOf df).2
      let g : Int × Int × Int × Int := if t = 0 then s.layerRows (i / 4) (i % 4) f.h else (0, dh, 0, dh)
      let n := if t = 0 ∧ g.2.1 ≠ g.2.2.2 then 10 else 2
      if f.scan = 0 then marginOf (ph.2.1 * 1000) lo ls ds n dh g.1 g.2.1 g.2.2.1 g.2.2.2
      else
        let half (p y : Int) : Int := (y - p + 1) / 2
        let one (field : Nat) (lead : Int) : Option Int :=
          let pd := fieldParity df field
          let ps := fieldParity f.fmt field
          let y0 := half pd g.1
          let cy := half ps g.2.2.1
          marginOf (lead * 1000) lo ls ds n (dh / 2) y0 (half pd (g.1 + g.2.1) - y0) cy (half ps (g.2.2.1 + g.2.2.2) - cy)
        match one 0 ph.2.1, one 1 ph.2.2 with
        | some a, some b => some (min a b)
        | _, _ => none

/-- GUARD_NS in fs. -/
def State.guardFs (s : State) : Int := 1000000 * s.get flB F.FL_CFG_GUARD_NS

/-- The margin is at least GUARD_NS. -/
def State.windowOk (s : State) (t i : Nat) : Bool :=
  match s.margin t i with
  | some m => s.guardFs ≤ m
  | none => false

/-- FL_MARGIN's word of a layer route (R184). -/
def State.marginWord (s : State) (t i : Nat) : Word :=
  match s.margin t i with
  | some m => BitVec.ofInt 32 (clampI (-2147483647) 2147483647 (roundDivI m 1000000))
  | none => 0x80000000

/-- FL_MARGIN and WINDOW_OK of a route (R163, R167). -/
def State.marginRefresh (s : State) (t i : Nat) : State :=
  let s := s.put (routeStatA t i) F.ROUTE_STAT_WINDOW_OK (b2n (s.windowOk t i))
  if t = 0 then s.wr (gPage 0x046 + 4 * i) (s.marginWord 0 i) else s

/-- The path of a route as its commit or re-check chooses it (R165): 1 cut-through, 2 stored, 3 through a converter. -/
def State.choosePath (s : State) (t i : Nat) : Nat :=
  if t = 2 then 2
  else if s.isConv t i then 3
  else if s.windowOk t i then 1 else 2

/-- The engine of the context that serves a converter route. -/
def State.routeEngine (s : State) (t i : Nat) : Nat :=
  match allSlots.find? fun p => (s.ctx p.1 p.2).routes.contains (t * 4096 + i) with
  | some p => p.1
  | none => 0

/-- A route whose state in effect is set anew: its path, as chosen at the cut-off, engine, epoch and whether its source delivers (R163,
R165, R170); a cut-through route of a frozen source is carried on the stored path (R204). -/
def State.routeSettle (s : State) (t i : Nat) : State :=
  let a := routeStatA t i
  let c := s.routeSrc t i
  if !s.effIs (routeA t i) F.ROUTE_CFG_EN || c == 0xFFF then
    let s := (s.setRoute t i RouteX.idle).wr a 0
    if t = 0 then (s.wr (gPage 0x045 + 4 * i) 0xFFFFFFFF).wr (gPage 0x046 + 4 * i) 0x80000000
    else if t = 1 then s.wr (gPage 0x047 + 4 * i) 0xFFFFFFFF else s
  else
    let x := s.route t i
    let ok := s.srcDelivers c
    let q := if x.chosen = 0 then s.choosePath t i else x.chosen
    let frozen := q == 1 && s.effIs (sringA c) F.SRING_CFG_FREEZE
    let p := if frozen then 2 else q
    (s.puts a [(F.ROUTE_STAT_PATH, p), (F.ROUTE_STAT_FALLBACK, 0), (F.ROUTE_STAT_SOURCE_OK, b2n ok),
      (F.ROUTE_STAT_EPOCH, if srcIsSdi c then s.srcEpoch c else 0), (F.ROUTE_STAT_SUSPENDED, 0),
      (F.ROUTE_STAT_SUSPEND_CODE, 0), (F.ROUTE_STAT_ENGINE, if p = 3 then s.routeEngine t i else 0)]).setRoute t i
        { x with epoch := s.srcEpoch c, lost := !ok, good := 0, due := 0, chosen := 0, wasCut := frozen } |>.marginRefresh t i

/-! Sums (R182, R208, R214, R215). -/

/-- WN_RATE_EFF (R385): the rebuild rate, held so that the admission sum stays within SILO_LIMIT; otherwise WN_RATE. -/
def State.wnRate (s : State) : State :=
  let r :=
    if s.is wnB F.WN_REBUILD_STAT_ACTIVE then
      let used := s.admission - s.skTerm + 1500
      min (s.get wnB F.WN_REBUILD_STRIPES) ((s.get siloB F.SILO_LIMIT_MBPS - used) * 10 ^ 6 / 1536)
    else if !s.is wnB F.WN_CFG_EN then 0
    else if s.get wnB F.WN_RATE_STRIPES = 0 then ceilDiv (s.get siloB F.SILO_BINS_TOTAL_COUNT * 3277) 86400
    else s.get wnB F.WN_RATE_STRIPES
  s.put wnB F.WN_RATE_EFF_STRIPES r

/-- The load of every Sheaf direction, the terms and the sum of memory admission, the bins and the contexts in use, with
the events and live bits that follow them (R182, R186, R208, R211, R220). -/
def State.sumsRefresh (s : State) : State :=
  let s := s.wnRate.forAll (List.range 6) fun k u =>
    (u.put (flB + 8 * k) F.FL_LOAD_TX_MBPS (min 0xFFFFF (s.txLoad (k + 1)))).put (flB + 8 * k) F.FL_LOAD_RX_MBPS
      (min 0xFFFFF (s.rxLoad (k + 1)))
  let rd := s.readCtx.length
  let wrc := s.writeCtx
  let passes := (460 < rd && s.get flB F.FL_CTX_READ_USED ≤ 460) || (230 < wrc && s.get flB F.FL_CTX_WRITE_USED ≤ 230)
  let s := (s.put flB F.FL_CTX_READ_USED rd).put flB F.FL_CTX_WRITE_USED wrc
  let s := (s.raiseIf passes flB 10).live flB 10 (460 < rd || 230 < wrc)
  let a := s.admission
  let terms := [sumN (s.wTerms.map (·.2)), s.vTerm, s.uTerm, s.cTerm, s.skTerm]
  let s := (s.put siloB F.SILO_SUM_MBPS (min 0xFFFFF a)).forAll (List.range 5) fun k u =>
    u.put (siloB + 4 * k) F.SILO_TERM_MBPS (min 0xFFFFF (terms.getD k 0))
  let tooMuch := s.get siloB F.SILO_LIMIT_MBPS < a
  let s := (s.raiseIf (tooMuch && !s.is siloB ⟨0x1C, 10, 1⟩) siloB 10).live siloB 10 tooMuch
  let free := s.freeBins
  let low := 32 * free < s.get siloB F.SILO_BINS_TOTAL_COUNT
  let s := (s.put siloB F.SILO_BINS_FREE_COUNT free).put siloB F.SILO_BINS_RUN_COUNT
    (s.freeRuns.foldl (fun m r => max m r.2) 0)
  (s.raiseIf (low && !s.is siloB ⟨0x1C, 2, 1⟩) siloB 2).live siloB 2 low

end Sys2Proof.Machine
end

