-- ==== Sys2Proof/Machine/Floor.lean ====
section
/-! DEFINITION. The Floor (chapter 05): route entries, margins, fallback and return, source loss, Finano links and
shedding. What a take does with routes stands in Commit. -/

namespace Sys2Proof.Machine

/-- Bits of ROUTE_CFG that are not reserved (R161). -/
def routeMask (table : Nat) : Nat := if table < 2 then 0x83F7FFFF else 0x83F47FFF

/-- ROUTE_CFG_WRITE (R162): one shadow write, tagged with the entry's own GROUP. -/
def execRouteCfgWrite (table : Fin 3) (entry : Fin 1024) (v : Word) (s : State) : Host.Outcome State Fault Refusal :=
  .next (if entry.val < routeN table.val then s.hostWrite 0 (s.shadowPut (routeA table.val entry.val) v (routeMask table.val))
    else s)

/-- A change of latency is announced on the frame where the new value first applies (R181, R309). -/
def State.latencyChange (s : State) (t i : Nat) : State :=
  if t < 2 then
    let s := s.frameRoll t i
    (s.setRoute t i { s.route t i with jump := true }).routeEvent t i 9
  else s

/-- The routes that a measurement of SDI source `src` against a destination serves. -/
def destRoutes : Dest → List (Nat × Nat)
  | .output g => (List.range 4).map fun k => (0, 4 * g.val + k)
  | .ip c => [(1, c.val)]

/-- RETURN_FRAMES; 0 acts as 1 (R185). -/
def State.returnFrames (s : State) : Nat := max 1 (s.get flB F.FL_CFG_RETURN_FRAMES)

/-- A route's margin is taken anew in an output frame (R167): frames on fallback in which it is at or above GUARD_NS are counted (R169). -/
def State.marginTick (s : State) (t i : Nat) : State :=
  let s := s.marginRefresh t i
  let x := s.route t i
  if s.is (routeStatA t i) F.ROUTE_STAT_FALLBACK then
    s.setRoute t i { x with good := if s.windowOk t i then x.good + 1 else 0 }
  else s

/-- A route stands in the frame to come as it stands now: it is neither suspended nor shed, and no take on its way replaces it. -/
def State.stays (s : State) (t i : Nat) : Bool :=
  !s.is (routeStatA t i) F.ROUTE_STAT_SUSPENDED && !s.is (routeStatA t i) F.ROUTE_STAT_SHED && !s.staged (routeA t i)

/-- The path of a route is evaluated at the cut-off of a frame, after its groups (R168 to R170): a fallback is due below a tenth of GUARD_NS,
a return after RETURN_FRAMES frames at or above GUARD_NS, not while the source is frozen (R204). -/
def State.pathDue (s : State) (t i : Nat) : State :=
  let a := routeStatA t i
  let x := s.route t i
  match s.margin t i with
  | none => s
  | some m =>
    if !s.stays t i then s
    else if s.get a F.ROUTE_STAT_PATH = 1 then
      if 10 * m < s.guardFs ∧ x.due = 0 then s.setRoute t i { x with due := 1 } else s
    else if s.is a F.ROUTE_STAT_FALLBACK && !s.effIs (sringA (s.routeSrc t i)) F.SRING_CFG_FREEZE then
      if s.is flB F.FL_CFG_AUTO_RETURN && s.returnFrames ≤ x.good then s.setRoute t i { x with due := 2 }
      else if x.due = 2 ∧ m < s.guardFs then s.setRoute t i { x with due := 0 } else s
    else s

/-- WINDOW_MEASURE (R167). -/
def execWindowMeasure (src : Fin 96) (dst : Dest) (lead0 lead1 : Int) (s : State) : Host.Outcome State Fault Refusal :=
  let key := (match dst with | .output g => g.val | .ip c => 128 + c.val) * 128 + src.val
  let t := { s with floor := { s.floor with phases := tset (0, 0) s.floor.phases key (lead0, lead1) } }
  .next (((destRoutes dst).filter fun p =>
      t.effIs (routeA p.1 p.2) F.ROUTE_CFG_EN && t.routeSrc p.1 p.2 == src.val).foldl (fun u p => u.marginTick p.1 p.2) t)

/-- ROUTE_FALLBACK (R168): the route moves to the stored path with one repeated frame. -/
def execRouteFallback (table : Fin 2) (entry : Fin 1024) (s : State) : Host.Outcome State Fault Refusal :=
  let t := table.val
  let i := entry.val
  let x := s.route t i
  .next (if i < routeN t && x.due == 1 && s.get (routeStatA t i) F.ROUTE_STAT_PATH == 1 then
      let s := (((s.puts (routeStatA t i) [(F.ROUTE_STAT_PATH, 2), (F.ROUTE_STAT_FALLBACK, 1)]).setRoute t i
        { x with due := 0, good := 0 }).routeEvent t i 0).latencyChange t i
      s.setRoute t i { s.route t i with slip := true }
    else s)

/-- ROUTE_RETURN (R169): back to cut-through at the next switching line. -/
def execRouteReturn (table : Fin 2) (entry : Fin 1024) (s : State) : Host.Outcome State Fault Refusal :=
  let t := table.val
  let i := entry.val
  let x := s.route t i
  .next (if i < routeN t && x.due == 2 && s.is (routeStatA t i) F.ROUTE_STAT_FALLBACK then
      (((s.puts (routeStatA t i) [(F.ROUTE_STAT_PATH, 1), (F.ROUTE_STAT_FALLBACK, 0)]).setRoute t i
        { x with due := 0, good := 0 }).routeEvent t i 1).latencyChange t i
    else s)

/-- FL_REEXAMINE (R169): of routes that are neither suspended nor shed, whose source is not frozen (R204). -/
def execFlReexamine (domains : BitVec 8) (s : State) : Host.Outcome State Fault Refusal :=
  .next (s.hostWrite 0 (
    ((s.allRoutes).filter fun p => p.1 < 2 && s.is (routeStatA p.1 p.2) F.ROUTE_STAT_FALLBACK
      && bitN domains.toNat (s.dstDomain p.1 p.2) && s.windowOk p.1 p.2 && s.stays p.1 p.2
      && !s.effIs (sringA (s.routeSrc p.1 p.2)) F.SRING_CFG_FREEZE).foldl (fun u p =>
        u.setRoute p.1 p.2 { u.route p.1 p.2 with due := 2 }) s))

/-- ROUTE_SOURCE_RESUME (R172). -/
def execRouteSourceResume (table : Fin 3) (entry : Fin 1024) (s : State) : Host.Outcome State Fault Refusal :=
  let t := table.val
  let i := entry.val
  let a := routeStatA t i
  let x := s.route t i
  let c := s.routeSrc t i
  .next (if i < routeN t && s.effIs (routeA t i) F.ROUTE_CFG_EN && x.lost && s.srcDelivers c && s.srcEpoch c == x.epoch
      && !s.is a F.ROUTE_STAT_SUSPENDED && !s.is a F.ROUTE_STAT_SHED then
      let s := (s.setRoute t i { x with lost := false }).put a F.ROUTE_STAT_SOURCE_OK 1
      let s := if s.get a F.ROUTE_STAT_PATH = 1 ∧ !s.windowOk t i then
          s.puts a [(F.ROUTE_STAT_PATH, 2), (F.ROUTE_STAT_FALLBACK, 1)] else s
      let s := if t = 0 then s.setLayer (i / 4) (i % 4) { s.layer (i / 4) (i % 4) with fed := true } else s
      (s.latencyChange t i).floorLive
    else s)

/-! Shedding (R183, R212). -/

/-- Insertion into a list of (key, value) in ascending key. -/
def insKey (k : Nat) (v : Nat × Nat) : List (Nat × (Nat × Nat)) → List (Nat × (Nat × Nat))
  | [] => [(k, v)]
  | p :: t => if k ≤ p.1 then (k, v) :: p :: t else p :: insKey k v t

/-- Routes in ascending order of a key. -/
def orderBy (key : Nat × Nat → Nat) (l : List (Nat × Nat)) : List (Nat × Nat) :=
  (l.foldl (fun acc p => insKey (key p) p acc) []).map (·.2)

/-- Active routes of every table. -/
def State.activeRoutes (s : State) : List (Nat × Nat) := [0, 1, 2].flatMap fun t => (s.active t).map fun i => (t, i)

/-- Timing domain of a route: its destination's, or its group's for a store route (R174, R183). -/
def State.routeDomain (s : State) (t i : Nat) : Nat :=
  if t < 2 then s.dstDomain t i else s.get (cgB (s.effGet (routeA t i) F.ROUTE_CFG_GROUP)) F.CG_CFG_DOMAIN

/-- Priority of a route. -/
abbrev State.prio (s : State) (t i : Nat) : Nat := s.effGet (routeA t i) F.ROUTE_CFG_PRIO

/-- What a route leaves behind when it stops counting: contexts and bins that nothing else needs (R191, R266). -/
def State.routeLeaves (s : State) (t i : Nat) : State := (s.dropCtxs 2).dropRings (s.routeDomain t i)

/-- A route is shed by the Floor (R183) or by the Silo (R212); it stops at its next take line. -/
def State.shedRoute (s : State) (t i : Nat) (bySilo : Bool) : State :=
  let x := s.route t i
  let s := (s.put (routeStatA t i) F.ROUTE_STAT_SHED 1).setRoute t i
    { x with floorShed := x.floorShed || !bySilo, siloShed := x.siloShed || bySilo, due := 4 }
  let s := if bySilo then s.siloEvent (routeTable t) i 7 else s.routeEvent t i 7
  (if t = 2 then s.storeStops i else s).routeLeaves t i

/-- Finano rate that a route's stream has in a direction (R26): as delivered, or as the Sheaf sends it. -/
def State.finRate (s : State) (dir t i : Nat) : Nat :=
  match s.srcFmt (s.routeSrc t i) with
  | some f => streamMbps f (if dir = 0 then s.dstRate t i else f.frate.getD 0)
  | none => 0

/-- Routes that use a direction of a Sheaf: its layers, or the routes of its inputs and write-backs (R27). -/
def State.finRoutes (s : State) (sheaf dir : Nat) : List (Nat × Nat) :=
  s.activeRoutes.filter fun p =>
    if dir = 0 then p.1 == 0 && p.2 / 64 + 1 == sheaf
    else
      let c := s.routeSrc p.1 p.2
      (srcIsSdi c && c / 16 + 1 == sheaf) || (srcIsWb c && (c - 0x800) / 16 + 1 == sheaf)

/-- Load of a Sheaf direction. -/
def State.finLoad (s : State) (sheaf dir : Nat) : Nat := if dir = 0 then s.txLoad sheaf else s.rxLoad sheaf

/-- Shed routes of a Sheaf direction until its load fits (R183): ascending PRIO, then the larger rate, then the higher index; routes of
different tables that these leave equal in the order store, IP transmit, layer (DESIGN CHOICE, log 67). -/
def State.shedFinano (s : State) (sheaf dir : Nat) : State :=
  let key (p : Nat × Nat) : Nat :=
    (s.prio p.1 p.2 * 2 ^ 32 + (2 ^ 32 - 1 - s.finRate dir p.1 p.2)) * 2 ^ 16 + (2 ^ 16 - 1 - (4 * p.2 + (2 - p.1)))
  ((orderBy key (s.finRoutes sheaf dir)).foldl (fun u p =>
    if u.finBudget sheaf dir < u.finLoad sheaf dir then u.shedRoute p.1 p.2 false else u) s).sumsRefresh.floorLive

/-- The admission sum without a route (R212). -/
def State.admissionWithout (s : State) (t i : Nat) : Nat :=
  ((s.put (routeStatA t i) F.ROUTE_STAT_SHED 1).dropCtxs 2).admission

/-- Shed the routes whose memory load goes first until the sum fits the limit; `fuel` bounds the number of routes (R212). -/
def State.shedMemoryFrom : Nat → State → State
  | 0, s => s
  | fuel + 1, s =>
    if s.admission ≤ s.get siloB F.SILO_LIMIT_MBPS then s
    else
      let key (p : Nat × Nat) : Nat :=
        (s.prio p.1 p.2 * 2 ^ 32 + s.admissionWithout p.1 p.2) * 2 ^ 16 + p.1 * 2 ^ 12 + (2 ^ 12 - 1 - p.2)
      match (orderBy key s.activeRoutes).head? with
      | none => s
      | some p => State.shedMemoryFrom fuel (s.shedRoute p.1 p.2 true)

/-- Shedding on memory (R212). -/
def State.shedMemory (s : State) : State :=
  (State.shedMemoryFrom s.activeRoutes.length s).sumsRefresh.floorLive

/-! Finano links (R30, R537). -/

/-- FL_LINKS bit of a link. -/
def linkBit (sheaf : Nat) (toSheaf : Bool) (link : Nat) : Fld := ⟨0x80, 4 * (sheaf - 1) + 2 * b2n (!toSheaf) + link, 1⟩

/-- A slot of a Sheaf that answers. -/
def State.sheafUp (s : State) (sheaf : Nat) : Bool := 1 ≤ sheaf && sheaf ≤ 6 && s.present sheaf

/-- Key of a link and of a direction in the Floor's tables. -/
def linkKey (sheaf : Nat) (toSheaf : Bool) (link : Nat) : Nat := sheaf * 4 + 2 * b2n (!toSheaf) + link
def dirKey (sheaf : Nat) (toSheaf : Bool) : Nat := sheaf * 2 + b2n (!toSheaf)

/-- FINANO_LINK_FAIL (R537). -/
def execFinanoLinkFail (sheaf : Fin 8) (toSheaf : Bool) (link : Fin 2) (_why : LinkFail) (s : State) :
    Host.Outcome State Fault Refusal :=
  .next (if s.sheafUp sheaf.val && s.is flB (linkBit sheaf.val toSheaf link.val) then
      let s := (s.put flB (linkBit sheaf.val toSheaf link.val) 0).raise flB 6
      { s with floor := { s.floor with
          moved := tset false s.floor.moved (dirKey sheaf.val toSheaf) false
          tested := tset false s.floor.tested (linkKey sheaf.val toSheaf link.val) false } }.floorLive
    else s)

/-- Exactly one link of a direction is up. -/
def State.oneLink (s : State) (sheaf : Nat) (toSheaf : Bool) : Bool :=
  s.is flB (linkBit sheaf toSheaf 0) != s.is flB (linkBit sheaf toSheaf 1)

/-- LINK_MOVE (R30, R183): the surviving link carries every line of the direction, and routes are shed until it fits. -/
def execLinkMove (sheaf : Fin 8) (toSheaf : Bool) (s : State) : Host.Outcome State Fault Refusal :=
  .next (if s.sheafUp sheaf.val && s.oneLink sheaf.val toSheaf && !tget false s.floor.moved (dirKey sheaf.val toSheaf) then
      ({ s with floor := { s.floor with moved := tset false s.floor.moved (dirKey sheaf.val toSheaf) true } }).shedFinano
        sheaf.val (b2n (!toSheaf))
    else s)

/-- FINANO_LINK_TEST (R537). -/
def execFinanoLinkTest (sheaf : Fin 8) (toSheaf : Bool) (link : Fin 2) (uncorrectable : Nat) (s : State) :
    Host.Outcome State Fault Refusal :=
  .next (if s.sheafUp sheaf.val && !s.is flB (linkBit sheaf.val toSheaf link.val) then
      { s with floor := { s.floor with
          tested := tset false s.floor.tested (linkKey sheaf.val toSheaf link.val) (uncorrectable == 0) } }
    else s)

/-- FINANO_LINK_RESTORE (R537): both links carry lines again. -/
def execFinanoLinkRestore (sheaf : Fin 8) (toSheaf : Bool) (link : Fin 2) (s : State) : Host.Outcome State Fault Refusal :=
  .next (if s.sheafUp sheaf.val && !s.is flB (linkBit sheaf.val toSheaf link.val)
      && tget false s.floor.tested (linkKey sheaf.val toSheaf link.val) then
      let s := s.put flB (linkBit sheaf.val toSheaf link.val) 1
      { s with floor := { s.floor with
          moved := tset false s.floor.moved (dirKey sheaf.val toSheaf) false
          tested := tset false s.floor.tested (linkKey sheaf.val toSheaf link.val) false } }.floorLive
    else s)

end Sys2Proof.Machine
end

