-- ==== Sys2Proof/Machine/Memory.lean ====
section
/-! DEFINITION. The memory subsystem (chapter 11): stored words, the light code and the strong code, reads and writes of
stripes, the poison table, channel failure and rebuild, Winnow, raw mode and the self-test. -/

namespace Sys2Proof.Machine

/-! Stored bytes. -/

/-- What an unlisted byte reads as: the zero pass of a start (R388) leaves zero data with its check byte 0x5A (R373). -/
def memDefault (k : Nat) : Byte := if k % 16 = 8 then 0x5A else 0

/-- Key of byte `b` (8: the check byte) of word `w` of channel `c`. -/
def cellKey (c w b : Nat) : Nat := (16 * w + c) * 16 + b

/-- A stored byte. -/
def cellGet (m : List Host.Cell) (k : Nat) : Byte := tget (memDefault k) m k
/-- A stored byte replaced. -/
def cellSet (m : List Host.Cell) (k : Nat) (v : Byte) : List Host.Cell := tset (memDefault k) m k v

/-- Bytes stored from a key upwards. -/
def cellsSet : List Host.Cell → Nat → List Byte → List Host.Cell
  | m, _, [] => m
  | m, k, v :: t => cellsSet (cellSet m k v) (k + 1) t

/-- A word as stored: data and check byte. -/
def wordGet (m : List Host.Cell) (c w : Nat) : Nat × Nat :=
  (ofLe ((List.range 8).map fun b => cellGet m (cellKey c w b)), (cellGet m (cellKey c w 8)).toNat)

/-- A word stored. -/
def wordSet (m : List Host.Cell) (c w d chk : Nat) : List Host.Cell :=
  cellsSet m (cellKey c w 0) (leBytes 8 d ++ [BitVec.ofNat 8 chk])

/-! The light code (R373, R374). -/

/-- Code positions of the data bits: 1 to 71 without the powers of two (R373). -/
def dataPos : List Nat :=
  (List.range 72).filter fun p => p != 0 && p != 1 && p != 2 && p != 4 && p != 8 && p != 16 && p != 32 && p != 64

/-- Parity of the low `n` bits. -/
def parity (n v : Nat) : Bool := (List.range n).foldl (fun p i => p != v.testBit i) false

/-- Exclusive or of the positions of the data bits that are 1: bits 0 to 6 are C[0] to C[6] (R373). -/
def checkLow (d : Nat) : Nat :=
  ((List.range 64).zip dataPos).foldl (fun c p => if d.testBit p.1 then c ^^^ p.2 else c) 0

/-- The check bits C of a word (R373). -/
def checkOf (d : Nat) : Nat := checkLow d + 128 * b2n (parity 64 d != parity 7 (checkLow d))

/-- Outcome of a word's decoding. -/
inductive Light where
  | good
  | corrected
  | bad
deriving DecidableEq, Repr

/-- Decode a stored word (R374): data, syndrome, parity and outcome. -/
def lightDecode (d stored : Nat) : Nat × Nat × Bool × Light :=
  let c := stored ^^^ 0x5A
  let s := (c % 128) ^^^ checkLow d
  let p := parity 64 d != parity 8 c
  if s = 0 then (d, s, p, if p then .corrected else .good)
  else if !p then (d, s, p, .bad)
  else if 71 < s then (d, s, p, .bad)
  else
    match ((List.range 64).zip dataPos).find? (fun q => q.2 == s) with
    | some q => (d ^^^ 2 ^ q.1, s, p, .corrected)
    | none => (d, s, p, .corrected)

/-! The strong code (R376, R377). -/

/-- Product by α in GF(2⁸) (R376). -/
def gfDouble (a : Nat) : Nat := if a < 128 then 2 * a else (2 * a) ^^^ 0x11D
/-- Product in GF(2⁸). -/
def gfMul (a b : Nat) : Nat :=
  ((List.range 8).foldl (fun (acc : Nat × Nat) i => (if b.testBit i then acc.1 ^^^ acc.2 else acc.1, gfDouble acc.2)) (0, a)).1
/-- Power of α. -/
def gfAlpha : Nat → Nat
  | 0 => 1
  | n + 1 => gfDouble (gfAlpha n)
/-- Inverse in GF(2⁸): the 254th power. -/
def gfInv (a : Nat) : Nat := (List.range 253).foldl (fun x _ => gfMul x a) a

/-- Syndromes of a codeword (R377). -/
def gfSyn (c : List Nat) : Nat × Nat :=
  (c.foldl (· ^^^ ·) 0, ((List.range c.length).zip c).foldl (fun a p => a ^^^ gfMul p.2 (gfAlpha p.1)) 0)

/-- Parity symbols P0 and P1 of ten data symbols (R376): both syndromes are zero. -/
def rsParity (d : List Nat) : Nat × Nat :=
  let s := gfSyn (0 :: 0 :: d)
  -- P0 + P1 = s.1 and P0 + α P1 = s.2
  let p1 := gfMul (s.1 ^^^ s.2) (gfInv 3)
  (s.1 ^^^ p1, p1)

/-- Exclusive or into a symbol. -/
def symXor (c : List Nat) (m e : Nat) : List Nat := c.set m (c.getD m 0 ^^^ e)

/-- Decode a codeword whose erased symbols are zero (R377); the flag says that something was corrected. -/
def rsDecode (c : List Nat) (er : List Nat) : Option (List Nat × Bool) :=
  let s := gfSyn c
  match er with
  | [] =>
    if s.1 = 0 ∧ s.2 = 0 then some (c, false)
    else if s.1 = 0 then none
    else match (List.range 12).find? (fun m => gfMul s.1 (gfAlpha m) == s.2) with
      | some m => some (symXor c m s.1, true)
      | none => none
  | [m] => if gfMul s.1 (gfAlpha m) = s.2 then some (symXor c m s.1, true) else none
  | [a, b] =>
    let e1 := gfMul (s.2 ^^^ gfMul s.1 (gfAlpha b)) (gfInv (gfAlpha a ^^^ gfAlpha b))
    some (symXor (symXor c a e1) b (s.1 ^^^ e1), true)
  | _ => none

/-- Decode twelve bursts of a stripe by position; none where any codeword is uncorrectable. -/
def stripeDecode (bursts : List (List Nat)) (er : List Nat) : Option (List (List Nat) × Bool) :=
  let words := (List.range 64).map fun j => rsDecode (bursts.map fun b => b.getD j 0) er
  if words.all Option.isSome then
    let ws := words.map fun w => w.getD ([], false)
    some ((List.range 12).map fun m => ws.map fun w => w.1.getD m 0, ws.any (·.2))
  else none

/-! Stripes (R375). -/

/-- Channel of position `m` of stripe S: 0 P0, 1 P1, i + 2 data burst i. -/
def burstChan (stripe m : Nat) : Nat := (stripe % 12 + m) % 12
/-- Position of channel `c` in stripe S. -/
def burstPos (stripe c : Nat) : Nat := (c + 12 - stripe % 12) % 12

/-- Stripes of the data space. -/
def State.stripes (s : State) : Nat := s.get siloB F.SILO_BINS_TOTAL_COUNT * 3277

/-- A channel that every read treats as erased (R383, R384). -/
def State.chErased (s : State) (c : Nat) : Bool := bitN s.mem.erased c
/-- A channel that is written: in service or rebuilding (R379, R384). -/
def State.chWritten (s : State) (c : Nat) : Bool := let st := s.get (mcB c) F.MC_STAT_STATE; st == 2 || st == 4

/-- Update the memory's own state. -/
def State.modMem (s : State) (f : Mem → Mem) : State := { s with mem := f s.mem }

/-- Write a burst with valid check bytes on a channel (R373). -/
def burstWrite (m : List Host.Cell) (c stripe : Nat) (b : List Nat) : List Host.Cell :=
  (List.range 8).foldl (fun m w =>
    let d := ofLe ((List.range 8).map fun i => BitVec.ofNat 8 (b.getD (8 * w + i) 0))
    wordSet m c (8 * stripe + w) d (checkOf d ^^^ 0x5A)) m

/-- Store a stripe of twelve bursts on every channel that takes writes, or on those of a list (R379). -/
def State.stripeStore (s : State) (stripe : Nat) (bursts : List (List Nat)) : State :=
  s.modMem fun x => { x with
    cells := (List.range 12).foldl (fun m p =>
      let c := burstChan stripe p
      if s.chWritten c then burstWrite m c stripe (bursts.getD p []) else m) x.cells }

/-- The twelve bursts of 640 data bytes (R375, R376); the last 128 of a bin's short stripe are zeros. -/
def stripeEncode (stripe : Nat) (data : List Byte) : List (List Nat) :=
  let short := stripe % 3277 = 3276
  let d : List (List Nat) := (List.range 10).map fun i =>
    if short ∧ 8 ≤ i then List.replicate 64 0 else (slice data (64 * i) 64).map (·.toNat)
  let ps := (List.range 64).map fun j => rsParity (d.map fun b => b.getD j 0)
  ps.map (·.1) :: ps.map (·.2) :: d

/-! Channels that fail (R382, R383). -/

/-- Channels failed or rebuilding. -/
def State.failedCount (s : State) : Nat :=
  ((List.range 12).filter fun c => let st := s.get (mcB c) F.MC_STAT_STATE; (st == 3 && s.chErased c) || st == 4).length

/-- Health limit in MB/s (R210). -/
def healthLimit (failed : Nat) : Nat := if failed = 0 then 245000 else if failed = 1 then 225000 else 204000

/-- SILO_LIMIT follows SILO_CAP and the failed channels (R210); a change of the health limit raises LIMIT_CHANGE. -/
def State.limitRefresh (s : State) : State :=
  let n := min 3 s.failedCount
  let old := s.get siloB F.SILO_LIMIT_FAILED
  let s := s.puts siloB [(F.SILO_LIMIT_MBPS, min (s.get siloB F.SILO_CAP_MBPS) (healthLimit n)), (F.SILO_LIMIT_FAILED, n)]
  -- a health limit that has risen lets shed routes be tried (R213)
  let s := { s with silo := { s.silo with rose := if healthLimit n = healthLimit old then s.silo.rose else healthLimit old < healthLimit n } }
  ((s.raiseIf (healthLimit n != healthLimit old) siloB 9).live siloB 9 (n != 0)).sumsRefresh

/-- MEM_STAT and the live bits after a change of the failed channels (R383, R395). -/
def State.memRefresh (s : State) : State :=
  let n := s.failedCount
  let lost := s.is (mcB 0) F.MEM_STAT_LOST || 3 ≤ n
  let newLost := lost && !s.is (mcB 0) F.MEM_STAT_LOST
  let s := s.puts (mcB 0) [(F.MEM_STAT_FAILED, if lost then 3 else min 3 n), (F.MEM_STAT_ERASURE, b2n (n != 0)),
    (F.MEM_STAT_LOST, b2n lost)]
  let s := ((s.raiseIf newLost wnB 5).live wnB 4 (n != 0)).live wnB 5 lost
  (s.forAll (List.range 12) fun c u =>
    let st := u.get (mcB c) F.MC_STAT_STATE
    u.live (mcB c) 1 (st == 3 || st == 4)).limitRefresh

/-- A channel is marked failed (R382); a rebuild in progress ends (R384). -/
def State.markFailed (s : State) (c reason : Nat) : State :=
  if s.get (mcB c) F.MC_STAT_STATE = 3 then s
  else
    let s := if s.is wnB F.WN_REBUILD_STAT_ACTIVE then
        let r := s.get wnB F.WN_REBUILD_STAT_CHANNEL
        ((s.put (mcB r) F.MC_STAT_STATE 3).put wnB F.WN_REBUILD_STAT_ACTIVE 0).sumsRefresh
      else s
    let s := s.puts (mcB c) [(F.MC_STAT_STATE, 3), (F.MC_STAT_REASON, reason)]
    (s.raise (mcB c) 1).live (mcB c) 1 true |>.modMem fun x => { x with restoring := setBit x.restoring c false }

/-- CHANNEL_FAIL_CAUSE (R382). The causes that other commands show are marked by those; the rest are the PHY's. -/
def execChannelFailCause (c : Fin 12) (reason : Fin 8) (s : State) : Host.Outcome State Fault Refusal :=
  let b := mcB c.val
  let met := match reason.val with
    | 2 => true
    | 3 => decide (max 1 (s.get b F.MC_THRESH_UE_FAIL) ≤ tget 0 s.mem.ueWin c.val)
    | 4 => decide (max 1 (s.get b F.MC_THRESH_CE_FAIL) ≤ tget 0 s.mem.ceWin c.val)
    | _ => false
  .next (if met then s.markFailed c.val reason.val else s)

/-- ERASURE_ENTRY (R383, R212). -/
def execErasureEntry (c : Fin 12) (s : State) : Host.Outcome State Fault Refusal :=
  .next (if s.get (mcB c.val) F.MC_STAT_STATE = 3 && !s.chErased c.val then
      let s := ((s.modMem fun x => { x with erased := setBit x.erased c.val true }).raise wnB 4).memRefresh
      if s.failedCount < 3 && s.get siloB F.SILO_LIMIT_MBPS < s.admission then s.shedMemory else s
    else s)

/-- CE_WINDOW_END (R382): the next window counts from zero. -/
def execCeWindowEnd (c : Fin 12) (s : State) : Host.Outcome State Fault Refusal :=
  .next (s.modMem fun x => { x with ceWin := tset 0 x.ceWin c.val 0, ueWin := tset 0 x.ueWin c.val 0 })

/-- MC_FAIL (R382). -/
def execMcFail (c : Fin 12) (s : State) : Host.Outcome State Fault Refusal :=
  .next (s.hostWrite 0 (s.markFailed c.val 5))

/-- MC_RESTORE (R384): the channel is trained again; ignored in the three cases of the rule. -/
def execMcRestore (c : Fin 12) (s : State) : Host.Outcome State Fault Refusal :=
  .next (s.hostWrite 0 (
    if s.get (mcB c.val) F.MC_STAT_STATE = 3 && !s.is (mcB 0) F.MEM_STAT_LOST && !s.is wnB F.WN_REBUILD_STAT_ACTIVE
        && s.mem.restoring == 0 then
      s.modMem fun x => { x with restoring := setBit x.restoring c.val true }
    else s))

/-! The poison table (R381). -/

/-- POISON_ENTRY, ENTRIES and POISON_FULL follow the table (R393, R395). -/
def State.poisonRefresh (s : State) : State :=
  let n := s.mem.poison.length
  let s := s.puts wnB [(F.WN_POISON_ENTRIES, n),
    (F.POISON_ENTRY_STRIPE, tget 0xFFFFFFFF s.mem.poison (s.get wnB F.POISON_IDX_INDEX))]
  (s.raiseIf (n == 4096 && !s.is wnB ⟨0x1C, 2, 1⟩) wnB 2).live wnB 2 (n == 4096)

/-- A stripe is in the table. -/
def State.poisoned (s : State) (stripe : Nat) : Bool := s.mem.poison.any fun p => p.2 == stripe

/-- Owner of a bin: kind and index (R393). -/
def State.binOwner (s : State) (bin : Nat) : Nat × Nat :=
  if bin < s.get siloB F.SILO_BINS_SYS_COUNT then (1, 0)
  else match s.silo.bins.find? fun p => p.2.2.contains bin with
    | some p => if srcIsStore p.1 then (3, p.1 - 0x600) else (2, p.1)
    | none => (0, 0)

/-- A stripe found uncorrectable is entered (R381). -/
def State.poisonAdd (s : State) (stripe : Nat) : State :=
  if s.poisoned stripe || s.mem.poison.length = 4096 then s
  else
    let used := s.mem.poison.map (·.1)
    let e := ((List.range 4096).find? fun i => !used.contains i).getD 0
    let own := s.binOwner (stripe / 3277)
    (((s.modMem fun x => { x with poison := tins e stripe x.poison }).raise wnB 1).puts wnB [(F.WN_LAST_STRIPE, stripe),
      (F.WN_LAST_BIN_BIN, stripe / 3277), (F.WN_LAST_OWNER_KIND, own.1), (F.WN_LAST_OWNER_INDEX, own.2)]).poisonRefresh

/-- A full-stripe write removes the stripe from the table (R379). -/
def State.poisonDrop (s : State) (stripe : Nat) : State :=
  if s.poisoned stripe then
    (s.modMem fun x => { x with poison := x.poison.filter fun p => p.2 != stripe }).poisonRefresh
  else s

/-! Reads (R374, R378). -/

/-- Bits inverted in stored words before an access (R374). -/
def State.applyHits (s : State) (stripe : Nat) (hits : List MemHit) : State :=
  s.modMem fun x => { x with
    cells := hits.foldl (fun m h =>
      let w := 8 * stripe + h.word.val
      let v := wordGet m h.channel.val w
      let f := h.flips.toNat
      wordSet m h.channel.val w (v.1 ^^^ f % 2 ^ 64) (v.2 ^^^ f / 2 ^ 64)) x.cells }

/-- A counted word: the channel's counters, MC_LAST, and its failure at a threshold (R374, R382, R390). -/
def State.countWord (s : State) (c w syn : Nat) (p : Bool) (o : Light) : State :=
  let b := mcB c
  match o with
  | .good => s
  | .corrected =>
    let s := ((s.bump b F.MC_CE_COUNT).puts b [(F.MC_LAST_ADDR_WORD, w), (F.MC_LAST_SYN_S, syn), (F.MC_LAST_SYN_P, b2n p),
      (F.MC_LAST_SYN_UE, 0)]).raise b 0
    let n := tget 0 s.mem.ceWin c + 1
    let s := s.modMem fun x => { x with ceWin := tset 0 x.ceWin c n }
    if max 1 (s.get b F.MC_THRESH_CE_FAIL) ≤ n then s.markFailed c 4 else s
  | .bad =>
    let s := (((s.bump b F.MC_UE_COUNT).puts b [(F.MC_LAST_ADDR_WORD, w), (F.MC_LAST_SYN_S, syn), (F.MC_LAST_SYN_P, b2n p),
      (F.MC_LAST_SYN_UE, 1)]).raise b 0).setFault b 0 w
    let n := tget 0 s.mem.ueWin c + 1
    let s := s.modMem fun x => { x with ueWin := tset 0 x.ueWin c n }
    if max 1 (s.get b F.MC_THRESH_UE_FAIL) ≤ n then s.markFailed c 3 else s

/-- Read a burst: its bytes after the light code, whether it is erased, and whether the light code corrected something. -/
def State.burstRead (s : State) (stripe p : Nat) : State × List Nat × Bool × Bool :=
  let c := burstChan stripe p
  if s.chErased c then (s, List.replicate 64 0, true, false)
  else
    let skip := bitN s.mem.badBurst c
    let ws := (List.range 8).map fun w =>
      let v := wordGet s.mem.cells c (8 * stripe + w)
      (w, lightDecode v.1 v.2)
    let t := ws.foldl (fun u q => u.countWord c (8 * stripe + q.1) q.2.2.1 q.2.2.2.1 q.2.2.2.2) s
    let t := t.modMem fun x => { x with badBurst := setBit x.badBurst c false }
    let bad := skip || ws.any fun q => q.2.2.2.2 == .bad
    let fixed := ws.any fun q => q.2.2.2.2 == .corrected
    if bad then (t, List.replicate 64 0, true, fixed)
    else (t, ws.flatMap fun q => (leBytes 8 q.2.1).map (·.toNat), false, fixed)

/-- Read a list of positions in order: bursts by position, erased positions, and whether the light code corrected something. -/
def State.burstsRead (s : State) (stripe : Nat) : List Nat → State × List (Nat × List Nat) × List Nat × Bool
  | [] => (s, [], [], false)
  | p :: t =>
    let a := s.burstRead stripe p
    let r := a.1.burstsRead stripe t
    (r.1, (p, a.2.1) :: r.2.1, if a.2.2.1 then p :: r.2.2.1 else r.2.2.1, a.2.2.2 || r.2.2.2)

/-- The whole stripe read and decoded: the twelve bursts, none if uncorrectable, and whether a word or a symbol of a burst
in service was corrected. -/
def State.stripeRead (s : State) (stripe : Nat) : State × Option (List (List Nat)) × Bool :=
  let r := s.burstsRead stripe (List.range 12)
  let bs := (List.range 12).map fun p => tget (List.replicate 64 0) r.2.1 p
  match stripeDecode bs r.2.2.1 with
  | some d =>
    let fixed := (List.range 12).any fun p =>
      !s.chErased (burstChan stripe p) && (r.2.2.1.contains p || d.1.getD p [] != bs.getD p [])
    (r.1, some d.1, fixed || r.2.2.2)
  | none => (r.1, none, false)

/-- Data bursts `first` to `first + count − 1` of a stripe as a normal read gives them (R378); none if uncorrectable. -/
def State.stripeData (s : State) (stripe first count : Nat) : State × Option (List Byte) :=
  let pick (l : Nat → List Nat) : List Byte := ((List.range count).flatMap fun i => l (first + i)).map (BitVec.ofNat 8 ·)
  if s.is (mcB 0) F.MEM_STAT_LOST || s.poisoned stripe then (s, none)
  else if (List.range 10).any fun i => s.chErased (burstChan stripe (i + 2)) then
    match s.stripeRead stripe with
    | (t, some b, _) => (t, some (pick fun i => b.getD (i + 2) []))
    | (t, none, _) => (t.poisonAdd stripe, none)
  else
    let want := (List.range count).map fun i => first + i + 2
    let r := s.burstsRead stripe want
    if r.2.2.1.isEmpty then (r.1, some (pick fun i => tget [] r.2.1 (i + 2)))
    else
      let q := r.1.burstsRead stripe ((List.range 12).filter fun p => !want.contains p)
      let bs := (List.range 12).map fun p => tget (tget (List.replicate 64 0) q.2.1 p) r.2.1 p
      match stripeDecode bs (((List.range 12).filter fun p => (r.2.2.1 ++ q.2.2.1).contains p)) with
      | some d => (q.1, some (pick fun i => d.1.getD (i + 2) []))
      | none => (q.1.poisonAdd stripe, none)

/-- MEMORY_READ (R378, R380). -/
def execMemoryRead (_who : MemReader) (stripe : Nat) (first count : Fin 11) (hits : List MemHit) (s : State) :
    Host.Outcome State Fault Refusal :=
  .next (if stripe < s.stripes && first.val + count.val ≤ 10 then
      let r := (s.applyHits stripe hits).stripeData stripe first.val count.val
      (r.1.raiseIf r.2.isNone wnB 3).emit (.memData stripe r.2)
    else s)

/-! Writes (R379). -/

/-- Bytes of a stripe replaced at an offset. -/
def overlay (old new : List Byte) (off : Nat) : List Byte := old.take off ++ new ++ old.drop (off + new.length)

/-- A partial-stripe write: read, merge, write (R379); of an uncorrectable stripe the bytes not written are zeros. -/
def State.stripeMerge (s : State) (stripe : Nat) (merge : List Byte → List Byte) : State :=
  let put (u : State) (old : List Byte) : State := u.stripeStore stripe (stripeEncode stripe (merge old))
  if s.poisoned stripe then put s (List.replicate 640 0)
  else match s.stripeRead stripe with
    | (t, some b, _) => put t ((b.drop 2).flatten.map (BitVec.ofNat 8 ·))
    | (t, none, _) => put (t.poisonAdd stripe) (List.replicate 640 0)

/-- Write bytes at an offset of a stripe. -/
def State.stripeWrite (s : State) (stripe off : Nat) (data : List Byte) : State :=
  if off = 0 ∧ data.length = 640 then (s.stripeStore stripe (stripeEncode stripe data)).poisonDrop stripe
  else s.stripeMerge stripe fun old => overlay old data off

/-- MEMORY_WRITE (R379). -/
def execMemoryWrite (stripe : Nat) (offset : Fin 640) (data : List Byte) (s : State) : Host.Outcome State Fault Refusal :=
  .next (if stripe < s.stripes && offset.val + data.length ≤ 640 && data.length != 0 then s.stripeWrite stripe offset.val data
    else s)

/-! Winnow and rebuild (R384, R385). -/

/-- Winnow's visit of one stripe; `rebuilding` when it also reconstructs the rebuilding channel's burst. -/
def State.winnowVisit (s : State) (stripe : Nat) (rebuilding : Bool) : State :=
  if s.poisoned stripe then s
  else match s.stripeRead stripe with
    | (t, none, _) => t.poisonAdd stripe
    | (t, some b, fixed) =>
      let r := t.get wnB F.WN_REBUILD_STAT_CHANNEL
      if fixed then (t.stripeStore stripe b).bump wnB F.WN_CORR_STRIPES
      else if rebuilding then
        t.modMem fun x => { x with cells := burstWrite x.cells r stripe (b.getD (burstPos stripe r) []) }
      else t

/-- WINNOW_STRIPE (R385). -/
def execWinnowStripe (hits : List MemHit) (behind : Bool) (s : State) : Host.Outcome State Fault Refusal :=
  .next (if s.is (mcB 0) F.MEM_STAT_LOST || s.stripes = 0 then s
    else
      let s := s.raiseIf behind wnB 7
      if s.is wnB F.WN_REBUILD_STAT_ACTIVE then
        if s.mem.rebuildPos < s.stripes then
          let k := s.mem.rebuildPos
          ((s.applyHits k hits).winnowVisit k true).modMem fun x => { x with rebuildPos := k + 1 }
        else s
      else if s.is wnB F.WN_CFG_EN then
        let k := s.get wnB F.WN_POS_STRIPE
        let s := (s.applyHits k hits).winnowVisit k false
        if k + 1 < s.stripes then s.put wnB F.WN_POS_STRIPE (k + 1)
        else ((s.put wnB F.WN_POS_STRIPE 0).put wnB F.WN_PASS_COUNT (s.get wnB F.WN_PASS_COUNT + 1)).raise wnB 0
      else s)

/-- REBUILD_DONE (R384). -/
def execRebuildDone (s : State) : Host.Outcome State Fault Refusal :=
  .next (if s.is wnB F.WN_REBUILD_STAT_ACTIVE && s.stripes ≤ s.mem.rebuildPos then
      let c := s.get wnB F.WN_REBUILD_STAT_CHANNEL
      ((s.put (mcB c) F.MC_STAT_STATE 2).put wnB F.WN_REBUILD_STAT_ACTIVE 0 |>.modMem fun x => { x with
        erased := setBit x.erased c false, ceWin := tset 0 x.ceWin c 0, ueWin := tset 0 x.ueWin c 0 }).memRefresh
    else s)

/-- MEM_REFRESH (R372). -/
def execMemRefresh (c : Fin 12) (what : Refresh) (s : State) : Host.Outcome State Fault Refusal :=
  let st := s.get (mcB c.val) F.MC_STAT_STATE
  .next (if st = 2 ∨ st = 4 then s.emit (.dram c.val what) else s)

/-- Training of a channel has ended (R372): an eye below 0.20 UI, 12.8 of 64ths, fails. -/
def State.memTrained (s : State) (c rdEye wrEye vref : Nat) : State :=
  let b := mcB c
  let restoring := bitN s.mem.restoring c
  let fail := rdEye < 13 || wrEye < 13
  if s.get b F.MC_STAT_STATE = 1 || restoring then
    let s := s.puts b [(F.MC_TRAIN_RD_EYE, rdEye), (F.MC_TRAIN_WR_EYE, wrEye), (F.MC_TRAIN_VREF, vref)]
    let s := s.modMem fun x => { x with
      restoring := setBit x.restoring c false, ceWin := tset 0 x.ceWin c 0, ueWin := tset 0 x.ueWin c 0 }
    if restoring then
      if fail then s.put b F.MC_STAT_REASON 1
      else
        ((s.put b F.MC_STAT_STATE 4).puts wnB [(F.WN_REBUILD_STAT_CHANNEL, c), (F.WN_REBUILD_STAT_ACTIVE, 1)]
          |>.modMem fun x => { x with rebuildPos := 0, erased := setBit x.erased c true }).memRefresh
    else if fail then s.markFailed c 1
    else s.put b F.MC_STAT_STATE 2
  else s

/-- MEM_TRAINING_DONE (R372). -/
def execMemTrainingDone (c : Fin 12) (rdEye wrEye : Fin 256) (vref : Fin 64) (s : State) :
    Host.Outcome State Fault Refusal := .next (s.memTrained c.val rdEye.val wrEye.val vref.val)

/-- Capacity of one channel in GiB (R368). -/
def State.memGib (s : State) : Nat :=
  (if s.is (mcB 0) F.MEM_GEOM_WIDTH then 4 else 8) * (1 + s.get (mcB 0) F.MEM_GEOM_DENSITY) * (1 + s.get (mcB 0) F.MEM_GEOM_RANKS)

/-- System bins (R190): 577 of the audio delay lines (R304), 1,504 of the converters (R264) and one of the record log (R493). -/
def sysBins : Nat := 577 + 1504 + 1

/-- The Silo counts its bins and allocates the system bins (R187, R190). -/
def State.countBins (s : State) : State :=
  ((s.put siloB F.SILO_BINS_TOTAL_COUNT (s.memGib * 2 ^ 30 / 209728)).put siloB F.SILO_BINS_SYS_COUNT sysBins).sumsRefresh

/-- The start-up self-test, if it runs, and the zero pass have ended (R388, R389). -/
def State.selftest (s : State) (mismatch : List Nat) (ms : Nat) : State :=
  let ready := (List.range 12).all fun c => 2 ≤ s.get (mcB c) F.MC_STAT_STATE
  if ready && !s.is (mcB 0) F.MEM_STAT_INIT_DONE && !s.stopped (mcB 0) then
      let full := s.mem.cold || s.is (mcB 0) F.MEM_BOOT_WARM_TEST
      let bad (c : Nat) : Nat := if full then mismatch.getD c 0 else 0
      let s := s.forAll (List.range 12) fun c u =>
        let u := u.put (mcB c) F.MC_ST_MISMATCH (min 0xFFFF (bad c))
        if 64 < bad c then u.markFailed c 6 else u
      let s := s.puts (mcB 0) [(F.ST_RESULT_FAILED, (List.range 12).foldl (fun m c => m + 2 ^ c * b2n (64 < bad c)) 0),
        (F.ST_RESULT_RAN, b2n full), (F.ST_TIME_MS, min 0xFFFFFFFF ms), (F.MEM_STAT_INIT_DONE, 1), (F.MEM_CAP_GIB, s.memGib)]
      let s := s.raiseIf ((List.range 12).any fun c => bad c != 0) wnB 6
      ((s.modMem fun x => { x with cells := [], poison := [], cold := false }).poisonRefresh).countBins
    else s

/-- SELFTEST_DONE (R388, R389). -/
def execSelftestDone (mismatch : List Nat) (ms : Nat) (s : State) : Host.Outcome State Fault Refusal :=
  .next (s.selftest mismatch ms)

/-! Raw mode (R387). -/

/-- MC_RAW_UNLOCK. -/
def execMcRawUnlock (c : Fin 12) (key : Word) (s : State) : Host.Outcome State Fault Refusal :=
  .next (s.hostWrite 0 (if key = 0xA5C3 then s.modMem fun x => { x with raw := setBit x.raw c.val true } else s))

/-- MC_RAW_GO. -/
def execMcRawGo (c : Fin 12) (write : Bool) (s : State) : Host.Outcome State Fault Refusal :=
  let b := mcB c.val
  .next (s.hostWrite 0 (
    let s := s.put b F.MC_RAW_CTRL_WRITE (b2n write)
    let w := s.get b F.MC_RAW_ADDR_WORD
    let st := s.get b F.MC_STAT_STATE
    if !bitN s.mem.raw c.val || st = 3 || s.memGib * 2 ^ 27 ≤ w then s
    else if write then
      s.modMem fun x => { x with
        cells := wordSet x.cells c.val w (s.get b F.MC_RAW_DATA_LO_VALUE + s.get b F.MC_RAW_DATA_HI_VALUE * 2 ^ 32)
          (s.get b F.MC_RAW_CHECK_VALUE) }
    else
      let v := wordGet s.mem.cells c.val w
      s.puts b [(F.MC_RAW_DATA_LO_VALUE, v.1 % 2 ^ 32), (F.MC_RAW_DATA_HI_VALUE, v.1 / 2 ^ 32), (F.MC_RAW_CHECK_VALUE, v.2)]))

/-- RAW_MODE_EXPIRY. -/
def execRawModeExpiry (c : Fin 12) (s : State) : Host.Outcome State Fault Refusal :=
  .next (s.modMem fun x => { x with raw := setBit x.raw c.val false })

/-- MEM_QUEUE_UE (R390). -/
def execMemQueueUe (u : QueueUe) (s : State) : Host.Outcome State Fault Refusal :=
  .next (match u with
    | .command c i => (s.setFault (mcB c.val) 1 i.val).markFailed c.val 7
    | .readData c i => (s.setFault (mcB c.val) 2 i.val).modMem fun x => { x with badBurst := setBit x.badBurst c.val true }
    | .writeData c i stripe =>
      (s.setFault (mcB c.val) 3 i.val).modMem fun x => { x with
        cells := if stripe < s.stripes then
            (List.range 8).foldl (fun m w => cellSet m (cellKey c.val (8 * stripe + w) 8) (0x5A ^^^ 0x7F)) x.cells
          else x.cells }
    | .poison e =>
      -- the locator names no index: SLICE 0x3F and all lower fields ones
      ((((s.wr (wnB + 0x28) 0x1FFFFFFF).put wnB F.STAT_FAULT 1).modMem fun x => { x with
        poison := x.poison.filter fun p => p.1 != e.val })).poisonRefresh)

end Sys2Proof.Machine
end

