-- ==== Sys2Proof/Machine/Silo.lean ====
section
/-! DEFINITION. The Silo (chapter 06): frames of rings and stores, the frame a reader shows, the layout of stored lines, and
the BAR2 window. Allocation and admission stand in Plan; what a take does with stores stands in Commit. -/

namespace Sys2Proof.Machine

/-! Frames (R195, R200, R207). -/

/-- Key of a ring operand. -/
def ringKey : RingId → Nat
  | .source c => c.val
  | .store i => 0x600 + i.val

/-- Source whose frames a ring or store takes. -/
def State.ringSrc (s : State) (key : Nat) : Nat := if srcIsStore key then s.routeSrc 2 (key - 0x600) else key

/-- Format word of a source's frames (as IN_FMT, without colour), with DECIM of a store above it: a change of it is a change
of the written format (R207). -/
def State.frameWord (s : State) (key : Nat) : Nat :=
  let c := s.ringSrc key
  let w := if srcIsSdi c then (s.rd (inB c + 0x48)).toNat
    else if srcIsIp c then (s.effRd (rxA (c - 0x100) + 4)).toNat
    else if srcIsWb c then (s.rd (outB (c - 0x800) + 0x40)).toNat else 0
  w % 0x8000 + (if srcIsStore key then decimOf (s.effGet (storeA (key - 0x600)) F.STORE_CFG_DECIM) else 1) * 2 ^ 32

/-- Frames of a source are arriving: of an input, the pipe delivers (R568). -/
def State.srcArrives (s : State) (c : Nat) : Bool :=
  if srcIsSdi c then (s.rx c).delivering && s.present (c / 16 + 1) && !s.inMember c
  else if srcIsIp c then s.get (rxA (c - 0x100)) F.RX_STAT_STATE != 0
  else s.srcDelivers c

/-- The ring or store is to write a frame that starts now (R192, R193, R195, R204, R207). -/
def State.ringWrites (s : State) (key : Nat) : Bool :=
  let c := s.ringSrc key
  let r := s.ring key
  s.srcArrives c && !(s.binsOf key).2.isEmpty && !r.bufs.isEmpty &&
    (if srcIsStore key then
      let i := key - 0x600
      let k := s.effGet (storeA i) F.STORE_CFG_KIND
      s.routeActive 2 i && s.srcEpoch c == (s.route 2 i).epoch
        && (s.route 2 i).due != 3 && ((k == 1 && !s.effIs (storeA i) F.STORE_CFG_FREEZE) || (k == 2 && r.capture.isSome))
    else s.ringsOn.contains key && !s.effIs (sringA key) F.SRING_CFG_FREEZE && s.srcEpoch c == r.accepted)

/-- The oldest buffer that may be written: not the newest complete frame, and held by no reader (R200). -/
def Ring.choose (r : Ring) : Option Nat :=
  let age (b : Buf) : Nat := if b.st = 0 then 0 else b.seq
  ((List.range r.bufs.length).filter fun i =>
    let b := r.bufs.getD i Buf.empty
    !b.gone && b.st != 1 && !(b.st == 2 && b.seq == r.newest) && b.readers.isEmpty).foldl (fun best i =>
      match best with
      | none => some i
      | some j => if age (r.bufs.getD i Buf.empty) < age (r.bufs.getD j Buf.empty) then some i else some j) none

/-- A receive context at reset. -/
def IpRx.idle : IpRx := ⟨none, none, [], [], [], none, 0, [], [], [], 0, [], [], [], [], none, 0, none⟩

/-- A transmit context at reset, and transmit context c beside its registers. -/
def IpTx.idle : IpTx := ⟨0, 0, 0, 0, 2, none, false, []⟩
def State.itx (s : State) (c : Nat) : IpTx := tget IpTx.idle s.ip.tx c
def State.setItx (s : State) (c : Nat) (x : IpTx) : State := { s with ip := { s.ip with tx := tset IpTx.idle s.ip.tx c x } }

/-- Entry instant of a frame: of a write-back that of the frame V1 showed, when V1 is fed and delivering (R180), of an IP
stream that of its RTP timestamp (R336). -/
def State.entryOf (s : State) (c : Nat) (entry : Int) : Int :=
  if srcIsWb c then
    let i := 4 * (c - 0x800)
    if s.is (routeStatA 0 i) F.ROUTE_STAT_SOURCE_OK && s.routeActive 0 i then tget entry s.floor.shown i else entry
  else if srcIsIp c then (tget IpRx.idle s.ip.rx (c - 0x100)).entry
  else entry

/-- A ring whose frame in progress of a source was cut short (R200). -/
def Ring.cutShort (x : Ring) (c : Nat) : Ring :=
  { x with bufs := x.bufs.map fun (b : Buf) => if b.st = 1 ∧ b.src = c then b.clear else b }

/-- The source of a converter context is frozen (R204, R280). -/
def State.srcFrozen (s : State) (c : Nat) : Bool :=
  if srcIsStore c then s.effIs (storeA (c - 0x600)) F.STORE_CFG_FREEZE else s.effIs (sringA c) F.SRING_CFG_FREEZE

/-- Frames that a context has room for (R264; DESIGN CHOICE, log 78). -/
abbrev ctxRoom : Nat := 16

/-- A frame of ring or store `key` starts to enter: every context of it writes the frame, unless its source is frozen (R271, R280). -/
def State.ctxStart (s : State) (key : Nat) (entry : Int) : State :=
  let c := s.ringSrc key
  let p : CvPic := ⟨s.freeCtr, s.entryOf c entry, s.srcEpoch c, c, s.frameWord key, false, s.srcDelivers key, [], [], []⟩
  let on := s.srcArrives c && !s.srcFrozen key
  let mine := allSlots.filter fun q => s.slotUsed q.1 q.2 && s.get (ctxA q.1 q.2) F.CTX_KEY_SRC == key
  if mine.isEmpty then s
  else mine.foldl (fun (u : State) q =>
    let x := u.ctx q.1 q.2
    let l := x.pics.filter (·.done)
    u.setCtx q.1 q.2 { x with pics := if on then (l ++ [p]).drop (l.length + 1 - ctxRoom) else l }) s.tick

/-- A ring writes a frame that starts (R200): a frame in progress of a source that a take has replaced goes on beside it (R177). -/
def State.ringStart (s : State) (key : Nat) (entry : Int) : State :=
  if s.ringWrites key then
      let c := s.ringSrc key
      let x := (s.ring key).cutShort c
      match x.choose with
      | none => (s.setRing key x).siloEvent (ringTable key).1 (ringTable key).2 3
      | some i =>
        let b : Buf := { Buf.empty with
          st := 1, seq := x.seq + 1, epoch := s.srcEpoch c, entry := s.entryOf c entry, src := c, fmt := s.frameWord key
          bins := (x.bufs.getD i Buf.empty).bins }
        s.setRing key { x with bufs := x.bufs.set i b, seq := x.seq + 1 }
    else s

/-- RING_FRAME_START (R200, R271). -/
def execRingFrameStart (r : RingId) (entry : Int) (s : State) : Host.Outcome State Fault Refusal :=
  .next ((s.ctxStart (ringKey r) entry).ringStart (ringKey r) entry)

/-- Ordinary ANC of the source's frame in progress, which goes with the frame (R311). -/
def State.srcAnc (s : State) (c : Nat) : List AncPkt := if srcIsSdi c then (s.rx c).anc else []

/-- The frame in progress of a ring or store is complete in every context of it, or cut short (R271, R280). -/
def State.ctxComplete (s : State) (key : Nat) (cut : Bool) : State :=
  let c := s.ringSrc key
  let fin (l : List CvPic) : List CvPic :=
    if cut then l.filter (·.done)
    else l.map fun (p : CvPic) => if p.done then p else { p with done := true, anc := s.srcAnc c }
  (allSlots.filter fun q => s.slotUsed q.1 q.2 && s.get (ctxA q.1 q.2) F.CTX_KEY_SRC == key).foldl (fun u q =>
    u.setCtx q.1 q.2 { u.ctx q.1 q.2 with pics := fin (u.ctx q.1 q.2).pics }) s

/-- A frame of a store is complete (R195, R207). -/
def State.storeComplete (s : State) (i : Nat) (changed : Bool) : State :=
  let a := storeStatA i
  let r := s.ring (0x600 + i)
  let s := if changed then
      ((s.put a F.STORE_STAT_EPOCH (s.get a F.STORE_STAT_EPOCH + 1)).siloEvent 1 i 12).epochMoves (0x600 + i) else s
  match r.capture with
  | some v =>
    if s.effGet (storeA i) F.STORE_CFG_KIND = 2 then
      ((s.setRing (0x600 + i) { r with capture := none }).put a F.STORE_STAT_CAPTURED v).siloEvent 1 i 4
    else s
  | none => s

/-- The buffer whose frame is in progress: of two, the one begun first (R177). -/
def Ring.writing (r : Ring) : Option Buf :=
  (r.bufs.filter (·.st == 1)).foldl (fun best b => match best with
    | some x => if b.seq < x.seq then some b else some x
    | none => some b) none

/-- RING_FRAME_COMPLETE (R200): the frame in progress is complete, or cut short. -/
def State.ringComplete (s : State) (key : Nat) (cut : Bool) : State :=
  let x := s.ring key
  match x.writing with
  | none => s
  | some b =>
    let set (c : Buf) : List Buf := x.bufs.map fun (o : Buf) => if o.st = 1 ∧ o.seq = b.seq then c else o
    if cut then (s.setRing key { x with bufs := set b.clear }).siloStat key
    else
      let s := s.setRing key (Ring.tidy { x with
        bufs := set { b with st := 2, anc := s.srcAnc b.src, decim := [] }
        delivering := x.delivering || b.src == s.ringSrc key, fmt := b.fmt })
      let s := if srcIsStore key then s.storeComplete (key - 0x600) (x.fmt != 0 && x.fmt != b.fmt) else s
      (s.siloStat key).floorLive

/-! Readers (R201 to R205). -/

/-- A reader that shows nothing. -/
def Reader.empty : Reader := ⟨0, 0, 0, none, none, none, none⟩
/-- Reader of a source for a destination key. -/
def State.reader (s : State) (d c : Nat) : Reader := tget Reader.empty s.silo.readers (d * 4096 + c)
def State.setReader (s : State) (d c : Nat) (x : Reader) : State :=
  { s with silo := { s.silo with readers := tset Reader.empty s.silo.readers (d * 4096 + c) x } }

/-- The complete buffer of a sequence number. -/
def Ring.find (r : Ring) (seq : Nat) : Option Buf := r.bufs.find? fun b => b.st == 2 && b.seq == seq && seq != 0

/-- A destination lets the buffers of a ring go. -/
def Ring.letGo (r : Ring) (d : Nat) : Ring :=
  { r with bufs := r.bufs.map fun b => { b with readers := b.readers.filter (· != d) } }
/-- A destination holds the buffer of a sequence number. -/
def Ring.hold (r : Ring) (d : Nat) (q : Option Nat) : Ring :=
  { r with bufs := r.bufs.map fun b => if b.st = 2 ∧ some b.seq = q then { b with readers := b.readers ++ [d] } else b }

/-- A read context takes the newest complete frame of its ring, and a blending one the frame before it too (R201, R203). -/
def State.selectFrame (s : State) (d c : Nat) (blend : Bool) : State :=
  let r := (s.ring c).letGo d
  let x := s.reader d c
  let n := r.newest
  let older := (r.complete.filter fun b => b.seq != n).foldl (fun m b => max m b.seq) 0
  let b1 := r.find n
  let b2 := if blend then r.find older else none
  let e (b : Option Buf) : Int := match b with | some b => b.entry | none => 0
  let y : Reader := ⟨n, if b2.isSome then e b2 else e b1, if n = x.seq ∧ n ≠ 0 then x.repeats + 1 else 0, b1.map (·.seq),
    b2.map (·.seq), x.buf, x.buf2⟩
  (s.setRing c ((r.hold d y.buf).hold d y.buf2).tidy).setReader d c y

/-- A reader's ring is one of frames: a source ring, a ring store or a still. -/
def State.framed (s : State) (c : Nat) : Bool :=
  srcIsSdi c || srcIsIp c || (srcIsStore c && let k := s.effGet (storeA (c - 0x600)) F.STORE_CFG_KIND; k == 1 || k == 2)

/-- A route reads the Silo: it is on the stored path, or cut-through with a source that does not deliver (R205, R225). -/
def State.onStored (s : State) (t i : Nat) : Bool :=
  let p := s.get (routeStatA t i) F.ROUTE_STAT_PATH
  p == 2 || (p == 1 && (s.route t i).lost)

/-- A route takes part in the selection of its destination: it reads the Silo, for frames; a suspended or stopped one does not. -/
def State.routeReads (s : State) (t i : Nat) : Bool := s.routeShows t i && s.onStored t i && s.framed (s.routeSrc t i)

/-- The frames that a destination's stored routes show in its next frame (R201); repeats and drops are marked on the routes,
and a new frame ends a loss hide (R205). -/
def State.selectReaders (s : State) (routes : List (Nat × Nat)) : State :=
  let rs := routes.filter fun p => s.routeReads p.1 p.2
  let codes := dedupN (rs.map fun p => s.routeSrc p.1 p.2)
  codes.foldl (fun u c =>
    let mine := rs.filter fun p => s.routeSrc p.1 p.2 == c
    match mine with
    | [] => u
    | p :: _ =>
      let d := destKey p.1 p.2
      let old := (u.reader d c).seq
      let u := u.selectFrame d c (mine.any fun q => s.isBlend q.1 q.2)
      let new := (u.reader d c).seq
      let slip := old != 0 && (new == old || old + 1 < new)
      mine.foldl (fun v q =>
        let v := v.setRoute q.1 q.2 { v.route q.1 q.2 with slip := slip || (v.route q.1 q.2).slip }
        if q.1 = 0 ∧ new ≠ old then { v with silo := { v.silo with hidden := tset false v.silo.hidden q.2 false } } else v) u) s

/-- A destination has read the last line it needs: it lets its frames go (R201). -/
def State.readersDone (s : State) (d : Nat) : State :=
  (s.silo.readers.filter fun p => p.1 / 4096 == d).foldl (fun u p =>
    u.setRing (p.1 % 4096) ((u.ring (p.1 % 4096)).letGo d).tidy) s

/-- Consecutive output frames in which a layer has repeated the frame of a lost source: its reader's, or its converter
context's (R205, R280). -/
def State.lossRepeats (s : State) (g i : Nat) : Option Nat :=
  let c := s.routeSrc 0 i
  if s.routeReads 0 i then (if (s.ring c).newest != 0 then some (s.reader g c).repeats else none)
  else if s.routeActive 0 i && s.get (routeStatA 0 i) F.ROUTE_STAT_PATH == 3 then
    match allSlots.find? fun p => (s.ctx p.1 p.2).routes.contains i with
    | some p => if (s.ctx p.1 p.2).out.isEmpty then none else some (s.ctx p.1 p.2).hold
    | none => none
  else none

/-- LOSS_HIDE (R205). -/
def execLossHide (g : Fin 96) (k : Fin 4) (s : State) : Host.Outcome State Fault Refusal :=
  let i := 4 * g.val + k.val
  let c := s.routeSrc 0 i
  let n := max 1 (s.get siloB F.SILO_CFG_LOSS_FRAMES)
  let held := match s.lossRepeats g.val i with | some r => n ≤ r | none => false
  .next (if s.is siloB F.SILO_CFG_LOSS_MODE && held && !s.srcDelivers c && !tget false s.silo.hidden i then
      ({ s with silo := { s.silo with hidden := tset false s.silo.hidden i true } }).siloEvent 2 i 11
    else s)

/-! Layout of stored lines (R188, R189, R194). -/

/-- Samples packed one after another from bit 0, in little-endian bit order, padded with zeros to `pitch` bytes. -/
def packLine (depth pitch : Nat) (l : List Nat) : List Byte :=
  leBytes pitch (l.reverse.foldl (fun acc v => acc * 2 ^ depth + v % 2 ^ depth) 0)

/-- Field (0 the first in time) of an active line, and its line within the field; progressive pictures have one (R565). -/
def fieldLine (scan fmt y : Nat) : Nat × Nat :=
  if scan = 0 then (0, y) else (if fmt = 1 then 1 - y % 2 else y % 2, y / 2)

/-- Write one row of a buffer: whole stripes (R188). -/
def State.storeRow (s : State) (bins : List Nat) (row pitch : Nat) (data : List Byte) : State :=
  let lpb := max 1 (lpbOf pitch)
  match bins[row / lpb]? with
  | none => s
  | some bin =>
    let first := 3277 * bin + row % lpb * (pitch / 640)
    s.forAll (List.range (pitch / 640)) fun k u => u.stripeWrite (first + k) 0 (slice data (640 * k) 640)

/-- Data units of 64 bytes of a stripe of a bin, or none where they cannot be read; undefined ones of a surface allocated anew that the
host has not written (R193). -/
def State.binRead (s : State) (bin stripe first count : Nat) : State × Option (List Byte) :=
  match s.silo.undef.find? fun p => p.1 == bin && !p.2.2.contains stripe with
  | some p => (s, some ((List.range (64 * count)).map fun i =>
      Config.undefByte (p.2.1 * 2 ^ 21 + 640 * stripe + 64 * first + i)))
  | none => s.stripeData (3277 * bin + stripe) first count

/-- Samples of `depth` bits from little-endian bytes (R189). -/
def unpackBytes (depth n : Nat) (b : List Byte) : List Nat :=
  let v := ofLe b
  (List.range n).map fun i => v / 2 ^ (depth * i) % 2 ^ depth

/-- Words of one line of a picture (R189, R196). -/
def SrcFmt.lineWords (f : SrcFmt) : Nat := f.w * f.bpp / f.depth

/-- Words of a black line of a picture (R106). -/
def SrcFmt.blackWords (f : SrcFmt) : List Nat :=
  let unit := if f.kind = 0 then [512, 64, 512, 64] else if f.kind = 1 then [512, 64, 512] else [64, 64, 64]
  (List.range f.lineWords).map fun i => unit.getD (i % unit.length) 0 * 2 ^ (f.depth - 10)

/-- Format of the frame in a buffer, before decimation and as stored (R194). -/
def Buf.srcFormat (b : Buf) : Option SrcFmt := fmtOfWord (b.fmt % 2 ^ 32)
def Buf.format (b : Buf) : Option SrcFmt := b.srcFormat.map (·.decimate (b.fmt / 2 ^ 32))

/-- A row of a buffer as samples; none where a stripe of it cannot be read. -/
def State.readRow (s : State) (bins : List Nat) (f : SrcFmt) (row : Nat) : State × Option (List Nat) :=
  let p := pitchOf f.w f.bpp
  let lpb := max 1 (lpbOf p)
  match bins[row / lpb]? with
  | none => (s, none)
  | some bin =>
    let q := (List.range (p / 640)).foldl (fun (acc : State × Option (List Byte)) k =>
      let d := acc.1.binRead bin (row % lpb * (p / 640) + k) 0 10
      (d.1, match acc.2, d.2 with | some l, some m => some (l ++ m) | _, _ => none)) (s, some [])
    (q.1, q.2.map (unpackBytes f.depth f.lineWords))

/-- Row of an active line in a buffer (R189, R565). -/
def rowOfLine (f : SrcFmt) (y : Nat) : Nat := let p := fieldLine f.scan f.fmt y; p.1 * (f.h / 2) + p.2

/-- An active line of a frame in a buffer. -/
def State.readLine (s : State) (b : Buf) (y : Nat) : State × Option (List Nat) :=
  match b.format with
  | some f => s.readRow b.bins f (rowOfLine f y)
  | none => (s, none)

/-- An active line of two frames blended (R203): the first the newer. -/
def State.blendRead (s : State) (b o : Buf) (y : Nat) : State × Option (List Nat) :=
  let p := s.readLine b y
  let q := p.1.readLine o y
  (q.1, match p.2, q.2, b.format with
    | some n, some m, some f => some ((m.zip n).map fun v => Config.frameBlend v.1 v.2 % 2 ^ f.depth)
    | _, _, _ => none)

/-- Source line y of a frame reaches the buffer that it is written to, through decimation where the store has it (R194). For a line that
is missing, the row of the newest complete frame is written again, or black (R35); of a decimated copy so is a row of which any source
line is missing (DESIGN CHOICE, log 62). -/
def State.bufferLine (s : State) (key : Nat) (b : Buf) (l : FlLine) : State :=
  match b.srcFormat, b.format with
  | some g, some f =>
    let d := b.fmt / 2 ^ 32
    let fl := fieldLine g.scan g.fmt l.line
    let rows := if f.scan = 0 then f.h else f.h / 2
    let j := fl.2 / d
    let got := (if fl.2 % d = 0 then [] else b.decim) ++ [if l.missing then [] else l.words]
    let r := s.ring key
    let s := s.setRing key { r with bufs := r.bufs.map fun (o : Buf) => if o.seq = b.seq ∧ o.st = 1 then { o with decim := got } else o }
    if fl.2 % d + 1 = d ∧ j < rows then
      let row := fl.1 * rows + j
      let p := pitchOf f.w f.bpp
      if got.any List.isEmpty || got.length != d then
        let q : State × Option (List Nat) := match r.find r.newest with
          | some o => if o.fmt = b.fmt then s.readRow o.bins f row else (s, none)
          | none => (s, none)
        q.1.storeRow b.bins row p (packLine f.depth p (q.2.getD f.blackWords))
      else s.storeRow b.bins row p (packLine f.depth p (decimLine d got))
    else s
  | _, _ => s

/-- Format of a frame that a context holds, as its source sent it, and as its ring or store has it (R194). -/
def CvPic.srcFormat (p : CvPic) : Option SrcFmt := fmtOfWord (p.fmt % 2 ^ 32)
def CvPic.format (p : CvPic) : Option SrcFmt := p.srcFormat.map (·.decimate (p.fmt / 2 ^ 32))

/-- A source line reaches a frame in progress that a context writes; for a missing one stands the line of the frame before, or black (R35). -/
def CvPic.take (p : CvPic) (prev : Option CvPic) (l : FlLine) : CvPic :=
  let black := match p.srcFormat with | some f => f.blackWords | none => []
  let w := if l.missing then (match prev with | some q => tget black q.lines l.line | none => black) else l.words
  { p with lines := p.lines ++ [(l.line, w)] }

/-- A source line reaches the contexts that write a frame of it (R174, R271). -/
def Ctx.take (x : Ctx) (c : Nat) (l : FlLine) : Ctx :=
  let prev := (x.pics.filter (·.done)).getLast?
  { x with pics := x.pics.map fun (p : CvPic) => if !p.done && p.src == c && p.epoch == l.epoch then p.take prev l else p }

/-- A line of source c reaches the Silo: every buffer, and every context, that a frame of the source in its epoch is being written to (R174,
R177, R271). -/
def State.siloLine (s : State) (c : Nat) (l : FlLine) : State :=
  let s := { s with conv := s.conv.map fun (p : Nat × Ctx) => (p.1, p.2.take c l) }
  s.silo.rings.foldl (fun u p =>
    (p.2.bufs.filter fun b => b.st == 1 && b.src == c && b.epoch == l.epoch).foldl (fun v b => v.bufferLine p.1 b l) u) s

/-! The BAR2 window (R197 to R199). -/

/-- The surface that holds a bin and can be written. -/
def State.surfaceOf (s : State) (bin : Nat) : Option Nat :=
  match s.silo.bins.find? fun p => p.2.2.contains bin with
  | some p =>
    if srcIsStore p.1 && s.effGet (storeA (p.1 - 0x600)) F.STORE_CFG_KIND == 3
        && s.effGet (storeA (p.1 - 0x600)) F.STORE_CFG_WR_MBPS != 0 then some (p.1 - 0x600) else none
  | none => none

/-- Update the Silo's own state. -/
def State.modSilo (s : State) (f : Silo → Silo) : State := { s with silo := f s.silo }

/-- Cost of writing a combining entry (R199). -/
def combineCost (e : Combine) : Nat := if e.bytes.length = 640 then 640 else 1920

/-- The window of a surface can take a charge (R199). -/
def State.meterFits (s : State) (i cost : Nat) : Bool :=
  tget 0 s.silo.charge i + cost ≤ s.effGet (storeA i) F.STORE_CFG_WR_MBPS * 10000

/-- Write a combining entry to memory, full or by read-modify-write, and charge it (R198, R199). -/
def State.combineFlush (s : State) (e : Combine) : State :=
  let stripe := 3277 * e.bin + e.stripe
  let s := s.modSilo fun x => { x with
    combining := x.combining.filter fun q => !(q.bin == e.bin && q.stripe == e.stripe) }
  let s := match s.surfaceOf e.bin with
    | some i => s.modSilo fun x => { x with charge := tset 0 x.charge i (tget 0 x.charge i + combineCost e) }
    | none => s
  let u := s.binRead e.bin e.stripe 0 10
  let free := s.silo.undef.any fun p => p.1 == e.bin && !p.2.2.contains e.stripe
  let s := s.modSilo fun x => { x with undef := x.undef.map fun p =>
    if p.1 = e.bin then (p.1, p.2.1, e.stripe :: p.2.2.filter (· != e.stripe)) else p }
  if e.bytes.length = 640 then s.stripeWrite stripe 0 (e.bytes.map (·.2))
  else if free then s.stripeWrite stripe 0 (e.bytes.foldl (fun l p => l.set p.1 p.2) (u.2.getD []))
  else s.stripeMerge stripe fun old => e.bytes.foldl (fun l p => l.set p.1 p.2) old

/-- Hold a BAR2 write, or with no bytes the writing of an entry, until the next window (R199; DESIGN CHOICE, log 77). -/
def State.holdWrite (s : State) (i off : Nat) (data : List Byte) (again : Bool) : State :=
  let s := s.modSilo fun x => { x with held := x.held ++ [(i, off, data)] }
  (if again then s else s.siloEvent 1 i 5).live siloB 5 true

/-- The entry of a stripe with bytes added. -/
def combineAdd (e : Combine) (off : Nat) (data : List Byte) : Combine :=
  let add (l : List (Nat × Byte)) (p : Nat × Byte) := tins (off + p.1) p.2 (l.filter fun q => q.1 != off + p.1)
  { e with bytes := ((List.range data.length).zip data).foldl add e.bytes }

/-- A BAR2 write within one stripe of a surface (R198, R199). -/
def State.bar2Piece (s : State) (i bin off : Nat) (data : List Byte) (again : Bool) : State :=
  let a := bin * 2 ^ 21 + off
  if !s.silo.held.isEmpty then s.holdWrite i a data again
  else
    let k := off / 640
    let hit := s.silo.combining.find? fun e => e.bin == bin && e.stripe == k
    let e := combineAdd (hit.getD ⟨bin, k, []⟩) (off % 640) data
    -- the oldest entry goes where all 64 are in use
    let evict := if hit.isNone && 64 ≤ s.silo.combining.length then s.silo.combining.head? else none
    let evictFits := match evict with
      | some o => match s.surfaceOf o.bin with | some j => s.meterFits j (combineCost o) | none => true
      | none => true
    if (e.bytes.length = 640 && !s.meterFits i 640) || !evictFits then s.holdWrite i a data again
    else
      let s := match evict with | some o => s.combineFlush o | none => s
      let insertIn (l : List Combine) : List Combine :=
        if hit.isSome then l.map fun q => if q.bin == bin && q.stripe == k then e else q else l ++ [e]
      let s := s.modSilo fun x => { x with combining := insertIn x.combining }
      if e.bytes.length = 640 then s.combineFlush e else s

/-- A BAR2 write that reaches no surface is discarded (R197). -/
def State.bar2Fault (s : State) (a : Nat) : State := (s.put siloB F.BAR2_FAULT_OFFSET a).raise siloB 6

/-- Bytes of a BAR2 write, stripe by stripe; `fuel` bounds the pieces. -/
def State.bar2Bytes : Nat → State → Nat → List Byte → State
  | 0, s, _, _ => s
  | fuel + 1, s, a, data =>
    if data.isEmpty then s
    else
      let bin := s.get siloB F.BAR2_BASE_BIN + a / 2 ^ 21
      let off := a % 2 ^ 21
      let n := if off < 2096640 then 640 - off % 640 else 2 ^ 21 - off
      let s := match (if off < 2096640 then s.surfaceOf bin else none) with
        | some i => s.bar2Piece i bin off (data.take n) false
        | none => if s.silo.held.isEmpty then s.bar2Fault a else s.holdWrite 512 a [] true
      State.bar2Bytes fuel s ((a + n) % 2 ^ 32) (data.drop n)

/-- BAR2_WRITE (R197). -/
def execBar2Write (offset : BitVec 32) (data : List Byte) (s : State) : Host.Outcome State Fault Refusal :=
  .next (State.bar2Bytes data.length s offset.toNat data)

/-- BAR2_READ (R197): the 32-bit word at an offset. -/
def execBar2Read (offset : BitVec 32) (s : State) : Host.Outcome State Fault Refusal :=
  let a := offset.toNat - offset.toNat % 4
  let bin := s.get siloB F.BAR2_BASE_BIN + a / 2 ^ 21
  let off := a % 2 ^ 21
  .next (if off < 2096640 && 2 ≤ (s.binOwner bin).1 then
      let s := match s.silo.combining.find? fun e => e.bin == bin && e.stripe == off / 640 with
        | some e => s.combineFlush e
        | none => s
      let r := s.binRead bin (off / 640) (off % 640 / 64) 1
      match r.2 with
      | some b => r.1.answer (BitVec.ofNat 32 (ofLe (slice b (off % 64) 4)))
      | none => (r.1.raise wnB 3).emit .busError
    else s.answer 0)

/-- COMBINE_TIMEOUT (R198). -/
def execCombineTimeout (bin : Fin 0x40000) (stripe : Fin 3276) (s : State) : Host.Outcome State Fault Refusal :=
  .next (match s.silo.combining.find? fun e => e.bin == bin.val && e.stripe == stripe.val with
    | none => s
    | some e =>
      match s.surfaceOf e.bin with
      | some i => if s.meterFits i (combineCost e) then s.combineFlush e
          else s.holdWrite i (e.bin * 2 ^ 21 + 640 * e.stripe) [] false
      | none => s.combineFlush e)

/-- A doorbell of the host acts (R253): every combining entry that is open is flushed first. -/
def State.doorbell (s : State) (a : Nat) (v : Word) : State := (s.silo.combining.foldl (fun t e => t.combineFlush e) s).wr a v

/-- METER_WINDOW (R199): held writes go on in order. -/
def execMeterWindow (store : Fin 512) (s : State) : Host.Outcome State Fault Refusal :=
  let l := s.silo.held
  let s := s.modSilo fun x => { x with charge := tset 0 x.charge store.val 0, held := [] }
  let s := l.foldl (fun u p =>
    let bin := p.2.1 / 2 ^ 21
    let off := p.2.1 % 2 ^ 21
    if 512 ≤ p.1 then
      if !u.silo.held.isEmpty then u.holdWrite p.1 p.2.1 p.2.2 true
      else if p.1 = 512 then u.bar2Fault p.2.1
      else u.doorbell p.2.1 (BitVec.ofNat 32 (ofLe p.2.2))
    else if p.2.2.isEmpty then
      match u.silo.combining.find? fun e => e.bin == bin && e.stripe == off / 640 with
      | none => u
      | some e => if u.silo.held.isEmpty && u.meterFits p.1 (combineCost e) then u.combineFlush e
          else u.holdWrite p.1 p.2.1 [] true
    else u.bar2Piece p.1 bin off p.2.2 true) s
  .next (s.live siloB 5 (!s.silo.held.isEmpty))

end Sys2Proof.Machine
end

