-- ==== Sys2Proof/Machine/Composer.lean ====
section
/-! DEFINITION. The output composers (chapter 07): geometry and checks, coefficient tables and LUTs, the path of a pixel,
damaged lines, and the fences of graphic layers; and the video lines of the Finano links (R25). -/

namespace Sys2Proof.Machine

/-! Geometry (R224, R233, R234, R235). -/

/-- A layer's window in its source: CX, CY, Ws and Hs (R224). -/
structure Window where
  cx : Nat
  cy : Nat
  ws : Nat
  hs : Nat
deriving DecidableEq, Repr

/-- The window of layer k of output g in a source. -/
def State.layerWin (s : State) (g k : Nat) (f : SrcFmt) : Window :=
  let b := layB g k
  let cx := s.effGet b F.LAYER_CROP_POS_CX
  let cy := s.effGet b F.LAYER_CROP_POS_CY
  let cw := s.effGet b F.LAYER_CROP_SIZE_CW
  let ch := s.effGet b F.LAYER_CROP_SIZE_CH
  ⟨cx, cy, if cw = 0 then f.w - cx else cw, if ch = 0 then f.h - cy else ch⟩

/-- Output format of the composer of output g. -/
abbrev State.outFmt (s : State) (g : Nat) : Nat := s.get (outB g) F.OUT_CFG_FMT

/-- Source and output have the same scan, both interlaced or both PsF: the layer is scaled field by field (R233). -/
def State.byField (s : State) (g : Nat) (f : SrcFmt) : Bool := f.scan != 0 && f.scan == scanOf (s.outFmt g)

/-- Size of a layer's rectangle (R224). -/
def State.rectSize (s : State) (g k : Nat) (w : Window) : Nat × Nat :=
  if k < 2 then (s.effGet (layB g k) F.LAYER_SIZE_WD, s.effGet (layB g k) F.LAYER_SIZE_HD) else (w.ws, w.hs)

/-- Top left corner of a layer's rectangle. -/
def State.rectPos (s : State) (g k : Nat) : Int × Int :=
  (sgn 16 (s.effGet (layB g k) F.LAYER_POS_X0), sgn 16 (s.effGet (layB g k) F.LAYER_POS_Y0))

/-- Line-buffer lines that a V layer requires (R235). -/
def linesRequired (hs hd : Nat) : Nat := (6 * hs + hd - 1) / hd + 2

/-- Lines required and capacity of a V layer (R235). -/
def State.lineNeed (s : State) (g k : Nat) (f : SrcFmt) : Nat × Nat :=
  let w := s.layerWin g k f
  let hd := (s.rectSize g k w).2
  let n := if s.byField g f then linesRequired (w.hs / 2) (hd / 2) else linesRequired w.hs hd
  (n, if w.ws ≤ 4096 then 40 else 20)

/-- Format of the source of a layer's route, where the route is enabled and names one; of a converted source, whose output is
progressive (R262). -/
def State.layerFmt (s : State) (g k : Nat) : Option SrcFmt :=
  let i := 4 * g + k
  if s.effIs (routeA 0 i) F.ROUTE_CFG_EN && s.routeSrc 0 i != 0xFFF then
    (if s.isConv 0 i then (s.convFmt (s.routeSrc 0 i)).map fun f => { f with scan := 0 } else s.srcFmt (s.routeSrc 0 i))
  else none

/-- Format of the lines that a layer shows: of its converter's frames, of the frame in the buffer that it reads, or of its source. -/
def State.shownFmt (s : State) (g k : Nat) : Option SrcFmt :=
  let i := 4 * g + k
  let c := s.routeSrc 0 i
  if s.effIs (routeA 0 i) F.ROUTE_CFG_EN && c != 0xFFF then
    if s.get (routeStatA 0 i) F.ROUTE_STAT_PATH = 3 then
      ((s.routeCtx 0 i).bind fun p => (s.ctx p.1 p.2).fmt).map fun f => { f with scan := 0 }
    else if s.onStored 0 i && s.framed c then
      match (s.reader g c).buf.bind (s.ring c).find with
      | some b => b.format
      | none => s.srcFmt c
    else s.srcFmt c
  else none

/-- The four POS fields name four different layers (R223). -/
def State.orderOk (s : State) (g : Nat) : Bool :=
  let l := [s.effGet (compB g) F.COMP_ORDER_POS1, s.effGet (compB g) F.COMP_ORDER_POS2,
    s.effGet (compB g) F.COMP_ORDER_POS3, s.effGet (compB g) F.COMP_ORDER_POS4]
  [0, 1, 2, 3].all l.contains

/-- DEPTH exceeds the word depth of the output (R244). -/
def State.ditherBad (s : State) (g : Nat) : Bool :=
  2 ≤ s.effGet (compB g) F.COMP_DITHER_DEPTH && !s.is (outB g) F.OUT_CFG_D12

/-- Buffers of a surface; none for a source that is no surface (R249). -/
def State.surfaceDepth (s : State) (c : Nat) : Option Nat :=
  if srcIsStore c && s.effGet (storeA (c - 0x600)) F.STORE_CFG_KIND == 3 then some (s.storeDepth (c - 0x600)) else none

/-- A layer cannot be performed as it is set (R224, R233, R234, R249). Checks that need the source are made where one is
named. -/
def State.layerBad (s : State) (g k : Nat) : Bool :=
  let b := layB g k
  let wd := s.effGet b F.LAYER_SIZE_WD
  let hd := s.effGet b F.LAYER_SIZE_HD
  (k < 2 && (wd == 0 || hd == 0 || 8192 < wd || 4320 < hd)) ||
  let buf := s.effGet b F.LAYER_CTRL_BUF
  let c := s.routeSrc 0 (4 * g + k)
  (s.effIs (routeA 0 (4 * g + k)) F.ROUTE_CFG_EN && c != 0xFFF
    && (match s.surfaceDepth c with | some d => decide (d ≤ buf) | none => buf != 0)) ||
  match s.layerFmt g k with
  | none => false
  | some f =>
    let w := s.layerWin g k f
    let even (v : Nat) : Bool := v % 2 == 0
    w.ws == 0 || w.hs == 0 || f.w < w.cx + w.ws || f.h < w.cy + w.hs || 8192 < w.ws || 8192 < w.hs
      || (k < 2 && (16 * w.ws < wd || 16 * wd < w.ws || 16 * w.hs < hd))
      || (k < 2 && s.byField g f && !(even w.cy && even (s.effGet b F.LAYER_CROP_SIZE_CH)
          && even (s.effGet b F.LAYER_POS_Y0) && even hd))

/-- A V layer needs more lines than its line buffer holds (R235). -/
def State.linebufShort (s : State) (g k : Nat) : Bool :=
  k < 2 && match s.layerFmt g k with
    | some f => (s.lineNeed g k f).2 < (s.lineNeed g k f).1
    | none => false

/-- Source lines that destination frame line `y` of a layer reads, by position: six lines (or the one of a G layer), clamped
to the window, and the phase (R228, R229, R233); none outside the rectangle. -/
def State.srcRows (s : State) (g k : Nat) (f : SrcFmt) (y : Nat) : Option (List (List Nat × Nat)) :=
  let w := s.layerWin g k f
  let hd := (s.rectSize g k w).2
  let r : Int := (y : Int) - (s.rectPos g k).2
  if r < 0 ∨ (hd : Int) ≤ r then none
  else
    let r := r.toNat
    if 2 ≤ k then some [([w.cy + r], 0)]
    else
      let fld := s.byField g f
      let vs := if fld then w.hs / 2 else w.hs
      let vt := if fld then hd / 2 else hd
      let d := if fld then r / 2 else r
      let line (i : Int) : Nat :=
        let j := (clampI 0 (vs - 1 : Nat) i).toNat
        if fld then w.cy + 2 * j + y % 2 else w.cy + j
      some ((scalePositions vs vt d).map fun p => ((List.range 6).map fun t => line (p.1 - 2 + (t : Int)), p.2))

/-- Place of a frame line in the order of transmission (R565). -/
def lineTime (fmt y : Nat) : Nat :=
  let p := fieldLine (scanOf fmt) fmt y
  p.1 * ((activeOf fmt).2 / 2) + p.2

/-- The first destination line, in transmission order, whose footprint includes a source line. -/
def State.firstUse (s : State) (g k : Nat) (f : SrcFmt) (line : Nat) : Option Nat :=
  let fmt := s.outFmt g
  (List.range (activeOf fmt).2).foldl (fun best y =>
    match s.srcRows g k f y with
    | some rows =>
      if rows.any fun p => p.1.contains line then
        some (match best with | some b => min b (lineTime fmt y) | none => lineTime fmt y)
      else best
    | none => best) none

/-! What a layer shows (R225). -/

/-- Lines of the frame that a converter route's context delivers (R261). -/
def State.convOut (s : State) (t i : Nat) : List (List Nat) :=
  match allSlots.find? fun p => (s.ctx p.1 p.2).routes.contains (t * 4096 + i) with
  | some p => (s.ctx p.1 p.2).out
  | none => []

/-- A layer contributes to the blend (R225). -/
def State.contributes (s : State) (g k : Nat) : Bool :=
  let i := 4 * g + k
  let c := s.routeSrc 0 i
  s.effIs (layB g k) F.LAYER_CTRL_VISIBLE && s.routeShows 0 i && !tget false s.silo.hidden i &&
    (match s.get (routeStatA 0 i) F.ROUTE_STAT_PATH with
      | 0 => false
      | 3 => !(s.convOut 0 i).isEmpty
      | _ =>
        if !s.onStored 0 i then (s.layer g k).fed
        else if s.framed c then (s.layer g k).fed && (s.reader g c).seq != 0
        else (s.surfaceDepth c).isSome)

/-- LAYER_STAT of a layer (R254). -/
def State.layerStat (s : State) (g k : Nat) : State :=
  let i := 4 * g + k
  let a := compB g + 4 * k
  let st := if !s.contributes g k then 0 else if (s.layer g k).hiddenFrom.isSome then 2
    else if s.is (routeStatA 0 i) F.ROUTE_STAT_SOURCE_OK then 1 else 3
  let need := if k < 2 then (match s.layerFmt g k with | some f => s.lineNeed g k f | none => (0, 0)) else (0, 0)
  s.puts a [(F.LAYER_STAT_STATE, st), (F.LAYER_STAT_LINES_REQ, min 255 need.1), (F.LAYER_STAT_LINES_CAP, need.2),
    (F.LAYER_STAT_BUF_SHOWN, s.effGet (layB g k) F.LAYER_CTRL_BUF)]

/-- LAYER_STAT of the four layers. -/
def State.layerStats (s : State) (g : Nat) : State := s.forAll [0, 1, 2, 3] fun k t => t.layerStat g k

/-! Coefficient tables (R230 to R232, R256). -/

/-- Address of a coefficient word of output g. -/
def coefA (g layer : Nat) (vertical : Bool) (phase word : Nat) : Nat :=
  compB g + 0x1000 + 0x800 * layer + 0x400 * b2n vertical + 16 * phase + 4 * word

/-- Taps of a filter. -/
def tapsOf (vertical : Bool) : Nat := if vertical then 6 else 8

/-- Coefficients of a phase, from the words that `word` reads. -/
def coefsOf (vertical : Bool) (word : Nat → Word) : List Int :=
  (List.range (tapsOf vertical)).map fun t => sgn 12 (fldGet (word (t / 2)) (16 * (t % 2)) 12)

/-- The tap that takes the difference to unity (R231). -/
def centreTap (vertical : Bool) (phase : Nat) : Nat := (if vertical then 2 else 3) + (if phase < 32 then 0 else 1)

/-- Normalise a phase (R231): its coefficients, and whether they were corrected. -/
def normalise (vertical : Bool) (phase : Nat) (c : List Int) : List Int × Bool :=
  let d := 1024 - c.foldl (· + ·) 0
  if d = 0 then (c, false)
  else
    let t := centreTap vertical phase
    (c.set t (clampI (-2048) 2047 (c.getD t 0 + d)), true)

/-- A faulty phase is read as the reset coefficients of R230 (R248). -/
def badKey (layer : Nat) (vertical : Bool) (phase : Nat) : Nat := layer * 128 + b2n vertical * 64 + phase

/-- Coefficients of a phase as the scaler uses them. -/
def State.coefs (s : State) (g layer : Nat) (vertical : Bool) (phase : Nat) : List Int :=
  let a (w : Nat) := coefA g layer vertical phase w
  if tget false (s.comp g).badCoef (badKey layer vertical phase) then coefsOf vertical fun w => resetWord (a w)
  else coefsOf vertical fun w => s.rd (a w)

/-- The output pipe of a group that computes an active line (R246). -/
def State.pipeOf (s : State) (g y : Nat) : Nat := if s.outBonded g && g % 4 == 0 then g + y % 4 else g

/-- The output's composer is stopped: a member follows the first port of its group. -/
abbrev State.outStopped (s : State) (g : Nat) : Bool := s.is (outB g) F.STAT_STOPPED

/-- Coefficient writes of a layer are refused (R232). -/
def State.coefLocked (s : State) (g layer : Nat) : Bool :=
  s.effIs (layB g layer) F.LAYER_CTRL_VISIBLE && !s.outStopped g

/-- A refused coefficient access (R232): STRUCTURAL_WHILE_RUNNING, with the sequencer's event (R66). -/
def State.coefRefuse (s : State) (g : Nat) : State :=
  ((s.refuseDirect (compB g) rcStructural).raise seqB 3).raise (compB g) 5

/-- The faulty phases of one table are read again from the table (R248). -/
def State.tableWritten (s : State) (g layer : Nat) (vertical : Bool) : State :=
  let c := s.comp g
  s.setComp g { c with badCoef := c.badCoef.filter fun p => p.1 / 64 != 2 * layer + b2n vertical }

/-- Store the coefficients of a phase. -/
def State.coefStore (s : State) (g layer : Nat) (vertical : Bool) (phase : Nat) (c : List Int) : State :=
  s.forAll (List.range (tapsOf vertical / 2)) fun w t =>
    t.wr (coefA g layer vertical phase w)
      (BitVec.ofNat 32 (unsgn 12 (c.getD (2 * w) 0) + unsgn 12 (c.getD (2 * w + 1) 0) * 0x10000))

/-- COEF_WRITE (R231, R232, R246): in a bonded group to the tables of all four pipes. -/
def execCoefWrite (g : Fin 96) (c : CoefAddr) (v : Word) (s : State) : Host.Outcome State Fault Refusal :=
  let o := g.val
  let l := c.layer.val
  .next (s.hostWrite (o / 16 + 1) (
    if s.outMember o then s.raise (compB o) 5
    else if c.vertical && c.word.val == 3 then s
    else if s.coefLocked o l then s.coefRefuse o
    else
      (s.outGroup o).foldl (fun u p =>
        let a := coefA p l c.vertical c.phase.val c.word.val
        let u := (u.wr a (v &&& 0x0FFF0FFF)).tableWritten p l c.vertical
        let n := normalise c.vertical c.phase.val (u.coefs p l c.vertical c.phase.val)
        let u := u.coefStore p l c.vertical c.phase.val n.1
        if n.2 then (u.put (compB p) (if l = 0 then F.COEF_CTRL_NORM_V1 else F.COEF_CTRL_NORM_V2) 1).raise (compB p) 7 else u) s))

/-- A layer's tables take their reset values (R230): these are the defaults after R231. -/
def State.coefReload (s : State) (g layer : Nat) : State :=
  let s := s.forAll (List.range 512) fun w t =>
    let a := compB g + 0x1000 + 0x800 * layer + 4 * w
    t.wr a (resetWord a)
  (((s.tableWritten g layer false).tableWritten g layer true).put (compB g)
    (if layer = 0 then F.COEF_CTRL_NORM_V1 else F.COEF_CTRL_NORM_V2) 0)

/-- COEF_RESTORE (R230, R232): loading the defaults corrects phases of them (R231). -/
def execCoefRestore (g : Fin 96) (layers : Fin 4) (s : State) : Host.Outcome State Fault Refusal :=
  let o := g.val
  .next (s.hostWrite (o / 16 + 1) (
    if s.outMember o then s.raise (compB o) 5
    else s.forAll [0, 1] fun l t =>
      if !bitN layers.val l then t
      else if t.coefLocked o l then t.coefRefuse o
      else (t.outGroup o).foldl (fun u p => (u.coefReload p l).raise (compB p) 7) t))

/-! LUTs (R239 to R241, R257). -/

/-- Table that LUT_ADDR addresses. -/
def State.lutTable (s : State) (g : Nat) : Nat :=
  let t := s.get (compB g + 0x2000) F.LUT_ADDR_TABLE
  if t = 3 then 0 else t

/-- Entry of a LUT (R239, R240). -/
def State.lutEntry (s : State) (g bank table i : Nat) : Nat × Nat × Nat :=
  match (s.comp g).luts.find? fun p => p.1 == i * 8 + bank * 4 + table with
  | some p => p.2
  | none => lutReset table i

/-- Entries of a LUT. -/
def lutSize (table : Nat) : Nat := if table = 1 then 4913 else 1024

/-- A group that changes LUT_BANK of this composer is armed and neither taken nor refused (R241). -/
def State.bankArmed (s : State) (g : Nat) : Bool :=
  let a := compB g + 0x50
  let cur := s.effGet (compB g) F.COMP_COLOR_LUT_BANK
  (List.range 64).any fun n =>
    let st := s.get (cgB n) F.CG_STAT_STATE
    if st = 0 then false
    else if st = 1 ∨ st = 3 then s.tagOf a == n && s.get (compB g) F.COMP_COLOR_LUT_BANK != cur
    else (s.grp n).staging.any fun p => p.1 == a && fldGet p.2 3 1 != cur

/-- INDEX after an access to LUT_DATA1 (R257). -/
def State.lutInc (s : State) (g : Nat) : State :=
  let b := compB g + 0x2000
  if s.is b F.LUT_ADDR_AUTO_INC then s.put b F.LUT_ADDR_INDEX (s.get b F.LUT_ADDR_INDEX + 1) else s

/-- LUT_WRITE (R241): C0, C1 and C2 are stored together, in a bonded group in the tables of all four pipes (R246). -/
def execLutWrite (g : Fin 96) (v : Word) (s : State) : Host.Outcome State Fault Refusal :=
  let o := g.val
  let b := compB o + 0x2000
  .next (s.hostWrite (o / 16 + 1) (
    if s.outMember o then s.raise (compB o) 5
    else
      let bank := s.get b F.LUT_ADDR_BANK
      let t := s.lutTable o
      let i := s.get b F.LUT_ADDR_INDEX
      if bank = s.effGet (compB o) F.COMP_COLOR_LUT_BANK || s.bankArmed o || lutSize t ≤ i then
        (s.raise (compB o) 5).lutInc o
      else
        let e := (s.get b F.LUT_DATA0_C0, s.get b F.LUT_DATA0_C1, fldGet v 0 14)
        ((s.outGroup o).foldl (fun u p =>
          let c := u.comp p
          u.setComp p { c with luts := tset (lutReset t i) c.luts (i * 8 + bank * 4 + t) e }) s).lutInc o))

/-- The entry that the LUT port addresses; an index that the table does not have reads zero. -/
def State.lutAt (s : State) (g : Nat) : Nat × Nat × Nat :=
  let b := compB g + 0x2000
  let t := s.lutTable g
  let i := s.get b F.LUT_ADDR_INDEX
  if i < lutSize t then s.lutEntry g (s.get b F.LUT_ADDR_BANK) t i else (0, 0, 0)

/-- LUT_READ (R257): a read of LUT_DATA1 answers c2 of the entry. -/
def execLutRead (g : Fin 96) (s : State) : Host.Outcome State Fault Refusal :=
  let o := g.val
  .next (if s.present (o / 16 + 1) then
      (s.answer (BitVec.ofNat 32 (s.lutAt o).2.2)).lutInc o
    else (s.absentAccess (o / 16 + 1)).answer 0xFFFFFFFF)

/-! The path of a pixel (R221). -/

/-- Three matrices' words: nine coefficients, three input and three output offsets, from a register base (R236, R255). -/
def State.matrixRegs (s : State) (m0 o0 : Nat) : List Int × List Int × List Int :=
  let h (a i : Nat) : Int := sgn 16 (fldGet (s.effRd (a + 4 * (i / 2))) (16 * (i % 2)) 16)
  ((List.range 9).map (h m0), (List.range 3).map (h o0), (List.range 3).map fun i => h o0 (i + 3))

/-- A source line of a layer scaled horizontally by pipe p (stages 1 to 4, R226 to R229). -/
def State.hLine (s : State) (p g k : Nat) (f : SrcFmt) (l : List Nat) : List Px :=
  let w := s.layerWin g k f
  let px := ((unpackLine f.kind f.depth (s.effIs (layB g k) F.LAYER_CTRL_SRC_ALPHA) l).drop w.cx).take w.ws
  if 2 ≤ k then px
  else
    let wd := (s.rectSize g k w).1
    let sc (top : Nat) (h : Px → Nat) := scaleLine top (s.coefs p k false) (px.map h) wd
    (sc 16383 (·.1)).zip ((sc 16383 (·.2.1)).zip ((sc 16383 (·.2.2.1)).zip (sc 16384 (·.2.2.2))))

/-- The pixels of a layer on a destination line, by column of its rectangle (stages 1 to 4). -/
def State.layerLine (s : State) (g k : Nat) (f : SrcFmt) (y : Nat) : List Px :=
  match s.srcRows g k f y with
  | none => []
  | some rows =>
    let get (n : Nat) : List Nat := tget [] (s.layer g k).lines n
    let p := s.pipeOf g y
    if 2 ≤ k then s.hLine p g k f (get ((rows.headD ([], 0)).1.headD 0))
    else
      let hs := (dedupN (rows.flatMap (·.1))).map fun n => (n, s.hLine p g k f (get n))
      let wd := (s.rectSize g k (s.layerWin g k f)).1
      (List.range wd).map fun x =>
        let v (top : Nat) (h : Px → Nat) : Nat := tapMean (rows.map fun r =>
          tapSum top (s.coefs p k true r.2) (r.1.map fun n => h ((tget [] hs n).getD x (0, 0, 0, 0))))
        (v 16383 (·.1), v 16383 (·.2.1), v 16383 (·.2.2.1), v 16384 (·.2.2.2))

/-- Premultiplied colour and effective alpha of a pixel (stages 5 and 6, R237, R238). -/
def State.layerPx (s : State) (g k : Nat) (p : Px) : (Nat × Nat × Nat) × Nat :=
  let b := layB g k
  let m := s.matrixRegs (b + 0x18) (b + 0x2C)
  let a := min 16384 (s.effGet b F.LAYER_ALPHA_ALPHA)
  let as := p.2.2.2
  let pre := s.effIs b F.LAYER_CTRL_PREMULT
  let c := (p.1, p.2.1, p.2.2.1)
  let c := if pre then matrix m.1 (scaleOfs m.2.1 as) (scaleOfs m.2.2 as) c else matrix m.1 m.2.1 m.2.2 c
  let ae := effAlpha as a
  let k := if pre then a else ae
  ((premul c.1 k, premul c.2.1 k, premul c.2.2 k), ae)

/-- A layer is blended over a line of the picture (stage 7, R238). -/
def State.blendLayer (s : State) (g k y : Nat) (d : List (Nat × Nat × Nat)) : List (Nat × Nat × Nat) :=
  match s.shownFmt g k with
  | none => d
  | some f =>
    let l := s.layer g k
    let hid := match l.hiddenFrom with | some t => t ≤ lineTime (s.outFmt g) y | none => false
    if !s.contributes g k || hid then d
    else
      let px := s.layerLine g k f y
      let x0 := (s.rectPos g k).1
      ((List.range d.length).zip d).map fun (p : Nat × (Nat × Nat × Nat)) =>
        let x : Int := (p.1 : Int) - x0
        if x < 0 then p.2
        else match px[x.toNat]? with
          | none => p.2
          | some q =>
            let c := s.layerPx g k q
            (blendOver c.1.1 c.2 p.2.1, blendOver c.1.2.1 c.2 p.2.2.1, blendOver c.1.2.2 c.2 p.2.2.2)

/-- The colour stages 8 to 11 of a pixel, with the tables of pipe p (R239, R240, R242, R246, R248). -/
def State.colourPx (s : State) (p g : Nat) (v : Nat × Nat × Nat) : Nat × Nat × Nat :=
  let b := compB g
  let bank := s.effGet b F.COMP_COLOR_LUT_BANK
  let byp (n : Nat) : Bool := bitN (s.get (compB p) F.COMP_STAT_LUT_BYPASS) n
  let one (t : Nat) (v : Nat × Nat × Nat) : Nat × Nat × Nat :=
    (lut1d (fun i => (s.lutEntry p bank t i).1) v.1, lut1d (fun i => (s.lutEntry p bank t i).2.1) v.2.1,
      lut1d (fun i => (s.lutEntry p bank t i).2.2) v.2.2)
  let v := if s.effIs b F.COMP_COLOR_PRE_EN && !byp 0 then one 0 v else v
  let v := if s.effIs b F.COMP_COLOR_LUT3D_EN && !byp 1 then
      let l := [v.1, v.2.1, v.2.2]
      (lut3d (fun i => (s.lutEntry p bank 1 i).1) l, lut3d (fun i => (s.lutEntry p bank 1 i).2.1) l,
        lut3d (fun i => (s.lutEntry p bank 1 i).2.2) l)
    else v
  let v := if s.effIs b F.COMP_COLOR_POST_EN && !byp 2 then one 2 v else v
  let m := s.matrixRegs (b + 0x5C) (b + 0x70)
  matrix m.1 m.2.1 m.2.2 v

/-- Components and columns of the samples of a line in transmission order (stage 12, R242, R189). -/
def sampleOrder (sampling : Nat) (l : List (Nat × Nat × Nat)) : List (Nat × Nat) :=
  if sampling = 0 then
    let cb := l.map (·.2.1)
    let cr := l.map (·.2.2)
    (List.range (l.length / 2)).flatMap fun k =>
      [(chromaDown cb k, 2 * k), ((l.getD (2 * k) (0, 0, 0)).1, 2 * k), (chromaDown cr k, 2 * k),
        ((l.getD (2 * k + 1) (0, 0, 0)).1, 2 * k + 1)]
  else ((List.range l.length).zip l).flatMap fun p =>
    if sampling = 1 then [(p.2.2.1, p.1), (p.2.1, p.1), (p.2.2.2, p.1)]
    else [(p.2.2.1, p.1), (p.2.2.2, p.1), (p.2.1, p.1)]

/-- DEPTH in bits (R254). -/
def ditherDepth (v : Nat) : Nat := if v = 0 then 8 else if v = 1 then 10 else 12

/-- The words of active frame line `y` of the composer of output g (stages 7 to 13). -/
def State.composeLine (s : State) (g y : Nat) : List Nat :=
  let b := compB g
  let bg := (s.effGet b F.COMP_BG0_C0, s.effGet b F.COMP_BG0_C1, s.effGet b F.COMP_BG1_C2)
  let d0 := List.replicate (activeOf (s.outFmt g)).1 bg
  let d := [F.COMP_ORDER_POS1, F.COMP_ORDER_POS2, F.COMP_ORDER_POS3, F.COMP_ORDER_POS4].foldl (fun d p =>
    s.blendLayer g (s.effGet b p) y d) d0
  let sm := sampleOrder (s.get (outB g) F.OUT_CFG_SAMPLING) (d.map (s.colourPx (s.pipeOf g y) g))
  let dd := if s.is (outB g) F.OUT_CFG_D12 then 12 else 10
  let depth := min dd (ditherDepth (s.effGet b F.COMP_DITHER_DEPTH))
  let frame := s.get (tdB (s.get (outB g) F.OUT_CFG_DOMAIN)) F.TD_FRAME_COUNT
  let n := ditherNoise (s.effGet b F.COMP_DITHER_MODE) (14 - depth) (s.effRd (b + 0x58)).toNat y frame (sm.map (·.2))
  (sm.zip n).map fun p => packSample depth dd p.2 p.1.1

/-- Every source line that a destination line reads has arrived. -/
def State.linesReady (s : State) (g y : Nat) : Bool :=
  [0, 1, 2, 3].all fun k =>
    match s.shownFmt g k with
    | none => true
    | some f =>
      let l := s.layer g k
      let hid := match l.hiddenFrom with | some t => t ≤ lineTime (s.outFmt g) y | none => false
      !s.contributes g k || hid || (match s.srcRows g k f y with
        | none => true
        | some rows => (rows.flatMap (·.1)).all fun n => l.lines.any fun p => p.1 == n)

/-! Damaged lines (R247, R248). -/

/-- Source line y as a layer reads it from the Silo: of its converter's frame, of the surface's buffer, or of the frame that its read
context holds, two of them blended where it holds two (R203); none where it cannot be read. -/
def State.storedLine (s : State) (g k y : Nat) : State × Option (List Nat) :=
  let i := 4 * g + k
  let c := s.routeSrc 0 i
  if s.get (routeStatA 0 i) F.ROUTE_STAT_PATH = 3 then (s, (s.convOut 0 i)[y]?)
  else if s.framed c then
    let r := s.reader g c
    match r.buf.bind (s.ring c).find, r.buf2.bind (s.ring c).find with
    | some b, none => s.readLine b y
    | some b, some o => s.blendRead b o y
    | none, _ => (s, none)
  else
    match s.srcFmt c, (s.layer g k).surf with
    | some f, some (_, n) => s.readRow ((s.binsOf c).2.drop (n * binsPerBuf f)) f y
    | _, _ => (s, none)

/-- The substitute of a damaged source line (R247): on the cut-through path the line of the newest complete frame of the source's ring; on
the stored path the line of the frame that the layer's read context showed in the output frame before, while its buffer lasts. A converter
route's is that of the frame that its context delivered before (DESIGN CHOICE, log 63). -/
def State.substitute (s : State) (g k y : Nat) : State × Option (List Nat) :=
  let i := 4 * g + k
  let c := s.routeSrc 0 i
  let p := s.get (routeStatA 0 i) F.ROUTE_STAT_PATH
  if p = 3 then (s, ((s.layer g k).prev.find? fun q => q.1 == y).map (·.2))
  else if !s.onStored 0 i then
    match (s.ring c).find (s.ring c).newest with
    | some b => if b.format = s.shownFmt g k then s.readLine b y else (s, none)
    | none => (s, none)
  else if s.framed c then
    match (s.reader g c).prev.bind (s.ring c).find with
    | some b => if b.format = s.shownFmt g k then s.readLine b y else (s, none)
    | none => (s, none)
  else
    match s.srcFmt c, (s.layer g k).prevSurf with
    | some f, some (d, n) => if d = c then s.readRow ((s.binsOf c).2.drop (n * binsPerBuf f)) f y else (s, none)
    | _, _ => (s, none)

/-- A layer is hidden from the first destination line that reads a source line (R247). -/
def State.hideLayer (s : State) (g k : Nat) (f : SrcFmt) (y : Nat) : State :=
  match s.firstUse g k f y with
  | none => s
  | some t =>
    let l := s.layer g k
    let s := if (List.range 4).any fun j => (s.layer g j).hiddenFrom.isSome then s else s.bump (compB g) F.COMP_HIDE_FRAMES
    let s := s.raiseIf l.hiddenFrom.isNone (compB g) 1
    let from' := match l.hiddenFrom with | some u => min t u | none => t
    (s.setLayer g k { l with hiddenFrom := some from' }).layerStat g k

/-- A source line of a layer is damaged (R247). -/
def State.damage (s : State) (g k y : Nat) : State :=
  match s.shownFmt g k with
  | none => s
  | some f =>
    let w := s.layerWin g k f
    if !s.contributes g k || y < w.cy || w.cy + w.hs ≤ y then s
    else
      let q := s.substitute g k y
      let s := q.1
      let l := s.layer g k
      match q.2 with
      | some line =>
        ((s.setLayer g k { l with lines := tset [] l.lines y line, damaged := y :: l.damaged }).bump (compB g)
          F.COMP_SUB_LINES).raise (compB g) 0
      | none => (s.setLayer g k { l with damaged := y :: l.damaged }).hideLayer g k f y

/-- COMPOSER_UE (R248). -/
def execComposerUe (g : Fin 96) (u : CompUe) (s : State) : Host.Outcome State Fault Refusal :=
  let o := g.val
  let b := compB o
  let a := u.array.val
  .next (if s.present (o / 16 + 1) then
      let s := s.setFault b a u.index.val
      let c := if s.outMember o then o - o % 4 else o
      if a < 2 then s.damage c a u.unit
      else if 10 ≤ a then s.damage c (a - 8) u.unit
      else if a < 8 then
        if a % 2 = s.effGet (compB c) F.COMP_COLOR_LUT_BANK then
          let bit := if a < 4 then 1 else if a < 6 then 0 else 2
          ((s.cause b F.COMP_STAT_LUT_BYPASS bit).raise b 6).live b 6 true
        else s
      else
        let x := s.comp o
        (s.setComp o { x with badCoef := tset false x.badCoef (badKey (a - 8) u.vertical (u.unit % 64)) true }).raise b 6
    else s)

/-! Lines of the Finano links (R25, R30, R537). -/

/-- A source line arrives at a layer, or damaged. -/
def State.layerGets (s : State) (g k y : Nat) (w : Option (List Nat)) : State :=
  match w with
  | none => s.damage g k y
  | some l =>
    let x := s.layer g k
    s.setLayer g k { x with lines := tset [] x.lines y l, damaged := x.damaged.filter (· != y) }

/-- A cut-through layer takes a line of its source: of the epoch that its route accepted (R174), not before the take line of a take of the
route, and of one source frame for each output frame (R176). -/
def State.cutLine (s : State) (g k : Nat) (l : FlLine) : State :=
  let i := 4 * g + k
  let x := s.layer g k
  let mine := x.cur == some l.frame || (x.cur.isNone && x.last != some l.frame)
  if s.get (routeStatA 0 i) F.ROUTE_STAT_PATH = 1 && !(s.route 0 i).lost && (s.route 0 i).due != 3 && !x.rerouted && mine
      && s.get (routeStatA 0 i) F.ROUTE_STAT_EPOCH == l.epoch then
    (s.setLayer g k { x with cur := some l.frame }).layerGets g k l.line (if l.missing then none else some l.words)
  else s

/-- Layers of a Sheaf whose routes name a source. -/
def State.sheafLayers (s : State) (d c : Nat) : List Nat :=
  (s.enabled 0).filter fun i => s.routeShows 0 i && i / 64 + 1 == d && s.routeSrc 0 i == c && !s.outMember (i / 4)

/-- A line of a source has reached Granary: it is written to the Silo, kept for cut-through transmit contexts, and goes on to the Sheafs
with cut-through layers of the source. -/
def State.lineIn (s : State) (c : Nat) (l : FlLine) : State :=
  let s := s.siloLine c l
  let s := ((s.active 1).filter fun i => s.routeSrc 1 i == c && s.get (routeStatA 1 i) F.ROUTE_STAT_PATH == 1
      && !(s.route 1 i).lost && (s.route 1 i).due != 3 && s.get (routeStatA 1 i) F.ROUTE_STAT_EPOCH == l.epoch).foldl (fun u i =>
    if l.missing then u else u.setItx i { u.itx i with lines := tset [] (u.itx i).lines l.line l.words }) s
  ([1, 2, 3, 4, 5, 6].filter fun d =>
    (s.sheafLayers d c).any fun i => s.get (routeStatA 0 i) F.ROUTE_STAT_PATH == 1).foldl (fun u d =>
      let k := d * 4096 + c
      { u with floor := { u.floor with toS := tset [] u.floor.toS k (tget [] u.floor.toS k ++ [{ l with arrived := false }]) } }) s

/-- A cut-through line arrives at a Sheaf: it and the lines that waited for it go to the layers in order (R25). -/
def State.toSheafLine (s : State) (d : Nat) (l : FinLine) (bad : Bool) : State :=
  let k := d * 4096 + l.tag
  let p := inOrder (arrive l.line l.frame bad (tget [] s.floor.toS k))
  let s := { s with floor := { s.floor with toS := tset [] s.floor.toS k p.2 } }
  p.1.foldl (fun u x => (s.sheafLayers d l.tag).foldl (fun v i => v.cutLine (i / 4) (i % 4) x) u) s

/-- A line that Granary reads from memory or from a converter arrives at a Sheaf: each layer that reads the source there takes it as its
own read context gives it (R201, R203). -/
def State.storedToSheaf (s : State) (d : Nat) (l : FinLine) (bad : Bool) : State :=
  ((s.sheafLayers d l.tag).filter fun i =>
    s.onStored 0 i || s.get (routeStatA 0 i) F.ROUTE_STAT_PATH == 3).foldl (fun u i =>
      if bad then u.layerGets (i / 4) (i % 4) l.line none
      else
        let q := u.storedLine (i / 4) (i % 4) l.line
        q.1.layerGets (i / 4) (i % 4) l.line q.2) s

/-- A line of a Sheaf's input or write-back arrives at Granary. -/
def State.toGranaryLine (s : State) (d : Nat) (l : FinLine) (bad : Bool) : State :=
  if (srcIsSdi l.tag && l.tag / 16 + 1 == d) || (srcIsWb l.tag && (l.tag - 0x800) / 16 + 1 == d) then
    let p := inOrder (arrive l.line l.frame bad (tget [] s.floor.toG l.tag))
    let s := { s with floor := { s.floor with toG := tset [] s.floor.toG l.tag p.2 } }
    p.1.foldl (fun u x => u.lineIn l.tag x) s
  else s

/-- FINANO_LINE (R25): the line goes on the link of its number, or on the surviving one; a line sent on a failed link before
the Floor moves it, or one that lost a token, is delivered flagged missing (R30, R537). -/
def execFinanoLine (sheaf : Fin 8) (toSheaf : Bool) (l : FinLine) (ue : Bool) (s : State) :
    Host.Outcome State Fault Refusal :=
  let d := sheaf.val
  let own := l.line % 2
  let up (k : Nat) : Bool := s.is flB (linkBit d toSheaf k)
  .next (if s.sheafUp d && (up 0 || up 1) then
      let moved := tget false s.floor.moved (dirKey d toSheaf)
      let link := if up own || !moved then own else 1 - own
      let bad := ue || !up link
      let key := d * 8192 + b2n (!toSheaf) * 4096 + l.tag
      let n := linkKey d toSheaf link
      let s := { s with floor := { s.floor with
        order := tset (0, 0) s.floor.order key (l.line, l.frame)
        carried := tset 0 s.floor.carried n (tget 0 s.floor.carried n + 1) } }
      if !toSheaf then s.toGranaryLine d l bad
      else if l.stored then s.storedToSheaf d l bad
      else s.toSheafLine d l bad
    else s)

/-! Fences (R249 to R253). -/

/-- A G layer is fenced (R249). -/
def State.fenced (s : State) (g k : Nat) : Bool := 2 ≤ k && s.effIs (layB g k) F.FENCE_CFG_EN

/-- Doorbell register of a G layer. -/
abbrev doorbellA (g k : Nat) : Nat := compB g + 0x200 + 4 * (k - 2)

/-- Words of a layer in a staging set. -/
def layerWords (g k : Nat) (l : List (Nat × Word)) : List (Nat × Word) :=
  l.filter fun p => layB g k ≤ p.1 && p.1 < layB g k + 0x40

/-- FENCE_ARM as a staging set leaves it. -/
def State.fenceArm (s : State) (g k : Nat) (l : List (Nat × Word)) : Word :=
  match l.find? fun p => p.1 == layB g k + 0x3C with
  | some p => p.2
  | none => s.effRd (layB g k + 0x3C)

/-- The fence is ready (R249): the comparison survives wrapping. -/
def fenceReady (doorbell arm : Word) : Bool := 0 ≤ (doorbell - arm).toInt

/-- The fence test of a layer under a staging set. -/
def State.fenceTest (s : State) (g k : Nat) (l : List (Nat × Word)) : Bool :=
  fenceReady (s.rd (doorbellA g k)) (s.fenceArm g k l)

/-- FLIP_WAIT and its live bit follow the held stagings (R250, R258). -/
def State.flipWait (s : State) (g : Nat) (wait : Nat → Bool) : State :=
  let v := b2n (wait 2) + 2 * b2n (wait 3)
  (s.put (compB g) F.COMP_STAT_FLIP_WAIT v).live (compB g) 2 (v != 0)

/-- FENCE_DEFERS of a G layer. -/
abbrev defersF (k : Nat) : Fld := if k = 2 then F.FENCE_DEFERS_G1 else F.FENCE_DEFERS_G2

/-- A flip is deferred (R250); `n` deferrals in a row with this one. -/
def State.deferFlip (s : State) (g k n : Nat) : State :=
  let b := compB g
  let w := s.get b F.COMP_STAT_FLIP_WAIT ||| 2 ^ (k - 2)
  let s := s.puts b [(defersF k, min 0xFFFF n), (F.COMP_STAT_FLIP_WAIT, w), (F.COMMIT_STAT_RESULT, rcFence),
    (F.COMMIT_STAT_PENDING, 0)]
  ((s.live b 2 true).raise b 2).raiseIf (n == max 1 (s.get (layB g k) F.FENCE_CFG_DEFER_LIMIT)) b 3

/-- The group in progress that stages a layer without a common fence (R250): its number and staging set. -/
def State.flipGroup (s : State) (g k : Nat) : Option Nat :=
  (List.range 64).find? fun n =>
    let st := s.get (cgB n) F.CG_STAT_STATE
    (st == 4 || (st == 2 && bitN (s.grp n).acks (g / 16 + 1))) && !s.is (cgB n) F.CG_CFG_REQUIRE_FENCES
      && !(layerWords g k (s.grp n).staging).isEmpty

/-- The take changes the layer's route entry, or has changed it at the frame pulse: its staging is applied without its fence (R251). -/
def State.routeChanges (s : State) (g k n : Nat) : Bool :=
  (s.layer g k).rerouted || (s.grp n).staging.any fun p => p.1 == routeA 0 (4 * g + k) && p.2 != s.effRd p.1

/-- The fence of a newly staged layer is evaluated, once in a take (R250). The deferral is counted at once when the take is
certain, otherwise at the frame pulse that makes it so. -/
def State.fenceEvaluate (s : State) (g k n : Nat) : State :=
  let l := s.layer g k
  if !s.fenced g k || l.verdict.isSome || s.routeChanges g k n then s
  else
    let ok := s.fenceTest g k (s.grp n).staging
    let t := s.setLayer g k { l with verdict := some ok }
    if ok || s.get (cgB n) F.CG_STAT_STATE != 4 then t
    else t.deferFlip g k (if l.heldStaging.isEmpty then s.get (compB g) (defersF k) + 1 else 1)

/-- FENCE_DEADLINE (R250): a newly staged layer is evaluated, or a held staging again. -/
def execFenceDeadline (g : Fin 96) (k : Bool) (s : State) : Host.Outcome State Fault Refusal :=
  let o := g.val
  let j := if k then 3 else 2
  .next (if s.present (o / 16 + 1) && !s.outMember o then
      let s := s.setLayer o j { s.layer o j with deadline := true }
      match s.flipGroup o j with
      | some n => s.fenceEvaluate o j n
      | none =>
        let l := s.layer o j
        if l.heldStaging.isEmpty then s
        else if s.fenceTest o j l.heldStaging then s.setLayer o j { l with heldReady := true }
        else s.deferFlip o j (s.get (compB o) (defersF j) + 1)
    else s)

/-- A take message of group n has reached a die: a fence whose deadline is past is evaluated on its arrival (R250). -/
def State.fenceOnMessage (s : State) (n die : Nat) : State :=
  ((List.range 16).flatMap fun p => [((die - 1) * 16 + p, 2), ((die - 1) * 16 + p, 3)]).foldl (fun u q =>
    if (u.layer q.1 q.2).deadline && u.flipGroup q.1 q.2 == some n then u.fenceEvaluate q.1 q.2 n else u) s

/-- The frame pulse makes a take certain: the deferrals found before it are counted (R250). -/
def State.fenceConfirm (s : State) (n : Nat) : State :=
  (dedupN (((s.grp n).staging.filter fun p =>
    1 ≤ dieOf p.1 && dieOf p.1 ≤ 6 && 0x300 ≤ pageOf p.1 && pageOf p.1 < 0x340).map fun p => portOf p.1 0x300 4)).foldl
      (fun u g => u.forAll [2, 3] fun k v =>
        if (v.layer g k).verdict = some false ∧ v.flipGroup g k = some n then
          v.deferFlip g k (if (v.layer g k).heldStaging.isEmpty then v.get (compB g) (defersF k) + 1 else 1)
        else v) s

/-- The layer words of a take whose fence has not been evaluated are evaluated at the latest at the take line; then the words of
layers not held go into effect and the others are held (R250, R251). -/
def State.takeLayer (s : State) (g k n : Nat) : State :=
  let words := layerWords g k (s.grp n).staging
  if words.isEmpty then s
  else
    let s := if s.flipGroup g k = some n then s.fenceEvaluate g k n else s
    let l := s.layer g k
    let hold := l.verdict == some false
    let b := compB g
    let s := if l.heldStaging.isEmpty then s
      else (s.put b (defersF k) (if hold then s.get b (defersF k) else 0)).raise b 4
    let l := { l with heldStaging := if hold then words else [], heldReady := false, verdict := none }
    let s := s.setLayer g k l
    if hold then s else s.applyStaging words

/-- A held staging that is ready, or whose route a take has changed, goes into effect at the take line (R250, R251). -/
def State.takeHeld (s : State) (g k : Nat) : State :=
  let l := s.layer g k
  let b := compB g
  if l.heldStaging.isEmpty || !l.heldReady then s
  else
    let s := ((s.setLayer g k { l with heldStaging := [], heldReady := false }).applyStaging l.heldStaging).put b (defersF k) 0
    let s := s.flipWait g fun j => !(s.layer g j).heldStaging.isEmpty
    if s.get b F.COMP_STAT_FLIP_WAIT = 0 ∧ s.get b F.COMMIT_STAT_RESULT = rcFence then s.put b F.COMMIT_STAT_RESULT rcOk else s

/-- Groups that are applying and stage words of the composer of output g. -/
def State.composerGroups (s : State) (g : Nat) : List Nat :=
  (List.range 64).filter fun n => s.get (cgB n) F.CG_STAT_STATE == 4
    && (s.grp n).staging.any fun p => blockBase p.1 == compB g

/-- The staging of a group for the composer of output g is applied (R57, R241, R248, R250). -/
def State.composerTake (s : State) (g n : Nat) : State :=
  let bank := s.effGet (compB g) F.COMP_COLOR_LUT_BANK
  let mine := (s.grp n).staging.filter fun p => blockBase p.1 == compB g
  let isLayer (p : Nat × Word) : Bool := layB g 0 ≤ p.1 && p.1 < layB g 4
  let s := s.applyStaging (mine.filter fun p => !isLayer p)
  let s := s.forAll [0, 1, 2, 3] fun k t => t.takeLayer g k n
  let s := s.flipWait g fun k => !(s.layer g k).heldStaging.isEmpty
  let s := s.setGrp n { s.grp n with staging := (s.grp n).staging.filter fun p => blockBase p.1 != compB g }
  if s.effGet (compB g) F.COMP_COLOR_LUT_BANK = bank then s
  else (s.outGroup g).foldl (fun u p => (u.put (compB p) F.COMP_STAT_LUT_BYPASS 0).live (compB p) 6 false) s

/-- The take line of output g (R57, R250): every group that is applying is taken, held stagings that are ready too, and the
layers begin a new frame. -/
def State.composerFrame (s : State) (g : Nat) : State :=
  let shown := (List.range 4).foldl (fun m k =>
    m + 2 ^ k * b2n (s.contributes g k && (s.layer g k).hiddenFrom != some 0)) 0
  let s := s.put (compB g) F.COMP_STAT_SHOWN shown
  let s := (s.composerGroups g).foldl (fun t n => t.composerTake g n) s
  let s := s.forAll [2, 3] fun k t => t.takeHeld g k
  let s := s.forAll [0, 1, 2, 3] fun k t =>
    let l := t.layer g k
    let keep := l.lines.filter fun (p : Nat × List Nat) => !l.damaged.contains p.1
    let i := 4 * g + k
    let ok := t.routeActive 0 i && t.is (routeStatA 0 i) F.ROUTE_STAT_SOURCE_OK
    let c := t.routeSrc 0 i
    t.setLayer g k { l with
      prev := keep, lines := [], damaged := [], hiddenFrom := none, fed := l.fed || ok, deadline := false, verdict := none
      rerouted := false, last := l.cur, cur := none, prevSurf := l.surf
      surf := if (t.surfaceDepth c).isSome then some (c, t.effGet (layB g k) F.LAYER_CTRL_BUF) else none }
  s.layerStats g

/-- FENCE_DOORBELL (R253): the entries that earlier BAR2 writes left open are flushed, then the doorbell is set; behind writes that are held
it waits. -/
def execFenceDoorbell (g : Fin 96) (k : Bool) (v : Word) (s : State) : Host.Outcome State Fault Refusal :=
  let o := g.val
  .next (s.hostWrite (o / 16 + 1) (
    let a := doorbellA o (if k then 3 else 2)
    if s.silo.held.isEmpty then s.doorbell a v else s.holdWrite 513 a (leBytes 4 v.toNat) true))

end Sys2Proof.Machine
end

