-- ==== Sys2Proof/Machine/Convert.lean ====
section
/-! DEFINITION. The motion-compensated rate conversion pool (chapter 08): the method of each frame, the frame itself, cadence,
holding, and engine faults. Allocation and release of contexts stand in Plan. -/

namespace Sys2Proof.Machine

/-- RETURN_FRAMES of the pool; 0 acts as 1 (R287). -/
def State.convReturn (s : State) : Nat := max 1 (s.get (cvB 0) F.CV_POOL_CONF_RETURN_FRAMES)

/-- The method that the lasting conditions and CONF ask for (R273): 0 motion-compensated, 1 blend, 2 repeat. -/
def State.convRaw (s : State) (mode conf : Nat) (fault : Bool) : Nat :=
  if mode = 3 || fault then 2
  else if mode = 2 || conf < s.get (cvB 0) F.CV_POOL_CONF_CONF_BLEND then
    if s.get (cvB 0) F.CV_POOL_CONF_CONF_REPEAT ≤ conf then 1 else 2
  else 0

/-- The method in force moves at once to a lower one, and back to a higher one after RETURN_FRAMES frames that qualify for it:
CONF at least its threshold plus 16, saturated at 255 (R273). -/
def State.convLevel (s : State) (x : Ctx) (raw conf : Nat) : Ctx :=
  if x.level < raw then { x with level := raw, qualBlend := 0, qualMc := 0 }
  else
    let ok (m thr : Nat) : Bool := m < x.level && raw ≤ m && min 255 (thr + 16) ≤ conf
    let qb := if ok 1 (s.get (cvB 0) F.CV_POOL_CONF_CONF_REPEAT) then x.qualBlend + 1 else 0
    let qm := if ok 0 (s.get (cvB 0) F.CV_POOL_CONF_CONF_BLEND) then x.qualMc + 1 else 0
    if s.convReturn ≤ qm then { x with level := 0, qualBlend := 0, qualMc := 0 }
    else if s.convReturn ≤ qb then { x with level := 1, qualBlend := 0, qualMc := qm }
    else { x with qualBlend := qb, qualMc := qm }

/-- A blended picture (R275). -/
def blendPicture (a b : List (List Nat)) (phase : Nat) : List (List Nat) :=
  (a.zip b).map fun l => (l.1.zip l.2).map fun p => convBlend p.1 p.2 phase

/-- A motion-compensated picture in the shape of picture a: the spec does not define its samples, so they are free values. -/
def mcPicture (n depth : Nat) (a : List (List Nat)) : List (List Nat) :=
  ((List.range a.length).zip a).map fun l =>
    (List.range l.2.length).map fun i => Config.mcSample ((n * 2 ^ 16 + l.1) * 2 ^ 16 + i) % 2 ^ depth

/-- The frame delivered is counted and reported (R286); a departure from motion compensation sets FALLBACK (R273). `once`: a
repeat of a single frame. -/
def State.convCount (s : State) (e c method : Nat) (once : Bool) : State :=
  let x := s.ctx e c
  let a := ctxA e c
  let s := (s.put a F.CTX_STAT_METHOD method).bump a
    (if method = 0 then F.CNT_MC_FRAMES else if method = 1 then F.CNT_BLEND_FRAMES else F.CNT_REPEAT_FRAMES)
  let s := if !once && x.usedMc && method != 0 then s.cvCause e 2 else s
  s.setCtx e c { x with usedMc := if once then x.usedMc else method == 0, late := false }

/-- Layers hidden after a loss show again when their context shows a new picture (R205). -/
def State.convUnhide (s : State) (e c : Nat) : State :=
  ((s.ctx e c).routes.filter fun r => r < 4096).foldl (fun u i =>
    { u with silo := { u.silo with hidden := tset false u.silo.hidden i false } }) s

/-! The pictures of a context (R262, R268, R279). -/

/-- A picture of a context: its instant, whether it is new since the source last began to deliver (R280), and the frame it is, or the
fields it is made of, with the field of each (0 the first in time). -/
structure CvView where
  inst : Int
  fresh : Bool
  parts : List (CvPic × Nat)
deriving DecidableEq, Repr

/-- Source period of the pictures of a context in ns: of frames, or of the fields of an interlaced source. -/
def viewPeriod (frate : Nat) (interlaced : Bool) : Nat :=
  let r := rateOf frate
  roundDiv (10 ^ 9 * r.2) (if interlaced then 2 * r.1 else r.1)

/-- Every picture that a context holds complete, in time order (R262, R268), with the film frame it is classed in (R279). -/
def Ctx.views (x : Ctx) (frate : Nat) (interlaced : Bool) : List (CvView × Nat × Nat) :=
  (x.pics.filter (·.done)).flatMap fun p =>
    (List.range (if interlaced then 2 else 1)).map fun (k : Nat) =>
      (⟨p.entry + ((k * viewPeriod frate interlaced : Nat) : Int), p.fresh, [(p, k)]⟩, p.films.getD k (0, 0))

/-- The pictures of one film frame as one (R279): of an interlaced source woven from its first two fields of different parity, at the mean
of the entry instants of all its appearances; those to come follow at the source period. None while the fields to weave are not there. -/
def filmView (period len : Nat) (interlaced : Bool) (l : List CvView) : Option CvView :=
  let parts := l.flatMap (·.parts)
  match parts with
  | [] => none
  | q :: rest =>
    let other := if interlaced then (rest.find? fun p => p.2 != q.2).toList else []
    if interlaced && other.isEmpty && l.length < len then none
    else
      let last : Int := l.foldl (fun _ v => v.inst) 0
      let ahead := len - l.length
      let sum : Int := l.foldl (fun a v => a + v.inst) 0 + ahead * last + (period * (ahead * (ahead + 1) / 2) : Nat)
      some ⟨roundDivI sum (max 1 (l.length + ahead)), l.all (·.fresh), q :: other⟩

/-- The pictures that frames are built from: while a cadence is locked, one for each film frame, without those not classed yet (R279). -/
def Ctx.film? (x : Ctx) (frate : Nat) (interlaced locked : Bool) : List CvView :=
  let l := x.views frate interlaced
  if locked then
    let period := viewPeriod frate interlaced
    let l := l.filter fun v => match v.1.parts with | [(p, k)] => k < p.films.length | _ => true
    (dedupN (l.map fun v => v.2.1)).flatMap fun n =>
      let mine := l.filter fun v => v.2.1 == n
      if n = 0 then mine.map (·.1)
      else (filmView period ((mine.headD (⟨0, false, []⟩, 0, 0)).2.2) interlaced (mine.map (·.1))).toList
  else l.map (·.1)

/-- A row of a frame as its ring or store has it (R194); black where no line came. -/
def CvPic.row (p : CvPic) (y : Nat) : List Nat :=
  match p.srcFormat, p.format with
  | some g, some f =>
    let d := p.fmt / 2 ^ 32
    let fl := fieldLine f.scan f.fmt y
    let line (j : Nat) : Nat := if g.scan = 0 then j else 2 * j + (if g.fmt = 1 then 1 - fl.1 else fl.1)
    let src := (List.range d).map fun k => tget [] p.lines (line (fl.2 * d + k))
    if src.any List.isEmpty then f.blackWords else decimLine d src
  | _, _ => []

/-- The rows of a picture: a frame's own, fields woven, or one field deinterlaced, whose samples are free values (R262, R275). -/
def CvView.rows (v : CvView) (interlaced : Bool) : List (List Nat) :=
  match v.parts with
  | [] => []
  | (p, k) :: rest =>
    match p.format with
    | none => []
    | some f =>
      (List.range f.h).map fun y =>
        if !interlaced then p.row y
        else match rest with
          | (q, j) :: _ => if (fieldLine f.scan f.fmt y).1 = j then q.row y else p.row y
          | [] => (List.range f.lineWords).map fun i =>
              Config.deintSample ((((2 * p.id + k) * 2 ^ 16 + y) * 2 ^ 16) + i) % 2 ^ f.depth

/-- Ordinary ANC of the source frame that a picture comes from, once (R311). -/
def CvView.ancFor (v : CvView) (x : Ctx) : List AncPkt :=
  match v.parts with
  | (p, _) :: _ => if x.ancOf = some p.id then [] else p.anc
  | [] => []

/-- A frame that repeats a held picture, in warm-up or while holding (R271, R280). -/
def State.convRepeat (s : State) (e c : Nat) (v : CvView) : State :=
  let x := s.ctx e c
  let same := x.shown == some v.inst
  let pic := v.rows (s.is (ctxA e c) F.CTX_KEY_SRC_INTERLACED)
  let s := s.setCtx e c { x with
    shown := some v.inst, hold := if same then x.hold + 1 else 0, out := pic, rep := pic, anc := v.ancFor x
    ancOf := v.parts.head?.map (·.1.id) }
  let s := if same then s else s.convUnhide e c
  (s.put (ctxA e c) F.CTX_PHASE_PHASE 0).convCount e c 2 false

/-- A pair of pictures that the engine has not estimated before gets its confidence, and is a cut where that is low (R273, R274). -/
def State.convPair (s : State) (e c conf : Nat) (pair : Int × Int) : State :=
  let a := ctxA e c
  if (s.ctx e c).pair = some pair then s
  else
    let cut := conf < s.get (cvB 0) F.CV_POOL_CONF_CUT_CONF
    let s := (s.setCtx e c { s.ctx e c with pair := some pair }).puts a [(F.CTX_STAT_CONF, conf), (F.CTX_STAT_CUT, b2n cut)]
    if cut then (s.bump a F.CNT_CUT_CUTS).cvCause e 3 else s

/-- A frame built for the instant τ between two pictures (R269, R273 to R275). -/
def State.convBuild (s : State) (e c : Nat) (tau : Int) (conf : Nat) (va vb : CvView) : State :=
  let a := ctxA e c
  let inter := s.is a F.CTX_KEY_SRC_INTERLACED
  let ph := convPhase tau va.inst vb.inst
  -- at phase 256 picture a takes the place of b
  let va := if ph = 256 then vb else va
  let ph := if ph = 256 then 0 else ph
  let s := s.convPair e c conf (va.inst, vb.inst)
  let conf := s.get a F.CTX_STAT_CONF
  let mode := s.get a F.CTX_KEY_SRCMODE
  let fault := s.is (cvB e) F.CV_STAT_FAULT_MODE
  let once := (s.is a F.CTX_STAT_CUT || (s.ctx e c).late) && mode != 3 && !fault
  let x := if once then s.ctx e c else s.convLevel (s.ctx e c) (s.convRaw mode conf fault) conf
  let method := if once then 2 else x.level
  let depth := match (s.ctx e c).fmt with | some g => g.depth | none => 10
  let near := if ph < 128 then va else vb
  let pa := va.rows inter
  let pb := vb.rows inter
  let rep := if ph < 128 then pa else pb
  let pic := if method = 2 then rep else if method = 1 then blendPicture pa pb ph else mcPicture s.freeCtr depth pa
  let s := if method = 0 then s.tick else s
  let s := s.setCtx e c { x with
    shown := some tau, hold := 0, out := pic, rep := rep, anc := near.ancFor x, ancOf := near.parts.head?.map (·.1.id) }
  ((s.convUnhide e c).put a F.CTX_PHASE_PHASE ph).convCount e c method once

/-- The newest of some pictures. -/
def newestView (l : List CvView) : Option CvView :=
  l.foldl (fun best v => match best with | some b => if b.inst ≤ v.inst then some v else some b | none => some v) none

/-- The newest picture at or before an instant, and the next one (R269). -/
def around (tau : Int) (l : List CvView) : Option CvView × Option CvView :=
  (newestView (l.filter fun v => v.inst ≤ tau), (l.filter fun v => tau < v.inst).foldl (fun best v => match best with
    | some b => if v.inst < b.inst then some v else some b
    | none => some v) none)

/-- The pictures that a context's next frame is built from. -/
def State.ctxViews (s : State) (e c : Nat) : List CvView :=
  let a := ctxA e c
  (s.ctx e c).film? (s.get a F.CTX_KEY_SRC_FRATE) (s.is a F.CTX_KEY_SRC_INTERLACED) (s.get a F.CTX_STAT_CADENCE != 0)

/-- A context whose source is frozen holds (R204, R280). -/
def State.ctxFreeze (s : State) (e c : Nat) : State :=
  if s.srcFrozen (s.get (ctxA e c) F.CTX_KEY_SRC) then
    (s.setCtx e c { s.ctx e c with pics := (s.ctx e c).pics.map fun (p : CvPic) => { p with fresh := p.fresh && !p.done } }).put
      (ctxA e c) F.CTX_STAT_STATE 3
  else s

/-- An output frame of a context: built between the two pictures around τ; while none lies at or before τ, and while the context holds, the
newest picture again (R268 to R271, R280). -/
def State.convFrame (s : State) (e c : Nat) (f : ConvFrame) : State :=
  let a := ctxA e c
  let code := s.get a F.CTX_KEY_SRC
  let s := s.ctxFreeze e c
  let l := s.ctxViews e c
  let tau := f.start - s.get a F.CTX_DELAY_NS
  let rep (s : State) : State := match newestView l with | some v => s.convRepeat e c v | none => s
  match around tau l with
  | (some va, some vb) =>
    if s.get a F.CTX_STAT_STATE = 3 && (s.srcFrozen code || !s.srcDelivers code || !va.fresh || !vb.fresh) then rep s
    else
      let x := s.ctx e c
      let s := (s.put a F.CTX_STAT_STATE 2).convBuild e c tau f.conf.val va vb
      if x.warm then
        let s := (s.setCtx e c { s.ctx e c with warm := false }).cvCause e 8
        x.routes.foldl (fun u r => u.latencyChange (r / 4096) (r % 4096)) s
      else s
  | (none, _) => rep s
  | (some _, none) => rep (s.put a F.CTX_STAT_STATE 3)

/-- CONVERTER_FRAME (R268 to R276, R280). -/
def execConverterFrame (e : Fin 8) (c : Fin 2) (f : ConvFrame) (s : State) : Host.Outcome State Fault Refusal :=
  .next (if s.slotUsed e.val c.val then s.convFrame e.val c.val f else s)

/-- FRAME_LATE (R276): the frame in progress is delivered as a repeat. -/
def execFrameLate (e : Fin 8) (c : Fin 2) (s : State) : Host.Outcome State Fault Refusal :=
  .next (if s.slotUsed e.val c.val then
      ((s.setCtx e.val c.val { s.ctx e.val c.val with late := true }).bump (ctxA e.val c.val) F.CNT_LATE_FRAMES).cvCause
        e.val 6
    else s)

/-! Cadence (R277, R278). -/

/-- Patterns a source can carry (R277): CTX_STAT.CADENCE code and the pattern, true for a repeat. -/
def cadences (frate : Nat) (interlaced : Bool) : List (Nat × List Bool) :=
  if interlaced then (if frate = 3 ∨ frate = 4 then [(2, [false, false, false, false, true])] else [])
  else
    (if 5 ≤ frate ∧ frate ≤ 7 then [(1, [false, true])] else [])
      ++ (if frate = 6 ∨ frate = 7 then [(2, [false, true, true, false, true])] else [])

/-- A pattern repeated, newest class first. -/
def patternBack (p : List Bool) : Nat → List Bool
  | 0 => []
  | n + 1 => p.reverse ++ patternBack p n

/-- Place of a picture of a locked cadence in its film frame, and the pictures of that film frame (R277, R279). -/
def filmPlace (code : Nat) (interlaced : Bool) (phase : Nat) : Nat × Nat :=
  if code = 1 then (phase, 2)
  else ((if interlaced then [(0, 2), (1, 2), (0, 3), (1, 3), (2, 3)] else [(0, 3), (1, 3), (2, 3), (0, 2), (1, 2)]).getD phase (0, 1))

/-- Luma, or G′, of a line of a picture in 14 bits at every fourth sample (R226, R277). -/
def lumaQuarter (f : SrcFmt) (l : List Nat) : List Nat :=
  everyN ((unpackLine f.kind f.depth false l).map fun p => if f.kind = 2 then p.2.1 else p.1) 0 4

/-- Rows of the active picture of a frame, or of a field of it, at every fourth line. -/
def CvPic.quarter (p : CvPic) (f : SrcFmt) (interlaced : Bool) (k : Nat) : List Nat :=
  let rows := if interlaced then (List.range f.h).filter fun y => (fieldLine f.scan f.fmt y).1 == k else List.range f.h
  (everyN rows 0 4).flatMap fun y => lumaQuarter f (p.row y)

/-- Mean absolute difference of two lists of samples, rounded down (R277). -/
def meanDiff (a b : List Nat) : Nat :=
  (a.zip b).foldl (fun n p => n + (max p.1 p.2 - min p.1 p.2)) 0 / a.length

/-- A new source picture and the one it is compared with, the frame before or the field of its parity before (R277): the frame, its field. -/
def State.cadenceNext (s : State) (e c : Nat) : Option (CvPic × Nat × Option CvPic) :=
  let l := (s.ctx e c).pics.filter (·.done)
  let need := if s.is (ctxA e c) F.CTX_KEY_SRC_INTERLACED then 2 else 1
  match l.find? fun p => p.films.length < need with
  | some p => some (p, p.films.length, (l.takeWhile fun q => q.id != p.id).getLast?)
  | none => none

/-- The picture is a repeat (R277); the first picture of a context is new (DESIGN CHOICE, log 78). -/
def State.cadenceRepeat (s : State) (e c : Nat) (p : CvPic) (k : Nat) (prev : Option CvPic) : Bool :=
  let inter := s.is (ctxA e c) F.CTX_KEY_SRC_INTERLACED
  match prev, p.format with
  | some q, some f => meanDiff (p.quarter f inter k) (q.quarter f inter k) ≤ s.get (cvB 0) F.CV_POOL_CAD_CAD_THRESH
  | _, _ => false

/-- A picture is classed: its film frame, and its place among that one's pictures. -/
def Ctx.class (x : Ctx) (id : Nat) (film : Nat × Nat) : Ctx :=
  { x with pics := x.pics.map fun (p : CvPic) => if p.id = id then { p with films := p.films ++ [film] } else p }

/-- A picture of a locked cadence (R278, R279): one that breaks the pattern is new, and starts a film frame that takes the places left of the
one it breaks (DESIGN CHOICE, log 78); a second break in a row unlocks. -/
def State.cadenceLocked (s : State) (e c id : Nat) (r : Bool) (code : Nat) (pat : List Bool) : State :=
  let a := ctxA e c
  let x := s.ctx e c
  let hit := r == pat.getD (x.phase % pat.length) false
  let n := if hit then 0 else x.breaks + 1
  if n = 2 then
    ((s.setCtx e c ({ x with breaks := 0, phase := 0, pattern := [] }.class id (0, 1))).put a F.CTX_STAT_CADENCE 0).cvCause e 5
  else
    let q := filmPlace code (s.is a F.CTX_KEY_SRC_INTERLACED) (x.phase % pat.length)
    let new := q.1 == 0 || (!hit && !r)
    let film := if new then x.film + 1 else x.film
    let len := if new then q.2 - q.1 else
      (x.pics.flatMap (·.films)).foldl (fun m p => if p.1 = film then p.2 else m) q.2
    s.setCtx e c ({ x with breaks := n, phase := (x.phase + 1) % pat.length, film := film }.class id (film, len))

/-- A picture while no cadence is locked (R278). -/
def State.cadenceSeek (s : State) (e c id : Nat) (r : Bool) (all : List (Nat × List Bool)) : State :=
  let x := (s.ctx e c).class id (0, 1)
  let lock := max 1 (s.get (cvB 0) F.CV_POOL_CAD_CAD_LOCK)
  let pat := (r :: x.pattern).take (5 * 15)
  match all.find? fun p => pat.take (lock * p.2.length) == patternBack p.2 lock with
  | some p =>
    ((s.setCtx e c { x with breaks := 0, phase := 0, pattern := [] }).put (ctxA e c) F.CTX_STAT_CADENCE p.1).cvCause e 4
  | none => s.setCtx e c { x with pattern := pat }

/-- CADENCE_PICTURE (R277 to R279): picture `i`, field `k`, where it is the next that is complete and not classed. -/
def execCadencePicture (e : Fin 8) (c : Fin 2) (i k : Nat) (s : State) : Host.Outcome State Fault Refusal :=
  let a := ctxA e.val c.val
  .next (if s.slotUsed e.val c.val && s.get a F.CTX_KEY_SRCMODE == 1 then
      match (s.cadenceNext e.val c.val).filter fun n => n.1.id == i && n.2.1 == k with
      | none => s
      | some (p, _, prev) =>
        let r := s.cadenceRepeat e.val c.val p k prev
        let all := cadences (s.get a F.CTX_KEY_SRC_FRATE) (s.is a F.CTX_KEY_SRC_INTERLACED)
        match all.find? fun q => q.1 == s.get a F.CTX_STAT_CADENCE with
        | some q => s.cadenceLocked e.val c.val p.id r q.1 q.2
        | none => s.cadenceSeek e.val c.val p.id r all
    else s)

/-- ENGINE_FAULT (R283): an engine that holds a context enters fault mode, and its contexts repeat from the next line on. -/
def execEngineFault (e : Fin 8) (array : Fin 3) (index : Fin 512) (s : State) : Host.Outcome State Fault Refusal :=
  let s := s.setFault (cvB e.val) array.val index.val
  .next (if s.slotUsed e.val 0 || s.slotUsed e.val 1 then
      let s := ((s.put (cvB e.val) F.CV_STAT_FAULT_MODE 1).live (cvB e.val) 0 true).poolRefresh
      let s := s.forAll [0, 1] fun c t => let x := t.ctx e.val c; t.setCtx e.val c { x with out := x.rep }
      s.cvCause e.val 7
    else s.cvCause e.val 7)

end Sys2Proof.Machine
end

