-- ==== Sys2Proof/Machine/Sdi.lean ====
section
/-! DEFINITION. SDI receivers (chapter 03): lock, format detection, bonded groups, lines and ancillary data. -/

namespace Sys2Proof.Machine

/-- Live bits of LOCK_LOST and FMT_UNSUPPORTED (R111). -/
def State.rxLive (s : State) (g : Nat) : State :=
  (s.live (inB g) 1 (s.get (inB g) F.IN_STAT_STATE < 3)).live (inB g) 3 (s.is (inB g) F.IN_STAT_UNSUP)

/-- The receiver of input g exists. -/
abbrev State.rxUp (s : State) (g : Nat) : Bool := s.present (g / 16 + 1)

/-- An active line of the picture leaves the input pipe for the Floor as it was received, with the frame's count (DESIGN CHOICE, log 76)
and the epoch (R23, R91). -/
def State.pipeLine (s : State) (g y : Nat) (missing : Bool) (words : List Nat) : State :=
  s.lineOut g ⟨y, s.get (inB g) F.IN_FRAME_COUNT, s.get (inB g) F.IN_STAT_EPOCH, missing, if missing then [] else words, false⟩

/-- The input pipe stops delivering; a line in progress is sent flagged missing, of a bonded group the two lines of the picture that it
belongs to (R35, R90, R94, R172). -/
def State.pipeStops (s : State) (g : Nat) (midLine : Option Nat) : State :=
  let x := s.rx g
  let s := match midLine with
    | some y =>
      if x.delivering then
        let s := (s.setRx g { x with lastLine := some (y, true, s.get (inB g) F.IN_STAT_EPOCH, []) }).raise (inB g) 7
        if s.inBonded g then (s.pipeLine g (2 * y) true []).pipeLine g (2 * y + 1) true [] else s.pipeLine g y true []
      else s
    | none => s
  (s.setRx g { s.rx g with delivering := false, frames := 0, anc := [], ancBytes := 0, quad := none }).sourceStops g
    ((s.rx g).frames != 0)

/-- The ports of a bonded group in the order of their links; the flag says that port order was taken (R96). -/
def State.bondOrder (s : State) (q : Nat) : List Nat × Bool :=
  let ports := [q, q + 1, q + 2, q + 3]
  let of (k : Nat) := ports.find? fun p => match (s.rx p).pid with | some i => i.link.val == k | none => false
  match of 0, of 1, of 2, of 3 with
  | some a, some b, some c, some d => ([a, b, c, d], false)
  | _, _, _, _ => (ports, true)

/-- Bit n of LINKS_OK: link n + 1 of a bonded group is in FMT_LOCK (R110). -/
def State.linksRefresh (s : State) (g : Nat) : State :=
  let q := g - g % 4
  let ports := (s.bondOrder q).1
  s.put (inB q) F.IN_QUAD_LINKS_OK
    ((List.range 4).foldl (fun m i => m + 2 ^ i * b2n (s.rx (ports.getD i q)).link) 0)

/-- A bonded group loses lock (R90, R97). -/
def State.groupLoss (s : State) (q : Nat) (midLine : Option Nat) : State :=
  if (s.rx q).group then
    State.candsFollow <| (((s.setRx q { s.rx q with group := false, together := 0 }).puts (inB q)
      [(F.IN_STAT_STATE, 2), (F.IN_FMT_FMT, 0), (F.IN_FMT_FRATE, 0), (F.IN_FMT_SAMPLING, 0), (F.IN_FMT_D12, 0),
        (F.IN_FMT_COLORIMETRY, 0), (F.IN_FMT_TRANSFER, 0)]).raise (inB q) 1).pipeStops q midLine |>.rxLive q
  else s.setRx q { s.rx q with together := 0 }

/-- What a fall to a state below FMT_LOCK leaves in the status of a receiver (R86, R90). -/
def State.rxFall (s : State) (g low : Nat) : State :=
  let s := s.puts (inB g) [(F.IN_STAT_STATE, low), (F.IN_STAT_UNSUP, 0), (F.IN_STAT_PID_MISMATCH, 0), (F.IN_FMT_FMT, 0),
    (F.IN_FMT_FRATE, 0), (F.IN_FMT_SAMPLING, 0), (F.IN_FMT_D12, 0), (F.IN_FMT_COLORIMETRY, 0), (F.IN_FMT_TRANSFER, 0)]
  let s := if low < 2 then s.puts (inB g) [(F.IN_STAT_RATE, 0), (F.IN_STAT_RATE_1001, 0), (F.IN_STAT_LEVEL_B, 0),
      (F.IN_STAT_PID_PRESENT, 0), (F.IN_STAT_LINK, 0)] else s
  (s.setRx g { s.rx g with
    link := false, meas := none, same := 0, differ := 0, found := 0, search := 5
    pid := if low < 2 then none else (s.rx g).pid }).rxLive g

/-- The receiver of input g falls to state `low` (R86, R90, R97). QUAD_LINK_LOST is raised on the page of the link that is lost (DESIGN
CHOICE, log 57: the spec names no page). -/
def State.rxLoss (s : State) (g low : Nat) (midLine : Option Nat) : State :=
  if (s.rx g).link then
    if s.inBonded g then
      let s := ((s.raise (inB g) 9).whenB (s.inMember g) (·.raise (inB g) 1)).groupLoss (g - g % 4) midLine
      ((s.rxFall g low).linksRefresh g).candsFollow
    else ((((s.raise (inB g) 1).rxFall g low).pipeStops g midLine).linksRefresh g).candsFollow
  else s.rxFall g low

/-- CARRIER_LOSS (R86, R90). -/
def execCarrierLoss (g : Fin 96) (midLine : Option Nat) (s : State) : Host.Outcome State Fault Refusal :=
  .next (if s.rxUp g.val && s.get (inB g.val) F.IN_STAT_STATE != 0 then s.rxLoss g.val 0 midLine else s)

/-- SIGNAL_DETECT (R86). -/
def execSignalDetect (g : Fin 96) (s : State) : Host.Outcome State Fault Refusal :=
  .next (if s.rxUp g.val && s.get (inB g.val) F.IN_STAT_STATE == 0 then
      ((s.put (inB g.val) F.IN_STAT_STATE 1).setRx g.val { s.rx g.val with search := 5 }).rxLive g.val
    else s)

/-- The class the receiver searches: none named, or the one IN_CFG.RATE names (R86, R110). -/
def State.searches (s : State) (g rateClass : Nat) : Bool :=
  let r := s.get (inB g) F.IN_CFG_RATE
  1 ≤ rateClass && rateClass ≤ 5 && (r == 0 || 5 < r || r == rateClass)

/-- CDR_LOCK (R86). -/
def execCdrLock (g : Fin 96) (rateClass : Fin 6) (r1001 : Bool) (s : State) : Host.Outcome State Fault Refusal :=
  .next (if s.rxUp g.val && s.get (inB g.val) F.IN_STAT_STATE == 1 && s.searches g.val rateClass.val then
      (s.puts (inB g.val) [(F.IN_STAT_STATE, 2), (F.IN_STAT_RATE, rateClass.val), (F.IN_STAT_RATE_1001, b2n r1001)]).rxLive g.val
    else s)

/-- CDR_SEARCH_TIMEOUT (R86): the search starts again at 12G. -/
def execCdrSearchTimeout (g : Fin 96) (s : State) : Host.Outcome State Fault Refusal :=
  .next (if s.rxUp g.val && s.get (inB g.val) F.IN_STAT_STATE == 1 then s.setRx g.val { s.rx g.val with search := 5 } else s)

/-- CDR_LOSS (R90). -/
def execCdrLoss (g : Fin 96) (midLine : Option Nat) (s : State) : Host.Outcome State Fault Refusal :=
  .next (if s.rxUp g.val && 2 ≤ s.get (inB g.val) F.IN_STAT_STATE then s.rxLoss g.val 1 midLine else s)

/-- EAV_TIMEOUT (R90): within FMT_LOCK only. -/
def execEavTimeout (g : Fin 96) (midLine : Option Nat) (s : State) : Host.Outcome State Fault Refusal :=
  .next (if s.rxUp g.val && (s.rx g.val).link then s.rxLoss g.val 2 midLine else s)

/-! Format detection (R87, R88, R567). -/

/-- Frame rates of a row of R87, by total lines and samples. -/
def rasterRates (lines samples : Nat) : List Nat :=
  if lines = 525 then (if samples = 858 then [3] else [])
  else if lines = 625 then (if samples = 864 then [2] else [])
  else if lines = 750 then
    if samples = 4125 then [0, 1] else if samples = 3960 then [2] else if samples = 3300 then [3, 4]
    else if samples = 1980 then [5, 8] else if samples = 1650 then [6, 7, 9, 10] else []
  else if lines = 1125 then
    if samples = 2750 then [0, 1] else if samples = 2640 then [2, 5, 8] else if samples = 2200 then [3, 4, 6, 7, 9, 10] else []
  else if lines = 2250 then
    if samples = 5500 then [0, 1] else if samples = 5280 then [2, 5] else if samples = 4400 then [3, 4, 6, 7] else []
  else []

/-- Frame rates of a link of the wide format, which bonded groups alone take (R84). -/
def wideRates (lines samples : Nat) : List Nat :=
  if lines = 1125 ∧ samples = 5280 then [5] else if lines = 1125 ∧ samples = 4400 then [6, 7] else []

/-- A period in ps within ±300 ppm of a rate's (R87). -/
def periodFits (periodPs frate : Nat) : Bool :=
  let r := rateOf frate
  ((periodPs * r.1 : Nat) - (r.2 * 10 ^ 12 : Nat) : Int).natAbs * 10 ^ 6 ≤ 300 * (r.2 * 10 ^ 12)

/-- A payload identifier names the raster or rate of another format (R88). -/
def pidMismatch (fmt frate : Nat) (p : Pid) : Bool :=
  p.frate.val != frate || !(p.fmt == fmt || ((p.fmt == 4 || p.fmt == 5) && (fmt == 4 || fmt == 5)))

/-- The format word (as IN_FMT, with the received colour) and level B of a measured frame; none for an unsupported signal
(R81, R87, R88, R567). -/
def State.sdiFound (s : State) (g : Nat) (m : FrameMeas) : Option (Word × Bool) :=
  let bond := s.inBonded g
  let rate (l : List Nat) := l.find? (periodFits m.periodPs)
  let psf := match m.pid with | some p => p.psf | none => false
  let fm : Option (Nat × Nat) :=
    match rate (rasterRates m.lines m.samples) with
    | some r =>
      if m.lines = 525 then (if m.interlaced then some (1, r) else none)
      else if m.lines = 625 then (if m.interlaced then some (2, r) else none)
      else if m.lines = 750 then (if m.interlaced then none else some (3, r))
      else if m.lines = 1125 then
        if m.interlaced then (if psf then some (5, r) else if r ≤ 1 then none else some (4, r)) else some (6, r)
      else if m.interlaced then none else some (if bond then 8 else 7, r)
    | none => if bond && !m.interlaced then (rate (wideRates m.lines m.samples)).map fun r => (9, r) else none
  match fm with
  | none => none
  | some (fmt, fr) =>
    let sm := match m.pid with | some p => p.sampling.val | none => 0
    let d12 := match m.pid with | some p => p.d12 | none => false
    let lb := match m.pid with | some p => p.levelB | none => false
    let quad := match m.pid with | some p => p.quad | none => false
    let col := match m.pid with
      | some p => if p.colourKnown then (p.colorimetry.val, p.transfer.val % 3) else (0, 0)
      | none => (0, 0)
    if m.unsupKind || (quad && !bond) || sm == 3 || (lb && !(fmt == 6 && 5 ≤ fr && fr ≤ 7 && sm == 0 && !d12))
        || rateClass fmt fr (isHigh sm d12) != some (s.get (inB g) F.IN_STAT_RATE) then none
    else some (BitVec.ofNat 32 (fmt + fr * 0x100 + sm * 0x1000 + b2n d12 * 0x4000 + col.1 * 0x8000 + col.2 * 0x10000), lb)

/-- IN_FMT of a found format word under IN_OVERRIDE (R89). -/
def State.inFmtWord (s : State) (g : Nat) (w : Word) : Word :=
  if s.is (inB g) F.IN_OVERRIDE_EN then
    fldSet (fldSet w 15 1 (s.get (inB g) F.IN_OVERRIDE_COLORIMETRY)) 16 2 (s.get (inB g) F.IN_OVERRIDE_TRANSFER % 3)
  else w

/-- A stream reaches lock: IN_FMT, the epoch and its events; delivery begins with the frame now starting (R89, R91, R568). The first lock
after reset has no previous one and is no change (DESIGN CHOICE, log 58). -/
def State.streamLock (s : State) (g : Nat) (w : Word) : State :=
  let x := s.rx g
  let changed := match x.lastLock with | some o => o != w | none => false
  let s := (s.wr (inB g + 0x48) (s.inFmtWord g w)).puts (inB g) [(F.IN_STAT_STATE, 3), (F.IN_FRAME_COUNT, 0),
    (F.IN_STAT_EPOCH, s.get (inB g) F.IN_STAT_EPOCH + b2n changed)]
  let s := s.setRx g { x with
    lastLock := some w, frames := 0, anc := [], ancBytes := 0, delivering := !s.stopped (inB g) }
  (((s.raise (inB g) 0).raiseIf changed (inB g) 2)).rxLive g

/-- FMT_LOCK (R87). -/
def execFmtLock (g : Fin 96) (s : State) : Host.Outcome State Fault Refusal :=
  let x := s.rx g.val
  .next (if s.rxUp g.val && s.get (inB g.val) F.IN_STAT_STATE == 2 && !x.link && 2 ≤ x.same && x.found != 0 then
      let changed := match x.linkLast with | some o => o != x.found | none => false
      let s := s.setRx g.val { x with
        link := true, differ := 0, linkLast := some x.found, epoch := (x.epoch + b2n changed) % 16 }
      let bad := match x.pid with | some p => pidMismatch (x.found.toNat % 256) (x.found.toNat / 256 % 16) p | none => false
      let s := (s.puts (inB g.val) [(F.IN_STAT_PID_MISMATCH, b2n bad),
        (F.IN_STAT_LEVEL_B, match x.pid with | some p => b2n p.levelB | none => 0)]).raiseIf bad (inB g.val) 4
      let s := if s.inBonded g.val && g.val % 4 == 0 then s else s.streamLock g.val x.found
      -- a member delivers nothing of its own (R98)
      let s := if s.inMember g.val then s.setRx g.val { s.rx g.val with delivering := false } else s
      s.linksRefresh g.val
    else s)

/-! Bonded groups (R94 to R98). -/

/-- All four links in FMT_LOCK, with one format and epoch (R97). -/
def State.linksAgree (s : State) (q : Nat) : Bool :=
  [q, q + 1, q + 2, q + 3].all fun p =>
    (s.rx p).link && (s.rx p).linkLast == (s.rx q).linkLast && (s.rx p).epoch == (s.rx q).epoch

/-- QUAD_GROUP_LOCK (R97): all four links have held FMT_LOCK for two frames together. -/
def execQuadGroupLock (q : Fin 24) (s : State) : Host.Outcome State Fault Refusal :=
  let g := 4 * q.val
  let x := s.rx g
  .next (if s.rxUp g && s.inBonded g && !x.group && s.linksAgree g && 2 ≤ x.together then
      if 4000 < s.get (inB g) F.IN_QUAD_SKEW_NS then s.raise (inB g) 8
      else
        let s := s.raiseIf (s.bondOrder g).2 (inB g) 10
        (s.setRx g { x with group := true }).streamLock g (x.linkLast.getD 0)
    else s)

/-- The four links' last lines of one number make two lines of the picture (R94). -/
def State.bondLines (s : State) (q : Nat) : State :=
  let ls := (s.bondOrder q).1.map fun p => (s.rx p).lastLine
  match ls with
  | [some a, some b, some c, some d] =>
    if a.1 = b.1 ∧ a.1 = c.1 ∧ a.1 = d.1 then
      let subs := [a.2.2.2, b.2.2.2, c.2.2.2, d.2.2.2]
      let miss := a.2.1 || b.2.1 || c.2.1 || d.2.1
      -- the words of a sample pair: four in 4:2:2, six in 4:4:4
      let n := if ((s.rx q).linkLast.getD 0).toNat / 0x1000 % 4 = 0 then 4 else 6
      let row (y : Nat) : List Nat := (List.range (2 * a.2.2.2.length)).map fun i =>
        let p := interleave (2 * (i / n)) y
        (subs.getD p.1 []).getD (p.2.2 / 2 * n + i % n) 0
      let rows := if miss then ([], []) else (row (2 * a.1), row (2 * a.1 + 1))
      let s := s.setRx q { s.rx q with quad := some (a.1, miss, rows.1, rows.2) }
      (s.pipeLine q (2 * a.1) miss rows.1).pipeLine q (2 * a.1 + 1) miss rows.2
    else s
  | _ => s

/-! Frames and lines. -/

/-- The de-embedder's groups of the frame just ended (R297, R321). A group that had no control packet is 48 kHz synchronous. -/
def State.deembRoll (s : State) (g : Nat) : State :=
  let d := tget Deemb.idle s.aud.deemb g
  let rates := (List.range 8).map fun k => if bitN d.ctrl k then d.rates.getD k .sync48 else .sync48
  let r96 := (List.range 8).foldl (fun m k => m + 2 ^ k * b2n (rates.getD k .sync48 == AudRate.rate96)) 0
  let old := s.get (audB g) F.DEEMB_STAT_PRESENT
  let s := s.puts (audB g) [(F.DEEMB_STAT_PRESENT, d.found), (F.DEEMB_STAT_CTRL_PRESENT, b2n (d.ctrl != 0)),
    (F.DEEMB_STAT_RATE96, r96)]
  let s := s.raiseIf (old != d.found) (audB g) 0
  { s with aud := { s.aud with deemb := tset Deemb.idle s.aud.deemb g ⟨0, 0, if d.ctrl = 0 then [] else rates, d.odd⟩ } }

/-- The ordinary ANC of a source's frame goes to the outputs whose ANC_SRC names the source (R311, MODE 2). -/
def State.ancOffer (s : State) (c : Nat) (l : List AncPkt) : State :=
  (s.eff.filterMap fun p =>
    let d := dieOf p.1
    let q := pageOf p.1
    if 1 ≤ d ∧ d ≤ 6 ∧ 0x400 ≤ q ∧ q < 0x410 ∧ offOf p.1 = 0x60 then some ((d - 1) * 16 + (q - 0x400)) else none).foldl
      (fun u g =>
        if u.effGet (audB g) F.ANC_SRC_MODE = 2 ∧ u.effGet (audB g) F.ANC_SRC_SRC = c then
          u.setTx g { u.tx g with anc := l, ancSent := false }
        else u) s

/-- The settings of IN_OVERRIDE act from a frame start in FMT_LOCK on (R89). -/
def State.overrideActs (s : State) (g : Nat) : State :=
  if s.get (inB g) F.IN_STAT_STATE = 3 then s.wr (inB g + 0x48) (s.inFmtWord g ((s.rx g).lastLock.getD 0)) else s

/-- The end of one frame of a stream and the start of the next (R92, R100, R568). -/
def State.frameBoundary (s : State) (g : Nat) : State :=
  let locked := s.get (inB g) F.IN_STAT_STATE == 3
  let x := s.rx g
  if x.delivering then
    let s := (s.puts (inB g) [(F.IN_ANC_STAT_PACKETS, x.anc.length), (F.IN_ANC_STAT_BYTES, x.ancBytes),
      (F.IN_FRAME_COUNT, s.get (inB g) F.IN_FRAME_COUNT + 1)]).deembRoll g
    (s.setRx g { x with frames := x.frames + 1, anc := [], ancBytes := 0 }).ancOffer g x.anc
  else if locked && !s.stopped (inB g) then s.setRx g { x with delivering := true }
  else s

/-- Bytes of a received payload identifier, zero for none. -/
def Rx.pidBytes (x : Rx) : Nat := match x.pid with | some p => p.bytes.toNat | none => 0

/-- What a frame shows of itself: its raster, its equaliser, and the payload identifier that it carried; of a bonded group IN_PID is link
1's (R87, R88, R110). The EDH flags of the frame before become the upstream flags (R105). -/
def State.rxMeasured (s : State) (g : Nat) (m : FrameMeas) : State :=
  let q := g - g % 4
  let was := (s.bondOrder q).2
  let x := { s.rx g with pid := m.pid, edh := false, edhUp := (s.rx g).edh }
  let s := (s.puts (inB g) [(F.IN_RASTER_SAMPLES, min 0xFFFF m.samples), (F.IN_RASTER_LINES, min 0xFFFF m.lines),
    (F.IN_EQ_LOSS, min 255 m.loss), (F.IN_EQ_EYE, min 255 m.eye),
    (F.IN_STAT_PID_PRESENT, b2n m.pid.isSome), (F.IN_PID_BYTES, x.pidBytes),
    (F.IN_STAT_LINK, match m.pid with | some p => p.link.val | none => 0)]).setRx g x
  if s.inBonded g then
    let o := s.bondOrder q
    -- a locked group falls back to port order (R96)
    let s := s.raiseIf ((s.rx q).group && o.2 && !was) (inB q) 10
    (s.put (inB q) F.IN_PID_BYTES (s.rx (o.1.headD q)).pidBytes).linksRefresh q
  else s

/-- Two frames alike give a detection; two unlike the locked format lose the lock (R87, R90). Frames are alike by their measurements
alone: while a lock lasts, its format word stays that of the lock (DEDUCED, log 59). -/
def State.rxDetect (s : State) (g : Nat) (m : FrameMeas) : State :=
  let b := inB g
  let x := s.rx g
  let fr := ((rasterRates m.lines m.samples ++ wideRates m.lines m.samples).find? (periodFits m.periodPs)).getD 15
  let ms := (m.lines, m.samples, fr, m.interlaced)
  let found := s.sdiFound g m
  let w := match found with | some p => p.1 | none => 0
  if x.link then
    if x.meas = some ms then s.setRx g { x with differ := 0 }
    else if x.differ = 0 then s.setRx g { x with differ := 1 }
    else s.rxLoss g 2 none
  else
    let same := if x.meas = some ms then x.same + 1 else 1
    let s := s.setRx g { x with meas := some ms, same := same, found := w }
    if 2 ≤ same then
      let un := found.isNone
      ((s.put b F.IN_STAT_UNSUP (b2n un)).raiseIf (un && !s.is b F.IN_STAT_UNSUP) b 3).rxLive g
    else s

/-- The skew and the agreement of a bonded group's links in a frame of its first port (R96, R97). -/
def State.bondFrame (s : State) (g skew : Nat) : State :=
  let s := s.put (inB g) F.IN_QUAD_SKEW_NS (min 0xFFFF skew)
  let s := s.setRx g { s.rx g with together := if s.linksAgree g then (s.rx g).together + 1 else 0 }
  if (s.rx g).group && 4000 < skew then (s.raise (inB g) 8).groupLoss g none
  else if (s.rx g).group && !s.linksAgree g then s.groupLoss g none
  else s

/-- SDI_RX_FRAME (R87, R90, R97). -/
def execSdiRxFrame (g : Fin 96) (m : FrameMeas) (s : State) : Host.Outcome State Fault Refusal :=
  .next (if s.rxUp g.val && 2 ≤ s.get (inB g.val) F.IN_STAT_STATE then
      let s := (s.rxMeasured g.val m).rxDetect g.val m
      let s := if s.inBonded g.val && g.val % 4 == 0 then s.bondFrame g.val m.skewNs else s
      let s := s.overrideActs g.val
      if s.inMember g.val then s else s.frameBoundary g.val
    else s)

/-- IN_OVERRIDE_WRITE (R89): the new values act at the next frame start of the input. -/
def execInOverrideWrite (g : Fin 96) (v : Word) (s : State) : Host.Outcome State Fault Refusal :=
  .next (s.hostWrite (g.val / 16 + 1) (s.wr (inB g.val + 0x60) (v &&& 0xF)))

/-- The errors of a received line are counted (R93): line CRCs at HD and above, EDH on SD. -/
def State.rxErrors (s : State) (g : Nat) (l : RxLine) : State :=
  let b := inB g
  let sd := s.get b F.IN_STAT_RATE == 1
  let s := if l.crcErr && !sd then (s.bump b F.IN_ERR_CRC).raise b 5 else s
  let s := if l.edhErr && sd then ((s.bump b F.IN_ERR_CRC).raise b 5).setRx g { s.rx g with edh := true } else s
  if l.trsErr = 0 then s else (s.bump b F.IN_ERR_TRS l.trsErr).raise b 6

/-- The picture of an active line is passed on to the Floor, flagged missing where the pipe cannot take it (R23, R35); of a bonded group
with its other links' lines (R94). -/
def State.rxPicture (s : State) (g : Nat) (l : RxLine) (y : Nat) : State :=
  let q := if s.inBonded g then g - g % 4 else g
  if (s.rx q).delivering then
    let ep := s.get (inB q) F.IN_STAT_EPOCH
    let s := s.setRx g { s.rx g with lastLine := some (y, !l.fits, ep, if l.fits then l.payload else []) }
    let s := s.raiseIf (!l.fits) (inB q) 7
    if s.inBonded g then s.bondLines q else s.pipeLine g y (!l.fits) l.payload
  else s

/-- SDI_RX_LINE (R93, R35): errors are counted in both locked states. -/
def execSdiRxLine (g : Fin 96) (l : RxLine) (s : State) : Host.Outcome State Fault Refusal :=
  .next (if s.rxUp g.val && 2 ≤ s.get (inB g.val) F.IN_STAT_STATE then
      match l.active with
      | none => s.rxErrors g.val l
      | some y => if (s.rx g.val).link then (s.rxErrors g.val l).rxPicture g.val l y else s.rxErrors g.val l
    else s)

/-! Ancillary data (R99, R100). -/

/-- Bytes of an ANC packet as R100 counts them: DID, SDID or DBN, data count and user data (DESIGN CHOICE, log 60). -/
def ancPktBytes (p : AncPkt) : Nat := 3 + p.data.length

/-- Audio packets of ST 299-1 and -2 (control and data of groups 1 to 8), taken by the de-embedder. -/
def ancIsAudio (p : AncPkt) : Bool :=
  let d := p.did.toNat
  (0xE0 ≤ d && d ≤ 0xE7) || (0xA0 ≤ d && d ≤ 0xA7)
/-- Payload identifier of ST 352. -/
def ancIsPid (p : AncPkt) : Bool := p.did == 0x41 && p.sdid == 0x01
/-- EDH packet of RP 165. -/
def ancIsEdh (p : AncPkt) : Bool := p.did == 0xF4
/-- Reference Quality Packet (R99). -/
def ancIsRqp (p : AncPkt) : Bool := p.did == 0x52 && p.sdid == 0x0A

/-- An ordinary packet queued, or discarded beyond the limits (R100). -/
def State.ancQueue (s : State) (g : Nat) (p : AncPkt) : State :=
  let x := s.rx g
  if x.anc.length < 128 ∧ x.ancBytes + ancPktBytes p ≤ 16384 then
    s.setRx g { x with anc := x.anc ++ [p], ancBytes := x.ancBytes + ancPktBytes p }
  else s.raise (inB g) 12

/-- ANC_PACKET_RECEIVED (R99): of a bonded input only link 1 is parsed. -/
def execAncPacketReceived (g : Fin 96) (checksumOk : Bool) (p : AncPkt) (s : State) :
    Host.Outcome State Fault Refusal :=
  let q := if s.inBonded g.val then g.val - g.val % 4 else g.val
  let parsed := s.rxUp g.val && (s.rx q).delivering && (!s.inBonded g.val || (s.bondOrder q).1.headD q == g.val)
  .next (if !parsed then s
    else if !checksumOk then s.raise (inB q) 11
    else if ancIsAudio p || ancIsPid p || (ancIsEdh p && s.get (inB q) F.IN_STAT_RATE == 1) then s
    else
      let s := if ancIsRqp p && s.is (inB q) F.IN_ANC_CFG_RQP_ACCEPT then s.rqp q p.data else s
      if s.is (inB q) F.IN_ANC_CFG_ANC_EN then s.ancQueue q p else s)

/-- DRIVER_OPEN_SHORT (R113). -/
def execDriverOpenShort (g : Fin 96) (faulty : Bool) (s : State) : Host.Outcome State Fault Refusal :=
  .next (if s.present (g.val / 16 + 1) then
      let was := (s.tx g.val).driverFault
      ((s.setTx g.val { s.tx g.val with driverFault := faulty }).raiseIf (faulty && !was) (outB g.val) 5).live (outB g.val) 5 faulty
    else s)

end Sys2Proof.Machine
end

