-- ==== Sys2Proof/Machine/Audio.lean ====
section
/-! DEFINITION. The audio router and the de-embedders (chapter 09). What the embedder does at a frame and at a line stands in
Output; the limiter assist stands in Yumen. -/

namespace Sys2Proof.Machine

/-! Addresses and routes (R291, R300, R315 to R318). -/

/-- ROUTE_SRC, ROUTE_GAIN and ROUTE_TIME of context n, DEST_CFG and DEST_STAT of destination d, AFV_MAP of a source code. -/
abbrev rsA (n : Nat) : Nat := gPage 0x181 + 4 * n
abbrev rgA (n : Nat) : Nat := gPage 0x191 + 4 * n
abbrev rtA (n : Nat) : Nat := gPage 0x1A1 + 4 * n
abbrev destA (d : Nat) : Nat := gPage 0x1B1 + 4 * d
abbrev destStatA (d : Nat) : Nat := gPage 0x1B5 + 4 * d
/-- ASRC group k: added to the offsets of group 0. -/
abbrev asrcB (k : Nat) : Nat := arB + 8 * k

/-- AFV_MAP's audio base of a video source code, where valid (R307, R318). -/
def State.afvBase (s : State) (c : Nat) : Option Nat :=
  let h := fldGet (s.rd (gPage 0x1B9 + 4 * (c / 2))) (16 * (c % 2)) 16
  if bitN h 15 then some (h % 4096) else none

/-- A code that is a source (R291). -/
def audIsSource (c : Nat) : Bool := c < 0x1000 || (0x1000 ≤ c && c < 0x1010)

/-- A generator's code. -/
def audIsGen (c : Nat) : Bool := 0x1000 ≤ c && c < 0x1010

/-- Update the router's own state. -/
def State.modAud (s : State) (f : Aud → Aud) : State := { s with aud := f s.aud }

/-- Contexts enabled in effect, in ascending order. -/
def State.audEnabled (s : State) : List Nat :=
  s.eff.filterMap fun p => if rsA 0 ≤ p.1 ∧ p.1 < rsA 16384 ∧ bitN p.2.toNat 31 then some ((p.1 - rsA 0) / 4) else none

/-- Destination of a context. -/
abbrev State.audDst (s : State) (n : Nat) : Nat := s.effGet (rsA n) F.ROUTE_SRC_DST

/-- Enabled contexts of a destination. -/
def State.routesOf (s : State) (d : Nat) : List Nat := s.audEnabled.filter fun n => s.audDst n == d

/-- Channels that a converter group covers (R302): with PAIR96 whole pairs, an odd COUNT leaving its last channel out (DESIGN CHOICE,
log 54). -/
def State.asrcCount (s : State) (k : Nat) : Nat :=
  let n := min 32 (s.effGet (asrcB k) F.ASRC_CFG_COUNT)
  if s.effIs (asrcB k) F.ASRC_CFG_PAIR96 then n - n % 2 else n

/-- A destination carries 96 kHz pairs (R300). -/
def State.pair96 (s : State) (d : Nat) : Bool := d % 2 == 0 && s.effIs (destA d) F.DEST_CFG_PAIR96

/-- Destinations that switch with a destination: the two of a pair. -/
def State.pairOf (s : State) (d : Nat) : List Nat :=
  let b := d - d % 2
  if s.pair96 b then [b, b + 1] else [d]

/-- A context holds a long tap (R304). -/
def State.longTap (s : State) (n : Nat) : Bool :=
  s.effIs (rtA n) F.ROUTE_TIME_AUTO || 512 ≤ s.effGet (rtA n) F.ROUTE_TIME_DELAY

/-- Long taps in effect. -/
def State.longTaps (s : State) : Nat :=
  sumN (s.audEnabled.map fun n => if s.longTap n then (if s.pair96 (s.audDst n) then 2 else 1) else 0)

/-- The ASRC group that covers a channel source (R302). -/
def State.asrcOf (s : State) (c : Nat) : Option Nat :=
  if 0x1000 ≤ c then none
  else (List.range 96).find? fun k =>
    let b := s.effGet (asrcB k) F.ASRC_CFG_BASE
    b ≤ c && c < b + s.asrcCount k

/-- An event of one context, destination or group (R320). -/
def State.audEvent (s : State) (i bit : Nat) : State :=
  (s.raise arB bit).puts arB [(F.AR_LAST_INDEX, i), (F.AR_LAST_EVENT, bit)]

/-! Arithmetic (R293 to R295, R303). -/

/-- sat24 of R294. -/
def sat24 (v : Int) : Int := clampI (-8388608) 8388607 v

/-- `n` is at most g(G) of R294: (n − ½)^200 ≤ 2^4800 × 10^G, in integers. -/
def gainOk (g : Int) (n : Nat) : Bool :=
  n == 0 || (if 0 ≤ g then (2 * n - 1) ^ 200 ≤ 2 ^ 5000 * 10 ^ g.toNat else (2 * n - 1) ^ 200 * 10 ^ (-g).toNat ≤ 2 ^ 5000)

/-- The largest number below 2^bits that satisfies a downward closed test. -/
def largest (ok : Nat → Bool) : Nat → Nat → Nat
  | 0, acc => acc
  | b + 1, acc => if ok (acc + 2 ^ b) then largest ok b (acc + 2 ^ b) else largest ok b acc

/-- Linear gain factor (R294). -/
def gainFactor (g : Int) : Nat := if g = -1024 then 0 else largest (gainOk g) 27 0

/-- ROUTE_GAIN.GAIN as it acts (R317). -/
def gainCode (g : Int) : Int := if g = -1024 then g else clampI (-1000) 120 g

/-- A crossfade's sample (R295). -/
def xfade (a b : Int) (n : Nat) : Int := asr (a * ((63 - n : Nat) : Int) + b * ((n + 1 : Nat) : Int) + 32) 6

/-- 2^128 × π, rounded. -/
def piFix : Nat := 1069028584064966747859680373161870783301

/-- 2^128 × sin of k/48,000 of a turn for k ≤ 12,000: exact at 0, 1/12 and 1/4 of a turn, otherwise the power series. -/
def sinQuarter (k : Nat) : Int :=
  if k = 4000 then (2 : Int) ^ 127
  else if k = 12000 then (2 : Int) ^ 128
  else
    let x : Int := (2 * piFix * k / 48000 : Nat)
    let x2 := x * x / 2 ^ 128
    ((List.range 30).foldl (fun (acc : Int × Int) i =>
      (acc.1 + acc.2, -(acc.2 * x2 / 2 ^ 128) / ((2 * i + 2) * (2 * i + 3) : Nat))) (0, x)).1

/-- 2^128 × sin of k/48,000 of a turn. -/
def sinFix (k : Nat) : Int :=
  let k := k % 48000
  if k ≤ 12000 then sinQuarter k
  else if k ≤ 24000 then sinQuarter (24000 - k)
  else if k ≤ 36000 then -sinQuarter (k - 24000)
  else -sinQuarter (48000 - k)

/-- 2^64 × (2^23 − 1) × 10^(−L ÷ 200), rounded down. -/
def ampFix (l : Nat) : Nat :=
  largest (fun m => m ^ 200 * 10 ^ l ≤ (8388607 * 2 ^ 64) ^ 200) 88 0

/-- Sample n of a generator's GEN_CFG word (R303). -/
def genSample (cfg n : Nat) : Int :=
  let mode := cfg % 4
  let f := cfg / 4 % 2 ^ 15
  let l := cfg / 2 ^ 17 % 2 ^ 11
  if mode = 0 ∨ mode = 3 ∨ (mode = 2 ∧ n % 144000 < 12000) then 0
  else roundDivI ((ampFix l : Int) * sinFix (f * n)) (2 ^ 192)

/-- A sample of a source's history (R304): a read past its start is zero. -/
def State.histAt (s : State) (c delay : Nat) : AudSmp × Bool := (tget [] s.aud.hist c).getD delay (⟨0, 0⟩, false)

/-- A route's delayed source sample (R294, R303, R304). -/
def State.tapSample (s : State) (t : Tap) : Int :=
  if t.gap || t.mode == 1 then 0
  else if audIsGen t.src then
    if t.since + t.delay ≤ s.aud.count then genSample t.gen (s.aud.count - t.since - t.delay) else 0
  else if t.mode = 2 then
    let pair := match s.asrcOf t.src with | some k => s.effIs (asrcB k) F.ASRC_CFG_PAIR96 | none => false
    if t.delay ≤ s.aud.count then
      sgn 24 (unsgn 24 (Config.asrcSample (((s.aud.count - t.delay) * 4096 + t.src % 4096) * 2 + b2n pair))) else 0
  else (s.histAt t.src t.delay).1.value

/-- The label bits that a DATA destination carries on with its one source's sample (R293, R300). -/
def State.destLabel (s : State) (x : DestSt) (taps : List Tap) : Option Nat :=
  match x.data, taps with
  | true, [t] => if t.gap || t.mode != 0 || audIsGen t.src then none else some (s.histAt t.src t.delay).1.label
  | _, _ => none

/-- A destination's output under one route state, before saturation (R294). -/
def State.destSum (s : State) (taps : List Tap) : Int :=
  asr ((taps.foldl (fun (acc : Int) t =>
    acc + s.tapSample t * (if t.invert then -1 else 1) * (gainFactor t.gain : Int)) 0) + 8388608) 24

/-- The output of a destination through its crossfades (R295), and whether a sum saturates. -/
def State.destValue (s : State) (l : List (Nat × List Tap)) : Int × Bool :=
  let one (t : List Tap) : Int × Bool := (sat24 (s.destSum t), sat24 (s.destSum t) != s.destSum t)
  match l with
  | [] => (0, false)
  | p :: rest => rest.foldl (fun acc q => (xfade acc.1 (one q.2).1 q.1, acc.2 || (one q.2).2)) (one p.2)

/-- The crossfades one sample later: one that is over leaves only its new state. -/
def destAdvance (l : List (Nat × List Tap)) : List (Nat × List Tap) :=
  match l with
  | [] => []
  | p :: rest => rest.foldl (fun acc q => if q.1 = 63 then [(0, q.2)] else acc ++ [(q.1 + 1, q.2)]) [p]

/-- A destination at reset. -/
def DestSt.empty : DestSt := ⟨[], false, false, 0⟩
def State.dest (s : State) (d : Nat) : DestSt := tget DestSt.empty s.aud.dests d
def State.setDest (s : State) (d : Nat) (x : DestSt) : State :=
  s.modAud fun a => { a with dests := tset DestSt.empty a.dests d x }

/-- The route state that a destination goes to: that of its last crossfade. -/
def DestSt.taps (x : DestSt) : List Tap := match x.layers.getLast? with | some p => p.2 | none => []

/-- A destination changes to a new route state: a crossfade, or hard on a DATA destination (R295). -/
def State.fadeTo (s : State) (d : Nat) (taps : List Tap) (hard : Bool) : State :=
  let x := s.dest d
  if x.taps = taps ∧ x.data = hard then s
  else if hard then s.setDest d { x with layers := [(0, taps)], data := true }
  else if x.taps = taps then s.setDest d { x with data := false }
  else
    let old := if x.layers.isEmpty then [(0, [])] else x.layers
    s.setDest d { x with layers := old ++ [(0, taps)], data := false }

/-! Route contexts (R302, R306 to R308). -/

/-- A context at reset. -/
def ACtx.empty : ACtx := ⟨0, 0, 0, false, false, none, [], 0x1FFF, false, []⟩
def State.actx (s : State) (n : Nat) : ACtx := tget ACtx.empty s.aud.ctxs n
def State.setActx (s : State) (n : Nat) (x : ACtx) : State :=
  s.modAud fun a => { a with ctxs := tset ACtx.empty a.ctxs n x }

/-- The video route that a destination follows (R307). -/
def State.followed (s : State) (d : Nat) : Option (Nat × Nat) :=
  if s.effIs (destA d) F.DEST_CFG_FOLLOW_EN then
    some (s.effGet (destA d) F.DEST_CFG_FOLLOW_TABLE, s.effGet (destA d) F.DEST_CFG_FOLLOW_INDEX)
  else none

/-- Source of a context as its words and the followed route now give it (R307); none where an AFV route has none. -/
def State.resolve (s : State) (n : Nat) : Option Nat :=
  let c := s.effGet (rsA n) F.ROUTE_SRC_SRC
  if s.effIs (rtA n) F.ROUTE_TIME_AFV then
    match s.followed (s.audDst n) with
    | none => none
    | some p =>
      let v := if p.2 < routeN p.1 then s.routeSrc p.1 p.2 else 0xFFF
      if v = 0xFFF then none else (s.afvBase v).map fun b => b + c % 32
  else if c = 0x1FFF then none else some c

/-- Source in use of a context (R307); none where it has none. -/
def State.inUse (s : State) (n : Nat) : Option Nat :=
  let c := (s.actx n).resolved
  if c = 0x1FFF then none else some c

/-- An audio context of the media ports that covers an IP channel (R337, R345): `tx` for transmit contexts. -/
def State.ipAudio (s : State) (tx : Bool) (ch : Nat) : Option Nat :=
  let a (c : Nat) := if tx then txA c else rxA c
  (List.range 1024).find? fun c =>
    let w := (s.effRd (a c)).toNat
    let u := (s.effRd (a c + 8)).toNat
    let n := min 64 (u / 2 ^ 10 % 2 ^ 7) * (if bitN u 17 then 2 else 1)
    bitN w 31 && (w % 8 == 2 || w % 8 == 3) && u % 2 ^ 10 ≤ ch && ch < u % 2 ^ 10 + n

/-- Path latency P of a context with its source, in samples (R306). -/
def State.pathLatency (s : State) (n : Nat) (src : Option Nat) : Nat :=
  (match src with
    | none => 0
    | some c =>
      (if c < 0xC00 then 16
        else if c < 0x1000 then (match s.ipAudio false (c - 0xC00) with | some x => s.effGet (rxA x) F.RX_PLAY_PLAYOUT | none => 0)
        else 0) + (if (s.asrcOf c).isSome then 64 else 0))
    + 16 + (if s.audDst n < 0xC00 then 16 else 0)

/-- TRIM of a context (R308). -/
def State.trim (s : State) (n : Nat) : Int := sgn 17 (s.effGet (rtA n) F.ROUTE_TIME_DELAY)

/-- Applied delay of a context (R308): DELAY, or where AUTO does not follow max(0, TRIM), or what R309 last applied. -/
def State.applied (s : State) (n : Nat) : Nat :=
  if !s.effIs (rtA n) F.ROUTE_TIME_AUTO then min 96000 (s.effGet (rtA n) F.ROUTE_TIME_DELAY)
  else
    let gen := match s.inUse n with | some c => audIsGen c | none => false
    if (s.followed (s.audDst n)).isNone || gen then min 96000 (s.trim n).toNat
    else (s.actx n).applied

/-- How a source reads: its history, zero, or through its converter group (R302). -/
def State.tapMode (s : State) (c : Nat) : Nat :=
  match s.asrcOf c with
  | some k => if s.get (asrcB k) F.ASRC_STAT_STATE = 2 then 2 else 1
  | none => if audIsSource c then 0 else 1

/-- The route state in effect of a destination (R294, R300). -/
def State.destTaps (s : State) (d : Nat) : List Tap :=
  let b := d - d % 2
  let d0 := if s.pair96 b then b else d
  ((s.routesOf d0).filter fun n => !s.aud.disabled.contains n).map fun n =>
    let src := (s.inUse n).map fun c => c + (d - d0)
    let c := src.getD 0x1FFF
    let k := c - 0x1000
    ⟨c, s.applied n, gainCode (sgn 11 (s.effGet (rgA n) F.ROUTE_GAIN_GAIN)), s.effIs (rgA n) F.ROUTE_GAIN_INVERT,
      if src.isSome then s.tapMode c else 1, if audIsGen c then (s.rd (arB + 0x100 + 4 * k)).toNat else 0,
      if audIsGen c then tget 0 s.aud.genAt k else 0, n, false⟩

/-- AR_COUNT (R316). -/
def State.audCounts (s : State) : State :=
  (s.put arB F.AR_COUNT_ROUTES s.audEnabled.length).put arB F.AR_COUNT_LONG_TAPS (min 4095 s.longTaps)

/-- The ledger that a destination follows, in ns (R308). -/
def State.followedLedger (s : State) (p : Nat × Nat) : Nat :=
  (if p.1 = 0 then s.rd (gPage 0x045 + 4 * p.2) else s.rd (gPage 0x047 + 4 * p.2)).toNat

/-- RQ_STAT to RQ_PATH for the context that RQ_INDEX names (R316). -/
def State.rqRefresh (s : State) : State :=
  let n := s.get arB F.RQ_INDEX_INDEX
  let x := s.actx n
  let on := s.audEnabled.contains n
  let src := s.inUse n
  let p := s.pathLatency n src
  let fol := match s.followed (s.audDst n) with
    | some q => if on && s.effIs (rtA n) F.ROUTE_TIME_AUTO then some (s.followedLedger q) else none
    | none => none
  let err : Int := match fol with
    | some l => if l = 0xFFFFFFFF then -2147483648 else roundDivI ((((s.applied n + p) * 125000 : Nat) : Int) - 6 * (l : Int)) 6
    | none => -2147483648
  let fading := ((s.pairOf (s.audDst n)).any fun d => 1 < (s.dest d).layers.length) && on
  s.puts arB [(F.RQ_STAT_APPLIED, if on then s.applied n else 0), (F.RQ_STAT_LONG, b2n (on && s.longTap n)),
    (F.RQ_STAT_CLASS, if on then x.cls else 0), (F.RQ_STAT_CLAMPED, b2n (on && x.clamped)), (F.RQ_STAT_XFADE, b2n fading),
    (F.RQ_TARGET_SAMPLES, x.target), (F.RQ_AVERR_NS, unsgn 32 err), (F.RQ_PATH_P, if on then min 255 p else 0),
    (F.RQ_PATH_RESOLVED, if on then src.getD 0x1FFF else 0x1FFF)]

/-! Following a picture (R307 to R310). -/

/-- Live bit of AUTO_HOLD. -/
def State.holdLive (s : State) : State :=
  s.live arB 7 (s.audEnabled.any fun n => (s.actx n).cls == 3)

/-- floor((L × 6 + 62,500) ÷ 125,000) for a mean ledger of `n` values of the given sum (R308, R309). -/
def ledgerSamples (sum n : Nat) : Nat := (6 * sum + 62500 * n) / (125000 * n)

/-- One destination frame of an AUTO context (R308, R309), or with `tick` false a take within it, which uses that frame's target
(R310). -/
def State.autoUpdate (s : State) (n : Nat) (tick : Bool) : State :=
  let x := s.actx n
  let src := s.inUse n
  let trim := s.trim n
  match s.followed (s.audDst n) with
  | none => s.setActx n { x with cls := 0, ledger := [] }
  | some p =>
    if (match src with | some c => audIsGen c | none => false) then s.setActx n { x with cls := 0, ledger := [] }
    else
      let l := s.followedLedger p
      let rate := rateOf (s.dstRate p.1 p.2)
      let r := ceilDiv rate.1 rate.2
      let hist := if tick || x.ledger.isEmpty then (l :: x.ledger).take r else x.ledger
      if l = 0xFFFFFFFF then
        let x := { x with
          cls := 3, ledger := hist
          applied := if x.held then x.applied else min 96000 trim.toNat
          next := if x.held then none else some (min 96000 trim.toNat)
          held := true }
        let was := (s.actx n).cls
        (if was = 3 then s.setActx n x else (s.setActx n x).audEvent n 7).holdLive
      else
        let rx := s.route p.1 p.2
        let avg := s.get (routeStatA p.1 p.2) F.ROUTE_STAT_PATH == 2 && s.ratesDiffer p.1 p.2
        let valid := hist.filter (· != 0xFFFFFFFF)
        let base := if avg then ledgerSamples (sumN valid) valid.length else ledgerSamples l 1
        let t : Int := ((base - s.pathLatency n src : Nat) : Int) + trim
        let target := (clampI 0 96000 t).toNat
        let clamped := 96000 < t || (t < 0 && trim < 0)
        let diff := ((target : Int) - (x.applied : Int)).natAbs
        let move := !x.held || rx.jump || x.due || x.cls == 3 ||
          (if avg then s.get arB F.AR_CFG_AVG_HYST < diff else rx.slip || 2 ≤ diff)
        let slip := !avg && rx.slip && x.held && diff != 0
        let y := { x with
          cls := if avg then 2 else 1, target := target, clamped := clamped, ledger := hist, held := true
          next := if move then some target else x.next }
        let s := s.setActx n y
        let s := if clamped then s.audEvent n 1 else s
        let s := if slip then s.audEvent n 6 else s
        s.holdLive

/-- AUTO_DELAY_UPDATE (R308 to R310). -/
def execAutoDelayUpdate (n : Fin 16384) (s : State) : Host.Outcome State Fault Refusal :=
  .next (if s.audEnabled.contains n.val && s.effIs (rtA n.val) F.ROUTE_TIME_AUTO then (s.autoUpdate n.val true).rqRefresh else s)

/-- What a context connects, as its words in effect give it. -/
def State.ctxKey (s : State) (n : Nat) : List Nat :=
  [s.effGet (rsA n) F.ROUTE_SRC_SRC, s.audDst n, s.effGet (rtA n) F.ROUTE_TIME_AFV, s.effGet (rtA n) F.ROUTE_TIME_AUTO,
    match s.followed (s.audDst n) with | some p => p.1 * 4096 + p.2 | none => 0x3FFF]

/-- A context at its destination's switch instant (R305, R307, R310): a delay that is due moves; after a take its source is resolved
and its target taken anew, and what it held of another route is gone. -/
def State.ctxSwitch (s : State) (n : Nat) : State :=
  let auto := s.effIs (rtA n) F.ROUTE_TIME_AUTO
  let x := s.actx n
  let y := if x.due then
      { (if x.key = s.ctxKey n then x else { ACtx.empty with due := true }) with
        key := s.ctxKey n, resolved := (s.resolve n).getD 0x1FFF }
    else x
  let s := s.setActx n y
  let s := if x.due && s.effIs (rtA n) F.ROUTE_TIME_AFV && (s.resolve n).isNone && (s.followed (s.audDst n)).isSome then
      s.audEvent n 2 else s
  let s := if auto && (x.due || !y.held) then s.autoUpdate n false else s
  let z := s.actx n
  s.setActx n { z with applied := z.next.getD z.applied, next := none, due := false }

/-- A destination switches hard: a DATA destination, or the second of a pair whose first is one (R295, R300). -/
def State.destHard (s : State) (d : Nat) : Bool :=
  s.effIs (destA (if s.pair96 (d - d % 2) then d - d % 2 else d)) F.DEST_CFG_DATA

/-- A destination takes the route state in effect: delays that are due move, and one crossfade carries every change (R305). -/
def State.switchDest (s : State) (d : Nat) : State :=
  let rs := s.routesOf d
  let s := rs.foldl State.ctxSwitch s
  let s := (s.pairOf d).foldl (fun u e => u.fadeTo e (u.destTaps e) (u.destHard e)) s
  s.put (destStatA d) F.DEST_STAT_ROUTES (min 8 rs.length)

/-- AUDIO_SWITCH (R305). -/
def execAudioSwitch (d : Fin 4096) (s : State) : Host.Outcome State Fault Refusal :=
  .next ((s.switchDest d.val).audCounts.rqRefresh)

/-- Destinations whose route state may read anew: those with a route state. -/
def State.audDests (s : State) : List Nat := s.aud.dests.map (·.1)

/-- Every destination that reads some source anew fades to it: `f` gives each tap as it now reads. -/
def State.refade (s : State) (f : Tap → Tap) : State :=
  s.audDests.foldl (fun u d => u.fadeTo d ((u.dest d).taps.map f) (u.dest d).data) s

/-- GEN_CFG_WRITE (R303, R316): the new settings act at the next sample, faded. -/
def execGenCfgWrite (k : Fin 16) (v : Word) (s : State) : Host.Outcome State Fault Refusal :=
  let f := clampN 20 20000 (fldGet v 2 15)
  let l := min 1000 (fldGet v 17 11)
  let w := fldSet (fldSet (v &&& 0x0FFFFFFF) 2 15 f) 17 11 l
  .next (s.hostWrite 0 (
    let s := (s.wr (arB + 0x100 + 4 * k.val) w).modAud fun a => { a with genAt := tset 0 a.genAt k.val a.count }
    s.refade fun t => if t.src = 0x1000 + k.val then { t with gen := w.toNat, since := s.aud.count } else t))

/-! Sample-rate converter groups (R302). -/

/-- Live bit of ASRC_UNLOCK. -/
def State.asrcLive (s : State) : State :=
  s.live arB 4 ((List.range 96).any fun k =>
    s.effGet (asrcB k) F.ASRC_CFG_COUNT != 0 && s.get (asrcB k) F.ASRC_STAT_STATE != 2)

/-- A group's state and ratio change; a change into or out of state 2 is faded. -/
def State.asrcSet (s : State) (k st : Nat) (ppb : Option Int) : State :=
  let was := s.get (asrcB k) F.ASRC_STAT_STATE
  let s := s.put (asrcB k) F.ASRC_STAT_STATE st
  let s := match ppb with | some p => s.put (asrcB k) F.ASRC_STAT_RATIO_PPB (unsgn 24 p) | none => s
  let s := s.refade fun t => if audIsSource t.src && !audIsGen t.src then { t with mode := s.tapMode t.src } else t
  let s := if st = 2 ∧ was ≠ 2 then s.audEvent k 3 else if st ≠ 2 ∧ was = 2 then s.audEvent k 4 else s
  s.asrcLive

/-- ASRC_LOCK (R302): within ±1,000 ppm. -/
def execAsrcLock (k : Fin 96) (ppb : Int) (s : State) : Host.Outcome State Fault Refusal :=
  .next (if s.effGet (asrcB k.val) F.ASRC_CFG_COUNT != 0 && ppb.natAbs ≤ 1000000 then (s.asrcSet k.val 2 (some ppb)).rqRefresh
    else s)

/-- ASRC_UNLOCK (R302): out of range, or acquiring again when the source is lost. -/
def execAsrcUnlock (k : Fin 96) (ppb : Option Int) (s : State) : Host.Outcome State Fault Refusal :=
  .next (if s.effGet (asrcB k.val) F.ASRC_CFG_COUNT != 0 then
      (s.asrcSet k.val (match ppb with | some p => if p.natAbs ≤ 1000000 then 1 else 3 | none => 1) ppb).rqRefresh
    else s)

/-- Groups after a take: one that is enabled anew or covers other channels acquires, one that is disabled is off (R302). -/
def State.asrcSettle (s : State) : State :=
  ((List.range 96).foldl (fun u k =>
    let on := u.effGet (asrcB k) F.ASRC_CFG_COUNT != 0
    let st := u.get (asrcB k) F.ASRC_STAT_STATE
    let w := (u.effRd (asrcB k + 0x200)).toNat
    let v := u.modAud fun a => { a with asrc := tset 0 a.asrc k (if on then w else 0) }
    if on && (st == 0 || tget 0 u.aud.asrc k != w) then v.asrcSet k 1 none
    else if !on && st != 0 then (v.asrcSet k 0 none).put (asrcB k) F.ASRC_STAT_RATIO_PPB 0 else v) s).asrcLive

/-! System samples (R292, R294, R302, R304, R314). -/

/-- A source channel is marked asynchronous by its input or its receive context (R302). -/
def State.audAsync (s : State) (c : Nat) : Bool :=
  if c < 0xC00 then s.is (audB (c / 32)) F.DEEMB_STAT_ASYNC
  else if c < 0x1000 then match s.ipAudio false (c - 0xC00) with | some x => s.is (rxA x) F.RX_STAT_ASYNC | none => false
  else false

/-- Every source channel's history takes its next sample: one that has none waiting takes zero; an unconverted asynchronous one
repeats or drops a sample where its phase moves (R302, R304). -/
def State.audIntake (s : State) (slips : List (Nat × Bool)) : State :=
  let codes := dedupN ((s.aud.queue.map (·.1)) ++ (s.aud.hist.map (·.1)))
  codes.foldl (fun u c =>
    let q := tget [] u.aud.queue c
    let h := tget [] u.aud.hist c
    -- a sample of the media ports that is not there in time is zero and faded (R337)
    let none' : AudSmp × Bool := (⟨0, 0⟩, 0xC00 ≤ c)
    let slip := if (u.asrcOf c).isNone && u.audAsync c then slips.find? fun p => p.1 == c else none
    let r : (AudSmp × Bool) × List (AudSmp × Bool) := match slip with
      | some (_, true) => (h.headD (⟨0, 0⟩, false), q)
      | some (_, false) => ((q.drop 1).headD none', q.drop 2)
      | none => (q.headD none', q.drop 1)
    let u := u.modAud fun a => { a with
      queue := tset [] a.queue c r.2, hist := tset [] a.hist c ((r.1 :: h).take 98304) }
    if slip.isSome && !u.aud.slipped then (u.modAud fun a => { a with slipped := true }).raise arB 5 else u) s

/-- The taps that read a gap or poisoned data take zero from here on, the others their samples again (R297, R314). -/
def State.audGaps (s : State) (poisoned : List Nat) : State :=
  s.refade fun t => { t with
    gap := (s.histAt t.src t.delay).2 || poisoned.contains t.ctx }

/-- An uncorrectable table word disables its context (R314). -/
def State.ctxLost (s : State) (n : Nat) : State :=
  let s := ((s.modAud fun a => { a with disabled := a.disabled ++ [n] }).setFault arB 0x3F 0x1FF).audEvent n 9
  (s.pairOf (s.audDst n)).foldl (fun v e => v.fadeTo e ((v.dest e).taps.filter (·.ctx != n)) (v.dest e).data) s

/-- A destination's samples are carried on: by an output that sends, or an audio context of the media ports. -/
def State.audSends (s : State) (d : Nat) : Bool :=
  if d < 0xC00 then (let st := s.get (outB (d / 32)) F.OUT_STAT_STATE; st == 1 || st == 2) else (s.ipAudio true (d - 0xC00)).isSome

/-- A destination's sample waits to be embedded or packed; one whose slot has been sent without it is not sent any more (R298;
DESIGN CHOICE, log 55). -/
def State.audReady (s : State) (d : Nat) (v : Int × Option Nat) : State :=
  if !s.audSends d then s
  else s.modAud fun a =>
    if 0 < tget 0 a.skip d then { a with skip := tset 0 a.skip d (tget 0 a.skip d - 1) }
    else { a with ready := tset [] a.ready d (tget [] a.ready d ++ [v]) }

/-- The sample of one destination (R294, R295). -/
def State.destTick (s : State) (d : Nat) : State :=
  let x := s.dest d
  let v := s.destValue x.layers
  let s := (s.setDest d { x with layers := destAdvance x.layers, clip := x.clip || v.2, last := v.1 }).audReady d
    (v.1, s.destLabel x x.taps)
  if v.2 then (((s.put (destStatA d) F.DEST_STAT_CLIP 1).put arB F.AR_CLIP_DEST d).audEvent d 0).live arB 0 true
  else s

/-- Channels that an output's rate class carries (R296): 16 on SD, HD and 3G level B, otherwise 32. -/
def State.embCapacity (s : State) (g : Nat) : Nat :=
  let b := outB g
  match rateClass (s.get b F.OUT_CFG_FMT) (s.get b F.OUT_CFG_FRATE)
      (isHigh (s.get b F.OUT_CFG_SAMPLING) (s.is b F.OUT_CFG_D12)) with
  | some c => if s.is b F.OUT_CFG_BOND then 32 else if c ≤ 2 ∨ s.is b F.OUT_CFG_LEVEL_B then 16 else 32
  | none => 16

/-- Groups the embedder carries in the frame in progress (R298, R299). -/
def State.embGroups (s : State) (g : Nat) : List Nat :=
  (List.range 8).filter fun k => bitN (s.tx g).groups k && 4 * k < s.embCapacity g

/-- The embedder's channels that no route has ever fed carry digital zero (R294, R298). -/
def State.embZero (s : State) (g : Nat) : State :=
  let st := s.get (outB g) F.OUT_STAT_STATE
  if st = 1 ∨ st = 2 then
    (s.embGroups g).foldl (fun u k => (List.range 4).foldl (fun v j =>
      let d := 32 * g + 4 * k + j
      if (v.aud.dests.any fun p => p.1 == d) then v else v.audReady d (0, none)) u) s
  else s

/-- AUDIO_SAMPLE (R294): one system sample. -/
def execAudioSample (t : AudTick) (s : State) : Host.Outcome State Fault Refusal :=
  let s := t.tableUe.foldl (fun u n => u.ctxLost (n % 16384)) s
  let s := t.poisoned.foldl (fun u n => u.audEvent (n % 16384) 9) s
  let s := (s.audIntake t.slips).audGaps t.poisoned
  let s := s.audDests.foldl (fun u d => u.destTick d) s
  let s := s.sdiTx.foldl (fun u p => u.embZero p.1) s
  .next ((s.modAud fun a => { a with count := a.count + 1 }).rqRefresh)

/-- A destination's frame ends: DEST_STAT.CLIP is that of the last frame (R294). -/
def State.clipRoll (s : State) (d : Nat) : State :=
  let x := s.dest d
  let s := (s.put (destStatA d) F.DEST_STAT_CLIP (b2n x.clip)).setDest d { x with clip := false }
  s.live arB 0 (s.audDests.any fun e => s.is (destStatA e) F.DEST_STAT_CLIP)

/-! De-embedding (R296, R297). -/

/-- De-embedder of an input. -/
def State.deemb (s : State) (g : Nat) : Deemb := tget Deemb.idle s.aud.deemb g
def State.setDeemb (s : State) (g : Nat) (d : Deemb) : State :=
  s.modAud fun a => { a with deemb := tset Deemb.idle a.deemb g d }

/-- Audio groups that an input's rate class carries (R296). -/
def State.inGroups (s : State) (q : Nat) : Nat :=
  if s.inBonded q then 8 else if s.get (inB q) F.IN_STAT_RATE ≤ 2 ∨ s.is (inB q) F.IN_STAT_LEVEL_B then 4 else 8

/-- Group of an audio packet. -/
def audGroup : AudPkt → Nat
  | .control k _ => k.val
  | .data k _ _ _ => k.val

/-- Samples of a channel source wait for their system samples. -/
def State.audQueue (s : State) (c : Nat) (l : List (AudSmp × Bool)) : State :=
  s.modAud fun a => { a with queue := tset [] a.queue c (tget [] a.queue c ++ l) }

/-- Rates of eight groups. -/
def ratesFull (l : List AudRate) : List AudRate := l ++ List.replicate (8 - l.length) AudRate.sync48

/-- The four channels of a group's packet go to their source codes (R292, R297): at 96 kHz channels 1 and 3 go as pairs, the samples of
odd instants to the next code, and channels 2 and 4 carry nothing. -/
def State.audChannels (s : State) (base : Nat) (r96 odd : Bool) (l : List (AudSmp × Bool)) : State :=
  (List.range 4).foldl (fun u j =>
    match l[j]? with
    | some v => if !r96 then u.audQueue (base + j) [v] else if j % 2 = 0 then u.audQueue (base + j + b2n odd) [v] else u
    | none => u) s

/-- AUDIO_PACKET_RECEIVED (R296, R297): of a bonded input only link 1 carries audio (R99). A sample of 20 bits is left-justified
(R293). -/
def execAudioPacketReceived (g : Fin 96) (p : AudPkt) (s : State) : Host.Outcome State Fault Refusal :=
  let q := if s.inBonded g.val then g.val - g.val % 4 else g.val
  let b := audB q
  let parsed := s.rxUp g.val && (s.rx q).delivering && (!s.inBonded g.val || (s.bondOrder q).1.headD q == g.val)
  .next (if !parsed || s.inGroups q ≤ audGroup p then s
    else match p with
      | .control k r =>
        let d := s.deemb q
        let s := s.setDeemb q { d with
          found := d.found ||| 2 ^ k.val, ctrl := d.ctrl ||| 2 ^ k.val, rates := (ratesFull d.rates).set k.val r }
        if bitN (s.get b F.DEEMB_CFG_GROUPS) k.val && r == AudRate.unsupported then s.raise b 3 else s
      | .data k ecc short l =>
        let d := s.deemb q
        let r96 := d.rates.getD k.val .sync48 == AudRate.rate96
        let odd := r96 && bitN d.odd k.val
        let s := s.setDeemb q { d with found := d.found ||| 2 ^ k.val, odd := setBit d.odd k.val (r96 && !odd) }
        if !bitN (s.get b F.DEEMB_CFG_GROUPS) k.val then s
        else
          let s := if ecc.val = 1 then s.bump b F.DEEMB_ERR_CORR
            else if ecc.val = 2 then (s.bump b F.DEEMB_ERR_UNCORR).raise b 2 else s
          let bad := ecc.val == 2 || d.rates.getD k.val .sync48 == AudRate.unsupported
          let scale : Int := if short && s.get (inB q) F.IN_STAT_RATE == 1 then 16 else 1
          s.audChannels (32 * q + 4 * k.val) r96 odd (l.map fun v => (⟨sat24 (v.value * scale), v.label⟩, bad)))

/-- DEEMB_RATE_MEASURE (R297): ASYNC_TENTHS_PPM of 0 acts as 1. -/
def execDeembRateMeasure (g : Fin 96) (ppb : Int) (s : State) : Host.Outcome State Fault Refusal :=
  let b := audB g.val
  let lim := 100 * max 1 (s.get arB F.AR_CFG_ASYNC_TENTHS_PPM)
  let async := decide (lim < ppb.natAbs)
  .next (if s.rxUp g.val then
      let was := s.is b F.DEEMB_STAT_ASYNC
      (((s.put b F.DEEMB_RATE_PPB (unsgn 32 ppb)).put b F.DEEMB_STAT_ASYNC (b2n async)).raiseIf (async && !was) b 1).live b 1 async
    else s)

/-! Checks of a commit group (R299, R301). `s` is the planned state, `st` the group's staging set. -/

/-- Indices of a table of words that a staging set names. -/
def stagedOf (st : List (Nat × Word)) (base step n : Nat) : List Nat :=
  dedupN (st.filterMap fun p => if base ≤ p.1 ∧ p.1 < base + step * n then some ((p.1 - base) / step) else none)

/-- Contexts, destinations and converter groups that a staging set names. -/
def audStagedCtx (st : List (Nat × Word)) : List Nat :=
  dedupN (stagedOf st (rsA 0) 4 16384 ++ stagedOf st (rgA 0) 4 16384 ++ stagedOf st (rtA 0) 4 16384)
def audStagedDest (st : List (Nat × Word)) : List Nat := stagedOf st (destA 0) 4 4096
def audStagedAsrc (st : List (Nat × Word)) : List Nat := stagedOf st (arB + 0x200) 8 96

/-- A destination lies on an absent die (R301). -/
def State.destAbsent (s : State) (d : Nat) : Bool := d < 0xC00 && !s.present (d / 32 / 16 + 1)

/-- Timing domain of a destination (R301). -/
def State.audDomain (s : State) (d : Nat) : Option Nat :=
  if d < 0xC00 then some (s.get (outB (d / 32)) F.OUT_CFG_DOMAIN)
  else (s.ipAudio true (d - 0xC00)).map fun c => s.effGet (txA c) F.TX_CFG_DOMAIN

/-- A DATA destination breaks R300: it must have exactly one route, with gain code 0, no inversion and no ASRC group on its source. -/
def State.dataBad (s : State) (d : Nat) : Bool :=
  let rs := s.routesOf d
  s.effIs (destA d) F.DEST_CFG_DATA && !(rs.length == 1 && rs.all fun n =>
    s.effGet (rgA n) F.ROUTE_GAIN_GAIN == 0 && !s.effIs (rgA n) F.ROUTE_GAIN_INVERT
      && (match s.resolve n with | some c => (s.asrcOf c).isNone | none => true))

/-- A PAIR96 route names an odd source (R301); an AFV route names none before its take. -/
def State.pairBad (s : State) (n : Nat) : Bool :=
  let c := s.effGet (rsA n) F.ROUTE_SRC_SRC
  s.pair96 (s.audDst n) && c % 2 == 1 && c != 0x1FFF && !s.effIs (rtA n) F.ROUTE_TIME_AFV

/-- Destinations whose routes or route sources a group changes: of contexts before and after, of DEST_CFG, and of routes from a
channel of a converter group. -/
def State.audTouched (s : State) (st : List (Nat × Word)) : List Nat :=
  let named := audStagedCtx st
  let asrcs := audStagedAsrc st
  dedupN (audStagedDest st ++ (named.filter fun n => s.effIs (rsA n) F.ROUTE_SRC_EN).map s.audDst
    ++ named.filterMap (fun n => (s.actx n).key[1]?)
    ++ (if asrcs.isEmpty then [] else (s.audEnabled.filter fun n =>
      match (s.resolve n).bind s.asrcOf with | some k => asrcs.contains k | none => false).map s.audDst))

/-- The router refuses a group with a code (R301). An IP receive channel whose stream is not receiving is not refused, since R301
names SDI inputs alone (DESIGN CHOICE, log 56). -/
def State.routerBad (s : State) (st : List (Nat × Word)) (code domain : Nat) : Bool :=
  let ctxs := (audStagedCtx st).filter fun n => s.effIs (rsA n) F.ROUTE_SRC_EN
  let dests := dedupN (audStagedDest st ++ ctxs.map s.audDst)
  if code = rcAbsent then
    (ctxs.any fun n =>
      let c := s.effGet (rsA n) F.ROUTE_SRC_SRC
      !s.effIs (rtA n) F.ROUTE_TIME_AFV && c != 0x1FFF && (!audIsSource c || (c < 0xC00 && !s.inPresent (c / 32))))
    || (dests.any fun d => s.destAbsent d ||
      match s.followed d with | some (0, i) => decide (i < 384) && !s.present (i / 64 + 1) | _ => false)
  else if code = rcFormat then
    let touched := s.audTouched st
    (ctxs.any fun n => let d := s.audDst n; d < 0xC00 && decide (s.embCapacity (d / 32) ≤ d % 32))
    || touched.any s.dataBad
    || (touched.any fun d => (s.routesOf d).any s.pairBad)
    || (touched.any fun d =>
      let b := d - d % 2
      let quad := (List.range 4).map fun j => d - d % 4 + j
      (s.pair96 b && !(s.routesOf (b + 1)).isEmpty)
        || (d % 2 == 1 && s.effIs (destA d) F.DEST_CFG_PAIR96)
        || (d < 0xC00 && (quad.any fun e => s.pair96 e && !(s.routesOf e).isEmpty)
            && (quad.any fun e => !s.pair96 (e - e % 2) && !(s.routesOf e).isEmpty)))
    || ((audStagedAsrc st).any fun k =>
      let b := s.effGet (asrcB k) F.ASRC_CFG_BASE
      let n := s.asrcCount k
      n != 0 && (decide (0x1000 < b + n) || (List.range 96).any fun j =>
        let c := s.effGet (asrcB j) F.ASRC_CFG_BASE
        let m := s.asrcCount j
        j != k && m != 0 && decide (b < c + m) && decide (c < b + n)))
  else if code = rcDomain then
    dests.any fun d =>
      (match s.audDomain d with | some x => x != domain | none => false)
        || (match s.followed d with | some p => s.dstDomain p.1 p.2 != domain | none => false)
  else if code = rcTableFull then
    (dests.any fun d =>
      let rs := s.routesOf d
      let slots := rs.map fun n => s.effGet (rgA n) F.ROUTE_GAIN_SLOT
      8 < rs.length || (dedupN slots).length != slots.length)
    || 16384 < s.audEnabled.length || 2048 < s.longTaps
  else false

end Sys2Proof.Machine
end

