-- ==== Sys2Proof/Machine/Flash.lean ====
section
/-! DEFINITION. The embedded flash (chapter 14): the array, records and gathered commits, wear-spread counters, raw page access,
the Gleaner, power-up and brown-out. -/

namespace Sys2Proof.Machine

/-! The array (R441, R446). -/

/-- Update the controller's own state. -/
def State.modNv (s : State) (f : Nv → Nv) : State := { s with nv := f s.nv }
/-- A byte of the array, 0xFF where nothing is programmed. -/
def State.fByte (s : State) (a : Nat) : Byte := tget 0xFF s.nv.flash a
/-- Bytes of the array. -/
def State.fBytes (s : State) (a n : Nat) : List Byte := (List.range n).map fun i => s.fByte (a + i)
/-- A little-endian word of the array. -/
def State.fWord (s : State) (a : Nat) : Nat := ofLe (s.fBytes a 4)

/-- Contents with bytes programmed: bits go from 1 to 0 only. -/
def flashProg (m : List Host.Cell) (a : Nat) : List Byte → List Host.Cell
  | [] => m
  | b :: t => flashProg (tset 0xFF m a (tget 0xFF m a &&& b)) (a + 1) t

/-- Program bytes. -/
def State.prog (s : State) (a : Nat) (l : List Byte) : State := s.modNv fun x => { x with flash := flashProg x.flash a l }
/-- Program a word. -/
def State.progWord (s : State) (a v : Nat) : State := s.prog a (leBytes 4 v)
/-- Erase a sector to 0xFF. -/
def State.eraseRaw (s : State) (sec : Nat) : State :=
  s.modNv fun x => { x with flash := x.flash.filter fun p => p.1 / 65536 != sec }

/-- Start of a sector. -/
abbrev secA (sec : Nat) : Nat := sec * 65536
/-- The magic value of a record-area sector header. -/
def secMagic : List Byte := [0x50, 0x56, 0x52, 0x31]
/-- ERASES, STATE and OPEN_SEQ of a record-area sector; a sector without its magic value reads as blank. -/
def State.secOk (s : State) (sec : Nat) : Bool := s.fBytes (secA sec) 4 == secMagic
def State.secErases (s : State) (sec : Nat) : Nat := if s.secOk sec then s.fWord (secA sec + 4) else 0
def State.secState (s : State) (sec : Nat) : Nat := if s.secOk sec then s.fWord (secA sec + 8) else 0xFFFFFFFF
def State.secSeq (s : State) (sec : Nat) : Nat := s.fWord (secA sec + 12)
abbrev ssErased : Nat := 0xFFFFFF00
abbrev ssOpen : Nat := 0xFFFF0000
abbrev ssFull : Nat := 0xFF000000
abbrev ssSource : Nat := 0xF0000000

/-- Program a sector's STATE. -/
def State.setSecState (s : State) (sec v : Nat) : State := s.progWord (secA sec + 8) v

/-- Erase a record-area sector and write its ERASES (R446, R452). -/
def State.eraseRec (s : State) (sec : Nat) : State :=
  let n := s.secErases sec + 1
  let s := (s.eraseRaw sec).prog (secA sec) (secMagic ++ leBytes 4 n ++ leBytes 4 ssErased)
  s.put nvB F.SECT_WEAR_MAX_ERASES (max n (s.get nvB F.SECT_WEAR_MAX_ERASES))

/-- Erased record-area sectors. -/
def State.erasedSecs (s : State) : List Nat := (List.range 16).filter fun k => s.secState k == ssErased

/-! Records (R444, R445, R448). -/

/-- One bit of the CRC-32. -/
def crc32Step (c : Nat) : Nat := if c % 2 = 1 then (c / 2) ^^^ 0xEDB88320 else c / 2
/-- CRC-32 of R445. -/
def crc32 (l : List Byte) : Nat :=
  (l.foldl (fun c b => (List.range 8).foldl (fun x _ => crc32Step x) (c ^^^ b.toNat)) 0xFFFFFFFF) ^^^ 0xFFFFFFFF

/-- Bytes that a record with `n` data bytes occupies. -/
def recSize (n : Nat) : Nat := 16 + ceilDiv n 4 * 4

/-- The bytes of a live record. -/
def GRec.bytes (r : GRec) : List Byte :=
  let n := r.data.length
  let body := [BitVec.ofNat 8 n] ++ leBytes 2 r.key ++ leBytes 4 r.seq ++ [BitVec.ofNat 8 r.flags, 0xFF, 0xFF, 0xFF]
    ++ r.data ++ List.replicate (ceilDiv n 4 * 4 - n) 0xFF
  [0xF0] ++ body ++ leBytes 4 (crc32 body)

/-- FLAGS of a record: CRIT, COPY, TOMB. -/
def recFlags (crit copy tomb : Bool) : Nat := 0xF8 + b2n crit + 2 * b2n copy + 4 * b2n tomb
def GRec.crit (r : GRec) : Bool := bitN r.flags 0
def GRec.copy (r : GRec) : Bool := bitN r.flags 1
def GRec.tomb (r : GRec) : Bool := bitN r.flags 2

/-- A record as it stands in flash: address, STATE, and whether its CRC is valid. -/
structure FRec where
  addr : Nat
  st : Nat
  ok : Bool
  body : GRec
deriving DecidableEq, Repr

/-- The records of a page from an offset. -/
def State.pageRecs (s : State) (page : Nat) : Nat → Nat → List FRec
  | 0, _ => []
  | fuel + 1, o =>
    let a := page * 256 + o
    let n := (s.fByte (a + 1)).toNat
    let z := recSize n
    if 256 < o + z ∨ s.fByte a = 0xFF then []
    else
      let body := s.fBytes (a + 1) (z - 5)
      ⟨a, (s.fByte a).toNat, s.fWord (a + z - 4) == crc32 body,
        ⟨ofLe (slice body 1 2), ofLe (slice body 3 4), (body.getD 7 0).toNat, slice body 11 n⟩⟩ :: State.pageRecs s page fuel (o + z)

/-- The records of a sector in the order of their offsets (R448). -/
def State.sectorRecs (s : State) (sec : Nat) : List FRec :=
  ((List.range 256).takeWhile fun k => k == 0 || s.fByte (secA sec + 256 * k) != 0xFF).flatMap fun k =>
    s.pageRecs (256 * sec + k) 16 (if k = 0 then 16 else 0)

/-- Insertion in ascending order of a key. -/
def insBy (f : Nat → Nat) (x : Nat) : List Nat → List Nat
  | [] => [x]
  | y :: t => if f x ≤ f y then x :: y :: t else y :: insBy f x t

/-- Record-area sectors that hold records, in the order of OPEN_SEQ. -/
def State.recSectors (s : State) : List Nat :=
  ((List.range 16).filter fun k =>
    let t := s.secState k
    t == ssOpen || t == ssFull || t == ssSource).foldl (fun l k => insBy s.secSeq k l) []

/-- Every record in append order (R446). -/
def State.allRecs (s : State) : List FRec := s.recSectors.flatMap s.sectorRecs
/-- Key of the commit marker. -/
abbrev markerKey : Nat := 0xFFFF
/-- Records that are not retired, commit markers apart. -/
def State.liveRecs (s : State) : List FRec := s.allRecs.filter fun r => r.st == 0xF0 && r.body.key != markerKey

/-- Newest version of a list of records. -/
def newestSeq (l : List FRec) : Nat := l.foldl (fun m r => max m r.body.seq) 0

/-- Retire a record: STATE goes to 0x00. -/
def State.retire (s : State) (r : FRec) : State := s.prog r.addr [0]

/-- Bytes and keys of the live records (R452). -/
def State.liveBytes (s : State) : Nat := sumR (s.liveRecs.map fun r => recSize r.body.data.length)
where
  /-- Sum of a list. -/
  sumR (l : List Nat) : Nat := l.foldl (· + ·) 0
def State.liveKeys (s : State) : List Nat :=
  let l := s.liveRecs
  (dedupN (l.map fun r => r.body.key)).filter fun k =>
    let v := l.filter fun r => r.body.key == k && r.ok
    !(v.filter fun r => r.body.seq == newestSeq v).any fun r => r.body.tomb

/-- Place records from an address: none crosses a page, and a second copy begins after the page of the first (R448). `first` is
the address, key and version of the record before. -/
def placeRecs (o : Nat) (first : Option (Nat × Nat × Nat)) : List GRec → List (Nat × GRec) × Nat
  | [] => ([], o)
  | r :: t =>
    let o := match first with
      | some (a, k, q) => if r.copy && k == r.key && q == r.seq then max o ((a / 256 + 1) * 256) else o
      | none => o
    let z := recSize r.data.length
    let a := if o % 256 + z ≤ 256 then o else (o / 256 + 1) * 256
    let rest := placeRecs (a + z) (some (a, r.key, r.seq)) t
    ((a, r) :: rest.1, rest.2)

/-- The commit marker (R450). -/
def State.marker (s : State) (l : List GRec) : GRec :=
  ⟨markerKey, s.get nvB F.REC_CMT_VALUE, 0xF8, leBytes 4 ((l.head?.map (·.seq)).getD 0) ++ leBytes 2 l.length ++ [0xFF, 0xFF]⟩

/-- End of a commit placed from an address, its marker included. -/
def State.commitEnd (s : State) (p : Nat) (l : List GRec) : Nat := (placeRecs p none (l ++ [s.marker l])).2

/-- Pages a commit spans when placed from an address. -/
def State.commitPages (s : State) (p : Nat) (l : List GRec) : Nat := (s.commitEnd p l - 1) / 256 - p / 256 + 1

/-- Where the next record would stand. -/
def State.recPtr (s : State) : Nat := s.nv.ptr.getD 16

/-- NV_STAT, REC_SPACE and GATHER_USED follow the state; REC_SPACE_LOW is live above 640 KiB (R449, R452). -/
def State.nvRefresh (s : State) : State :=
  let live := s.liveBytes
  let low := 655360 < live
  let used := match s.nv.gather with | some (_, l) => (placeRecs s.recPtr none l).2 - s.recPtr | none => 0
  let s := s.puts nvB [(F.REC_SPACE_ERASED, s.erasedSecs.length), (F.REC_SPACE_LIVE_KIB, ceilDiv live 1024),
    (F.REC_SPACE_KEYS, min 2048 s.liveKeys.length), (F.GATHER_USED_BYTES, min 4096 used),
    (F.NV_STAT_GATHER_OPEN, b2n s.nv.gather.isSome),
    (F.NV_STAT_GATHER_OWNER, match s.nv.gather with | some (m, _) => m | none => 0),
    (F.NV_STAT_COMPACTING, b2n (s.erasedSecs.isEmpty && s.nv.eraseQ.isEmpty && !s.recSectors.isEmpty)),
    (F.RAW_RES_OWNED, b2n s.nv.owner.isSome), (F.RAW_RES_OWNER, s.nv.owner.getD 0),
    (F.RAW_DATA_BYTES, ofLe ((List.range 4).map fun i => s.nv.buf.getD ((s.get nvB F.RAW_PTR_PTR + i) % 256) 0xFF))]
  (s.raiseIf (low && !s.is nvB ⟨0x1C, 5, 1⟩) nvB 5).live nvB 5 low

/-! Commits and compaction (R450, R452). -/

/-- Open the erased sector with the lowest ERASES, erasing a queued one where none is erased; none where there is none. -/
def State.openSector (s : State) : Option State :=
  let q := match s.erasedSecs, s.nv.eraseQ.find? (· < 16) with
    | [], some k => (s.eraseRec k).modNv fun x => { x with eraseQ := x.eraseQ.filter (· != k) }
    | _, _ => s
  match q.erasedSecs with
  | [] => none
  | k :: t =>
    let best := t.foldl (fun b j => if q.secErases j < q.secErases b then j else b) k
    let seq := match q.recSectors with | [] => 0 | l => (l.foldl (fun m j => max m (q.secSeq j)) 0) + 1
    some (((q.progWord (secA best + 12) seq).setSecState best ssOpen).modNv fun x => { x with ptr := some (secA best + 16) })

/-- The open sector is closed. -/
def State.closeSector (s : State) : State :=
  match s.nv.ptr with
  | some p => (s.setSecState (p / 65536) ssFull).modNv fun x => { x with ptr := none }
  | none => s

/-- The open stream has room for a commit: the open sector, or one opened for it; none where no sector can be opened. -/
def State.roomFor (s : State) (l : List GRec) : Option State :=
  match s.nv.ptr with
  | some p => if s.commitEnd p l ≤ secA (p / 65536 + 1) then some s else s.closeSector.openSector
  | none => s.openSector

/-- Program a commit with its marker at the append pointer, and retire earlier versions of its keys (R450). -/
def State.writeCommit (s : State) (l : List GRec) : State :=
  let lay := placeRecs s.recPtr none (l ++ [s.marker l])
  let s := lay.1.foldl (fun u p => u.prog p.1 p.2.bytes) s
  let s := (s.modNv fun x => { x with ptr := some lay.2 }).put nvB F.REC_CMT_VALUE (s.get nvB F.REC_CMT_VALUE + 1)
  let s := if lay.2 % 65536 = 0 then
      (s.setSecState (lay.2 / 65536 - 1) ssFull).modNv fun x => { x with ptr := none } else s
  (s.liveRecs.filter fun r => l.any fun g => g.key == r.body.key && r.body.seq < g.seq).foldl (fun u r => u.retire r) s

/-- Commit records of the controller's own, in commits of at most 16 pages (R452, R461); `fuel` bounds their number. -/
def State.ownCommits : Nat → State → List GRec → List GRec → Option State
  | 0, s, _, _ => some s
  | _ + 1, s, l, [] => if l.isEmpty then some s else (s.roomFor l).map fun t => t.writeCommit l
  | fuel + 1, s, l, r :: t =>
    if l.isEmpty || s.commitPages s.recPtr (l ++ [r]) ≤ 16 then State.ownCommits fuel s (l ++ [r]) t
    else
      match s.roomFor l with
      | none => none
      | some u => State.ownCommits fuel (u.writeCommit l) [r] t

/-- Live bytes of a sector. -/
def State.secLive (s : State) (sec : Nat) : Nat :=
  ((s.sectorRecs sec).filter fun r => r.st == 0xF0 && r.body.key != markerKey).foldl
    (fun n r => n + recSize r.body.data.length) 0

/-- Compact a sector: its live records go to the open stream, and it is erased (R452). -/
def State.compactSec (s : State) (sec : Nat) : State :=
  let s := if s.nv.ptr.map (· / 65536) = some sec then s.closeSector else s
  let live := (s.sectorRecs sec).filter fun r => r.st == 0xF0 && r.body.key != markerKey
  let s := s.setSecState sec ssSource
  match State.ownCommits (2 * live.length + 2) s [] (live.map (·.body)) with
  | some t => ((t.setSecState sec 0).eraseRec sec)
  | none => s

/-- One compaction: of a source left by an interrupted one, otherwise of the full sector with the fewest live bytes. -/
def State.compact (s : State) : State :=
  match s.recSectors.find? fun k => s.secState k == ssSource with
  | some k => s.compactSec k
  | none =>
    match s.recSectors.filter fun k => s.secState k == ssFull with
    | [] => s
    | k :: t => s.compactSec (t.foldl (fun b j => if s.secLive j < s.secLive b then j else b) k)

/-- No record-area sector is erased or waits for erase (R452). -/
def State.mustCompact (s : State) : Bool := s.erasedSecs.isEmpty && s.nv.eraseQ.all (16 ≤ ·) && !s.recSectors.isEmpty

/-- A commit of a list of records, after the compaction that it may have to wait for (R450). -/
def State.commitRecs (s : State) (l : List GRec) : State :=
  let s := if s.mustCompact then s.compact else s
  match s.roomFor l with
  | some t => (t.writeCommit l).nvRefresh
  | none => s.nvRefresh

/-! Record commands (R447 to R451, R468). -/

abbrev fcOk : Nat := 0
abbrev fcInhibited : Nat := 0x48
abbrev fcNotFound : Nat := 0x50
abbrev fcDenied : Nat := 0x51
abbrev fcGatherBusy : Nat := 0x52
abbrev fcGatherFull : Nat := 0x53
abbrev fcStoreFull : Nat := 0x54
abbrev fcBadArg : Nat := 0x55
abbrev fcSaturated : Nat := 0x56
abbrev fcFlashFault : Nat := 0x57
abbrev fcNoGather : Nat := 0x58
abbrev fcAborted : Nat := 0x59

/-- A key marked reserved in R447. -/
def keyReserved (k : Nat) : Bool := (0x300 ≤ k && k ≤ 0xFFF) || (0x8000 ≤ k && k ≤ 0xFFFE)

/-- A master may write, or read, a key (R447). -/
def keyMay (m k : Nat) (write : Bool) : Bool :=
  if 1 ≤ k && k ≤ 0xFF then m == 1
  else if 0x100 ≤ k && k ≤ 0x1FF then m == 7
  else if 0x200 ≤ k && k ≤ 0x2FF then m == 1 || (m == 2 && !write)
  else if 0x1000 ≤ k && k ≤ 0x7FFF then m == 1 || m == 2
  else false

/-- Threshold crossed (R463). -/
def State.inhibited (s : State) : Bool := s.is nvB F.NV_STAT_INHIBIT

/-- Result of a record command. -/
def State.recRes (s : State) (code : Nat) : State :=
  (s.puts nvB [(F.REC_RES_CODE, code), (F.REC_RES_DONE, 1), (F.REC_RES_BUSY, 0)]).nvRefresh

/-- A record command of a master: its fields are stored, a notice that waits for the master is returned, and otherwise `f`
runs (R449). Record commands are accepted once READY = 1 (R462). -/
def State.recCommand (s : State) (m op : Nat) (v : Word) (f : State → State) : State :=
  let s := s.puts nvB [(F.REC_CMD_OP, op), (F.REC_CMD_CRIT, fldGet v 3 1), (F.REC_CMD_LEN, fldGet v 4 8)]
  if !s.is nvB F.NV_STAT_READY then s
  else
    let s := s.puts nvB [(F.REC_RES_DONE, 0), (F.REC_RES_LEN, 0)]
    match s.nv.notice.find? fun p => p.1 == m with
    | some p => (s.modNv fun x => { x with notice := x.notice.filter fun q => q.1 != m }).recRes p.2
    | none => f s

/-- Bytes of the REC_DATA window. -/
def State.recData (s : State) (n : Nat) : List Byte :=
  ((List.range (ceilDiv n 4)).flatMap fun i => leBytes 4 (s.rd (nvB + 0x100 + 4 * i)).toNat).take n

/-- One more version of a key in the gather buffer: a record in one or two copies (R448, R449, R452). -/
def State.gatherAdd (s : State) (m key : Nat) (crit tomb : Bool) (data : List Byte) : State :=
  let seq := s.get nvB F.REC_SEQ_VALUE
  let l := match s.nv.gather with | some (_, l) => l | none => []
  let new := [⟨key, seq, recFlags crit false tomb, data⟩] ++ (if crit then [⟨key, seq, recFlags crit true tomb, data⟩] else [])
  let add := new.length * recSize data.length
  let open' : Bool := match s.nv.gather with | some (o, _) => o != m | none => false
  let newKey := !tomb && !(s.liveKeys.contains key || l.any fun r => r.key == key)
  let keys := s.liveKeys.length + (dedupN ((l.filter fun r => !r.tomb && !s.liveKeys.contains r.key).map (·.key))).length
  let gathered := l.foldl (fun n r => n + recSize r.data.length) 0
  if open' then s.recRes fcGatherBusy
  else if seq = 0xFFFFFFFF || (!tomb && (786432 < s.liveBytes + gathered + add || (newKey && 2048 ≤ keys))) then
    s.recRes fcStoreFull
  else if 16 < s.commitPages s.recPtr (l ++ new) then s.recRes fcGatherFull
  else ((s.modNv fun x => { x with gather := some (m, l ++ new) }).put nvB F.REC_SEQ_VALUE (seq + 1)).recRes fcOk

/-- REC_APPEND (R448, R449). -/
def execRecAppend (m : Fin 8) (v : Word) (s : State) : Host.Outcome State Fault Refusal :=
  let key := s.get nvB F.REC_KEY_KEY
  let n := fldGet v 4 8
  .next (s.recCommand m.val 1 v fun s =>
    if 240 < n || keyReserved key then s.recRes fcBadArg
    else if !keyMay m.val key true then s.recRes fcDenied
    else s.gatherAdd m.val key (bitN v.toNat 3) false (s.recData n))

/-- REC_DELETE (R449). -/
def execRecDelete (m : Fin 8) (v : Word) (s : State) : Host.Outcome State Fault Refusal :=
  let key := s.get nvB F.REC_KEY_KEY
  .next (s.recCommand m.val 2 v fun s =>
    if keyReserved key then s.recRes fcBadArg
    else if !keyMay m.val key true then s.recRes fcDenied
    else s.gatherAdd m.val key (bitN v.toNat 3) true [])

/-- What COMMIT and ABORT find: the records of the master's own buffer, or the code to return. -/
def State.gatherOwn (s : State) (m : Nat) : Except Nat (List GRec) :=
  match s.nv.gather with
  | none => .error fcNoGather
  | some (o, l) => if o = m then .ok l else .error fcGatherBusy

/-- REC_COMMIT (R450, R463). -/
def execRecCommit (m : Fin 8) (v : Word) (s : State) : Host.Outcome State Fault Refusal :=
  .next (s.recCommand m.val 3 v fun s =>
    match s.gatherOwn m.val with
    | .error c => s.recRes c
    | .ok l =>
      if s.inhibited then s.recRes fcInhibited
      else ((s.commitRecs l).modNv fun x => { x with gather := none }).recRes fcOk)

/-- REC_ABORT (R449). -/
def execRecAbort (m : Fin 8) (v : Word) (s : State) : Host.Outcome State Fault Refusal :=
  .next (s.recCommand m.val 4 v fun s =>
    match s.gatherOwn m.val with
    | .error c => s.recRes c
    | .ok _ => (s.modNv fun x => { x with gather := none }).recRes fcOk)

/-- GATHER_TIMEOUT (R449). -/
def execGatherTimeout (s : State) : Host.Outcome State Fault Refusal :=
  .next (match s.nv.gather with
    | none => s
    | some (m, _) => (s.modNv fun x => { x with gather := none, notice := x.notice ++ [(m, fcAborted)] }).nvRefresh)

/-- Resolution of a key (R451): the state after what it raises, retires and repairs, and the record. -/
def State.resolveKey (s : State) (key : Nat) : State × Option GRec :=
  let all := s.liveRecs.filter fun r => r.body.key == key
  let good := all.filter (·.ok)
  let s := s.raiseIf (all.any fun r => !r.ok) nvB 1
  let v := good.filter fun r => r.body.seq == newestSeq good
  match v.getLast? with
  | none => (s, none)
  | some last =>
    let same (r : FRec) : Bool := r.body.tomb == last.body.tomb && r.body.data == last.body.data
    let s := if v.all same then s else (v.filter fun r => !same r).foldl (fun u r => u.retire r) (s.raise nvB 0)
    -- a CRIT record with one copy left has two made of it
    let lone := v.length == 1 && last.body.crit && all.any fun r => !r.ok && r.body.seq == last.body.seq
    let two := [{ last.body with flags := recFlags true false last.body.tomb }, { last.body with flags := recFlags true true last.body.tomb }]
    let s := if lone && !s.inhibited then (s.commitRecs two).retire last else s
    (s, if last.body.tomb then none else some last.body)

/-- REC_READ (R451). -/
def execRecRead (m : Fin 8) (v : Word) (s : State) : Host.Outcome State Fault Refusal :=
  let key := s.get nvB F.REC_KEY_KEY
  .next (s.recCommand m.val 5 v fun s =>
    if keyReserved key then s.recRes fcBadArg
    else if !keyMay m.val key false then s.recRes fcDenied
    else
      let q := s.resolveKey key
      match q.2 with
      | none => q.1.recRes fcNotFound
      | some r =>
        let d := r.data ++ List.replicate (240 - r.data.length) 0
        let s := q.1.forAll (List.range 60) fun i t => t.wr (nvB + 0x100 + 4 * i) (BitVec.ofNat 32 (ofLe (slice d (4 * i) 4)))
        (s.puts nvB [(F.REC_RES_LEN, r.data.length), (F.REC_RSEQ_VALUE, r.seq)]).recRes fcOk)

/-- COMPACTION (R452): one sector, where none is erased. -/
def execCompaction (s : State) : Host.Outcome State Fault Refusal :=
  .next (if s.is nvB F.NV_STAT_READY && !s.inhibited && s.mustCompact then s.compact.nvRefresh else s)

/-! Wear-spread counters (R455 to R460). -/

/-- Strip of a counter in a sector. -/
abbrev stripA (sec i : Nat) : Nat := secA sec + 4096 * i
/-- Programmed cells of a strip. -/
def State.cells (s : State) (sec i : Nat) : Nat :=
  ((List.range 1008).filter fun k => s.fWord (stripA sec i + 64 + 4 * k) == 0).length
/-- BASE and ~BASE of a strip agree. -/
def State.baseOk (s : State) (sec i : Nat) : Bool := s.fWord (stripA sec i) + s.fWord (stripA sec i + 4) == 0xFFFFFFFF
/-- Value of a counter in a sector (R456, R459). -/
def State.cntIn (s : State) (sec i : Nat) : Nat :=
  if s.baseOk sec i then min 0xFFFFFFFF (s.fWord (stripA sec i) + s.cells sec i) else 0xFFFFFFFF
/-- Value of a counter; 0 before the counters are settled. -/
def State.cntVal (s : State) (i : Nat) : Nat := match s.nv.active with | some k => s.cntIn k i | none => 0

/-- CNT_VAL, CNT_SAT and the saturation's live bits follow the flash (R460). -/
def State.cntRefresh (s : State) : State :=
  let sat := (List.range 16).foldl (fun m i => m + 2 ^ i * b2n (s.cntVal i == 0xFFFFFFFF)) 0
  let s := s.forAll (List.range 16) fun i t => t.wr (nvB + 0x90 + 4 * i) (BitVec.ofNat 32 (s.cntVal i))
  let s := (s.put nvB F.CNT_SAT_BITS sat).live nvB 2 (sat != 0)
  (s.put ksB F.KS_COUNTER_VALUE (s.cntVal 0)).live ksB 5 (bitN sat 0)

/-- The other counter sector. -/
def otherSec (k : Nat) : Nat := if k = 62 then 63 else 62

/-- A counter sector made active with given bases and fold sequence (R458, steps 2 to 4). -/
def State.makeActive (s : State) (k fold : Nat) (base : Nat → Nat) : State :=
  let s := (s.progWord (stripA k 0 + 12) 0xFFFF0000).progWord (stripA k 0 + 8) fold
  let s := s.forAll (List.range 16) fun i t => (t.progWord (stripA k i) (base i)).progWord (stripA k i + 4) (0xFFFFFFFF - base i)
  (s.progWord (stripA k 0 + 12) 0xFF000000).modNv fun x => { x with active := some k }

/-- A fold of all counters into the other sector; the old one is erased in the background (R458). -/
def State.fold (s : State) : State :=
  match s.nv.active with
  | none => s
  | some k =>
    let j := otherSec k
    let vals := (List.range 16).map s.cntVal
    let s := (s.eraseRaw j).modNv fun x => { x with eraseQ := x.eraseQ.filter (· != j) }
    let s := s.makeActive j ((s.fWord (stripA k 0 + 8) + 1) % 2 ^ 32) fun i => vals.getD i 0
    (s.progWord (stripA k 0 + 12) 0).modNv fun x => { x with eraseQ := x.eraseQ ++ [k] }

/-- One more on a counter that is not saturated (R457, R458). -/
def State.cntStep (s : State) (i : Nat) : State :=
  match s.nv.active with
  | none => s
  | some k =>
    let full (t : State) (sec : Nat) : Option Nat := (List.range 1008).find? fun c => t.fWord (stripA sec i + 64 + 4 * c) != 0
    let s := if (full s k).isNone then s.fold else s
    let k := s.nv.active.getD k
    match full s k with
    | some c => (s.progWord (stripA k i + 64 + 4 * c) 0).cntRefresh
    | none => s

/-- Masters that may increment a counter (R455). -/
def cntMay (m i : Nat) : Bool := if i = 0 then m == 4 || m == 7 else if i = 1 then m == 1 else m == 1 || m == 2

/-- CNT_INC (R457, R460): accepted once the counters are settled. -/
def execCntInc (m : Fin 8) (i : Fin 16) (s : State) : Host.Outcome State Fault Refusal :=
  let s := s.put nvB F.CNT_CMD_INDEX i.val
  let res (s : State) (c : Nat) : State := s.puts nvB [(F.CNT_RES_CODE, c), (F.CNT_RES_DONE, 1)]
  .next (if s.nv.active.isNone then s
    else if !cntMay m.val i.val then res s fcDenied
    else if s.inhibited then res s fcInhibited
    else if s.cntVal i.val = 0xFFFFFFFF then
      (res (s.raise nvB 2) fcSaturated).raiseIf (i.val == 0) ksB 5
    else res (s.cntStep i.val) fcOk)

/-! Raw page access (R453, R454). -/

/-- Result of a raw command. -/
def State.rawRes (s : State) (code : Nat) : State :=
  (s.puts nvB [(F.RAW_RES_CODE, code), (F.RAW_RES_DONE, 1), (F.RAW_RES_BUSY, 0)]).nvRefresh

/-- Sectors a master may use. -/
def rawMay (m sec : Nat) : Bool := if m = 1 then 16 ≤ sec && sec ≤ 61 else (m == 2 || m == 4) && 24 ≤ sec && sec ≤ 61

/-- A raw command: its fields are stored, and it is refused for a sector, or a buffer, that the master may not use. -/
def State.rawCommand (s : State) (m op : Nat) (v : Word) (owned : Bool) (f : State → Nat → State) : State :=
  let page := fldGet v 0 14
  let s := s.puts nvB [(F.RAW_CTRL_PAGE, page), (F.RAW_CTRL_OP, op), (F.RAW_RES_DONE, 0)]
  match s.nv.notice.find? fun p => p.1 == m + 8 with
  | some p => (s.modNv fun x => { x with notice := x.notice.filter fun q => q.1 != m + 8 }).rawRes p.2
  | none =>
    if (op != 3 && !rawMay m (page / 256)) || (owned && (match s.nv.owner with | some o => o != m | none => false)) then
      (s.raise nvB 6).rawRes fcDenied
    else f s page

/-- The empty page buffer. -/
def emptyBuf : List Byte := List.replicate 256 0xFF

/-- RAW_PROGRAM (R453, R463). -/
def execRawProgram (m : Fin 8) (v : Word) (s : State) : Host.Outcome State Fault Refusal :=
  .next (s.rawCommand m.val 1 v true fun s page =>
    if s.inhibited then s.rawRes fcInhibited
    else ((s.prog (256 * page) s.nv.buf).modNv fun x => { x with buf := emptyBuf, owner := none }).rawRes fcOk)

/-- RAW_ERASE_SECTOR (R453, R463). -/
def execRawEraseSector (m : Fin 8) (v : Word) (s : State) : Host.Outcome State Fault Refusal :=
  .next (s.rawCommand m.val 2 v false fun s page =>
    if s.inhibited then s.rawRes fcInhibited else (s.eraseRaw (page / 256)).rawRes fcOk)

/-- RAW_CLEAR_BUF (R453). -/
def execRawClearBuf (m : Fin 8) (v : Word) (s : State) : Host.Outcome State Fault Refusal :=
  .next (s.rawCommand m.val 3 v true fun s _ => (s.modNv fun x => { x with buf := emptyBuf, owner := none }).rawRes fcOk)

/-- RAW_LOAD (R453). -/
def execRawLoad (m : Fin 8) (v : Word) (s : State) : Host.Outcome State Fault Refusal :=
  .next (s.rawCommand m.val 4 v true fun s page =>
    (s.modNv fun x => { x with buf := s.fBytes (256 * page) 256, owner := some m.val }).rawRes fcOk)

/-- Bytes written into the page buffer from an offset, which wraps (R454). -/
def bufWrite (b : List Byte) (off : Nat) : List Byte → List Byte
  | [] => b
  | x :: t => bufWrite (b.set (off % 256) x) (off + 1) t

/-- RAW_BUFFER_WRITE (R453, R454). -/
def execRawBufferWrite (m : Fin 8) (w : BufWrite) (s : State) : Host.Outcome State Fault Refusal :=
  let p := s.get nvB F.RAW_PTR_PTR
  let d : Nat × List Byte := match w with
    | .data v => (p, leBytes 4 v.toNat)
    | .window o l => (o.val, l)
  let s := match w with | .data _ => s.put nvB F.RAW_PTR_PTR ((p + 4) % 256) | .window _ _ => s
  .next (if s.nv.owner.isSome && s.nv.owner != some m.val then (s.raise nvB 6).nvRefresh
    else (s.modNv fun x => { x with buf := bufWrite x.buf d.1 d.2, owner := some m.val }).nvRefresh)

/-! The Gleaner, power-up and brown-out (R459, R461 to R465). -/

/-- A weak item is handled (R461); the flag says that the item is a record. -/
def State.weakItem (s : State) : Weak → State
  | .record a =>
    match s.liveRecs.find? fun r => r.addr == a.val with
    | some r => ((s.commitRecs [r.body]).retire r).bump nvB F.GLEAN_STAT_REWRITTEN
    | none => s
  | .cell i c =>
    match s.nv.active with
    | some k => (s.progWord (stripA k i.val + 64 + 4 * c.val) 0).cntRefresh
    | none => s
  | .strip _ => s.fold.cntRefresh
  | .sector k => if s.recSectors.contains k.val then s.compactSec k.val else s
  | .page p =>
    if 16 ≤ p.val / 256 ∧ p.val / 256 < 62 then
      (s.bump nvB F.GLEAN_STAT_RAW_WEAK).puts nvB [(F.FLASH_LAST_PAGE, p.val), (F.FLASH_LAST_KIND, 2)]
    else s

/-- The items of a pass: those that need a write wait while NV_INHIBIT holds. -/
def State.glean (s : State) (weak : List Weak) : State :=
  let s := s.raiseIf (!weak.isEmpty) nvB 4
  let writes (w : Weak) : Bool := match w with | .page _ => false | _ => true
  let now := if s.inhibited then weak.filter fun w => !writes w else weak
  let wait := if s.inhibited then weak.filter writes else []
  ((now.foldl (fun u w => u.weakItem w) s).modNv fun x => { x with weakQ := x.weakQ ++ wait }).nvRefresh

/-- GLEANER_PASS (R461). -/
def execGleanerPass (weak : List Weak) (s : State) : Host.Outcome State Fault Refusal :=
  .next (if s.is nvB F.NV_CFG_GLEANER_EN && s.is nvB F.NV_STAT_READY then
      (s.puts nvB [(F.GLEAN_STAT_REWRITTEN, 0), (F.GLEAN_STAT_RAW_WEAK, 0), (F.GLEAN_NEXT_MINUTES, 1440)]).glean weak
    else s)

/-- STATE of a counter sector. -/
def State.cntState (s : State) (k : Nat) : Nat := s.fWord (stripA k 0 + 12)

/-- The counter sectors are settled (R459); a part whose sectors were never used starts with every counter at 0. -/
def State.settleCounters (s : State) : State :=
  let act (k : Nat) : Bool := s.cntState k == 0xFF000000
  let drop (s : State) (k : Nat) : State := (s.progWord (stripA k 0 + 12) 0).modNv fun x => { x with eraseQ := x.eraseQ ++ [k] }
  let s := match act 62, act 63 with
    | true, true =>
      let d := (s.fWord (stripA 62 0 + 8) + 2 ^ 32 - s.fWord (stripA 63 0 + 8)) % 2 ^ 32
      let k := if 0 < d ∧ d < 2 ^ 31 then 62 else 63
      (drop s (otherSec k)).modNv fun x => { x with active := some k }
    | true, false => (if s.cntState 63 = 0xFFFFFFFF then s else drop s 63).modNv fun x => { x with active := some 62 }
    | false, true => (if s.cntState 62 = 0xFFFFFFFF then s else drop s 62).modNv fun x => { x with active := some 63 }
    | false, false => if s.inhibited then s else ((s.eraseRaw 62).makeActive 62 0 fun _ => 0)
  let s := match s.nv.active with
    | some k => if (List.range 16).all (s.baseOk k) then s
        else (s.puts nvB [(F.FLASH_LAST_PAGE, 256 * k), (F.FLASH_LAST_KIND, 3)]).raise nvB 7
    | none => s
  s.cntRefresh

/-- The records of the array are indexed: those after the last valid marker are retired, disagreeing copies resolved, and the
append pointer and the next numbers found (R450, R451, R462). -/
def State.indexRecords (s : State) : State :=
  let all := s.allRecs
  let after := (all.reverse.takeWhile fun r => !(r.body.key == markerKey && r.ok)).filter fun r => r.st == 0xF0
  let s := if s.inhibited then s else after.foldl (fun u r => u.retire r) s
  let keys := dedupN (s.liveRecs.map fun r => r.body.key)
  let s := keys.foldl (fun u k => (u.resolveKey k).1) s
  let opened := s.recSectors.find? fun k => s.secState k == ssOpen
  let ptr := opened.map fun k =>
    (s.sectorRecs k).foldl (fun m r => max m (r.addr + recSize r.body.data.length)) (secA k + 16)
  let next (l : List FRec) : Nat := match l with | [] => 0 | _ => min 0xFFFFFFFF (newestSeq l + 1)
  (s.modNv fun x => { x with ptr := ptr }).puts nvB
    [(F.REC_SEQ_VALUE, next (all.filter fun r => r.body.key != markerKey && r.ok)),
      (F.REC_CMT_VALUE, next (all.filter fun r => r.body.key == markerKey && r.ok)),
      (F.SECT_WEAR_MAX_ERASES, (List.range 16).foldl (fun m k => max m (s.secErases k)) 0)]

/-- The controller leaves reset (R462). -/
def State.flashStart (s : State) (weak : List Weak) : State :=
  let s := s.settleCounters
  let dead := (List.range 16).filter fun k => s.secState k == 0xFFFFFFFF || s.secState k == 0
  let s := s.modNv fun x => { x with eraseQ := x.eraseQ ++ dead.filter fun k => !x.eraseQ.contains k }
  let s := s.indexRecords
  let s := if !s.inhibited && (s.recSectors.any fun k => s.secState k == ssSource) then s.compact else s
  let s := s.put nvB F.NV_STAT_READY 1
  (s.puts nvB [(F.GLEAN_STAT_REWRITTEN, 0), (F.GLEAN_STAT_RAW_WEAK, 0)]).glean weak

/-- FLASH_POWER_UP (R462). -/
def execFlashPowerUp (weak : List Weak) (s : State) : Host.Outcome State Fault Refusal :=
  .next (if s.is nvB F.NV_STAT_READY then s else s.flashStart weak)

/-- NV_INHIBIT_ASSERT (R463). -/
def execNvInhibitAssert (s : State) : Host.Outcome State Fault Refusal :=
  .next (if s.inhibited then s else ((s.put nvB F.NV_STAT_INHIBIT 1).raise nvB 3).live nvB 3 true)

/-- NV_INHIBIT is released (R463): what has waited for it is done. -/
def State.inhibitEnd (s : State) : State :=
  let s := (s.put nvB F.NV_STAT_INHIBIT 0).live nvB 3 false
  if s.is nvB F.NV_STAT_READY then
    let q := s.nv.weakQ
    let s := if s.nv.active.isNone then s.settleCounters else s
    (s.modNv fun x => { x with weakQ := [] }).glean q
  else s

/-- BACKGROUND_ERASE (R458, R462): not started while NV_INHIBIT holds. -/
def execBackgroundErase (s : State) : Host.Outcome State Fault Refusal :=
  .next (match s.nv.eraseQ with
    | [] => s
    | k :: t =>
      if s.inhibited then s
      else ((if k < 16 then s.eraseRec k else s.eraseRaw k).modNv fun x => { x with eraseQ := t }).nvRefresh)

/-- FLASH_FAULT (R466). -/
def execFlashFault (u : FlashUe) (s : State) : Host.Outcome State Fault Refusal :=
  let s := s.raise nvB 7
  .next (match u with
    | .array page er =>
      let sec := page.val / 256
      let s := (s.setFault nvB 0 (page.val % 512)).puts nvB [(F.FLASH_LAST_PAGE, page.val), (F.FLASH_LAST_KIND, b2n er)]
      if sec < 16 then
        if s.recSectors.contains sec then (s.compactSec sec).nvRefresh
        else if s.secState sec = ssErased then ((s.eraseRaw sec).modNv fun x => { x with eraseQ := x.eraseQ ++ [sec] }).nvRefresh
        else s
      else if 62 ≤ sec then (if s.nv.active = some sec then s.fold.cntRefresh else s)
      else s.rawRes fcFlashFault
    | .gather w =>
      let s := s.setFault nvB 1 w.val
      match s.nv.gather with
      | some (m, _) => (s.modNv fun x => { x with gather := none, notice := x.notice ++ [(m, fcFlashFault)] }).nvRefresh
      | none => s
    | .pageBuffer w =>
      let s := s.setFault nvB 2 w.val
      let note := match s.nv.owner with | some m => [(m + 8, fcFlashFault)] | none => []
      (s.modNv fun x => { x with buf := emptyBuf, owner := none, notice := x.notice ++ note }).nvRefresh
    | .index w => (s.setFault nvB 3 w.val).indexRecords.nvRefresh)

end Sys2Proof.Machine
end

