-- ==== Sys2Proof/Machine/Matrix.lean ====
section
/-! DEFINITION. The control bus matrix (chapter 12): decoding, permission, the master ports, responses, and the reset of a
master. The commands of the matrix are in BusMatrix.lean. -/

namespace Sys2Proof.Machine

/-- Update the matrix's own state. -/
def State.modBus (s : State) (f : Bus → Bus) : State := { s with bus := f s.bus }

/-- Bytes of the T1 range (R187, R398). -/
def State.t1Len (s : State) : Nat := s.get siloB F.SILO_BINS_TOTAL_COUNT * 2 ^ 21

/-- Target of an address (R398); 8 where no other decodes it. -/
def State.busTarget (s : State) (a : Nat) : Nat :=
  if a < 0x4000000 then 0
  else if 0x4000000 ≤ a ∧ a < 0x4010000 then 5
  else if 0x5000000 ≤ a ∧ a < 0x5040000 then 4
  else if 0x6000000 ≤ a ∧ a < 0x6400000 then 2
  else if 0x7000000 ≤ a ∧ a < 0x7001000 then 3
  else if 0x10000000 ≤ a ∧ a < 0x20000000 then 6
  else if 0x4000000000 ≤ a ∧ a < 0x8000000000 then 7
  else if 0x8000000000 ≤ a ∧ a < 0x8000000000 + s.t1Len then 1
  else 8

/-- The directions of the table of R399 (M6's window apart): reads and writes of targets T0–T7, bit t. -/
def busReadMask (m : Nat) : Nat := [0x70, 0xFF, 0x03, 0x92, 0xC6, 0x33, 0x00, 0x0C].getD m 0
def busWriteMask (m : Nat) : Nat := [0x00, 0x9F, 0x03, 0x92, 0x4E, 0x13, 0x02, 0x0C].getD m 0

/-- The debug port is enabled (R503). -/
def State.debugOn (s : State) : Bool := s.is mgB F.MG_DBG_EN

/-- A master may make an access of a number of bytes (R399). -/
def State.busMay (s : State) (m t a n : Nat) (write : Bool) : Bool :=
  let lo := 0x8000000000 + s.get bmB F.BM_M6_BASE_BIN * 2 ^ 21
  bitN (if write then busWriteMask m else busReadMask m) t
    && (m != 5 || s.debugOn)
    && (m != 6 || (lo ≤ a && a + n ≤ lo + s.get bmB F.BM_M6_LEN_BYTES))

/-- A transaction is locked: only M1 and M5 lock (R397, R410). -/
def BusReq.locked (r : BusReq) : Bool := r.lock && (r.master.val == 1 || r.master.val == 5)

/-- REASON of a decode miss (R399, R410, R412); none where the transaction reaches its target. -/
def State.busMiss (s : State) (r : BusReq) : Option Nat :=
  let t := s.busTarget r.addr.toNat
  if t = 8 then some 0
  else if !s.busMay r.master.val t r.addr.toNat (16 * r.len.val) r.write then some 1
  else if BusReq.locked r && t != 0 && t != 3 && t != 4 then some 2
  else none

/-- BM_MCFG, BM_MSTAT, BM_QUAR of master m and BM_TCFG, BM_TSTAT of target t: added to the page. -/
abbrev bmM (m : Nat) : Nat := bmB + 4 * m

/-- Outstanding transactions of a master: accepted and not yet answered (R402). -/
def State.busOutstanding (s : State) (m : Nat) : Nat :=
  (s.bus.txs.filter fun x => x.req.master.val == m && x.st != 0 && !x.absorb).length
/-- IDs of a master in quarantine (R415). -/
def State.busQuar (s : State) (m : Nat) : Nat :=
  s.bus.txs.foldl (fun q x => if x.req.master.val = m ∧ x.absorb then q ||| 2 ^ x.req.id.val else q) 0
/-- OUT_MAX in effect (R417). -/
def State.outMax (s : State) (m : Nat) : Nat :=
  let v := s.get (bmM m) F.BM_MCFG_OUT_MAX
  if v = 0 then 1 else min 16 v

/-- Status registers and the live bit of MASTER_RESET follow the transactions (R415, R418). -/
def State.busRefresh (s : State) : State :=
  let s := s.forAll (List.range 8) fun m t =>
    let q := t.busQuar m
    t.puts (bmM m) [(F.BM_MSTAT_OUTSTANDING, t.busOutstanding m),
      (F.BM_MSTAT_QUARANTINED, ((List.range 32).filter (bitN q)).length), (F.BM_QUAR_IDS, q),
      (F.BM_MSTAT_STALLED, b2n (t.bus.txs.any fun x => x.req.master.val == m && x.st == 0))]
  s.live bmB 4 ((List.range 8).any fun m => s.busQuar m != 0 || s.is (bmM m) F.BM_MSTAT_IN_RESET)

/-- A response is delivered or absorbed: T8's record, error records, and the lock that an ending transaction releases (R401,
R404, R410, R412). -/
def State.busAnswer (s : State) (x : BusTx) (resp : Nat) (data : List (BitVec 128)) : State :=
  let m := x.req.master.val
  let a := x.req.addr.toNat
  let zeros := if x.req.write then [] else List.replicate x.req.len.val 0
  let s := if resp = 1 ∨ resp = 3 then
      (s.puts bmB [(F.BM_ERR_INFO_MASTER, m), (F.BM_ERR_INFO_ID, x.req.id.val), (F.BM_ERR_INFO_TARGET, x.target),
        (F.BM_ERR_INFO_RESP, resp), (F.BM_ERR_ADDR_LO_ADDR, a % 2 ^ 32), (F.BM_ERR_ADDR_HI_ADDR, a / 2 ^ 32)]).bump bmB
        F.BM_CNT_ERR_COUNT
    else s
  let s := s.raiseIf (resp == 1) bmB 2
  let ends := !BusReq.locked x.req && resp != 3 && s.is (bmB + 4 * x.target) F.BM_TSTAT_LOCKED
    && s.get (bmB + 4 * x.target) F.BM_TSTAT_LOCK_OWNER == m && decide (x.target < 8)
  let s := if ends then s.put (bmB + 4 * x.target) F.BM_TSTAT_LOCKED 0 else s
  if x.absorb then s
  else
    let s := s.emit (.busResp m x.req.id.val resp (if resp = 0 then data else zeros))
    if resp = 1 ∧ m = 2 ∧ !x.req.write then s.emit .busError else s

/-- T8 answers a miss (R412). -/
def State.busT8 (s : State) (x : BusTx) (reason : Nat) : State :=
  let a := x.req.addr.toNat
  let s := (s.puts bmB [(F.BM_DEC_INFO_MASTER, x.req.master.val), (F.BM_DEC_INFO_ID, x.req.id.val),
    (F.BM_DEC_INFO_WRITE, b2n x.req.write), (F.BM_DEC_INFO_REASON, reason), (F.BM_DEC_ADDR_LO_ADDR, a % 2 ^ 32),
    (F.BM_DEC_ADDR_HI_ADDR, a / 2 ^ 32)]).bump bmB F.BM_CNT_DEC_COUNT
  (s.raise bmB (if reason = 1 then 1 else 0)).busAnswer x 2 []

/-- Remove the transaction at a position. -/
def dropAt {α : Type} (l : List α) (i : Nat) : List α := l.take i ++ l.drop (i + 1)

/-- The transaction of a position may leave its master port: it is the port's oldest, the port is not blocked, OUT_MAX leaves
room, and its ID is in flight to no other target and not in quarantine (R402, R406, R415, R416). -/
def State.busPortFree (s : State) (i : Nat) (x : BusTx) : Bool :=
  let m := x.req.master.val
  let same (y : BusTx) : Bool := y.req.master.val == m
  !(s.bus.txs.take i).any (fun y => same y && y.st == 0)
    && !bitN s.bus.blocked m
    && s.busOutstanding m < s.outMax m
    && !s.bus.txs.any (fun y => same y && y.st != 0 && y.req.id == x.req.id && (y.absorb || y.target != x.target))

/-- Accept the first transaction that may leave its port: a miss, and a transaction of a broken sequence, are answered at once
(R411, R412); any other waits at its target. None where no transaction can be accepted. -/
def State.busAccept (s : State) : Option State :=
  let l := (List.range s.bus.txs.length).zip s.bus.txs
  match l.find? fun p => p.2.st == 0 && s.busPortFree p.1 p.2 with
  | none => none
  | some (i, x) =>
    let t := s.modBus fun b => { b with txs := dropAt b.txs i }
    let key := x.target * 8 + x.req.master.val
    some (match s.busMiss x.req with
      | some reason => t.busT8 { x with target := 8 } reason
      | none =>
        if s.bus.broken.contains key then
          let t := if BusReq.locked x.req then t else t.modBus fun b => { b with broken := b.broken.filter (· != key) }
          t.busAnswer x 3 []
        else s.modBus fun b => { b with txs := b.txs.set i { x with st := 1 } })

/-- Everything that can leave a master port does, and failed transactions whose turn it is are answered (R416); `fuel` bounds
the steps. -/
def State.busSettle : Nat → State → State
  | 0, s => s.busRefresh
  | fuel + 1, s =>
    let l := (List.range s.bus.txs.length).zip s.bus.txs
    let first (i : Nat) (x : BusTx) : Bool := !(s.bus.txs.take i).any fun y =>
      y.req.master == x.req.master && y.req.id == x.req.id && y.target == x.target && y.st != 0
    match l.find? fun p => p.2.st == 4 && first p.1 p.2 with
    | some (i, x) => State.busSettle fuel ((s.modBus fun b => { b with txs := dropAt b.txs i }).busAnswer x 1 [])
    | none =>
      let idle (m : Nat) : Bool := s.bus.txs.all fun y => y.req.master.val != m || y.st == 0
      let free := (List.range 8).foldl (fun b m => if idle m then setBit b m false else b) s.bus.blocked
      let s := s.modBus fun b => { b with blocked := free }
      match s.busAccept with
      | some t => State.busSettle fuel t
      | none => s.busRefresh

/-- Settle with enough fuel for every transaction present. -/
def State.busGo (s : State) : State := State.busSettle (2 * s.bus.txs.length + 2) s

/-- Beats after the first `n` with all strobes off (R414). -/
def cutBeats (l : List Beat) (n : Nat) : List Beat := l.take n ++ (l.drop n).map fun b => { b with strb := 0 }

/-- Reset a master's port for a mask of IDs (R413, R414): transactions not granted are removed, granted ones absorbed, locks
released. `delivered` gives the beats of a granted write that its target already has; for another it is a free value. -/
def State.busReset (s : State) (m ids : Nat) (delivered : List (Nat × Nat)) : State :=
  let mine (x : BusTx) : Bool := x.req.master.val == m && bitN ids x.req.id.val && !x.absorb
  let hit := s.bus.txs.any fun x => mine x && x.st != 0
  let beats (x : BusTx) : Nat :=
    match delivered.find? fun p => p.1 == x.req.id.val with
    | some p => p.2
    | none => (Config.freeValue s.freeCtr).toNat % (x.req.len.val + 1)
  let cut (x : BusTx) : BusTx :=
    if x.req.write ∧ x.st = 2 then { x with absorb := true, req := { x.req with beats := cutBeats x.req.beats (beats x) } }
    else { x with absorb := true }
  let keep (l : List BusTx) : List BusTx :=
    (l.filter fun x => !(mine x && (x.st == 0 || x.st == 1 || x.st == 4))).map fun x => if mine x then cut x else x
  let s := (s.modBus fun b => { b with txs := keep b.txs }).tick
  let s := if ids % 2 ^ 28 = 0 then s else
    (s.modBus fun b => { b with broken := b.broken.filter fun k => k % 8 != m }).forAll (List.range 9) fun t u =>
      if u.is (bmB + 4 * t) F.BM_TSTAT_LOCKED && u.get (bmB + 4 * t) F.BM_TSTAT_LOCK_OWNER == m
      then u.put (bmB + 4 * t) F.BM_TSTAT_LOCKED 0 else u
  (s.raiseIf hit bmB 4).busGo

/-- Every ID of a master. -/
abbrev allIds : Nat := 0xFFFFFFFF

/-! Access to the data space by the masters that reach every byte of it (R187, R379, R380, R400). -/

/-- The stripe of an offset of the data space. -/
def spaceStripe (a : Nat) : Nat := 3277 * (a / 2 ^ 21) + a % 2 ^ 21 / 640

/-- Bytes of the data space, stripe by stripe; none where a stripe is uncorrectable. -/
def State.spaceRead : Nat → State → Nat → Nat → State × Option (List Byte)
  | 0, s, _, _ => (s, some [])
  | fuel + 1, s, a, n =>
    if n = 0 then (s, some [])
    else
      let o := a % 2 ^ 21
      let w := min n (if o < 2096640 then 640 - o % 640 else 2 ^ 21 - o)
      let first := o % 640 / 64
      let r := s.stripeData (spaceStripe a) first ((o % 640 + w - 1) / 64 - first + 1)
      match r.2 with
      | none => (r.1.raise wnB 3, none)
      | some b =>
        let q := State.spaceRead fuel r.1 (a + w) (n - w)
        (q.1, q.2.map fun t => slice b (o % 64) w ++ t)

/-- Write single bytes of the data space, one merge for each stripe. -/
def State.spaceWrite (s : State) (l : List (Nat × Byte)) : State :=
  (dedupN (l.map fun p => spaceStripe p.1)).foldl (fun u k =>
    u.stripeMerge k fun old => (l.filter fun p => spaceStripe p.1 == k).foldl (fun d p => d.set (p.1 % 2 ^ 21 % 640) p.2) old) s

/-! Mernak SRAM and the flash window (R398, R454). -/

/-- What a byte of Mernak SRAM holds that nothing has written since the image was loaded: the image's plaintext, and 0 above it. -/
def State.sramInit (s : State) (a : Nat) : Byte := if a < s.bus.image.1 then Config.imageByte s.bus.image.2 a else 0
/-- Bytes of Mernak SRAM. -/
def State.sramRead (s : State) (a n : Nat) : List Byte := (List.range n).map fun i => tget (s.sramInit (a + i)) s.bus.sram (a + i)
/-- One byte of SRAM written: over the image it is always listed, above it only where it is not 0. -/
def sramSet (image : Nat) (t : List Host.Cell) (p : Nat × Byte) : List Host.Cell :=
  if p.1 < image then tins p.1 p.2 (t.filter fun q => q.1 != p.1) else tset 0 t p.1 p.2
/-- Write bytes of Mernak SRAM. -/
def State.sramWrite (s : State) (l : List (Nat × Byte)) : State :=
  s.modBus fun b => { b with sram := l.foldl (sramSet b.image.1) b.sram }
/-- An image's first bytes are copied into SRAM (R505). -/
def State.loadImage (s : State) (n : Nat) : State :=
  s.modBus fun b => { b with sram := b.sram.filter fun q => n ≤ q.1, image := (n, b.image.2 + 1) }

/-- Bytes written into the flash controller's page buffer by a master through T2 (R453, R454). -/
def State.pageWrite (s : State) (m : Nat) (l : List (Nat × Byte)) : State :=
  if l.isEmpty then s
  else if s.nv.owner.isSome && s.nv.owner != some m then (s.raise nvB 6).nvRefresh
  else (s.modNv fun x => { x with buf := l.foldl (fun b p => b.set (p.1 % 256) p.2) x.buf, owner := some m }).nvRefresh

/-- Host address of a T7 offset (R398). -/
def State.hostAddr (s : State) (off : Nat) : Nat :=
  (s.get bmB F.BM_OUT_BASE_LO_ADDR * 4096 + s.get bmB F.BM_OUT_BASE_HI_ADDR * 2 ^ 32 + off) % 2 ^ 64

end Sys2Proof.Machine
end

