-- ==== Sys2Proof/Machine/KeyStore.lean ====
section
/-! DEFINITION. The key store (chapter 13): slots, roots and persistence, the boot measurement accumulator, derivation,
invalidation, update messages, attestation and tamper. -/

namespace Sys2Proof.Machine

/-- Update the key store's own state. -/
def State.modKs (s : State) (f : Ks → Ks) : State := { s with ks := f s.ks }
/-- Update the media ports' own state. -/
def State.modIp (s : State) (f : Ip → Ip) : State := { s with ip := f s.ip }

/-! Causes of a media port (R366, R367). -/

/-- Event bit of each cause of R367. -/
def causeEvent (bit : Nat) : Nat :=
  [0, 0, 0, 0, 0, 1, 1, 1, 1, 1, 2, 2, 3, 3, 3, 4, 4, 5, 5, 5, 5, 6, 7].getD bit 7
/-- Set a cause of port n; its event is raised when the cause becomes 1 with its enable set. -/
def State.ipCause (s : State) (n bit : Nat) : State :=
  let had := bitN (s.get (ipB n 0) F.IP_CAUSE_BITS) bit
  (s.cause (ipB n 0) F.IP_CAUSE_BITS bit).raiseIf (!had && bitN (s.get (ipB n 0) F.IP_CAUSE_EN_BITS) bit) (ipB n 0)
    (causeEvent bit)

/-- A cause of one context or secure channel, which IP_LAST names. -/
def State.ipCauseAt (s : State) (n bit i : Nat) : State :=
  (s.ipCause n bit).puts (ipB n 0) [(F.IP_LAST_INDEX, i % 1024), (F.IP_LAST_CAUSE, bit)]

/-- Configuration of secure channel c of port n: added to the fields of R361. -/
abbrev scB (n c : Nat) : Nat := ipB n 2 + 0x100 + 32 * c
/-- Association j of channel c of port n. -/
abbrev assocKey (n c j : Nat) : Nat := n * 64 + c * 2 + j
/-- An association without a key. -/
def Assoc.none : Assoc := ⟨64, [], 1, false⟩
/-- The engine's side of an association. -/
def State.assoc (s : State) (n c j : Nat) : Assoc := tget Assoc.none s.ip.assocs (assocKey n c j)
/-- Set the engine's side of an association. -/
def State.setAssoc (s : State) (n c j : Nat) (a : Assoc) : State :=
  s.modIp fun x => { x with assocs := tset Assoc.none x.assocs (assocKey n c j) a }

/-- KEYED of a channel: the association in use holds a key; for a receive channel, any of its associations (R361). -/
def State.keyedRefresh (s : State) (n c : Nat) : State :=
  let has (j : Nat) : Bool := !(s.assoc n c j).key.isEmpty
  let on := if s.effIs (scB n c) F.SC_CFG_DIR then has (s.effGet (scB n c) F.SC_CFG_CUR_SA) else has 0 || has 1
  s.put (scB n c) F.SC_STAT_KEYED (b2n on)

/-- The MACsec engine of each port zeroizes the keys of revoked slots (R355, R432). -/
def State.revokePorts (s : State) (slots : List Nat) : State :=
  let hit := s.ip.assocs.filter fun p => !p.2.key.isEmpty && slots.contains p.2.slot
  hit.foldl (fun u p =>
    let n := p.1 / 64
    let c := p.1 % 64 / 2
    ((u.setAssoc n c (p.1 % 2) { p.2 with key := [] }).keyedRefresh n c).ipCauseAt n 21 c) s

/-! Slots (R420 to R423). -/

/-- The attribute word and GEN word of slot i. -/
def State.slotAttr (s : State) (i : Nat) : Nat := (s.rd (ksB + 0x200 + 8 * i)).toNat
def State.setAttr (s : State) (i v : Nat) : State := s.wr (ksB + 0x200 + 8 * i) (BitVec.ofNat 32 v)
abbrev genF : Fld := F.SLOT_GEN_GEN
def State.slotGen (s : State) (i : Nat) : Nat := s.get (ksB + 8 * i) F.SLOT_GEN_GEN
def State.slotPgen (s : State) (i : Nat) : Nat := s.get (ksB + 8 * i) F.SLOT_GEN_PARENT_GEN

/-- Bits of the attribute word. -/
abbrev atKdf : Nat := 7
abbrev atDeriveOnly : Nat := 8
abbrev atBootBound : Nat := 9
abbrev atVolatile : Nat := 10
abbrev atValid : Nat := 11
abbrev atHasParent : Nat := 12
/-- PARENT of an attribute word. -/
def atParent (a : Nat) : Nat := a / 2 ^ 13 % 64

/-- The slot holds a usable key. -/
def State.slotValid (s : State) (i : Nat) : Bool := bitN (s.slotAttr i) atValid
/-- The slot is delivered to the engine of an ENGINES bit (R421). -/
def State.slotMay (s : State) (i engine : Nat) : Bool :=
  let a := s.slotAttr i
  bitN a atValid && bitN a engine && (!bitN a atDeriveOnly || engine == atKdf) && !s.is ksB F.KS_STAT_TAMPERED
/-- The 32 bytes of a slot's value, unmasked. -/
def State.slotKey (s : State) (i : Nat) : List Byte := beBytes 32 (tget 0 s.ks.masked i ^^^ tget 0 s.ks.masks i).toNat
/-- Store a slot's value under a fresh mask (R423). -/
def State.setKey (s : State) (i : Nat) (k : List Byte) : State :=
  let mask := Config.freeValue s.freeCtr
  (s.modKs fun x => { x with
    masked := tset 0 x.masked i (BitVec.ofNat 256 (ofBe k) ^^^ mask)
    masks := tset 0 x.masks i mask }).tick

/-- VALID_SLOTS follows the slots. -/
def State.slotsRefresh (s : State) : State :=
  s.put ksB F.KS_STAT_VALID_SLOTS ((List.range 64).filter s.slotValid).length

/-- Bytes of a window of the page. -/
def State.ksBytes (s : State) (off n : Nat) : List Byte :=
  ((List.range (ceilDiv n 4)).flatMap fun i => leBytes 4 (s.rd (ksB + off + 4 * i)).toNat).take n
/-- Write a window of the page, in whole words. -/
def State.ksSetBytes (s : State) (off : Nat) (l : List Byte) : State :=
  s.forAll (List.range (l.length / 4)) fun i t => t.wr (ksB + off + 4 * i) (BitVec.ofNat 32 (ofLe (slice l (4 * i) 4)))

/-- The part's identity, DEVICE_ID_HI then DEVICE_ID_LO, big-endian (R433). -/
def State.deviceId (s : State) : List Byte := beBytes 4 (s.get 0 F.DEVICE_ID_HI_VALUE) ++ beBytes 4 (s.get 0 F.DEVICE_ID_LO_VALUE)

/-- The accumulator A (R427). -/
def State.measAcc (s : State) : List Byte := s.ksBytes 0x120 48

/-! Derivation (R428). -/

/-- X_i of R428. -/
def kdfInput (i : Nat) (attr label context acc : List Byte) (bits : Nat) : List Byte :=
  beBytes 4 i ++ attr ++ label ++ [0] ++ context ++ acc ++ beBytes 4 bits
/-- Output block i of the KDF. -/
def kdf (parent : List Byte) (i : Nat) (attr label context acc : List Byte) (bits : Nat) : List Byte :=
  Config.hmacSha256 parent (kdfInput i attr label context acc bits)

/-- "PV-SEAL", "PV-ECDH", "PV-KEK", "PVAT" and "PVKU". -/
def lblSeal : List Byte := [0x50, 0x56, 0x2D, 0x53, 0x45, 0x41, 0x4C]
def lblEcdh : List Byte := [0x50, 0x56, 0x2D, 0x45, 0x43, 0x44, 0x48]
def lblKek : List Byte := [0x50, 0x56, 0x2D, 0x4B, 0x45, 0x4B]
def magicAt : List Byte := [0x50, 0x56, 0x41, 0x54]
def magicKu : List Byte := [0x50, 0x56, 0x4B, 0x55]

/-- The root copies from OTP (R425). -/
def State.deriveRoots (s : State) : State :=
  let id := s.deviceId
  let block (i : Nat) : List Byte := kdf Config.otpSecret i [] lblEcdh id [] 512
  let d := Config.p384Scalar ((block 1 ++ block 2).take 48)
  (s.modKs fun x => { x with kSeal := kdf Config.otpSecret 1 [] lblSeal id [] 256, dDev := d }).ksSetBytes 0x180
    (slice (Config.ecPublic d) 0 96)

/-- The key of a slot derived by its recipe from its parent (R428). -/
def State.recipeKey (s : State) (i : Nat) (r : Recipe) : List Byte :=
  let a := setBit (s.slotAttr i) atValid false
  kdf (s.slotKey (atParent a)) 1 (beBytes 4 a) r.label r.context (if bitN a atBootBound then s.measAcc else []) 256

/-! Records (R426). -/

/-- A version of a key as its CRIT record's two copies. -/
def State.critPair (s : State) (key : Nat) (tomb : Bool) (data : List Byte) : State × List GRec :=
  let seq := s.get nvB F.REC_SEQ_VALUE
  if seq = 0xFFFFFFFF then (s, [])
  else (s.put nvB F.REC_SEQ_VALUE (seq + 1), [⟨key, seq, recFlags true false tomb, data⟩, ⟨key, seq, recFlags true true tomb, data⟩])

/-- Recipe bytes: lengths, label and context, zero-padded. -/
def Recipe.bytes (r : Recipe) : List Byte :=
  [BitVec.ofNat 8 r.label.length] ++ slice r.label 0 32 ++ [BitVec.ofNat 8 r.context.length] ++ slice r.context 0 64

/-- The record data of a slot (R426). -/
def State.slotRecord (s : State) (i : Nat) : State × List Byte :=
  let recipe := (s.ks.recipes.find? fun p => p.1 == i).map (·.2)
  let head := [0x01, BitVec.ofNat 8 i] ++ beBytes 4 (s.slotAttr i)
    ++ [BitVec.ofNat 8 (s.slotGen i), BitVec.ofNat 8 (s.slotPgen i), BitVec.ofNat 8 (b2n recipe.isSome)]
  let iv := slice (beBytes 32 (Config.freeValue s.freeCtr).toNat) 0 12
  let c := Config.gcmEncrypt s.ks.kSeal iv head (match recipe with | some r => r.bytes | none => s.slotKey i)
  (s.tick, head ++ iv ++ c.1 ++ c.2)

/-- Commit a list of M7's records, in commits of at most 16 pages (R426, R450). -/
def State.sealCommit (s : State) (l : List GRec) : State :=
  if l.isEmpty then s
  else
    let s := if s.mustCompact then s.compact else s
    match State.ownCommits (2 * l.length + 2) s [] l with
    | some t => t.nvRefresh
    | none => s.nvRefresh

/-- The records of changed slots are written, and those of invalid or volatile ones deleted; a tamper record goes first, and
with it every slot record goes (R426, R437). Nothing is written while NV_INHIBIT holds. -/
def State.ksFlush (s : State) : State :=
  if s.inhibited || !s.is nvB F.NV_STAT_READY then s
  else
    let live := s.liveKeys
    let s := if s.ks.tamperDue then
        let v := (Config.freeValue s.freeCtr).toNat
        let q := s.tick.critPair 0x1FF false ((beBytes 32 v).take (v % 33))
        ((q.1.sealCommit q.2).modKs fun x => { x with tamperDue := false, due := List.range 64 }).put ksB F.KS_TAMPER_HISTORY 1
      else s
    let due := s.ks.due
    let r := due.foldl (fun (p : State × List GRec) i =>
      let a := p.1.slotAttr i
      let key := 0x100 + i
      if bitN a atValid && !bitN a atVolatile then
        let d := p.1.slotRecord i
        let q := d.1.critPair key false d.2
        (q.1, p.2 ++ q.2)
      else if live.contains key then
        let q := p.1.critPair key true []
        (q.1, p.2 ++ q.2)
      else p) (s, [])
    (r.1.sealCommit r.2).modKs fun x => { x with due := [] }

/-- The record of a slot is out of date. -/
def State.ksDue (s : State) (i : Nat) : State :=
  s.modKs fun x => { x with due := if x.due.contains i then x.due else x.due ++ [i] }

/-! Invalidation (R431, R432). -/

/-- A slot's GEN increments; unless it is replaced, its VALID clears and its recipe goes. -/
def State.slotDrop (s : State) (i : Nat) (replace : Bool) : State :=
  let s := s.put (ksB + 8 * i) F.SLOT_GEN_GEN (s.slotGen i + 1)
  (if replace then s
    else (s.setAttr i (setBit (s.slotAttr i) atValid false)).modKs fun x => { x with recipes := x.recipes.filter fun p => p.1 != i }).ksDue i

/-- A slot's parent is gone or has changed. -/
def State.orphan (s : State) (i : Nat) : Bool :=
  let a := s.slotAttr i
  bitN a atValid && bitN a atHasParent && (!s.slotValid (atParent a) || s.slotPgen i != s.slotGen (atParent a))

/-- Passes over all slots until one changes nothing: the state and the slots invalidated. -/
def State.walk : Nat → State → List Nat → State × List Nat
  | 0, s, l => (s, l)
  | fuel + 1, s, l =>
    let r := (List.range 64).foldl (fun (p : State × List Nat) i =>
      if p.1.orphan i then (p.1.slotDrop i false, p.2 ++ [i]) else p) (s, [])
    if r.2.isEmpty then (s, l) else State.walk fuel r.1 (l ++ r.2)

/-- Invalidate a slot with its descendants, and revoke what the engines hold (R431, R432). -/
def State.invalidate (s : State) (i : Nat) (replace : Bool) : State :=
  let r := State.walk 65 (s.slotDrop i replace) []
  let s := if r.2.isEmpty then r.1 else (r.1.put ksB F.KS_LAST_SLOT i).raise ksB 2
  let gone := i :: r.2
  let s := match s.mg.updKey with
    | some k => if gone.contains k then
        (({ s with mg := { s.mg with updKey := none } }).puts ksB [(F.KS_LAST_SLOT, k), (F.KS_LAST_ENGINE, 1)]).raise ksB 3
      else s
    | none => s
  (s.revokePorts gone).slotsRefresh

/-! Commands (R429, R430, R434 to R436). -/

abbrev kcOk : Nat := 0
abbrev kcNotPermitted : Nat := 0x08
abbrev kcBadSlot : Nat := 0x40
abbrev kcBadFormat : Nat := 0x41
abbrev kcTampered : Nat := 0x43
abbrev kcSigFail : Nat := 0x44
abbrev kcIdentity : Nat := 0x45
abbrev kcCounter : Nat := 0x46
abbrev kcSaturated : Nat := 0x47
abbrev kcInhibited : Nat := 0x48
abbrev kcUnwrap : Nat := 0x49
abbrev kcBadAttr : Nat := 0x4A
abbrev kcNotFinal : Nat := 0x4B

/-- A command completes with a result. -/
def State.ksRes (s : State) (code : Nat) : State :=
  (s.puts ksB [(F.KS_CMD_RES_CODE, code), (F.KS_CMD_RES_DONE, 1), (F.KS_CMD_RES_BUSY, 0)]).slotsRefresh

/-- The store is tampered with. -/
def State.tampered (s : State) : Bool := s.is ksB F.KS_STAT_TAMPERED

/-- First failing check of a list, in order. -/
def firstFail : List (Nat × Bool) → Option Nat
  | [] => none
  | (c, bad) :: t => if bad then some c else firstFail t

/-- An attribute word fails the check of R429. -/
def badAttr (a : Nat) : Bool := a / 2 ^ 11 != 0 || (bitN a atDeriveOnly && a % 256 != 0x80)

/-- DERIVE of the command fields (R429). -/
def State.derive (s : State) : State :=
  let i := s.get ksB F.CMD_SLOT
  let p := s.get ksB F.CMD_PARENT
  let a := s.get ksB F.CMD_ATTR_WORD
  let old := s.slotAttr i
  let ll := s.get ksB F.CMD_LEN_LABEL_LEN
  let cl := s.get ksB F.CMD_LEN_CTX_LEN
  match firstFail [(kcTampered, s.tampered), (kcNotPermitted, !s.slotMay p atKdf),
      (kcBadSlot, i == p || (bitN old atValid && !(bitN old atHasParent && bitN old atVolatile))),
      (kcBadFormat, 32 < ll || 64 < cl), (kcBadAttr, badAttr a),
      (kcNotFinal, bitN a atBootBound && !s.is ksB F.MEAS_STAGES_FINAL)] with
  | some c => s.ksRes c
  | none =>
    let r : Recipe := ⟨s.ksBytes 0x80 ll, s.ksBytes 0xA0 cl⟩
    let s := (s.setAttr i (a + 2 ^ atHasParent + p * 2 ^ 13)).modKs fun x => { x with
      recipes := (x.recipes.filter fun q => q.1 != i) ++ [(i, r)] }
    let s := s.setKey i (s.recipeKey i r)
    let s := s.setAttr i (setBit (s.slotAttr i) atValid true)
    let s := s.put (ksB + 8 * i) F.SLOT_GEN_PARENT_GEN (s.slotGen p)
    let s := if bitN old atValid then s.invalidate i true else s
    ((s.ksDue i).ksFlush).ksRes kcOk

/-- CLEAR (R430). -/
def State.clearSlot (s : State) : State :=
  let i := s.get ksB F.CMD_SLOT
  match firstFail [(kcTampered, s.tampered), (kcBadSlot, !bitN (s.slotAttr i) atHasParent)] with
  | some c => s.ksRes c
  | none => ((s.invalidate i false).ksFlush).ksRes kcOk

/-- The attestation message M (R435). -/
def State.attestMsg (s : State) (i : Nat) : List Byte :=
  magicAt ++ [0x01, BitVec.ofNat 8 i, BitVec.ofNat 8 (s.slotGen i), BitVec.ofNat 8 (s.get ksB F.MEAS_STAGES_FINAL)]
    ++ s.ksBytes 0xE0 32 ++ s.deviceId ++ s.measAcc ++ [BitVec.ofNat 8 (s.get ksB F.MEAS_STAGES_STAGES)]
    ++ beBytes 4 (s.get ksB F.KS_COUNTER_VALUE)

/-- ATTEST (R435). -/
def State.attest (s : State) : State :=
  let i := s.get ksB F.CMD_SLOT
  match firstFail [(kcTampered, s.tampered), (kcNotPermitted, !s.slotMay i 4)] with
  | some c => s.ksRes c
  | none => (s.ksSetBytes 0x100 (slice (Config.hmacSha256 (s.slotKey i) (s.attestMsg i)) 0 32)).ksRes kcOk

/-- The wrapped key of a message, if its tag is right (R433). -/
def State.unwrap (s : State) (m : List Byte) : Option (List Byte) :=
  let z := Config.ecdhX s.ks.dDev (slice m 121 97)
  let kek := kdf z 1 [] lblKek (slice m 0 24) [] 256
  Config.gcmDecrypt kek (slice m 218 12) (slice m 0 24) (slice m 230 32) (slice m 262 16)

/-- UPDATE: the message in UPD_MSG is checked and applied (R434). -/
def State.update (s : State) : State :=
  let m := s.ksBytes 0x400 374
  let op := (m.getD 5 0).toNat
  let slot := (m.getD 6 0).toNat
  let attr := ofBe (slice m 20 4)
  let cnt := s.cntVal 0
  let badFormat := slice m 0 4 != magicKu || m.getD 4 0 != 0x01 || op == 0 || 4 < op || 63 < slot || m.getD 7 0 != 0
    || (3 ≤ op && (slice m 121 157).any (· != 0))
  let badSlot := (op == 1 && s.slotValid slot) || ((op == 2 || op == 3) && !s.slotValid slot)
  let key := s.unwrap m
  match firstFail [(kcBadFormat, badFormat), (kcTampered, s.tampered), (kcInhibited, s.inhibited),
      (kcIdentity, slice m 8 8 != s.deviceId),
      (kcSigFail, Config.sha384 (slice m 24 97) != s.ksBytes 0x150 48
        || !Config.ecdsaVerify (slice m 24 97) (slice m 0 278) (slice m 278 96)),
      (kcSaturated, cnt == 0xFFFFFFFF), (kcCounter, ofBe (slice m 16 4) != cnt), (kcBadSlot, badSlot),
      (kcBadAttr, badAttr attr || bitN attr atBootBound), (kcUnwrap, op ≤ 2 && key.isNone)] with
  | some c => ((s.raise ksB 1).raiseIf (c == kcSaturated) ksB 5).ksRes c
  | none =>
    let s := s.cntStep 0
    let install (s : State) : State :=
      let s := (s.setAttr slot (attr + 2 ^ atValid)).modKs fun x => { x with recipes := x.recipes.filter fun p => p.1 != slot }
      ((s.setKey slot (key.getD [])).put (ksB + 8 * slot) F.SLOT_GEN_PARENT_GEN 0).ksDue slot
    let s :=
      if op = 1 then install s
      else if op = 2 then (install s).invalidate slot true
      else if op = 3 then s.invalidate slot false
      else
        let q := s.critPair 0x1FF true []
        (if s.liveKeys.contains 0x1FF then q.1.sealCommit q.2 else s).put ksB F.KS_TAMPER_HISTORY 0
    ((s.ksFlush).raise ksB 0).ksRes kcOk

/-- Run the command whose fields CMD holds. -/
def State.ksRun (s : State) : State :=
  let op := s.get ksB F.CMD_OP
  if op = 1 then s.derive else if op = 2 then s.clearSlot else if op = 3 then s.attest else s.update

/-- A host command: ignored while one runs; DERIVE and UPDATE wait for the entropy source (R423, R436). -/
def State.ksCommand (s : State) (op : Nat) (v : Word) : State :=
  if s.is ksB F.KS_CMD_RES_BUSY then s
  else
    let s := s.puts ksB [(F.CMD_OP, op), (F.CMD_SLOT, fldGet v 4 6), (F.CMD_PARENT, fldGet v 10 6), (F.KS_CMD_RES_DONE, 0)]
    if s.ks.rngBad && (op == 1 || op == 4) && !s.tampered then
      (s.put ksB F.KS_CMD_RES_BUSY 1).modKs fun x => { x with waiting := some v }
    else s.ksRun

/-- KS_DERIVE (R429). -/
def execKsDerive (v : Word) (s : State) : Host.Outcome State Fault Refusal := .next (s.ksCommand 1 v)
/-- KS_CLEAR (R430). -/
def execKsClear (v : Word) (s : State) : Host.Outcome State Fault Refusal := .next (s.ksCommand 2 v)
/-- KS_ATTEST (R435). -/
def execKsAttest (v : Word) (s : State) : Host.Outcome State Fault Refusal := .next (s.ksCommand 3 v)
/-- KS_UPDATE (R434). -/
def execKsUpdate (v : Word) (s : State) : Host.Outcome State Fault Refusal := .next (s.ksCommand 4 v)

/-! Measurement, the entropy source, faults, tamper and start-up. -/

/-- Derive the recipes whose parents are there; `bound` lets BOOT_BOUND ones go ahead (R426, R427). -/
def State.deriveRecipes : Nat → State → Bool → State
  | 0, s, _ => s
  | fuel + 1, s, bound =>
    let ready (u : State) (p : Nat × Recipe) : Bool :=
      let a := u.slotAttr p.1
      !bitN a atValid && (bound || !bitN a atBootBound) && u.slotValid (atParent a) && u.slotPgen p.1 == u.slotGen (atParent a)
    match s.ks.recipes.find? (ready s) with
    | none => s
    | some p =>
      let t := s.setKey p.1 (s.recipeKey p.1 p.2)
      State.deriveRecipes fuel (t.setAttr p.1 (setBit (t.slotAttr p.1) atValid true)) bound

/-- One extend of the accumulator (R427). -/
def State.extend (s : State) (digest : List Byte) (final : Bool) : State :=
  if digest.length != 48 || s.is ksB F.MEAS_STAGES_FINAL || s.tampered then s
  else
    let s := s.ksSetBytes 0x120 (slice (Config.sha384 (s.measAcc ++ digest)) 0 48)
    let s := s.put ksB F.MEAS_STAGES_STAGES (s.get ksB F.MEAS_STAGES_STAGES + 1)
    if final then ((State.deriveRecipes 64 (s.put ksB F.MEAS_STAGES_FINAL 1) true).slotsRefresh) else s

/-- MEAS_EXTEND (R427): behind a host command in progress it waits (R436). -/
def execMeasExtend (digest : List Byte) (final : Bool) (s : State) : Host.Outcome State Fault Refusal :=
  .next (if s.is ksB F.KS_CMD_RES_BUSY then s.modKs fun x => { x with queue := x.queue ++ [(digest, final)] }
    else s.extend digest final)

/-- REMASK (R423): every mask is drawn again, unless the entropy source has failed. -/
def execRemask (s : State) : Host.Outcome State Fault Refusal :=
  .next (if s.ks.rngBad then s else s.forAll (List.range 64) fun i t => t.setKey i (t.slotKey i))

/-- RNG_FAULT (R423). -/
def execRngFault (s : State) : Host.Outcome State Fault Refusal :=
  .next (((s.modKs fun x => { x with rngBad := true }).raise ksB 6).live ksB 6 true)

/-- What has waited behind a host command runs. -/
def State.runQueue (s : State) : State :=
  let q := s.ks.queue
  q.foldl (fun u p => u.extend p.1 p.2) (s.modKs fun x => { x with queue := [] })

/-- RNG_RECOVER (R423): the waiting command runs. -/
def execRngRecover (s : State) : Host.Outcome State Fault Refusal :=
  let s := (s.modKs fun x => { x with rngBad := false }).live ksB 6 false
  .next (if s.ks.waiting.isSome then ((s.modKs fun x => { x with waiting := none }).ksRun).runQueue else s)

/-- KS_FAULT (R424). -/
def execKsFault (u : KsUe) (s : State) : Host.Outcome State Fault Refusal :=
  let hit (s : State) (array i : Nat) : State := ((s.setFault ksB array i).put ksB F.KS_LAST_SLOT i).raise ksB 7
  .next (match u with
    | .value i => (((hit s 0 i.val).invalidate i.val false).ksFlush)
    | .attr i => (((hit s 1 i.val).invalidate i.val false).ksFlush)
    | .root i => if s.tampered then hit s 2 i.val else (hit s 2 i.val).deriveRoots)

/-- TAMPER (R437). -/
def execTamper (cause : Fin 32) (s : State) : Host.Outcome State Fault Refusal :=
  .next (if cause.val = 0 then s
    else
      let slots := (List.range 64).filter s.slotValid
      let s := s.forAll (List.range 64) fun i t => t.setAttr i 0
      let s := s.modKs fun x => { x with
        masked := [], masks := [], recipes := [], kSeal := [], dDev := [], waiting := none, due := [],
        tamperDue := x.tamperDue || !s.tampered }
      let s := ({ s with mg := { s.mg with updKey := none } }).revokePorts (slots ++ [64])
      let s := s.puts ksB [(F.KS_STAT_TAMPERED, 1), (F.KS_TAMPER_CAUSE, s.get ksB F.KS_TAMPER_CAUSE ||| cause.val)]
      let s := (s.raise ksB 4).live ksB 4 true
      let s := if s.is ksB F.KS_CMD_RES_BUSY then (s.raiseIf (s.get ksB F.CMD_OP == 4) ksB 1).ksRes kcTampered else s
      let s := ((s.put mgB F.MG_DBG_EN 0).live mgB 18 false).busReset 5 allIds []
      (((s.busReset 7 allIds []).runQueue).ksFlush).slotsRefresh)

/-- Unseal a slot's record (R426). -/
def State.unseal (s : State) (i : Nat) (d : List Byte) : State :=
  let head := slice d 0 9
  let kind := (d.getD 8 0).toNat
  let n := if kind = 0 then 32 else 98
  match (if d.length = 37 + n ∧ kind ≤ 1 then Config.gcmDecrypt s.ks.kSeal (slice d 9 12) head (slice d 21 n) (slice d (21 + n) 16)
    else none) with
  | none => (s.put ksB F.KS_LAST_SLOT i).raise ksB 7
  | some t =>
    let a := ofBe (slice d 2 4)
    let s := s.puts (ksB + 8 * i) [(F.SLOT_GEN_GEN, (d.getD 6 0).toNat), (F.SLOT_GEN_PARENT_GEN, (d.getD 7 0).toNat)]
    if kind = 0 then (s.setKey i t).setAttr i a
    else
      let r : Recipe := ⟨slice t 1 (min 32 (t.getD 0 0).toNat), slice t 34 (min 64 (t.getD 33 0).toNat)⟩
      (s.setAttr i (setBit a atValid false)).modKs fun x => { x with recipes := x.recipes ++ [(i, r)] }

/-- The store's start-up (R425, R426, R437). -/
def State.ksStart (s : State) : State :=
  let s := (s.modKs fun x => { x with rowKey := Config.freeValue s.freeCtr }).tick.deriveRoots
  let live := s.liveKeys
  let slots := (List.range 64).filter fun i => live.contains (0x100 + i)
  let s := if live.contains 0x1FF then
      ((s.put ksB F.KS_TAMPER_HISTORY 1).modKs fun x => { x with due := slots }).ksFlush
    else
      slots.foldl (fun u i =>
        let q := u.resolveKey (0x100 + i)
        match q.2 with
        | some r => q.1.unseal i r.data
        | none => q.1) s
  ((State.deriveRecipes 64 s (s.is ksB F.MEAS_STAGES_FINAL)).put ksB F.KS_STAT_READY 1).slotsRefresh

/-- KS_STARTUP (R426). -/
def execKsStartup (s : State) : Host.Outcome State Fault Refusal :=
  .next (if s.is ksB F.KS_STAT_READY || s.tampered then s else s.ksStart)

end Sys2Proof.Machine
end

