-- ==== Sys2Proof/Machine/Take.lean ====
section
/-! DEFINITION. Taking a group (R57, R176, R191 to R195, R207): its staging sets go into effect in parts, at the frame pulse, at
switching lines and at transmit frame starts; what follows for routes, rings and stores. -/

namespace Sys2Proof.Machine

/-! Completion (R57). -/

/-- A member's COMMIT_STAT after a commit with a result (R49, R61): a held flip keeps FENCE_DEFERRED on its composer (R250). -/
def State.memberResult (s : State) (base n code : Nat) : State :=
  let flip := 1 ≤ dieOf base && dieOf base ≤ 6 && 0x300 ≤ pageOf base && pageOf base < 0x340
    && s.get base F.COMP_STAT_FLIP_WAIT != 0 && code == rcOk
  s.puts base [(F.COMMIT_STAT_RESULT, if flip then rcFence else code), (F.COMMIT_STAT_SRC, 0),
    (F.COMMIT_STAT_TOKEN, s.get (cgB n) F.CG_STAT_TOKEN)]

/-- CG_FRAME of group n. -/
def State.setCgFrame (s : State) (n v : Nat) : State := s.put (seqB + 4 * n) F.CG_FRAME_VALUE v

/-- Group n is idle with a result, which its members report too (R57, R61). -/
def State.groupEnd (s : State) (n code : Nat) (members : List Nat) : State :=
  let s := (s.puts (cgB n) [(F.CG_STAT_STATE, 0), (F.CG_STAT_RESULT, code)]).setGrp n Grp.idle
  members.foldl (fun u b => (u.memberResult b n code).pendingRefresh b) s

/-- Groups whose last member has applied are complete (R57). -/
def State.groupsDone (s : State) : State :=
  s.forAll (List.range 64) fun n u =>
    let g := u.grp n
    if u.get (cgB n) F.CG_STAT_STATE = 4 ∧ g.staging.isEmpty then
      let u := u.modSilo fun x => { x with reserved := x.reserved.filter fun p => p.1 != n }
      (u.setCgFrame n g.frame).groupEnd n rcOk g.members
    else u

/-- Groups that are applying. -/
def State.applying (s : State) : List Nat := (List.range 64).filter fun n => s.get (cgB n) F.CG_STAT_STATE == 4

/-- Staged words of groups that are applying, at the addresses of a test. -/
def State.partWords (s : State) (pred : Nat → Bool) : List (Nat × Word) :=
  s.applying.flatMap fun n => (s.grp n).staging.filter fun p => pred p.1

/-- Those words go into effect, in ascending group number. -/
def State.takePart (s : State) (pred : Nat → Bool) : State :=
  s.forAll s.applying fun n u =>
    let g := u.grp n
    (u.applyStaging (g.staging.filter fun p => pred p.1)).setGrp n { g with staging := g.staging.filter fun p => !pred p.1 }

/-! Routes. -/

/-- Entry of a route table at an address: table and index. -/
def routeOf (a : Nat) : Option (Nat × Nat) :=
  let at' (t : Nat) : Option (Nat × Nat) :=
    if routeA t 0 ≤ a ∧ a < routeA t 0 + 8 * routeN t ∧ (a - routeA t 0) % 8 = 0 then some (t, (a - routeA t 0) / 8) else none
  match at' 0 with
  | some p => some p
  | none => match at' 1 with
    | some p => some p
    | none => at' 2

/-- A ring takes the epoch of its source (R174, R207). -/
def State.ringAccept (s : State) (key : Nat) : State :=
  s.setRing key { s.ring key with accepted := s.srcEpoch (s.ringSrc key) }

/-- A route whose entry is taken leaves the context it had for the one it joined at the check (R265). -/
def State.ctxSettle (s : State) (t i : Nat) : State :=
  let e := t * 4096 + i
  if s.conv.any fun p => p.2.routes.contains (ctxJoin + e) then
    { s with conv := s.conv.map fun p => (p.1, { p.2 with
        routes := (p.2.routes.filter (· != e)).map fun r => if r = ctxJoin + e then e else r }) }
  else s

/-- A route whose entry is taken: it accepts its source's epoch and is no longer suspended; a change of source is a change of
latency (R163, R165, R174, R181). A layer waits for its take line (R176), and shows nothing of a source that does not deliver (R225). A ring
store whose route is removed, or names a source that does not deliver, stops delivering (R172). `old` is the state before the take. -/
def State.routeTaken (s old : State) (t i : Nat) : State :=
  let on (u : State) : Bool := u.effIs (routeA t i) F.ROUTE_CFG_EN && u.routeSrc t i != 0xFFF
  let c := s.routeSrc t i
  let was := old.get (routeStatA t i) F.ROUTE_STAT_PATH
  let shed := s.is (routeStatA t i) F.ROUTE_STAT_SHED && on s
  let s := s.ctxSettle t i
  let s := if shed then s.puts (routeStatA t i) [(F.ROUTE_STAT_SUSPENDED, 0), (F.ROUTE_STAT_SUSPEND_CODE, 0)]
    else s.routeSettle t i
  let s := if t = 0 then
      let l := s.layer (i / 4) (i % 4)
      s.setLayer (i / 4) (i % 4) { l with
        fed := s.srcDelivers c, rerouted := l.rerouted || old.effRd (routeA 0 i) != s.effRd (routeA 0 i) }
    else s
  let s := if t = 2 && on old && !(on s && s.srcDelivers c) && s.effGet (storeA i) F.STORE_CFG_KIND == 1 then s.storeStops i else s
  let s := if t < 2 && on s && (srcIsSdi c || srcIsIp c) then s.ringAccept c else s
  if t < 2 && on s && !shed
      && (!on old || old.routeSrc t i != c || was != s.get (routeStatA t i) F.ROUTE_STAT_PATH) then s.latencyChange t i
  else s

/-! Bins of rings and stores (R191 to R193, R207). -/

/-- Indices of the buffers that a ring of fewer buffers keeps: the newest (R192). -/
def Ring.keepIdx (r : Ring) (n : Nat) : List Nat :=
  let age (i : Nat) : Nat := let b := r.bufs.getD i Buf.empty; if b.st = 0 then 0 else b.seq
  let sorted := (List.range r.bufs.length).foldl (fun l i => insKey (age i) (i, 0) l) []
  ((sorted.drop (sorted.length - n)).map (·.2.1)).foldl (fun l i => insAsc i l) []

/-- The Silo writes the tags of bins, at allocation and release (R187). -/
def State.tagBins (s : State) (l : List Nat) : State :=
  l.foldl (fun u bin => (u.stripeWrite (3277 * bin + 3276) 0
    (((List.range 512).map fun i => Config.binTag (512 * u.freeCtr + i)) ++ List.replicate 128 0)).tick) s

/-- Empty buffers over a list of bins, `per` for each (R188). -/
def freshBufs (n per : Nat) (l : List Nat) : List Buf :=
  (List.range n).map fun i => { Buf.empty with bins := (l.drop (i * per)).take per }

/-- A ring or store has new bins: their tags are written, and what undefined data they held is no more. -/
def State.binsTaken (s : State) (domain pulses key : Nat) (v : Nat × List Nat) : State :=
  let old := (s.binsOf key).2
  let s := (s.setBins key v).releaseBins domain pulses (old.filter fun b => !v.2.contains b)
  (s.modSilo fun x => { x with undef := x.undef.filter fun p => !v.2.contains p.1 }).tagBins (v.2.filter fun b => !old.contains b)

/-- A ring or store takes the bins reserved for it at a check, and those it gives up are free after `pulses` more frame pulses; `fresh` for a
store that is allocated anew, which then holds no frame (R193). In another format it keeps its last complete frame and the frame in progress in
the buffers it gives up (R177, R207); a smaller ring keeps its newest frames, and what a reader holds (R192). -/
def State.reBin (s : State) (domain pulses key : Nat) (v : Nat × List Nat) (fresh : Bool) : State :=
  let old := s.binsOf key
  let r := s.ring key
  let depth := if srcIsStore key then s.storeDepth (key - 0x600) else s.ringDepth key
  let per := v.2.length / max 1 depth
  let live := r.bufs.filter fun b => !b.gone
  let left := r.bufs.filter (·.gone)
  if fresh then
    ((s.binsTaken domain pulses key v).setRing key { r with
      bufs := freshBufs depth per v.2, delivering := false, capture := none }).siloStat key
  else if old.1 != v.1 || live.isEmpty then
    let keep := r.bufs.filter fun b => b.st == 1 || !b.readers.isEmpty || (b.st == 2 && b.seq == r.newest)
    ((s.binsTaken domain pulses key v).setRing key { r with
      bufs := freshBufs depth per v.2 ++ keep.map fun b => { b with gone := true } }).siloStat key
  else if v.2.length < old.2.length then
    let idx := { r with bufs := live }.keepIdx depth
    let kept := idx.map fun i => live.getD i Buf.empty
    let held := (List.range live.length).filter fun i => !idx.contains i
    let given := ((held.map fun i => live.getD i Buf.empty).filter fun b => !b.readers.isEmpty).map fun b => { b with gone := true }
    ((s.binsTaken domain pulses key (v.1, kept.flatMap (·.bins))).setRing key { r with bufs := kept ++ given ++ left }).siloStat key
  else
    let more := v.2.filter fun b => !old.2.contains b
    ((s.binsTaken domain pulses key v).setRing key { r with
      bufs := live ++ freshBufs (depth - live.length) per more ++ left }).siloStat key

/-- A surface allocated anew holds undefined data until the host writes it (R193). -/
def State.surfaceAnew (s : State) (key : Nat) : State :=
  let bins := (s.binsOf key).2
  (s.modSilo fun x => { x with undef := (x.undef.filter fun p => !bins.contains p.1) ++ bins.map fun b => (b, (s.freeCtr, [])) }).tick

/-- The bins reserved for the groups that are applying go to the rings and stores that now need them (R191). -/
def State.takeBins (s : State) (fresh : List Nat) : State :=
  let keys := s.needs.map (·.key)
  let mine := s.silo.reserved.filter fun p => s.applying.contains p.1 && keys.contains p.2.1
  let s := s.modSilo fun x => { x with reserved := x.reserved.filter fun p => !(mine.contains p) }
  mine.foldl (fun u p =>
    u.reBin (u.get (cgB p.1) F.CG_CFG_DOMAIN) 2 p.2.1 p.2.2 (fresh.contains p.2.1)) s

/-- The bins that a cut-off has allocated for rings that KEEP holds go to them at that frame's pulse, with their source's epoch (R207;
DEDUCED, log 81). -/
def State.takeKept (s : State) (domain : Nat) : State :=
  let mine := s.silo.reserved.filter fun p => p.1 == 72 + domain
  let s := s.modSilo fun x => { x with reserved := x.reserved.filter fun p => p.1 != 72 + domain }
  mine.foldl (fun u p => ((u.reBin domain 2 p.2.1 p.2.2 false).ringAccept p.2.1).siloStat p.2.1) s

/-- The bins that a re-check has allocated for a ring or store go to it when the first of its routes resumes (R207). -/
def State.takeOld (s : State) (domain key : Nat) : State :=
  match s.silo.reserved.find? fun p => p.1 == 64 && p.2.1 == key with
  | some p => (s.modSilo fun x => { x with reserved := x.reserved.filter fun q => !(q.1 == 64 && q.2.1 == key) }).reBin domain 1 key p.2.2 false
  | none => s

/-- What is due for a route at its switching line, its transmit frame start or, of a store route, the frame pulse: a resumption under R174 or
R183, or the stop of a shed route (R183). Fallback and return have commands of their own. -/
def State.routeDue (s : State) (t i : Nat) : State :=
  let x := s.route t i
  let a := routeStatA t i
  match x.due with
  | 3 =>
    let c := s.routeSrc t i
    if s.is a F.ROUTE_STAT_SHED || x.epoch != s.srcEpoch c then s.setRoute t i { x with due := 0 }
    else
      let s := if t = 2 then s.takeOld (s.routeDomain t i) (0x600 + i)
        else if srcIsSdi c || srcIsIp c then (s.takeOld (s.dstDomain t i) c).ringAccept c else s
      let s := ((s.routeSettle t i).latencyChange t i).floorLive
      if t = 0 then s.setLayer (i / 4) (i % 4) { s.layer (i / 4) (i % 4) with fed := !(s.route t i).lost } else s
  | 4 =>
    ((s.setRoute t i { x with due := 0 }).puts a [(F.ROUTE_STAT_PATH, 0), (F.ROUTE_STAT_FALLBACK, 0),
      (F.ROUTE_STAT_SOURCE_OK, 0)])
  | _ => s

/-! IP receive and transmit context words. -/

/-- Context of a receive or transmit table that an address lies in (R358). -/
def ctxOf (tx : Bool) (a : Nat) : Option Nat :=
  let p := pageOf a
  if dieOf a = 0 ∧ 0x100 ≤ p ∧ p < 0x140 then
    let k := p % 16
    let base := if tx then 8 else 4
    if base ≤ k ∧ k < base + 4 then some ((p - 0x100) / 16 * 256 + (k - base) * 64 + offOf a / 64) else none
  else none

/-- Secure channel of an address: port and channel (R361). -/
def scOf (a : Nat) : Option (Nat × Nat) :=
  let p := pageOf a
  let o := offOf a
  if dieOf a = 0 ∧ 0x100 ≤ p ∧ p < 0x140 ∧ p % 16 = 2 then
    if 0x100 ≤ o ∧ o < 0x500 then some ((p - 0x100) / 16, (o - 0x100) / 32)
    else if 0x800 ≤ o ∧ o < 0xC00 then some ((p - 0x100) / 16, (o - 0x800) / 32) else none
  else none

/-- A transmit context has frames of its own: it is enabled and of TYPE 1 or 4 (R332, R342). -/
def txFramed (w : Word) : Bool := bitN w.toNat 31 && (w.toNat % 8 == 1 || w.toNat % 8 == 4)

/-- TX_CFG that a context will have when the groups that are applying are taken. -/
def State.txPlanned (s : State) (c : Nat) : Word :=
  s.applying.foldl (fun w n => match (s.grp n).staging.find? fun p => p.1 == txA c with
    | some p => p.2
    | none => w) (s.effRd (txA c))

/-- A word waits for the first transmit frame start of a context: a word of the context or of its route (R176, R332). -/
def State.waitsTx (s : State) (a : Nat) : Bool :=
  let c := match ctxOf true a with
    | some c => some c
    | none => match routeOf a with
      | some (1, i) => some i
      | _ => none
  match c with
  | some c => txFramed (s.effRd (txA c)) || txFramed (s.txPlanned c)
  | none => false

/-- An address belongs to transmit context c or its route. -/
def txWord (c a : Nat) : Bool := ctxOf true a == some c || a == routeA 1 c

end Sys2Proof.Machine
end

