-- ==== Sys2Proof/Machine/MacSec.lean ====
section
/-! DEFINITION. Frames on the media ports: Ethernet, IPv4 and UDP, RTP headers, MACsec protection and validation (R327, R329, R333,
R351 to R355). The layouts of IEEE 802.1AE, IPv4, UDP and RTP are PRESUMED from those standards, which the spec names. -/

namespace Sys2Proof.Machine

/-- Byte `i` of a frame as a number; 0 past its end. -/
def byteAt (l : List Byte) (i : Nat) : Nat := (l.getD i 0).toNat
/-- Big-endian number of `n` bytes at `i`. -/
def beAt (l : List Byte) (i n : Nat) : Nat := ofBe ((l.drop i).take n)

/-- A free value of `n` bits (Config.freeValue at the counter, which advances). -/
def State.free (s : State) (n : Nat) : State × Nat := (s.tick, (Config.freeValue s.freeCtr).toNat % 2 ^ n)

/-- The port's MAC address as a number, first byte sent most significant (R359). -/
def State.portMac (s : State) (n : Nat) : Nat :=
  ofBe (leBytes 4 (s.get (ipB n 0) F.MAC_LO_BYTES) ++ leBytes 2 (s.get (ipB n 0) F.MAC_HI_BYTES))

/-- The port has its link and runs (R326). -/
def State.portUp (s : State) (n : Nat) : Bool := s.is (ipB n 0) F.PORT_STAT_LINK && !s.is (ipB n 0) F.STAT_STOPPED

/-! MACsec (R351 to R355). -/

/-- Slot, AN and VALID of association j of a channel (R361). -/
def State.saSlot (s : State) (n c j : Nat) : Nat := s.effGet (scB n c) (if j = 0 then F.SC_SA_SA0_SLOT else F.SC_SA_SA1_SLOT)
def State.saAn (s : State) (n c j : Nat) : Nat := s.effGet (scB n c) (if j = 0 then F.SC_SA_SA0_AN else F.SC_SA_SA1_AN)
def State.saValid (s : State) (n c j : Nat) : Bool := s.effIs (scB n c) (if j = 0 then F.SC_SA_SA0_VALID else F.SC_SA_SA1_VALID)

/-- An entry is dead after an uncorrectable table word (R357). -/
def deadKey (n array i : Nat) : Nat := n * 4096 + array * 1024 + i
def State.entryDead (s : State) (n array i : Nat) : Bool := s.ip.dead.contains (deadKey n array i)

/-- The channel exists in effect. -/
def State.scOn (s : State) (n c : Nat) : Bool := s.effIs (scB n c) F.SC_CFG_EN && !s.entryDead n 2 c

/-- SCI of a channel, and its salt and SSCI (R361). -/
def State.scSci (s : State) (n c : Nat) : Nat := s.effGet (scB n c) F.SCI_HI_VALUE * 2 ^ 32 + s.effGet (scB n c) F.SCI_LO_VALUE
def State.scSalt (s : State) (n c j : Nat) : Nat :=
  let b := ipB n 2 + 0x800 + 32 * c + 12 * j
  (s.effRd b).toNat + (s.effRd (b + 4)).toNat * 2 ^ 32 + (s.effRd (b + 8)).toNat * 2 ^ 64

/-- Initialisation vector of a packet number (IEEE 802.1AE). -/
def State.scIv (s : State) (n c j pn : Nat) : List Byte :=
  if s.effIs (scB n c) F.SC_CFG_XPN then
    beBytes 12 ((s.effGet (scB n c) F.SSCI_VALUE * 2 ^ 64 + pn) ^^^ s.scSalt n c j)
  else beBytes 8 (s.scSci n c) ++ beBytes 4 pn

/-- PN of a channel's page: the next transmit, or the highest accepted, packet number (R361). -/
def State.pnRefresh (s : State) (n c j : Nat) : State :=
  let a := s.assoc n c j
  let v := if s.effIs (scB n c) F.SC_CFG_DIR then a.pn else a.pn - 1
  let b := ipB n 2 + 0x800 + 32 * c
  (s.put b F.PN_LO_VALUE (v % 2 ^ 32)).put b F.PN_HI_VALUE (if s.effIs (scB n c) F.SC_CFG_XPN then v / 2 ^ 32 else 0)

/-- Protect a frame under a transmit channel (R353): none where it is discarded. -/
def State.protect (s : State) (n c : Nat) (f : List Byte) : State × Option (List Byte) :=
  let j := s.effGet (scB n c) F.SC_CFG_CUR_SA
  let a := s.assoc n c j
  let xpn := s.effIs (scB n c) F.SC_CFG_XPN
  if !s.scOn n c || !s.saValid n c j || a.key.isEmpty || a.exhausted then
    if s.effIs (scB n c) F.SC_CFG_POLICY then (s, some f) else (s.bump (scB n c) F.SC_DROPS_COUNT, none)
  else
    let user := f.drop 12
    let sl := if user.length < 48 then user.length else 0
    let tag := beBytes 2 0x88E5 ++ beBytes 1 (0x2C + s.saAn n c j) ++ beBytes 1 sl ++ beBytes 4 (a.pn % 2 ^ 32)
      ++ beBytes 8 (s.scSci n c)
    let head := f.take 12 ++ tag
    let r := Config.gcmEncrypt a.key (s.scIv n c j a.pn) head user
    let last := if xpn then 2 ^ 64 - 1 else 2 ^ 32 - 1
    let low := if xpn then 0xC000000000000000 else 0xC0000000
    let done := a.pn == last
    let s := s.setAssoc n c j { a with pn := if done then a.pn else a.pn + 1, exhausted := done }
    let s := if low < a.pn + 1 ∧ !s.is (scB n c) F.SC_STAT_PN_LOW then
        (s.put (scB n c) F.SC_STAT_PN_LOW 1).ipCauseAt n 19 c else s
    let s := if done then (s.put (scB n c) F.SC_STAT_EXHAUSTED 1).ipCauseAt n 20 c else s
    (s.pnRefresh n c j, some (head ++ r.1 ++ r.2))

/-- What the receive side makes of a SecTAG (R354). -/
inductive MsResult where
  | ok (f : List Byte)
  | noChannel
  | icvFail
  | replay
deriving DecidableEq, Repr

/-- The full packet number of a received one (R351, IEEE 802.1AE). -/
def fullPn (xpn : Bool) (next low : Nat) : Nat :=
  if xpn then
    let hi := next / 2 ^ 32
    (if bitN next 31 && !bitN low 31 then hi + 1 else hi) * 2 ^ 32 + low
  else low

/-- Validate a received frame with a SecTAG (R354): the channel that matched, its association, and the result. -/
def State.msCheck (s : State) (n : Nat) (f : List Byte) : Option (Nat × Nat) × MsResult × Nat :=
  let tci := byteAt f 14
  let sc := bitN tci 5
  let off := if sc then 28 else 20
  let sci := if sc then beAt f 20 8 else beAt f 6 6 * 2 ^ 16 + 1
  match (List.range 32).find? fun c => s.scOn n c && !s.effIs (scB n c) F.SC_CFG_DIR && s.scSci n c == sci with
  | none => (none, .noChannel, 0)
  | some c =>
    match [0, 1].find? fun j => s.saValid n c j && s.saAn n c j == tci % 4 with
    | none => (some (c, 2), .noChannel, 0)
    | some j =>
      let a := s.assoc n c j
      let pn := fullPn (s.effIs (scB n c) F.SC_CFG_XPN) a.pn (beAt f 16 4)
      let sl := byteAt f 15 % 64
      let body := f.drop off
      let len := if sl = 0 then body.length - 16 else sl
      if a.key.isEmpty then (some (c, j), .noChannel, pn)
      else if bitN tci 7 || !(bitN tci 3 && bitN tci 2) || body.length < len + 16 then (some (c, j), .icvFail, pn)
      else match Config.gcmDecrypt a.key (s.scIv n c j pn) (f.take off) (body.take len) ((body.drop len).take 16) with
        | none => (some (c, j), .icvFail, pn)
        | some user =>
          if pn = 0 ∨ pn + s.effGet (scB n c) F.REPLAY_WINDOW_FRAMES < a.pn then (some (c, j), .replay, pn)
          else (some (c, j), .ok (f.take 12 ++ user), pn)

/-- Row 3 of R327: validation, with its counts and causes; none where the frame is discarded. -/
def State.msReceive (s : State) (n : Nat) (f : List Byte) : State × Option (List Byte) :=
  let r := s.msCheck n f
  let p := ipB n 2
  let drop (u : State) : State := match r.1 with | some q => u.bump (scB n q.1) F.SC_DROPS_COUNT | none => u
  let ch := match r.1 with | some q => q.1 | none => 0
  match r.2.1, r.1 with
  | .ok g, some (c, j) =>
    let a := s.assoc n c j
    ((s.setAssoc n c j { a with pn := max a.pn (r.2.2 + 1) }).pnRefresh n c j, some g)
  | .icvFail, _ => ((drop (s.bump p F.CNT_MS_ICV_COUNT)).ipCauseAt n 17 ch, none)
  | .replay, _ => ((drop (s.bump p F.CNT_MS_REPLAY_COUNT)).ipCauseAt n 18 ch, none)
  | _, _ => (drop (s.bump p F.CNT_MS_NOSC_COUNT), none)

/-! Sending (R326, R329, R341, R359). -/

/-- A frame scheduled for a port, protected under a secure channel where one is named (R326, R353). -/
def State.portSend (s : State) (n : Nat) (sc : Option Nat) (f : List Byte) : State :=
  if !s.portUp n then s.bump (ipB n 0) F.CNT_TX_LINKDOWN_COUNT
  else
    let r := match sc with
      | some c => s.protect n c f
      | none => (s, some f)
    match r.2 with
    | some g => (r.1.emit (.eth n g)).bump (ipB n 0) F.CNT_TX_FRAMES_COUNT
    | none => r.1

/-- One's complement sum of 16-bit words, for the IPv4 header checksum. -/
def onesSum (l : List Byte) : Nat :=
  let t := (List.range (l.length / 2)).foldl (fun acc i => acc + beAt l (2 * i) 2) 0
  let t := t % 65536 + t / 65536
  65535 - (t % 65536 + t / 65536)

/-- Destination MAC address of an IPv4 address: RFC 1112 for a group; for a unicast address the spec gives no source of it, and it is
free (R364). -/
def State.ipMac (s : State) (ip : Nat) : State × Nat :=
  if 0xE0000000 ≤ ip ∧ ip < 0xF0000000 then (s, 0x01005E000000 + ip % 2 ^ 23) else s.free 48

/-- An Ethernet frame with an IPv4 UDP packet: the spec gives neither its identification, flags, time to live nor UDP checksum, which
are free. `tag`: PCP and VID. -/
def State.udpFrame (s : State) (n dst sport dport dscp : Nat) (tag : Option (Nat × Nat)) (payload : List Byte) :
    State × List Byte :=
  let m := s.ipMac dst
  let id := m.1.free 16
  let ttl := id.1.free 8
  let df := ttl.1.free 1
  let sum := df.1.free 16
  let ip0 := [0x45, BitVec.ofNat 8 (4 * dscp)] ++ beBytes 2 (28 + payload.length) ++ beBytes 2 id.2 ++ beBytes 2 (df.2 * 0x4000)
    ++ beBytes 1 ttl.2 ++ [0x11]
  let adr := beBytes 4 (s.get (ipB n 0) F.IP_ADDR_IPV4) ++ beBytes 4 dst
  let ck := onesSum (ip0 ++ adr)
  let vlan := match tag with
    | some (pcp, vid) => beBytes 2 0x8100 ++ beBytes 2 (pcp * 0x2000 + vid)
    | none => []
  (sum.1, beBytes 6 m.2 ++ beBytes 6 (s.portMac n) ++ vlan ++ beBytes 2 0x0800 ++ ip0 ++ beBytes 2 ck ++ adr
    ++ beBytes 2 sport ++ beBytes 2 dport ++ beBytes 2 (8 + payload.length) ++ beBytes 2 sum.2 ++ payload)

/-! Received frames. -/

/-- What a received frame is: EtherType after an optional tag, with VID, and the offset of what follows. -/
def ethKind (f : List Byte) : Nat × Option Nat × Nat :=
  if beAt f 12 2 = 0x8100 then (beAt f 16 2, some (beAt f 14 2 % 4096), 18) else (beAt f 12 2, none, 14)

/-- An IPv4 UDP packet: VID, source and destination addresses and ports, and the payload. -/
structure UdpPkt where
  vid : Option Nat
  src : Nat
  dst : Nat
  dport : Nat
  payload : List Byte
deriving DecidableEq, Repr

/-- The IPv4 UDP packet of a frame, without options and not fragmented (R323, R324). -/
def udpOf (f : List Byte) : Option UdpPkt :=
  let k := ethKind f
  let o := k.2.2
  let frag := beAt f (o + 6) 2 % 0x4000
  if k.1 = 0x0800 ∧ byteAt f o = 0x45 ∧ frag = 0 ∧ byteAt f (o + 9) = 17 ∧ o + 28 ≤ f.length then
    let len := beAt f (o + 24) 2
    if 8 ≤ len ∧ o + 20 + len ≤ f.length then
      some ⟨k.2.1, beAt f (o + 12) 4, beAt f (o + 16) 4, beAt f (o + 22) 2, (f.drop (o + 28)).take (len - 8)⟩
    else none
  else none

end Sys2Proof.Machine
end

