-- ==== Sys2Proof/Machine/IpRx.lean ====
section
/-! DEFINITION. Receive contexts of the media ports (R330 to R340): RTP packets, the sets that make a frame, losses, audio. The
payload layouts of RFC 4175 with ST 2110-20, of RFC 8331 and of AES67 are PRESUMED from those standards, which the spec names. -/

namespace Sys2Proof.Machine

/-- Receive context c beside its registers. -/
def State.irx (s : State) (c : Nat) : IpRx := tget IpRx.idle s.ip.rx c
def State.setIrx (s : State) (c : Nat) (x : IpRx) : State := s.modIp fun p => { p with rx := tset IpRx.idle p.rx c x }

/-- TYPE as it acts: 5–7 act as 0 (R363, R364). -/
def typeOf (w : Nat) : Nat := if w % 8 ≤ 4 then w % 8 else 0

/-- TYPE of a receive context that is enabled and alive; 0 for one that is not (R331, R357). -/
def State.rxType (s : State) (c : Nat) : Nat :=
  if s.effIs (rxA c) F.RX_CFG_EN && !s.entryDead (c / 256) 0 (c % 256) then typeOf (s.effRd (rxA c)).toNat else 0

/-- Leg x of a receive context is enabled. -/
def State.rxLegOn (s : State) (c x : Nat) : Bool := x == 0 || s.effIs (rxA c) F.RX_CFG_LEG_B_EN

/-- Words of leg x of a receive context: destination, source, configuration (R363). -/
def State.rxLeg (s : State) (c x k : Nat) : Nat := (s.effRd (rxA c + 0x10 + 12 * x + 4 * k)).toNat

/-- Leg x of context c matches a packet on port n (R333). -/
def State.legMatches (s : State) (n : Nat) (u : UdpPkt) (c x : Nat) : Bool :=
  let w := s.rxLeg c x 2
  s.rxType c != 0 && s.rxLegOn c x && w / 2 ^ 16 % 4 == n && s.rxLeg c x 0 == u.dst && w % 2 ^ 16 == u.dport
    && (s.rxLeg c x 1 == 0 || s.rxLeg c x 1 == u.src)
    && (!bitN w 30 || u.vid == some (w / 2 ^ 18 % 2 ^ 12))

/-- Receive contexts listed in effect. -/
def State.rxListed (s : State) : List Nat :=
  s.eff.filterMap fun p => match ctxOf false p.1 with
    | some c => if p.1 = rxA c ∧ bitN p.2.toNat 31 then some c else none
    | none => none

/-- The leg that a packet belongs to: context and leg. -/
def State.legOf (s : State) (n : Nat) (u : UdpPkt) : Option (Nat × Nat) :=
  (s.rxListed.flatMap fun c => [(c, 0), (c, 1)]).find? fun p => s.legMatches n u p.1 p.2

/-! RTP. -/

/-- An RTP packet: marker, 16-bit sequence number, timestamp, payload. -/
structure Rtp where
  marker : Bool
  seq : Nat
  ts : Nat
  payload : List Byte
deriving DecidableEq, Repr

/-- Parse an RTP packet: contributing sources, an extension and padding are passed over. -/
def rtpOf (l : List Byte) : Option Rtp :=
  let b0 := byteAt l 0
  let h := 12 + 4 * (b0 % 16)
  let h := if bitN b0 4 then h + 4 + 4 * beAt l (h + 2) 2 else h
  let pad := if bitN b0 5 then byteAt l (l.length - 1) else 0
  if l.length < 12 ∨ b0 / 64 ≠ 2 ∨ l.length < h + pad then none
  else some ⟨bitN (byteAt l 1) 7, beAt l 2 2, beAt l 4 4, (l.drop h).take (l.length - h - pad)⟩

/-- The number at or nearest to `ref` that ends in `low` modulo 2^bits. -/
def extendSeq (bits : Nat) (ref : Option Nat) (low : Nat) : Nat :=
  match ref with
  | none => 2 ^ bits + low
  | some r =>
    let m := 2 ^ bits
    let d := (low + m - r % m) % m
    if d < m / 2 then r + d else if m ≤ r + d then r + d - m else r + d

/-- Video format of a receive context: format word (R363). -/
def State.rxFmtWord (s : State) (c : Nat) : Nat := (s.effRd (rxA c + 4)).toNat

/-- Bytes and pixels of a pixel group (ST 2110-20). -/
def pgroup (sampling : Nat) (d12 : Bool) : Nat × Nat :=
  if sampling = 0 then (if d12 then (6, 2) else (5, 2)) else (if d12 then (9, 2) else (15, 4))

/-- Sample row headers: length, field bit, row, offset; with the bytes they take. `fuel` bounds their number. -/
def srdHeaders : Nat → List Byte → List (Nat × Nat × Nat × Nat) × Nat
  | 0, _ => ([], 0)
  | fuel + 1, l =>
    let row := beAt l 2 2
    let off := beAt l 4 2
    let h := (beAt l 0 2, row / 2 ^ 15, row % 2 ^ 15, off % 2 ^ 15)
    if off / 2 ^ 15 = 0 then ([h], 6)
    else
      let r := srdHeaders fuel (l.drop 6)
      (h :: r.1, r.2 + 6)

/-- Picture line of a row of a field (R565): a progressive or PsF picture is carried in one set. -/
def rowLine (fmt row field : Nat) : Nat :=
  if scanOf fmt = 1 then 2 * row + (fieldParity fmt field).toNat else row

/-- The segments of a video packet, or none where they do not fit RX_FMT (R334). -/
def videoPart (w : Nat) (l : List Byte) : Option RxPart :=
  let fmt := w % 256
  let a := activeOf fmt
  let pg := pgroup (w / 2 ^ 12 % 4) (bitN w 14)
  let rows := if scanOf fmt = 1 then a.2 / 2 else a.2
  let r := srdHeaders 8 (l.drop 2)
  let body := l.drop (2 + r.2)
  let fits := (r.1.all fun h => h.1 != 0 && h.1 % pg.1 == 0 && h.2.2.2 % pg.2 == 0 && h.2.2.1 < rows
      && h.2.2.2 + h.1 / pg.1 * pg.2 ≤ a.1 && (scanOf fmt == 1 || h.2.1 == 0))
    && sumN (r.1.map (·.1)) ≤ body.length
  if fits then
    some ⟨(r.1.map (·.2.1)).headD 0,
      (r.1.foldl (fun (acc : List (Nat × Nat × List Byte) × List Byte) h =>
        (acc.1 ++ [(rowLine fmt h.2.2.1 h.2.1, h.2.2.2 / pg.2 * pg.1, acc.2.take h.1)], acc.2.drop h.1)) ([], body)).1, []⟩
  else none

/-- Values of `n` bits from big-endian bytes. -/
def unpackBe (n count : Nat) (l : List Byte) : List Nat :=
  let v := ofBe l
  let total := 8 * l.length
  (List.range count).map fun i => v / 2 ^ (total - n * (i + 1)) % 2 ^ n

/-- Samples of a line in the order of R189 from its pixel groups: R′G′B′ goes on the network as R, G, B. -/
def lineSamples (w : Nat) (l : List Byte) : List Nat :=
  let depth := if bitN w 14 then 12 else 10
  let sm := w / 2 ^ 12 % 4
  let v := unpackBe depth (8 * l.length / depth) l
  if sm < 2 then v
  else (List.range (v.length / 3)).flatMap fun i => [v.getD (3 * i + 1) 0, v.getD (3 * i + 2) 0, v.getD (3 * i) 0]

/-- Bytes of an active line on the network. -/
def wireLine (w : Nat) : Nat :=
  let pg := pgroup (w / 2 ^ 12 % 4) (bitN w 14)
  (activeOf (w % 256)).1 / pg.2 * pg.1

/-- Pixel groups of a line from its samples in the order of R189: the inverse of `lineSamples`. -/
def lineBytes (w : Nat) (l : List Nat) : List Byte :=
  let depth := if bitN w 14 then 12 else 10
  let v := if w / 2 ^ 12 % 4 < 2 then l
    else (List.range (l.length / 3)).flatMap fun i => [l.getD (3 * i + 2) 0, l.getD (3 * i) 0, l.getD (3 * i + 1) 0]
  let n := wireLine w
  beBytes n (v.foldl (fun acc x => acc * 2 ^ depth + x % 2 ^ depth) 0 * 2 ^ (8 * n - depth * v.length))

/-! Ancillary data (TYPE 4, RFC 8331). -/

/-- Ancillary packets of an RTP payload; each is padded to 32 bits. `fuel` bounds them. -/
def ancPackets : Nat → List Byte → List AncPkt
  | 0, _ => []
  | fuel + 1, l =>
    if l.length < 8 then []
    else
      let did := beAt l 4 2 / 64 % 256
      let sdid := beAt l 5 2 / 16 % 256
      let dc := beAt l 6 2 / 4 % 256
      let n := 4 + dc
      let words := unpackBe 10 n ((l.drop 4).take ((10 * n + 7) / 8))
      ⟨BitVec.ofNat 8 did, BitVec.ofNat 8 sdid, bitN did 7, beAt l 0 4 / 2 ^ 20 % 2 ^ 11, beAt l 0 4 / 2 ^ 8 % 2 ^ 12 != 0xFFE,
        ((words.drop 3).take dc).map fun v => BitVec.ofNat 8 v⟩ :: ancPackets fuel (l.drop (4 + (10 * n + 31) / 32 * 4))

/-- The part of a TYPE 4 packet: field bits 0b10 and 0b11 name the fields of an interlaced format. -/
def ancPart (l : List Byte) : RxPart :=
  ⟨(if byteAt l 5 / 64 = 2 then 0 else 1), [], ancPackets (byteAt l 4) (l.drop 8)⟩

/-! Status, legs and losses (R334, R335, R339, R340). -/

/-- Live bits of a port's events (R366). -/
def State.ipLive (s : State) (n : Nat) : State :=
  let cs := s.rxListed.filter fun c => c / 256 == n
  let s := s.live (ipB n 0) 0 (!s.is (ipB n 0) F.PORT_STAT_LINK)
  let s := s.live (ipB n 0) 1 (cs.any fun c => s.get (rxA c) F.RX_STAT_STATE == 3)
  let s := s.live (ipB n 0) 3 (cs.any fun c => (s.irx c).lost != 0)
  s.live (ipB n 0) 4 (s.is (ipB n 1) F.PTP_CFG_EN && s.get (ipB n 1) F.PTP_STAT_STATE != 3)

/-- LEGA_OK and LEGB_OK of a context (R340). -/
def State.legsRefresh (s : State) (c : Nat) : State :=
  let on := s.get (rxA c) F.RX_STAT_STATE == 2
  let x := s.irx c
  (s.puts (rxA c) [(F.RX_STAT_LEGA_OK, b2n (on && !bitN x.lost 0)),
    (F.RX_STAT_LEGB_OK, b2n (on && s.rxLegOn c 1 && !bitN x.lost 1))]).ipLive (c / 256)

/-- A context becomes receiving (R335). -/
def State.rxStart (s : State) (c : Nat) : State :=
  if s.get (rxA c) F.RX_STAT_STATE = 2 then s
  else (((s.put (rxA c) F.RX_STAT_STATE 2).setIrx c { s.irx c with lost := 0 }).legsRefresh c).ipCauseAt (c / 256) 5 c

/-- MAX_US as it acts (R339). -/
def State.maxUs (s : State) (c : Nat) : Nat := min 10000 (s.effGet (rxA c) F.RX_SKEW_MAX_US)

/-- Lost packets of a leg. -/
def State.bumpLost (s : State) (c x n : Nat) : State :=
  if n = 0 then s else s.bump (rxA c) (if x = 0 then F.RX_LOST_LEGA else F.RX_LOST_LEGB) n

/-- The arrival of a packet on a leg: a lost leg is restored, the difference to the other leg's copy is taken (R340). -/
def State.legArrival (s : State) (c x n ts : Nat) : State :=
  let i := s.irx c
  let s := if bitN i.lost x then
      ((s.setIrx c { i with lost := setBit i.lost x false }).legsRefresh c).ipCauseAt (c / 256) 13 c
    else s
  let i := s.irx c
  let other := if x = 0 then i.seenB else i.seenA
  let i := if x = 0 then { i with seenA := ((n, ts) :: i.seenA).take 1024 } else { i with seenB := ((n, ts) :: i.seenB).take 1024 }
  match other.find? fun p => p.1 == n with
  | none => s.setIrx c i
  | some p =>
    let us := (ts - p.2 + (p.2 - ts)) / 1000
    let bLater := if x = 1 then decide (p.2 < ts) else decide (ts < p.2)
    let l := (ts, us, bLater) :: i.skews.filter fun q => ts < q.1 + 1000000000
    let top := l.foldl (fun (m : Nat × Bool) q => if m.1 < q.2.1 then q.2 else m) (us, bLater)
    let s := (s.setIrx c { i with skews := l }).puts (rxA c) [(F.RX_SKEW_STAT_SKEW_US, min 16383 top.1),
      (F.RX_SKEW_STAT_B_LATER, b2n top.2)]
    if s.maxUs c < top.1 then s.ipCauseAt (c / 256) 14 c else s

/-! Entry instants (R336). -/

/-- The latest number N × 2^32 + ts of a clock of rate `r` whose instant is not after `arrival` ns. -/
def rtpAbs (r ts arrival : Nat) : Int :=
  let now : Int := (arrival * r / 10 ^ 9 : Nat)
  let n := (now - (ts : Int)) / 2 ^ 32
  n * 2 ^ 32 + (ts : Int)

/-- A new timestamp gives a new entry instant (R336). -/
def State.rxEntry (s : State) (c r ts arrival : Nat) : State :=
  let i := s.irx c
  if i.ts = some ts then s
  else s.setIrx c { i with ts := some ts, entry := rtpAbs r ts arrival * 10 ^ 9 / (r : Int) }

/-! Sets of packets (R334, R338, R339). -/

/-- A packet of the open set gives its segments; the set's lines are counted as they become whole. -/
def State.rxFeed (s : State) (c n : Nat) (p : RxPart) : State :=
  let w := s.rxFmtWord c
  let need := wireLine w
  let i := s.irx c
  let s := s.setIrx c { i with field := p.field, anc := if p.anc.isEmpty then i.anc else i.anc ++ [(n, p.anc)] }
  p.segs.foldl (fun u g =>
    let i := u.irx c
    let l := tins g.2.1 g.2.2 ((tget [] i.rows g.1).filter fun q => q.1 != g.2.1)
    if i.whole.contains g.1 then u
    else u.setIrx c { i with
      rows := tset [] i.rows g.1 l
      whole := if need ≤ sumN (l.map fun q => q.2.length) then g.1 :: i.whole else i.whole }) s

/-- Numbers from a to b. -/
def numRange (a b : Nat) : List Nat := if b < a then [] else (List.range (b - a + 1)).map (a + ·)

/-- Numbers of a range that a list lacks. -/
def lacking (a b : Nat) (l : List Nat) : Nat := ((numRange a b).filter fun n => !l.contains n).length

/-- A frame of a context is complete (R335). -/
def State.rxFrameDone (s : State) (c : Nat) : State := (s.bump (rxA c) F.RX_FRAMES_COUNT).rxStart c

/-- Picture lines of the open set: those of its field. -/
def setLines (fmt field : Nat) : List Nat :=
  let h := (activeOf fmt).2
  if scanOf fmt = 1 then (List.range (h / 2)).map fun r => rowLine fmt r field else List.range h

/-- The set from `a` to marker `m` ends: its lines reach the Silo in order, the missing ones flagged, its losses and those of the set before
are counted, and the next set opens. -/
def State.rxSetEnd (s : State) (c a m : Nat) : State :=
  let i := s.irx c
  let w := s.rxFmtWord c
  let s := s.bump (rxA c) F.RX_UNRECOV_PACKETS (lacking a m (i.gotA ++ i.gotB))
  let s : State := match i.prev with
    | some (p, q) =>
      let s := s.bumpLost c 0 (lacking p q i.gotA)
      if s.rxLegOn c 1 then s.bumpLost c 1 (lacking p q i.gotB) else s
    | none => s
  let s : State := if s.rxType c = 1 then
      (setLines (w % 256) i.field).foldl (fun u y =>
        let ok := i.whole.contains y
        u.siloLine (0x100 + c) ⟨y, 0, s.get (rxA c) F.RX_STAT_EPOCH, !ok,
          if ok then lineSamples w ((tget [] i.rows y).flatMap (·.2)) else [], true⟩) s
    else s
  let last : Bool := if s.rxType c = 1 then scanOf (w % 256) != 1 || i.field == 1 else i.field == 1
  let s := if last then
      (if s.rxType c = 4 then s.ancOffer (0x100 + c) (i.anc.flatMap (·.2)) else s).rxFrameDone c
    else s
  let i := s.irx c
  let next := i.markers.filter fun k => m < k
  let mine (n : Nat) : Bool := match next.head? with | some k => decide (n ≤ k) | none => true
  let feed := i.held.filter fun p => mine p.1
  let s := s.setIrx c { i with
    start := some (m + 1), markers := next, prev := some (a, m), rows := [], whole := []
    gotA := i.gotA.filter fun n => a ≤ n
    gotB := i.gotB.filter fun n => a ≤ n
    held := i.held.filter fun p => !mine p.1
    anc := if last then [] else i.anc }
  feed.foldl (fun u p => u.rxFeed c p.1 p.2) s

/-- Sets whose packets are all there end, one after another; `fuel` bounds them. -/
def State.rxSets : Nat → State → Nat → State
  | 0, s, _ => s
  | fuel + 1, s, c =>
    let i := s.irx c
    match i.start, i.markers.head? with
    | some a, some m =>
      if lacking a m (i.gotA ++ i.gotB) = 0 then State.rxSets fuel (s.rxSetEnd c a m) c else s
    | _, _ => s

/-- A new packet of a TYPE 1 or 4 context, by its number (R334). -/
def State.rxSetPacket (s : State) (c n : Nat) (marker : Bool) (p : RxPart) : State :=
  let i := s.irx c
  match i.start with
  | none => if marker then s.setIrx c { i with start := some (n + 1) } else s
  | some a =>
    if n < a then s
    else
      let i := if marker then { i with markers := insAsc n i.markers } else i
      let s := s.setIrx c i
      let mine : Bool := match i.markers.head? with | some k => decide (n ≤ k) | none => true
      let s := if mine then s.rxFeed c n p else s.setIrx c { i with held := i.held ++ [(n, p)] }
      State.rxSets (i.markers.length + 1) s c

/-! Audio (R337). -/

/-- Channels, bytes per sample and whether a context runs at 96 kHz. -/
def audShape (type u : Nat) : Nat × Nat × Bool :=
  (min 64 (u / 2 ^ 10 % 2 ^ 7), if type = 3 then 4 else if bitN u 18 then 2 else 3, type == 2 && bitN u 17)

/-- A sample's value from its bytes: L24, L16 left-justified, or the 24 bits of an AES3 subframe. -/
def audValue (w : Nat) (l : List Byte) : Int :=
  if w = 2 then sgn 24 (beAt l 0 2 * 256) else if w = 3 then sgn 24 (beAt l 0 3) else sgn 24 (beAt l 1 3)

/-- A sample enters the queue of a source code at `p` samples from its head; what lies before it is a gap until it comes. -/
def State.audPlace (s : State) (code p : Nat) (v : AudSmp) : State :=
  let put (q : List (AudSmp × Bool)) : List (AudSmp × Bool) :=
    if p < q.length then q.set p (v, false) else q ++ List.replicate (p - q.length) (⟨0, 0⟩, true) ++ [(v, false)]
  s.modAud fun a => { a with queue := tset [] a.queue code (put (tget [] a.queue code)) }

/-- The samples of an audio packet: late packets are discarded, those of an asynchronous stream enter in order (R337). The label bits of
a sample are those of its AES3 subframe; of a format that has none they are free (DESIGN CHOICE, log 79). -/
def State.rxAudio (s : State) (c ts arrival : Nat) (l : List Byte) : State :=
  let u := (s.effRd (rxA c + 8)).toNat
  let sh := audShape (s.rxType c) u
  let r := if sh.2.2 then 96000 else 48000
  let per := sh.1 * sh.2.1
  if per = 0 ∨ l.isEmpty ∨ l.length % per ≠ 0 then s.ipCauseAt (c / 256) 7 c
  else
    let count := l.length / per
    let abs := rtpAbs r ts arrival
    let k : Int := if sh.2.2 then 2 else 1
    let play := s.effGet (rxA c) F.RX_PLAY_PLAYOUT
    let i := s.irx c
    let anchor := i.anchor.getD (abs, (s.aud.count : Int) + (play : Int) - ((arrival * r / 10 ^ 9 : Nat) - abs) / k)
    let s := (s.setIrx c { i with anchor := some anchor }).rxStart c
    let base := 0xC00 + u % 2 ^ 10
    let code (ch j : Nat) : Nat :=
      if sh.2.2 then base + 2 * ch + ((abs + (j : Int)) % 2).toNat else base + ch
    let bytes (j ch : Nat) : List Byte := (l.drop (j * per + ch * sh.2.1)).take sh.2.1
    let label (j ch : Nat) : Nat :=
      if sh.2.1 = 4 then byteAt (bytes j ch) 0 else (Config.freeValue (s.freeCtr + j * sh.1 + ch)).toNat % 2 ^ 8
    let samples : List (Nat × Nat × AudSmp) := (List.range count).flatMap fun j => (List.range sh.1).map fun ch =>
      (j, code ch j, ⟨audValue sh.2.1 (bytes j ch), label j ch⟩)
    let s := { s with freeCtr := s.freeCtr + count * sh.1 }
    if s.is (rxA c) F.RX_STAT_ASYNC then
      samples.foldl (fun v p =>
        let q := tget [] v.aud.queue p.2.1
        v.audPlace p.2.1 (if q.isEmpty then play else q.length) p.2.2) s
    else
      let first := anchor.2 + (abs - anchor.1) / k
      if first < (s.aud.count : Int) then s.ipCauseAt (c / 256) 8 c
      else samples.foldl (fun v p =>
        v.audPlace p.2.1 (anchor.2 + (abs + (p.1 : Int) - anchor.1) / k - (s.aud.count : Int)).toNat p.2.2) s

/-- Losses of an audio stream, as each leg's numbers pass (R339). -/
def State.audLosses (s : State) (c x n : Nat) : State :=
  let i := s.irx c
  let mine := if x = 0 then i.gotA else i.gotB
  let other := if x = 0 then i.gotB else i.gotA
  let high (l : List Nat) : Nat := l.foldl max 0
  if mine.isEmpty ∨ n ≤ high mine + 1 then s
  else
    let gone := numRange (high mine + 1) (n - 1)
    let both := gone.filter fun m => !s.rxLegOn c 1 || (m < high other && !other.contains m)
    (s.bumpLost c x gone.length).bump (rxA c) F.RX_UNRECOV_PACKETS both.length

/-! Packets (R333, R334, R337 to R340). -/

/-- A packet on leg x of context c, at an arrival in ns. -/
def State.rxPacket (s : State) (c x arrival : Nat) (l : List Byte) : State :=
  match rtpOf l with
  | none => s.ipCauseAt (c / 256) 7 c
  | some r =>
    let t := s.rxType c
    let i := s.irx c
    let n := if t = 1 then extendSeq 32 i.high (beAt r.payload 0 2 * 2 ^ 16 + r.seq) else extendSeq 16 i.high r.seq
    let s := s.legArrival c x n arrival
    let dup := i.gotA.contains n || i.gotB.contains n
    let s := if t = 2 ∨ t = 3 then s.audLosses c x n else s
    let i := s.irx c
    let keep (g : List Nat) : List Nat := if t = 2 ∨ t = 3 then (n :: g).take 256 else n :: g
    let i := { i with high := some (max n (i.high.getD 0)) }
    let s := s.setIrx c (if x = 0 then { i with gotA := keep i.gotA } else { i with gotB := keep i.gotB })
    if dup then s
    else if t = 2 ∨ t = 3 then s.rxAudio c r.ts arrival r.payload
    else
      let s := s.rxEntry c 90000 r.ts arrival
      if t = 1 then
        match videoPart (s.rxFmtWord c) r.payload with
        | some p => s.rxSetPacket c n r.marker p
        | none => (s.ipCauseAt (c / 256) 7 c).rxSetPacket c n r.marker ⟨i.field, [], []⟩
      else s.rxSetPacket c n r.marker (ancPart r.payload)

/-- A receive context begins anew: nothing of its stream is kept (R335). -/
def State.rxClear (s : State) (c : Nat) : State :=
  s.setIrx c { IpRx.idle with entry := (s.irx c).entry }

end Sys2Proof.Machine
end

