-- ==== Sys2Proof/Machine/IpTx.lean ====
section
/-! DEFINITION. Transmit contexts of the media ports (R341 to R347), what a take does to contexts and secure channels (R332, R335, R352)
and the ports' checks (R331, R356). -/

namespace Sys2Proof.Machine

/-- TYPE of a transmit context that is enabled and alive (R331, R357). -/
def State.txType (s : State) (c : Nat) : Nat :=
  if s.effIs (txA c) F.TX_CFG_EN && !s.entryDead (c / 256) 1 (c % 256) then typeOf (s.effRd (txA c)).toNat else 0

/-- Leg x of a transmit context is enabled; word k of the leg: destination, UDP ports, configuration (R364). -/
def State.txLegOn (s : State) (c x : Nat) : Bool := x == 0 || s.effIs (txA c) F.TX_CFG_LEG_B_EN
def State.txLeg (s : State) (c x k : Nat) : Nat := (s.effRd (txA c + 0x14 + 12 * x + 4 * k)).toNat
/-- Format word and audio word of a transmit context. -/
def State.txFmtWord (s : State) (c : Nat) : Nat := (s.effRd (txA c + 4)).toNat
def State.txAudWord (s : State) (c : Nat) : Nat := (s.effRd (txA c + 8)).toNat

/-- Transmit contexts that are enabled in effect. -/
def State.txListed (s : State) : List Nat :=
  s.eff.filterMap fun p => match ctxOf true p.1 with
    | some c => if p.1 = txA c ∧ bitN p.2.toNat 31 then some c else none
    | none => none

/-! Charges (R343, R346, R347). -/

/-- B of R343: the largest whole number of pixel groups in 1,434 bytes. -/
def packetBytes (w : Nat) : Nat :=
  let pg := pgroup (w / 2 ^ 12 % 4) (bitN w 14)
  1434 / pg.1 * pg.1

/-- Active bytes of one field or frame on the network, and the packets that carry them. -/
def fieldBytes (w : Nat) : Nat := wireLine w * ((activeOf (w % 256)).2 / (if scanOf (w % 256) = 1 then 2 else 1))
def fieldPackets (w : Nat) : Nat := ceilDiv (fieldBytes w) (packetBytes w)
/-- Fields of a frame that are sent apart (R346). -/
def fieldsOf (w : Nat) : Nat := if scanOf (w % 256) = 1 then 2 else 1

/-- Samples per channel of a packet (R345), counted at the context's rate. -/
def audPacket (type u : Nat) : Nat := (if bitN u 19 then 6 else 48) * (if type = 2 ∧ bitN u 17 then 2 else 1)

/-- Charge of a leg in Mb/s, rounded up (R346). -/
def State.txCharge (s : State) (c x : Nat) : Nat :=
  let t := s.txType c
  let cfg := s.txLeg c x 2
  let h := (if bitN cfg 14 then 4 else 0) + (if bitN cfg 29 then 32 else 0)
  if t = 1 then
    let w := s.txFmtWord c
    let b := packetBytes w
    let r := rateOf (w / 256 % 16)
    ceilDiv (r.1 * fieldsOf w * fieldPackets w * (b + 92 + h) * 8) (r.2 * 10 ^ 6)
  else if t = 2 ∨ t = 3 then
    let u := s.txAudWord c
    let sh := audShape t u
    ceilDiv ((if bitN u 19 then 8000 else 1000) * (sh.1 * audPacket t u * sh.2.1 + 78 + h) * 8) (10 ^ 6)
  else if t = 4 then 10 else 0

/-- Sum of the charges of the enabled legs on a port (R347). -/
def State.portLoad (s : State) (n : Nat) : Nat :=
  sumN (s.txListed.map fun c => sumN ([0, 1].map fun x =>
    if s.txType c ≠ 0 ∧ s.txLegOn c x ∧ s.txLeg c x 2 % 4 = n then s.txCharge c x else 0))

/-- TX_CHARGE of a context and TX_LOAD of every port. -/
def State.loadRefresh (s : State) (c : Nat) : State :=
  (s.put (txA c) F.TX_CHARGE_MBPS (if s.txType c = 0 then 0 else s.txCharge c 0)).forAll (List.range 4) fun n u =>
    u.put (ipB n 0) F.TX_LOAD_MBPS (min 0x1FFFF (u.portLoad n))

/-! What a take does (R332, R335, R352). -/

/-- A word of an entry that is taken ends its fault (R357). -/
def State.revive (s : State) (n array i : Nat) : State :=
  s.modIp fun p => { p with dead := p.dead.filter (· != deadKey n array i) }

/-- A receive context is taken (R335). `old` is the state before. -/
def State.rxTaken (s old : State) (c : Nat) : State :=
  let s := s.revive (c / 256) 0 (c % 256)
  let was := old.rxType c
  let now := s.rxType c
  let a := rxA c
  if now = 0 then
    if was = 0 then s
    else (((s.put a F.RX_STAT_STATE 0).put a F.RX_STAT_ASYNC 0).rxClear c).sourceStops (0x100 + c) (s.srcDelivers (0x100 + c))
      |>.legsRefresh c
  else
    let en := was == 0
    let shape (u : State) : Nat × Word × Word := (u.rxType c, u.effRd (a + 4), u.effRd (a + 8))
    let anew := en || shape s != shape old
    let s := if en then (s.put a F.RX_STAT_STATE 1).put a F.RX_FRAMES_COUNT 0 else s
    let s := if anew then
        ((s.put a F.RX_STAT_EPOCH (s.get a F.RX_STAT_EPOCH + 1)).rxClear c).epochMoves (0x100 + c)
      else s
    s.legsRefresh c

/-- A transmit context is taken (R332, R342). -/
def State.txTaken (s old : State) (c : Nat) : State :=
  let s := s.revive (c / 256) 1 (c % 256)
  let now := s.txType c
  let s := if now ≠ 0 ∧ old.txType c = 0 then s.setItx c IpTx.idle else s
  let st := if now = 0 then 0 else if now = 1 then (if old.txType c = 1 then s.get (txA c) F.TX_STAT_STATE else 0) else 1
  (s.put (txA c) F.TX_STAT_STATE st).loadRefresh c

/-- A secure channel is taken: each association is bound anew, kept or given up (R352, R422). -/
def State.scTaken (s old : State) (n c : Nat) : State :=
  let s := s.revive n 2 c
  let s := s.forAll [0, 1] fun j u =>
    let a := u.assoc n c j
    let slot := u.saSlot n c j
    if !u.saValid n c j || !u.scOn n c then u.setAssoc n c j Assoc.none
    else if old.saValid n c j && old.scOn n c && old.saSlot n c j == slot && !a.key.isEmpty then u
    else if u.slotMay slot n then u.setAssoc n c j ⟨slot, u.slotKey slot, 1, false⟩
    else (u.setAssoc n c j ⟨slot, [], 1, false⟩).ipCauseAt n 21 c
  let j := if s.effIs (scB n c) F.SC_CFG_DIR then s.effGet (scB n c) F.SC_CFG_CUR_SA else 0
  let a := s.assoc n c j
  let low := if s.effIs (scB n c) F.SC_CFG_XPN then 0xC000000000000000 else 0xC0000000
  let tx := s.effIs (scB n c) F.SC_CFG_DIR
  ((s.puts (scB n c) [(F.SC_STAT_PN_LOW, b2n (tx && decide (low < a.pn))), (F.SC_STAT_EXHAUSTED, b2n (tx && a.exhausted))]).keyedRefresh
    n c).pnRefresh n c j

/-- Contexts and secure channels that a set of words names. -/
def ctxsOf (tx : Bool) (l : List (Nat × Word)) : List Nat := dedupN (l.filterMap fun p => ctxOf tx p.1)
def scsOf (l : List (Nat × Word)) : List (Nat × Nat) :=
  (dedupN (l.filterMap fun p => (scOf p.1).map fun q => q.1 * 32 + q.2)).map fun k => (k / 32, k % 32)

/-- What the ports do when words of theirs go into effect. -/
def State.ipTaken (s old : State) (l : List (Nat × Word)) : State :=
  let s := (scsOf l).foldl (fun u p => u.scTaken old p.1 p.2) s
  let s := (ctxsOf false l).foldl (fun u c => u.rxTaken old c) s
  (ctxsOf true l).foldl (fun u c => u.txTaken old c) s

/-! Checks (R331, R356). `s` is the planned state, `st` the staging set. -/

/-- Channel codes of an audio context: first and number (R337, R345). -/
def audCodes (type u : Nat) : Nat × Nat :=
  let sh := audShape type u
  (u % 2 ^ 10, sh.1 * (if sh.2.2 then 2 else 1))

/-- A context's parameters lie outside R331. -/
def badShape (tx : Bool) (type w u : Nat) : Bool :=
  let ch := u / 2 ^ 10 % 2 ^ 7
  if type = 1 then
    w / 2 ^ 12 % 4 == 3 || (rateClass (w % 256) (w / 256 % 16) (isHigh (w / 2 ^ 12 % 4) (bitN w 14))).isNone
  else if type = 2 ∨ type = 3 then
    let sh := audShape type u
    let n := if tx then audPacket type u else audPacket type (u ||| 2 ^ 19)
    ch == 0 || 64 < ch || (type == 3 && (ch % 2 == 1 || 32 < ch || bitN u 17)) || 1440 < ch * n * sh.2.1
      || 1024 < (audCodes type u).1 + (audCodes type u).2
  else type == 4 && 10 < w / 256 % 16

/-- Two enabled receive legs could match one frame (R333). -/
def State.legClash (s : State) (a x b y : Nat) : Bool :=
  let wa := s.rxLeg a x 2
  let wb := s.rxLeg b y 2
  wa / 2 ^ 16 % 4 == wb / 2 ^ 16 % 4 && s.rxLeg a x 0 == s.rxLeg b y 0 && wa % 2 ^ 16 == wb % 2 ^ 16
    && (s.rxLeg a x 1 == 0 || s.rxLeg b y 1 == 0 || s.rxLeg a x 1 == s.rxLeg b y 1)
    && !(bitN wa 30 && bitN wb 30 && wa / 2 ^ 18 % 2 ^ 12 != wb / 2 ^ 18 % 2 ^ 12)

/-- Legs of the enabled receive contexts. -/
def State.rxLegs (s : State) : List (Nat × Nat) :=
  (s.rxListed.filter fun c => s.rxType c != 0).flatMap fun c => if s.rxLegOn c 1 then [(c, 0), (c, 1)] else [(c, 0)]

/-- An audio context overlaps another of its direction in channel codes. -/
def State.codesOverlap (s : State) (tx : Bool) (c : Nat) : Bool :=
  let shape (k : Nat) : Nat × Nat := if tx then audCodes (s.txType k) (s.txAudWord k) else audCodes (s.rxType k) (s.effRd (rxA k + 8)).toNat
  let type (k : Nat) : Nat := if tx then s.txType k else s.rxType k
  let me := shape c
  (if tx then s.txListed else s.rxListed).any fun k =>
    k != c && (type k == 2 || type k == 3) && me.1 < (shape k).1 + (shape k).2 && (shape k).1 < me.1 + me.2

/-- The route of an enabled TYPE 1 transmit context differs from TX_FMT (R344). -/
def State.routeDiffers (s : State) (c : Nat) : Bool :=
  s.txType c == 1 && s.effIs (routeA 1 c) F.ROUTE_CFG_EN && s.routeSrc 1 c != 0xFFF
    && (match s.srcFmt (s.routeSrc 1 c), fmtOfWord (s.txFmtWord c) with
      | some f, some g => !(f.w == g.w && f.h == g.h && f.scan == g.scan && f.kind == g.kind && f.depth == g.depth)
      | _, _ => false)

/-- A transmit leg names a secure channel that is disabled or of the other direction. -/
def State.badSc (s : State) (c : Nat) : Bool :=
  [0, 1].any fun x =>
    let cfg := s.txLeg c x 2
    let n := cfg % 4
    let k := cfg / 2 ^ 24 % 32
    s.txLegOn c x && bitN cfg 29 && !(s.effIs (scB n k) F.SC_CFG_EN && s.effIs (scB n k) F.SC_CFG_DIR)

/-- A transmit context is refused with FORMAT_UNSUPPORTED (R356). -/
def State.txBadFormat (s : State) (c : Nat) : Bool :=
  let t := s.txType c
  let w := s.txFmtWord c
  t != 0 && (badShape true t w (s.txAudWord c) || s.routeDiffers c || s.badSc c
    || ((t == 2 || t == 3) && s.codesOverlap true c)
    || ((t == 1 || t == 4) && familyOf (w / 256 % 16) != s.get (tdB (s.effGet (txA c) F.TX_CFG_DOMAIN)) F.TD_CFG_FAMILY)
    || (t == 4 && s.txType (s.effGet (txA c) F.TX_LINK_CONTEXT) != 1))

/-- A receive context is refused with FORMAT_UNSUPPORTED (R356). -/
def State.rxBadFormat (s : State) (c : Nat) : Bool :=
  let t := s.rxType c
  t != 0 && (badShape false t (s.rxFmtWord c) (s.effRd (rxA c + 8)).toNat
    || ((t == 2 || t == 3) && s.codesOverlap false c)
    || ((if s.rxLegOn c 1 then [0, 1] else [0]).any fun x => s.rxLegs.any fun p =>
      !(p.1 == c && p.2 == x) && s.legClash c x p.1 p.2))

/-- The port whose page the ports' failure of a check names (R356): the first of the group's entries that fail. -/
def State.ipBad (s : State) (st : List (Nat × Word)) (code domain : Nat) : Option Nat :=
  let rxs := (ctxsOf false st).foldl (fun l c => insAsc c l) []
  let txs := (ctxsOf true st).foldl (fun l c => insAsc c l) []
  let scs := scsOf st
  let least (l : List Nat) : Option Nat := (l.foldl (fun l c => insAsc c l) []).head?
  if code = rcFormat then
    let linked := if scs.isEmpty then [] else s.txListed.filter s.badSc
    let routed := (st.filterMap fun p => match routeOf p.1 with | some (1, i) => some i | _ => none).filter s.routeDiffers
    let follow := (s.txListed.filter fun c => s.txType c == 4 && txs.contains (s.effGet (txA c) F.TX_LINK_CONTEXT)
      && s.txType (s.effGet (txA c) F.TX_LINK_CONTEXT) != 1)
    least (((rxs.filter s.rxBadFormat) ++ (txs.filter s.txBadFormat) ++ linked ++ routed ++ follow).map (· / 256))
  else if code = rcDomain then
    least ((txs.filter fun c => s.effGet (txA c) F.TX_CFG_DOMAIN != domain).map (· / 256))
  else if code = rcKey then
    least ((scs.filter fun p => s.effIs (scB p.1 p.2) F.SC_CFG_EN && [0, 1].any fun j =>
      s.saValid p.1 p.2 j && !s.slotMay (s.saSlot p.1 p.2 j) p.1).map (·.1))
  else if code = rcBandwidth then
    match (List.range 4).find? fun n => 97000 < s.portLoad n with
    | none => none
    | some n =>
      let on := txs.filter fun c => s.txType c != 0 && [0, 1].any fun x => s.txLegOn c x && s.txLeg c x 2 % 4 == n
      some ((match on.head? with | some c => c | none => ((rxs ++ txs).head?).getD 0) / 256)
  else none

/-! Sending (R341 to R345). -/

/-- An RTP packet of a context goes out on each of its legs (R341, R342). -/
def State.rtpSend (s : State) (c : Nat) (marker : Bool) (seq ts : Nat) (payload : List Byte) : State :=
  let rtp := [0x80] ++ beBytes 1 (128 * b2n marker + s.effGet (txA c) F.TX_CFG_PT) ++ beBytes 2 (seq % 2 ^ 16)
    ++ beBytes 4 (ts % 2 ^ 32) ++ beBytes 4 (s.effGet (txA c) F.TX_SSRC_VALUE) ++ payload
  s.forAll [0, 1] fun x u =>
    if u.txLegOn c x then
      let cfg := u.txLeg c x 2
      let udp := u.txLeg c x 1
      let n := cfg % 4
      let tag := if bitN cfg 14 then some (cfg / 2 ^ 15 % 8, cfg / 4 % 2 ^ 12) else none
      let f := u.udpFrame n (u.txLeg c x 0) (udp / 2 ^ 16) (udp % 2 ^ 16) (cfg / 2 ^ 18 % 64) tag rtp
      f.1.portSend n (if bitN cfg 29 then some (cfg / 2 ^ 24 % 32) else none) f.2
    else u

/-- Ten-bit words, most significant bit first, padded with zeros to `n` bytes. -/
def packBe10 (n : Nat) (l : List Nat) : List Byte :=
  beBytes n (l.foldl (fun acc v => acc * 1024 + v % 1024) 0 * 2 ^ (8 * n - 10 * l.length))

/-- A TYPE 4 payload of one ancillary packet (R345); `f` is the field code of RFC 8331. -/
def ancPayload (seqHigh f : Nat) (p : AncPkt) : List Byte :=
  let w := ancTens p
  let sum := w.foldl (fun n v => n + v % 512) 0 % 512
  let cs := sum + 512 * (1 - sum / 256)
  let n := (10 * (w.length + 1) + 31) / 32 * 4
  beBytes 2 seqHigh ++ beBytes 2 (n + 4) ++ [1] ++ beBytes 3 (f * 2 ^ 22)
    ++ beBytes 4 (p.line * 2 ^ 20 + (if p.vanc then 0xFFD else 0xFFE) * 2 ^ 8) ++ packBe10 n (w ++ [cs])

/-- The TYPE 4 contexts linked to a video context carry the ancillary data of a new source frame, one RTP packet for each
ancillary packet, with the marker on the last of a frame or field (R345). -/
def State.ancSend (s : State) (c ts ts2 : Nat) (l : List AncPkt) : State :=
  let fmt := s.txFmtWord c % 256
  let two := scanOf fmt == 1
  let half := totalLinesOf fmt / 2 + 1
  let sets : List (Nat × Nat × List AncPkt) :=
    if two then [(2, ts, l.filter fun p => p.line ≤ half), (3, ts2, l.filter fun p => half < p.line)] else [(0, ts, l)]
  (s.txListed.filter fun k => s.txType k == 4 && s.effGet (txA k) F.TX_LINK_CONTEXT == c).foldl (fun u k =>
    sets.foldl (fun u q =>
      (List.range q.2.2.length).foldl (fun v i =>
        let x := v.itx k
        match q.2.2[i]? with
        | some p => (v.rtpSend k (i + 1 == q.2.2.length) x.seq q.2.1 (ancPayload (x.seq / 2 ^ 16) q.1 p)).setItx k
            { x with seq := (x.seq + 1) % 2 ^ 32 }
        | none => v) u) u) s

/-- RTP timestamp, unreduced, of F_k plus `half` half periods (R342): k periods plus `dev` ns. -/
def rtpOfFrame (frate k half : Nat) (dev : Int) : Int :=
  let r := rateOf frate
  (((2 * k + half) * r.2 * 10 ^ 9 : Nat) + 2 * dev * (r.1 : Int)) * 90000 / ((2 * r.1 * 10 ^ 9 : Nat) : Int)

/-- OFFSET_NS as it acts (R342): at or above the frame period it acts as 0. -/
def State.txOffset (s : State) (c : Nat) : Nat :=
  let o := s.effGet (txA c) F.TX_TIME_OFFSET_NS
  let r := rateOf (s.txFmtWord c / 256 % 16)
  if r.2 * 10 ^ 9 ≤ o * r.1 then 0 else o

/-- TRO in ns (R343). -/
def State.txTro (s : State) (c : Nat) : Nat :=
  let t := s.effGet (txA c) F.TX_TRO_TRO_NS
  if t = 0 then Config.troDefault (s.txFmtWord c % 256) (s.txFmtWord c / 256 % 16) else t

/-- A source that has stopped has been repeated for as long as LOSS_MODE allows, or its ring has never held a frame (R205, R344). -/
def State.txHides (s : State) (c code : Nat) : Bool :=
  let x := s.reader (128 + c) code
  x.seq == 0 || (!s.srcDelivers code && s.is siloB F.SILO_CFG_LOSS_MODE
    && decide (max 1 (s.get siloB F.SILO_CFG_LOSS_FRAMES) ≤ x.repeats))

/-- The route of a video context shows a frame (R344). -/
def State.txShows (s : State) (c : Nat) : Bool :=
  let code := s.routeSrc 1 c
  let a := routeStatA 1 c
  s.routeActive 1 c && (match s.get a F.ROUTE_STAT_PATH with
    | 1 => !(s.route 1 c).lost || !s.txHides c code
    | 2 => if s.framed code then !s.txHides c code else srcIsStore code && s.effGet (storeA (code - 0x600)) F.STORE_CFG_KIND == 3
    | 3 => match allSlots.find? fun p => (s.ctx p.1 p.2).routes.contains (4096 + c) with
      | some p => !(s.ctx p.1 p.2).out.isEmpty && !(!s.srcDelivers code && s.is siloB F.SILO_CFG_LOSS_MODE
          && decide (max 1 (s.get siloB F.SILO_CFG_LOSS_FRAMES) ≤ (s.ctx p.1 p.2).hold))
      | none => false
    | _ => false)

/-- Ledger of an IP transmit route (R178, R179): `ts` is the unreduced timestamp, `part` the rest of F_k below it in ps. -/
def State.txLedger (s : State) (c : Nat) (ts part : Int) : Option Nat :=
  let code := s.routeSrc 1 c
  let a := routeStatA 1 c
  let ns (nines : Int) : Nat := (clampI 0 0xFFFFFFFE (roundDivI nines 9)).toNat
  if !s.routeActive 1 c || !s.is a F.ROUTE_STAT_SOURCE_OK then none
  else match s.get a F.ROUTE_STAT_PATH with
    | 1 => (s.floor.phases.find? fun p => p.1 == (128 + c) * 128 + code).map fun p =>
        (clampI 0 0xFFFFFFFE (roundDivI (p.2.1 - 1000 * (s.txTro c : Int) - part) 1000)).toNat
    | 2 =>
      let r := s.reader (128 + c) code
      if s.framed code && r.seq != 0 then some (ns (ts * 100000 - 9 * r.entry)) else none
    | 3 => match allSlots.find? fun p => (s.ctx p.1 p.2).routes.contains (4096 + c) with
      | none => none
      | some p =>
        let x := s.ctx p.1 p.2
        if x.out.isEmpty then none
        else if x.warm then x.shown.map fun u => ns (ts * 100000 - 9 * u)
        else some (s.get (ctxA p.1 p.2) F.CTX_DELAY_NS)
    | _ => none

/-- FL_IPLAT of a context for the frame that starts, with the entry instant it stands for (R178, R180). -/
def State.txLedgerSet (s : State) (c : Nat) (ts part : Int) : State :=
  let l := s.txLedger c ts part
  let s := s.wr (gPage 0x047 + 4 * c) (match l with | some n => BitVec.ofNat 32 n | none => 0xFFFFFFFF)
  let shown := match l with
    | some n => tset 0 s.floor.shown (4096 + c) (ts * 100000 / 9 - (n : Int))
    | none => s.floor.shown.filter fun p => p.1 != 4096 + c
  { s with floor := { s.floor with shown := shown, done := tset false s.floor.done (128 + c) true } }

/-- Ancillary data of the frame that a video context's route shows, with the frame's number. -/
def State.txAnc (s : State) (c : Nat) : Option (Nat × List AncPkt) :=
  let code := s.routeSrc 1 c
  match s.get (routeStatA 1 c) F.ROUTE_STAT_PATH with
  | 1 => some (0, s.srcAnc code)
  | 2 =>
    let r := s.reader (128 + c) code
    match r.buf.bind (s.ring code).find with
    | some b => if r.repeats = 0 then some (r.seq, b.anc) else none
    | none => none
  | 3 => match allSlots.find? fun p => (s.ctx p.1 p.2).routes.contains (4096 + c) with
    | some p => if (s.ctx p.1 p.2).hold = 0 then some (0, (s.ctx p.1 p.2).anc) else none
    | none => none
  | _ => none

/-- Bytes of black pixel groups (R106). -/
def blackBytes (w n : Nat) : List Byte :=
  let k := if bitN w 14 then 4 else 1
  let depth := if bitN w 14 then 12 else 10
  let pg := pgroup (w / 2 ^ 12 % 4) (bitN w 14)
  let unit := match w / 2 ^ 12 % 4 with
    | 0 => [512, 64, 512, 64]
    | 1 => [512, 64, 512]
    | _ => [64, 64, 64]
  let v := (List.range (8 * pg.1 / depth)).map fun i => k * unit.getD (i % unit.length) 0
  let one := beBytes pg.1 (v.foldl (fun acc x => acc * 2 ^ depth + x) 0)
  (List.range (n / pg.1)).flatMap fun _ => one

/-- Active line y of the frame that a video context sends: as received on the cut-through path, of the frame or frames of its reader, or of
its converter's frame; of a line that is missing or cannot be read, that of the frame before, or black (R35, R201, R203). A surface, which
the check of R344 refuses, gives none. -/
def State.txLine (s : State) (c y : Nat) : State × List Nat :=
  let code := s.routeSrc 1 c
  let r := s.reader (128 + c) code
  let q : State × Option (List Nat) :=
    if s.get (routeStatA 1 c) F.ROUTE_STAT_PATH = 3 then (s, (s.convOut 1 c)[y]?)
    else if s.onStored 1 c then
      match r.buf.bind (s.ring code).find, r.buf2.bind (s.ring code).find with
      | some b, some o => s.blendRead b o y
      | some b, none => s.readLine b y
      | none, _ => (s, none)
    else (s, none)
  let x := q.1.itx c
  let f := fmtOfWord (s.txFmtWord c)
  match q.2 with
  | some l => (q.1.setItx c { x with lines := tset [] x.lines y l }, l)
  | none => (q.1, match x.lines.find? fun p => p.1 == y with
    | some p => p.2
    | none => match f with | some g => g.blackWords | none => [])

/-- The data of a packet of a frame: `start` and `n` bytes of a field's lines one after another. -/
def State.txBytes (s : State) (c field start n : Nat) : State × List Byte :=
  let w := s.txFmtWord c
  let line := wireLine w
  let rows := (List.range (ceilDiv (start % line + n) (max 1 line))).map (start / line + ·)
  let q := rows.foldl (fun (acc : State × List Byte) r =>
    let l := acc.1.txLine c (rowLine (w % 256) r field)
    (l.1, acc.2 ++ lineBytes w l.2)) (s, [])
  (q.1, (q.2.drop (start % line)).take n)

/-- Packet j of a field: sample row headers, length of its data and whether it is the last (R343). -/
def videoHeaders (w j field : Nat) : List Byte × Nat × Bool :=
  let b := packetBytes w
  let total := fieldBytes w
  let line := wireLine w
  let pg := pgroup (w / 2 ^ 12 % 4) (bitN w 14)
  let start := j * b
  let n := min b (total - start)
  let f := if scanOf (w % 256) = 1 then field else 0
  let head (len row off more : Nat) : List Byte :=
    beBytes 2 len ++ beBytes 2 (f * 2 ^ 15 + row) ++ beBytes 2 (more * 2 ^ 15 + off / pg.1 * pg.2)
  let first := min n (line - start % line)
  let h := if first < n then head first (start / line) (start % line) 1 ++ head (n - first) (start / line + 1) 0 0
    else head first (start / line) (start % line) 0
  (h, n, decide (total ≤ start + n))

end Sys2Proof.Machine
end

