-- ==== Sys2Proof/Machine/IpPorts.lean ====
section
/-! DEFINITION. The commands of the media ports (chapter 10): frames, host queues, optics, links, transmit frames and packets, PTP. -/

namespace Sys2Proof.Machine

/-! Host queues (R328, R329). -/

/-- Bytes as the words of a window: byte 0 in bits 7–0 of the first. -/
def State.setWindow (s : State) (a words : Nat) (l : List Byte) : State :=
  s.forAll (List.range words) fun i u => u.wr (a + 4 * i) (BitVec.ofNat 32 (ofLe ((l.drop (4 * i)).take 4)))
/-- The first `n` bytes of a window. -/
def State.window8 (s : State) (a n : Nat) : List Byte :=
  ((List.range ((n + 3) / 4)).flatMap fun i => leBytes 4 (s.rd (a + 4 * i)).toNat).take n

/-- Frames waiting in the host receive queue of port n. -/
def State.hqr (s : State) (n : Nat) : List (List Byte × Nat) := tget [] s.ip.hqr n
/-- The queue's frames, with the head frame in its window (R365). -/
def State.setHqr (s : State) (n : Nat) (l : List (List Byte × Nat)) : State :=
  let b := ipB n 14
  let h := l.headD ([], 0)
  ((s.modIp fun p => { p with hqr := tset [] p.hqr n l }).puts b [(F.HQR_STAT_LEN, h.1.length),
    (F.HQR_STAT_COUNT, min 255 l.length), (F.HQR_TS_NS_VALUE, h.2 % 10 ^ 9), (F.HQR_TS_SEC_VALUE, h.2 / 10 ^ 9)]).setWindow
      (b + 0x800) 512 h.1

/-- A frame goes to the host receive queue (R328). -/
def State.hostQueue (s : State) (n ts : Nat) (f : List Byte) : State :=
  let l := s.hqr n
  if 2048 < f.length ∨ 32768 < sumN (l.map fun p => p.1.length) + f.length then
    (s.bump (ipB n 14) F.HQR_STAT_DROPS).ipCause n 22
  else s.setHqr n (l ++ [(f, ts)])

/-- HQR_POP (R328). -/
def execHqrPop (n : Fin 4) (s : State) : Host.Outcome State Fault Refusal :=
  .next (s.hostWrite 0 (s.setHqr n.val ((s.hqr n.val).drop 1)))

/-- HQT_SEND (R329). -/
def execHqtSend (n : Fin 4) (v : Word) (s : State) : Host.Outcome State Fault Refusal :=
  let b := ipB n.val 15
  .next (s.hostWrite 0 (
    if s.is b F.HQT_STAT_BUSY then s
    else
      let s := s.wr b (mergeWord (s.rd b) v 0x7FFFF)
      let len := s.get b F.HQT_CTRL_LEN
      if 60 ≤ len ∧ len ≤ 2048 then
        (s.puts b [(F.HQT_STAT_BUSY, 1), (F.HQT_STAT_TS_VALID, 0)]).modIp fun p => { p with
          hqt := tset [] p.hqt n.val (s.window8 (b + 0x800) len) }
      else s))

/-- HQT_SENT (R329). -/
def execHqtSent (n : Fin 4) (ts : Nat) (s : State) : Host.Outcome State Fault Refusal :=
  let b := ipB n.val 15
  .next (if s.is b F.HQT_STAT_BUSY then
      let sent := s.portUp n.val
      let sc := if s.is b F.HQT_CTRL_SC_EN then some (s.get b F.HQT_CTRL_SC) else none
      let s := s.portSend n.val sc (tget [] s.ip.hqt n.val)
      let s := (s.modIp fun p => { p with hqt := tset [] p.hqt n.val [] }).put b F.HQT_STAT_BUSY 0
      if s.is b F.HQT_CTRL_TS_REQ && sent then
        s.puts b [(F.HQT_TS_NS_VALUE, ts % 10 ^ 9), (F.HQT_TS_SEC_VALUE, ts / 10 ^ 9), (F.HQT_STAT_TS_VALID, 1)]
      else s
    else s)

/-! Received frames (R327). -/

/-- IPv4 destination address of a frame; none for another EtherType. -/
def ipDst (f : List Byte) : Option Nat :=
  let k := ethKind f
  if k.1 = 0x0800 then some (beAt f (k.2.2 + 16) 4) else none

/-- The frame goes to the host (R327, row 8). -/
def State.forHost (s : State) (n : Nat) (f : List Byte) : Bool :=
  let dst := beAt f 0 6
  let group := match ipDst f with
    | some ip => 0xE0000000 ≤ ip && ip < 0xF0000000 && (List.range 16).any fun i =>
        s.get (ipB n 0 + 4 * i) F.HOST_MCAST_GROUP == ip
    | none => false
  s.is (ipB n 0) F.HQ_CFG_RX_EN && (dst == s.portMac n || dst == 0xFFFFFFFFFFFF || group)

/-- Rows 5 to 9 of R327. The content of a PTP message comes with PTP_MESSAGE. -/
def State.ethRoute (s : State) (n ts : Nat) (f : List Byte) : State :=
  let dst := beAt f 0 6
  let drop := s.bump (ipB n 0) F.CNT_RX_FILTERED_COUNT
  if dst ≠ s.portMac n ∧ !bitN (byteAt f 0) 0 then drop
  else
    let u := udpOf f
    let ptp := match u with | some p => p.dport == 319 || p.dport == 320 | none => false
    let leg := match u with | some p => (s.legOf n p).map fun q => (q, p.payload) | none => none
    if ptp then s
    else match leg with
      | some (q, l) => s.rxPacket q.1 q.2 ts l
      | none => if s.forHost n f then s.hostQueue n ts f else drop

/-- ETH_FRAME_RECEIVED (R34, R327): a decrypted frame goes on from row 5. -/
def execEthFrameReceived (n : Fin 4) (f : EthFrame) (s : State) : Host.Outcome State Fault Refusal :=
  let p := ipB n.val 0
  let b := f.bytes
  .next (if !s.portUp n.val then s
    else if !f.fits then (s.bump p F.CNT_RX_OVERFLOW_COUNT).ipCause n.val 22
    else if !f.fcsOk || decide (b.length < 60) then s.bump p F.CNT_RX_FCS_COUNT
    else
      let s := s.bump p F.CNT_RX_FRAMES_COUNT
      if beAt b 12 2 = 0x8808 ∨ 9212 < b.length then s.bump p F.CNT_RX_FILTERED_COUNT
      else if s.is (ipB n.val 2) F.MS_CFG_EN then
        if beAt b 12 2 = 0x88E5 then
          let r := s.msReceive n.val b
          match r.2 with
          | some g => r.1.ethRoute n.val f.ts g
          | none => r.1
        else if beAt b 12 2 = 0x888E then s.hostQueue n.val f.ts b
        else if s.is (ipB n.val 2) F.MS_CFG_RX_REQUIRE then s.bump (ipB n.val 2) F.CNT_MS_UNPROT_COUNT
        else s.ethRoute n.val f.ts b
      else s.ethRoute n.val f.ts b)

/-! Receive contexts. -/

/-- RX_FRAME_TIMEOUT (R334): the open set, whose marker has arrived, ends with what it has. -/
def execRxFrameTimeout (c : Fin 1024) (s : State) : Host.Outcome State Fault Refusal :=
  let t := s.rxType c.val
  let i := s.irx c.val
  .next (if t = 1 ∨ t = 4 then
      match i.start, i.markers.head? with
      | some a, some m => State.rxSets (i.markers.length + 1) (s.rxSetEnd c.val a m) c.val
      | _, _ => s
    else s)

/-- RX_STREAM_LOST (R335). -/
def execRxStreamLost (c : Fin 1024) (s : State) : Host.Outcome State Fault Refusal :=
  .next (if s.rxType c.val ≠ 0 ∧ s.get (rxA c.val) F.RX_STAT_STATE = 2 then
      let s := ((s.puts (rxA c.val) [(F.RX_STAT_STATE, 3), (F.RX_STAT_ASYNC, 0)]).rxClear c.val).ipCauseAt (c.val / 256) 6 c.val
      (s.sourceStops (0x100 + c.val) true).legsRefresh c.val
    else s)

/-- LEG_TIMEOUT (R340). -/
def execLegTimeout (c : Fin 1024) (legB : Bool) (s : State) : Host.Outcome State Fault Refusal :=
  let x := if legB then 1 else 0
  let i := s.irx c.val
  .next (if s.get (rxA c.val) F.RX_STAT_STATE = 2 ∧ s.rxType c.val ≠ 0 ∧ s.rxLegOn c.val x ∧ !bitN i.lost x then
      ((s.setIrx c.val { i with lost := setBit i.lost x true }).legsRefresh c.val).ipCauseAt (c.val / 256) 12 c.val
    else s)

/-- RX_ASYNC_MEASURE (R337): ASYNC_TENTHS_PPM of 0 acts as 1. -/
def execRxAsyncMeasure (c : Fin 1024) (ppb : Int) (s : State) : Host.Outcome State Fault Refusal :=
  let t := s.rxType c.val
  let async := decide (100 * max 1 (s.get arB F.AR_CFG_ASYNC_TENTHS_PPM) < ppb.natAbs)
  .next (if (t = 2 ∨ t = 3) ∧ s.get (rxA c.val) F.RX_STAT_STATE = 2 then
      let was := s.is (rxA c.val) F.RX_STAT_ASYNC
      let s := s.put (rxA c.val) F.RX_STAT_ASYNC (b2n async)
      if async && !was then s.ipCauseAt (c.val / 256) 9 c.val else s
    else s)

/-! Optics and links (R325, R326). -/

/-- I²C transfers queued on a controller: ports 0 and 1 share controller 0, ports 2 and 3 controller 1. -/
def State.i2cQ (s : State) (n : Nat) : List (Nat × Nat) := tget [] s.ip.i2c (n / 2)

/-- OPT_TRANSFER_START (R325): transfers of a controller are served in the order of their GO writes. -/
def execOptTransferStart (n : Fin 4) (v : Word) (s : State) : Host.Outcome State Fault Refusal :=
  let b := ipB n.val 3
  .next (s.hostWrite 0 (
    let w := mergeWord (s.rd (b + 4)) v 0x1FFFF
    let q := s.i2cQ n.val ++ [(n.val, w.toNat)]
    ((s.wr (b + 4) w).put b F.OPT_STAT_BUSY 1).modIp fun p => { p with i2c := tset [] p.i2c (n.val / 2) q }))

/-- OPT_TRANSFER_DONE (R325). -/
def execOptTransferDone (n : Fin 4) (r : Option (List Byte)) (s : State) : Host.Outcome State Fault Refusal :=
  let b := ipB n.val 3
  .next (match s.i2cQ n.val with
    | (p, w) :: rest =>
      if p = n.val then
        let s := s.modIp fun p => { p with i2c := tset [] p.i2c (n.val / 2) rest }
        let s := s.puts b [(F.OPT_STAT_BUSY, b2n (rest.any fun q => q.1 == n.val)), (F.OPT_STAT_NACK, b2n r.isNone)]
        let len := clampN 1 128 (w / 2 ^ 8 % 2 ^ 8)
        match r with
        | none => s.ipCause n.val 4
        | some l =>
          if bitN w 16 then s.emit (.i2c n.val (w % 256) (s.window8 (b + 0x100) len))
          else s.setWindow (b + 0x100) 32 (l.take len ++ (s.window8 (b + 0x100) 128).drop (min len l.length))
      else s
    | [] => s)

/-- MOD_CHANGE (R325). -/
def execModChange (n : Fin 4) (present : Bool) (s : State) : Host.Outcome State Fault Refusal :=
  .next (if s.is (ipB n.val 0) F.PORT_STAT_MOD_PRESENT != present then
      (s.put (ipB n.val 0) F.PORT_STAT_MOD_PRESENT (b2n present)).ipCause n.val 2
    else s)

/-- MOD_INT (R325). -/
def execModInt (n : Fin 4) (asserted : Bool) (s : State) : Host.Outcome State Fault Refusal :=
  let was := s.is (ipB n.val 0) F.PORT_STAT_MOD_INT
  let t := s.put (ipB n.val 0) F.PORT_STAT_MOD_INT (b2n asserted)
  .next (if asserted && !was then t.ipCause n.val 3 else t)

/-- LINK_UP (R326). -/
def execLinkUp (n : Fin 4) (s : State) : Host.Outcome State Fault Refusal :=
  .next (if s.is (ipB n.val 0) F.PORT_STAT_LINK then s
    else ((s.puts (ipB n.val 0) [(F.PORT_STAT_LINK, 1), (F.PORT_STAT_ALIGNED, 1)]).ipLive n.val).ipCause n.val 0)

/-- LINK_DOWN (R326): the port's PTP candidate is inactive. -/
def execLinkDown (n : Fin 4) (aligned : Bool) (s : State) : Host.Outcome State Fault Refusal :=
  .next (if s.is (ipB n.val 0) F.PORT_STAT_LINK then
      let s := ((s.puts (ipB n.val 0) [(F.PORT_STAT_LINK, 0), (F.PORT_STAT_ALIGNED, b2n aligned)]).ipLive n.val).ipCause n.val 1
      if s.candActive (8 + n.val) then s.candLost (8 + n.val) else s
    else s.put (ipB n.val 0) F.PORT_STAT_ALIGNED (b2n aligned))

/-! Transmit contexts (R342 to R345). -/

/-- Words of a context and of its route that wait for its frame start go into effect (R176, R332). -/
def State.txTake (s : State) (c : Nat) : State :=
  let w := s.partWords (txWord c)
  if w.isEmpty then s
  else
    let old := s
    let t := (s.takePart (txWord c)).ipTaken old w
    let t := t.takeBins []
    let t := if w.any fun p => p.1 == routeA 1 c then
        ((t.routeTaken old 1 c).dropCtxs 1).dropRings (t.effGet (txA c) F.TX_CFG_DOMAIN) 1
      else t
    (t.sumsRefresh.floorLive).groupsDone

/-- The frame that a TYPE 1 context starts: media, black or nothing (R344). -/
def State.txFrame (s : State) (c k : Nat) (dev : Int) : State :=
  let w := s.txFmtWord c
  let fr := w / 256 % 16
  let d := dev + (s.txOffset c : Int)
  let ts := rtpOfFrame fr k 0 d
  let r := rateOf fr
  -- F_k less the timestamp's instant, in ps
  let part := ((k * r.2 * 10 ^ 9 : Nat) + d * (r.1 : Int)) * 1000 / (r.1 : Int) - ts * 100000000 / 9
  let s := (s.frameRoll 1 c).selectReaders [(1, c)]
  let st := if s.txShows c then 1 else if s.effIs (txA c) F.TX_CFG_IDLE then 3 else 2
  let was := s.get (txA c) F.TX_STAT_STATE
  let x := s.itx c
  let s := (s.setItx c { x with
    ts := (ts % 2 ^ 32).toNat, ts2 := (rtpOfFrame fr k 1 d % 2 ^ 32).toNat, sent := 0, what := st - 1 }).put (txA c) F.TX_STAT_STATE st
  let s := if st ≠ 1 ∧ was ≠ st then s.ipCauseAt (c / 256) 10 c else s
  let s := s.txLedgerSet c ts part
  if st = 1 then
    match s.txAnc c with
    | some (_, l) => s.ancSend c (s.itx c).ts (s.itx c).ts2 l
    | none => s
  else s.readersDone (128 + c)

/-- TX_FRAME_START (R342, R344): a take that waits for it is made first. -/
def execTxFrameStart (c : Fin 1024) (k : Nat) (dev : Int) (s : State) : Host.Outcome State Fault Refusal :=
  let s := (s.txTake c.val).routeDue 1 c.val
  .next (if s.txType c.val = 1 then s.txFrame c.val k dev else s)

/-- TX_PACKET_SEND (R343): a packet late on a leg in use counts once (log 83). After the last packet of its frame the context lets the frames it read go (R201). -/
def execTxPacketSend (c : Fin 1024) (lateA lateB : Nat) (s : State) : Host.Outcome State Fault Refusal :=
  let i := c.val
  let x := s.itx i
  let w := s.txFmtWord i
  let np := fieldPackets w
  .next (if s.txType i = 1 ∧ x.what ≠ 2 ∧ x.sent < np * fieldsOf w then
      let field := x.sent / np
      let h := videoHeaders w (x.sent % np) field
      let r := if x.what = 1 then (s, blackBytes w h.2.1) else s.txBytes i field (x.sent % np * packetBytes w) h.2.1
      let s := r.1.rtpSend i h.2.2 x.seq (if field = 0 then x.ts else x.ts2) (beBytes 2 (x.seq / 2 ^ 16) ++ h.1 ++ r.2)
      let s := s.setItx i { s.itx i with seq := (x.seq + 1) % 2 ^ 32, sent := x.sent + 1 }
      let s := if x.sent + 1 = np * fieldsOf w then s.readersDone (128 + i) else s
      if (s.txLegOn i 0 ∧ 1000 < lateA) ∨ (s.txLegOn i 1 ∧ 1000 < lateB) then (s.bump (txA i) F.TX_LATE_PACKETS).ipCauseAt (i / 256) 11 i else s
    else s)

/-- A sample as the packet carries it: the AES3 label bits of TYPE 3 are those of its source on a DATA destination (R300), otherwise
regenerated ones, which are free. -/
def State.audBytes (s : State) (w : Nat) (v : Int × Option Nat) : State × List Byte :=
  if w = 2 then (s, beBytes 2 (unsgn 24 v.1 / 256))
  else if w = 3 then (s, beBytes 3 (unsgn 24 v.1))
  else match v.2 with
    | some l => (s, beBytes 1 l ++ beBytes 3 (unsgn 24 v.1))
    | none =>
      let f := s.free 8
      (f.1, beBytes 1 f.2 ++ beBytes 3 (unsgn 24 v.1))

/-- TX_AUDIO_PACKET (R345). -/
def execTxAudioPacket (c : Fin 1024) (n : Nat) (s : State) : Host.Outcome State Fault Refusal :=
  let i := c.val
  let t := s.txType i
  let u := s.txAudWord i
  let sh := audShape t u
  let size := audPacket t u
  .next (if (t = 2 ∨ t = 3) ∧ n % size = 0 then
      let codes := audCodes t u
      let per := if sh.2.2 then size / 2 else size
      let get (d : Nat) : List (Int × Option Nat) :=
        let l := tget [] s.aud.ready d
        List.replicate (per - l.length) (0, none) ++ l.drop (l.length - per)
      let chan (k : Nat) : List (Int × Option Nat) :=
        let d := 0xC00 + codes.1 + (if sh.2.2 then 2 * k else k)
        if sh.2.2 then (List.range per).flatMap fun j => [(get d).getD j (0, none), (get (d + 1)).getD j (0, none)] else get d
      let cols := (List.range sh.1).map chan
      let vals := (List.range size).flatMap fun j => cols.map fun l => l.getD j (0, none)
      let r := vals.foldl (fun (acc : State × List Byte) v =>
        let q := acc.1.audBytes sh.2.1 v
        (q.1, acc.2 ++ q.2)) (s, [])
      let dests := (List.range codes.2).map fun k => 0xC00 + codes.1 + k
      let s := r.1.modAud fun a => { a with ready := dests.foldl (fun m d => tset [] m d []) a.ready }
      let x := s.itx i
      ((s.rtpSend i false x.seq n r.2).setItx i { x with seq := (x.seq + 1) % 2 ^ 32 }).rqRefresh
    else s)

/-! PTP (R348 to R350). -/

/-- The PTP instance of a port. -/
def Ptp.idle : Ptp := ⟨[], none, none, 0, none, 0⟩
def State.ptp (s : State) (n : Nat) : Ptp := tget Ptp.idle s.ip.ptp n
def State.setPtp (s : State) (n : Nat) (x : Ptp) : State := s.modIp fun p => { p with ptp := tset Ptp.idle p.ptp n x }

/-- A change of PTP_STAT.STATE (R349). -/
def State.ptpState (s : State) (n st : Nat) : State :=
  if s.get (ipB n 1) F.PTP_STAT_STATE = st then s
  else ((s.put (ipB n 1) F.PTP_STAT_STATE st).ipLive n).ipCause n 15

/-- Sender and port of the selected master. -/
def State.ptpParent (s : State) (n : Nat) : Nat × Nat :=
  (s.get (ipB n 1) F.PARENT_HI_ID * 2 ^ 32 + s.get (ipB n 1) F.PARENT_LO_ID, s.get (ipB n 1) F.PARENT_PORT_NUMBER)

/-- A sender takes part (R349). -/
def State.ptpAccepts (s : State) (n sender : Nat) : Bool :=
  let m := s.get (ipB n 1) F.ACCEPT_EN_BITS
  m == 0 || (List.range 4).any fun i => bitN m i
    && s.get (ipB n 1 + 8 * i) F.ACCEPT_HI_ID * 2 ^ 32 + s.get (ipB n 1 + 8 * i) F.ACCEPT_LO_ID == sender

/-- Data sets in the order in which the default algorithm compares them: the first is better when its list is less. -/
def annRank (a : Announce) : List Nat :=
  [a.prio1.toNat, a.cls.toNat, a.accuracy.toNat, a.variance.toNat, a.prio2.toNat, a.gm, a.steps, a.sender, a.port]
/-- Lexicographic order. -/
def rankLess : List Nat → List Nat → Bool
  | a :: l, b :: m => if a < b then true else if b < a then false else rankLess l m
  | _, _ => false

/-- The instance selects its master (R349); the candidate's class and accuracy are the selected master's (R121). -/
def State.ptpSelect (s : State) (n : Nat) : State :=
  let x := s.ptp n
  let best := x.masters.foldl (fun (b : Option Announce) a => match b with
    | none => some a
    | some c => if rankLess (annRank a) (annRank c) then some a else b) none
  match best with
  | none => ((s.setPtp n { x with sync := none, req := none, delay := none }).put (ipB n 1) F.PTP_STAT_TWO_STEP 0).ptpState n 1
  | some a =>
    let same := 2 ≤ s.get (ipB n 1) F.PTP_STAT_STATE ∧ s.ptpParent n = (a.sender, a.port)
    let s := if same then s
      else
        let s := (s.setPtp n { x with sync := none, req := none, delay := none }).puts (ipB n 1) [(F.PARENT_LO_ID, a.sender % 2 ^ 32),
          (F.PARENT_HI_ID, a.sender / 2 ^ 32), (F.PARENT_PORT_NUMBER, a.port), (F.PTP_STAT_TWO_STEP, 0)]
        (s.ipCause n 16).ptpState n 2
    ((s.puts (candB (8 + n)) [(F.CAND_PTP_CLOCK_CLASS, a.cls.toNat), (F.CAND_PTP_CLOCK_ACCURACY, a.accuracy.toNat)]).requal
      (8 + n)).tcRefresh

/-- A Sync with both its times gives an offset once the path delay is known (R349). -/
def State.ptpOffset (s : State) (n : Nat) : State :=
  let x := s.ptp n
  match x.sync, x.delay with
  | some (_, some t1, t2), some d =>
    let o := t2 - t1 - d - s.geti (ipB n 1) F.ASYM_NS
    ((s.setPtp n { x with mark := o }).puti (ipB n 1) F.OFFSET_NS (clampI (-2147483648) 2147483647 o)).ptpState n 3
  | _, _ => s

/-- PTP_MESSAGE (R348, R349). -/
def execPtpMessage (n : Fin 4) (m : PtpMsg) (s : State) : Host.Outcome State Fault Refusal :=
  let p := n.val
  let b := ipB p 1
  let on (d : Byte) (sender : Nat) : Bool :=
    s.is b F.PTP_CFG_EN && s.portUp p && d.toNat == s.get b F.PTP_CFG_DOMAIN && s.ptpAccepts p sender
  let parent (sender port : Nat) : Bool := decide (2 ≤ s.get b F.PTP_STAT_STATE) && s.ptpParent p == (sender, port)
  let x := s.ptp p
  .next (match m with
    | .announce d a =>
      if on d a.sender then
        (s.setPtp p { x with masters := a :: x.masters.filter fun q => !(q.sender == a.sender && q.port == a.port) }).ptpSelect p
      else s
    | .sync d sender port seq two t1 t2 =>
      if on d sender && parent sender port then
        let missed := match x.sync with | some q => (seq + 65535 - q.1 % 65536) % 65536 | none => 0
        let s := s.bump b F.PTP_CNT_SYNC_MISSED missed
        ((s.setPtp p { x with sync := some (seq, if two then none else some t1, t2) }).put b F.PTP_STAT_TWO_STEP (b2n two)).ptpOffset p
      else s
    | .followUp d sender port seq t1 =>
      if on d sender && parent sender port then
        match x.sync with
        | some (q, none, t2) => if q = seq then (s.setPtp p { x with sync := some (q, some t1, t2) }).ptpOffset p else s
        | _ => s
      else s
    | .delayResp d sender port seq t4 =>
      if on d sender && parent sender port then
        match x.req, x.sync with
        | some (q, t3), some (_, some t1, t2) =>
          if q = seq then
            let mean := ((t2 - t1) + (t4 - t3)) / 2
            ((s.setPtp p { x with req := none, delay := some mean }).puti b F.MEAN_DELAY_NS
              (clampI (-2147483648) 2147483647 mean)).ptpOffset p
          else s
        | _, _ => s
      else s)

/-- ANNOUNCE_TIMEOUT (R349): the candidate is inactive when its master is gone (R119). -/
def execAnnounceTimeout (n : Fin 4) (sender : Nat) (s : State) : Host.Outcome State Fault Refusal :=
  let p := n.val
  let x := s.ptp p
  .next (if x.masters.any fun a => a.sender == sender then
      let mine := decide (2 ≤ s.get (ipB p 1) F.PTP_STAT_STATE) && (s.ptpParent p).1 == sender
      let s := ((s.setPtp p { x with masters := x.masters.filter fun a => a.sender != sender }).bump (ipB p 1)
        F.PTP_CNT_ANN_TIMEOUTS).ptpSelect p
      if mine && s.candActive (8 + p) then s.candLost (8 + p) else s
    else s)

/-- DELAY_REQ (R348): multicast, or to the master with HYBRID = 1; the spec gives neither the master's address, the clock identity
nor the protocol version, which are free. -/
def execDelayReq (n : Fin 4) (t3 : Int) (s : State) : Host.Outcome State Fault Refusal :=
  let p := n.val
  let b := ipB p 1
  .next (if s.is b F.PTP_CFG_EN && decide (2 ≤ s.get b F.PTP_STAT_STATE) then
      let x := s.ptp p
      let hy := s.is b F.PTP_CFG_HYBRID
      let ip := if hy then s.free 32 else (s, 0xE0000181)
      let id := ip.1.free 64
      let ver := id.1.free 8
      let msg := [0x01] ++ beBytes 1 ver.2 ++ beBytes 2 44 ++ beBytes 1 (s.get b F.PTP_CFG_DOMAIN) ++ [0]
        ++ beBytes 2 (if hy then 0x0400 else 0) ++ beBytes 8 0 ++ beBytes 4 0 ++ beBytes 8 id.2 ++ beBytes 2 1 ++ beBytes 2 x.reqSeq
        ++ [0x01, 0x7F] ++ beBytes 10 0
      let f := ver.1.udpFrame p ip.2 319 319 0 none msg
      (f.1.portSend p none f.2).setPtp p { x with req := some (x.reqSeq, t3), reqSeq := (x.reqSeq + 1) % 65536 }
    else s)

/-! Faults (R357). -/

/-- IP_TABLE_UE (R357): of the host queues, the head frame is the packet discarded. -/
def execIpTableUe (n : Fin 4) (array : Fin 6) (index : Fin 512) (s : State) : Host.Outcome State Fault Refusal :=
  let p := n.val
  let a := array.val
  let j := if a = 2 then index.val % 32 else index.val % 256
  let had := s.rxType (256 * p + j) != 0
  let s := s.setFault (ipB p 0) a index.val
  .next (if a < 3 then
      let s := s.modIp fun x => { x with dead := x.dead ++ [deadKey p a j] }
      let c := 256 * p + j
      if a = 2 then s.keyedRefresh p j
      else if a = 1 then (s.put (txA c) F.TX_STAT_STATE 0).loadRefresh c
      else if had then
        ((((s.puts (rxA c) [(F.RX_STAT_STATE, 0), (F.RX_STAT_ASYNC, 0)]).rxClear c).sourceStops (0x100 + c)
          (s.srcDelivers (0x100 + c))).legsRefresh c)
      else s
    else
      let s := s.ipCause p 22
      if a = 5 then s.setHqr p ((s.hqr p).drop 1) else s)

end Sys2Proof.Machine
end

