-- ==== Sys2Proof/Machine/Output.lean ====
section
/-! DEFINITION. SDI transmitters (chapter 03): run and stop, lines, ancillary data and embedded audio, and the latency ledger of
layer routes (R178 to R180, R270). -/

namespace Sys2Proof.Machine

/-! Rasters (R106, R107). -/

/-- Rate class of an OUT_CFG word. -/
def cfgClass (w : Word) : Nat :=
  (rateClass (fldGet w 0 8) (fldGet w 8 4) (isHigh (fldGet w 12 2) (bitN w.toNat 14))).getD 0

/-- Raster, rate class and timing domain of an OUT_CFG word, with BOND, which the raster of the links follows (R107). -/
def rasterKey (w : Word) : Nat × Nat × Nat × Nat × Nat := (fldGet w 0 8, fldGet w 8 4, cfgClass w, fldGet w 17 3, fldGet w 16 1)

/-- OUT_CFG of the raster an output sends: its own while it runs, in black the one that last ran. -/
def State.sentCfg (s : State) (g : Nat) : Word :=
  let w := s.rd (outB g + 0x40)
  if s.get (outB g) F.OUT_STAT_STATE = 1 then (s.tx g).ran.getD w else w

/-- EMB_STAT of an output (R299): routes to channels beyond the capacity set OVER. -/
def State.embRefresh (s : State) (g : Nat) : State :=
  let st := s.get (outB g) F.OUT_STAT_STATE
  let cap := s.embCapacity g
  let past := s.audEnabled.any fun n => s.audDst n / 32 == g && cap ≤ s.audDst n % 32
  let was := s.is (audB g) F.EMB_STAT_OVER
  (s.puts (audB g) [(F.EMB_STAT_CAPACITY, if st = 1 ∨ st = 2 then cap else 0), (F.EMB_STAT_OVER, b2n past)]).raiseIf
    (past && !was) (audB g) 9

/-- The embedder takes EMB_CFG.GROUPS for the frame that begins (R298). -/
def State.embLatch (s : State) (g : Nat) : State := s.setTx g { s.tx g with groups := s.get (audB g) F.EMB_CFG_GROUPS }

/-- What an output sends changes: quiet (0), black (1) or running (2); the ports of a bonded group share its rate class (R98). -/
def State.outSend (s : State) (g st : Nat) : State :=
  let s := (s.put (outB g) F.OUT_STAT_STATE st).embLatch g
  let s := (s.outGroup g).foldl (fun u p =>
    u.puts (outB p) [(F.OUT_STAT_RATE, if st = 0 then 0 else cfgClass (u.sentCfg g)), (F.OUT_POS_LINE, 0),
      (F.OUT_POS_SAMPLE, 0)]) s
  s.embRefresh g

/-- STOP_MODE asks for black (R49). -/
def State.blackMode (s : State) (g : Nat) : Bool := s.get (outB g) F.CTRL_STOP_MODE != 1

/-! Run and stop (R67, R106 to R108). -/

/-- An inconsistent OUT_CFG holds the output stopped (R108). -/
def State.outInvalid (s : State) (g : Nat) : State :=
  let s := (s.puts (outB g) [(F.CTRL_RUN, 0), (F.STAT_BUSY, 0)]).setTx g { s.tx g with starting := false }
  (s.refuseDirect (outB g) rcFormat).raise (outB g) 4

/-- CTRL.RUN of an output is set (R67, R108); a member's is ignored (R98). STAT.BUSY is 1 until the output has started (R49; DEDUCED, log
75). -/
def State.outRun (s : State) (g : Nat) : State :=
  let b := outB g
  if s.outMember g then s
  else if !s.is b F.STAT_STOPPED then s.put b F.CTRL_RUN 1
  else if s.outCfgOk g then (s.puts b [(F.CTRL_RUN, 1), (F.STAT_BUSY, 1)]).setTx g { s.tx g with starting := true }
  else s.outInvalid g

/-- CTRL.RUN of an output is cleared (R67): it stops at the end of its frame. -/
def State.outHalt (s : State) (g : Nat) : State :=
  let b := outB g
  if s.outMember g then s
  else
    let s := (s.put b F.CTRL_RUN 0).setTx g { s.tx g with starting := false }
    s.put b F.STAT_BUSY (b2n (!s.is b F.STAT_STOPPED))

/-- An output stops (R67, R106, R245): STOP_MODE's content follows, and its write-back is lost. A RUN written meanwhile acts. -/
def State.outStop (s : State) (g : Nat) : State :=
  let b := outB g
  let s := s.puts b [(F.STAT_STOPPED, 1), (F.STAT_BUSY, 0)]
  let s := s.setTx g { s.tx g with finishing := false, dirty := false, toBlack := false }
  let s := (s.outSend g (if s.blackMode g then 1 else 0)).raise b 3
  let s := if s.wbOn g then s.sourceStops (0x800 + g) true else s
  if s.is b F.CTRL_RUN then s.outRun g else s

/-- An output that the realignment of its domain left quiet sends again from the new pulse (R150). -/
def State.outResume (s : State) (g : Nat) : State :=
  let b := outB g
  let x := s.tx g
  if s.get b F.OUT_STAT_STATE ≠ 0 then s
  else if !s.is b F.STAT_STOPPED then s.outSend g 2
  else if s.blackMode g && !x.dirty then (s.setTx g { x with toBlack := false }).outSend g 1
  else s

/-- OUTPUT_START (R67, R108, R113): the OUT_CFG in place at the pulse is checked; the epoch of a write-back follows the format
(R245). -/
def execOutputStart (g : Fin 96) (s : State) : Host.Outcome State Fault Refusal :=
  let o := g.val
  let b := outB o
  let x := s.tx o
  .next (if !s.present (o / 16 + 1) || s.outMember o || !x.starting || x.finishing || !s.is b F.STAT_STOPPED then s
    else if !s.outCfgOk o then s.outInvalid o
    else
      let w := s.rd (b + 0x40)
      let s := s.setTx o { x with starting := false, ran := some w, dirty := false, toBlack := false, lastLine := [] }
      let s := ((s.puts b [(F.STAT_STOPPED, 0), (F.STAT_BUSY, 0), (F.OUT_FRAME_COUNT, 0)]).outSend o 2).raise b 2
      let c := s.comp o
      match c.wbFmt with
      | some f => if s.wbOn o && f != w.toNat % 0x8000 then
          (s.setComp o { c with wbEpoch := (c.wbEpoch + 1) % 16, wbFmt := some (w.toNat % 0x8000) }).epochMoves (0x800 + o) else s
      | none => s)

/-- STOP_MODE_WRITE (R107). -/
def execStopModeWrite (g : Fin 96) (mode : Fin 4) (s : State) : Host.Outcome State Fault Refusal :=
  let o := g.val
  let b := outB o
  .next (s.hostWrite (o / 16 + 1) (
    let s := s.put b F.CTRL_STOP_MODE mode.val
    let x := s.tx o
    if s.outMember o || !s.is b F.STAT_STOPPED then s
    else if mode.val = 1 then s.setTx o { x with toBlack := false, finishing := x.finishing || s.get b F.OUT_STAT_STATE == 1 }
    else if x.dirty then s
    else if s.get b F.OUT_STAT_STATE = 1 ∧ !x.finishing then s
    else s.setTx o { x with toBlack := true }))

/-- A new OUT_CFG in a stopped output (R107): with a new raster, rate class or domain a black frame in progress is the last. -/
def State.outCfgChanged (s : State) (g : Nat) (old : Word) : State :=
  let x := s.tx g
  if rasterKey old = rasterKey (s.rd (outB g + 0x40)) then s
  else s.setTx g { x with
    dirty := true, toBlack := false, finishing := x.finishing || s.get (outB g) F.OUT_STAT_STATE == 1
    ran := if s.get (outB g) F.OUT_STAT_STATE = 1 then some (x.ran.getD old) else x.ran }

/-! Ancillary data (R101 to R105, R311, R312). -/

/-- ST 352 lines of an output format (R101). -/
def pidLines (fmt : Nat) : List Nat :=
  if fmt = 1 then [13, 276] else if fmt = 2 then [9, 322] else if fmt = 4 ∨ fmt = 5 then [10, 572] else [10]

/-- A frame line carries active picture (R565). -/
def isActiveLine (fmt l : Nat) : Bool :=
  match fmt with
  | 1 => (21 ≤ l && l ≤ 263) || (283 ≤ l && l ≤ 525)
  | 2 => (23 ≤ l && l ≤ 310) || (336 ≤ l && l ≤ 623)
  | 3 => 26 ≤ l && l ≤ 745
  | 4 | 5 => (21 ≤ l && l ≤ 560) || (584 ≤ l && l ≤ 1123)
  | 6 | 9 => 42 ≤ l && l ≤ 1121
  | 7 | 8 => 84 ≤ l && l ≤ 2243
  | _ => false

/-- The switching lines of a format and the lines after them, which take no packet but the payload identifier and EDH
(R102). -/
def excludedLine (fmt l : Nat) : Bool :=
  let near (n : Nat) : Bool := l == n || l == n + 1
  near (takeLine fmt) || (match secondSwitchLine fmt with | some n => near n | none => false)

/-- Words that a packet takes in HANC or VANC: header, checksum and data. -/
def ancWords (p : AncPkt) : Nat := 7 + p.data.length

/-- Words in use, by 2 × line + 1 for VANC. -/
abbrev AncRoom := List (Nat × Nat)

/-- A line has room for a packet (R102, R103). -/
def ancFits (fmt hancRoom vancRoom : Nat) (used : AncRoom) (vanc : Bool) (p : AncPkt) (l : Nat) : Bool :=
  1 ≤ l && l ≤ totalLinesOf fmt && !(vanc && isActiveLine fmt l) && !excludedLine fmt l
    && tget 0 used (2 * l + b2n vanc) + ancWords p ≤ (if vanc then vancRoom else hancRoom)

/-- The line a packet goes to (R103): its own, otherwise the first at or after VANC_FIRST with room. -/
def ancLine (fmt first hancRoom vancRoom : Nat) (used : AncRoom) (p : AncPkt) : Option Nat :=
  let fits := ancFits fmt hancRoom vancRoom used p.vanc p
  if fits p.line then some p.line
  else ((List.range (totalLinesOf fmt + 1)).drop first).find? fits

/-- A packet goes out on a frame line. -/
def State.ancOut (s : State) (g l : Nat) (vanc : Bool) (p : AncPkt) : State := s.emit (.sdiAnc g l vanc p (ancTens p))

/-- Place packets in received order (R103). -/
def State.ancPlace (s : State) (g first hancRoom vancRoom : Nat) : AncRoom → List AncPkt → State
  | _, [] => s
  | used, p :: t =>
    match ancLine (s.outFmt g) first hancRoom vancRoom used p with
    | some l =>
      let k := 2 * l + b2n p.vanc
      (s.ancOut g l p.vanc p).ancPlace g first hancRoom vancRoom (tset 0 used k (tget 0 used k + ancWords p)) t
    | none => (s.raise (outB g) 1).ancPlace g first hancRoom vancRoom used t

/-- ANC_FILT lets a packet pass (R312). -/
def State.ancPasses (s : State) (g : Nat) (p : AncPkt) : Bool :=
  let hit := (List.range 8).any fun i =>
    let b := audB g + 4 * i
    s.effIs b F.ANC_FILT_EN && s.effGet b F.ANC_FILT_DID == p.did.toNat
      && (s.effIs b F.ANC_FILT_TYPE1 || s.effGet b F.ANC_FILT_SDID == p.sdid.toNat)
  if s.effIs (audB g) F.ANC_SRC_BLOCK then !hit else hit

/-- The ordinary ANC that an output's next frame carries (R311), and the state with the packets of ANC_SRC's own source marked
as inserted. -/
def State.ancTake (s : State) (g : Nat) : State × List AncPkt :=
  let mode := s.effGet (audB g) F.ANC_SRC_MODE
  let rep := s.effIs (audB g) F.ANC_SRC_ON_REPEAT
  if mode = 1 then
    let i := 4 * g
    let c := s.routeSrc 0 i
    let l := if !s.routeActive 0 i || !s.is (routeStatA 0 i) F.ROUTE_STAT_SOURCE_OK then []
      else match s.get (routeStatA 0 i) F.ROUTE_STAT_PATH with
        | 1 => s.srcAnc c
        | 2 =>
          let r := s.reader g c
          if r.repeats != 0 && !rep then []
          else match r.buf.bind (s.ring c).find with | some b => b.anc | none => []
        | 3 => match allSlots.find? fun p => (s.ctx p.1 p.2).routes.contains i with
          | some p => (s.ctx p.1 p.2).anc
          | none => []
        | _ => []
    (s, l)
  else if mode = 2 then
    let x := s.tx g
    (s.setTx g { x with ancSent := true }, if x.ancSent && !rep then [] else x.anc)
  else (s, [])

/-- What of an OUT_CFG word its payload identifier describes (R101): format, rate, sampling, depth, level, colorimetry and transfer
characteristic, of which 3 acts as 0 (R112). -/
def pidWord (w : Word) : Word := fldSet (w &&& 0x0010FFFF) 21 2 (fldGet w 21 2 % 3)

/-- The payload identifier of a link (R101): as the standard of the format gives it, and of the wide format as R84 adds. -/
def pidPkt (w : Word) (link line : Nat) : AncPkt :=
  let b := slice (Config.pidBytes (pidWord w) link) 0 4
  let b := if fldGet w 0 8 = 9 then
      [0xC9, b.getD 1 0, b.getD 2 0, BitVec.ofNat 8 (link * 64 + (b.getD 3 0).toNat % 64)] else b
  ⟨0x41, 0x01, false, line, false, b⟩

/-- The payload identifier is inserted (R101): always at 3G and above. -/
def State.pidOn (s : State) (g : Nat) : Bool := 3 ≤ cfgClass (s.sentCfg g) || s.is (outB g) F.OUT_ANC_PID_EN

/-- Payload identifiers of a frame on every link. -/
def State.pidInsert (s : State) (g : Nat) : State :=
  if s.pidOn g then
    let w := s.sentCfg g
    (pidLines (fldGet w 0 8)).foldl (fun u l =>
      ((List.range (u.outGroup g).length).foldl (fun v k => v.ancOut (g + k) l false (pidPkt w k l)) u)) s
  else s

/-- An SD output carries EDH packets (R105). -/
def State.edhOn (s : State) (g : Nat) : Bool := cfgClass (s.sentCfg g) == 1 && s.is (outB g) F.OUT_ANC_EDH_EN

/-- Frame lines of the EDH packets of RP 165. -/
def edhLines (fmt : Nat) : List Nat := if fmt = 1 then [9, 272] else [5, 318]

/-- Upstream error flags of an output (R105): EDH errors in the last frame of the input that its V1 layer is routed from. -/
def State.edhUpstream (s : State) (g : Nat) : Bool :=
  let c := s.routeSrc 0 (4 * g)
  s.routeActive 0 (4 * g) && srcIsSdi c && (s.rx c).edhUp

/-- An EDH packet on its line (R105), over the lines sent since the one before. -/
def State.edhInsert (s : State) (g n : Nat) : State :=
  if s.edhOn g && (edhLines (fldGet (s.sentCfg g) 0 8)).contains n then
    (s.ancOut g n false ⟨0xF4, 0, true, n, false, slice (Config.edhData (s.tx g).sent (s.edhUpstream g)) 0 16⟩).setTx g
      { s.tx g with sent := [] }
  else s

/-- A line that is sent counts for the next EDH packet (R105). -/
def State.edhTake (s : State) (g n : Nat) (l : List Nat) : State :=
  if s.edhOn g then s.setTx g { s.tx g with sent := (s.tx g).sent ++ [(n, l)] } else s

/-- A group of an output carries 96 kHz pairs (R298, R301). -/
def State.embPair (s : State) (g k : Nat) : Bool := (List.range 4).any fun j => s.pair96 (32 * g + 4 * k + j)

/-- Audio control packets of a frame: one for each group and field (R298). -/
def State.embControl (s : State) (g : Nat) : State :=
  if s.is (audB g) F.EMB_CFG_CTRL_EN then
    (List.range (if scanOf (s.outFmt g) = 1 then 2 else 1)).foldl (fun u _ =>
      (u.embGroups g).foldl (fun v k => v.emit (.audCtrl g k (v.embPair g k))) u) s
  else s

/-! The latency ledger (R178 to R180, R270). -/

/-- Half line periods of the link raster from the frame's first active line in time to the top of a layer at Y0; beyond the
raster, the instant is extended at the output line period (R178). -/
def exitHalves (fmt : Nat) (y0 : Int) : Int :=
  let base : Int := if fmt = 1 then 21 else frameLineOf fmt 0
  let per : Int := if isQuad fmt then 1 else 2
  let h : Int := (activeOf fmt).2
  if y0 < 0 then 2 * ((frameLineOf fmt 0 : Int) - base) + per * y0
  else if h ≤ y0 then per * y0
  else 2 * ((frameLineOf fmt y0.toNat : Int) - base)

/-- A ledger in ns: `ps` picoseconds and `halves` half line periods. -/
def ledgerOf (fmt frate : Nat) (ps halves : Int) : Nat :=
  let r := rateOf frate
  let n := 2 * r.1 * totalLinesOf fmt
  (clampI 0 0xFFFFFFFE (roundDivI (ps * (n : Int) + halves * (10 ^ 12 * r.2 : Nat)) (1000 * n))).toNat

/-- Ledger of layer route i in the frame whose first active line starts at `t`; none where the rules give no value. -/
def State.layerLedger (s : State) (i : Nat) (t : Int) : Option Nat :=
  let g := i / 4
  let a := routeStatA 0 i
  let c := s.routeSrc 0 i
  if !s.routeActive 0 i || !s.is a F.ROUTE_STAT_SOURCE_OK then none
  else
    let of (ps : Int) : Nat :=
      ledgerOf (s.outFmt g) (s.get (outB g) F.OUT_CFG_FRATE) ps (exitHalves (s.outFmt g) (s.rectPos g (i % 4)).2)
    match s.get a F.ROUTE_STAT_PATH with
    | 1 => (s.floor.phases.find? fun p => p.1 == g * 128 + c).map fun p => of p.2.1
    | 2 =>
      let r := s.reader g c
      if s.framed c && r.seq != 0 then some (of ((t - r.entry) * 1000)) else none
    | 3 => match allSlots.find? fun p => (s.ctx p.1 p.2).routes.contains i with
      | none => none
      | some p =>
        let x := s.ctx p.1 p.2
        if x.out.isEmpty then none
        else if x.warm then x.shown.map fun u => of ((t - u) * 1000)
        else some (of ((s.get (ctxA p.1 p.2) F.CTX_DELAY_NS : Int) * 1000))
    | _ => none

/-- The ledgers of an output's four layers for a frame (R179), with the entry instants that they stand for (R180). -/
def State.ledgers (s : State) (g : Nat) (t : Int) : State :=
  let s := (List.range 4).foldl (fun u k =>
    let i := 4 * g + k
    let l := u.layerLedger i t
    let y := exitHalves (u.outFmt g) (u.rectPos g k).2
    let exit : Int := t + roundDivI (y * (lineFs (u.outFmt g) (u.get (outB g) F.OUT_CFG_FRATE) : Int)) 2000000
    let u := u.wr (gPage 0x045 + 4 * i) (match l with | some n => BitVec.ofNat 32 n | none => 0xFFFFFFFF)
    { u with floor := { u.floor with shown := match l with
      | some n => tset 0 u.floor.shown i (exit - n)
      | none => u.floor.shown.filter fun p => p.1 != i } }) s
  { s with floor := { s.floor with done := tset false s.floor.done g true } }

/-! Frames and lines. -/

/-- The ancillary data of a running output's frame (R101 to R104, R298): the payload identifier, the Reference Quality Packet, audio
control packets, and the packets that it carries on. -/
def State.frameAnc (s : State) (o hancRoom vancRoom : Nat) : State :=
  let b := outB o
  let s := s.pidInsert o
  let pl := pidLines (s.outFmt o)
  let used : AncRoom := if s.pidOn o then pl.map fun l => (2 * l, 11) else []
  let real := s.get (compB o) F.COMP_CFG_WB_MODE != 2
  let rqp := real && s.is b F.OUT_ANC_RQP_EN
  let rl := pl.headD 0
  let s := if rqp then s.ancOut o rl false ⟨0x52, 0x0A, false, rl, false, s.rqpBytes o⟩ else s
  let used := if rqp then tset 0 used (2 * rl) (tget 0 used (2 * rl) + 15) else used
  let s := s.embControl o
  let q := s.ancTake o
  let pk := q.2.filter fun p => q.1.ancPasses o p && !(rqp && ancIsRqp p)
  if real then q.1.ancPlace o (s.get b F.OUT_ANC_VANC_FIRST) hancRoom vancRoom used pk else q.1

/-- A frame of a running output begins (R103, R179): its ancillary data, its ledger, and the clip flags of the frame before. OUT_FRAME
counts it now (DESIGN CHOICE, log 64). -/
def State.runFrame (s : State) (o : Nat) (t : Int) (hancRoom vancRoom : Nat) : State :=
  let b := outB o
  let s := s.embLatch o
  let s := (s.put b F.OUT_FRAME_COUNT (s.get b F.OUT_FRAME_COUNT + 1)).put b F.OUT_POS_LINE 1
  let s := (s.frameAnc o hancRoom vancRoom).ledgers o t
  ((s.audDests.filter fun d => d / 32 == o).foldl (fun u d => u.clipRoll d) s).rqRefresh

/-- A black frame begins, or the output goes quiet at its end (R106, R107). -/
def State.blackFrame (s : State) (o : Nat) : State :=
  let x := s.tx o
  if x.finishing && !x.toBlack then (s.setTx o { x with finishing := false }).outSend o 0
  else (((s.setTx o { x with finishing := false, toBlack := false }).embLatch o).pidInsert o).embControl o

/-- A quiet output begins black where it is asked to (R107). -/
def State.quietFrame (s : State) (o : Nat) : State :=
  let x := s.tx o
  if x.toBlack && s.is (outB o) F.STAT_STOPPED then (((s.setTx o { x with toBlack := false }).outSend o 1).pidInsert o).embControl o
  else s

/-- OUTPUT_FRAME_START (R103, R106, R107). -/
def execOutputFrameStart (g : Fin 96) (t : Int) (hancRoom vancRoom : Nat) (s : State) :
    Host.Outcome State Fault Refusal :=
  let o := g.val
  .next (if !s.present (o / 16 + 1) || s.outMember o then s
    else match s.get (outB o) F.OUT_STAT_STATE with
      | 2 => s.runFrame o t hancRoom vancRoom
      | 1 => s.blackFrame o
      | _ => s.quietFrame o)

/-- A black line (R106): Y′ = 64 and Cb = Cr = 512 at 10 bits. -/
def blackLine (w : Word) : List Nat :=
  let k := if bitN w.toNat 14 then 4 else 1
  let n := (activeOf (fldGet w 0 8)).1
  let unit := match fldGet w 12 2 with
    | 0 => [512, 64]
    | 1 => [512, 64, 512]
    | _ => [64, 64, 64]
  (List.range n).flatMap fun _ => unit.map (· * k)

/-- The configuration that an output sends interleaves its picture over the four links of a group (R94, R106). -/
def State.sendsQuad (s : State) (g : Nat) : Bool := bitN (s.sentCfg g).toNat 16 && g % 4 == 0

/-- Send a line of picture: a bonded group interleaves it onto two of its links (R94). -/
def State.sendLine (s : State) (g y : Nat) (l : List Nat) : State :=
  let w := s.sentCfg g
  let n := frameLineOf (fldGet w 0 8) y
  if s.sendsQuad g then
    let m := if fldGet w 12 2 = 0 then 4 else 6
    let half (k : Nat) : List Nat :=
      (List.range (l.length / m)).flatMap fun q => if q % 2 = k then (l.drop (q * m)).take m else []
    (s.emit (.sdiLine (g + 2 * (y % 2)) n (y / 2) (half 0))).emit (.sdiLine (g + 2 * (y % 2) + 1) n (y / 2) (half 1))
  else (s.emit (.sdiLine g n y l)).edhTake g n l

/-- The audio of frame line n (R102, R298): the samples that wait, and the previous one again for a channel whose sample is late; silence in
black. The lines that take no packets leave their samples to the next. -/
def State.embLine (s : State) (g n : Nat) (silent : Bool) (late : List Nat) : State :=
  if excludedLine (fldGet (s.sentCfg g) 0 8) n then s
  else (s.embGroups g).foldl (fun u k =>
    (List.range 4).foldl (fun v j =>
      let ch := 4 * k + j
      let d := 32 * g + ch
      let q := tget [] v.aud.ready d
      let miss := !silent && late.contains ch
      let again := (q.getLast?).getD (tget (0, none) v.aud.sent d)
      let l := if silent then q.map fun _ => ((0 : Int), (none : Option Nat)) else if miss then q ++ [again] else q
      let v := v.modAud fun a => { a with
        ready := tset [] a.ready d []
        skip := if miss then tset 0 a.skip d (tget 0 a.skip d + 1) else a.skip
        sent := tset (0, none) a.sent d ((l.getLast?).getD (tget (0, none) a.sent d)) }
      let v := if miss then (v.bump (audB g) F.EMB_UNDER_COUNT).raise (audB g) 8 else v
      if l.isEmpty then v
      else v.emit (.sdiAudio g n ch (v.embPair g k) (bitN (v.get (audB g) F.EMB_PCM_NON_PCM) (ch / 2)) l)) u) s

/-- The last active line of a format in the order of transmission. -/
def lastActive (fmt : Nat) : Nat := if fmt = 1 then 484 else (activeOf fmt).2 - 1

/-- Port of a group on which an output keeps the last line of a picture line: in a bonded group lines go to two links each. -/
def State.linePort (s : State) (g y : Nat) : Nat := if s.sendsQuad g then g + y % 2 else g

/-- The picture lines that begin with an active line: the four links of a bonded group send a pair together (R98; DESIGN CHOICE, log 71). -/
def State.lineSet (s : State) (g y : Nat) : List Nat := if s.sendsQuad g then (if y % 2 = 0 then [y, y + 1] else []) else [y]

/-- Picture lines of a running output go out: black under write-back alone, the composed lines where they are complete, else the lines
before them once more (R36, R98, R245). Where no complete line precedes a late one since the start, an empty line is sent (DESIGN CHOICE,
log 65). -/
def State.showLines (s : State) (o : Nat) (w : Word) (ready : Bool) (l : List (Nat × List Nat)) : State :=
  if s.get (compB o) F.COMP_CFG_WB_MODE = 2 then
    (if s.blackMode o then l.foldl (fun u p => u.sendLine o p.1 (blackLine w)) s else s)
  else if ready then
    l.foldl (fun u p => let q := u.linePort o p.1; (u.sendLine o p.1 p.2).setTx q { u.tx q with lastLine := p.2 }) s
  else
    let s := l.foldl (fun u p => u.sendLine o p.1 (u.tx (u.linePort o p.1)).lastLine) s
    if l.isEmpty then s else (s.bump (outB o) F.OUT_REPEAT_COUNT).raise (outB o) 0

/-- Write-back carries lines as composed: they leave for the Floor (R245). -/
def State.wbLines (s : State) (o : Nat) (w : Word) (l : List (Nat × List Nat)) : State :=
  let f := s.get (outB o) F.OUT_FRAME_COUNT
  l.foldl (fun u p => ((u.emit (.writeBack o p.1 p.2)).lineOut (0x800 + o)
    ⟨p.1, f, (u.comp o).wbEpoch, false, p.2, false⟩).setComp o { u.comp o with wbFmt := some (w.toNat % 0x8000) }) s

/-- A line of a running output (R36, R245). -/
def State.runLine (s : State) (o line : Nat) (w : Word) (complete : Bool) (late : List Nat) : State :=
  let wb := s.get (compB o) F.COMP_CFG_WB_MODE
  let set := s.lineSet o line
  let ready := complete && set.all (s.linesReady o)
  let l := set.map fun y => (y, if ready || wb = 1 || wb = 2 then s.composeLine o y else [])
  let s := s.showLines o w ready l
  let s := if wb = 1 || wb = 2 then s.wbLines o w l else s
  let s := s.embLine o (frameLineOf (fldGet w 0 8) line) (wb = 2) late
  if line = lastActive (fldGet w 0 8) then s.readersDone o else s

/-- A frame line without active picture goes out on every link (R36), with its audio. -/
def State.blankLine (s : State) (o n : Nat) (silent : Bool) (late : List Nat) : State :=
  let ports := if s.sendsQuad o then [o, o + 1, o + 2, o + 3] else [o]
  (((ports.foldl (fun u p => u.emit (.sdiBlank p n)) s).edhTake o n []).edhInsert o n).embLine o n silent late

/-- OUTPUT_LINE_START (R36, R106, R245). -/
def execOutputLineStart (g : Fin 96) (line : Nat) (complete : Bool) (late : List (Fin 32)) (s : State) :
    Host.Outcome State Fault Refusal :=
  let o := g.val
  let b := outB o
  let w := s.sentCfg o
  let fmt := fldGet w 0 8
  let blank := (activeOf fmt).2 ≤ line
  let n := if blank then line - (activeOf fmt).2 + 1 else frameLineOf fmt line
  let late := late.map (·.val)
  let pos := s.puts b [(F.OUT_POS_LINE, n), (F.OUT_POS_SAMPLE, 0)]
  .next (if !s.present (o / 16 + 1) || s.outMember o then s
    else match s.get b F.OUT_STAT_STATE with
      | 0 => s
      | 1 => if blank then pos.blankLine o n true late else (pos.sendLine o line (blackLine w)).embLine o n true []
      | 2 =>
        if blank then pos.blankLine o n (pos.get (compB o) F.COMP_CFG_WB_MODE == 2) late
        else pos.runLine o line w complete late
      | _ => pos)

end Sys2Proof.Machine
end

