-- ==== Sys2Proof/Machine/Check.lean ====
section
/-! DEFINITION. The checks of a commit group (R61): what a group would make of the part, and the first member that fails, in the
order of the refusal table. -/

namespace Sys2Proof.Machine

/-! What a group names. -/

/-- Route entries among words, in the order of their tables. -/
def routesIn (l : List (Nat × Word)) : List (Nat × Nat) := l.filterMap fun p => routeOf p.1

/-- Numbers of a list in ascending order, once each. -/
def ascSet (l : List Nat) : List Nat := (dedupN l).foldl (fun acc x => insAsc x acc) []

/-- An address lies in the composer pages of a Sheaf, or in its audio pages. -/
def inComp (a : Nat) : Bool := 1 ≤ dieOf a && dieOf a ≤ 6 && 0x300 ≤ pageOf a && pageOf a < 0x340
def inAud (a : Nat) : Bool := 1 ≤ dieOf a && dieOf a ≤ 6 && 0x400 ≤ pageOf a && pageOf a < 0x410

/-- Outputs whose composer has words in a staging set. -/
def compsIn (l : List (Nat × Word)) : List Nat :=
  ascSet ((l.filter fun p => inComp p.1).map fun p => portOf p.1 0x300 4)
/-- Ports whose audio page has words in a staging set. -/
def audsIn (l : List (Nat × Word)) : List Nat :=
  ascSet ((l.filter fun p => inAud p.1).map fun p => portOf p.1 0x400 1)
/-- Source rings and stores with configuration words in a staging set. -/
def ringsIn (l : List (Nat × Word)) : List Nat := stagedOf l (sringA 0) 4 0x500
def storesIn (l : List (Nat × Word)) : List Nat := stagedOf l (storeA 0) 16 512

/-- Groups that have been accepted: take sent, or applying. -/
def State.onWay (s : State) : List Nat :=
  (List.range 64).filter fun n => let st := s.get (cgB n) F.CG_STAT_STATE; st == 2 || st == 4

/-- The result that a check looks at (R58, R209): the state in effect, with the groups already accepted and the words given put
into effect, and the bins held for accepted groups with their items. -/
def State.planned (s : State) (extra : List (Nat × Word)) : State :=
  let words := (s.onWay.flatMap fun n => (s.grp n).staging) ++ extra
  let p := s.applyStaging words
  let p := (routesIn words).foldl (fun u r => u.put (routeStatA r.1 r.2) F.ROUTE_STAT_SUSPENDED 0) p
  let p := p.silo.reserved.foldl (fun u r =>
    let old := (u.binsOf r.2.1).2
    (u.releaseBins 0 2 (old.filter fun b => !r.2.2.2.contains b)).setBins r.2.1 r.2.2) p
  let p := (routesIn words).foldl (fun u r => u.ctxSettle r.1 r.2) p
  ({ p with grps := [] } : State).modSilo fun x => { x with reserved := [] }

/-! Checks 1 to 4 (R158, R164, R194, R196, R259, R262). Every state here is a planned one. -/

/-- The Floor fails a group. -/
def State.floorBad (s : State) (rs : List (Nat × Nat)) (code domain : Nat) : Bool :=
  rs.any fun r =>
    let t := r.1
    let i := r.2
    let c := s.routeSrc t i
    let on := s.effIs (routeA t i) F.ROUTE_CFG_EN
    let fed := on && c != 0xFFF
    if code = rcAbsent then
      (t == 0 && on && !s.present (i / 64 + 1)) || (fed && !(isSource c && s.srcPresent c))
        -- a converter route whose source has no declared rate (R268)
        || (fed && t < 2 && s.effGet (routeA t i) F.ROUTE_CFG_RATE_MODE == 2 && (s.srcFmt c).isNone && !s.isConv t i)
    else if code = rcFormat then
      (t == 0 && s.outMember (i / 4)) || (fed && t < 2 && srcIsWb c) || (fed && t == 2 && srcIsStore c)
        || (fed && t == 2 && s.effGet (storeA i) F.STORE_CFG_KIND == 3)
        || (fed && srcIsIp c && 2 ≤ s.rxType (c - 0x100))
        || (fed && s.isConv t i && match s.srcFmt c with
          | some f => 3840 < f.w || 2160 < f.h || engineCap < ctxLoad f (f.frate.getD 0) (s.dstRate t i)
          | none => false)
    else if code = rcDomain then t < 2 && s.dstDomain t i != domain
    else false

/-- The composer of output g fails a group: `own` where the group has words of it, and the layers the group names. -/
def State.compBad (s : State) (g : Nat) (own : Bool) (layers : List Nat) (code domain : Nat) : Bool :=
  if code = rcFormat then
    (own && s.outMember g) || !s.orderOk g || s.ditherBad g || layers.any (s.layerBad g)
  else if code = rcDomain then own && s.get (outB g) F.OUT_CFG_DOMAIN != domain
  else if code = rcLinebuf then layers.any (s.linebufShort g)
  else false

/-- Layers of output g that a staging set names by their words or their route. -/
def layersIn (g : Nat) (st : List (Nat × Word)) : List Nat :=
  [0, 1, 2, 3].filter fun k => !(layerWords g k st).isEmpty || (routesIn st).contains (0, 4 * g + k)

/-- The first composer that fails. -/
def State.compFails (s : State) (st : List (Nat × Word)) (code domain : Nat) : Option Nat :=
  let own := compsIn st
  let gs := ascSet (own ++ ((routesIn st).filter fun r => r.1 == 0).map fun r => r.2 / 4)
  (gs.find? fun g => s.present (g / 16 + 1) && s.compBad g (own.contains g) (layersIn g st) code domain).map compB

/-- The Silo fails a group on the settings of a store. -/
def State.siloBad (s : State) (st : List (Nat × Word)) (code : Nat) : Bool :=
  code == rcFormat && (storesIn st).any fun i =>
    let w := s.effGet (storeA i) F.STORE_CFG_WIDTH
    let h := s.effGet (storeA i) F.STORE_CFG_HEIGHT
    s.effGet (storeA i) F.STORE_CFG_KIND == 3 && (s.effGet (storeA i) F.STORE_CFG_DECIM != 0
      || w == 0 || h == 0 || 8192 < w || 4320 < h || s.effGet (storeA i) F.STORE_CFG_SFMT == 3
      || (s.effIs (routeA 2 i) F.ROUTE_CFG_EN && s.routeSrc 2 i != 0xFFF))

/-- A code names an SDI input on an absent die (R7). -/
def State.inAbsent (s : State) (c : Nat) : Bool := srcIsSdi c && !s.present (c / 16 + 1)

/-- The audio page of output g fails a group: its ANC source is an input on an absent die (R7), or its domain is another (R61). -/
def State.audioBad (s : State) (g code domain : Nat) : Bool :=
  if code = rcAbsent then
    s.effGet (audB g) F.ANC_SRC_MODE == 2 && s.inAbsent (s.effGet (audB g) F.ANC_SRC_SRC)
  else code == rcDomain && s.get (outB g) F.OUT_CFG_DOMAIN != domain

/-- The block that fails a code first: Floor, composers, audio pages, Silo, audio router, media ports. -/
def State.failing (s : State) (st : List (Nat × Word)) (code domain : Nat) : Option Nat :=
  let rs := routesIn st
  if s.floorBad rs code domain then some flB
  else match s.compFails st code domain with
    | some b => some b
    | none =>
      match (audsIn st).find? fun g => s.audioBad g code domain with
      | some g => some (audB g)
      | none =>
        if s.siloBad st code || (code == rcAbsent && (ringsIn st).any s.inAbsent) then some siloB
        else if s.routerBad st code domain then some arB
        else (s.ipBad st code domain).map fun n => ipB n 0

/-- The first of a list of codes that some block fails. -/
def State.failFirst (s : State) (st : List (Nat × Word)) (domain : Nat) : List Nat → Option (Nat × Nat)
  | [] => none
  | c :: t =>
    match s.failing st c domain with
    | some b => some (c, b)
    | none => s.failFirst st domain t

/-! Checks 5 to 8 (R159, R182, R209, R265). -/

/-- What a refusal records beside the result: nothing; the ring or store and the reason for which bins were lacking; the Sheaf, the
direction and the load; the admission sum; the ports' sums, in the planned state. -/
inductive Note where
  | none
  | bins (key reason : Nat)
  | finano (sheaf dir ask : Nat)
  | memory (ask : Nat)
  | ports (sums : List Nat)

/-- The member that answers for contexts, bins and sums: the Floor, otherwise the Silo, otherwise the first member. -/
def sumsBase (st : List (Nat × Word)) : Nat :=
  if !(routesIn st).isEmpty then flB
  else if !(ringsIn st).isEmpty || !(storesIn st).isEmpty then siloB
  else match st.head? with
    | some p => blockBase p.1
    | none => flB

/-- The needs that a group can change: of the sources its routes name, and of the rings and stores it configures. -/
def State.groupNeeds (s : State) (st : List (Nat × Word)) : List Need :=
  let keys := ((routesIn st).map fun r => if r.1 = 2 then 0x600 + r.2 else s.routeSrc r.1 r.2) ++ ringsIn st
    ++ (storesIn st).map (0x600 + ·)
  s.needs.filter fun n => keys.contains n.key

/-- Check 6: contexts and bins; the state with the bins allocated. -/
def State.tableCheck (s : State) (st : List (Nat × Word)) (domain : Nat) (needs : List Need) : Except (Nat × Note) State :=
  if 512 < s.readCtx.length ∨ 256 < s.writeCtx then .error (sumsBase st, .none)
  else match s.allocNeeds domain needs with
    | .error e => .error (sumsBase st, .bins e.1 e.2)
    | .ok q => .ok q

/-- A Sheaf direction over its budget: Sheaf, direction and load (R28, R182); of several the one of the lowest Sheaf, Granary to Sheaf first
(DESIGN CHOICE, log 66). -/
def State.overBudget (s : State) : Option (Nat × Nat × Nat) :=
  ((List.range 12).find? fun k => s.finBudget (k / 2 + 1) (k % 2) < s.finLoad (k / 2 + 1) (k % 2)).map fun k =>
    (k / 2 + 1, k % 2, s.finLoad (k / 2 + 1) (k % 2))

/-- The bandwidth of a result (R28, R209): `before` is the admission sum that it may keep. -/
def State.sumsCheck (s : State) (before : Nat) : Note :=
  match s.overBudget with
  | some o => .finano o.1 o.2.1 o.2.2
  | none =>
    let a := s.admission
    if s.get siloB F.SILO_LIMIT_MBPS < a ∧ before < a then .memory a else .none

/-- A group has words that bear on the sums of the Floor and the Silo. -/
def bearsOnSums (st : List (Nat × Word)) : Bool :=
  !(routesIn st).isEmpty || !(ringsIn st).isEmpty || !(storesIn st).isEmpty || !(ctxsOf true st).isEmpty
    || !(ctxsOf false st).isEmpty

/-- Bins that `q` has allocated beyond those of `p`: key, with signature and bins. -/
def newBins (p q : State) : List (Nat × (Nat × List Nat)) :=
  q.silo.bins.filter fun b => p.binsOf b.1 != b.2

/-- A refusal: the code, the member that failed, and what is recorded. -/
abbrev Refused := Nat × Nat × Note

/-- Checks 1 to 8 of a group with a staging set (R61): the planned state with its converter contexts allocated, and the bins
allocated. -/
def State.checkGroup (s : State) (st : List (Nat × Word)) (domain : Nat) :
    Except Refused (State × List (Nat × (Nat × List Nat))) :=
  let p := s.planned st
  match p.failFirst st domain [rcAbsent, rcFormat, rcDomain, rcLinebuf] with
  | some e => .error (e.1, e.2, .none)
  | none =>
    match p.allocCtxs ((routesIn st).filter fun r => p.routeActive r.1 r.2 && p.isConv r.1 r.2) with
    | none => .error (rcNoConverter, flB, .none)
    | some q =>
      -- the result no longer has the contexts that the group gives up
      let r := q.dropCtxs 2
      match (if bearsOnSums st then r.tableCheck st domain (r.groupNeeds st) else .ok r) with
      | .error e => .error (rcTableFull, e.1, e.2)
      | .ok b =>
        match r.failFirst st domain [rcTableFull, rcKey] with
        | some e => .error (e.1, e.2, .none)
        | none =>
          let old := ((s.planned []).dropCtxs 2).admission
          match (if bearsOnSums st then b.sumsCheck old else .none) with
          | .none =>
            match r.ipBad st rcBandwidth domain with
            | some n => .error (rcBandwidth, ipB n 0, .ports ((List.range 4).map r.portLoad))
            | none => .ok (q, newBins r b)
          | note => .error (rcBandwidth, sumsBase st, note)

/-- The check of a group whose domain is stopped (R62): checks 1 and 2, then DOMAIN_MISMATCH. -/
def State.checkStopped (s : State) (st : List (Nat × Word)) (domain : Nat) : Refused :=
  match (s.planned st).failFirst st domain [rcAbsent, rcFormat] with
  | some e => (e.1, e.2, .none)
  | none => (rcDomain, tcB, .none)

/-- SILO_CAUSE of a memory refusal: the first entry of the group, layer, IP transmit and store routes first (R215). -/
def causeEntry (st : List (Nat × Word)) : Nat × Nat :=
  match routesIn st, ringsIn st, storesIn st with
  | r :: _, _, _ => (routeTable r.1, r.2)
  | [], c :: _, _ => (0, c)
  | [], [], i :: _ => (1, i)
  | [], [], [] => (0, 0)

/-- What a refusal records (R182, R209, R347). -/
def State.record (s : State) (n : Nat) (st : List (Nat × Word)) : Note → State
  | .none => s
  | .bins key reason =>
    let e := ringTable key
    (s.puts siloB [(F.SILO_CAUSE_INDEX, e.2), (F.SILO_CAUSE_TABLE, e.1), (F.SILO_CAUSE_REASON, reason)]).raise siloB 1
  | .finano sheaf dir ask =>
    (s.puts flB [(F.FL_BW_CAUSE_SHEAF, sheaf), (F.FL_BW_CAUSE_DIR, dir), (F.FL_BW_CAUSE_MEM, 0),
      (F.FL_BW_CAUSE_TOKEN, s.get (cgB n) F.CG_STAT_TOKEN), (F.FL_BW_ASK_MBPS, min 0xFFFFF ask)]).raise flB 5
  | .memory ask =>
    let e := causeEntry st
    let s := (s.puts siloB [(F.SILO_ASK_MBPS, min 0xFFFFF ask), (F.SILO_CAUSE_INDEX, e.2), (F.SILO_CAUSE_TABLE, e.1),
      (F.SILO_CAUSE_REASON, 2)]).raise siloB 0
    (s.puts flB [(F.FL_BW_CAUSE_SHEAF, 0), (F.FL_BW_CAUSE_DIR, 0), (F.FL_BW_CAUSE_MEM, 1),
      (F.FL_BW_CAUSE_TOKEN, s.get (cgB n) F.CG_STAT_TOKEN), (F.FL_BW_ASK_MBPS, 0)]).raise flB 5
  | .ports sums =>
    s.forAll (List.range 4) fun k u =>
      if 97000 < sums.getD k 0 then u.put (ipB k 0) F.TX_ASK_MBPS (min 0x1FFFF (sums.getD k 0)) else u

end Sys2Proof.Machine
end

