-- ==== Sys2Proof/Machine/Commit.lean ====
section
/-! DEFINITION. The commit sequencer (chapter 02): groups and their arms, the take cut-off with its checks, re-checks and restorations,
take messages, the frame pulse and the take lines. -/

namespace Sys2Proof.Machine

/-! Arms (R53, R59, R60, R62, R65). -/

/-- A refused arm or configuration write of group n (R59, R65). -/
def State.cgBusy (s : State) (n : Nat) : State := s.put (cgB n) F.CG_CAUSE_LAST_REFUSAL rcBusy

/-- The next frame of a domain is the one after a jump, in which no group is taken (R150). -/
def State.noTake (s : State) (d : Nat) : Bool :=
  (s.td d).jumped || (s.is (tdB d) F.TD_STAT_JUMP_PENDING && s.get (tdB d) F.TD_FRAME_COUNT == (s.td d).jumpFrame)

/-- PENDING of the blocks that a list of words belongs to (R49). -/
def State.pendings (s : State) (members : List Nat) : State := members.foldl (fun u b => u.pendingRefresh b) s

/-- A group is refused (R61): it is disarmed, its result goes to CG_STAT and its members, and CG_REFUSED is raised. -/
def State.refuseGroup (s : State) (n : Nat) (st : List (Nat × Word)) (e : Refused) : State :=
  let members := s.membersOf n
  let s := s.record n st e.2.2
  ((s.puts (cgB n) [(F.CG_CAUSE_PAGE, pageOf e.2.1), (F.CG_CAUSE_DIE, dieOf e.2.1)]).groupEnd n e.1 members).raise seqB 0

/-- An arm of group n (R54, R59, R62, R66): `us` is the time to the next cut-off of its domain. -/
def State.armGroup (s : State) (n us : Nat) : State :=
  if s.get (cgB n) F.CG_STAT_STATE ≠ 0 then s.cgBusy n
  else
    let d := s.get (cgB n) F.CG_CFG_DOMAIN
    let token := s.get seqB F.TOKEN_NEXT_VALUE
    let s := (s.put seqB F.TOKEN_NEXT_VALUE (if token = 0xFFFF then 1 else token + 1)).puts (cgB n)
      [(F.CG_STAT_STATE, 1), (F.CG_STAT_TOKEN, token)]
    let s := (s.setGrp n Grp.idle).pendings (s.membersOf n)
    if s.is (tdB d) F.TD_STAT_STOPPED then
      let st := s.tagged n
      s.refuseGroup n st (s.checkStopped st d)
    else
      let late := (s.td d).cutPassed || us ≤ 2 * s.get seqB F.SEQ_CFG_LEAD_US
      s.raiseIf (late && !s.noTake d) seqB 2

/-- CG_ARM (R59). -/
def execCgArm (group : Fin 64) (usToCutoff : Nat) (s : State) : Host.Outcome State Fault Refusal :=
  .next (s.armGroup group.val usToCutoff)

/-- The COMMIT.GROUP part of a header write (R53). -/
def State.commitGroup (s : State) (b n : Nat) : State :=
  if s.memberOfArmed b then s.refuseDirect b rcBusy else s.put b F.COMMIT_GROUP n

/-- A block whose header uses COMMIT (R566). -/
def usesCommit (b : Nat) : Bool := match rowOf (b + 0x20) with | some r => (r.rw ||| r.own) % 64 == 63 | none => false

/-- COMMIT_GROUP_WRITE (R53). -/
def execCommitGroupWrite (b : BlockAddr) (group : Fin 64) (s : State) : Host.Outcome State Fault Refusal :=
  .next (s.hostWrite b.die.val (if usesCommit (blkAddr b) then s.commitGroup (blkAddr b) group.val else s))

/-- COMMIT_ARM (R49, R53). -/
def execCommitArm (b : BlockAddr) (group : Fin 64) (usToCutoff : Nat) (s : State) : Host.Outcome State Fault Refusal :=
  .next (s.hostWrite b.die.val (
    if usesCommit (blkAddr b) then (s.commitGroup (blkAddr b) group.val).armGroup group.val usToCutoff else s))

/-- CG_ABORT (R60): effective while the group waits for its cut-off. -/
def execCgAbort (group : Fin 64) (s : State) : Host.Outcome State Fault Refusal :=
  let n := group.val
  let st := s.get (cgB n) F.CG_STAT_STATE
  .next (if st = 1 ∨ st = 3 then
      ((s.put (cgB n) F.CG_STAT_STATE 0).setGrp n Grp.idle).pendings (s.membersOf n) |>.raise seqB 5
    else s)

/-- CG_CFG_WRITE (R65). -/
def execCgCfgWrite (group : Fin 64) (v : Word) (s : State) : Host.Outcome State Fault Refusal :=
  let n := group.val
  .next (if s.get (cgB n) F.CG_STAT_STATE ≠ 0 then s.cgBusy n
    else s.puts (cgB n) [(F.CG_CFG_DOMAIN, fldGet v 0 3), (F.CG_CFG_REQUIRE_FENCES, fldGet v 3 1)])

/-! The cut-off (R55 to R63). -/

/-- A route joins the context that a check has given it in a planned state `q` (R265): `mark` is its entry, or the entry of a join whose
take is still to come. -/
def State.joinCtx (s q : State) (entry mark : Nat) : State :=
  match allSlots.find? fun p => (q.ctx p.1 p.2).routes.contains entry with
  | none => s
  | some (e, c) =>
    let x := s.ctx e c
    let a := ctxA e c
    if s.slotUsed e c then
      (s.setCtx e c { x with
        routes := if x.routes.contains entry || x.routes.contains mark then x.routes else x.routes ++ [mark]
        release := none }).ctxRefresh e c
    else match (q.ctx e c).fmt with
      | some f => s.newCtx e c f (q.get a F.CTX_KEY_SRC) (q.get a F.CTX_KEY_DOMAIN) (q.get a F.CTX_KEY_SRC_FRATE)
          (q.get a F.CTX_KEY_DST_FRATE) (q.get a F.CTX_KEY_SRCMODE) mark
      | none => s

/-- Staged words of the groups that have been accepted. -/
def State.onWayWords (s : State) : List (Nat × Word) := s.onWay.flatMap fun n => (s.grp n).staging

/-- Bins held for a later take or resumption (R191, R207). -/
def State.reserve (s : State) (n : Nat) (l : List (Nat × (Nat × List Nat))) : State :=
  let keep := s.silo.reserved.filter fun p => !(p.1 == n && l.any fun q => q.1 == p.2.1)
  s.modSilo fun x => { x with reserved := keep ++ l.map fun q => (n, q.1, q.2) }

/-- The group is accepted (R56): shadows snapshotted, contexts and bins allocated, the take message sent; the paths of its routes are chosen
on the planned state `q`, and a fallback or return due to a route that it replaces is dropped (R165, R170). -/
def State.acceptGroup (s : State) (n : Nat) (st : List (Nat × Word)) (q : State) (bins : List (Nat × (Nat × List Nat))) : State :=
  let members := s.membersOf n
  let d := s.get (cgB n) F.CG_CFG_DOMAIN
  let frame := s.get (tdB d) F.TD_FRAME_COUNT + 1
  let r := (routesIn st).foldl (fun u p => u.joinCtx q (p.1 * 4096 + p.2) (ctxJoin + p.1 * 4096 + p.2)) (s.reserve n bins)
  let r := { r with tags := r.tags.filter fun (p : Nat × Nat) => p.2 != n }
  let r := (routesIn st).foldl (fun u p =>
    let x := u.route p.1 p.2
    u.setRoute p.1 p.2 { x with chosen := q.choosePath p.1 p.2, due := if x.due = 1 ∨ x.due = 2 then 0 else x.due }) r
  let r := (r.setGrp n ⟨st, members, 0, 0, frame % 2 ^ 32⟩).put (cgB n) F.CG_STAT_STATE 2
  (r.pendings members).emit (.take n (s.get (cgB n) F.CG_STAT_TOKEN) (frame % 2 ^ 32))

/-- A fence of the group is not ready (R63). -/
def State.fenceMissing (s : State) (st : List (Nat × Word)) : Bool :=
  (compsIn st).any fun g => [2, 3].any fun k => !(layerWords g k st).isEmpty && s.fenced g k && !s.fenceTest g k st

/-- The group is deferred to the next cut-off (R63). -/
def State.deferGroup (s : State) (n : Nat) : State :=
  let lim := s.get seqB F.SEQ_CFG_DEFER_LIMIT
  let k := (s.grp n).defers + 1
  let s := (s.puts (cgB n) [(F.CG_STAT_STATE, 3), (F.CG_STAT_RESULT, rcFence)]).setGrp n { Grp.idle with defers := k }
  let s := (s.membersOf n).foldl (fun u b => (u.puts b [(F.COMMIT_STAT_RESULT, rcFence), (F.COMMIT_STAT_SRC, 0),
    (F.COMMIT_STAT_TOKEN, u.get (cgB n) F.CG_STAT_TOKEN)]).pendingRefresh b) s
  s.raiseIf (lim == 0 || k == lim) seqB 1

/-- A group reaches its cut-off (R55, R58, R59, R61, R63). -/
def State.cutGroup (s : State) (n : Nat) : State :=
  let d := s.get (cgB n) F.CG_CFG_DOMAIN
  let st := s.tagged n
  if st.isEmpty then (s.setCgFrame n (s.get (tdB d) F.TD_FRAME_COUNT + 1)).groupEnd n rcOk []
  else match s.checkGroup st d with
    | .error e => s.refuseGroup n st e
    | .ok (q, bins) =>
      if s.is (cgB n) F.CG_CFG_REQUIRE_FENCES && s.fenceMissing st then s.deferGroup n else s.acceptGroup n st q bins

/-! Re-checks and restorations (R174, R183, R207, R213). -/

/-- A route gives up its share of its context (R267). -/
def State.giveUp (s : State) (t i : Nat) : State :=
  { s with conv := s.conv.map fun (p : Nat × Ctx) =>
    if p.2.routes.contains (t * 4096 + i) then
      let rs := p.2.routes.filter (· != t * 4096 + i)
      (p.1, { p.2 with routes := rs, release := if rs.isEmpty then some 2 else p.2.release })
    else p }

/-- What a route needs in order to count again: a context, read and write contexts, bins and bandwidth; the planned state and the bins,
or the code that fails. -/
def State.routeFits (p : State) (t i : Nat) : Except Nat (State × List (Nat × (Nat × List Nat))) :=
  let st := [(routeA t i, p.effRd (routeA t i))]
  match (if p.isConv t i then p.allocCtx t i else some p) with
  | none => .error rcNoConverter
  | some q =>
    let r := q.dropCtxs 2
    match r.tableCheck st (r.routeDomain t i) (r.groupNeeds st) with
    | .error _ => .error rcTableFull
    | .ok b =>
      match b.sumsCheck 0 with
      | .none => .ok (q, newBins r b)
      | _ => .error rcBandwidth

/-- The re-check of a route (R174). -/
def State.recheckTry (s : State) (t i : Nat) : Except Nat (State × List (Nat × (Nat × List Nat))) :=
  let p := (s.planned [(routeA t i, s.effRd (routeA t i))]).giveUp t i
  if p.floorBad [(t, i)] rcFormat (p.routeDomain t i) || (t == 0 && p.layerBad (i / 4) (i % 4)) then .error rcFormat
  else if t == 0 && p.linebufShort (i / 4) (i % 4) then .error rcLinebuf
  else p.routeFits t i

/-- A route is suspended (R174). -/
def State.suspend (s : State) (t i code : Nat) : State :=
  let a := routeStatA t i
  let was := s.is a F.ROUTE_STAT_SUSPENDED
  let s := s.puts a [(F.ROUTE_STAT_SUSPENDED, 1), (F.ROUTE_STAT_SUSPEND_CODE, code), (F.ROUTE_STAT_PATH, 0),
    (F.ROUTE_STAT_FALLBACK, 0), (F.ROUTE_STAT_SOURCE_OK, 0)]
  let s := s.setRoute t i { s.route t i with due := 0 }
  if was then s
  else
    ((if t = 2 then s.storeStops i else s).routeLeaves t i).routeEvent t i 2

/-- A route counts again from a cut-off on: its contexts and bins are its own, its path is chosen on the planned state `q`, and it resumes at
its next switching line, a store route at the frame pulse (R165, R174). -/
def State.routeBack (s : State) (t i : Nat) (q : State) (bins : List (Nat × (Nat × List Nat))) : State :=
  let a := routeStatA t i
  let c := s.routeSrc t i
  let s := ((s.giveUp t i).joinCtx q (t * 4096 + i) (t * 4096 + i)).puts a [(F.ROUTE_STAT_SUSPENDED, 0), (F.ROUTE_STAT_SUSPEND_CODE, 0),
    (F.ROUTE_STAT_SHED, 0), (F.ROUTE_STAT_EPOCH, if srcIsSdi c then s.srcEpoch c else 0)]
  let s := s.reserve 64 bins
  -- a ring that holds nothing begins at once
  let s := if t < 2 && (srcIsSdi c || srcIsIp c) && (s.ring c).bufs.isEmpty then (s.takeOld (s.routeDomain t i) c).ringAccept c else s
  s.setRoute t i { s.route t i with epoch := s.srcEpoch c, due := 3, chosen := q.choosePath t i }

/-- A route's re-check at a cut-off or at the first complete frame of a new epoch (R174). -/
def State.recheckRoute (s : State) (t i : Nat) : State :=
  if s.effIs (routeA t i) F.ROUTE_CFG_EPOCH_HOLD then s.suspend t i 0
  else match s.recheckTry t i with
    | .error code => s.suspend t i code
    | .ok (q, bins) => (s.routeBack t i q bins).routeEvent t i 3

/-- A route waits for its re-check: suspended by one that failed, or with a source in another epoch than it accepted. -/
def State.wantsRecheck (s : State) (t i : Nat) : Bool :=
  let a := routeStatA t i
  let c := s.routeSrc t i
  !s.is a F.ROUTE_STAT_SHED && (s.srcFmt c).isSome && !s.staged (routeA t i)
    && (if s.is a F.ROUTE_STAT_SUSPENDED then s.get a F.ROUTE_STAT_SUSPEND_CODE != 0 else (s.route t i).epoch != s.srcEpoch c)

/-- The re-checks at a cut-off of a domain, in ascending table index; a store route's first is not made here (R174). -/
def State.recheckAll (s : State) (d : Nat) : State :=
  s.allRoutes.foldl (fun u p =>
    if u.routeDomain p.1 p.2 = d && u.wantsRecheck p.1 p.2
        && (p.1 < 2 || u.is (routeStatA p.1 p.2) F.ROUTE_STAT_SUSPENDED) then u.recheckRoute p.1 p.2
    else u) s

/-- The shed routes of a domain in the order in which they are tried: descending PRIO, ascending amount, ascending index. -/
def State.restoreOrder (s : State) (d : Nat) (bySilo : Bool) : List (Nat × Nat) :=
  let amount (p : Nat × Nat) : Nat :=
    if bySilo then (s.put (routeStatA p.1 p.2) F.ROUTE_STAT_SHED 0).admission - s.admission
    else s.finRate (if p.1 = 0 then 0 else 1) p.1 p.2
  orderBy (fun p => ((7 - s.prio p.1 p.2) * 2 ^ 32 + amount p) * 2 ^ 16 + 4 * p.2 + p.1)
    (s.allRoutes.filter fun p => s.routeDomain p.1 p.2 == d
      && (if bySilo then (s.route p.1 p.2).siloShed else (s.route p.1 p.2).floorShed))

/-- A shed route is tried (R183, R213): it returns when it fits both budgets and a context can be allocated for it. -/
def State.restoreTry (s : State) (bySilo : Bool) (p : Nat × Nat) : State :=
  let t := p.1
  let i := p.2
  match ((s.planned []).put (routeStatA t i) F.ROUTE_STAT_SHED 0).routeFits t i with
  | .error _ => s
  | .ok (q, bins) =>
    let x := s.route t i
    let x := if bySilo then { x with siloShed := false } else { x with floorShed := false }
    let s := (if x.floorShed || x.siloShed then s.setRoute t i x
      else (s.setRoute t i x).routeBack t i q bins)
    if bySilo then s.siloEvent (routeTable t) i 8 else s.routeEvent t i 8

/-- The tries at a cut-off of a domain: by the Silo once the limit has risen (R213). -/
def State.restoreShed (s : State) (d : Nat) : State :=
  let s := (s.restoreOrder d false).foldl (fun u p => u.restoreTry false p) s
  if s.silo.rose then (s.restoreOrder d true).foldl (fun u p => u.restoreTry true p) s else s

/-- A source ring without a route that could be re-checked, or one that its input's lock now gives a format, gets new bins where they are free
and the sum fits; it takes them and its new epoch at the frame's pulse (R207, R569). -/
def State.keepTry (s : State) (d : Nat) : State :=
  let readers := s.readRoutes.map fun p => s.routeSrc p.1 p.2
  s.ringsOn.foldl (fun u c =>
    let bare := (u.binsOf c).2.isEmpty
    let moved := (u.ring c).accepted != u.srcEpoch c
    if (u.srcFmt c).isSome && !u.staged (sringA c) && (bare || (moved && !readers.contains c))
        && !(u.silo.reserved.any fun p => p.2.1 == c) then
      let p := u.planned []
      match p.allocNeeds d (p.needs.filter fun n => n.key == c) with
      | .error _ => u
      | .ok b =>
        if b.admission ≤ u.get siloB F.SILO_LIMIT_MBPS then u.reserve (72 + d) [(c, b.binsOf c)] else u
    else u) s

/-- TAKE_CUTOFF (R55): the groups of the domain in ascending order, then the paths of its routes (R170), shed routes, re-checks and rings held
by KEEP. -/
def execTakeCutoff (domain : Fin 8) (s : State) : Host.Outcome State Fault Refusal :=
  let d := domain.val
  .next (if s.is (tdB d) F.TD_STAT_STOPPED || (s.td d).cutPassed then s
    else
      let s := if s.noTake d then s
        else s.forAll (List.range 64) fun n u =>
          let st := u.get (cgB n) F.CG_STAT_STATE
          if u.get (cgB n) F.CG_CFG_DOMAIN = d ∧ (st = 1 ∨ st = 3) then u.cutGroup n else u
      let s := (s.allRoutes.filter fun p => p.1 < 2 && s.routeDomain p.1 p.2 == d).foldl (fun u p => u.pathDue p.1 p.2) s
      let s := ((s.restoreShed d).recheckAll d).keepTry d
      (s.setTd d { s.td d with cutPassed := true }).sumsRefresh.floorLive)

/-- RING_FRAME_COMPLETE (R200): at the first complete frame of a new epoch the store routes of the source are re-checked (R174). -/
def execRingFrameComplete (r : RingId) (cut : Bool) (s : State) : Host.Outcome State Fault Refusal :=
  let key := ringKey r
  let s := (s.ctxComplete key cut).ringComplete key cut
  .next (if cut then s
    else
      let l := (s.enabled 2).filter fun i => (0x600 + i == key || s.routeSrc 2 i == key)
        && !s.is (routeStatA 2 i) F.ROUTE_STAT_SUSPENDED && s.wantsRecheck 2 i
      if l.isEmpty then s else (l.foldl (fun u i => u.recheckRoute 2 i) s).sumsRefresh.floorLive)

/-! Take messages and the frame pulse (R56, R57, R176). -/

/-- TAKE_MESSAGE (R56): the die acknowledges; fences whose deadline is past are evaluated (R250). -/
def execTakeMessage (group : Fin 64) (die : Fin 8) (s : State) : Host.Outcome State Fault Refusal :=
  let n := group.val
  .next (if s.get (cgB n) F.CG_STAT_STATE = 2 ∧ s.present die.val then
      let s := s.setGrp n { s.grp n with acks := (s.grp n).acks ||| 2 ^ die.val }
      if 1 ≤ die.val ∧ die.val ≤ 6 then s.fenceOnMessage n die.val else s
    else s)

/-- Every Sheaf that answers has acknowledged the take of group n (R56). -/
def State.allAcked (s : State) (n : Nat) : Bool :=
  [1, 2, 3, 4, 5, 6].all fun d => !s.present d || bitN (s.grp n).acks d

/-- A layer's held staging whose route the take changes goes into effect at the take line (R251). -/
def State.heldByRoute (s : State) (n : Nat) : State :=
  (routesIn (s.grp n).staging).foldl (fun u r =>
    let l := u.layer (r.2 / 4) (r.2 % 4)
    if r.1 = 0 ∧ !l.heldStaging.isEmpty ∧ u.routeChanges (r.2 / 4) (r.2 % 4) n then
      u.setLayer (r.2 / 4) (r.2 % 4) { l with heldReady := true }
    else u) s

/-- Staged words carry their group's tag again, unless another group staged over them (R56). -/
def State.tagAgain (s : State) (n : Nat) (st : List (Nat × Word)) : State :=
  { s with tags := st.foldl (fun l (p : Nat × Word) => if (tget 64 l p.1) = 64 then tset 64 l p.1 n else l) s.tags }

/-- Staged routes give up the contexts that they were to join (R56). -/
def State.leaveJoins (s : State) (st : List (Nat × Word)) : State :=
  { s with conv := s.conv.map fun (p : Nat × Ctx) => (p.1, { p.2 with routes := p.2.routes.filter fun e =>
    !(ctxJoin ≤ e && (routesIn st).contains ((e - ctxJoin) / 4096, (e - ctxJoin) % 4096)) }) }

/-- A missing acknowledgement cancels the take on every die (R56): the group stays armed and its words tagged. -/
def State.cancelTake (s : State) (n : Nat) : State :=
  let g := s.grp n
  let s := (s.tagAgain n g.staging).leaveJoins g.staging
  let s := s.modSilo fun x => { x with reserved := x.reserved.filter fun p => p.1 != n }
  let s := (s.setGrp n Grp.idle).put (cgB n) F.CG_STAT_STATE 1
  let s := (routesIn g.staging).foldl (fun u r => u.setRoute r.1 r.2 { u.route r.1 r.2 with chosen := 0 }) s
  let s := (compsIn g.staging).foldl (fun u o => u.forAll [2, 3] fun k v =>
    if (layerWords o k g.staging).isEmpty then v else v.setLayer o k { v.layer o k with verdict := none }) s
  (((s.dropCtxs 1).pendings g.members).emit (.cancel n)).raise seqB 4

/-- Destination of an audio route that a context will have when the groups that are applying are taken. -/
def State.audPlanned (s : State) (n : Nat) : Nat :=
  fldGet (s.applying.foldl (fun w k => match (s.grp k).staging.find? fun p => p.1 == rsA n with
    | some p => p.2
    | none => w) (s.effRd (rsA n))) F.ROUTE_SRC_DST.lo F.ROUTE_SRC_DST.width

/-- Output whose switching line a router word waits for (R57): that of the SDI destination of its context, or of its DEST_CFG. -/
def State.audOutput (s : State) (a : Nat) : Option Nat :=
  let d := match audStagedCtx [(a, 0)], audStagedDest [(a, 0)] with
    | n :: _, _ => some (s.audPlanned n)
    | [], d :: _ => some d
    | [], [] => none
  match d with
  | some d => if d < 0xC00 then some (if s.outMember (d / 32) then d / 32 - d / 32 % 4 else d / 32) else none
  | none => none

/-- A word waits for a later instant than the frame pulse: of a composer or an audio page of an output that runs, of an audio route to one, or
of a transmit context with frames of its own (R57, R69). -/
def State.waitsLine (s : State) (a : Nat) : Bool :=
  if inComp a then !s.stopped (compB (portOf a 0x300 4))
  else if inAud a then !s.stopped (audB (portOf a 0x400 1))
  else match s.audOutput a with
    | some g => !s.stopped (outB g)
    | none => s.waitsTx a

/-- Words of a take bear on audio routes: their contexts, and those whose destination follows a video route that is taken, are resolved anew
at their next switch instant (R307, R310); a context that is disabled keeps nothing. -/
def State.audTaken (s : State) (w : List (Nat × Word)) : State :=
  let ctxs := audStagedCtx w
  let dests := audStagedDest w
  let routes := (routesIn w).filter fun r => r.1 < 2
  let follow := if dests.isEmpty && routes.isEmpty then [] else s.audEnabled.filter fun n =>
    dests.contains (s.audDst n) || (match s.followed (s.audDst n) with | some p => routes.contains p | none => false)
  let s := ctxs.foldl (fun u n =>
    if u.effIs (rsA n) F.ROUTE_SRC_EN then u.setActx n { u.actx n with due := true } else u.setActx n ACtx.empty) s
  let s := follow.foldl (fun u n => u.setActx n { u.actx n with due := true }) s
  if ctxs.isEmpty && dests.isEmpty then s
  else
    let outs := ascSet (((ctxs.map s.audDst ++ dests).filter (· < 0xC00)).map (· / 32))
    (outs.foldl (fun u g => u.embRefresh g) (s.modAud fun a => { a with slipped := false })).audCounts.rqRefresh

/-- What a take does to stores whose configuration changes (R193, R195): those allocated anew hold nothing, and stop delivering. -/
def State.storesTaken (s old : State) (l : List Nat) : State × List Nat :=
  let shape (u : State) (i : Nat) : List Nat := [F.STORE_CFG_KIND, F.STORE_CFG_DEPTH, F.STORE_CFG_DECIM, F.STORE_CFG_WIDTH,
    F.STORE_CFG_HEIGHT, F.STORE_CFG_SFMT].map fun f => u.effGet (storeA i) f
  let anew := l.filter fun i => shape s i != shape old i
  (anew.foldl (fun u i =>
    let k := 0x600 + i
    let r := u.ring k
    let u := u.setRing k { r with
      bufs := (r.bufs.filter fun b => !b.gone).map fun b => { b.clear with readers := [] }, delivering := false, capture := none }
    if u.effGet (storeA i) F.STORE_CFG_KIND = 3 || old.effGet (storeA i) F.STORE_CFG_KIND == 0 then u
    else (u.routesLose k (old.srcDelivers k)).contextsHold k) s, anew.map (0x600 + ·))

/-- Captures that a take asks for (R195). -/
def State.capturesTaken (s old : State) (l : List Nat) : State :=
  l.foldl (fun u i =>
    let v := u.effGet (storeA i) F.STORE_CFG_CAPTURE
    let r := u.ring (0x600 + i)
    if u.effGet (storeA i) F.STORE_CFG_KIND = 2 && v != old.effGet (storeA i) F.STORE_CFG_CAPTURE then
      u.setRing (0x600 + i) { r with
        bufs := r.bufs.map fun b => if b.st = 1 then b.clear else b
        capture := some v, asked := v }
    else u) s

/-- FREEZE of a source ring, taken (R204): its cut-through routes go to the stored path, and those come back. -/
def State.freezeTaken (s old : State) (codes : List Nat) : State :=
  codes.foldl (fun u c =>
    let now := u.effIs (sringA c) F.SRING_CFG_FREEZE
    if now = old.effIs (sringA c) F.SRING_CFG_FREEZE then u
    else (u.allRoutes.filter fun p => p.1 < 2 && u.routeSrc p.1 p.2 == c && u.routeActive p.1 p.2).foldl (fun v p =>
      let a := routeStatA p.1 p.2
      let x := v.route p.1 p.2
      let path := v.get a F.ROUTE_STAT_PATH
      if now then
        if path = 1 then ((v.puts a [(F.ROUTE_STAT_PATH, 2), (F.ROUTE_STAT_FALLBACK, 0)]).setRoute p.1 p.2 { x with
          wasCut := true, due := if x.due = 1 then 0 else x.due }).latencyChange p.1 p.2
        else v
      else if path = 2 && x.wasCut then
        let v := v.setRoute p.1 p.2 { x with wasCut := false }
        if v.windowOk p.1 p.2 then (v.puts a [(F.ROUTE_STAT_PATH, 1), (F.ROUTE_STAT_FALLBACK, 0)]).latencyChange p.1 p.2
        else v.put a F.ROUTE_STAT_FALLBACK 1
      else v) u) s

/-- What members without an output raster of their own take at the frame pulse, and stopped outputs with them (R57, R69, R176). -/
def State.takePulse (s : State) (d : Nat) : State :=
  let waits (a : Nat) : Bool := s.waitsLine a
  let w := s.partWords fun a => !waits a && !inComp a
  let old := s
  let s := (s.takePart fun a => !waits a && !inComp a).ipTaken old w
  let st := s.storesTaken old (storesIn w)
  let s := st.1.takeBins st.2
  let s := (st.2.filter fun k => s.effGet (storeA (k - 0x600)) F.STORE_CFG_KIND == 3).foldl State.surfaceAnew s
  let s := (s.takeKept d).capturesTaken old (storesIn w)
  let s := (routesIn w).foldl (fun u r => u.routeTaken old r.1 r.2) s
  let s := s.freezeTaken old (ringsIn w)
  let s := (ringsIn w).foldl (fun u c => (if old.ringsOn.contains c then u else u.ringAccept c).siloStat c) s
  let s := (storesIn w).foldl (fun u i => u.siloStat (0x600 + i)) s
  let outs := (compsIn s.onWayWords).filter fun g => s.stopped (compB g)
  let s := outs.foldl (fun u g => (u.composerGroups g).foldl (fun v n => v.composerTake g n) u) s
  let s := if (audStagedAsrc w).isEmpty then s else s.asrcSettle
  let s := s.audTaken w
  -- routes of destinations without a take line of their own
  let s := (s.allRoutes.filter fun p =>
    if p.1 = 0 then s.stopped (outB (p.2 / 4)) else p.1 == 2 || !txFramed (s.effRd (txA p.2))).foldl (fun u p =>
      if u.routeDomain p.1 p.2 = d then u.routeDue p.1 p.2 else u) s
  let s := (s.dropCtxs 2).dropRings d
  (ascSet (outs ++ ((routesIn w).filter fun r => r.1 == 0).map fun r => r.2 / 4)).foldl (fun u g => u.layerStats g) s

/-- Bins and contexts on their way to be free come one pulse of the domain nearer (R191, R266). -/
def State.releasePulse (s : State) (d : Nat) : State :=
  let tick (p : Nat × Nat × List Nat) : Option (Nat × Nat × List Nat) :=
    if p.1 ≠ d then some p else if p.2.1 ≤ 1 then none else some (p.1, p.2.1 - 1, p.2.2)
  let free := (s.silo.releasing.filter fun p => p.1 == d && p.2.1 ≤ 1).flatMap fun p => p.2.2
  let s := (s.modSilo fun x => { x with releasing := x.releasing.filterMap tick }).tagBins free
  allSlots.foldl (fun u p =>
    if u.slotUsed p.1 p.2 && u.get (ctxA p.1 p.2) F.CTX_KEY_DOMAIN == d then
      match (u.ctx p.1 p.2).release with
      | some n => if n ≤ 1 then u.freeCtx p.1 p.2 else u.setCtx p.1 p.2 { u.ctx p.1 p.2 with release := some (n - 1) }
      | none => u
    else u) s

/-- A domain stops at its pulse, and every output assigned to it (R146); groups left armed are checked (R62). -/
def State.domainStop (s : State) (d : Nat) : State :=
  let s := (s.put (tdB d) F.TD_STAT_STOPPED 1).setTd d { s.td d with stopping := false }
  let s := s.forAll (s.outputsOf d) fun g u =>
    if u.outMember g then u
    else
      let u := (u.put (outB g) F.CTRL_RUN 0).setTx g { u.tx g with starting := false }
      if u.is (outB g) F.STAT_STOPPED then u.put (outB g) F.STAT_BUSY 0 else u.outStop g
  let s := s.forAll (List.range 64) fun n u =>
    let st := u.get (cgB n) F.CG_STAT_STATE
    if u.get (cgB n) F.CG_CFG_DOMAIN = d ∧ (st = 1 ∨ st = 3) then
      let l := u.tagged n
      u.refuseGroup n l (u.checkStopped l d)
    else u
  if s.is (tdB d) F.TD_CTRL_RUN then s.tdStart d else s

/-- The alignment of a domain at its pulse (R148 to R150): the pulse after a jump is the new one; ALIGN_IDLE asks for a jump where no
output of the domain runs. -/
def State.pulseAlign (s : State) (d : Nat) (fromPoint : Int) : State :=
  let b := tdB d
  let x := s.td d
  if x.jumped then
    let s := ((s.setTd d { x with jumped := false, jumpIdle := false, mis := 0 }).puts b
      [(F.TD_MISALIGN_NS, 0), (F.TD_STAT_ALIGNED, 1)]).raiseIf (!x.jumpIdle) tcB 18
    s.forAll (s.outputsOf d) fun g u => if u.outMember g then u else u.outResume g
  else if x.starting then
    (s.setTd d { x with starting := false, mis := 0 }).puts b [(F.TD_MISALIGN_NS, 0), (F.TD_STAT_ALIGNED, 1)]
  else
    let s := s.tdMeasure d fromPoint
    let idle := (s.outputsOf d).all fun g => s.is (outB g) F.STAT_STOPPED
    if s.is b F.TD_CFG_ALIGN_IDLE && idle && !s.is b F.TD_STAT_ALIGNED && !s.is b F.TD_STAT_PULLING
        && !s.is b F.TD_STAT_JUMP_PENDING && !x.stopping then
      (s.put b F.TD_STAT_JUMP_PENDING 1).setTd d { x with jumpFrame := s.get b F.TD_FRAME_COUNT, jumpIdle := true }
    else s

/-- A frame pulse of a running domain (R56, R57, R145). -/
def State.framePulse (s : State) (d : Nat) (fromPoint : Int) : State :=
  let b := tdB d
  let s := s.forAll (List.range 64) fun n u =>
    if u.get (cgB n) F.CG_STAT_STATE = 2 ∧ u.get (cgB n) F.CG_CFG_DOMAIN = d then
      if u.allAcked n then ((u.put (cgB n) F.CG_STAT_STATE 4).fenceConfirm n).heldByRoute n else u.cancelTake n
    else u
  let s := (s.put b F.TD_FRAME_COUNT (s.get b F.TD_FRAME_COUNT + 1)).setTd d { s.td d with cutPassed := false }
  let s := (s.takePulse d).releasePulse d
  -- a frame of the domain's destinations on the media ports ends (R294)
  let s := (s.audDests.filter fun e => 0xC00 ≤ e && s.audDomain e == some d).foldl (fun u e => u.clipRoll e) s
  let s := s.pulseAlign d fromPoint
  let s := s.groupsDone
  let s := if (s.td d).stopping then s.domainStop d else s
  s.sumsRefresh.floorLive

/-- DOMAIN_FRAME_PULSE (R145). -/
def execDomainFramePulse (domain : Fin 8) (fromPoint : Int) (s : State) : Host.Outcome State Fault Refusal :=
  .next (if s.is (tdB domain.val) F.TD_STAT_STOPPED then s else s.framePulse domain.val fromPoint)

/-- DOMAIN_START (R145): the first pulse of a started domain, on its target. -/
def execDomainStart (d : Fin 8) (s : State) : Host.Outcome State Fault Refusal :=
  .next (if !s.is (tdB d.val) F.TD_STAT_STOPPED && (s.td d.val).starting then s.framePulse d.val 0 else s)

/-- TAKE_APPLY (R57): the take line of an output: its composer and audio page, the audio routes to it, what is due for its layers' routes, and
the frames they show (R201). -/
def execTakeApply (g : Fin 96) (s : State) : Host.Outcome State Fault Refusal :=
  let o := g.val
  .next (if !s.present (o / 16 + 1) || s.outMember o then s
    else
      let s := s.composerFrame o
      let mine (a : Nat) : Bool := (inAud a && portOf a 0x400 1 == o) || s.audOutput a == some o
      let s := (s.takePart mine).audTaken (s.partWords mine)
      let routes := (List.range 4).map fun k => (0, 4 * o + k)
      let s := routes.foldl (fun u p => u.routeDue p.1 p.2) s
      ((s.selectReaders routes).layerStats o).groupsDone)

end Sys2Proof.Machine
end

