-- ==== Sys2Proof/Machine/Writes.lean ====
section
/-! DEFINITION. Register writes outside the commands of one unit (R13 to R16), structural writes, run, stop and soft reset of blocks
(R49, R67, R68, R95, R98, R370, R566, R568), and the slack monitors (R32, R33, R513). -/

namespace Sys2Proof.Machine

/-! What follows a direct write. -/

/-- Bytes of fault-log entry `i` of the ring of sectors 16–23 (R442, R517). -/
def State.logBytes (s : State) (i : Nat) : List Byte := s.fBytes (0x100000 + 32 * (i % 16384)) 32

/-- LOG_ENTRY and LOG_ENTRY_VALID show the entry that LOG_IDX names, counted back from the newest (R517, R521). -/
def State.logRefresh (s : State) : State :=
  let l := s.logBytes (s.mg.logNext + 32767 - s.get (gPage 0x233) F.LOG_IDX_ENTRY)
  let ok := l.headD 0 == 0x5A && ofBe (l.drop 28) == crc32 ((l.drop 1).take 27)
  (s.forAll (List.range 8) fun k u =>
    u.wr (gPage 0x233 + 4 + 4 * k) (BitVec.ofNat 32 (ofLe ((l.drop (4 * k)).take 4)))).put (gPage 0x233)
      F.LOG_ENTRY_VALID_VALID (b2n ok)

/-- The host ring of forwarded records is full (R524: YF_STALL). -/
def State.yfFull (s : State) : Bool :=
  let n := s.get (gPage 0x233) F.YF_SLOTS_COUNT
  n != 0 && (s.get (gPage 0x233) F.YF_WR_SLOT + 1) % n == s.get (gPage 0x233) F.YF_RD_SLOT

/-- YF_STALL is raised when forwarding stops, and is live while it is stopped. -/
def State.yfRefresh (s : State) : State :=
  (s.raiseIf (s.yfFull && !s.is mgB ⟨0x1C, 17, 1⟩) mgB 17).live mgB 17 s.yfFull

/-- PTP_CFG and the accept list as they now stand (R349); `old` is PTP_CFG before the write. -/
def State.ptpConfigured (s : State) (n : Nat) (old : Word) : State :=
  let b := ipB n 1
  let lose (u : State) : State := if u.candActive (8 + n) && u.get b F.PTP_STAT_STATE < 2 then u.candLost (8 + n) else u
  if !s.is b F.PTP_CFG_EN then
    lose (((s.setPtp n Ptp.idle).put b F.PTP_STAT_TWO_STEP 0).ptpState n 0)
  else
    let x := s.ptp n
    let same := bitN old.toNat 8 && old.toNat % 256 == s.get b F.PTP_CFG_DOMAIN
    let l := if same then x.masters.filter fun a => s.ptpAccepts n a.sender else []
    lose ((s.setPtp n { x with masters := l }).ptpSelect n)

/-- Candidates after a write of the timing core's configuration (R118, R121, R122). -/
def State.tcConfigured (s : State) : State :=
  let s := s.trackBwChanged
  ((s.forAll (List.range 16) fun c t =>
    if t.candActive c && candKind c == 4 && !t.candSrcOk c then t.candLost c else t.requal c).tempRefresh).tcRefresh

/-- What follows a direct write of a word of Granary at once. -/
def State.afterGranary (s : State) (a : Nat) (old : Word) : State :=
  let p := pageOf a
  let o := offOf a
  if p = 0x010 then
    if o = 0x394 then ((List.range 16).foldl (fun u k => u.setEvg (496 + k) (u.evActive (496 + k))) s).refreshVecs
    else s.refreshVecs
  else if 0x020 ≤ p ∧ p ≤ 0x023 then s.tcConfigured
  else if p = 0x080 then (if o = 0x44 then s.limitRefresh else s)
  else if p = 0x0D0 then (if o = 0x6C then s.poisonRefresh else s.sumsRefresh)
  else if 0x100 ≤ p ∧ p < 0x140 then
    if p % 16 = 1 then
      s.ptpConfigured ((p - 0x100) / 16) (if o = 0 then old else s.rd (blockBase a + 0x1000))
    else s
  else if p = 0x180 ∨ p = 0x1B9 ∨ p = 0x1BA then s.rqRefresh
  else if 0x1C0 ≤ p ∧ p < 0x1C8 then (if o = 0x40 then s.poolRefresh else s)
  else if p = 0x210 then s.nvRefresh
  else if p = 0x220 then s.busGo
  else if p = 0x233 then s.logRefresh.yfRefresh
  else if p = 0x23F ∧ o = 0x18 then { s with mg := { s.mg with logFull := false } }
  else s

/-- What follows a direct write at once, for every die. -/
def State.afterWrite (s : State) (a : Nat) (old : Word) : State :=
  let p := pageOf a
  if a = blockBase a + 0x14 then s.refreshBlock (blockBase a) (evMaskOf (blockBase a))
  else if dieOf a = 0 then s.afterGranary a old
  else if 0x400 ≤ p ∧ p < 0x410 then s.embRefresh (portOf a 0x400 1)
  else s

/-! REGISTER_WRITE (R13 to R16). -/

/-- The RW and W1C bits of a register written; bits that only M1 may write are ignored from the host (R520). -/
def State.directPut (s : State) (m1 : Bool) (a : Nat) (r : Row) (v : Word) : State :=
  let old := s.rd a
  let w := mergeWord old v (r.rw ||| (if m1 then r.m1 else 0))
  let cleared := w &&& ~~~(v &&& BitVec.ofNat 32 r.w1c)
  (s.wr a (clampReg a cleared)).afterWrite a old

/-- A write of a register by the host or by M1. Words whose writing has a command of its own keep those bits; the counters of a free
converter slot read zero whatever is written (R286). -/
def State.regWrite (s : State) (m1 : Bool) (a : Nat) (v : Word) : State :=
  let p := pageOf a
  let o := offOf a
  match rowOf a with
  | none => s
  | some r =>
    if dieOf a = 0 ∧ p = 0x234 then s.wr a v
    else if dieOf a = 0 ∧ p = 0x011 ∧ o % 16 = 12 then (if bitN v.toNat 0 then s.put a ⟨0, 0, 1⟩ 1 else s)
    else if dieOf a = 0 ∧ p = 0x230 ∧ o = 0x4C then
      if m1 ∧ bitN v.toNat 0 = false then (s.put mgB F.MG_DBG_EN 0).live mgB 18 false else s
    else if dieOf a = 0 ∧ 0x100 ≤ p ∧ p < 0x140 ∧ p % 16 = 15 ∧ o = 0 ∧ s.is (gPage p) F.HQT_STAT_BUSY then s
    else if r.rw = 0 ∧ r.w1c = 0 ∧ r.m1 = 0 then s
    else if dieOf a = 0 ∧ 0x1C0 ≤ p ∧ p < 0x1C8 ∧ 0x80 ≤ o ∧ o < 0x100 ∧ s.slotUsed (p - 0x1C0) ((o - 0x80) / 0x40) = false then s
    else if dieOf a ≠ 0 ∧ 0x300 ≤ p ∧ p < 0x340 ∧ p % 4 = 2 ∧ s.outMember (portOf a 0x300 4) then s.raise (blockBase a) 5
    else s.directPut m1 a r v

/-- REGISTER_WRITE. -/
def execRegisterWrite (m1 : Bool) (a : RegAddr) (v : Word) (s : State) : Host.Outcome State Fault Refusal :=
  .next (s.hostWrite a.die.val (s.regWrite m1 (regAddr a) v))

/-! Structural writes (R68, R95). -/

/-- A refused structural write or soft reset (R68). -/
def State.refuseStruct (s : State) (base : Nat) : State := (s.refuseDirect base rcStructural).raise seqB 3

/-- Kind of a block that runs: 1 input, 2 output, 3 IP port, 4 memory channel 0; 0 for the rest (R566). -/
def runKind (base : Nat) : Nat :=
  let p := pageOf base
  if dieOf base = 0 then (if 0x100 ≤ p ∧ p < 0x140 then 3 else if p = 0x0C0 then 4 else 0)
  else if dieOf base = 7 then 0
  else if 0x100 ≤ p ∧ p < 0x110 then 1
  else if 0x200 ≤ p ∧ p < 0x210 then 2
  else 0

/-- The structural field's block or domain is stopped (R67, R146, R245, R370). -/
def State.structStopped (s : State) (a : Nat) : Bool :=
  if dieOf a = 0 ∧ pageOf a = 0x022 then s.is (tdB (offOf a / 64)) F.TD_STAT_STOPPED else s.stopped (blockBase a)

/-- Mask of the BOND bit of a first port's configuration word; 0 for another word (R95). -/
def bondMask (a : Nat) : Nat :=
  if runKind (blockBase a) = 1 ∧ offOf a = 0x40 then 2 ^ 3 else if runKind (blockBase a) = 2 ∧ offOf a = 0x40 then 2 ^ 16 else 0

/-- Port of an input or output page. -/
def portOfRun (base : Nat) : Nat := portOf base (if runKind base = 1 then 0x100 else 0x200) 1

/-- All four ports of the group of an input or output page are stopped (R95). -/
def State.fourStopped (s : State) (base : Nat) : Bool :=
  let g := portOfRun base
  let q := g - g % 4
  (List.range 4).all fun i => s.is (if runKind base = 1 then inB (q + i) else outB (q + i)) F.STAT_STOPPED

/-- An input group is bonded or no longer: every receiver locks anew (R97, R98). -/
def State.inBondChanged (s : State) (q : Nat) : State :=
  let on := s.inBonded q
  s.forAll [q, q + 1, q + 2, q + 3] fun g t =>
    let t := if 2 ≤ t.get (inB g) F.IN_STAT_STATE then t.rxLoss g 2 none else t
    let t := t.setRx g { t.rx g with group := false, together := 0 }
    t.put (inB g) F.IN_STAT_MEMBER (b2n (on && g != q))

/-- An output group is bonded or no longer: members report state 3; a port that leaves the group is a stopped output of its own
(R98, R106). -/
def State.outBondChanged (s : State) (q : Nat) : State :=
  let on := s.outBonded q
  s.forAll [q + 1, q + 2, q + 3] fun g t =>
    if on then
      ((t.put (outB g) F.STAT_BUSY 0).setTx g { t.tx g with starting := false, finishing := false, toBlack := false }).outSend g 3
    else (t.setTx g { t.tx g with toBlack := t.blackMode g && !(t.tx g).dirty }).outSend g 0

/-- What follows an accepted structural write. A receiver that holds lock in a class that IN_CFG.RATE no longer asks for keeps it: the
write itself is none of the four causes of R90 (R86; DESIGN CHOICE, log 69). -/
def State.afterStruct (s : State) (kind base a : Nat) (old : Word) (changed : Bool) : State :=
  match kind with
  | 1 => if changed then s.inBondChanged (portOfRun base) else s
  | 2 =>
    let s := s.outCfgChanged (portOfRun base) old
    let s := if changed then s.outBondChanged (portOfRun base) else s
    (s.embRefresh (portOfRun base)).sumsRefresh
  | 4 => s
  | _ => if dieOf a = 0 then s.tcRefresh else s.sumsRefresh

/-- The RWX bits of a register written, or refused (R68); BOND is reserved outside a first port's page (R95). -/
def State.structWrite (s : State) (a : Nat) (v : Word) : State :=
  match rowOf a with
  | none => s
  | some r =>
    if r.rwx = 0 then s
    else
      let base := blockBase a
      let bm := bondMask a
      let mask := if bm ≠ 0 ∧ portOfRun base % 4 ≠ 0 then r.rwx - (r.rwx &&& bm) else r.rwx
      let old := s.rd a
      let new := mergeWord old v mask
      let bond := bm ≠ 0 ∧ (old ^^^ new).toNat &&& bm ≠ 0
      if !s.structStopped a || (bond && !s.fourStopped base) then s.refuseStruct base
      else (s.wr a new).afterStruct (runKind base) base a old ((old ^^^ new).toNat &&& bm != 0)

/-- STRUCTURAL_WRITE (R68). -/
def execStructuralWrite (a : RegAddr) (v : Word) (s : State) : Host.Outcome State Fault Refusal :=
  .next (s.hostWrite a.die.val (s.structWrite (regAddr a) v))

/-! Run and stop (R67, R326, R370, R568). -/

/-- A stop of the memory subsystem is acted on (R370). -/
def State.memMayStop (s : State) : Bool :=
  ((List.range 96).all fun g => !s.present (g / 16 + 1) || s.is (outB g) F.STAT_STOPPED)
    && ((List.range 8).all fun d => s.is (tdB d) F.TD_STAT_STOPPED)
    && ((List.range 4).all fun n => s.is (ipB n 0) F.STAT_STOPPED)
    && s.allRoutes.isEmpty && s.audEnabled.isEmpty

/-- A block that is no output takes a stop request: it drains (R67). -/
def State.requestStop (s : State) (base : Nat) : State :=
  let s := s.put base F.CTRL_RUN 0
  if s.is base F.STAT_STOPPED then s else s.put base F.STAT_BUSY 1

/-- CTRL.RUN of a block of a kind is cleared (R67); a bond member's write is ignored (R98). -/
def State.clearRun (s : State) (kind base : Nat) : State :=
  match kind with
  | 1 => if s.inMember (portOfRun base) then s else s.requestStop base
  | 2 => s.outHalt (portOfRun base)
  | 3 => s.requestStop base
  | 4 => if s.memMayStop then s.requestStop base else s.refuseStruct base
  | _ => s

/-- CTRL_RUN_CLEAR (R67). -/
def execCtrlRunClear (b : BlockAddr) (s : State) : Host.Outcome State Fault Refusal :=
  .next (s.hostWrite b.die.val (s.clearRun (runKind (blkAddr b)) (blkAddr b)))

/-- The memory subsystem runs (R370): every channel is trained afresh, and what the Silo held is lost. -/
def State.memRun (s : State) : State :=
  let s := s.puts (mcB 0) [(F.STAT_STOPPED, 0), (F.STAT_BUSY, 0), (F.MEM_STAT_LOST, 0), (F.MEM_STAT_INIT_DONE, 0)]
  let s := s.forAll (List.range 12) fun c u => u.puts (mcB c) [(F.MC_STAT_STATE, 1), (F.MC_STAT_REASON, 0)]
  let s := s.modMem fun x => { x with erased := 0, restoring := 0, badBurst := 0, rebuildPos := 0, raw := 0 }
  let empty (r : Ring) : Ring := { r with bufs := r.bufs.map fun b => { b.clear with readers := [] }, capture := none }
  let rings := s.silo.rings.map fun (p : Nat × Ring) => (p.1, empty p.2)
  let s := { s with silo := { s.silo with rings := rings, combining := [], held := [] } }
  (s.put wnB F.WN_REBUILD_STAT_ACTIVE 0).memRefresh

/-- A stopped block starts (R67, R568). -/
def State.blockStart (s : State) (base : Nat) : State :=
  if runKind base = 4 then s.memRun else s.puts base [(F.STAT_STOPPED, 0), (F.STAT_BUSY, 0)]

/-- CTRL.RUN is set: a stopped block starts, one that is stopping starts when it has stopped (R67). -/
def State.blockRun (s : State) (base : Nat) : State :=
  let s := s.put base F.CTRL_RUN 1
  if s.is base F.STAT_STOPPED then s.blockStart base else s

/-- What ends with the stop of a block, by its kind. -/
def State.afterStop (s : State) (kind base : Nat) : State :=
  match kind with
  | 1 => s.pipeStops (portOfRun base) none
  | 3 =>
    let c := 8 + (pageOf base - 0x100) / 16
    if s.candActive c then s.candLost c else s
  | _ => s.forAll (List.range 12) fun c u => u.put (mcB c) F.MC_STAT_STATE 0

/-- A requested stop ends: an output stops by its own steps (R108), any other block becomes stopped and starts again where CTRL.RUN is
set. -/
def State.blockStops (s : State) (kind base : Nat) : State :=
  if kind = 2 then s.outStop (portOfRun base)
  else
    let s := (s.puts base [(F.STAT_STOPPED, 1), (F.STAT_BUSY, 0)]).afterStop kind base
    if s.is base F.CTRL_RUN then s.blockStart base else s

/-- A block of this kind has a stop to end: it is present and stopping. -/
def State.stopping (s : State) (kind base : Nat) : Bool :=
  s.present (dieOf base) && kind != 0 && s.is base F.STAT_BUSY && !s.is base F.STAT_STOPPED

/-- BLOCK_STOPPED (R67): the end of a requested stop. -/
def execBlockStopped (b : BlockAddr) (s : State) : Host.Outcome State Fault Refusal :=
  .next (if s.stopping (runKind (blkAddr b)) (blkAddr b) then s.blockStops (runKind (blkAddr b)) (blkAddr b) else s)

/-- CTRL.RUN of a block of a kind is set (R67); a bond member's write is ignored (R98). -/
def State.setRun (s : State) (kind base : Nat) : State :=
  match kind with
  | 0 => s
  | 1 => if s.inMember (portOfRun base) then s else s.blockRun base
  | 2 => s.outRun (portOfRun base)
  | _ => s.blockRun base

/-- CTRL_RUN_SET (R67, R108). -/
def execCtrlRunSet (b : BlockAddr) (s : State) : Host.Outcome State Fault Refusal :=
  .next (s.hostWrite b.die.val (s.setRun (runKind (blkAddr b)) (blkAddr b)))

/-! Soft reset (R49, R566). -/

/-- Every register of a block at its reset value, its shadows discarded and its events clear. -/
def State.clearBlock (s : State) (base : Nat) : State :=
  let keep (a : Nat) : Bool := blockBase a != base
  { s with
    regs := s.regs.filter fun p => keep p.1
    eff := s.eff.filter fun p => keep p.1
    tags := s.tags.filter fun p => keep p.1 }

/-- What a soft reset does beside the registers of the block. `old` is the state before it. -/
def State.afterReset (s old : State) (kind base : Nat) : State :=
  match kind with
  | 1 =>
    let g := portOfRun base
    let s := (s.setRx g Rx.idle).rxLive g
    if g % 4 = 0 ∧ old.inBonded g then s.inBondChanged g else s.put (inB g) F.IN_STAT_MEMBER (b2n (s.inMember g))
  | 2 =>
    let g := portOfRun base
    let st := old.get (outB g) F.OUT_STAT_STATE
    let s := s.put (outB g) F.OUT_STAT_STATE st
    let s := (s.setTx g { s.tx g with starting := false, driverFault := false }).outCfgChanged g (old.rd (outB g + 0x40))
    let s := if st = 0 then s.setTx g { s.tx g with toBlack := !(s.tx g).dirty } else s
    let s := if g % 4 = 0 ∧ old.outBonded g then s.outBondChanged g else s
    (s.outSend g st).sumsRefresh
  | 3 =>
    let n := (pageOf base - 0x100) / 16
    let words := (old.eff.filter fun q => blockBase q.1 == base).map fun q => (q.1, resetWord q.1)
    let gone (i : Nat) : Bool := i / 64 == n
    let s := s.modIp fun x => { x with
      assocs := x.assocs.filter fun q => !gone q.1
      hqr := tset [] x.hqr n []
      hqt := tset [] x.hqt n []
      i2c := tset [] x.i2c (n / 2) ((tget [] x.i2c (n / 2)).filter fun q => q.1 != n)
      dead := x.dead.filter fun k => k / 4096 != n }
    let s := (s.setPtp n Ptp.idle).ipTaken old words
    let s := if s.candActive (8 + n) then s.candLost (8 + n) else s
    (s.ipLive n).sumsRefresh
  | _ =>
    -- a composer: layers start anew and repaired coefficients are in use again; the LUT banks are memory, not registers
    let g := portOf base 0x300 4
    (s.setComp g { s.comp g with layers := [], badCoef := [] }).sumsRefresh

/-- A soft reset of a stopped block (R49). -/
def State.softReset (s : State) (base : Nat) : State :=
  let s := if runKind base = 1 ∧ (s.rx (portOfRun base)).link then s.rxLoss (portOfRun base) 0 none else s
  let t := ((s.clearBlock base).afterReset s (runKind base) base).wr (base + 0x10) 0
  let t := t.refreshBlock base (evMaskOf base)
  if runKind base = 1 then t.rxLive (portOfRun base) else t

/-- The block has a CTRL.SOFT_RESET (R566). -/
def hasReset (base : Nat) : Bool := match rowOf (base + 8) with | some r => bitN r.own 31 | none => false

/-- A write of CTRL.SOFT_RESET (R49): ignored and reported while the block runs. -/
def State.resetWrite (s : State) (base : Nat) : State :=
  if hasReset base then (if s.stopped base then s.softReset base else s.refuseStruct base) else s

/-- SOFT_RESET (R49). -/
def execSoftReset (b : BlockAddr) (s : State) : Host.Outcome State Fault Refusal :=
  .next (s.hostWrite b.die.val (s.resetWrite (blkAddr b)))

/-! Slack monitors (R32, R33, R513). -/

/-- Register of a monitor, and the block and first bit of its events. -/
def slackAt : SlackMon → Nat × Nat × Nat
  | .granary k => (gPage 0x232 + 4 * k.val, mgB, 11)
  | .input g => (shB (g.val / 16 + 1) 0x500 + 0x40 + 4 * (g.val % 16), shB (g.val / 16 + 1) 0x500, 0)
  | .output g => (shB (g.val / 16 + 1) 0x500 + 0x80 + 4 * (g.val % 16), shB (g.val / 16 + 1) 0x500, 0)
  | .finano d up => (shB d.val 0x500 + 0xC0 + 4 * b2n up, shB d.val 0x500, 0)

/-- The monitor exists: its die is a Sheaf that answers, or Granary. -/
def State.slackHas (s : State) (m : SlackMon) : Bool :=
  let d := dieOf (slackAt m).1
  match m with
  | .finano d _ => 1 ≤ d.val && d.val ≤ 6 && s.present d.val
  | _ => s.present d

/-- SLACK_WINDOW_END (R32, R33): the slack in 0.01 %, saturating. -/
def execSlackWindowEnd (m : SlackMon) (slack : Int) (s : State) : Host.Outcome State Fault Refusal :=
  let a := (slackAt m).1
  let v := clampI (-32767) 32767 slack
  .next (if s.slackHas m then
      let low := if tget false s.mg.slack a then min (s.geti a F.SLK_MIN) v else v
      let s := (s.puti a F.SLK_CUR v).puti a F.SLK_MIN low
      let s := { s with mg := { s.mg with slack := tset false s.mg.slack a true } }
      (s.raiseIf (slack < 1000) (slackAt m).2.1 (slackAt m).2.2).raiseIf (slack < 300) (slackAt m).2.1 ((slackAt m).2.2 + 1)
    else s)

/-- SLACK_READ (R513): the read returns MIN, which then becomes CUR. -/
def execSlackRead (m : SlackMon) (s : State) : Host.Outcome State Fault Refusal :=
  let a := (slackAt m).1
  .next (if s.slackHas m then (s.answer (s.rd a)).puti a F.SLK_MIN (s.geti a F.SLK_CUR)
    else (s.absentAccess (dieOf a)).answer 0xFFFFFFFF)

end Sys2Proof.Machine
end

