-- ==== Sys2Proof/Machine/Yumen.lean ====
section
/-! DEFINITION. The Yumen exposure meter (chapter 15): its seconds, records, clock, seal and calibration, the record link, the
mirror and the record bridge on Granary, and the limiter assist (R313, R495). -/

namespace Sys2Proof.Machine

/-- Update Yumen's own state. -/
def State.modYm (s : State) (f : Ym → Ym) : State := { s with ym := f s.ym }

/-- Yumen is in the part and powered (R5, R488). -/
def State.ymOn (s : State) : Bool := s.populated 7 && s.ym.powered

/-! Health and events (R490, R499). -/

/-- STATUS of an input in its last block (R477). -/
def YmIn.stat (i : YmIn) : Nat := (i.block.getD 20 0).toNat

/-- METRO_OK (R490). -/
def Ym.ok (y : Ym) : Bool :=
  y.powered && y.measuring && !y.sealOpen && y.rtcValid && y.signOk
    && (y.cals.zip y.ins).all fun p => !p.1.en || !bitN (YmIn.stat p.2) 3

/-- An event of Yumen's: in the record in progress, and in the next status frame. -/
def Ym.event (y : Ym) (k : Nat) : Ym := { y with events := y.events ||| 2 ^ k, evStatus := y.evStatus ||| 2 ^ k }

/-- METRO_NOT_OK where METRO_OK falls. -/
def Ym.settle (y old : Ym) : Ym := if old.ok && !y.ok then y.event 11 else y

/-- Live bits of the status frame; bit 7 of `live` is held since the last valid offer. -/
def Ym.liveBits (y : Ym) : Nat :=
  b2n y.sealOpen + 2 ^ 4 * b2n (!y.rtcValid) + 2 ^ 5 * b2n ((y.cals.zip y.ins).any fun p => p.1.en && bitN (YmIn.stat p.2) 3)
    + 2 ^ 6 * b2n (y.ins.any fun i => bitN (YmIn.stat i) 1) + 2 ^ 7 * b2n (bitN y.live 7) + 2 ^ 10 * b2n (!y.signOk)
    + 2 ^ 11 * b2n (!y.ok)

/-! Levels (R473, R474). -/

/-- 10·log₁₀(num ÷ den) in 0.01 dB, rounded to nearest, from 0 to 16,383. -/
def levelOf (num den : Nat) : Nat :=
  let a := num ^ 2000 * 10
  let b := den ^ 2000
  (List.range 14).foldl (fun c k => if b * 10 ^ (2 * (c + 2 ^ (13 - k))) ≤ a then c + 2 ^ (13 - k) else c) 0

/-- Full scale of an input in 0.001 dB (R471, R473); of RANGE 3, which the spec does not define, a free value. -/
def fullScale (c : YmCal) (free : Nat) : Int :=
  if c.range = 3 then free else 100000 - 20000 * c.range - sgn 16 c.sens

/-- The code of a level in 0.01 dB against the input's range, whose top is `top` in 0.001 dB (R474). -/
def levelCode (fs top : Int) (c : Nat) : Nat :=
  if top < 10 * c then 0xFFFF else if 10 * (c : Int) < fs - 100000 ∨ c < 2 then 1 else c

/-- The code of a mean square `num ÷ den` times (20 µPa)² (R473). -/
def eqCode (fs : Int) (num den : Nat) : Nat :=
  if num = 0 ∨ den = 0 then 1 else levelCode fs fs (levelOf num (den * 1000000))

/-- LAeq over the last `n` records of a window (R473): 0 where it holds no valid second. -/
def windowCode (fs : Int) (w : List (Option Nat)) (n : Nat) : Nat :=
  let l := (w.take n).filterMap id
  if l.isEmpty then 0 else eqCode fs (l.foldl (· + ·) 0) l.length

/-- A code of the range's bottom. -/
def under (l : List Nat) : Bool := l.any (· == 1)

/-- The highest of codes over a quarter (R477). -/
def highest (a b : Nat) : Nat := if a = 0xFFFF ∨ b = 0xFFFF then 0xFFFF else max a b

/-- One second of one input (R473, R477): its block, its window and its part of the quarter. -/
def ymInput (c : YmCal) (m : YmMeas) (x : YmIn) (free : Nat) : YmIn :=
  let fs := fullScale c free
  let good := c.en && !m.fault
  let window := ((if good then some m.msA else none) :: x.window).take 3600
  let win (n : Nat) : Nat := if good then windowCode fs window n else 0
  let lv (v : Nat) : Nat := levelCode fs fs v
  let pk (v : Nat) : Nat := levelCode fs (fs + 3010) v
  let sec : List Nat := if good then
      [eqCode fs m.msA 1, eqCode fs m.msC 1, eqCode fs m.msZ 1, lv m.laf, lv m.las, pk m.lcPeak, pk m.lzPeak]
    else [0, 0, 0, 0, 0, 0, 0]
  let levels := sec ++ [win 60, win 900, win 3600]
  let st := if c.en then 1 + 2 * b2n m.overload + 4 * b2n (under levels) + 8 * b2n m.fault else 0
  let block := (levels.flatMap fun v => beBytes 2 v) ++ beBytes 1 st ++ beBytes 1 c.range
    ++ beBytes 2 (window.filterMap id).length
  let highs := (x.highs.zip (sec.drop 3)).map fun p => highest p.1 p.2
  ⟨block, window, x.sumA + (if good then m.msA else 0), x.sumC + (if good then m.msC else 0),
    x.sumZ + (if good then m.msZ else 0), x.valid + b2n good, highs, x.status ||| st⟩

/-- The input's block of a Q-record (R477). -/
def ymQuarter (c : YmCal) (x : YmIn) (free : Nat) : List Byte :=
  let fs := fullScale c free
  let eq (v : Nat) : Nat := if x.valid = 0 then 0 else eqCode fs v x.valid
  let hour := ofBe ((x.block.drop 18).take 2)
  (([eq x.sumA, eq x.sumC, eq x.sumZ] ++ x.highs ++ [hour, 0, 0]).flatMap fun v => beBytes 2 v) ++ beBytes 1 x.status
    ++ beBytes 1 c.range ++ beBytes 2 x.valid

/-- The quarter's sums of an input start anew. -/
def YmIn.newQuarter (x : YmIn) : YmIn :=
  { x with sumA := 0, sumC := 0, sumZ := 0, valid := 0, highs := [0, 0, 0, 0], status := 0 }

/-! Records (R475 to R479). -/

/-- The calibration block (R487). -/
def Ym.calBlock (cals : List YmCal) (qofs : Nat) : List Byte :=
  (cals.flatMap fun c => beBytes 1 (b2n c.en) ++ beBytes 1 c.range ++ beBytes 2 c.sens) ++ beBytes 2 qofs
    ++ List.replicate 14 0
/-- CAL_ID of the calibration in effect. -/
def Ym.calId (y : Ym) : Nat := crc32 (Ym.calBlock y.cals y.qofs)

/-- Bytes 32–42 of a record: an offer (R476, R483). -/
def offerBytes : Option (Nat × Int × Nat) → List Byte
  | some (sec, off, st) => beBytes 6 sec ++ beBytes 4 (unsgn 32 off) ++ beBytes 1 st
  | none => List.replicate 11 0

/-- Bytes 0–191 of a record. `qseq`: first covered S_SEQ, number of covered records and digest of a Q-record. -/
def Ym.body (y : Ym) (type flags seq rtc temp events : Nat) (offer : Option (Nat × Int × Nat)) (blocks : List Byte)
    (covers : Option (Nat × Nat × List Byte)) : List Byte :=
  let tail : List Byte := match covers with
    | some (first, n, digest) => beBytes 4 first ++ beBytes 2 n ++ List.replicate 6 0 ++ slice digest 0 32
    | none => List.replicate 44 0
  [0x50, 0x56, 0x59, 0x4D, 0x01] ++ beBytes 1 type ++ beBytes 2 flags ++ beBytes 8 Config.ymIdentity.toNat ++ beBytes 4 seq
    ++ beBytes 4 y.audit ++ beBytes 6 rtc ++ beBytes 2 y.seals ++ offerBytes offer ++ [0] ++ beBytes 4 y.calId ++ blocks
    ++ beBytes 2 temp ++ beBytes 2 events ++ tail

/-- The signature of a record (R478, R500): 64 zero bytes where both self-checks fail. -/
def signed (body : List Byte) (fails : Nat) : List Byte :=
  body ++ (if fails = 2 then List.replicate 64 0 else slice (Config.ymSign body) 0 64)

/-- Records held in the S ring and the Q ring once a record of a sequence number is stored (R489). -/
def ringKeep (sectors seq : Nat) (l : List (Nat × List Byte)) : List (Nat × List Byte) :=
  l.filter fun p => (seq / 256 + 2 - sectors) * 256 ≤ p.1

/-- The S-record of the second that ends (R481), with its events: on the link once it is in flash. -/
def Ym.second (y : Ym) (m : List YmMeas) (temp : Int) (fails free : Nat) : Ym :=
  let zero : YmMeas := ⟨0, 0, 0, 0, 0, 0, 0, false, false⟩
  let old := y.ins
  let ins := (List.range 4).map fun i =>
    ymInput (y.cals.getD i YmCal.empty) (m.getD i zero) (y.ins.getD i YmIn.empty) free
  let rises (k : Nat) : Bool := (ins.zip old).any fun p => bitN (YmIn.stat p.1) k && !bitN (YmIn.stat p.2) k
  let y := { y with ins := ins, temp := unsgn 16 temp }
  let y := if rises 3 then y.event 5 else y
  let y := if rises 1 then y.event 6 else y
  let y := if fails ≠ 0 then y.event 10 else y
  let y := if y.first then y.event 8 else y
  let flags := b2n y.first + 2 * b2n (y.sealOpen || y.sealSeen) + 4 * b2n y.calChanged + 8 * b2n y.rtcSet
    + 16 * b2n (!y.rtcValid) + 32 * b2n y.offer.isSome
  let body := y.body 0x53 flags y.sSeq y.rtc y.temp (y.events % 2 ^ 16) y.offer (ins.flatMap (·.block)) none
  let rec' := signed body fails
  let qStart := if y.qImages.isEmpty then y.rtc else y.qStart
  let qFirst := if y.qImages.isEmpty then y.sSeq else y.qFirst
  { y with
    signOk := fails != 2, first := false, sealSeen := y.sealOpen, calChanged := false, rtcSet := false
    sSeq := y.sSeq + 1, sRing := ringKeep 16 y.sSeq ((y.sSeq, rec') :: y.sRing), link := y.link ++ [(1, rec')]
    qStart := qStart, qFirst := qFirst, qFlags := y.qFlags ||| flags, qEvents := y.qEvents ||| y.events
    qOffer := if y.offer.isSome then y.offer else y.qOffer, qImages := y.qImages ++ [rec']
    offer := none, events := 0, rtcFlash := y.rtc }

/-- The Q-record of the quarter that ends (R475, R479). -/
def Ym.quarter (y : Ym) (fails free : Nat) : Ym :=
  let n := y.qImages.length
  let blocks := (y.cals.zip y.ins).flatMap fun p => ymQuarter p.1 p.2 free
  let flags := y.qFlags ||| (if n = 900 then 0 else 64)
  let body := y.body 0x51 flags y.qSeq y.qStart y.temp (y.qEvents % 2 ^ 16) y.qOffer blocks
    (some (y.qFirst, n, Config.sha256 y.qImages.flatten))
  let rec' := signed body fails
  { y with
    qSeq := y.qSeq + 1, qRing := ringKeep 13 y.qSeq ((y.qSeq, rec') :: y.qRing), link := y.link ++ [(2, rec')]
    qFlags := 0, qEvents := 0, qOffer := none, qImages := [], ins := y.ins.map YmIn.newQuarter }

/-- What takes effect at the boundary of a second (R484, R487), and the quarter that ends there (R475). The Q-record carries the
calibration at the end of its quarter. -/
def Ym.boundary (y : Ym) (fails free : Nat) : Ym :=
  let qofs : Nat := match y.nextCals with | some p => p.2 | none => y.qofs
  let rtc : Nat := match y.nextRtc with | some r => r | none => y.rtc + 1
  let idx (r : Nat) : Int := ((r : Int) - qofs) / 900
  let ends := ((rtc : Int) - qofs) % 900 == 0 || (y.nextRtc.isSome && idx rtc != idx y.rtc)
  let y := if ends && !y.qImages.isEmpty then y.quarter fails free else y
  let y := if y.nextRtc.isSome then ({ y with rtcValid := true, rtcSet := true } : Ym).event 3 else y
  { y with
    rtc := rtc, nextRtc := none, qofs := qofs, calChanged := y.nextCals.isSome
    cals := match y.nextCals with | some p => p.1 | none => y.cals
    nextCals := none }

/-- Yumen's locator of a fault (R10 to R12, R500): die 7, block 0; an input for the ADC path only, and no word of that path. -/
def ymLocator (slice array index : Nat) : Word := locator 7 slice 0 array index

/-- The locator after a second (R500): of the lowest input whose fault begins, then of a word of flash or SRAM. -/
def Ym.located (y old : Ym) (ue : Option YmUe) : Ym :=
  let faulty (z : Ym) (i : Nat) : Bool := bitN (YmIn.stat (z.ins.getD i YmIn.empty)) 3
  let adc := (List.range 4).find? fun i => faulty y i && !faulty old i
  { y with locator := match ue, adc with
    | some (.flash i), _ => ymLocator 0x3F 0 i.val
    | some (.sram i), _ => ymLocator 0x3F 1 i.val
    | none, some i => ymLocator i 2 0x1FF
    | none, none => y.locator }

/-- YUMEN_SECOND (R481). -/
def execYumenSecond (m : List YmMeas) (temp : Int) (f : YmFaults) (s : State) : Host.Outcome State Fault Refusal :=
  let free := (Config.freeValue s.freeCtr).toNat % 200000
  .next (if s.ymOn && s.ym.measuring then
      (s.modYm fun y => (((y.second m temp f.signs.val free).located y f.word).boundary f.signs.val free).settle y).tick
    else s)

/-! The offer (R482, R483). -/

/-- The message of a whole second of reference time. -/
def State.offerMsg (s : State) : List Byte × Nat × Nat :=
  let sec := roundDiv (s.timeNow 0) (10 ^ 9) % 2 ^ 48
  let st := s.get tcB F.TC_STAT_REF_STATE + 4 * (s.get tcB F.TC_STAT_PINS / 4 % 2)
  let l := beBytes 6 sec ++ beBytes 1 st
  (l ++ [BitVec.ofNat 8 (crc8 (l.map (·.toNat)))], sec, st)

/-- TIME_OFFER (R482, R483): the message leaves a started timing core; Yumen takes only its fields. -/
def execTimeOffer (arrivalUs : Fin 1000000) (garbled : Bool) (s : State) : Host.Outcome State Fault Refusal :=
  let o := s.offerMsg
  let off : Int := if arrivalUs.val < 500000 then arrivalUs.val else (arrivalUs.val : Int) - 1000000
  .next (if !s.tc.started || !s.populated 7 then s
    else
      let t := s.emit (.offer o.1)
      if s.ym.powered && s.ym.measuring && !garbled then
        t.modYm fun y => { y with offer := some (o.2.1, off, o.2.2), live := setBit y.live 7 false }
      else t)

/-- OFFER_MISSING (R499). -/
def execOfferMissing (s : State) : Host.Outcome State Fault Refusal :=
  .next (if s.ymOn && !bitN s.ym.live 7 then s.modYm fun y => ({ y with live := setBit y.live 7 true } : Ym).event 7 else s)

/-! Seal and calibration (R484 to R487). -/

/-- SEAL_OPENED (R485): the counter is incremented first. -/
def execSealOpened (s : State) : Host.Outcome State Fault Refusal :=
  .next (if s.ymOn && !s.ym.sealOpen then
      s.modYm fun y => (({ y with
        seals := min 0xFFFF (y.seals + 1), sealOpen := true, sealSeen := true } : Ym).event 0).settle y
    else s)

/-- SEAL_CLOSED (R485, R499). -/
def execSealClosed (s : State) : Host.Outcome State Fault Refusal :=
  .next (if s.ymOn && s.ym.sealOpen then s.modYm fun y => ({ y with sealOpen := false } : Ym).event 1 else s)

/-- An answer that refuses a command of METRO_CAL (R486): SEALED, NOT_HELD or CRC_ERROR, whose code the spec does not give. -/
def State.metroRefuse (s : State) : State :=
  (s.emit (.metro ((Config.freeValue s.freeCtr).toNat % 256) [])).tick

/-- A command of METRO_CAL with a good or bad CRC (R486). -/
def State.metroCommand (s : State) (crcOk : Bool) (f : State → State) : State :=
  if !s.ymOn then s else if !crcOk then s.metroRefuse else f s

/-- One calibration change of an accepted write command (R487). -/
def State.calChange (s : State) (op : Nat) (f : List YmCal × Nat → List YmCal × Nat) : State :=
  if !s.ym.sealOpen then s.metroRefuse
  else
    (s.modYm fun y => ({ y with
      audit := min 0xFFFFFFFF (y.audit + 1), nextCals := some (f (y.nextCals.getD (y.cals, y.qofs))) } : Ym).event 2).emit
        (.metro op [])

/-- The newest S-record held. -/
def Ym.last (y : Ym) : List Byte := (y.sRing.headD (0, List.replicate 256 0)).2

/-- A big-endian field of a record. -/
def recField (r : List Byte) (off n : Nat) : Nat := ofBe ((r.drop off).take n)

/-- The window words at 0x048 to 0x07C (R496). -/
def Ym.words (y : Ym) : List Nat :=
  let r := y.last
  [b2n (y.powered && y.measuring) + 2 * b2n y.sealOpen + 4 * b2n y.rtcValid + 8 * b2n y.ok + 16 * b2n y.signOk
      + 32 * (recField r 6 2 / 32 % 2), Config.ymIdentity.toNat % 2 ^ 32, Config.ymIdentity.toNat / 2 ^ 32,
    (y.sSeq + 0xFFFFFFFF) % 2 ^ 32 * b2n (y.sSeq != 0), (y.qSeq + 0xFFFFFFFF) % 2 ^ 32 * b2n (y.qSeq != 0), y.audit,
    y.seals + 2 ^ 16 * y.qofs, y.calId, recField r 24 6 % 2 ^ 32, recField r 24 6 / 2 ^ 32, recField r 38 4, y.temp,
    y.sRing.length + 2 ^ 16 * y.qRing.length, 0]

/-- The window words of an input at 0x080 + 32i to 0x09C + 32i (R496). -/
def ymInWords (c : YmCal) (x : YmIn) : List Nat :=
  let f (k : Nat) : Nat := recField x.block (2 * k) 2
  [f 0 + 2 ^ 16 * f 7, f 8 + 2 ^ 16 * f 9, f 5 + 2 ^ 16 * f 3, f 1 + 2 ^ 16 * f 2,
    YmIn.stat x + 2 ^ 8 * c.range + 2 ^ 16 * c.sens, 0, 0, 0]

/-- STATUS (R486). -/
def execStatus (crcOk : Bool) (s : State) : Host.Outcome State Fault Refusal :=
  .next (s.metroCommand crcOk fun t => t.emit (.metro 0x01 (t.ym.words.flatMap fun w => beBytes 4 w)))

/-- IDENTITY (R486). -/
def execIdentity (crcOk : Bool) (s : State) : Host.Outcome State Fault Refusal :=
  .next (s.metroCommand crcOk fun t =>
    t.emit (.metro 0x02 (beBytes 8 Config.ymIdentity.toNat ++ Config.ymPublicKey ++ Config.ymCertificate)))

/-- A record of a ring, or NOT_HELD (R486). -/
def State.readRecord (s : State) (op : Nat) (l : List (Nat × List Byte)) (seq : Nat) : State :=
  match l.find? fun p => p.1 == seq with
  | some p => s.emit (.metro op p.2)
  | none => s.metroRefuse

/-- READ_S (R486). -/
def execReadS (crcOk : Bool) (seq : Word) (s : State) : Host.Outcome State Fault Refusal :=
  .next (s.metroCommand crcOk fun t => t.readRecord 0x03 t.ym.sRing seq.toNat)

/-- READ_Q (R486). -/
def execReadQ (crcOk : Bool) (seq : Word) (s : State) : Host.Outcome State Fault Refusal :=
  .next (s.metroCommand crcOk fun t => t.readRecord 0x04 t.ym.qRing seq.toNat)

/-- SET_INPUT (R486, R487). -/
def execSetInput (crcOk : Bool) (i : Fin 4) (en : Bool) (range : Fin 4) (sens : BitVec 16) (s : State) :
    Host.Outcome State Fault Refusal :=
  .next (s.metroCommand crcOk fun t => t.calChange 0x10 fun p => (p.1.set i.val ⟨en, range.val, sens.toNat⟩, p.2))

/-- SET_RTC (R484): applied at the next boundary of a second; a setting counts as a calibration change. -/
def execSetRtc (crcOk : Bool) (seconds : BitVec 48) (s : State) : Host.Outcome State Fault Refusal :=
  .next (s.metroCommand crcOk fun t =>
    if t.ym.sealOpen then (t.calChange 0x11 id).modYm fun y => { y with nextRtc := some seconds.toNat } else t.calChange 0x11 id)

/-- SET_QOFS (R475, R486). -/
def execSetQofs (crcOk : Bool) (v : Fin 900) (s : State) : Host.Outcome State Fault Refusal :=
  .next (s.metroCommand crcOk fun t => t.calChange 0x12 fun p => (p.1, v.val))

/-! Supplies (R480, R488). -/

/-- RTC_SUPPLY_LOSS (R480): the RTC restarts from the value in flash. -/
def execRtcSupplyLoss (s : State) : Host.Outcome State Fault Refusal :=
  .next (if s.populated 7 then
      s.modYm fun y =>
        let z : Ym := { y with rtcValid := false, rtc := y.rtcFlash, nextRtc := none }
        if y.powered && y.rtcValid then (z.event 4).settle y else z
    else s)

/-- YUMEN_POWER_UP (R488): the calibration block in flash is loaded, and the first record carries POWER_UP. The record link
restarts (R413). -/
def execYumenPowerUp (off : Nat) (s : State) : Host.Outcome State Fault Refusal :=
  .next (if s.populated 7 && !s.ym.powered then
      (s.modYm fun y => { y with
        powered := true, measuring := true, first := true, rtc := if y.rtcValid then y.rtc + off else y.rtc }).busReset 6 allIds []
    else s)

/-- YUMEN_POWER_LOSS (R481, R487): the second in progress has no record; a calibration block already in flash stands. -/
def execYumenPowerLoss (s : State) : Host.Outcome State Fault Refusal :=
  .next (if s.ymOn then
      s.modYm fun y => { y with
        powered := false, measuring := false, nextCals := none, nextRtc := none
        cals := match y.nextCals with | some p => p.1 | none => y.cals
        qofs := match y.nextCals with | some p => p.2 | none => y.qofs
        ins := y.ins.map fun (i : YmIn) => { i with window := [], block := List.replicate 24 0 }
        sealOpen := false, sealSeen := false, calChanged := false, rtcSet := false, offer := none, events := 0, evStatus := 0
        live := 0, signOk := true, link := [], carousel := 0 }
    else s)

/-! The record link, the mirror and the bridge (R491 to R497). -/

/-- An event of Granary's bridge (R499): it does not travel under R40. -/
def State.bridgeRaise (s : State) (k : Nat) : State :=
  (s.put evcB F.YUMEN_STICKY_BITS (s.get evcB F.YUMEN_STICKY_BITS ||| 2 ^ k)).refreshEv (496 + k)

/-- The link is down, or no longer (R494, R496). -/
def State.linkDown (s : State) (down : Bool) : State :=
  (s.puts ymB [(F.YM_YM_LINK_UP, b2n !down), (F.STAT_STOPPED, b2n down)]).live ymB 12 down

/-- A valid frame has arrived (R494). -/
def State.frameSeen (s : State) : State :=
  (s.linkDown false).puts ymB [(F.YM_YM_LINK_EVER, 1), (F.YM_YM_LINK_AGE_MS, 0)]

/-- A frame with a bad CRC (R491). -/
def State.frameBad (s : State) : State := (s.bump ymB F.YM_YM_LINK_ERR_CRC).bridgeRaise 13

/-- Bytes shown in a window of registers. -/
def State.showBytes (s : State) (a : Nat) (l : List Byte) : State :=
  s.forAll (List.range (ceilDiv l.length 4)) fun k t => t.wr (a + 4 * k) (BitVec.ofNat 32 (ofLe ((l.drop (4 * k)).take 4)))

/-- A received record is to be written to the ring (R493). -/
def State.logWants (s : State) (type : Nat) (r : List Byte) : Bool :=
  let seq := recField r 16 4
  match type with
  | 3 => s.is brB F.LOG_CFG_S_WIN && s.get brB F.LOG_S_LO_SEQ ≤ seq && seq ≤ s.get brB F.LOG_S_HI_SEQ
  | 4 => s.is brB F.LOG_CFG_Q_WIN && s.get brB F.LOG_Q_LO_SEQ ≤ seq && seq ≤ s.get brB F.LOG_Q_HI_SEQ
  | _ => true

/-- Address of a slot of the record log in the data space (R399, R493). -/
def State.logSlot (s : State) (k : Nat) : Nat := s.get bmB F.BM_M6_BASE_BIN * 2 ^ 21 + 256 * k

/-- LOG_RD; values above 8,189 act as 0 (R498). -/
def State.logRd (s : State) : Nat := let v := s.get brB F.LOG_RD_SLOT; if 8189 < v then 0 else v

/-- The bridge writes a record (R493). -/
def State.logWrite (s : State) (r : List Byte) : State :=
  if s.get bmB F.BM_M6_LEN_BYTES = 0 then s
  else if s.mg.logFull then (s.bump brB F.LOG_DROP_RECORDS).bridgeRaise 14
  else
    let w := s.get brB F.LOG_WR_SLOT
    let a := s.logSlot w
    let s := s.spaceWrite ((List.range 256).map fun i => (a + i, r.getD i 0))
    let s := (s.put brB F.LOG_WR_SLOT ((w + 1) % 8190)).bump brB F.LOG_CNT_RECORDS
    { s with mg := { s.mg with logFull := (w + 1) % 8190 == s.logRd } }

/-- YUMEN_LINK_FRAME (R491, R493): nobody hears a frame while Granary is in reset. -/
def execYumenLinkFrame (crcOk : Bool) (s : State) : Host.Outcome State Fault Refusal :=
  .next (match s.ym.link with
    | [] => s
    | (type, r) :: rest =>
      let s := s.modYm fun y => { y with link := rest }
      if s.pwr.inReset then s
      else if !crcOk then s.frameBad
      else
        let s := s.frameSeen
        let s := if type = 1 then s.showBytes (ymB + 0x1000) r else if type = 2 then s.showBytes (ymB + 0x1100) r else s
        if s.logWants type r then s.logWrite r else s)

/-- The mirror after a status frame (R491, R494, R496, R497): the key and the certificate are shown with it. -/
def State.statusShown (s : State) (y : Ym) : State :=
  let inWords := (y.cals.zip y.ins).flatMap fun p => ymInWords p.1 p.2
  let words := y.words ++ inWords
  let s := ((List.range words.length).zip words).foldl (fun u p => u.wr (ymB + 0x48 + 4 * p.1) (BitVec.ofNat 32 p.2)) s
  let s := s.wr (ymB + 0x1C) (BitVec.ofNat 32 y.liveBits)
  let s := if y.locator = 0 then s else (s.wr (ymB + 0x28) y.locator).put ymB F.STAT_FAULT 1
  let s := (s.showBytes (ymB + 0x2000) (slice Config.ymPublicKey 0 64)).showBytes (ymB + 0x2100) (Config.ymCertificate.take 1024)
  s.wr (ymB + 0x2040) (BitVec.ofNat 32 (min 1024 Config.ymCertificate.length))

/-- YUMEN_STATUS_FRAME (R491, R494). -/
def execYumenStatusFrame (crcOk : Bool) (s : State) : Host.Outcome State Fault Refusal :=
  let y := s.ym
  .next (if !s.ymOn then s
    else
      let s := s.modYm fun z => { z with evStatus := 0, locator := 0 }
      if s.pwr.inReset then s
      else if !crcOk then s.frameBad
      else
        let s := (s.statusShown y).frameSeen
        let s := s.put evcB F.YUMEN_STICKY_BITS (s.get evcB F.YUMEN_STICKY_BITS ||| y.evStatus % 2 ^ 16)
        ((List.range 16).foldl (fun u k => if bitN y.evStatus k then u.setEvg (496 + k) (u.evActive (496 + k)) else u) s).refreshVecs)

/-- The newest record of a ring older than a sequence number. -/
def olderThan (l : List (Nat × List Byte)) (seq : Nat) : Option (Nat × List Byte) := l.find? fun p => decide (p.1 < seq)

/-- CAROUSEL_RECORD (R492): every held S-record from the newest to the oldest, then every held Q-record, and again. `carousel`
is 0 at the start of a cycle, 2·seq + 1 after the S-record seq and 2·seq + 2 after the Q-record seq. -/
def execCarouselRecord (s : State) : Host.Outcome State Fault Refusal :=
  let y := s.ym
  let nextQ (l : Option (Nat × List Byte)) : Nat × List (Nat × List Byte) := match l with
    | some q => (2 * q.1 + 2, [(4, q.2)])
    | none => (0, [])
  let nextS (l : Option (Nat × List Byte)) : Nat × List (Nat × List Byte) := match l with
    | some q => (2 * q.1 + 1, [(3, q.2)])
    | none => nextQ y.qRing.head?
  let r :=
    if y.carousel = 0 then nextS y.sRing.head?
    else if y.carousel % 2 = 1 then nextS (olderThan y.sRing (y.carousel / 2))
    else
      match olderThan y.qRing ((y.carousel - 2) / 2) with
      | some q => nextQ (some q)
      | none => nextS y.sRing.head?
  .next (if s.ymOn then s.modYm fun z => { z with carousel := r.1, link := z.link ++ r.2 } else s)

/-- YUMEN_LINK_TIMEOUT (R494): no valid frame for 500 ms. -/
def execYumenLinkTimeout (s : State) : Host.Outcome State Fault Refusal :=
  .next (if s.populated 7 && !s.pwr.inReset && !s.is ymB ⟨0x1C, 12, 1⟩ then
      ((s.linkDown true).put ymB F.YM_YM_LINK_AGE_MS 500).bridgeRaise 12
    else s)

/-- YF_FORWARD (R493, R524): Mernak copies one record to the host ring. -/
def execYfForward (s : State) : Host.Outcome State Fault Refusal :=
  let b := gPage 0x233
  let n := s.get b F.YF_SLOTS_COUNT
  let rd := s.logRd
  .next (if n = 0 || s.pwr.inReset || (rd == s.get brB F.LOG_WR_SLOT && !s.mg.logFull) || s.get bmB F.BM_M6_LEN_BYTES == 0 then s
    else if s.yfFull then s.yfRefresh
    else
      let r := s.spaceRead 258 (s.logSlot rd) 256
      let l := match r.2 with | some l => l | none => List.replicate 256 0
      let w := s.get b F.YF_WR_SLOT
      let off := s.get b F.YF_BASE_LO_ADDR + s.get b F.YF_BASE_HI_ADDR * 2 ^ 32 + 256 * w
      let s := (r.1.emit (.pcie (r.1.hostAddr off) l)).put b F.YF_WR_SLOT ((w + 1) % n)
      let s := s.put brB F.LOG_RD_SLOT ((rd + 1) % 8190)
      ({ s with mg := { s.mg with logFull := false } }).yfRefresh)

/-! The limiter assist (R313, R495). -/

/-- The window value that LIM_CFG names. -/
def State.limValue (s : State) : Nat :=
  let a := ymB + 32 * s.get arB F.LIM_CFG_INPUT
  match s.get arB F.LIM_CFG_QTY with
  | 0 => s.get a F.YM_IN_EQ_A_S1
  | 1 => s.get a F.YM_IN_EQ_A_S60
  | 2 => s.get a F.YM_IN_EQ_B_S900
  | _ => s.get a F.YM_IN_EQ_B_S3600

/-- LIMITER_UPDATE (R313, R495). -/
def execLimiterUpdate (s : State) : Host.Outcome State Fault Refusal :=
  let v := s.limValue
  let st := s.get (ymB + 32 * s.get arB F.LIM_CFG_INPUT) F.YM_IN_ST_STATUS
  let on := s.is arB F.LIM_CFG_EN
  let level := if on then min 2047 ((v + 5) / 10) else 0
  let valid := on && s.populated 7 && !s.is ymB ⟨0x1C, 12, 1⟩ && bitN st 0 && !bitN st 3 && v != 0 && v != 1 && v != 0xFFFF
  let thresh := s.get arB F.LIM_CFG_THRESH
  let isOver := on && decide (thresh < level)
  let t := s.puts arB [(F.LIM_STAT_LEVEL, level), (F.LIM_STAT_VALID, b2n valid), (F.LIM_SUGGEST_ATTEN, if on then level - thresh else 0)]
  .next ((t.raiseIf (isOver && !s.is arB ⟨0x1C, 8, 1⟩) arB 8).live arB 8 isOver)

end Sys2Proof.Machine
end

