-- ==== Sys2Proof/Machine/Mernak.lean ====
section
/-! DEFINITION. Mernak (chapter 16): watchdog and debug port, the DMA engine, the update path, sensors and rails, ageing, the fault
log and the calibration set. -/

namespace Sys2Proof.Machine

/-- Update Mernak's own state. -/
def State.modMg (s : State) (f : Mg → Mg) : State := { s with mg := f s.mg }

/-! The fault log (R517). -/

/-- Header address of the block that a global event belongs to (R70, R72). -/
def evBase (ev : Nat) : Nat :=
  if ev < 16 then evcB else if ev < 48 then tcB else if ev < 80 then flB else if ev < 112 then siloB
  else if ev < 136 then mcB ((ev - 112) / 2) else if ev < 144 then wnB else if ev < 176 then ipB ((ev - 144) / 8) 0
  else if ev < 192 then arB else if ev < 200 then cvB (ev - 192) else if ev < 208 then ksB else if ev < 216 then nvB
  else if ev < 224 then bmB else if ev < 248 then mgB else if ev < 256 then seqB
  else if ev < 496 then
    let d := (ev - 256) / 40 + 1
    let k := (ev - 256) % 40
    if k < 16 then shB d (0x100 + k) else if k < 32 then shB d (0x200 + (k - 16))
    else if k < 35 then shB d 0x500 else shB d 0x010
  else ymB

/-- Offset of a block's LAST register; ERR_LOC where it has none. -/
def lastOff (base : Nat) : Nat :=
  if base = flB then 0x8C else if base = siloB then 0x84 else if base = arB ∨ base = wnB then 0x60
  else if base = ksB then 0x68 else if base = nvB then 0x7C
  else if mcB 0 ≤ base ∧ base ≤ mcB 11 then 0x54
  else if ipB 0 0 ≤ base ∧ base < ipB 4 0 then 0x80 else 0x28

/-- The 32 bytes of an entry of a kind. The powered seconds are a free value: the spec gives the part no such register. -/
def State.logEntry (s : State) (kind ev count : Nat) : List Byte :=
  let b := evBase ev
  let fault := s.is b F.STAT_FAULT
  let body := [BitVec.ofNat 8 kind] ++ beBytes 2 ev ++ (if fault then beBytes 4 (s.rd (b + 0x28)).toNat else List.replicate 4 0xFF)
    ++ beBytes 4 (Config.freeValue s.freeCtr).toNat ++ [0, 0] ++ beBytes 6 (s.timeNow 0 / 10 ^ 9) ++ beBytes 4 count
    ++ beBytes 4 (s.rd (b + (if fault then 0x28 else lastOff b))).toNat
  [0x5A] ++ body ++ beBytes 4 (crc32 body)

/-- Program one entry; the sector after the one entered is erased ahead of it. -/
def State.logProgram (s : State) (e : List Byte) : State :=
  let n := s.mg.logNext
  let s := if n % 2048 = 0 then s.eraseRaw (16 + (n / 2048 + 1) % 8) else s
  ((s.prog (0x100000 + 32 * n) e).modMg fun x => { x with logNext := (n + 1) % 16384 }).logRefresh

/-- An entry is programmed; while NV_INHIBIT holds it waits, and beyond 64 the oldest that waits is dropped. -/
def State.logAppend (s : State) (kind ev count : Nat) : State :=
  let e := s.logEntry kind ev count
  let s := s.tick
  if s.inhibited then
    let q := s.mg.logWait ++ [e]
    if q.length ≤ 64 then s.modMg fun x => { x with logWait := q }
    else (s.modMg fun x => { x with logWait := q.drop 1 }).bump (gPage 0x233) F.MG_LOG_DROPS
  else s.logProgram e

/-- FAULT_LOG_WRITE (R517): nothing is entered before the log resumes (R531). -/
def execFaultLogWrite (ev : Fin 512) (count : Nat) (s : State) : Host.Outcome State Fault Refusal :=
  .next (if s.mg.logOn then s.logAppend 0 ev.val count else s)

/-! Commits of Mernak's own (R509, R519). -/

/-- Mernak replaces the record of a key in one gathered commit. -/
def State.mernakCommit (s : State) (key : Nat) (data : List Byte) : State :=
  let seq := s.get nvB F.REC_SEQ_VALUE
  if seq = 0xFFFFFFFF then s
  else (s.put nvB F.REC_SEQ_VALUE (seq + 1)).commitRecs [⟨key, seq, recFlags false false false, data⟩]

/-- The boot record names a slot (R507, R509). -/
def State.selectSlot (s : State) (slot : Nat) : State :=
  if s.inhibited then s.modMg fun x => { x with selWait := some slot }
  else s.mernakCommit 1 [BitVec.ofNat 8 slot]

/-- What Mernak has held back is written. -/
def State.mernakFlush (s : State) : State :=
  let t : State := s.modMg fun x => { x with selWait := none, logWait := [] }
  let u : State := match s.mg.selWait with
    | some k => t.selectSlot k
    | none => t
  s.mg.logWait.foldl State.logProgram u

/-- NV_INHIBIT_RELEASE (R463): what the flash controller, the key store and Mernak hold back is written. -/
def execNvInhibitRelease (s : State) : Host.Outcome State Fault Refusal :=
  .next (if s.inhibited then s.inhibitEnd.ksFlush.mernakFlush else s)

/-! Watchdog and debug port (R502, R503). -/

/-- The debug port is disabled: its master port is reset (R413, R503). -/
def State.debugOff (s : State) : State :=
  if s.debugOn then ((s.put mgB F.MG_DBG_EN 0).live mgB 18 false).busReset 5 allIds [] else s

/-- MG_WDT_KICK (R502). -/
def execMgWdtKick (s : State) : Host.Outcome State Fault Refusal :=
  .next (s.modMg fun x => { x with wdt := s.get mgB F.MG_WDT_TIMEOUT_MS })

/-- Mernak restarts alone: its masters are reset, and the image is loaded again. -/
def State.mernakRestart (s : State) : State :=
  let t : State := (((s.raise mgB 19).busReset 0 allIds []).busReset 1 allIds []).debugOff
  let t : State := t.modMg fun x => { x with wdt := s.get mgB F.MG_WDT_TIMEOUT_MS, calOpen := false }
  let t : State := if t.bus.image.1 == 0 then t else t.loadImage t.bus.image.1
  if t.mg.logOn then t.logAppend 1 243 1 else t

/-- WATCHDOG (R502): Mernak alone restarts, from the slot that was running. -/
def execWatchdog (ue : Option (Fin 512)) (s : State) : Host.Outcome State Fault Refusal :=
  .next (match ue with
    | some i => (s.setFault mgB 0 i.val).mernakRestart
    | none => s.mernakRestart)

/-- DEBUG_ENABLED (R503): not while the fuse MG_DBG.LOCKED is set. -/
def execDebugEnabled (s : State) : Host.Outcome State Fault Refusal :=
  .next (if s.is mgB F.MG_DBG_LOCKED || s.debugOn then s else ((s.put mgB F.MG_DBG_EN 1).raise mgB 18).live mgB 18 true)

/-! The DMA engine (R504). -/

/-- Matrix addresses of the job. -/
def State.dmaSrc (s : State) : Nat := s.get mgB F.DMA_SRC_LO_ADDR + s.get mgB F.DMA_SRC_HI_ADDR * 2 ^ 32
def State.dmaDst (s : State) : Nat := s.get mgB F.DMA_DST_LO_ADDR + s.get mgB F.DMA_DST_HI_ADDR * 2 ^ 32

/-- The check of a GO. -/
def State.dmaArgsOk (s : State) : Bool :=
  let n := s.get mgB F.DMA_LEN_BYTES
  16 ≤ n && n ≤ 16777216 && n % 16 == 0 && s.dmaSrc % 16 == 0 && s.dmaDst % 16 == 0
    && s.dmaSrc + n ≤ 2 ^ 40 && s.dmaDst + n ≤ 2 ^ 40

/-- DMA_GO (R504): ignored while a job runs. -/
def execDmaGo (v : Word) (s : State) : Host.Outcome State Fault Refusal :=
  .next (s.hostWrite 0 (
    let s := s.put mgB F.DMA_CTRL_QOS (fldGet v 0 4)
    if s.is mgB F.DMA_STAT_BUSY then s
    else
      let ok := s.dmaArgsOk
      let s := s.puts mgB [(F.DMA_STAT_BUSY, b2n ok), (F.DMA_STAT_DONE, b2n (!ok)), (F.DMA_STAT_RESP, 0),
        (F.DMA_STAT_BAD_ARG, b2n (!ok)), (F.DMA_POS_BYTES, 0)]
      s.raiseIf (!ok) mgB 6))

/-- Master M3 may make one access of 16 bytes. -/
def State.dmaMay (s : State) (a : Nat) (write : Bool) : Bool :=
  let t := s.busTarget a
  t != 8 && s.busMay 3 t a 16 write

/-- 16 bytes read by the engine; none where the word is uncorrectable (R400). `host` holds what host memory returns. -/
def State.dmaRead (s : State) (a : Nat) (host : List Byte) (off : Nat) : State × Option (List Byte) :=
  match s.busTarget a with
  | 1 => s.spaceRead 18 (a - 0x8000000000) 16
  | 4 => (s, some (s.sramRead (a - 0x5000000) 16))
  | _ => (s, some (slice host off 16))

/-- 16 bytes written by the engine. -/
def State.dmaWrite (s : State) (a : Nat) (l : List Byte) : State :=
  match s.busTarget a with
  | 1 => s.spaceWrite ((List.range 16).map fun i => (a - 0x8000000000 + i, l.getD i 0))
  | 4 => s.sramWrite ((List.range 16).map fun i => (a - 0x5000000 + i, l.getD i 0))
  | _ => s.emit (.pcie (s.hostAddr (a - 0x4000000000)) l)

/-- The destination overlaps the source less than 16 bursts ahead of it at position `pos`: how far the engine has read ahead decides
what it reads back. -/
def State.dmaAhead (s : State) (pos : Nat) : Bool :=
  decide (s.dmaSrc < s.dmaDst ∧ s.dmaDst - s.dmaSrc < 4096 ∧ s.dmaDst - s.dmaSrc ≤ pos)

/-- Bytes read, or free values in their place. -/
def dmaMask (ahead : Bool) (r : State × Option (List Byte)) : State × Option (List Byte) :=
  (r.1, bif ahead then some (beBytes 16 (Config.freeValue r.1.freeCtr).toNat) else r.2)

/-- The 16 bytes read for position `pos`; free values where the engine's reading ahead decides them. -/
def State.dmaTake (s : State) (host : List Byte) (pos : Nat) : State × Option (List Byte) :=
  dmaMask (s.dmaAhead pos) (s.dmaRead (s.dmaSrc + pos) host pos)

/-- Write 16 bytes at position `pos`; the response that stops the copy, 0 for none. -/
def State.dmaGive (s : State) (pos : Nat) : Option (List Byte) → State × Nat
  | none => (s, 1)
  | some l => bif s.dmaMay (s.dmaDst + pos) true then (s.tick.dmaWrite (s.dmaDst + pos) l, 0) else (s, 2)

/-- Write what was read for position `pos`; the response that stops the copy, 0 for none. -/
def dmaPass (pos : Nat) (r : State × Option (List Byte)) : State × Nat := r.1.dmaGive pos r.2

/-- Copy the 16 bytes at position `pos`; the response that stops the copy, 0 for none. -/
def State.dmaMove (s : State) (host : List Byte) (pos : Nat) : State × Nat :=
  bif s.dmaMay (s.dmaSrc + pos) false then dmaPass pos (s.dmaTake host pos) else (s, 2)

/-- The position and response after a copy from position `pos`. -/
def dmaDoneAt (pos : Nat) (r : State × Nat) : State × Nat × Nat := (r.1, bif r.2 == 0 then pos + 16 else pos, r.2)

/-- One 16-byte copy of a job at the position reached, unless it has stopped. -/
def dmaNext (host : List Byte) (q : State × Nat × Nat) : State × Nat × Nat :=
  bif q.2.2 == 0 then dmaDoneAt q.2.1 (q.1.dmaMove host q.2.1) else q

/-- Copy up to `n` times 16 bytes in ascending order: the position reached, and the response that stopped the copy. -/
def State.dmaCopy (s : State) (n : Nat) (host : List Byte) : State × Nat × Nat :=
  (List.range n).foldl (fun q _ => dmaNext host q) (s, 0, 0)

/-- The part of a job that its end says was copied. -/
def State.dmaDone (s : State) (e : DmaEnd) : State × Nat × Nat :=
  let n := s.get mgB F.DMA_LEN_BYTES
  let want := if e.resp.val = 0 then n else min (e.pos / 16 * 16) n
  s.dmaCopy (want / 16) e.hostData

/-- DMA_JOB_END (R504): done, or ended by the first response that is not OK. -/
def execDmaJobEnd (e : DmaEnd) (s : State) : Host.Outcome State Fault Refusal :=
  .next (if s.is mgB F.DMA_STAT_BUSY then
      let r := s.dmaDone e
      let code := if r.2.2 = 0 then e.resp.val else r.2.2
      let s := r.1.puts mgB [(F.DMA_STAT_BUSY, 0), (F.DMA_STAT_DONE, 1), (F.DMA_STAT_RESP, code), (F.DMA_POS_BYTES, r.2.1)]
      s.raise mgB (if code = 0 then 5 else 6)
    else s)

/-- DMA_ABORT (R504): the engine is reset. -/
def execDmaAbort (e : DmaEnd) (s : State) : Host.Outcome State Fault Refusal :=
  .next (s.hostWrite 0 (
    if s.is mgB F.DMA_STAT_BUSY then
      let n := min (e.pos / 16 * 16) (s.get mgB F.DMA_LEN_BYTES)
      let r := s.dmaCopy (n / 16) e.hostData
      let s := r.1.busReset 3 allIds []
      (s.puts mgB [(F.DMA_STAT_BUSY, 0), (F.DMA_STAT_DONE, 1), (F.DMA_POS_BYTES, r.2.1)]).raise mgB 6
    else s))

/-! Images and the update path (R505 to R510). -/

/-- Fields of a header block. -/
def hdrN (h : List Byte) : Nat := ofBe (slice h 8 4)
def hdrArcMin (h : List Byte) : Nat := ofBe (slice h 12 4)
def hdrArcMax (h : List Byte) : Nat := ofBe (slice h 16 4)
def hdrLoad (h : List Byte) : Nat := ofBe (slice h 20 4)
def hdrVersion (h : List Byte) : Nat := ofBe (slice h 28 4)
def hdrKey (h : List Byte) : Nat := (h.getD 5 0).toNat
/-- Blocks of the tag table. -/
def tagBlocks (n : Nat) : Nat := ceilDiv (16 * n) 4096

/-- The magic value "PVFW". -/
def magicFw : List Byte := [0x50, 0x56, 0x46, 0x57]

/-- A header against R506: the code of R510 for the first check that fails. -/
def State.hdrCheck (s : State) (h : List Byte) : Nat :=
  let c := s.get nvB F.CNT_VAL_VALUE
  if slice h 0 4 != magicFw || h.getD 4 0 != 1 || hdrN h == 0 || 2039 < hdrN h || 229376 < hdrLoad h then 0x60
  else if slice (Config.sha384 (slice h 88 97)) 0 48 != s.ksBytes 0x150 48
      || !Config.ecdsaVerify (slice h 88 97) (slice h 0 192) (slice h 192 96) then 0x44
  else if 64 ≤ hdrKey h || !s.slotMay (hdrKey h) 5 || bitN (s.slotAttr (hdrKey h)) atBootBound then 0x08
  else if c + 64 < hdrArcMin h then 0x62
  else if hdrArcMax h < c then 0x61
  else 0

/-- The check of an update: a saturated counter 0 takes no more images (R460, R510). -/
def State.updCheck (s : State) (h : List Byte) : Nat :=
  let c := s.hdrCheck h
  if (c = 0 ∨ c = 0x62 ∨ c = 0x61) ∧ s.get nvB F.CNT_VAL_VALUE = 0xFFFFFFFF then 0x47 else c

/-- The update ends without success. -/
def State.updFail (s : State) (code : Nat) : State :=
  ((s.puts mgB [(F.UPD_STAT_STATE, 4), (F.UPD_STAT_RESULT, code)]).modMg fun x => { x with updKey := none }).raise mgB 4

/-- An update runs. -/
def State.updRuns (s : State) : Bool := let st := s.get mgB F.UPD_STAT_STATE; st == 1 || st == 2

/-- Flash offset of a slot. -/
abbrev slotBase (slot : Nat) : Nat := slot * 0x800000

/-- A header has been read: it is checked, and the slot is erased. -/
def State.updHeaderIn (s : State) (h : List Byte) : State :=
  let code := s.updCheck h
  if code != 0 then s.updFail code
  else
    let s := s.modMg fun x => { x with updHeader := h, updKey := some (hdrKey h) }
    (s.put mgB F.UPD_STAT_STATE 2).emit (.qspi (slotBase s.mg.updSlot) [])

/-- UPD_START (R509): the slot written is the one not running, and A in recovery (R508). -/
def execUpdStart (header : List Byte) (s : State) : Host.Outcome State Fault Refusal :=
  .next (s.hostWrite 0 (
    if s.updRuns then s
    else
      let win := s.is mgB F.UPD_CFG_SRC
      let slot := if s.is mgB F.MG_STAT_RECOVERY then 0 else 1 - s.get mgB F.MG_STAT_SLOT
      let s := s.modMg fun x => { x with updHeader := [], updKey := none, updSlot := slot, updWin := win }
      let s := s.puts mgB [(F.UPD_STAT_STATE, 1), (F.UPD_STAT_RESULT, 0), (F.UPD_STAT_BLOCKS, 0)]
      if win then s else s.updHeaderIn (slice header 0 4096)))

/-- An update is given up: the engine is reset (R413, R510). -/
def State.updAbandon (s : State) : State := if s.updRuns then (s.busReset 4 allIds []).updFail 0x66 else s

/-- UPD_ABORT (R510). -/
def execUpdAbort (s : State) : Host.Outcome State Fault Refusal := .next (s.hostWrite 0 s.updAbandon)

/-- MASTER_PORT_RESET (R413, R414). -/
def execMasterPortReset (m : Fin 8) (ids : Word) (held : Bool) (delivered : List (Nat × Nat)) (s : State) :
    Host.Outcome State Fault Refusal :=
  let t := (s.put (bmM m.val) F.BM_MSTAT_IN_RESET (b2n held)).busReset m.val ids.toNat delivered
  .next (if m.val = 4 ∧ t.updRuns then t.updFail 0x66 else t)

/-- UPD_BLOCK_TIMEOUT (R510): no block within 10 s in window mode. -/
def execUpdBlockTimeout (s : State) : Host.Outcome State Fault Refusal := .next (if s.mg.updWin then s.updAbandon else s)

/-- The block in the window of page 0x234. -/
def State.updWindow (s : State) : List Byte := (List.range 1024).flatMap fun i => leBytes 4 (s.rd (gPage 0x234 + 4 * i)).toNat

/-- Flash offset at which the block after `b` blocks of payload and tag table stands. -/
def State.updPlace (s : State) (b : Nat) : Nat := slotBase s.mg.updSlot + 4096 * (1 + b)

/-- UPD_BLOCK_READY (R509): header, payload and tag table in slot order. -/
def execUpdBlockReady (tagOk : Bool) (s : State) : Host.Outcome State Fault Refusal :=
  .next (s.hostWrite 0 (
    let b := s.get mgB F.UPD_STAT_BLOCKS
    let n := hdrN s.mg.updHeader
    if !s.mg.updWin || !s.updRuns then s
    else if s.get mgB F.UPD_STAT_STATE = 1 then s.updHeaderIn s.updWindow
    else if n + tagBlocks n ≤ b then s
    else if s.mg.updKey.isNone then s.updFail 0x08
    else if !tagOk then s.updFail 0x63
    else (s.emit (.qspi (s.updPlace b) s.updWindow)).put mgB F.UPD_STAT_BLOCKS (b + 1)))

/-- Every block of the image has been written, and the header is written last (R509). `host` holds the payload and the tag table read
from host memory. -/
def State.updWrite (s : State) (host : List Byte) : State :=
  let n := hdrN s.mg.updHeader
  let s := if s.mg.updWin then s
    else
      let tags := slice host (4096 * n) (4096 * tagBlocks n)
      ((s.emit (.qspi (s.updPlace n) tags)).emit (.qspi (s.updPlace 0) (slice host 0 (4096 * n)))).put mgB F.UPD_STAT_BLOCKS
        (n + tagBlocks n)
  let s := (s.emit (.qspi (slotBase s.mg.updSlot) s.mg.updHeader)).puts mgB [(F.UPD_STAT_STATE, 3), (F.UPD_STAT_RESULT, 0)]
  ((s.modMg fun x => { x with updKey := none }).raise mgB 3).selectSlot s.mg.updSlot

/-- What ends an update (R509, R510): the state, and whether it succeeded. -/
def State.updEnd (s : State) (e : UpdEnd) (host : List Byte) : State × Bool :=
  let n := hdrN s.mg.updHeader
  if s.get mgB F.UPD_STAT_STATE != 2 then (s, false)
  else if s.mg.updKey.isNone then (s.updFail 0x08, false)
  else match e with
    | .ok =>
      if s.mg.updWin && s.get mgB F.UPD_STAT_BLOCKS < n + tagBlocks n then (s, false) else (s.updWrite host, true)
    | .blockFail => (s.updFail 0x63, false)
    | .digestFail => (s.updFail 0x64, false)
    | .qspiFault => (s.updFail 0x65, false)

/-! Sensors and rails (R511, R512). -/

/-- Address of TEMP[i], of VOLT[r] less 0x80 and of VLIM[r] less 0x100. -/
abbrev tempA (i : Nat) : Nat := gPage 0x231 + 4 * i

/-- Sensor i reads a valid temperature above a limit. -/
def State.tempAbove (s : State) (i : Nat) (lim : Fld) : Bool :=
  s.is (tempA i) F.TEMP_VALID && decide ((s.get (gPage 0x231) lim : Int) < s.geti (tempA i) F.TEMP_VALUE)

/-- The block and the sensors that share the TEMP_WARN and TEMP_CRIT bits with sensor i, and the bit of TEMP_WARN. -/
def tempGroup (i : Nat) : Nat × List Nat × Nat := if i < 5 then (mgB, List.range 5, 7) else (shB (i - 4) 0x010, [i], 3)

/-- Calibration offset of sensor i (item 0x11 of R518). -/
def State.tempOffset (s : State) (i : Nat) : Int := sgn 16 (ofLe (slice (tget [] s.mg.cal 0x11) (2 * i) 2))

/-- SENSOR_READ (R511). -/
def execSensorRead (i : Fin 11) (v : Option Int) (s : State) : Host.Outcome State Fault Refusal :=
  let a := tempA i.val
  let g := tempGroup i.val
  let die := if i.val < 5 then 0 else i.val - 4
  let was := s.is a F.TEMP_VALID
  let warm := s.tempAbove i.val F.TEMP_LIM_WARN
  let hot := s.tempAbove i.val F.TEMP_LIM_CRIT
  let t := match v with
    | some x => if s.present die
        then (s.puti a F.TEMP_VALUE (clampI (-32768) 32767 (x + s.tempOffset i.val))).put a F.TEMP_VALID 1
        else s.put a F.TEMP_VALID 0
    | none => s.put a F.TEMP_VALID 0
  let t := t.raiseIf (!t.is a F.TEMP_VALID && (was || !s.is mgB ⟨0x1C, 14, 1⟩)) mgB 14
  let t := t.live mgB 14 ((List.range 11).any fun k => !t.is (tempA k) F.TEMP_VALID)
  let t := t.raiseIf (t.tempAbove i.val F.TEMP_LIM_WARN && !warm) g.1 g.2.2
  let t := t.raiseIf (t.tempAbove i.val F.TEMP_LIM_CRIT && !hot) g.1 (g.2.2 + 1)
  let t := if t.present die then
      (t.live g.1 g.2.2 (g.2.1.any fun k => t.tempAbove k F.TEMP_LIM_WARN)).live g.1 (g.2.2 + 1)
        (g.2.1.any fun k => t.tempAbove k F.TEMP_LIM_CRIT)
    else t
  .next (if i.val < 5 then t.tempRefresh else t)

/-- Rail r reads below LOW, or above HIGH. -/
def State.railLow (s : State) (r : Nat) : Bool :=
  s.is (tempA r) F.VOLT_VALID && s.get (tempA r) F.VOLT_MV < s.get (tempA r) F.VLIM_LOW
def State.railHigh (s : State) (r : Nat) : Bool :=
  s.is (tempA r) F.VOLT_VALID && s.get (tempA r) F.VLIM_HIGH < s.get (tempA r) F.VOLT_MV
/-- A rail of Sheaf d is out of its limits: its VDD_CORE, or VDD_SDI where it reads lowest. -/
def State.sheafRailBad (s : State) (d : Nat) : Bool :=
  s.railLow d || s.railHigh d || (s.mg.sdiLow == d && (s.railLow 7 || s.railHigh 7))

/-- The rails of Granary. -/
def granaryRails : List Nat := [0, 8, 9, 10, 11, 12]

/-- RAIL_READ (R512). -/
def execRailRead (r : Fin 13) (mv : Fin 65536) (low : Fin 8) (s : State) : Host.Outcome State Fault Refusal :=
  let a := tempA r.val
  let sheaf := if r.val = 7 then low.val else r.val
  let onSheaf := 1 ≤ r.val && r.val ≤ 7
  let ok := if onSheaf then 1 ≤ sheaf && sheaf ≤ 6 && s.present sheaf else true
  .next (if !ok then (if r.val = 7 then s else s.put a F.VOLT_VALID 0)
    else
      let was := fun (u : State) d => u.sheafRailBad d
      let t := s.puts a [(F.VOLT_MV, mv.val), (F.VOLT_VALID, 1)]
      if onSheaf then
        let t := if r.val = 7 then t.modMg fun x => { x with sdiLow := low.val } else t
        t.forAll [1, 2, 3, 4, 5, 6] fun d u =>
          if u.present d then (u.raiseIf (t.sheafRailBad d && !was s d) (shB d 0x010) 5).live (shB d 0x010) 5 (t.sheafRailBad d) else u
      else
        let u := (t.raiseIf (t.railLow r.val && !s.railLow r.val) mgB 9).raiseIf (t.railHigh r.val && !s.railHigh r.val) mgB 10
        (u.live mgB 9 (granaryRails.any t.railLow)).live mgB 10 (granaryRails.any t.railHigh))

/-! Ageing (R515, R516). -/

/-- A die that has not been measured. -/
def Ageing.empty : Ageing := ⟨0, [], 0, 0, 0⟩
/-- Ageing of a die. -/
def State.age (s : State) (d : Nat) : Ageing := tget Ageing.empty s.mg.ageing d
/-- Set the ageing of a die. -/
def State.setAge (s : State) (d : Nat) (x : Ageing) : State :=
  s.modMg fun m => { m with ageing := tset Ageing.empty m.ageing d x }

/-- Place on an axis of three grid points, held at the edges: first point, offset and span. -/
def gridAt (p : Int × Int × Int) (x : Int) : Nat × Int × Int :=
  let x := clampI p.1 p.2.2 x
  if x < p.2.1 then (0, x - p.1, p.2.1 - p.1) else (1, x - p.2.1, p.2.2 - p.2.1)

/-- Bilinear interpolation over V (mV) and T (1/16 °C) of nine entries, by 3 × row of V + column of T: a fraction. -/
def bilinear (e : Nat → Nat) (mv temp : Int) : Int × Int :=
  let v := gridAt (720, 800, 880) mv
  let t := gridAt (400, 1360, 1680) temp
  let at' (i j : Nat) : Int := (e (3 * (v.1 + i) + t.1 + j) : Nat)
  (at' 0 0 * (v.2.2 - v.2.1) * (t.2.2 - t.2.1) + at' 1 0 * v.2.1 * (t.2.2 - t.2.1) + at' 0 1 * (v.2.2 - v.2.1) * t.2.1
    + at' 1 1 * v.2.1 * t.2.1, v.2.2 * t.2.2)

/-- The ageing item of a die as loaded (R518); none where it is missing. -/
def State.ageItem (s : State) (d : Nat) : Option (List Byte) := (s.mg.cal.find? fun p => p.1 == 0x18 + d).map (·.2)

/-- Mean of the last hour's operating points. -/
def Ageing.point (x : Ageing) : Int × Int :=
  let n : Int := (max 1 x.points.length : Nat)
  ((x.points.foldl (fun (a : Int) (p : Nat × Int) => a + (p.1 : Nat)) (0 : Int)) / n, (x.points.foldl (fun (a : Int) (p : Nat × Int) => a + p.2) (0 : Int)) / n)

/-- Powered days (R515). -/
def State.poweredDays (s : State) : Nat := s.get mgB F.MG_POWERED_HOURS / 24

/-- The prediction of a die is computed again (R516). -/
def State.eolRefresh (s : State) (d : Nat) : State :=
  let x := s.age d
  let a := gPage 0x232 + 4 * d
  let warn := s.get (gPage 0x232) F.EOL_WARN_DAYS
  let before := s.get a F.EOL_DAYS
  let m : Int := match s.ageItem d with
    | some item => let q := bilinear (Config.ageMargin item) x.point.1 x.point.2; 100 * q.1 / q.2
    | none => 0
  let days : Nat :=
    if (s.ageItem d).isNone || x.points.isEmpty || x.days < 30 || x.sumD ≤ 0 then 0xFFFF
    else
      let eol := (m * x.sumT * 10 ^ 6) * (m * x.sumT * 10 ^ 6) / (x.sumD * x.sumD)
      (clampI 0 65534 (eol - s.poweredDays)).toNat
  let t := (s.put a F.EOL_DAYS days).puti a F.EOL_SLACK (if (s.ageItem d).isNone || x.points.isEmpty then 0 else clampI (-32768) 32767 ((m - x.drift) / 100))
  let t := if d = 0 then t else if t.present d then t.put (shB d 0x500) F.SH_AGE_EOL_DAYS days else t
  let fell := decide (days < warn) && !decide (before < warn)
  let t := t.raiseIf fell mgB 13
  let t := if d = 0 then t else t.raiseIf fell (shB d 0x500) 2
  t.live mgB 13 ((List.range 7).any fun k => t.get (gPage 0x232 + 4 * k) F.EOL_DAYS < warn)

/-- Drift of one loop in ppm. -/
def driftOf (c : Nat) (base : Int × Int) : Int := if base.1 = 0 then 0 else ((c : Int) * base.2 - base.1) * 10 ^ 6 / base.1

/-- AGEING_MEASURE (R515). -/
def execAgeingMeasure (die : Fin 7) (cycles : List Nat) (mv : Nat) (temp : Int) (s : State) :
    Host.Outcome State Fault Refusal :=
  let d := die.val
  let n := if d = 0 then 8 else 4
  let cyc := cycles.take n
  .next (if s.present d then
      let s := s.forAll (List.range cyc.length) fun l u =>
        if d = 0 then u.put (gPage 0x232 + 4 * l) F.AGE_CYC_PS (cyc.getD l 0) else u.put (shB d 0x500 + 4 * l) F.SH_AGE_CYC_PS (cyc.getD l 0)
      let x := s.age d
      let ds : List Int := match s.ageItem d with
        | some item => (List.range cyc.length).map fun l => driftOf (cyc.getD l 0) (bilinear (Config.ageBaseline item l) mv temp)
        | none => []
      let drift := match ds with | [] => x.drift | a :: t => t.foldl max a
      (s.setAge d { x with drift := drift, points := ((mv, temp) :: x.points).take 60 }).eolRefresh d
    else s)

/-- AGEING_DAILY (R515): 24 powered hours more; the hours are counted with Granary's sample. -/
def execAgeingDaily (die : Fin 7) (s : State) : Host.Outcome State Fault Refusal :=
  let d := die.val
  let s := if d = 0 then s.bump mgB F.MG_POWERED_HOURS 24 else s
  .next (if s.present d then
      let x := s.age d
      let t := s.poweredDays
      let x := { x with sumD := x.sumD + x.drift * (isqrt (t * 10 ^ 12) : Nat), sumT := x.sumT + t, days := x.days + 1 }
      (s.setAge d x).eolRefresh d
    else s)

/-! The calibration set (R518, R519). -/

/-- Bytes of an item (R518); none for a number that is not listed. -/
def calLen (k : Nat) : Option Nat :=
  if k < 6 then some 192 else if k = 8 then some 128 else if k = 0x10 then some 66 else if k = 0x11 then some 22
  else if 0x18 ≤ k ∧ k ≤ 0x1E then some 240 else if k = 0x20 then some 64 else none

/-- The items of the set. -/
def calItems : List Nat := (List.range 0x21).filter fun k => (calLen k).isSome

/-- An item comes into use: the table of item 0x10 and the offsets of item 0x11 at once (R136, R519). -/
def State.calUse (s : State) (k : Nat) (l : List Byte) : State :=
  let s := s.modMg fun x => { x with cal := tset [] x.cal k l }
  if k = 0x10 then s.modTc fun x => { x with dcoTable := (List.range 33).map fun i => sgn 16 (ofLe (slice l (2 * i) 2)) } else s

/-- Mernak replaces an item's record; all but items 0x10 and 0x11 come into use at the next start. -/
def State.calReplace (s : State) (k : Nat) (l : List Byte) : State :=
  let s := s.mernakCommit (0x200 + k) l
  (if k = 0x10 ∨ k = 0x11 then s.calUse k l else s).raise mgB 15

/-- CAL_UNLOCK (R519). -/
def execCalUnlock (key : Word) (s : State) : Host.Outcome State Fault Refusal :=
  .next (s.hostWrite 0 (s.modMg fun x => { x with calOpen := key == 0xC41B }))

/-- CAL_CMD as written. -/
def State.calCmd (s : State) (op : Nat) (v : Word) : State :=
  s.puts calB [(F.CAL_CMD_ITEM, fldGet v 0 8), (F.CAL_CMD_OP, op)]

/-- CAL_READ (R519). -/
def execCalRead (v : Word) (s : State) : Host.Outcome State Fault Refusal :=
  let k := fldGet v 0 8
  .next (s.hostWrite 0 (
    let s := s.calCmd 1 v
    if (calLen k).isNone then s.put calB F.CAL_STAT_CODE fcBadArg
    else
      let q := s.resolveKey (0x200 + k)
      match q.2 with
      | none => q.1.puts calB [(F.CAL_STAT_CODE, fcNotFound), (F.CAL_STAT_LEN, 0)]
      | some r =>
        let d := slice r.data 0 (ceilDiv r.data.length 4 * 4)
        let s := q.1.forAll (List.range (d.length / 4)) fun i u => u.wr (calB + 0x100 + 4 * i) (BitVec.ofNat 32 (ofLe (slice d (4 * i) 4)))
        s.puts calB [(F.CAL_STAT_CODE, fcOk), (F.CAL_STAT_LEN, r.data.length)]))

/-- Bytes of the CAL_DATA window. -/
def State.calData (s : State) (n : Nat) : List Byte :=
  ((List.range 60).flatMap fun i => leBytes 4 (s.rd (calB + 0x100 + 4 * i)).toNat).take n

/-- CAL_WRITE (R519). -/
def execCalWrite (v : Word) (s : State) : Host.Outcome State Fault Refusal :=
  let k := fldGet v 0 8
  .next (s.hostWrite 0 (
    let s := s.calCmd 2 v
    let code (s : State) (c : Nat) : State := s.put calB F.CAL_STAT_CODE c
    let shut (s : State) : State := s.modMg fun x => { x with calOpen := false }
    if !s.mg.calOpen then code s fcDenied
    else match calLen k with
      | none => code (shut s) fcBadArg
      | some n =>
        if s.inhibited then code s fcInhibited
        else (code ((shut s).calReplace k (s.calData n)) fcOk).put calB F.CAL_STAT_LEN n))

/-- CAL_WINDOW_EXPIRY (R519). -/
def execCalWindowExpiry (s : State) : Host.Outcome State Fault Refusal := .next (s.modMg fun x => { x with calOpen := false })

/-- LEARN_TABLE_SAVE (R519). -/
def execLearnTableSave (s : State) : Host.Outcome State Fault Refusal :=
  .next (if s.is tcB F.TC_CFG_LEARN && !s.inhibited then
      s.calReplace 0x10 (s.tc.dcoTable.flatMap fun e => leBytes 2 (unsgn 16 e))
    else s)

end Sys2Proof.Machine
end

