-- ==== Sys2Proof/Machine/Fabric.lean ====
section
/-! DEFINITION. Register words as a bus master reads and writes them (R39, R400, R403): a write of bits that have a command of their own
in the table takes that command's meaning, and a read has the effect that the register's table gives it. -/

namespace Sys2Proof.Machine

/-- The state that a command's meaning answers, where it answers one. -/
def State.took (s : State) : Host.Outcome State Fault Refusal → State
  | .next t => t
  | _ => s

/-- A number as an operand of a command. -/
abbrev opnd (n : Nat) [NeZero n] (k : Nat) : Fin n := Fin.ofNat n k
/-- The block that an address lies in, as an operand. -/
def opndBlk (a : Nat) : BlockAddr := ⟨opnd 8 (dieOf a), opnd 2048 (pageOf a)⟩
/-- The port of a Sheaf page, as an operand. -/
def opndPort (a first stride : Nat) : Fin 96 := opnd 96 (portOf a first stride)

/-- An operand that no bit of the word gives: the time to a cut-off, or what host memory holds (DESIGN CHOICE, log 80). -/
def State.openNat (s : State) : Nat := (Config.freeValue s.freeCtr).toNat
/-- Bytes of host memory that a command reads as it starts. -/
def State.openBytes (s : State) (n : Nat) : List Byte := (List.range n).map fun k => Config.hostByte s.freeCtr k

/-- Commands that a write of a word of a block's header is (R49, R53, R67, R78, R107); none for another word. -/
def State.headerWrite (s : State) (a : Nat) (v : Word) : Option State :=
  let b := opndBlk a
  match rowOf a with
  | none => none
  | some r =>
    if a = blockBase a + 0x8 ∧ r.own ≠ 0 then
      if bitN v.toNat 31 ∧ bitN r.own 31 then some (s.took (execSoftReset b s))
      else
        let s := if r.own % 8 = 7 then s.took (execStopModeWrite (opndPort a 0x200 1) (opnd 4 (fldGet v 1 2)) s) else s
        some (if r.own % 2 = 0 then s
          else if bitN v.toNat 0 then s.took (execCtrlRunSet b s) else s.took (execCtrlRunClear b s))
    else if a = blockBase a + 0x10 then some (s.took (execEvStickyClear b v s))
    else if a = blockBase a + 0x18 then some (s.took (execEvForce b v s))
    else if a = blockBase a + 0x20 ∧ r.own ≠ 0 then
      let n := opnd 64 (fldGet v 0 6)
      some (if bitN v.toNat 31 then s.tick.took (execCommitArm b n s.openNat s.tick)
        else s.took (execCommitGroupWrite b n s))
    else none

/-- Commands of the pages of Sheafs (R89, R230, R232, R241, R253). -/
def State.sheafWrite (s : State) (a : Nat) (v : Word) : Option State :=
  let p := pageOf a
  let o := offOf a
  if 0x100 ≤ p ∧ p < 0x110 ∧ o = 0x60 then some (s.took (execInOverrideWrite (opndPort a 0x100 1) v s))
  else if 0x300 ≤ p ∧ p < 0x340 then
    let g := opndPort a 0x300 4
    if p % 4 = 0 ∧ o = 0x90 then some (s.took (execCoefRestore g (opnd 4 v.toNat) s))
    else if p % 4 = 0 ∧ (o = 0x200 ∨ o = 0x204) then some (s.took (execFenceDoorbell g (o == 0x204) v s))
    else if p % 4 = 1 then
      some (s.took (execCoefWrite g ⟨opnd 2 (o / 0x800), o / 0x400 % 2 == 1, opnd 64 (o / 16), opnd 4 (o / 4)⟩ v s))
    else if p % 4 = 2 ∧ o = 8 then some (s.took (execLutWrite g v s))
    else none
  else none

/-- Commands of the key store and the flash controller (R427 to R435, R449 to R454, R457). -/
def State.storeWrite (s : State) (m a : Nat) (v : Word) : Option State :=
  let m8 := opnd 8 m
  let go := bitN v.toNat 31
  if a = ksB + 0x50 ∧ go then
    match fldGet v 0 4 with
    | 1 => some (s.took (execKsDerive v s))
    | 2 => some (s.took (execKsClear v s))
    | 3 => some (s.took (execKsAttest v s))
    | 4 => some (s.took (execKsUpdate v s))
    | _ => none
  else if a = nvB + 0x50 ∧ go then
    match fldGet v 0 3 with
    | 1 => some (s.took (execRecAppend m8 v s))
    | 2 => some (s.took (execRecDelete m8 v s))
    | 3 => some (s.took (execRecCommit m8 v s))
    | 4 => some (s.took (execRecAbort m8 v s))
    | 5 => some (s.took (execRecRead m8 v s))
    | _ => none
  else if a = nvB + 0x64 ∧ go then some (s.took (execCntInc m8 (opnd 16 v.toNat) s))
  else if a = nvB + 0x6C ∧ go then
    match fldGet v 14 3 with
    | 1 => some (s.took (execRawProgram m8 v s))
    | 2 => some (s.took (execRawEraseSector m8 v s))
    | 3 => some (s.took (execRawClearBuf m8 v s))
    | 4 => some (s.took (execRawLoad m8 v s))
    | _ => none
  else if a = nvB + 0x74 then some (s.took (execRawBufferWrite m8 (.data v) s))
  else none

/-- Commands of Mernak and the calibration set (R502 to R504, R509, R510, R519). -/
def State.mernakWrite (s : State) (m1 : Bool) (a : Nat) (v : Word) : Option State :=
  let e : DmaEnd := ⟨s.openNat % 16777217, 0, s.openBytes (s.get mgB F.DMA_LEN_BYTES)⟩
  if a = mgB + 0x48 ∧ bitN v.toNat 31 then
    let s := s.regWrite m1 a v
    some (s.took (execMgWdtKick s))
  else if a = mgB + 0x4C ∧ m1 ∧ bitN v.toNat 0 then some (s.took (execDebugEnabled s))
  else if a = mgB + 0x6C then
    if bitN v.toNat 0 then some (s.tick.took (execUpdStart (s.openBytes 4096) s.tick))
    else if bitN v.toNat 1 then some (s.took (execUpdAbort s))
    else if bitN v.toNat 2 then some (s.tick.took (execUpdBlockReady (bitN s.openNat 0) s.tick))
    else none
  else if a = mgB + 0x94 ∧ bitN v.toNat 30 then some (s.tick.took (execDmaAbort e s.tick))
  else if a = mgB + 0x94 ∧ bitN v.toNat 31 then some (s.took (execDmaGo v s))
  else if a = calB + 0x40 ∧ bitN v.toNat 31 then
    match fldGet v 8 2 with
    | 1 => some (s.took (execCalRead v s))
    | 2 => some (s.took (execCalWrite v s))
    | _ => none
  else if a = calB + 0x44 then some (s.took (execCalUnlock v s))
  else none

/-- Commands of the IP ports (R325, R328, R329). -/
def State.ipWrite (s : State) (a : Nat) (v : Word) : Option State :=
  let p := pageOf a
  let o := offOf a
  let n := opnd 4 ((p - 0x100) / 16)
  if p % 16 = 3 ∧ o = 4 ∧ bitN v.toNat 31 then some (s.took (execOptTransferStart n v s))
  else if p % 16 = 14 ∧ o = 0xC ∧ bitN v.toNat 0 then some (s.took (execHqrPop n s))
  else if p % 16 = 15 ∧ o = 0 ∧ bitN v.toNat 31 then some (s.took (execHqtSend n v s))
  else none

/-- Commands of the memory channels (R382, R384, R387); FAIL before RESTORE where a word asks for both. -/
def State.memWrite (s : State) (a : Nat) (v : Word) : Option State :=
  let c := opnd 12 (pageOf a - 0xC0)
  let o := offOf a
  if o = 0x40 then
    let s := if bitN v.toNat 0 then s.took (execMcFail c s) else s
    some (if bitN v.toNat 1 then s.took (execMcRestore c s) else s)
  else if o = 0x70 ∧ bitN v.toNat 0 then some (s.took (execMcRawGo c (bitN v.toNat 1) s))
  else if o = 0x74 then some (s.took (execMcRawUnlock c v s))
  else none

/-- Commands of the timing core and domains, the controller of events, the commit sequencer, the Floor and the audio router (R59, R60, R65,
R73, R76, R77, R116, R146, R150, R162, R169, R303); ARM before ABORT where a word asks for both. -/
def State.coreWrite (s : State) (a : Nat) (v : Word) : Option State :=
  let p := pageOf a
  let o := offOf a
  if p = 0x010 ∧ o = 0x388 then some (s.took (execVecAck (opnd 64 v.toNat) s))
  else if p = 0x010 ∧ o = 0x390 then some (s.took (execYumenStickyClear (BitVec.ofNat 16 v.toNat) s))
  else if p = 0x011 ∧ o % 16 = 12 ∧ !bitN v.toNat 0 then some (s.took (execMsixUnmask (.vector (opnd 64 (o / 16))) s))
  else if p = 0x020 ∧ o = 0xA8 ∧ bitN v.toNat 0 then some (s.took (execTsSetArm s))
  else if p = 0x022 ∧ o < 0x200 ∧ o % 64 = 4 then some (s.took (execTdRunWrite (opnd 8 (o / 64)) (bitN v.toNat 0) s))
  else if p = 0x022 ∧ o < 0x200 ∧ o % 64 = 0x10 ∧ bitN v.toNat 0 then
    some (s.took (execTdRealignGo (opnd 8 (o / 64)) (bitN v.toNat 1) s))
  else if p = 0x040 ∧ o = 0x88 then some (s.took (execFlReexamine (BitVec.ofNat 8 v.toNat) s))
  else if a = arB + 0x100 + o % 0x40 ∧ p = pageOf arB then some (s.took (execGenCfgWrite (opnd 16 (o / 4)) v s))
  else if p = pageOf seqB ∧ 0x100 ≤ o ∧ o < 0x500 ∧ o % 16 = 0 then some (s.took (execCgCfgWrite (opnd 64 ((o - 0x100) / 16)) v s))
  else if p = pageOf seqB ∧ 0x100 ≤ o ∧ o < 0x500 ∧ o % 16 = 4 then
    let n := opnd 64 ((o - 0x100) / 16)
    let s := if bitN v.toNat 0 then s.tick.took (execCgArm n s.openNat s.tick) else s
    some (if bitN v.toNat 1 then s.took (execCgAbort n s) else s)
  else
    match routeOf a with
    | some q => some (s.took (execRouteCfgWrite (opnd 3 q.1) (opnd 1024 q.2) v s))
    | none => none

/-- The commands of their own that a write of a word is. -/
def State.commandWrite (s : State) (m a : Nat) (v : Word) : Option State :=
  let p := pageOf a
  match s.headerWrite a v with
  | some t => some t
  | none =>
    if dieOf a ≠ 0 then s.sheafWrite a v
    else if p = 0x200 ∨ p = 0x210 then s.storeWrite m a v
    else if 0x230 ≤ p then (match s.mernakWrite (m == 1) a v with | some t => some t | none => s.coreWrite a v)
    else if 0x100 ≤ p ∧ p < 0x140 then s.ipWrite a v
    else if 0x0C0 ≤ p ∧ p < 0x0CC then s.memWrite a v
    else s.coreWrite a v

/-- A word written by a bus master (R39, R403): the commands its own bits are, else its shadow, direct and structural bits. -/
def State.wordWrite (s : State) (m a : Nat) (v : Word) : State :=
  s.hostWrite (dieOf a) (match s.commandWrite m a v with
    | some t => t
    | none => ((s.shadowStore a v).regWrite (m == 1) a v).structWrite a v)

/-- The slack monitor at an address (R513). -/
def isSlack (a : Nat) : Bool :=
  if dieOf a = 0 then pageOf a == 0x232 && offOf a < 104
  else pageOf a == 0x500 && 0x40 ≤ offOf a && offOf a < 0xC8

/-- What a read of a register does, and the word it gives (R5, R46, R49, R152, R257, R513). -/
def State.wordRead (s : State) (a : Nat) : State × Word :=
  let p := pageOf a
  if !s.present (dieOf a) then (s.absentAccess (dieOf a), 0xFFFFFFFF)
  else if p = 0x234 ∧ dieOf a = 0 then (s, 0)
  else if a = blockBase a + 0x28 then (s.put (blockBase a) F.STAT_FAULT 0, s.rd a)
  else if a = tcB + 0x94 then
    let t := s.tick.took (execTsSecRead (opnd 1000000 s.openNat) s.tick)
    ({ t with readData := s.readData }, t.rd a)
  else if dieOf a ≠ 0 ∧ 0x300 ≤ p ∧ p < 0x340 ∧ p % 4 = 2 ∧ (offOf a = 4 ∨ offOf a = 8) then
    let g := portOf a 0x300 4
    let e := s.lutAt g
    if offOf a = 4 then (s, BitVec.ofNat 32 (e.1 + 2 ^ 16 * e.2.1)) else (s.lutInc g, BitVec.ofNat 32 e.2.2)
  else if isSlack a then (s.puti a F.SLK_MIN (s.geti a F.SLK_CUR), s.rd a)
  else (s, s.shown a)

/-- Words read in ascending order (R403). -/
def State.wordsRead : Nat → State → Nat → State × List Byte
  | 0, s, _ => (s, [])
  | n + 1, s, a =>
    let r := s.wordRead a
    let q := State.wordsRead n r.1 (a + 4)
    (q.1, leBytes 4 r.2.toNat ++ q.2)

end Sys2Proof.Machine
end

