-- ==== Sys2Proof/Machine/BusMatrix.lean ====
section
/-! DEFINITION. The commands of the control bus matrix (chapter 12): transactions, arbitration, responses, broken locks, resets of
master ports and faults. -/

namespace Sys2Proof.Machine

/-- A 128-bit beat of sixteen bytes, byte 0 in bits [7:0]. -/
def beatOf (l : List Byte) : BitVec 128 := BitVec.ofNat 128 (ofLe (l.take 16))

/-- Beats of a list of bytes. -/
def beatsOf (l : List Byte) (n : Nat) : List (BitVec 128) := (List.range n).map fun i => beatOf (slice l (16 * i) 16)

/-- First byte of the beat that an address lies in. -/
def beatBase (r : BusReq) : Nat := r.addr.toNat / 16 * 16

/-- Bytes that a write carries with their strobes on, by offset from the first beat (R401). -/
def strobed (r : BusReq) : List (Nat × Byte) :=
  ((List.range r.len.val).zip r.beats).flatMap fun q =>
    (List.range 16).filterMap fun i =>
      if q.2.strb.toNat.testBit i then some (16 * q.1 + i, BitVec.ofNat 8 (q.2.data.toNat / 2 ^ (8 * i))) else none

/-- Offset of a burst from the first byte of its target, and the bytes that it writes there. -/
def offIn (r : BusReq) (base : Nat) : Nat := beatBase r - base
def bytesIn (r : BusReq) (base : Nat) : List (Nat × Byte) := (strobed r).map fun p => (offIn r base + p.1, p.2)

/-- One word written through T0 (R39, R403). -/
def State.fabricWrite (s : State) (m a : Nat) (v : Word) : State := (s.emit (.fabric m a v)).wordWrite m a v

/-- A write burst at T0, word by word in ascending order (R403). -/
def State.t0Write (s : State) (r : BusReq) : State :=
  (((List.range r.len.val).zip r.beats).flatMap fun q => (List.range 4).map fun w => (q.1, w, q.2)).foldl (fun u q =>
    let strb := q.2.2.strb.toNat / 2 ^ (4 * q.2.1) % 16
    let v : Word := BitVec.ofNat 32 (q.2.2.data.toNat / 2 ^ (32 * q.2.1))
    if strb = 15 then u.fabricWrite r.master.val (beatBase r + 16 * q.1 + 4 * q.2.1) v
    else u.bump bmB F.BM_T0_PARTIAL_COUNT) s

/-- Bytes of the flash window from an address (R443): of the sectors, or of the command port. -/
def State.t2Read (s : State) (a n : Nat) : State × List Byte :=
  if a < 0x63E0000 then (s, s.fBytes (a - 0x6000000) n)
  else if a < 0x63E1000 then s.wordsRead (n / 4) (nvB + a % 0x1000)
  else (s, List.replicate n 0)

/-- A write burst at T2: the page buffer, or the words of the command port (R443). -/
def State.t2Write (s : State) (r : BusReq) : State :=
  let a := beatBase r
  if a < 0x63E0000 then s.pageWrite r.master.val (bytesIn r 0x6000000)
  else if a < 0x63E1000 then
    (List.range (4 * r.len.val)).foldl (fun u k =>
      let w := (strobed r).filter fun p => p.1 / 4 == k
      if w.length = 4 then
        u.wordWrite r.master.val (nvB + (a + 4 * k) % 0x1000) (BitVec.ofNat 32 (ofLe (w.map (·.2))))
      else u) s
  else s

/-- Runs of bytes at consecutive offsets. -/
def runsOf : List (Nat × Byte) → List (Nat × List Byte)
  | [] => []
  | p :: t =>
    match runsOf t with
    | (a, l) :: r => if a = p.1 + 1 then (p.1, p.2 :: l) :: r else (p.1, [p.2]) :: (a, l) :: r
    | [] => [(p.1, [p.2])]

/-- BAR2 offset of a byte of the data space (R197, R400). -/
def State.bar2At (s : State) (a : Nat) : Nat := (a + (2 ^ 39 - s.get siloB F.BAR2_BASE_BIN * 2 ^ 21)) % 2 ^ 32

/-- A byte of the data space lies in the BAR2 window (R197). -/
def State.inBar2 (s : State) (a : Nat) : Bool :=
  s.get siloB F.BAR2_BASE_BIN ≤ a / 2 ^ 21 && a / 2 ^ 21 < s.get siloB F.BAR2_BASE_BIN + 2048

/-- M2 writes the data space (R197, R198, R400): as BAR2 does. -/
def State.m2Write (s : State) (l : List (Nat × Byte)) : State :=
  (runsOf l).foldl (fun u p =>
    if u.inBar2 p.1 then State.bar2Bytes p.2.length u (u.bar2At p.1) p.2 else u.bar2Fault (u.bar2At p.1)) s

/-- M2 reads the data space (R197, R198): zero outside the bins of stores and rings, and in tags. -/
def State.m2Read (s : State) (a n : Nat) : State × Option (List Byte) :=
  let ok (x : Nat) : Bool := s.inBar2 x && x % 2 ^ 21 < 2096640 && 2 ≤ (s.binOwner (x / 2 ^ 21)).1
  if !(List.range n).any fun i => ok (a + i) then (s, some (List.replicate n 0))
  else
    let t := (s.silo.combining.filter fun e =>
      (List.range n).any fun i => (a + i) / 2 ^ 21 == e.bin && (a + i) % 2 ^ 21 / 640 == e.stripe).foldl State.combineFlush s
    let r := t.spaceRead (n + 2) a n
    (r.1, r.2.map fun l => (List.range n).map fun i => if ok (a + i) then l.getD i 0 else 0)

/-- A write burst at T1 (R400): M2's follows R197. -/
def State.t1Write (s : State) (r : BusReq) (l : List (Nat × Byte)) : State :=
  if r.master.val = 2 then s.m2Write l else s.spaceWrite l

/-- Bytes of T1 from an offset; none where they cannot be corrected. -/
def State.t1Read (s : State) (r : BusReq) (a n : Nat) : State × Option (List Byte) :=
  if r.master.val = 2 then s.m2Read a n else s.spaceRead (n + 2) a n

/-- Response code and data of a read of T1. -/
def t1Reply (q : State × Option (List Byte)) (len : Nat) : State × Nat × List (BitVec 128) :=
  match q.2 with
  | some l => (q.1, 0, beatsOf l len)
  | none => (q.1, 1, [])

/-- The target applies a transaction (R398, R403, R379, R380): the state after it, its response code and data. Code and data of
the targets whose contents the model does not hold are given with the response. -/
def State.busApply (s : State) (x : BusTx) : State × Nat × List (BitVec 128) :=
  let r := x.req
  let n := 16 * r.len.val
  match x.target, r.write with
  | 0, true => (s.t0Write r, 0, [])
  | 0, false =>
    let q := s.wordsRead (4 * r.len.val) (beatBase r)
    (q.1, 0, beatsOf q.2 r.len.val)
  | 1, true => (s.t1Write r (bytesIn r 0x8000000000), 0, [])
  | 1, false => t1Reply (s.t1Read r (offIn r 0x8000000000) n) r.len.val
  | 2, true => (s.t2Write r, 0, [])
  | 2, false =>
    let q := s.t2Read (beatBase r) n
    (q.1, 0, beatsOf q.2 r.len.val)
  | 4, true => (s.sramWrite (bytesIn r 0x5000000), 0, [])
  | 4, false => (s, 0, beatsOf (s.sramRead (offIn r 0x5000000) n) r.len.val)
  | 5, false => (s, 0, beatsOf ((List.range n).map fun i => Config.bootRom (offIn r 0x4000000 + i)) r.len.val)
  | 6, true => ((strobed r).foldl (fun u p => u.emit (.qspi (offIn r 0x10000000 + p.1) [p.2])) s, 0, [])
  | 7, true => ((strobed r).foldl (fun u p => u.emit (.pcie (u.hostAddr (offIn r 0x4000000000 + p.1)) [p.2])) s, 0, [])
  | _, _ => (s, 0, [])

/-- The transaction granted at a target and not yet applied is applied. -/
def State.flushOne (s : State) (t : Nat) : State :=
  match ((List.range s.bus.txs.length).zip s.bus.txs).find? fun p => p.2.st == 2 && p.2.target == t with
  | some (i, x) =>
    let r := s.busApply x
    r.1.modBus fun b => { b with txs := b.txs.set i { x with st := 3, resp := r.2.1, data := r.2.2 } }
  | none => s

/-- A granted transaction is applied; before one at T0, what the data space has been granted (R39, R253, R405). -/
def State.busFlush (s : State) (t : Nat) : State := if t = 0 then (s.flushOne 1).flushOne 0 else s.flushOne t

/-- Masters whose oldest waiting transaction stalls on an ID in quarantine, with the ID (R415). -/
def State.quarStalls (s : State) : List (Nat × Nat) :=
  (List.range 8).filterMap fun m =>
    match s.bus.txs.find? fun x => x.req.master.val == m && x.st == 0 with
    | some x => if bitN (s.busQuar m) x.req.id.val then some (m, x.req.id.val) else none
    | none => none

/-- Everything that can move does; a transaction that newly stalls on an ID in quarantine raises ID_STALL (R415). -/
def State.busMove (s : State) (before : List (Nat × Nat)) : State :=
  let t := s.busGo
  t.raiseIf (t.quarStalls.any fun p => !before.contains p) bmB 5

/-- BUS_TRANSACTION (R401): a master in reset issues nothing. -/
def execBusTransaction (r : BusReq) (s : State) : Host.Outcome State Fault Refusal :=
  let m := r.master.val
  let t := s.busTarget r.addr.toNat
  let q := if m = 3 then r.qos.val else s.get (bmM m) F.BM_MCFG_QOS
  .next (if s.is (bmM m) F.BM_MSTAT_IN_RESET then s
    else (s.modBus fun b => { b with txs := b.txs ++ [⟨r, t, 0, 0, q, 0, [], false⟩] }).busMove s.quarStalls)

/-- The lock of a target keeps a master's transactions waiting (R410). -/
def State.lockedOut (s : State) (t m : Nat) : Bool :=
  s.is (bmB + 4 * t) F.BM_TSTAT_LOCKED && s.get (bmB + 4 * t) F.BM_TSTAT_LOCK_OWNER != m

/-- The transaction at a position may be granted at its target: it waits there, the lock admits its master, it is its master's
oldest there, and every earlier write of its master has been accepted (R405, R406, R410). -/
def State.busReady (s : State) (t i : Nat) (x : BusTx) : Bool :=
  x.st == 1 && x.target == t && !s.lockedOut t x.req.master.val
    && !(s.bus.txs.take i).any fun y => y.req.master == x.req.master
      && ((y.st == 1 && y.target == t) || (y.req.write && y.st ≤ 1))

/-- The winner among candidates: the highest QoS, ties by master index after the pointer (R407). -/
def busWinner (ptr : Nat) (l : List (Nat × BusTx)) : Option (Nat × BusTx) :=
  let turn (x : BusTx) : Nat := (x.req.master.val + 7 - ptr % 8) % 8
  l.foldl (fun best p => match best with
    | none => some p
    | some b => if b.2.qos < p.2.qos ∨ (b.2.qos = p.2.qos ∧ turn p.2 < turn b.2) then some p else some b) none

/-- A transaction that waited through a grant (R408). -/
def State.busLose (s : State) (i : Nat) (x : BusTx) : State :=
  let n := x.losses + 1
  let up := decide (n % 256 = 0) && decide (x.qos < 15)
  let s := s.modBus fun b => { b with txs := b.txs.set i { x with losses := n, qos := if up then x.qos + 1 else x.qos } }
  if up then (s.bump bmB F.BM_CNT_PROMOTE_COUNT).raiseIf (x.qos == 14) bmB 6 else s

/-- TARGET_ARBITRATION (R407 to R410). -/
def execTargetArbitration (t : Fin 9) (s : State) : Host.Outcome State Fault Refusal :=
  let s := s.busFlush t.val
  let l := (List.range s.bus.txs.length).zip s.bus.txs
  let waiting := l.filter fun p => p.2.st == 1 && p.2.target == t.val
  match busWinner (tget 7 s.bus.ptr t.val) (l.filter fun p => s.busReady t.val p.1 p.2) with
  | none => .next s
  | some (i, x) =>
    let m := x.req.master.val
    let parked := waiting.length == 1 && s.get (bmB + 4 * t.val) F.BM_TCFG_PARK == m && x.losses == 0
    let losers := waiting.filter fun p => p.1 != i && !s.lockedOut t.val p.2.req.master.val
    let s := losers.foldl (fun u p => u.busLose p.1 p.2) s
    let s := s.modBus fun b => { b with
      txs := b.txs.set i { x with st := 2 }, ptr := if parked then b.ptr else tset 7 b.ptr t.val m }
    let s := if BusReq.locked x.req ∧ t.val ≠ 8 then
        s.puts (bmB + 4 * t.val) [(F.BM_TSTAT_LOCKED, 1), (F.BM_TSTAT_LOCK_OWNER, m)] else s
    .next (s.busMove s.quarStalls)

/-- A granted transaction of a master's ID at a target. -/
def BusTx.granted (x : BusTx) (t : Fin 9) (m : Fin 8) (id : Fin 32) : Bool :=
  x.target == t.val && x.req.master == m && x.req.id == id && (x.st == 2 || x.st == 3)

/-- What a response carries: reads of a target outside the block answer the operand's data, others what the target held. -/
def BusTx.reply (x : BusTx) (t : Nat) (data : List (BitVec 128)) : List (BitVec 128) :=
  if x.req.write then []
  else if t == 3 || t == 6 || t == 7 then (data ++ List.replicate x.req.len.val 0).take x.req.len.val
  else x.data

/-- The accesses of a target up to the oldest granted transaction are done, where it still waits for its own. -/
def State.busReach (s : State) (t : Fin 9) (m : Fin 8) (id : Fin 32) : State :=
  match s.bus.txs.find? fun x => x.granted t m id with
  | some x => if x.st = 2 then s.busFlush t.val else s
  | none => s

/-- The oldest granted transaction is answered and leaves the matrix. `before` holds the stalls counted before it. -/
def State.busRespond (s : State) (before : List (Nat × Nat)) (t : Fin 9) (m : Fin 8) (id : Fin 32) (resp : Nat)
    (data : List (BitVec 128)) : State :=
  match ((List.range s.bus.txs.length).zip s.bus.txs).find? fun p => p.2.granted t m id with
  | none => s
  | some (i, x) =>
    ((s.modBus fun b => { b with txs := dropAt b.txs i }).busAnswer x
      (if t.val = 0 ∨ t.val = 1 then x.resp else if resp = 1 then 1 else 0) (x.reply t.val data)).busMove before

/-- BUS_RESPONSE (R401, R404, R406): of the oldest granted transaction of a master's ID at the target. -/
def execBusResponse (t : Fin 9) (m : Fin 8) (id : Fin 32) (resp : Fin 4) (data : List (BitVec 128)) (s : State) :
    Host.Outcome State Fault Refusal :=
  .next ((s.busReach t m id).busRespond s.quarStalls t m id resp.val data)

/-- Transactions of a broken sequence that wait at the target are answered LOCK, up to and including the ending one (R411). -/
def State.breakWaiting : Nat → State → Nat → Nat → State
  | 0, s, _, _ => s
  | fuel + 1, s, t, m =>
    match ((List.range s.bus.txs.length).zip s.bus.txs).find? fun p =>
        p.2.st == 1 && p.2.target == t && p.2.req.master.val == m with
    | none => s
    | some (i, x) =>
      let s := (s.modBus fun b => { b with txs := dropAt b.txs i }).busAnswer x 3 []
      if BusReq.locked x.req then State.breakWaiting fuel s t m
      else s.modBus fun b => { b with broken := b.broken.filter (· != t * 8 + m) }

/-- LOCK_BROKEN (R411). -/
def execLockBroken (t : Fin 9) (s : State) : Host.Outcome State Fault Refusal :=
  let b := bmB + 4 * t.val
  let m := s.get b F.BM_TSTAT_LOCK_OWNER
  .next (if s.is b F.BM_TSTAT_LOCKED && t.val != 8 then
      let before := s.quarStalls
      let s := (s.put b F.BM_TSTAT_LOCKED 0).modBus fun x => { x with broken := x.broken ++ [t.val * 8 + m] }
      let s := State.breakWaiting s.bus.txs.length s t.val m
      ((s.puts bmB [(F.BM_LOCK_INFO_MASTER, m), (F.BM_LOCK_INFO_TARGET, t.val)]).raise bmB 3).busMove before
    else s)

/-- BM_FAULT (R416). -/
def execBmFault (u : BmUe) (s : State) : Host.Outcome State Fault Refusal :=
  let l := (List.range s.bus.txs.length).zip s.bus.txs
  let before := s.quarStalls
  let hit (m : Fin 8) (id : Fin 32) (ok : Nat → Bool) := l.find? fun p => p.2.req.master == m && p.2.req.id == id && ok p.2.st
  .next (match u with
    | .request m id index =>
      let s := (s.setFault bmB 0 index.val).raise bmB 7
      match hit m id (· == 1) with
      | some (i, x) => (s.modBus fun b => { b with txs := b.txs.set i { x with st := 4 } }).busMove before
      | none => s
    | .response m id index =>
      let s := (s.setFault bmB 1 index.val).raise bmB 7
      match hit m id fun st => st == 2 || st == 3 with
      | some (i, x) =>
        let s := if x.st = 2 then s.busFlush x.target else s
        (s.modBus fun b => { b with txs := b.txs.set i { x with st := 4 } }).busMove before
      | none => s
    | .idTable m index =>
      let s := (s.setFault bmB 2 index.val).raise bmB 7
      (s.modBus fun b => { b with blocked := setBit b.blocked m.val true }).busMove before)

end Sys2Proof.Machine
end

