-- ==== Sys2Proof/Machine/Startup.lean ====
section
/-! DEFINITION. Part reset, the start-up sequence, Sheaf bring-up and the end of an image update (chapter 17, R508, R509). -/

namespace Sys2Proof.Machine

/-! Part reset (R527 to R529, R535). -/

/-- Links of the Sheafs that a die map populates (R185). -/
def linksOf (map : Nat) : Nat := (List.range 6).foldl (fun m k => if bitN map (k + 1) then m + 15 * 16 ^ k else m) 0

/-- Registers that part reset does not return to the reset value of a full part: the fused identity words (R3, R47) and the links
of the dies they give, the powered hours (R520) and, where the next start is warm, MEM_BOOT.WARM_TEST (R392). -/
def State.keepRegs (r s : State) (cold : Bool) : State :=
  let t := r.forAll [0x40, 0x44, 0x48, 0x4C, 0x50] fun a u => u.wr a (s.rd a)
  let t := t.put flB F.FL_LINKS_UP (linksOf (s.get 0 F.DIE_PRESENT_MAP))
  let t := t.put mgB F.MG_POWERED_HOURS (s.get mgB F.MG_POWERED_HOURS)
  if cold then t else t.put (mcB 0) F.MEM_BOOT_WARM_TEST (s.get (mcB 0) F.MEM_BOOT_WARM_TEST)

/-- Part reset: everything but Yumen, the flash array and what stands in it. -/
def State.porst (s : State) (cold : Bool) : State :=
  let r : State := State.reset.keepRegs s cold
  { r with
    ym := s.ym
    nv := { r.nv with flash := s.nv.flash }
    mg := { r.mg with
      ageing := s.mg.ageing.map fun (p : Nat × Ageing) => (p.1, { p.2 with drift := 0, points := [] })
      logNext := s.mg.logNext }
    pwr := { r.pwr with coldNext := s.pwr.coldNext || cold }
    readData := s.readData
    out := s.out
    freeCtr := s.freeCtr
    pending := s.pending }

/-- PORST_ASSERT (R528). -/
def execPorstAssert (s : State) : Host.Outcome State Fault Refusal := .next (s.porst false)

/-- POWER_GOOD_RESET (R529): the next start is cold. -/
def execPowerGoodReset (s : State) : Host.Outcome State Fault Refusal := .next (s.porst true)

/-- PCIE_LINK_UP (R531). -/
def execPcieLinkUp (s : State) : Host.Outcome State Fault Refusal := .next { s with pwr := { s.pwr with pcie := true } }

/-! Sheaf bring-up (R532, R533). -/

/-- The four link bits of a Sheaf in FL_LINKS. -/
def linkFld (d : Nat) : Fld := ⟨0x80, 4 * (d - 1), 4⟩

/-- FL_LINKS of a Sheaf shows which links are up; FINANO_LINK_DOWN is raised when one of them goes down. -/
def State.setLinks (s : State) (d up : Nat) : State :=
  let old := s.get flB (linkFld d)
  ((s.put flB (linkFld d) up).raiseIf (old &&& (15 - up) != 0) flB 6).floorLive

/-- Everything that a Sheaf holds goes back to its reset value. -/
def State.clearMaps (s : State) (d : Nat) : State :=
  let on (a : Nat) : Bool := dieOf a != d
  let off (g : Nat) : Bool := g / 16 + 1 != d
  let keep (g : Grp) : Grp := { g with staging := g.staging.filter fun p => on p.1 }
  { s with
    regs := s.regs.filter fun p => on p.1
    eff := s.eff.filter fun p => on p.1
    tags := s.tags.filter fun p => on p.1
    grps := s.grps.map fun (p : Nat × Grp) => (p.1, keep p.2)
    sdiRx := s.sdiRx.filter fun p => off p.1
    sdiTx := s.sdiTx.filter fun p => off p.1
    comps := s.comps.filter fun p => off p.1
    irq := { s.irq with inFlight := s.irq.inFlight.filter fun p => p.1 != d }
    aud := { s.aud with deemb := s.aud.deemb.filter fun p => off p.1 }
    mg := { s.mg with slack := s.mg.slack.filter fun p => on p.1 }
    floor := { s.floor with
      moved := s.floor.moved.filter fun p => p.1 / 2 != d
      tested := s.floor.tested.filter fun p => p.1 / 4 != d } }

/-- A Sheaf's registers and state at reset, and what waits for it dropped. -/
def State.clearSheaf (s : State) (d : Nat) : State :=
  let t := s.clearMaps d
  let evs := (List.range 40).map fun k => 256 + 40 * (d - 1) + k
  (evs.foldl (fun u e => u.setEvg e (u.evActive e)) t).refreshVecs

/-- SHEAF_BRINGUP (R532): a Sheaf with a passing link in each direction is up, and its outputs will send black. -/
def State.bringUp (s : State) (d pass : Nat) : State :=
  if pass % 4 = 0 ∨ pass / 4 % 4 = 0 then s.setLinks d 0
  else
    let s := { s with pwr := { s.pwr with up := setBit s.pwr.up d true } }
    let s := s.forAll (List.range 16) fun p u =>
      (u.setTx (16 * (d - 1) + p) { Tx.idle with toBlack := true }).rxLive (16 * (d - 1) + p)
    s.setLinks d (pass % 16)

/-- SHEAF_BRINGUP: tried until the Sheaf is up, from step 6 of a start. -/
def execSheafBringup (sheaf : Fin 8) (pass : Fin 16) (s : State) : Host.Outcome State Fault Refusal :=
  let d := sheaf.val
  .next (if 1 ≤ d && d ≤ 6 && s.populated d && s.pwr.sheafsOut && !s.present d then s.bringUp d pass.val else s)

/-- A Sheaf leaves the up state (R533): routes delivered to it are shed, its inputs and write-backs stop as sources, and its pages
read as those of an absent die. -/
def State.sheafLost (s : State) (d : Nat) : State :=
  let ports := (List.range 16).map fun p => 16 * (d - 1) + p
  let dead := (s.activeRoutes).filter fun p => p.1 == 0 && ports.contains (p.2 / 4)
  let s := dead.foldl (fun u p => u.shedRoute p.1 p.2 false) s
  let s := ports.foldl (fun u g => (u.sourceStops g (s.srcDelivers g)).sourceStops (0x800 + g) (s.srcDelivers (0x800 + g))) s
  let s := { s with pwr := { s.pwr with up := setBit s.pwr.up d false } }
  let s := (s.clearSheaf d).setLinks d 0
  let here (c : Nat) : Bool := (srcIsSdi c && c / 16 + 1 == d) || (srcIsWb c && (c - 0x800) / 16 + 1 == d)
  let s := { s with floor := { s.floor with
    toG := s.floor.toG.filter fun p => !here p.1, toS := s.floor.toS.filter fun p => p.1 / 4096 != d } }
  let s := s.forAll (List.range 16) fun c u => if u.candActive c && candKind c == 4 && !u.candSrcOk c then u.candLost c else u
  s.sumsRefresh

/-- SHEAF_DOWN (R533). -/
def execSheafDown (sheaf : Fin 8) (s : State) : Host.Outcome State Fault Refusal :=
  .next (if s.sheafUp sheaf.val then s.sheafLost sheaf.val else s)

/-! The start-up sequence (R530, R535). -/

/-- An image is valid (R506). -/
def State.imageValid (s : State) (m : Image) : Bool := s.hdrCheck m.header == 0 && m.tagsOk && m.digestOk

/-- Counter 0 is raised to an image's ARC_MIN, by at most 64 steps (R507). -/
def State.raiseArc : Nat → State → Nat → State
  | 0, s, _ => s
  | fuel + 1, s, min => if s.get nvB F.CNT_VAL_VALUE < min then State.raiseArc fuel (s.cntStep 0) min else s

/-- The boot ROM starts an image: stages 2 and 3 are extended, and the image is loaded (R507). -/
def State.runImage (s : State) (slot : Nat) (m : Image) (fallback : Bool) : State :=
  let h := m.header
  let s := State.raiseArc 64 s (hdrArcMin h)
  let s := (s.extend (slice (Config.sha384 (slice h 0 288)) 0 48) false).extend (slice h 40 48) false
  let s := s.puts mgB [(F.MG_STAT_SLOT, slot), (F.MG_STAT_FALLBACK, b2n fallback), (F.MG_VER_VERSION, hdrVersion h)]
  (s.raiseIf fallback mgB 1).loadImage (hdrLoad h)

/-- Steps 1 to 3 and stage 1: the hardware's part (R530, R535). The steps that write flash are not passed before NV_INHIBIT, which reads
1 after reset (R467), has been released (R463, R536). -/
def State.startHardware (s : State) (b : Boot) : State :=
  let cold := s.pwr.coldNext
  let s := ((s.modTc fun x => { x with started := true, now := 1000000 * b.ms, ms := b.ms }).raise tcB 8).tcRefresh
  let s := s.modMem fun x => { x with cold := cold }
  let s := (s.put nvB F.NV_STAT_INHIBIT 0).live nvB 3 false
  (((s.flashStart b.weak).ksStart).extend Config.bootRomDigest false)

/-- Step 5: counter 1 at a cold start, the calibration set, and stage 4 (R507, R518, R535). -/
def State.loadCal (s : State) : State :=
  let s := if !s.pwr.coldNext then s
    else if s.cntVal 1 = 0xFFFFFFFF then s.raise nvB 2 else s.cntStep 1
  let r := calItems.foldl (fun (p : State × Bool × List Byte) k =>
    let q := p.1.resolveKey (0x200 + k)
    let n := (calLen k).getD 0
    match q.2 with
    | some g => (q.1.calUse k g.data, p.2.1, p.2.2 ++ slice g.data 0 n)
    | none => (q.1, true, p.2.2 ++ List.replicate n 0)) (s, false, [])
  let s := (r.1.raiseIf r.2.1 mgB 16).extend (slice (Config.sha384 r.2.2) 0 48) false
  s.forAll (List.range 7) fun d u => u.eolRefresh d

/-- Steps 6 to 9: the Sheaf dies, training, self-test, and the Silo's bins. -/
def State.startDies (s : State) (b : Boot) : State :=
  let s := { s with pwr := { s.pwr with sheafsOut := true } }
  let s := s.forAll [1, 2, 3, 4, 5, 6] fun d u => if u.populated d then u.bringUp d (b.links / 16 ^ (d - 1) % 16) else u
  let s := s.blockRun (mcB 0)
  let s := s.forAll (List.range 12) fun c u =>
    let e := b.eyes.getD c (0, 0, 0)
    u.memTrained c (min 255 e.1) (min 255 e.2.1) (min 63 e.2.2)
  s.selftest b.mismatch b.testMs

/-- Global events whose sticky bits are set: those of the registers listed and those of Yumen. -/
def State.stickyEvs (s : State) : List Nat :=
  dedupN (s.regs.flatMap fun p =>
    if p.1 % 4096 = 0x10 ∧ p.1 = blockBase p.1 + 0x10 then blockEvs (blockBase p.1) p.2.toNat
    else if p.1 = evcB + 0x390 then ((List.range 16).filter fun k => bitN p.2.toNat k).map fun k => 496 + k
    else [])

/-- Configuration records in the order of their keys: what stage 5 measures (R507). -/
def State.configBytes (s : State) : List Byte :=
  (List.range 0xFF).flatMap fun k => match (s.resolveKey (k + 1)).2 with | some r => r.data | none => []

/-- Steps 10 and 11: the record log, the fault log and BOOT_DONE. The log bin is the last system bin. -/
def State.startDone (s : State) (b : Boot) : State :=
  let s := s.puts bmB [(F.BM_M6_BASE_BIN, sysBins - 1), (F.BM_M6_LEN_BYTES, 2096640)]
  let s := (s.modMg fun x => { x with logOn := true }).logAppend 2 224 1
  let s := s.stickyEvs.foldl (fun u e => u.logAppend 0 e 1) s
  let s := s.forAll (List.range 8) fun d u =>
    let n := b.pulses.getD d 0
    if n = 0 then u
    else (u.puts (tdB d) [(F.TD_FRAME_COUNT, n), (F.TD_MISALIGN_NS, 0), (F.TD_STAT_ALIGNED, 1)]).setTd d
      { u.td d with starting := false, mis := 0 }
  (s.extend (slice (Config.sha384 s.configBytes) 0 48) true).raise mgB 0

/-- No slot is valid (R508). -/
def State.recovery (s : State) : State := ((s.put mgB F.MG_STAT_RECOVERY 1).raise mgB 2).live mgB 2 true

/-- The slot that the boot record names (R507). -/
def State.bootSel (s : State) : State × Nat :=
  let q := s.resolveKey 1
  (q.1, match q.2 with | some r => (r.data.getD 0 0).toNat % 2 | none => 0)

/-- The firmware image runs: steps 5 to 11. -/
def State.startFirmware (s : State) (b : Boot) : State := ((s.loadCal).startDies b).startDone b

/-- The start-up sequence from the release of PORST_N. -/
def State.start (s : State) (b : Boot) : State :=
  let q := (s.startHardware b).bootSel
  let s := q.1
  let first := q.2
  let image (k : Nat) : Image := if k = 0 then b.slotA else b.slotB
  let s :=
    if s.imageValid (image first) then (s.runImage first (image first) false).startFirmware b
    else if s.imageValid (image (1 - first)) then (s.runImage (1 - first) (image (1 - first)) true).startFirmware b
    else s.recovery
  { s with pwr := { s.pwr with inReset := false, coldNext := false } }

/-- COLD_START (R530, R535): cold or warm as R527 has it. -/
def execColdStart (b : Boot) (s : State) : Host.Outcome State Fault Refusal :=
  .next (if s.pwr.inReset then s.start b else s)

/-- UPD_COMPLETE (R509): a successful update in recovery restarts the part (R508, R535). -/
def execUpdComplete (e : UpdEnd) (host : List Byte) (s : State) : Host.Outcome State Fault Refusal :=
  let r := s.updEnd e host
  .next (if r.2 && s.is mgB F.MG_STAT_RECOVERY then r.1.porst false else r.1)

end Sys2Proof.Machine
end

