-- ==== Sys2Proof/Machine/Dispatch.lean ====
section
/-! DEFINITION. The dispatch: one arm for each command, in the order of the opcode table. -/

namespace Sys2Proof.Machine

/-- The effect of a command on everything but the queue. -/
def exec (i : Instr) (s : State) : Host.Outcome State Fault Refusal :=
  match i with
  | .hostAccessAbsentDie a acc => Sys2Proof.Machine.execHostAccessAbsentDie a acc s
  | .hostWriteSlot7 page word v => Sys2Proof.Machine.execHostWriteSlot7 page word v s
  | .registerWrite m1 a v => Sys2Proof.Machine.execRegisterWrite m1 a v s
  | .errLocRead b => Sys2Proof.Machine.execErrLocRead b s
  | .shadowWrite a v => Sys2Proof.Machine.execShadowWrite a v s
  | .structuralWrite a v => Sys2Proof.Machine.execStructuralWrite a v s
  | .commitGroupWrite b group => Sys2Proof.Machine.execCommitGroupWrite b group s
  | .commitArm b group usToCutoff => Sys2Proof.Machine.execCommitArm b group usToCutoff s
  | .cgArm group usToCutoff => Sys2Proof.Machine.execCgArm group usToCutoff s
  | .cgAbort group => Sys2Proof.Machine.execCgAbort group s
  | .cgCfgWrite group v => Sys2Proof.Machine.execCgCfgWrite group v s
  | .takeCutoff domain => Sys2Proof.Machine.execTakeCutoff domain s
  | .takeMessage group die => Sys2Proof.Machine.execTakeMessage group die s
  | .domainFramePulse domain fromPoint => Sys2Proof.Machine.execDomainFramePulse domain fromPoint s
  | .takeApply g => Sys2Proof.Machine.execTakeApply g s
  | .ctrlRunClear b => Sys2Proof.Machine.execCtrlRunClear b s
  | .blockStopped b => Sys2Proof.Machine.execBlockStopped b s
  | .ctrlRunSet b => Sys2Proof.Machine.execCtrlRunSet b s
  | .outputStart g => Sys2Proof.Machine.execOutputStart g s
  | .stopModeWrite g mode => Sys2Proof.Machine.execStopModeWrite g mode s
  | .softReset b => Sys2Proof.Machine.execSoftReset b s
  | .evStickyClear b bits => Sys2Proof.Machine.execEvStickyClear b bits s
  | .evForce b bits => Sys2Proof.Machine.execEvForce b bits s
  | .yumenStickyClear bits => Sys2Proof.Machine.execYumenStickyClear bits s
  | .eventMessage die => Sys2Proof.Machine.execEventMessage die s
  | .msixHoldoffExpiry v => Sys2Proof.Machine.execMsixHoldoffExpiry v s
  | .vecAck v => Sys2Proof.Machine.execVecAck v s
  | .msixUnmask u => Sys2Proof.Machine.execMsixUnmask u s
  | .finanoLine sheaf toSheaf l ue => Sys2Proof.Machine.execFinanoLine sheaf toSheaf l ue s
  | .slackWindowEnd m slack => Sys2Proof.Machine.execSlackWindowEnd m slack s
  | .slackRead m => Sys2Proof.Machine.execSlackRead m s
  | .carrierLoss g midLine => Sys2Proof.Machine.execCarrierLoss g midLine s
  | .signalDetect g => Sys2Proof.Machine.execSignalDetect g s
  | .cdrLock g rateClass r1001 => Sys2Proof.Machine.execCdrLock g rateClass r1001 s
  | .cdrSearchTimeout g => Sys2Proof.Machine.execCdrSearchTimeout g s
  | .cdrLoss g midLine => Sys2Proof.Machine.execCdrLoss g midLine s
  | .eavTimeout g midLine => Sys2Proof.Machine.execEavTimeout g midLine s
  | .sdiRxFrame g m => Sys2Proof.Machine.execSdiRxFrame g m s
  | .fmtLock g => Sys2Proof.Machine.execFmtLock g s
  | .quadGroupLock q => Sys2Proof.Machine.execQuadGroupLock q s
  | .inOverrideWrite g v => Sys2Proof.Machine.execInOverrideWrite g v s
  | .sdiRxLine g l => Sys2Proof.Machine.execSdiRxLine g l s
  | .ancPacketReceived g checksumOk p => Sys2Proof.Machine.execAncPacketReceived g checksumOk p s
  | .rqpAgeExpiry c => Sys2Proof.Machine.execRqpAgeExpiry c s
  | .outputFrameStart g t hancRoom vancRoom => Sys2Proof.Machine.execOutputFrameStart g t hancRoom vancRoom s
  | .outputLineStart g line complete late => Sys2Proof.Machine.execOutputLineStart g line complete late s
  | .driverOpenShort g faulty => Sys2Proof.Machine.execDriverOpenShort g faulty s
  | .candActive c family khz96 => Sys2Proof.Machine.execCandActive c family khz96 s
  | .candLoss c => Sys2Proof.Machine.execCandLoss c s
  | .candQualify c m => Sys2Proof.Machine.execCandQualify c m s
  | .candDisqualify c why => Sys2Proof.Machine.execCandDisqualify c why s
  | .wtrExpiry c => Sys2Proof.Machine.execWtrExpiry c s
  | .selectHoldExpiry => Sys2Proof.Machine.execSelectHoldExpiry s
  | .selectEvaluation m => Sys2Proof.Machine.execSelectEvaluation m s
  | .loopUpdate phase => Sys2Proof.Machine.execLoopUpdate phase s
  | .acquireDone => Sys2Proof.Machine.execAcquireDone s
  | .pullComplete => Sys2Proof.Machine.execPullComplete s
  | .bandwidthHalving => Sys2Proof.Machine.execBandwidthHalving s
  | .historySample => Sys2Proof.Machine.execHistorySample s
  | .holdoverPredict => Sys2Proof.Machine.execHoldoverPredict s
  | .dcoTableLearn => Sys2Proof.Machine.execDcoTableLearn s
  | .disagreeDetect a b => Sys2Proof.Machine.execDisagreeDetect a b s
  | .tsSetArm => Sys2Proof.Machine.execTsSetArm s
  | .tsSetApply => Sys2Proof.Machine.execTsSetApply s
  | .tsSecRead ns => Sys2Proof.Machine.execTsSecRead ns s
  | .tdRunWrite d run => Sys2Proof.Machine.execTdRunWrite d run s
  | .domainStart d => Sys2Proof.Machine.execDomainStart d s
  | .tdRealignGo d jump => Sys2Proof.Machine.execTdRealignGo d jump s
  | .realignJump d => Sys2Proof.Machine.execRealignJump d s
  | .realignSlopeDone d => Sys2Proof.Machine.execRealignSlopeDone d s
  | .routeCfgWrite table entry v => Sys2Proof.Machine.execRouteCfgWrite table entry v s
  | .windowMeasure src dst lead0 lead1 => Sys2Proof.Machine.execWindowMeasure src dst lead0 lead1 s
  | .routeFallback table entry => Sys2Proof.Machine.execRouteFallback table entry s
  | .routeReturn table entry => Sys2Proof.Machine.execRouteReturn table entry s
  | .flReexamine domains => Sys2Proof.Machine.execFlReexamine domains s
  | .routeSourceResume table entry => Sys2Proof.Machine.execRouteSourceResume table entry s
  | .finanoLinkFail sheaf toSheaf link why => Sys2Proof.Machine.execFinanoLinkFail sheaf toSheaf link why s
  | .linkMove sheaf toSheaf => Sys2Proof.Machine.execLinkMove sheaf toSheaf s
  | .finanoLinkTest sheaf toSheaf link uncorrectable => Sys2Proof.Machine.execFinanoLinkTest sheaf toSheaf link uncorrectable s
  | .finanoLinkRestore sheaf toSheaf link => Sys2Proof.Machine.execFinanoLinkRestore sheaf toSheaf link s
  | .ringFrameStart r entry => Sys2Proof.Machine.execRingFrameStart r entry s
  | .ringFrameComplete r cut => Sys2Proof.Machine.execRingFrameComplete r cut s
  | .lossHide g k => Sys2Proof.Machine.execLossHide g k s
  | .bar2Write offset data => Sys2Proof.Machine.execBar2Write offset data s
  | .bar2Read offset => Sys2Proof.Machine.execBar2Read offset s
  | .combineTimeout bin stripe => Sys2Proof.Machine.execCombineTimeout bin stripe s
  | .meterWindow store => Sys2Proof.Machine.execMeterWindow store s
  | .channelFailCause c reason => Sys2Proof.Machine.execChannelFailCause c reason s
  | .erasureEntry c => Sys2Proof.Machine.execErasureEntry c s
  | .ceWindowEnd c => Sys2Proof.Machine.execCeWindowEnd c s
  | .mcFail c => Sys2Proof.Machine.execMcFail c s
  | .mcRestore c => Sys2Proof.Machine.execMcRestore c s
  | .rebuildDone => Sys2Proof.Machine.execRebuildDone s
  | .memoryRead who stripe first count hits => Sys2Proof.Machine.execMemoryRead who stripe first count hits s
  | .memoryWrite stripe offset data => Sys2Proof.Machine.execMemoryWrite stripe offset data s
  | .winnowStripe hits behind => Sys2Proof.Machine.execWinnowStripe hits behind s
  | .memRefresh c what => Sys2Proof.Machine.execMemRefresh c what s
  | .memTrainingDone c rdEye wrEye vref => Sys2Proof.Machine.execMemTrainingDone c rdEye wrEye vref s
  | .selftestDone mismatch ms => Sys2Proof.Machine.execSelftestDone mismatch ms s
  | .mcRawUnlock c key => Sys2Proof.Machine.execMcRawUnlock c key s
  | .mcRawGo c write => Sys2Proof.Machine.execMcRawGo c write s
  | .memQueueUe u => Sys2Proof.Machine.execMemQueueUe u s
  | .coefWrite g c v => Sys2Proof.Machine.execCoefWrite g c v s
  | .coefRestore g layers => Sys2Proof.Machine.execCoefRestore g layers s
  | .lutWrite g v => Sys2Proof.Machine.execLutWrite g v s
  | .lutRead g => Sys2Proof.Machine.execLutRead g s
  | .composerUe g u => Sys2Proof.Machine.execComposerUe g u s
  | .fenceDeadline g k => Sys2Proof.Machine.execFenceDeadline g k s
  | .fenceDoorbell g k v => Sys2Proof.Machine.execFenceDoorbell g k v s
  | .converterFrame e c f => Sys2Proof.Machine.execConverterFrame e c f s
  | .frameLate e c => Sys2Proof.Machine.execFrameLate e c s
  | .cadencePicture e c n k => Sys2Proof.Machine.execCadencePicture e c n k s
  | .engineFault e array index => Sys2Proof.Machine.execEngineFault e array index s
  | .audioSample t => Sys2Proof.Machine.execAudioSample t s
  | .audioPacketReceived g p => Sys2Proof.Machine.execAudioPacketReceived g p s
  | .deembRateMeasure g ppb => Sys2Proof.Machine.execDeembRateMeasure g ppb s
  | .asrcLock k ppb => Sys2Proof.Machine.execAsrcLock k ppb s
  | .asrcUnlock k ppb => Sys2Proof.Machine.execAsrcUnlock k ppb s
  | .audioSwitch d => Sys2Proof.Machine.execAudioSwitch d s
  | .autoDelayUpdate n => Sys2Proof.Machine.execAutoDelayUpdate n s
  | .genCfgWrite k v => Sys2Proof.Machine.execGenCfgWrite k v s
  | .limiterUpdate => Sys2Proof.Machine.execLimiterUpdate s
  | .ethFrameReceived n f => Sys2Proof.Machine.execEthFrameReceived n f s
  | .rxFrameTimeout c => Sys2Proof.Machine.execRxFrameTimeout c s
  | .rxStreamLost c => Sys2Proof.Machine.execRxStreamLost c s
  | .legTimeout c legB => Sys2Proof.Machine.execLegTimeout c legB s
  | .rxAsyncMeasure c ppb => Sys2Proof.Machine.execRxAsyncMeasure c ppb s
  | .hqrPop n => Sys2Proof.Machine.execHqrPop n s
  | .hqtSend n v => Sys2Proof.Machine.execHqtSend n v s
  | .hqtSent n ts => Sys2Proof.Machine.execHqtSent n ts s
  | .optTransferStart n v => Sys2Proof.Machine.execOptTransferStart n v s
  | .optTransferDone n r => Sys2Proof.Machine.execOptTransferDone n r s
  | .modChange n present => Sys2Proof.Machine.execModChange n present s
  | .modInt n asserted => Sys2Proof.Machine.execModInt n asserted s
  | .linkUp n => Sys2Proof.Machine.execLinkUp n s
  | .linkDown n aligned => Sys2Proof.Machine.execLinkDown n aligned s
  | .txFrameStart c k dev => Sys2Proof.Machine.execTxFrameStart c k dev s
  | .txPacketSend c lateA lateB => Sys2Proof.Machine.execTxPacketSend c lateA lateB s
  | .txAudioPacket c n => Sys2Proof.Machine.execTxAudioPacket c n s
  | .ptpMessage n m => Sys2Proof.Machine.execPtpMessage n m s
  | .announceTimeout n sender => Sys2Proof.Machine.execAnnounceTimeout n sender s
  | .ipTableUe n array index => Sys2Proof.Machine.execIpTableUe n array index s
  | .busTransaction r => Sys2Proof.Machine.execBusTransaction r s
  | .targetArbitration t => Sys2Proof.Machine.execTargetArbitration t s
  | .busResponse t m id resp data => Sys2Proof.Machine.execBusResponse t m id resp data s
  | .lockBroken t => Sys2Proof.Machine.execLockBroken t s
  | .masterPortReset m ids held delivered => Sys2Proof.Machine.execMasterPortReset m ids held delivered s
  | .bmFault u => Sys2Proof.Machine.execBmFault u s
  | .ksDerive v => Sys2Proof.Machine.execKsDerive v s
  | .ksClear v => Sys2Proof.Machine.execKsClear v s
  | .ksAttest v => Sys2Proof.Machine.execKsAttest v s
  | .ksUpdate v => Sys2Proof.Machine.execKsUpdate v s
  | .measExtend digest final => Sys2Proof.Machine.execMeasExtend digest final s
  | .remask => Sys2Proof.Machine.execRemask s
  | .rngFault => Sys2Proof.Machine.execRngFault s
  | .rngRecover => Sys2Proof.Machine.execRngRecover s
  | .ksFault u => Sys2Proof.Machine.execKsFault u s
  | .tamper cause => Sys2Proof.Machine.execTamper cause s
  | .ksStartup => Sys2Proof.Machine.execKsStartup s
  | .recAppend m v => Sys2Proof.Machine.execRecAppend m v s
  | .recDelete m v => Sys2Proof.Machine.execRecDelete m v s
  | .recCommit m v => Sys2Proof.Machine.execRecCommit m v s
  | .recAbort m v => Sys2Proof.Machine.execRecAbort m v s
  | .recRead m v => Sys2Proof.Machine.execRecRead m v s
  | .gatherTimeout => Sys2Proof.Machine.execGatherTimeout s
  | .compaction => Sys2Proof.Machine.execCompaction s
  | .cntInc m idx => Sys2Proof.Machine.execCntInc m idx s
  | .rawProgram m v => Sys2Proof.Machine.execRawProgram m v s
  | .rawEraseSector m v => Sys2Proof.Machine.execRawEraseSector m v s
  | .rawClearBuf m v => Sys2Proof.Machine.execRawClearBuf m v s
  | .rawLoad m v => Sys2Proof.Machine.execRawLoad m v s
  | .rawBufferWrite m w => Sys2Proof.Machine.execRawBufferWrite m w s
  | .gleanerPass weak => Sys2Proof.Machine.execGleanerPass weak s
  | .flashPowerUp weak => Sys2Proof.Machine.execFlashPowerUp weak s
  | .nvInhibitAssert => Sys2Proof.Machine.execNvInhibitAssert s
  | .nvInhibitRelease => Sys2Proof.Machine.execNvInhibitRelease s
  | .flashFault u => Sys2Proof.Machine.execFlashFault u s
  | .yumenSecond m temp f => Sys2Proof.Machine.execYumenSecond m temp f s
  | .timeOffer arrivalUs garbled => Sys2Proof.Machine.execTimeOffer arrivalUs garbled s
  | .offerMissing => Sys2Proof.Machine.execOfferMissing s
  | .sealOpened => Sys2Proof.Machine.execSealOpened s
  | .sealClosed => Sys2Proof.Machine.execSealClosed s
  | .status crcOk => Sys2Proof.Machine.execStatus crcOk s
  | .identity crcOk => Sys2Proof.Machine.execIdentity crcOk s
  | .readS crcOk seq => Sys2Proof.Machine.execReadS crcOk seq s
  | .readQ crcOk seq => Sys2Proof.Machine.execReadQ crcOk seq s
  | .setInput crcOk idx en range sens => Sys2Proof.Machine.execSetInput crcOk idx en range sens s
  | .setRtc crcOk seconds => Sys2Proof.Machine.execSetRtc crcOk seconds s
  | .setQofs crcOk v => Sys2Proof.Machine.execSetQofs crcOk v s
  | .rtcSupplyLoss => Sys2Proof.Machine.execRtcSupplyLoss s
  | .yumenPowerUp off => Sys2Proof.Machine.execYumenPowerUp off s
  | .yumenLinkFrame crcOk => Sys2Proof.Machine.execYumenLinkFrame crcOk s
  | .yumenStatusFrame crcOk => Sys2Proof.Machine.execYumenStatusFrame crcOk s
  | .carouselRecord => Sys2Proof.Machine.execCarouselRecord s
  | .yumenLinkTimeout => Sys2Proof.Machine.execYumenLinkTimeout s
  | .yfForward => Sys2Proof.Machine.execYfForward s
  | .mgWdtKick => Sys2Proof.Machine.execMgWdtKick s
  | .watchdog ue => Sys2Proof.Machine.execWatchdog ue s
  | .debugEnabled => Sys2Proof.Machine.execDebugEnabled s
  | .dmaGo v => Sys2Proof.Machine.execDmaGo v s
  | .dmaAbort e => Sys2Proof.Machine.execDmaAbort e s
  | .dmaJobEnd e => Sys2Proof.Machine.execDmaJobEnd e s
  | .updStart header => Sys2Proof.Machine.execUpdStart header s
  | .updAbort => Sys2Proof.Machine.execUpdAbort s
  | .updBlockReady tagOk => Sys2Proof.Machine.execUpdBlockReady tagOk s
  | .updBlockTimeout => Sys2Proof.Machine.execUpdBlockTimeout s
  | .updComplete e host => Sys2Proof.Machine.execUpdComplete e host s
  | .sensorRead idx v => Sys2Proof.Machine.execSensorRead idx v s
  | .railRead r mv low => Sys2Proof.Machine.execRailRead r mv low s
  | .ageingMeasure die cycles mv temp => Sys2Proof.Machine.execAgeingMeasure die cycles mv temp s
  | .ageingDaily die => Sys2Proof.Machine.execAgeingDaily die s
  | .faultLogWrite ev count => Sys2Proof.Machine.execFaultLogWrite ev count s
  | .calUnlock key => Sys2Proof.Machine.execCalUnlock key s
  | .calRead v => Sys2Proof.Machine.execCalRead v s
  | .calWrite v => Sys2Proof.Machine.execCalWrite v s
  | .calWindowExpiry => Sys2Proof.Machine.execCalWindowExpiry s
  | .learnTableSave => Sys2Proof.Machine.execLearnTableSave s
  | .porstAssert => Sys2Proof.Machine.execPorstAssert s
  | .powerGoodReset => Sys2Proof.Machine.execPowerGoodReset s
  | .coldStart b => Sys2Proof.Machine.execColdStart b s
  | .pcieLinkUp => Sys2Proof.Machine.execPcieLinkUp s
  | .sheafBringup sheaf pass => Sys2Proof.Machine.execSheafBringup sheaf pass s
  | .sheafDown sheaf => Sys2Proof.Machine.execSheafDown sheaf s
  | .yumenPowerLoss => Sys2Proof.Machine.execYumenPowerLoss s
  | .rawModeExpiry c => Sys2Proof.Machine.execRawModeExpiry c s
  | .backgroundErase => Sys2Proof.Machine.execBackgroundErase s
  | .delayReq n t3 => Sys2Proof.Machine.execDelayReq n t3 s

end Sys2Proof.Machine
end

