-- ==== Sys2Proof/Safety.lean ====
section
/-! DEFINITION. What counts as safe: states whose tables are in canonical form, and steps that end in a next state. -/

namespace Sys2Proof

open Sys2Proof.Machine

/-- A sparse table is canonical: keys strictly rising, and no entry equal to what an unlisted key reads as. -/
def canonical {α : Type} [DecidableEq α] (d : Nat → α) (t : List (Nat × α)) : Bool :=
  sortedKeys t && t.all fun p => p.2 != d p.1

/-- The registers and shadows of a state are canonical. -/
def regsOk (s : State) : Bool := canonical resetWord s.regs && canonical resetWord s.eff

/-- The canonical form of stored bytes. -/
abbrev Memory.wf (m : List Host.Cell) : Bool := canonical memDefault m

/-- The memory contents of a state are canonical. -/
def memOk (s : State) : Bool := Memory.wf s.mem.cells

/-- A step is safe when it ends in a next state. -/
def stepsOn (s : State) : Bool :=
  match step s with
  | .next _ => true
  | _ => false

/-- The command runs to a next state that has a property. -/
def Does (i : Instr) (s : State) (P : State → Prop) : Prop := ∃ t, exec i s = .next t ∧ P t

/-- No register outside a list of addresses has changed. -/
def OnlyRegs (l : List Nat) (s t : State) : Prop := ∀ a, a ∉ l → t.rd a = s.rd a

/-- Event bit k of the block at `base` has been raised: it is sticky, and the event that it stands for is the newest on its way to the
controller (R40, R49). -/
def Raised (s t : State) (base k : Nat) : Prop :=
  t.rd (base + 0x10) = s.rd (base + 0x10) ||| BitVec.ofNat 32 (2 ^ k) ∧
    t.irq.inFlight = s.irq.inFlight ++ ((gev base k).map fun e => (dieOf base, e)).toList

/-- The parts of the state, one for each field. -/
inductive Part where
  /-- the register file -/
  | regs
  /-- the values in effect of shadowed registers -/
  | eff
  /-- the tags of shadow words -/
  | tags
  /-- the commit groups -/
  | grps
  /-- events and interrupt vectors -/
  | irq
  /-- the SDI receivers -/
  | sdiRx
  /-- the SDI transmitters -/
  | sdiTx
  /-- the timing core -/
  | tc
  /-- the timing domains -/
  | tds
  /-- the Floor -/
  | floor
  /-- the Silo -/
  | silo
  /-- the composers -/
  | comps
  /-- the converter contexts -/
  | conv
  /-- the audio router -/
  | aud
  /-- the media ports -/
  | ip
  /-- the memory subsystem -/
  | mem
  /-- the bus matrix -/
  | bus
  /-- the key store -/
  | ks
  /-- the flash -/
  | nv
  /-- the Yumen -/
  | ym
  /-- management and health -/
  | mg
  /-- power and start-up -/
  | pwr
  /-- what a host read returned -/
  | readData
  /-- what has left the part -/
  | out
  /-- the count of free values used -/
  | freeCtr
  /-- the queue of commands -/
  | pending
deriving DecidableEq, Repr

/-- Two states agree on a part. -/
def Part.same : Part → State → State → Prop
  | .regs, s, t => t.regs = s.regs
  | .eff, s, t => t.eff = s.eff
  | .tags, s, t => t.tags = s.tags
  | .grps, s, t => t.grps = s.grps
  | .irq, s, t => t.irq = s.irq
  | .sdiRx, s, t => t.sdiRx = s.sdiRx
  | .sdiTx, s, t => t.sdiTx = s.sdiTx
  | .tc, s, t => t.tc = s.tc
  | .tds, s, t => t.tds = s.tds
  | .floor, s, t => t.floor = s.floor
  | .silo, s, t => t.silo = s.silo
  | .comps, s, t => t.comps = s.comps
  | .conv, s, t => t.conv = s.conv
  | .aud, s, t => t.aud = s.aud
  | .ip, s, t => t.ip = s.ip
  | .mem, s, t => t.mem = s.mem
  | .bus, s, t => t.bus = s.bus
  | .ks, s, t => t.ks = s.ks
  | .nv, s, t => t.nv = s.nv
  | .ym, s, t => t.ym = s.ym
  | .mg, s, t => t.mg = s.mg
  | .pwr, s, t => t.pwr = s.pwr
  | .readData, s, t => t.readData = s.readData
  | .out, s, t => t.out = s.out
  | .freeCtr, s, t => t.freeCtr = s.freeCtr
  | .pending, s, t => t.pending = s.pending

/-- The parts that a command can change: its own and those that its events, its free values and its host access reach. -/
def touches : Instr → List Part
  | .hostAccessAbsentDie _ _ | .errLocRead _ | .slackRead _ | .lutRead _ => [.regs, .irq, .readData]
  | .hostWriteSlot7 _ _ _ | .commitGroupWrite _ _ | .evForce _ _ | .inOverrideWrite _ _ | .realignSlopeDone _
  | .deembRateMeasure _ _ | .limiterUpdate | .rxAsyncMeasure _ _ | .modChange _ _ | .modInt _ _ | .linkUp _ | .nvInhibitAssert
  | .debugEnabled | .dmaGo _ => [.regs, .irq]
  | .registerWrite _ _ _ => [.regs, .irq, .tc, .silo, .ip, .bus, .mg, .out]
  | .shadowWrite _ _ | .routeCfgWrite _ _ _ => [.regs, .tags, .irq]
  | .structuralWrite _ _ => [.regs, .irq, .sdiRx, .sdiTx, .tc, .floor, .silo, .conv]
  | .commitArm _ _ _ | .cgArm _ _ | .cgAbort _ => [.regs, .grps, .irq]
  | .cgCfgWrite _ _ | .cdrLock _ _ _ | .acquireDone => [.regs]
  | .takeCutoff _ => [.regs, .eff, .tags, .grps, .irq, .tds, .floor, .silo, .conv, .mem, .out, .freeCtr]
  | .takeMessage _ _ => [.regs, .grps, .irq, .comps]
  | .domainFramePulse _ _ | .domainStart _ =>
    [.regs, .eff, .tags, .grps, .irq, .sdiTx, .tds, .floor, .silo, .comps, .conv, .aud, .ip, .mem, .out, .freeCtr]
  | .takeApply _ => [.regs, .eff, .grps, .irq, .floor, .silo, .comps, .aud, .mem, .freeCtr]
  | .ctrlRunClear _ | .stopModeWrite _ _ | .driverOpenShort _ _ => [.regs, .irq, .sdiTx]
  | .blockStopped _ => [.regs, .irq, .sdiRx, .sdiTx, .tc, .floor, .silo, .conv, .mem]
  | .ctrlRunSet _ => [.regs, .irq, .sdiTx, .silo, .mem]
  | .outputStart _ => [.regs, .irq, .sdiTx, .comps]
  | .softReset _ => [.regs, .eff, .tags, .irq, .sdiRx, .sdiTx, .tc, .floor, .silo, .comps, .conv, .ip, .out]
  | .evStickyClear _ _ | .yumenStickyClear _ | .eventMessage _ | .msixHoldoffExpiry _ | .vecAck _ | .msixUnmask _
  | .yumenLinkTimeout => [.regs, .irq, .out]
  | .finanoLine _ _ _ _ => [.regs, .irq, .floor, .silo, .comps, .conv, .ip, .mem]
  | .slackWindowEnd _ _ | .railRead _ _ _ | .ageingMeasure _ _ _ _ | .ageingDaily _ | .calUnlock _ => [.regs, .irq, .mg]
  | .carrierLoss _ _ | .cdrLoss _ _ | .eavTimeout _ _ => [.regs, .irq, .sdiRx, .tc, .floor, .silo, .conv]
  | .signalDetect _ => [.regs, .sdiRx]
  | .cdrSearchTimeout _ => [.sdiRx]
  | .sdiRxFrame _ _ => [.regs, .irq, .sdiRx, .sdiTx, .tc, .floor, .silo, .conv, .aud]
  | .fmtLock _ | .quadGroupLock _ => [.regs, .irq, .sdiRx]
  | .sdiRxLine _ _ => [.regs, .irq, .sdiRx, .floor]
  | .ancPacketReceived _ _ _ => [.regs, .irq, .sdiRx, .tc]
  | .rqpAgeExpiry _ | .candActive _ _ _ | .candLoss _ | .candQualify _ _ | .candDisqualify _ _ | .wtrExpiry _
  | .selectEvaluation _ | .pullComplete | .bandwidthHalving | .historySample | .holdoverPredict | .disagreeDetect _ _
  | .linkDown _ _ | .sensorRead _ _ => [.regs, .irq, .tc]
  | .tsSetApply => [.regs, .irq, .tc, .freeCtr]
  | .outputFrameStart _ _ _ _ => [.regs, .irq, .sdiTx, .floor, .aud, .out]
  | .outputLineStart _ _ _ _ => [.regs, .irq, .sdiTx, .floor, .silo, .comps, .aud, .out]
  | .selectHoldExpiry | .dcoTableLearn | .tsSetArm => [.tc]
  | .loopUpdate _ => [.regs, .irq, .tc, .tds]
  | .tsSecRead _ => [.regs, .readData]
  | .tdRunWrite _ _ | .tdRealignGo _ _ => [.regs, .irq, .tds]
  | .realignJump _ => [.regs, .tds]
  | .windowMeasure _ _ _ _ | .finanoLinkRestore _ _ _ => [.regs, .floor]
  | .routeFallback _ _ | .routeReturn _ _ | .flReexamine _ | .finanoLinkFail _ _ _ _ => [.regs, .irq, .floor]
  | .routeSourceResume _ _ => [.regs, .irq, .floor, .comps]
  | .linkMove _ _ => [.regs, .irq, .floor, .silo, .conv]
  | .finanoLinkTest _ _ _ _ => [.floor]
  | .ringFrameStart _ _ => [.regs, .irq, .silo, .conv, .freeCtr]
  | .ringFrameComplete _ _ => [.regs, .eff, .grps, .irq, .floor, .silo, .conv, .mem, .freeCtr]
  | .lossHide _ _ => [.regs, .irq, .silo]
  | .bar2Write _ _ | .combineTimeout _ _ | .meterWindow _ | .rebuildDone | .memTrainingDone _ _ _ _ | .fenceDoorbell _ _ _ =>
    [.regs, .irq, .silo, .mem]
  | .bar2Read _ => [.regs, .irq, .silo, .mem, .readData, .out]
  | .channelFailCause _ _ | .mcFail _ | .mcRestore _ | .memoryWrite _ _ _ | .winnowStripe _ _ | .selftestDone _ _
  | .mcRawUnlock _ _ | .mcRawGo _ _ | .memQueueUe _ => [.regs, .irq, .mem]
  | .erasureEntry _ => [.regs, .irq, .floor, .silo, .conv, .mem]
  | .ceWindowEnd _ | .rawModeExpiry _ => [.mem]
  | .memoryRead _ _ _ _ _ => [.regs, .irq, .mem, .out]
  | .memRefresh _ _ => [.out]
  | .coefWrite _ _ _ | .coefRestore _ _ | .lutWrite _ _ | .fenceDeadline _ _ => [.regs, .irq, .comps]
  | .composerUe _ _ => [.regs, .irq, .comps, .mem]
  | .converterFrame _ _ _ => [.regs, .irq, .floor, .silo, .conv, .out, .freeCtr]
  | .frameLate _ _ | .cadencePicture _ _ _ _ => [.regs, .irq, .conv]
  | .engineFault _ _ _ => [.regs, .irq, .conv, .out]
  | .audioSample _ | .audioPacketReceived _ _ | .asrcLock _ _ | .asrcUnlock _ _ | .audioSwitch _ | .autoDelayUpdate _
  | .genCfgWrite _ _ => [.regs, .irq, .aud]
  | .ethFrameReceived _ _ => [.regs, .irq, .sdiTx, .silo, .conv, .aud, .ip, .mem, .freeCtr]
  | .rxFrameTimeout _ => [.regs, .irq, .sdiTx, .silo, .conv, .ip, .mem]
  | .rxStreamLost _ | .ipTableUe _ _ _ => [.regs, .irq, .floor, .silo, .conv, .ip]
  | .legTimeout _ _ | .hqrPop _ | .hqtSend _ _ | .optTransferStart _ _ => [.regs, .irq, .ip]
  | .hqtSent _ _ | .optTransferDone _ _ => [.regs, .irq, .ip, .out]
  | .txFrameStart _ _ _ => [.regs, .eff, .grps, .irq, .floor, .silo, .comps, .conv, .ip, .mem, .out, .freeCtr]
  | .txPacketSend _ _ _ => [.regs, .irq, .silo, .ip, .mem, .out, .freeCtr]
  | .txAudioPacket _ _ => [.regs, .irq, .aud, .ip, .out, .freeCtr]
  | .ptpMessage _ _ | .announceTimeout _ _ => [.regs, .irq, .tc, .ip]
  | .busTransaction _ | .lockBroken _ => [.regs, .irq, .bus, .out]
  | .targetArbitration _ | .busResponse _ _ _ _ _ | .bmFault _ =>
    [.regs, .eff, .tags, .grps, .irq, .sdiRx, .sdiTx, .tc, .tds, .floor, .silo, .comps, .conv, .aud, .ip, .mem, .bus, .ks, .nv, .mg, .readData, .out, .freeCtr]
  | .masterPortReset _ _ _ _ | .updAbort | .updBlockTimeout => [.regs, .irq, .bus, .mg, .out, .freeCtr]
  | .ksDerive _ | .ksClear _ | .ksAttest _ | .ksUpdate _ | .rngRecover | .ksFault _ => [.regs, .irq, .ip, .ks, .nv, .mg, .freeCtr]
  | .measExtend _ _ => [.regs, .ks, .freeCtr]
  | .remask => [.ks, .freeCtr]
  | .rngFault => [.regs, .irq, .ks]
  | .tamper _ => [.regs, .irq, .ip, .bus, .ks, .nv, .mg, .out, .freeCtr]
  | .ksStartup => [.regs, .irq, .ks, .nv, .freeCtr]
  | .recAppend _ _ | .recDelete _ _ | .recCommit _ _ | .recAbort _ _ | .recRead _ _ | .gatherTimeout | .compaction
  | .cntInc _ _ | .rawProgram _ _ | .rawEraseSector _ _ | .rawClearBuf _ _ | .rawLoad _ _ | .rawBufferWrite _ _
  | .gleanerPass _ | .flashPowerUp _ | .flashFault _ | .calRead _ | .backgroundErase => [.regs, .irq, .nv]
  | .nvInhibitRelease => [.regs, .irq, .ks, .nv, .mg, .freeCtr]
  | .yumenSecond _ _ _ => [.ym, .freeCtr]
  | .timeOffer _ _ => [.regs, .ym, .out]
  | .offerMissing => [.regs, .ym]
  | .sealOpened | .sealClosed | .rtcSupplyLoss | .carouselRecord | .yumenPowerLoss => [.ym]
  | .status _ | .identity _ | .readS _ _ | .readQ _ _ => [.out, .freeCtr]
  | .setInput _ _ _ _ _ | .setRtc _ _ | .setQofs _ _ => [.ym, .out, .freeCtr]
  | .yumenPowerUp _ => [.regs, .irq, .bus, .ym, .out, .freeCtr]
  | .yumenLinkFrame _ => [.regs, .irq, .mem, .ym, .mg, .out]
  | .yumenStatusFrame _ => [.regs, .irq, .ym, .out]
  | .yfForward => [.regs, .irq, .mem, .mg, .out]
  | .mgWdtKick | .calWindowExpiry => [.mg]
  | .watchdog _ => [.regs, .irq, .bus, .nv, .mg, .out, .freeCtr]
  | .dmaAbort _ | .dmaJobEnd _ => [.regs, .irq, .mem, .bus, .out, .freeCtr]
  | .updStart _ | .updBlockReady _ => [.regs, .irq, .mg, .out]
  | .updComplete _ _ =>
    [.regs, .eff, .tags, .grps, .irq, .sdiRx, .sdiTx, .tc, .tds, .floor, .silo, .comps, .conv, .aud, .ip, .mem, .bus, .ks, .nv, .mg, .pwr, .out]
  | .faultLogWrite _ _ => [.regs, .nv, .mg, .freeCtr]
  | .calWrite _ | .learnTableSave => [.regs, .irq, .tc, .nv, .mg]
  | .porstAssert | .powerGoodReset =>
    [.regs, .eff, .tags, .grps, .irq, .sdiRx, .sdiTx, .tc, .tds, .floor, .silo, .comps, .conv, .aud, .ip, .mem, .bus, .ks, .nv, .mg, .pwr]
  | .coldStart _ => [.regs, .irq, .sdiTx, .tc, .tds, .silo, .mem, .bus, .ks, .nv, .mg, .pwr, .freeCtr]
  | .pcieLinkUp => [.pwr]
  | .sheafBringup _ _ => [.regs, .irq, .sdiTx, .pwr]
  | .sheafDown _ => [.regs, .eff, .tags, .grps, .irq, .sdiRx, .sdiTx, .tc, .floor, .silo, .comps, .conv, .aud, .mg, .pwr, .out]
  | .delayReq _ _ => [.regs, .irq, .ip, .out, .freeCtr]

end Sys2Proof
end

