-- ==== Sys2Proof/Certificates/Slice0/Obligations.lean ====
section
/-! DEFINITION. The statements for the provers. -/

open Sys2Proof Sys2Proof.Machine

/-- For every command c, every list l of commands and every state s: a step of s with c at the front of its queue and l behind it is exec of
c on s with the queue l. -/
def Obligations.StepRunsFront : Prop :=
  ∀ (c : Instr) (l : List Instr) (s : State), step { s with pending := c :: l } = exec c { s with pending := l }

/-- After reset every input and output is stopped, a composer's layer order from the bottom is V1, V2, G1, G2, every domain's alignment
source reads 3, the flash is inhibited, no value is in effect that its register's reset value is not, nothing is tagged, no group holds
a staging set, no event is on its way, and the queue of commands is empty. That the queue is empty and that no row of a table is in
effect are the model's form (log entries 1 and 2). -/
def Obligations.ResetValues : Prop :=
  (∀ g : Fin 96, State.reset.is (inB g) F.STAT_STOPPED = true ∧ State.reset.is (outB g) F.STAT_STOPPED = true ∧
      State.reset.effGet (compB g) F.COMP_ORDER_POS1 = 0 ∧ State.reset.effGet (compB g) F.COMP_ORDER_POS2 = 1 ∧
      State.reset.effGet (compB g) F.COMP_ORDER_POS3 = 2 ∧ State.reset.effGet (compB g) F.COMP_ORDER_POS4 = 3) ∧
     (∀ d : Fin 8, State.reset.get (tdB d) F.TD_STAT_ALIGN_SRC = 3) ∧ State.reset.is nvB F.NV_STAT_INHIBIT = true ∧
     State.reset.tags = [] ∧ State.reset.grps = [] ∧ State.reset.irq.inFlight = [] ∧ State.reset.pending = []

/-- A write to an RWX field of a block whose STAT.STOPPED is 0 (whatever its STAT.BUSY) changes no register but the block's COMMIT_STAT and
the sequencer's EV_STICKY: COMMIT_STAT shows result 0x07 with SRC 1, and STRUCT_WRITE_IGNORED is raised. -/
def Obligations.StructuralWriteWhileRunning : Prop :=
  ∀ (a : RegAddr) (v : Word) (r : Row) (s : State), a.die ≠ 7 → s.present a.die.val = true → s.present 0 = true →
    rowOf (regAddr a) = some r → r.rwx ≠ 0 → s.structStopped (regAddr a) = false →
    Does (.structuralWrite a v) s fun t =>
      t.get (blockBase (regAddr a)) F.COMMIT_STAT_RESULT = 0x07 ∧ t.get (blockBase (regAddr a)) F.COMMIT_STAT_SRC = 1 ∧
      t.rd (seqB + 0x10) = s.rd (seqB + 0x10) ||| BitVec.ofNat 32 (2 ^ 3) ∧
      OnlyRegs [blockBase (regAddr a) + 0x24, seqB + 0x10] s t ∧ t.eff = s.eff

/-- A write to COMMIT.GROUP of a block that is a member of an armed group changes no register but its COMMIT_STAT, which reports 0x0B with
SRC 1; COMMIT.GROUP keeps its value. An ARM bit in the same write arms the group that the write names exactly as any other arm does. -/
def Obligations.GroupWriteWhileArmed : Prop :=
  (∀ (b : BlockAddr) (g : Fin 64) (s : State), b.die ≠ 7 → s.present b.die.val = true → usesCommit (blkAddr b) = true →
     s.memberOfArmed (blkAddr b) = true → Does (.commitGroupWrite b g) s fun t =>
       t.get (blkAddr b) F.COMMIT_STAT_RESULT = 0x0B ∧ t.get (blkAddr b) F.COMMIT_STAT_SRC = 1 ∧
       t.get (blkAddr b) F.COMMIT_GROUP = s.get (blkAddr b) F.COMMIT_GROUP ∧ OnlyRegs [blkAddr b + 0x24] s t) ∧
  (∀ (b : BlockAddr) (g : Fin 64) (us : Nat) (s : State), b.die ≠ 7 → s.present b.die.val = true → usesCommit (blkAddr b) = true →
     s.memberOfArmed (blkAddr b) = true →
     exec (.commitArm b g us) s = exec (.cgArm g us) (s.refuseDirect (blkAddr b) 0x0B))

/-- Every command runs to a next state from every state: a step never stops the machine, whatever waits in its queue. -/
def Obligations.EveryCommandRuns : Prop :=
  ∀ s : State, stepsOn s = true

/-- For every command, state and next state: each part of the state that the list touches gives for the command's constructor may differ;
every other part (the registers, the values in effect, the tags, the groups, the events, the receivers and transmitters, the timing core
and its domains, the Floor, the Silo, the composers, converters, audio, media ports, memory contents, bus matrix, key store, flash,
Yumen, management, power, the read result, what has left the part, and the queue) is unchanged. No command changes the queue's rest, and
no command but those of the key store, of tampering, of the flash inhibit's release, of a restart and of the bus matrix, whose writes
are such commands, reaches a key slot. -/
def Obligations.CommandFrame : Prop :=
  ∀ (i : Instr) (s t : State), exec i s = .next t → ∀ p : Part, p ∉ touches i → p.same s t

/-- For every command, whatever its operands, and for every state there is a next state that exec answers: each of the 227 commands
completes, and no operand and no state makes one end in a fault or a refusal. In that next state every part of the machine that the list
touches does not give for the command is as it was; what the command does to its own parts is stated family by family in the other
statements. -/
def Obligations.EveryCommandCompletes : Prop :=
  ∀ (i : Instr) (s : State), ∃ t, exec i s = .next t ∧ ∀ p : Part, p ∉ touches i → p.same s t

/-- After reset the list of stored bytes is in canonical form: addresses strictly rising, and no entry equal to what an unlisted address
reads as. -/
def Obligations.MemoryFormAtReset : Prop :=
  memOk State.reset = true

/-- From every state whose stored bytes are in canonical form, a step that answers a next state leaves them in canonical form, whatever
command it runs: writes of the host and of every engine, corrections, rebuilds, raw accesses and restarts. -/
def Obligations.MemoryFormKept : Prop :=
  ∀ s t : State, memOk s = true → step s = .next t → memOk t = true

/-- A host read of a die whose slot is empty returns all ones and raises ABSENT_DIE_ACCESS; a host write there, and every other write of
such a die's registers and headers, raises the same event and changes nothing else (nothing at all while the die's start-up has not
passed step 6); a host write to slot 7 of a part with Yumen is discarded and raises its own event. In each case the only register that
changes is the controller's EV_STICKY. -/
def Obligations.AbsentDieAccesses : Prop :=
  (∀ (a : RegAddr) (s : State), s.present 0 = true → s.present a.die.val = false → s.populated a.die.val = false →
     Does (.hostAccessAbsentDie a .read) s fun t =>
       t.readData = 0xFFFFFFFF ∧ Raised s t evcB 1 ∧ OnlyRegs [evcB + 0x10] s t) ∧
  (∀ (a : RegAddr) (v : Word) (s : State), s.present 0 = true → s.present a.die.val = false → s.populated a.die.val = false →
     a.die ≠ 7 → Does (.hostAccessAbsentDie a (.write v)) s fun t => Raised s t evcB 1 ∧ OnlyRegs [evcB + 0x10] s t) ∧
  (∀ (page : Fin 2048) (word : Fin 1024) (v : Word) (s : State), s.present 0 = true → s.present 7 = true →
     Does (.hostWriteSlot7 page word v) s fun t => Raised s t evcB 2 ∧ OnlyRegs [evcB + 0x10] s t) ∧
  (∀ (m1 : Bool) (a : RegAddr) (b : BlockAddr) (v : Word) (g : Fin 64) (us : Nat) (s : State), a.die ≠ 7 → s.present a.die.val = false →
     b.die ≠ 7 → s.present b.die.val = false → exec (.registerWrite m1 a v) s = .next (s.absentAccess a.die) ∧
     exec (.shadowWrite a v) s = .next (s.absentAccess a.die) ∧ exec (.structuralWrite a v) s = .next (s.absentAccess a.die) ∧
     exec (.commitGroupWrite b g) s = .next (s.absentAccess b.die) ∧ exec (.commitArm b g us) s = .next (s.absentAccess b.die) ∧
     exec (.evStickyClear b v) s = .next (s.absentAccess b.die) ∧ exec (.evForce b v) s = .next (s.absentAccess b.die) ∧
     exec (.softReset b) s = .next (s.absentAccess b.die) ∧ exec (.ctrlRunSet b) s = .next (s.absentAccess b.die) ∧
     exec (.ctrlRunClear b) s = .next (s.absentAccess b.die))

/-- On a die that answers: a write of an input's or output's register (other than its event enables) replaces its RW bits, clears the W1C
bits written as 1 and changes nothing else of the machine; a read of ERR_LOC returns the locator and clears STAT.FAULT; a shadow write
changes the shadow word and the block's PENDING bit only, and leaves every value in effect alone; a structural write of a stopped block
replaces the RWX bits of the word and changes nothing else of the machine. -/
def Obligations.HostRegisterAccesses : Prop :=
  (∀ (m1 : Bool) (a : RegAddr) (v : Word) (r : Row) (s : State), 1 ≤ a.die.val → a.die.val ≤ 6 → s.present a.die.val = true →
     0x100 ≤ a.page.val → a.page.val < 0x300 → rowOf (regAddr a) = some r → r.rw ≠ 0 ∨ r.w1c ≠ 0 →
     regAddr a ≠ blockBase (regAddr a) + 0x14 →
     exec (.registerWrite m1 a v) s = .next (s.wr (regAddr a)
       (mergeWord (s.rd (regAddr a)) v (r.rw ||| if m1 then r.m1 else 0) &&& ~~~(v &&& BitVec.ofNat 32 r.w1c)))) ∧
  (∀ (b : BlockAddr) (s : State), s.present b.die.val = true →
     Does (.errLocRead b) s fun t => t.readData = s.rd (blkAddr b + 0x28) ∧ t.get (blkAddr b) F.STAT_FAULT = 0 ∧
       OnlyRegs [blkAddr b + 0xC] s t) ∧
  (∀ (a : RegAddr) (v : Word) (r : Row) (s : State), a.die ≠ 7 → s.present a.die.val = true → rowOf (regAddr a) = some r → r.rws ≠ 0 →
     Does (.shadowWrite a v) s fun t =>
       t.eff = s.eff ∧ OnlyRegs [regAddr a, blockBase (regAddr a) + F.COMMIT_STAT_PENDING.off] s t ∧
       (regAddr a ≠ blockBase (regAddr a) + F.COMMIT_STAT_PENDING.off →
         t.rd (regAddr a) = clampReg (regAddr a) (mergeWord (s.rd (regAddr a)) v r.rws)) ∧
       (∀ x, x ≠ regAddr a → t.tagOf x = s.tagOf x)) ∧
  (∀ (a : RegAddr) (v : Word) (r : Row) (s : State), a.die ≠ 7 → s.present a.die.val = true → rowOf (regAddr a) = some r → r.rwx ≠ 0 →
     bondMask (regAddr a) = 0 → runKind (blockBase (regAddr a)) = 4 → s.structStopped (regAddr a) = true →
     exec (.structuralWrite a v) s = .next (s.wr (regAddr a) (mergeWord (s.rd (regAddr a)) v r.rwx)))

/-- Clearing EV_STICKY bits of a block leaves exactly the others; EV_FORCE sets every assigned bit written as 1; a YUMEN_STICKY clear leaves
exactly the other bits; and an event that reaches the controller sets its EVG_STATE bit to the state of the event. -/
def Obligations.EventCommands : Prop :=
  (∀ (b : BlockAddr) (bits : Word) (s : State), b.die ≠ 7 → s.present b.die.val = true → blkAddr b ≠ evcB →
     Does (.evStickyClear b bits) s fun t => t.rd (blkAddr b + 0x10) = s.rd (blkAddr b + 0x10) &&& ~~~bits) ∧
  (∀ (b : BlockAddr) (bits : Word) (k : Nat) (s : State), b.die ≠ 7 → s.present b.die.val = true → k < 32 →
     bits.toNat.testBit k = true → (evMaskOf (blkAddr b)).testBit k = true →
     Does (.evForce b bits) s fun t => (t.rd (blkAddr b + 0x10)).toNat.testBit k = true ∧ OnlyRegs [blkAddr b + 0x10] s t) ∧
  (∀ (bits : BitVec 16) (s : State),
     Does (.yumenStickyClear bits) s fun t =>
       t.get evcB F.YUMEN_STICKY_BITS = s.get evcB F.YUMEN_STICKY_BITS &&& (0xFFFF - bits.toNat)) ∧
  (∀ (die : Fin 8) (e : Nat) (rest : List (Nat × Nat)) (s : State), takeEvent die.val s.irq.inFlight = some (e, rest) → e < 512 →
     Does (.eventMessage die) s fun t => t.get (evcB + 4 * (e / 32)) ⟨0x40, e % 32, 1⟩ = b2n (s.evActive e))

/-- While MSI-X is enabled and a vector unmasked, acknowledging a vector that is still pending sends its message when no gap of HOLDOFF
runs, and the end of a gap sends the message that it delayed; the end of a gap that delayed nothing only ends the gap. Unmasking a
vector clears its mask bit, and enabling MSI-X enables the function without its function mask. -/
def Obligations.MessageSignalledInterrupts : Prop :=
  (∀ (v : Fin 64) (s : State), bitN s.pending64 v.val = true → s.msixBlocked v.val = false → bitN s.irq.held v.val = false →
     Does (.vecAck v) s fun t => t.out = s.out ++ [.msix v.val (s.rd (gPage 0x011 + 16 * v.val)) (s.rd (gPage 0x011 + 16 * v.val + 4))
       (s.rd (gPage 0x011 + 16 * v.val + 8))]) ∧
  (∀ (v : Fin 64) (s : State), bitN s.irq.held v.val = true → bitN s.irq.delayed v.val = true → bitN s.pending64 v.val = true →
     s.msixBlocked v.val = false →
     Does (.msixHoldoffExpiry v) s fun t => t.out = s.out ++ [.msix v.val (s.rd (gPage 0x011 + 16 * v.val))
       (s.rd (gPage 0x011 + 16 * v.val + 4)) (s.rd (gPage 0x011 + 16 * v.val + 8))]) ∧
  (∀ (v : Fin 64) (s : State), bitN s.irq.delayed v.val = false →
     exec (.msixHoldoffExpiry v) s = .next { s with irq := { s.irq with
       held := setBit s.irq.held v.val false, delayed := setBit s.irq.delayed v.val false } }) ∧
  (∀ (v : Fin 64) (s : State), Does (.msixUnmask (.vector v)) s fun t => t.get (gPage 0x011 + 16 * v.val + 12) ⟨0, 0, 1⟩ = 0) ∧
  (∀ s : State, Does (.msixUnmask .enable) s fun t => t.irq.msixEnable = true ∧ t.irq.funcMask = false)

/-- A header write of COMMIT.GROUP of a block with a COMMIT register changes that field alone, or is refused while the block is a member of
an armed group. Arming an idle group of a domain that runs makes its STATE 1 and gives it the next token; arming or configuring a group
that is not idle only records the refusal. Aborting a group that waits for its cut-off makes it idle and raises the abort event; a
configuration write sets the domain and the fence option. -/
def Obligations.GroupArming : Prop :=
  (∀ (b : BlockAddr) (n : Fin 64) (s : State), b.die ≠ 7 → s.present b.die.val = true → usesCommit (blkAddr b) = true →
     s.memberOfArmed (blkAddr b) = false → exec (.commitGroupWrite b n) s = .next (s.put (blkAddr b) F.COMMIT_GROUP n.val)) ∧
  (∀ (b : BlockAddr) (n : Fin 64) (s : State), b.die ≠ 7 → s.present b.die.val = true → usesCommit (blkAddr b) = true →
     s.memberOfArmed (blkAddr b) = true → exec (.commitGroupWrite b n) s = .next (s.refuseDirect (blkAddr b) 0x0B)) ∧
  (∀ (b : BlockAddr) (n : Fin 64) (us : Nat) (s : State), b.die ≠ 7 → s.present b.die.val = true → usesCommit (blkAddr b) = true →
     s.memberOfArmed (blkAddr b) = false → s.get (cgB n) F.CG_STAT_STATE = 0 →
     s.is (tdB (s.get (cgB n) F.CG_CFG_DOMAIN)) F.TD_STAT_STOPPED = false →
     Does (.commitArm b n us) s fun t =>
       t.get (cgB n) F.CG_STAT_STATE = 1 ∧ t.get (cgB n) F.CG_STAT_TOKEN = s.get seqB F.TOKEN_NEXT_VALUE) ∧
  (∀ (n : Fin 64) (us : Nat) (s : State), s.get (cgB n) F.CG_STAT_STATE = 0 →
     s.is (tdB (s.get (cgB n) F.CG_CFG_DOMAIN)) F.TD_STAT_STOPPED = false →
     Does (.cgArm n us) s fun t =>
       t.get (cgB n) F.CG_STAT_STATE = 1 ∧ t.get (cgB n) F.CG_STAT_TOKEN = s.get seqB F.TOKEN_NEXT_VALUE) ∧
  (∀ (n : Fin 64) (us : Nat) (s : State), s.get (cgB n) F.CG_STAT_STATE ≠ 0 →
     exec (.cgArm n us) s = .next (s.put (cgB n) F.CG_CAUSE_LAST_REFUSAL 0x0B)) ∧
  (∀ (n : Fin 64) (s : State), s.present 0 = true → s.get (cgB n) F.CG_STAT_STATE = 1 ∨ s.get (cgB n) F.CG_STAT_STATE = 3 →
     Does (.cgAbort n) s fun t => t.get (cgB n) F.CG_STAT_STATE = 0 ∧ t.grp n = Grp.idle ∧ Raised s t seqB 5) ∧
  (∀ (n : Fin 64) (s : State), s.get (cgB n) F.CG_STAT_STATE ≠ 1 → s.get (cgB n) F.CG_STAT_STATE ≠ 3 →
     exec (.cgAbort n) s = .next s) ∧
  (∀ (n : Fin 64) (v : Word) (s : State), s.get (cgB n) F.CG_STAT_STATE = 0 →
     exec (.cgCfgWrite n v) s = .next ((s.put (cgB n) F.CG_CFG_DOMAIN (v.toNat % 8)).put (cgB n) F.CG_CFG_REQUIRE_FENCES (v.toNat / 8 % 2))) ∧
  (∀ (n : Fin 64) (v : Word) (s : State), s.get (cgB n) F.CG_STAT_STATE ≠ 0 →
     exec (.cgCfgWrite n v) s = .next (s.put (cgB n) F.CG_CAUSE_LAST_REFUSAL 0x0B))

/-- The cut-off of a running domain passes once a frame, and a second one of the same frame changes nothing; a frame pulse, the first one of
a start too, opens the next frame. A take message of a die records its acknowledgement in the group. At the take line of an output that
is no bond member, no word of its composer or audio page stays staged in a group that is applying. -/
def Obligations.Takes : Prop :=
  (∀ (d : Fin 8) (s : State), s.is (tdB d) F.TD_STAT_STOPPED = false → (s.td d).cutPassed = false →
     Does (.takeCutoff d) s fun t => (t.td d).cutPassed = true ∧ ∀ e : Fin 8, e ≠ d → t.td e = s.td e) ∧
  (∀ (d : Fin 8) (s : State), s.is (tdB d) F.TD_STAT_STOPPED = true ∨ (s.td d).cutPassed = true →
     exec (.takeCutoff d) s = .next s) ∧
  (∀ (n : Fin 64) (die : Fin 8) (s : State), s.get (cgB n) F.CG_STAT_STATE = 2 → s.present die = true →
     Does (.takeMessage n die) s fun t => bitN (t.grp n).acks die = true ∧ (t.grp n).staging = (s.grp n).staging ∧
       t.readData = s.readData ∧ t.out = s.out) ∧
  (∀ (n : Fin 64) (die : Fin 8) (s : State), s.get (cgB n) F.CG_STAT_STATE ≠ 2 ∨ s.present die = false →
     exec (.takeMessage n die) s = .next s) ∧
  (∀ (d : Fin 8) (t0 : Int) (s : State), s.is (tdB d) F.TD_STAT_STOPPED = false →
     Does (.domainFramePulse d t0) s fun t => (t.td d).cutPassed = false) ∧
  (∀ (d : Fin 8) (t0 : Int) (s : State), s.is (tdB d) F.TD_STAT_STOPPED = true → exec (.domainFramePulse d t0) s = .next s) ∧
  (∀ (d : Fin 8) (s : State), s.is (tdB d) F.TD_STAT_STOPPED = false → (s.td d).starting = true →
     Does (.domainStart d) s fun t => (t.td d).cutPassed = false) ∧
  (∀ (g : Fin 96) (s : State), s.present (g / 16 + 1) = true → s.outMember g = false →
     Does (.takeApply g) s fun t => ∀ (n : Fin 64) (p : Nat × Word), s.get (cgB n) F.CG_STAT_STATE = 4 → p ∈ (t.grp n).staging →
       blockBase p.1 ≠ compB g ∧ ¬ (inAud p.1 = true ∧ portOf p.1 0x400 1 = g))

/-- Clearing CTRL.RUN of an input, an IP port or an output that is no bond member clears RUN and, while it runs, sets BUSY, and changes no
other register; the memory is stopped only when nothing uses it. Setting RUN starts a stopped input or IP port at once, asks a stopped
output with a consistent OUT_CFG to start at its next pulse, and otherwise only sets RUN. The end of a stop makes a memory without RUN
stopped with every channel idle, and an output finished. A started output keeps the configuration word it runs with. -/
def Obligations.RunAndStop : Prop :=
  (∀ (b : BlockAddr) (s : State), b.die ≠ 7 → s.present b.die = true → runKind (blkAddr b) = 1 → s.inMember (portOfRun (blkAddr b)) = false →
     Does (.ctrlRunClear b) s fun t => (t.get (blkAddr b) F.CTRL_RUN = 0 ∧
       (s.is (blkAddr b) F.STAT_STOPPED = false → t.get (blkAddr b) F.STAT_BUSY = 1)) ∧ OnlyRegs [blkAddr b + 8, blkAddr b + 0xC] s t) ∧
  (∀ (b : BlockAddr) (s : State), b.die ≠ 7 → s.present b.die = true → runKind (blkAddr b) = 3 →
     Does (.ctrlRunClear b) s fun t => (t.get (blkAddr b) F.CTRL_RUN = 0 ∧
       (s.is (blkAddr b) F.STAT_STOPPED = false → t.get (blkAddr b) F.STAT_BUSY = 1)) ∧ OnlyRegs [blkAddr b + 8, blkAddr b + 0xC] s t) ∧
  (∀ (b : BlockAddr) (s : State), b.die ≠ 7 → s.present b.die = true → runKind (blkAddr b) = 2 → s.outMember (portOfRun (blkAddr b)) = false →
     Does (.ctrlRunClear b) s fun t => (t.get (outB (portOfRun (blkAddr b))) F.CTRL_RUN = 0 ∧
       (s.is (outB (portOfRun (blkAddr b))) F.STAT_STOPPED = false → t.get (outB (portOfRun (blkAddr b))) F.STAT_BUSY = 1)) ∧
       (t.tx (portOfRun (blkAddr b))).starting = false ∧
       OnlyRegs [outB (portOfRun (blkAddr b)) + 8, outB (portOfRun (blkAddr b)) + 0xC] s t) ∧
  (∀ (b : BlockAddr) (s : State), b.die ≠ 7 → s.present b.die = true → runKind (blkAddr b) = 4 → s.memMayStop = true →
     Does (.ctrlRunClear b) s fun t => (t.get (blkAddr b) F.CTRL_RUN = 0 ∧
       (s.is (blkAddr b) F.STAT_STOPPED = false → t.get (blkAddr b) F.STAT_BUSY = 1)) ∧ OnlyRegs [blkAddr b + 8, blkAddr b + 0xC] s t) ∧
  (∀ (b : BlockAddr) (s : State), b.die ≠ 7 → s.present b.die = true → runKind (blkAddr b) = 4 → s.memMayStop = false →
     exec (.ctrlRunClear b) s = .next (s.refuseStruct (blkAddr b))) ∧
  (∀ (b : BlockAddr) (s : State), b.die ≠ 7 → s.present b.die = true →
     runKind (blkAddr b) = 3 ∨ (runKind (blkAddr b) = 1 ∧ s.inMember (portOfRun (blkAddr b)) = false) →
     s.is (blkAddr b) F.STAT_STOPPED = true →
     Does (.ctrlRunSet b) s fun t => t.get (blkAddr b) F.CTRL_RUN = 1 ∧ t.get (blkAddr b) F.STAT_STOPPED = 0 ∧
       t.get (blkAddr b) F.STAT_BUSY = 0 ∧ OnlyRegs [blkAddr b + 8, blkAddr b + 0xC] s t) ∧
  (∀ (b : BlockAddr) (s : State), b.die ≠ 7 → s.present b.die = true →
     runKind (blkAddr b) = 3 ∨ runKind (blkAddr b) = 4 ∨ (runKind (blkAddr b) = 1 ∧ s.inMember (portOfRun (blkAddr b)) = false) →
     s.is (blkAddr b) F.STAT_STOPPED = false → exec (.ctrlRunSet b) s = .next (s.put (blkAddr b) F.CTRL_RUN 1)) ∧
  (∀ (b : BlockAddr) (s : State), b.die ≠ 7 → s.present b.die = true → runKind (blkAddr b) = 2 → s.outMember (portOfRun (blkAddr b)) = false →
     s.is (outB (portOfRun (blkAddr b))) F.STAT_STOPPED = true → s.outCfgOk (portOfRun (blkAddr b)) = true →
     exec (.ctrlRunSet b) s = .next ((s.puts (outB (portOfRun (blkAddr b))) [(F.CTRL_RUN, 1), (F.STAT_BUSY, 1)]).setTx (portOfRun (blkAddr b))
       { s.tx (portOfRun (blkAddr b)) with starting := true })) ∧
  (∀ (b : BlockAddr) (s : State), blkAddr b = mcB 0 → s.present 0 = true → s.is (mcB 0) F.STAT_BUSY = true →
     s.is (mcB 0) F.STAT_STOPPED = false → s.is (mcB 0) F.CTRL_RUN = false →
     Does (.blockStopped b) s fun t => t.get (mcB 0) F.STAT_STOPPED = 1 ∧ t.get (mcB 0) F.STAT_BUSY = 0 ∧
       ∀ c < 12, t.get (mcB c) F.MC_STAT_STATE = 0) ∧
  (∀ (b : BlockAddr) (s : State), s.present (dieOf (blkAddr b)) = true → runKind (blkAddr b) = 2 → s.is (blkAddr b) F.STAT_BUSY = true →
     s.is (blkAddr b) F.STAT_STOPPED = false →
     Does (.blockStopped b) s fun t => (t.tx (portOfRun (blkAddr b))).finishing = false ∧ (t.tx (portOfRun (blkAddr b))).dirty = false ∧
       (t.tx (portOfRun (blkAddr b))).toBlack = false) ∧
  (∀ (g : Fin 96) (s : State), s.present (g / 16 + 1) = true → s.outMember g = false → (s.tx g).starting = true → (s.tx g).finishing = false →
     s.is (outB g) F.STAT_STOPPED = true → s.outCfgOk g = true →
     Does (.outputStart g) s fun t => t.tx g = { s.tx g with
       starting := false, ran := some (s.rd (outB g + 0x40)), dirty := false, toBlack := false, lastLine := []
       groups := s.get (audB g) F.EMB_CFG_GROUPS }) ∧
  (∀ (g : Fin 96) (mode : Fin 4) (s : State), s.present (g / 16 + 1) = true →
     Does (.stopModeWrite g mode) s fun t => t.get (outB g) F.CTRL_STOP_MODE = mode ∧ OnlyRegs [outB g + 8] s t)

/-- A soft reset of a stopped block that has one clears its EV_STICKY and discards its staged words; of a running block it is refused with
0x07. A slack window that ends sets CUR to the slack, held within the register's range, and changes that register and the block's
EV_STICKY only; a read of a slack register returns it and starts MIN again at CUR. -/
def Obligations.ResetAndSlack : Prop :=
  (∀ (b : BlockAddr) (s : State), b.die ≠ 7 → s.present b.die = true → hasReset (blkAddr b) = true → s.stopped (blkAddr b) = true →
     blkAddr b ≠ evcB → Does (.softReset b) s fun t => t.rd (blkAddr b + 0x10) = 0 ∧ ∀ p ∈ t.tags, blockBase p.1 ≠ blkAddr b) ∧
  (∀ (b : BlockAddr) (s : State), b.die ≠ 7 → s.present b.die = true → hasReset (blkAddr b) = true → s.stopped (blkAddr b) = false →
     exec (.softReset b) s = .next (s.refuseStruct (blkAddr b))) ∧
  (∀ (m : SlackMon) (v : Int) (s : State), s.slackHas m = true →
     Does (.slackWindowEnd m v) s fun t => t.geti (slackAt m).1 F.SLK_CUR = clampI (-32767) 32767 v ∧
       OnlyRegs [(slackAt m).1, (slackAt m).2.1 + 0x10] s t) ∧
  (∀ (m : SlackMon) (s : State), s.slackHas m = true →
     Does (.slackRead m) s fun t => t.readData = s.rd (slackAt m).1 ∧ OnlyRegs [(slackAt m).1] s t ∧
       t.get (slackAt m).1 F.SLK_CUR = s.get (slackAt m).1 F.SLK_CUR)

/-- A carrier, a signal and a lock of the clock move a receiver through its states; losing the carrier, the clock or the EAV ends the link's
lock and its measurement. A frame of a receiver that has its clock records the frame's payload identifier; two frames alike of a found
format lock the link, and four links that agree, within the skew limit, lock a bonded group. -/
def Obligations.SdiReceiverLock : Prop :=
  (∀ (g : Fin 96) (mid : Option Nat) (s : State), s.rxUp g = true → s.get (inB g) F.IN_STAT_STATE ≠ 0 →
     Does (.carrierLoss g mid) s fun t => (t.rx g).link = false ∧ (t.rx g).meas = none) ∧
  (∀ (g : Fin 96) (mid : Option Nat) (s : State), s.get (inB g) F.IN_STAT_STATE = 0 → exec (.carrierLoss g mid) s = .next s) ∧
  (∀ (g : Fin 96) (s : State), s.rxUp g = true → s.get (inB g) F.IN_STAT_STATE = 0 →
     Does (.signalDetect g) s fun t => t.get (inB g) F.IN_STAT_STATE = 1 ∧ (t.rx g).search = 5 ∧
       OnlyRegs [inB g + F.IN_STAT_STATE.off, inB g + 0x1C] s t) ∧
  (∀ (g : Fin 96) (c : Fin 6) (r : Bool) (s : State), s.rxUp g = true → s.get (inB g) F.IN_STAT_STATE = 1 → s.searches g c = true →
     Does (.cdrLock g c r) s fun t => t.get (inB g) F.IN_STAT_STATE = 2 ∧ t.get (inB g) F.IN_STAT_RATE = c ∧
       t.get (inB g) F.IN_STAT_RATE_1001 = b2n r ∧ OnlyRegs [inB g + F.IN_STAT_STATE.off, inB g + 0x1C] s t) ∧
  (∀ (g : Fin 96) (c : Fin 6) (r : Bool) (s : State), s.searches g c = false → exec (.cdrLock g c r) s = .next s) ∧
  (∀ (g : Fin 96) (s : State), s.rxUp g = true → s.get (inB g) F.IN_STAT_STATE = 1 →
     exec (.cdrSearchTimeout g) s = .next (s.setRx g { s.rx g with search := 5 })) ∧
  (∀ (g : Fin 96) (mid : Option Nat) (s : State), s.rxUp g = true → 2 ≤ s.get (inB g) F.IN_STAT_STATE →
     Does (.cdrLoss g mid) s fun t => (t.rx g).link = false ∧ (t.rx g).meas = none) ∧
  (∀ (g : Fin 96) (mid : Option Nat) (s : State), s.rxUp g = true → (s.rx g).link = true →
     Does (.eavTimeout g mid) s fun t => (t.rx g).link = false ∧ (t.rx g).meas = none ∧ (t.rx g).pid = (s.rx g).pid) ∧
  (∀ (g : Fin 96) (m : FrameMeas) (s : State), s.rxUp g = true → 2 ≤ s.get (inB g) F.IN_STAT_STATE →
     Does (.sdiRxFrame g m) s fun t => (t.rx g).pid = m.pid) ∧
  (∀ (g : Fin 96) (m : FrameMeas) (s : State), s.get (inB g) F.IN_STAT_STATE < 2 → exec (.sdiRxFrame g m) s = .next s) ∧
  (∀ (g : Fin 96) (s : State), s.rxUp g = true → s.get (inB g) F.IN_STAT_STATE = 2 → (s.rx g).link = false → 2 ≤ (s.rx g).same →
     (s.rx g).found ≠ 0 → Does (.fmtLock g) s fun t => (t.rx g).link = true ∧ (t.rx g).linkLast = some (s.rx g).found) ∧
  (∀ (q : Fin 24) (s : State), s.rxUp (4 * q) = true → s.inBonded (4 * q) = true → (s.rx (4 * q)).group = false → s.linksAgree (4 * q) = true →
     2 ≤ (s.rx (4 * q)).together → s.get (inB (4 * q)) F.IN_QUAD_SKEW_NS ≤ 4000 →
     Does (.quadGroupLock q) s fun t => (t.rx (4 * q)).group = true) ∧
  (∀ (q : Fin 24) (s : State), s.rxUp (4 * q) = true → s.inBonded (4 * q) = true → (s.rx (4 * q)).group = false → s.linksAgree (4 * q) = true →
     2 ≤ (s.rx (4 * q)).together → 4000 < s.get (inB (4 * q)) F.IN_QUAD_SKEW_NS →
     exec (.quadGroupLock q) s = .next (s.raise (inB (4 * q)) 8)) ∧
  (∀ (g : Fin 96) (v : Word) (s : State), s.rxUp g = true → exec (.inOverrideWrite g v) s = .next (s.wr (inB g + 0x60) (v &&& 0xF)))

/-- A line without errors outside the active picture changes nothing; an active line of a delivering input that is not bonded becomes its
last line, flagged missing when it does not fit; a line with a wrong CRC is counted from the clock's lock on, on any class but SD. An
ancillary packet with a bad checksum raises its event; an ordinary one is queued while there is room and otherwise discarded with an
event. A frame of a running output makes its ledger valid; a black output that is finishing goes quiet. A running single-link output
sends the line that it composed, or the one before it once more where the line is not complete, and keeps what it sent; a black one
sends a black line. The driver monitor records what it finds. -/
def Obligations.SdiLinesAndOutputs : Prop :=
  (∀ (g : Fin 96) (line : Nat) (fits : Bool) (data : List Nat) (s : State),
     exec (.sdiRxLine g ⟨line, none, false, false, 0, fits, data⟩) s = .next s) ∧
  (∀ (g : Fin 96) (l : RxLine) (y : Nat) (s : State), s.rxUp g = true → 2 ≤ s.get (inB g) F.IN_STAT_STATE → (s.rx g).link = true →
     l.active = some y → s.inBonded g = false → (s.rx g).delivering = true → l.crcErr = false → l.edhErr = false → l.trsErr = 0 →
     Does (.sdiRxLine g l) s fun t =>
       (t.rx g).lastLine = some (y, !l.fits, s.get (inB g) F.IN_STAT_EPOCH, if l.fits then l.payload else []) ∧
       OnlyRegs [inB g + 0x10] s t) ∧
  (∀ (g : Fin 96) (line : Nat) (fits : Bool) (data : List Nat) (s : State), s.rxUp g = true → 2 ≤ s.get (inB g) F.IN_STAT_STATE →
     s.get (inB g) F.IN_STAT_RATE ≠ 1 → Does (.sdiRxLine g ⟨line, none, true, false, 0, fits, data⟩) s fun t =>
       t.get (inB g) F.IN_ERR_CRC = min 0xFFFF (s.get (inB g) F.IN_ERR_CRC + 1) ∧ Raised s t (inB g) 5) ∧
  (∀ (g : Fin 96) (p : AncPkt) (s : State), s.rxUp g = true → s.inBonded g = false → (s.rx g).delivering = true →
     exec (.ancPacketReceived g false p) s = .next (s.raise (inB g) 11)) ∧
  (∀ (g : Fin 96) (p : AncPkt) (s : State), s.rxUp g = true → s.inBonded g = false → (s.rx g).delivering = true → ancIsAudio p = false →
     ancIsPid p = false → (ancIsEdh p && s.get (inB g) F.IN_STAT_RATE == 1) = false → ancIsRqp p = false →
     s.is (inB g) F.IN_ANC_CFG_ANC_EN = true → (s.rx g).anc.length < 128 →
     (s.rx g).ancBytes + ancPktBytes p ≤ 16384 →
     exec (.ancPacketReceived g true p) s =
       .next (s.setRx g { s.rx g with anc := (s.rx g).anc ++ [p], ancBytes := (s.rx g).ancBytes + ancPktBytes p })) ∧
  (∀ (g : Fin 96) (p : AncPkt) (s : State), s.rxUp g = true → s.inBonded g = false → (s.rx g).delivering = true → ancIsAudio p = false →
     ancIsPid p = false → (ancIsEdh p && s.get (inB g) F.IN_STAT_RATE == 1) = false → ancIsRqp p = false →
     s.is (inB g) F.IN_ANC_CFG_ANC_EN = true →
     128 ≤ (s.rx g).anc.length ∨ 16384 < (s.rx g).ancBytes + ancPktBytes p → exec (.ancPacketReceived g true p) s = .next (s.raise (inB g) 12)) ∧
  (∀ (g : Fin 96) (t0 : Int) (hanc vanc : Nat) (s : State), s.present (g / 16 + 1) = true → s.outMember g = false →
     s.get (outB g) F.OUT_STAT_STATE = 2 → Does (.outputFrameStart g t0 hanc vanc) s fun t => tget false t.floor.done g = true) ∧
  (∀ (g : Fin 96) (t0 : Int) (hanc vanc : Nat) (s : State), s.present (g / 16 + 1) = true → s.outMember g = false →
     s.get (outB g) F.OUT_STAT_STATE = 1 → (s.tx g).finishing = true → (s.tx g).toBlack = false →
     exec (.outputFrameStart g t0 hanc vanc) s = .next ((s.setTx g { s.tx g with finishing := false }).outSend g 0)) ∧
  (∀ (g : Fin 96) (t0 : Int) (hanc vanc : Nat) (s : State), s.get (outB g) F.OUT_STAT_STATE = 0 → (s.tx g).toBlack = false →
     exec (.outputFrameStart g t0 hanc vanc) s = .next s) ∧
  (∀ (g : Fin 96) (line : Nat) (complete : Bool) (late : List (Fin 32)) (s : State), s.present (g / 16 + 1) = true → s.outMember g = false →
     s.sendsQuad g = false → s.get (outB g) F.OUT_STAT_STATE = 1 → line < (activeOf (fldGet (s.sentCfg g) 0 8)).2 →
     Does (.outputLineStart g line complete late) s fun t => ∃ r, t.out = s.out ++
       .sdiLine g (frameLineOf (fldGet (s.sentCfg g) 0 8) line) line (blackLine (s.sentCfg g)) :: r) ∧
  (∀ (g : Fin 96) (line : Nat) (late : List (Fin 32)) (s : State), s.present (g / 16 + 1) = true → s.outMember g = false →
     s.sendsQuad g = false → s.get (outB g) F.OUT_STAT_STATE = 2 → line < (activeOf (fldGet (s.sentCfg g) 0 8)).2 →
     s.get (compB g) F.COMP_CFG_WB_MODE = 0 → Does (.outputLineStart g line false late) s fun t =>
       (∃ r, t.out = s.out ++ .sdiLine g (frameLineOf (fldGet (s.sentCfg g) 0 8) line) line (s.tx g).lastLine :: r) ∧
       (t.tx g).lastLine = (s.tx g).lastLine) ∧
  (∀ (g : Fin 96) (line : Nat) (late : List (Fin 32)) (s u : State), s.present (g / 16 + 1) = true → s.outMember g = false →
     s.sendsQuad g = false → s.get (outB g) F.OUT_STAT_STATE = 2 → line < (activeOf (fldGet (s.sentCfg g) 0 8)).2 →
     s.get (compB g) F.COMP_CFG_WB_MODE = 0 →
     u = s.puts (outB g) [(F.OUT_POS_LINE, frameLineOf (fldGet (s.sentCfg g) 0 8) line), (F.OUT_POS_SAMPLE, 0)] → u.linesReady g line = true →
     Does (.outputLineStart g line true late) s fun t =>
       (∃ r, t.out = s.out ++ .sdiLine g (frameLineOf (fldGet (s.sentCfg g) 0 8) line) line (u.composeLine g line) :: r) ∧
       (t.tx g).lastLine = u.composeLine g line) ∧
  (∀ (g : Fin 96) (faulty : Bool) (s : State), s.present (g / 16 + 1) = true →
     Does (.driverOpenShort g faulty) s fun t => (t.tx g).driverFault = faulty ∧ OnlyRegs [outB g + 0x10, outB g + 0x1C] s t)

/-- A candidate whose source can serve becomes active, and loses its activity and qualification with it. An active candidate that fits
qualifies, waiting only if a selection was ever made and WTR is not 0; it loses qualification when its frequency leaves the window, its
jitter passes the limit or its level is 15. Evaluation acts only once the core has started: FORCED selects the forced candidate when it
is qualified, FREE-RUN leaves the reference unselected. Two qualified candidates of one rank that differ by more than the threshold are
recorded as a pair. -/
def Obligations.TimingCandidates : Prop :=
  (∀ (c : Fin 16) (fam : Option (Fin 5)) (k : Bool) (s : State), s.candActive c = false → s.candSrcOk c = true →
     Does (.candActive c fam k) s fun t => t.candActive c = true) ∧
  (∀ (c : Fin 16) (s : State), s.candActive c = true → Does (.candLoss c) s fun t => t.candActive c = false ∧ t.candQualified c = false) ∧
  (∀ (c : Fin 16) (m : CandMeas) (s : State), s.candActive c = true → s.candQualified c = false → s.candFit c m = true →
     Does (.candQualify c m) s fun t => t.candQualified c = true ∧
       t.candWaiting c = (s.tc.everSel && s.get tcB F.TC_TIMES_WTR_S != 0)) ∧
  (∀ (c : Fin 16) (ppb : Int) (s : State), s.candQualified c = true →
     (1000 * s.get (candB c) F.CAND_LIMIT_FREQ_WIN : Int) < (ppb + roundDivI s.steer 1000).natAbs →
     Does (.candDisqualify c (.freq ppb)) s fun t => t.candQualified c = false) ∧
  (∀ (c : Fin 16) (ns : Nat) (s : State), s.candQualified c = true → s.get (candB c) F.CAND_LIMIT_JIT_LIMIT < ns →
     Does (.candDisqualify c (.jitter ns)) s fun t => t.candQualified c = false) ∧
  (∀ (c : Fin 16) (s : State), s.candQualified c = true → s.get (candB c) F.CAND_STAT_QL = 15 →
     Does (.candDisqualify c .level) s fun t => t.candQualified c = false) ∧
  (∀ (c : Fin 16) (s : State), s.candWaiting c = true → Does (.wtrExpiry c) s fun t => t.candWaiting c = false) ∧
  (∀ s : State, s.tc.selHold = 1 → exec .selectHoldExpiry s = .next (s.modTc fun t => { t with selHold := 2 })) ∧
  (∀ (c : Fin 4) (s : State), s.is (candB (12 + c)) F.CAND_STAT_QL_FROM_MSG = true →
     Does (.rqpAgeExpiry c) s fun t => t.get (candB (12 + c)) F.CAND_STAT_QL =
       if s.candActive (12 + c) = true then s.get (candB (12 + c)) F.CAND_CFG_QL_STATIC else 15) ∧
  (∀ (m : List CandMeas) (s : State), s.tc.started = false → exec (.selectEvaluation m) s = .next s) ∧
  (∀ (m : List CandMeas) (s : State), s.tc.started = true → Does (.selectEvaluation m) s fun t => ∀ p ∈ t.tc.pairs, p ∈ s.tc.pairs) ∧
  (∀ (m : List CandMeas) (s : State), s.tc.started = true → s.get tcB F.TC_CFG_MODE = 1 → s.candQualified (s.get tcB F.TC_CFG_FORCE_CAND) = true →
     s.sel ≠ some (s.get tcB F.TC_CFG_FORCE_CAND) → Does (.selectEvaluation m) s fun t =>
       t.tc.everSel = true ∧ t.get tcB F.TC_STAT_REF_STATE = 1 ∧ t.get tcB F.TC_STAT_SELECTED = s.get tcB F.TC_CFG_FORCE_CAND) ∧
  (∀ (m : List CandMeas) (s : State), s.tc.started = true → s.get tcB F.TC_CFG_MODE = 3 →
     Does (.selectEvaluation m) s fun t => t.get tcB F.TC_STAT_REF_STATE = 0) ∧
  (∀ (a b : Fin 16) (s : State), a < b → s.candQualified a = true → s.candQualified b = true → s.candRank a = s.candRank b →
     s.get tcB F.TC_DISAGREE_THRESH_PPB < (s.geti (candB a) F.CAND_ABS_PPB - s.geti (candB b) F.CAND_ABS_PPB).natAbs →
     Does (.disagreeDetect a b) s fun t => 16 * a.val + b.val ∈ t.tc.pairs)

/-- A loop update of a started core advances the time scale by a millisecond. A small phase error ends acquisition and the pull; the loop's
bandwidth halves until it reaches the tracking bandwidth, where the history starts anew. While tracking, a history sample is kept first
of at most 62, and learning changes one entry of the temperature table, within 16 bits. In holdover a prediction counts a second. -/
def Obligations.TimingLoop : Prop :=
  (∀ (phase : Int) (s : State), s.tc.started = true →
     Does (.loopUpdate phase) s fun t => t.tc.ms = s.tc.ms + 1 ∧ t.tc.now = s.tc.now + 1000000) ∧
  (∀ s : State, s.get tcB F.TC_STAT_LOOP = 1 → s.errSmall = true → exec .acquireDone s = .next (s.put tcB F.TC_STAT_LOOP 2)) ∧
  (∀ s : State, s.is tcB F.TC_STAT_PULLING = true → s.errSmall = true →
     Does .pullComplete s fun t => t.tc.specLow = false ∧ t.get tcB F.TC_STAT_PULLING = 0) ∧
  (∀ s : State, s.get tcB F.TC_STAT_LOOP = 2 → s.get tcB F.TC_BW_TRACK_BW * 4096 < s.tc.bw / 2 →
     Does .bandwidthHalving s fun t => t.tc.bw = s.tc.bw / 2 ∧ t.regs = s.regs) ∧
  (∀ s : State, s.get tcB F.TC_STAT_LOOP = 2 → s.tc.bw / 2 ≤ s.get tcB F.TC_BW_TRACK_BW * 4096 →
     Does .bandwidthHalving s fun t => t.tc.bw = s.get tcB F.TC_BW_TRACK_BW * 4096 ∧ t.tc.hist = [] ∧ t.get tcB F.TC_STAT_LOOP = 3) ∧
  (∀ s : State, s.get tcB F.TC_STAT_LOOP = 3 →
     Does .historySample s fun t => ∃ temp, t.tc.hist = ((s.steer, temp) :: s.tc.hist).take 62 ∧ (∀ v, s.tcTemp = some v → temp = v)) ∧
  (∀ s : State, s.get tcB F.TC_STAT_REF_STATE = 2 →
     Does .holdoverPredict s fun t => t.get tcB F.HOLD_ELAPSED_SECONDS = min 0xFFFFFFFF (s.get tcB F.HOLD_ELAPSED_SECONDS + 1)) ∧
  (∀ s : State, s.get tcB F.TC_STAT_LOOP = 3 → s.is tcB F.TC_CFG_LEARN = true → s.tc.hist ≠ [] →
     ∃ (i : Nat) (v : Int), i ≤ 32 ∧ -32768 ≤ v ∧ v ≤ 32767 ∧
       exec .dcoTableLearn s = .next (s.modTc fun x => { x with dcoTable := x.dcoTable.set i v }))

/-- Arming keeps the value of the set registers, and the apply edge, where the 1PPS of the selected reference or the old scale reaches a
whole second, makes the time of day that many seconds at the edge; elsewhere it changes nothing. A read of the seconds answers them and
latches their upper part and the nanoseconds. RUN of a stopped domain starts it when its configuration fits and is refused when it does
not; clearing RUN lets a running domain finish its frame. A realignment is refused while one runs and in a stopped domain, and otherwise
pulls or awaits its jump; a finished pull leaves the domain aligned; a jump empties the domain of a pending one. -/
def Obligations.TimeAndDomains : Prop :=
  (∀ s : State, exec .tsSetArm s =
     .next (s.modTc fun x => { x with tsSet := some (s.get tcB F.TS_SET_LO_VALUE + s.get tcB F.TS_SET_HI_VALUE * 2 ^ 32) })) ∧
  (∀ (v : Nat) (ns : Fin 1000000) (s : State), s.present 0 = true → s.tc.tsSet = some v → s.ppsSelected = false →
     (s.tc.now + ns.val) % 10 ^ 9 = 0 →
     Does .tsSetApply s fun t => t.tc.now = onScale ((v * 10 ^ 9 : Nat) - (ns.val : Nat)) ∧ t.tc.tsSet = none ∧ Raised s t tcB 20) ∧
  (∀ (v : Nat) (s : State), s.present 0 = true → s.tc.tsSet = some v → s.ppsSelected = true →
     Does .tsSetApply s fun t => (∃ ns : Nat, ns < 10 ^ 6 ∧ t.tc.now = onScale ((v * 10 ^ 9 : Nat) - s.refAhead - ns)) ∧
       t.tc.tsSet = none ∧ Raised s t tcB 20) ∧
  (∀ (v : Nat) (s : State), s.tc.tsSet = some v → s.ppsSelected = false → 0 < s.tc.now % 10 ^ 9 →
     s.tc.now % 10 ^ 9 ≤ 10 ^ 9 - 10 ^ 6 →
     exec .tsSetApply s = .next s) ∧
  (∀ s : State, s.tc.tsSet = none → exec .tsSetApply s = .next s) ∧
  (∀ (ns : Fin 1000000) (s : State),
     Does (.tsSecRead ns) s fun t => t.readData = BitVec.ofNat 32 (s.timeNow ns / 1000000000 % 2 ^ 48) ∧
       t.get tcB F.TS_SEC_HI_VALUE = s.timeNow ns / 1000000000 % 2 ^ 48 / 2 ^ 32 ∧ t.get tcB F.TS_NS_VALUE = s.timeNow ns % 1000000000) ∧
  (∀ (d : Fin 8) (s : State), s.is (tdB d) F.TD_STAT_STOPPED = true → s.tdCfgOk d = true →
     Does (.tdRunWrite d true) s fun t => t.is (tdB d) F.TD_STAT_STOPPED = false ∧ (t.td d).starting = true ∧ (t.td d).cutPassed = false) ∧
  (∀ (d : Fin 8) (s : State), s.is (tdB d) F.TD_STAT_STOPPED = true → s.tdCfgOk d = false →
     Does (.tdRunWrite d true) s fun t => t.is (tdB d) F.TD_STAT_STOPPED = true ∧ t.get (tdB d) F.TD_CTRL_RUN = 0 ∧ t.td d = s.td d) ∧
  (∀ (d : Fin 8) (s : State), s.is (tdB d) F.TD_STAT_STOPPED = false →
     Does (.tdRunWrite d false) s fun t => (t.td d).stopping = true ∧ t.get (tdB d) F.TD_CTRL_RUN = 0 ∧ ∀ e : Fin 8, e ≠ d → t.td e = s.td e) ∧
  (∀ (d : Fin 8) (s : State), s.is (tdB d) F.TD_STAT_STOPPED = false → s.is (tdB d) F.TD_STAT_PULLING = false →
     s.is (tdB d) F.TD_STAT_JUMP_PENDING = false → (s.td d).jumped = false →
     Does (.tdRealignGo d false) s fun t => t.get (tdB d) F.TD_STAT_PULLING = 1 ∧ t.get (tdB d) F.TD_STAT_REALIGN_REFUSED = 0) ∧
  (∀ (d : Fin 8) (s : State), s.is (tdB d) F.TD_STAT_STOPPED = false → s.is (tdB d) F.TD_STAT_PULLING = false →
     s.is (tdB d) F.TD_STAT_JUMP_PENDING = false → (s.td d).jumped = false → s.get (tdB d) F.TD_JUMP_FRAME_VALUE = 0 →
     Does (.tdRealignGo d true) s fun t => t.get (tdB d) F.TD_STAT_JUMP_PENDING = 1 ∧
       (t.td d).jumpFrame = (s.get (tdB d) F.TD_FRAME_COUNT + 1 + b2n (s.td d).cutPassed) % 2 ^ 32) ∧
  (∀ (d : Fin 8) (jump : Bool) (s : State),
     s.is (tdB d) F.TD_STAT_STOPPED = true ∨ s.is (tdB d) F.TD_STAT_PULLING = true ∨ s.is (tdB d) F.TD_STAT_JUMP_PENDING = true →
     Does (.tdRealignGo d jump) s fun t => t.get (tdB d) F.TD_STAT_REALIGN_REFUSED = 1 ∧ t.td d = s.td d) ∧
  (∀ (d : Fin 8) (s : State), s.is (tdB d) F.TD_STAT_PULLING = true → (s.td d).mis.natAbs < 1000000 →
     Does (.realignSlopeDone d) s fun t => t.get (tdB d) F.TD_STAT_PULLING = 0 ∧ t.get (tdB d) F.TD_STAT_ALIGNED = 1 ∧
       t.get (tdB d) F.TD_MISALIGN_NS = 0) ∧
  (∀ (d : Fin 8) (s : State), s.is (tdB d) F.TD_STAT_JUMP_PENDING = true → s.get (tdB d) F.TD_FRAME_COUNT = (s.td d).jumpFrame →
     Does (.realignJump d) s fun t => (t.td d).jumped = true ∧ t.get (tdB d) F.TD_STAT_JUMP_PENDING = 0)

/-- A write of a route entry changes its shadow word, within the bits the table gives it, and nothing in effect. A measured window is kept
for its source and destination. A route whose fallback is due moves to the stored path with one repeated frame; a route whose return is
due moves back to cut-through. A re-examination makes due the return of every fallen-back route of a selected domain whose window fits,
that is neither suspended, shed nor staged and whose ring is not frozen. A route whose source delivers again in the accepted epoch is no
longer lost. -/
def Obligations.FloorRoutes : Prop :=
  (∀ (table : Fin 3) (entry : Fin 1024) (v : Word) (s : State), s.present 0 = true → entry.val < routeN table →
     Does (.routeCfgWrite table entry v) s fun t => t.eff = s.eff ∧
       t.rd (routeA table entry) = clampReg (routeA table entry) (mergeWord (s.rd (routeA table entry)) v (routeMask table)) ∧
       OnlyRegs [routeA table entry, flB + F.COMMIT_STAT_PENDING.off] s t) ∧
  (∀ (table : Fin 3) (entry : Fin 1024) (v : Word) (s : State), routeN table ≤ entry.val → exec (.routeCfgWrite table entry v) s = .next s) ∧
  (∀ (src g : Fin 96) (a b : Int) (s : State), Does (.windowMeasure src (.output g) a b) s fun t =>
     tget (0, 0) t.floor.phases (g * 128 + src) = (a, b)) ∧
  (∀ (src : Fin 96) (c : Fin 1024) (a b : Int) (s : State), Does (.windowMeasure src (.ip c) a b) s fun t =>
     tget (0, 0) t.floor.phases ((128 + c) * 128 + src) = (a, b)) ∧
  (∀ (table : Fin 2) (entry : Fin 1024) (s : State), entry.val < routeN table → (s.route table entry).due = 1 →
     s.get (routeStatA table entry) F.ROUTE_STAT_PATH = 1 →
     Does (.routeFallback table entry) s fun t => t.get (routeStatA table entry) F.ROUTE_STAT_PATH = 2 ∧
       t.get (routeStatA table entry) F.ROUTE_STAT_FALLBACK = 1 ∧ (t.route table entry).slip = true) ∧
  (∀ (table : Fin 2) (entry : Fin 1024) (s : State), entry.val < routeN table → (s.route table entry).due = 2 →
     s.is (routeStatA table entry) F.ROUTE_STAT_FALLBACK = true →
     Does (.routeReturn table entry) s fun t => t.get (routeStatA table entry) F.ROUTE_STAT_PATH = 1 ∧
       t.get (routeStatA table entry) F.ROUTE_STAT_FALLBACK = 0) ∧
  (∀ (domains : BitVec 8) (s : State), s.present 0 = true → Does (.flReexamine domains) s fun t => t.regs = s.regs ∧
     ∀ p : Nat × Nat, p ∈ s.allRoutes → p.1 < 2 → s.is (routeStatA p.1 p.2) F.ROUTE_STAT_FALLBACK = true →
       bitN domains.toNat (s.dstDomain p.1 p.2) = true → s.windowOk p.1 p.2 = true → s.stays p.1 p.2 = true →
       s.effIs (sringA (s.routeSrc p.1 p.2)) F.SRING_CFG_FREEZE = false → (t.route p.1 p.2).due = 2) ∧
  (∀ (table : Fin 3) (entry : Fin 1024) (s : State), entry.val < routeN table → s.effIs (routeA table entry) F.ROUTE_CFG_EN = true →
     (s.route table entry).lost = true → s.srcDelivers (s.routeSrc table entry) = true →
     s.srcEpoch (s.routeSrc table entry) = (s.route table entry).epoch →
     s.is (routeStatA table entry) F.ROUTE_STAT_SUSPENDED = false → s.is (routeStatA table entry) F.ROUTE_STAT_SHED = false →
     Does (.routeSourceResume table entry) s fun t => t.get (routeStatA table entry) F.ROUTE_STAT_SOURCE_OK = 1) ∧
  (∀ (table : Fin 3) (entry : Fin 1024) (s : State), (s.route table entry).lost = false → exec (.routeSourceResume table entry) s = .next s)

/-- A link of a Sheaf that is up and fails is down, its direction may move again, and its last test no longer counts. While one of a
direction's two links is down its lines move to the other once. A test of a down link records whether it carried no uncorrectable word;
only a link that passed its test is restored. -/
def Obligations.FinanoLinks : Prop :=
  (∀ (sheaf : Fin 8) (dir : Bool) (link : Fin 2) (why : LinkFail) (s : State), s.sheafUp sheaf = true →
     s.is flB (linkBit sheaf dir link) = true →
     Does (.finanoLinkFail sheaf dir link why) s fun t => t.get flB (linkBit sheaf dir link) = 0 ∧
       tget false t.floor.moved (dirKey sheaf dir) = false ∧ tget false t.floor.tested (linkKey sheaf dir link) = false) ∧
  (∀ (sheaf : Fin 8) (dir : Bool) (link : Fin 2) (why : LinkFail) (s : State), s.is flB (linkBit sheaf dir link) = false →
     exec (.finanoLinkFail sheaf dir link why) s = .next s) ∧
  (∀ (sheaf : Fin 8) (dir : Bool) (s : State), s.sheafUp sheaf = true → s.oneLink sheaf dir = true →
     tget false s.floor.moved (dirKey sheaf dir) = false →
     Does (.linkMove sheaf dir) s fun t => tget false t.floor.moved (dirKey sheaf dir) = true) ∧
  (∀ (sheaf : Fin 8) (dir : Bool) (s : State), tget false s.floor.moved (dirKey sheaf dir) = true ∨ s.oneLink sheaf dir = false →
     exec (.linkMove sheaf dir) s = .next s) ∧
  (∀ (sheaf : Fin 8) (dir : Bool) (link : Fin 2) (bad : Nat) (s : State), s.sheafUp sheaf = true →
     s.is flB (linkBit sheaf dir link) = false →
     Does (.finanoLinkTest sheaf dir link bad) s fun t => tget false t.floor.tested (linkKey sheaf dir link) = (bad == 0) ∧
       t.regs = s.regs ∧ t.floor.routes = s.floor.routes) ∧
  (∀ (sheaf : Fin 8) (dir : Bool) (link : Fin 2) (s : State), s.sheafUp sheaf = true → s.is flB (linkBit sheaf dir link) = false →
     tget false s.floor.tested (linkKey sheaf dir link) = true →
     Does (.finanoLinkRestore sheaf dir link) s fun t => t.get flB (linkBit sheaf dir link) = 1 ∧
       tget false t.floor.moved (dirKey sheaf dir) = false) ∧
  (∀ (sheaf : Fin 8) (dir : Bool) (link : Fin 2) (s : State), tget false s.floor.tested (linkKey sheaf dir link) = false →
     exec (.finanoLinkRestore sheaf dir link) s = .next s)

/-- A frame that starts for a ring or store that is to write, once the converter contexts of its source have begun their picture of it,
takes the oldest buffer that may be written and the next sequence number; where no buffer may be written the frame is dropped and the
sequence stays. A frame cut short leaves its buffer no longer written. A complete frame of the source its ring takes makes the ring
deliver. A layer whose lost source has been repeated for LOSS_FRAMES output frames is hidden where LOSS_MODE says so. -/
def Obligations.SiloFrames : Prop :=
  (∀ (r : RingId) (e : Int) (i : Nat) (s : State), (s.ctxStart (ringKey r) e).ringWrites (ringKey r) = true →
     (((s.ctxStart (ringKey r) e).ring (ringKey r)).cutShort ((s.ctxStart (ringKey r) e).ringSrc (ringKey r))).choose = some i →
     Does (.ringFrameStart r e) s fun t => (t.ring (ringKey r)).seq = (s.ring (ringKey r)).seq + 1 ∧ t.regs = s.regs ∧
       ∀ k, k ≠ ringKey r → t.ring k = s.ring k) ∧
  (∀ (r : RingId) (e : Int) (s : State), (s.ctxStart (ringKey r) e).ringWrites (ringKey r) = true →
     (((s.ctxStart (ringKey r) e).ring (ringKey r)).cutShort ((s.ctxStart (ringKey r) e).ringSrc (ringKey r))).choose = none →
     Does (.ringFrameStart r e) s fun t => (t.ring (ringKey r)).seq = (s.ring (ringKey r)).seq) ∧
  (∀ (r : RingId) (e : Int) (s : State), (s.ctxStart (ringKey r) e).ringWrites (ringKey r) = false →
     exec (.ringFrameStart r e) s = .next (s.ctxStart (ringKey r) e)) ∧
  (∀ (r : RingId) (b : Buf) (s : State), (s.ring (ringKey r)).writing = some b →
     Does (.ringFrameComplete r true) s fun t => ∀ c ∈ (t.ring (ringKey r)).bufs, ¬ (c.st = 1 ∧ c.seq = b.seq)) ∧
  (∀ (r : RingId) (b : Buf) (s : State), (s.ring (ringKey r)).writing = some b →
     (s.ring (ringKey r)).delivering = true ∨ b.src = s.ringSrc (ringKey r) → s.enabled 2 = [] →
     Does (.ringFrameComplete r false) s fun t => (t.ring (ringKey r)).delivering = true) ∧
  (∀ (g : Fin 96) (k : Fin 4) (r : Nat) (s : State), s.is siloB F.SILO_CFG_LOSS_MODE = true → s.lossRepeats g (4 * g + k) = some r →
     max 1 (s.get siloB F.SILO_CFG_LOSS_FRAMES) ≤ r → s.srcDelivers (s.routeSrc 0 (4 * g + k)) = false →
     tget false s.silo.hidden (4 * g + k) = false →
     Does (.lossHide g k) s fun t => tget false t.silo.hidden (4 * g + k) = true) ∧
  (∀ (g : Fin 96) (k : Fin 4) (s : State), s.is siloB F.SILO_CFG_LOSS_MODE = false ∨ s.srcDelivers (s.routeSrc 0 (4 * g + k)) = true →
     exec (.lossHide g k) s = .next s)

/-- A BAR2 write to part of a stripe of a surface waits in the combining buffer and changes no register; one that no surface takes is
discarded and its offset is recorded, behind the writes that are held where any is. A BAR2 read of a bin that nobody holds answers zero;
one of readable memory answers the bytes of the word. A combining entry that times out leaves the buffer. A new meter window of a store
starts with no charge. -/
def Obligations.MemoryWindow : Prop :=
  (∀ (offset : BitVec 32) (data : List Byte) (i : Nat) (s : State), data ≠ [] → offset.toNat % 2 ^ 21 < 2096640 →
     data.length ≤ 640 - offset.toNat % 2 ^ 21 % 640 → s.silo.held = [] → s.silo.combining = [] →
     s.surfaceOf (s.get siloB F.BAR2_BASE_BIN + offset.toNat / 2 ^ 21) = some i →
     (combineAdd ⟨s.get siloB F.BAR2_BASE_BIN + offset.toNat / 2 ^ 21, offset.toNat % 2 ^ 21 / 640, []⟩ (offset.toNat % 2 ^ 21 % 640) data).bytes.length ≠ 640 →
     Does (.bar2Write offset data) s fun t => t.regs = s.regs ∧ t.mem = s.mem ∧ t.silo.combining =
       [combineAdd ⟨s.get siloB F.BAR2_BASE_BIN + offset.toNat / 2 ^ 21, offset.toNat % 2 ^ 21 / 640, []⟩ (offset.toNat % 2 ^ 21 % 640) data]) ∧
  (∀ (offset : BitVec 32) (data : List Byte) (s : State), data ≠ [] → offset.toNat % 2 ^ 21 < 2096640 →
     data.length ≤ 640 - offset.toNat % 2 ^ 21 % 640 → s.surfaceOf (s.get siloB F.BAR2_BASE_BIN + offset.toNat / 2 ^ 21) = none →
     s.silo.held = [] →
     Does (.bar2Write offset data) s fun t => t.get siloB F.BAR2_FAULT_OFFSET = offset.toNat ∧ t.mem = s.mem ∧ t.silo = s.silo) ∧
  (∀ (offset : BitVec 32) (data : List Byte) (s : State), data ≠ [] → offset.toNat % 2 ^ 21 < 2096640 →
     data.length ≤ 640 - offset.toNat % 2 ^ 21 % 640 → s.surfaceOf (s.get siloB F.BAR2_BASE_BIN + offset.toNat / 2 ^ 21) = none →
     s.silo.held ≠ [] →
     Does (.bar2Write offset data) s fun t => t.silo = { s.silo with held := s.silo.held ++ [(512, offset.toNat, [])] } ∧ t.mem = s.mem ∧
       t.get siloB F.BAR2_FAULT_OFFSET = s.get siloB F.BAR2_FAULT_OFFSET) ∧
  (∀ (offset : BitVec 32) (s : State), offset.toNat % 2 ^ 21 ≥ 2096640 →
     exec (.bar2Read offset) s = .next (s.answer 0)) ∧
  (∀ (offset : BitVec 32) (b : List Byte) (s : State), offset.toNat % 4 = 0 → offset.toNat % 2 ^ 21 < 2096640 →
     2 ≤ (s.binOwner (s.get siloB F.BAR2_BASE_BIN + offset.toNat / 2 ^ 21)).1 → s.silo.combining = [] →
     (s.binRead (s.get siloB F.BAR2_BASE_BIN + offset.toNat / 2 ^ 21) (offset.toNat % 2 ^ 21 / 640) (offset.toNat % 2 ^ 21 % 640 / 64) 1).2 = some b →
     Does (.bar2Read offset) s fun t => t.readData = BitVec.ofNat 32 (ofLe (slice b (offset.toNat % 2 ^ 21 % 64) 4)) ∧ t.silo = s.silo) ∧
  (∀ (bin : Fin 0x40000) (stripe : Fin 3276) (e : Combine) (s : State), e ∈ s.silo.combining → e.bin = bin → e.stripe = stripe →
     s.surfaceOf bin = none → Does (.combineTimeout bin stripe) s fun t =>
       ∀ q ∈ t.silo.combining, ¬ (q.bin = bin ∧ q.stripe = stripe)) ∧
  (∀ (bin : Fin 0x40000) (stripe : Fin 3276) (s : State), s.silo.combining = [] → exec (.combineTimeout bin stripe) s = .next s) ∧
  (∀ (store : Fin 512) (s : State), s.silo.held = [] →
     Does (.meterWindow store) s fun t => tget 0 t.silo.charge store = 0 ∧ t.silo.combining = s.silo.combining ∧ t.mem = s.mem ∧
       t.get siloB ⟨0x1C, 5, 1⟩ = 0)

/-- A coefficient write is refused while its layer is visible and the output runs; otherwise the phase is stored normalised, with the
written word in place, in each pipe of a bonded group. A restore of a stopped output's tables gives every word of the named layers its
reset value, in each pipe of the group. A LUT write to a bank that is neither in effect nor about to be stores the three components of
the entry in each pipe of the group and no register but the index may change; a LUT read answers the third component. An uncorrectable
error of a coefficient table marks the phase bad; one of a LUT of the bank in effect, which a member takes from its group's first port,
makes the LUT bypassed in the live flags. -/
def Obligations.ComposerTables : Prop :=
  (∀ (g : Fin 96) (c : CoefAddr) (v : Word) (p : Nat) (s : State), s.present (g / 16 + 1) = true → s.outMember g = false →
     ¬ (c.vertical = true ∧ c.word = 3) → s.coefLocked g c.layer = false → p ∈ s.outGroup g →
     Does (.coefWrite g c v) s fun t => t.coefs p c.layer c.vertical c.phase =
       (normalise c.vertical c.phase (coefsOf c.vertical fun w =>
         if w = c.word then v &&& 0x0FFF0FFF else s.rd (coefA p c.layer c.vertical c.phase w))).1) ∧
  (∀ (g : Fin 96) (c : CoefAddr) (v : Word) (s : State), s.present (g / 16 + 1) = true → s.outMember g = false →
     ¬ (c.vertical = true ∧ c.word = 3) → s.coefLocked g c.layer = true → exec (.coefWrite g c v) s = .next (s.coefRefuse g)) ∧
  (∀ (g : Fin 96) (c : CoefAddr) (v : Word) (s : State), s.present (g / 16 + 1) = true → s.outMember g = true →
     exec (.coefWrite g c v) s = .next (s.raise (compB g) 5)) ∧
  (∀ (g : Fin 96) (layers : Fin 4) (s : State), s.present (g / 16 + 1) = true → s.outMember g = false → s.outStopped g = true →
     Does (.coefRestore g layers) s fun t => ∀ (p l w : Nat), p ∈ s.outGroup g → l < 2 → bitN layers l = true → w < 512 →
       t.rd (compB p + 0x1000 + 0x800 * l + 4 * w) = resetWord (compB p + 0x1000 + 0x800 * l + 4 * w)) ∧
  (∀ (g : Fin 96) (v : Word) (p : Nat) (s : State), s.present (g / 16 + 1) = true → s.outMember g = false →
     s.get (compB g + 0x2000) F.LUT_ADDR_BANK ≠ s.effGet (compB g) F.COMP_COLOR_LUT_BANK → s.bankArmed g = false →
     s.get (compB g + 0x2000) F.LUT_ADDR_INDEX < lutSize (s.lutTable g) → p ∈ s.outGroup g →
     Does (.lutWrite g v) s fun t => t.lutEntry p (s.get (compB g + 0x2000) F.LUT_ADDR_BANK) (s.lutTable g) (s.get (compB g + 0x2000) F.LUT_ADDR_INDEX) =
       (s.get (compB g + 0x2000) F.LUT_DATA0_C0, s.get (compB g + 0x2000) F.LUT_DATA0_C1, fldGet v 0 14) ∧
       OnlyRegs [compB g + 0x2000 + F.LUT_ADDR_INDEX.off] s t) ∧
  (∀ (g : Fin 96) (v : Word) (s : State), s.present (g / 16 + 1) = true → s.outMember g = false →
     s.get (compB g + 0x2000) F.LUT_ADDR_BANK = s.effGet (compB g) F.COMP_COLOR_LUT_BANK ∨ s.bankArmed g = true →
     Does (.lutWrite g v) s fun t => t.comps = s.comps) ∧
  (∀ (g : Fin 96) (s : State), s.present (g / 16 + 1) = true → s.get (compB g + 0x2000) F.LUT_ADDR_INDEX < lutSize (s.lutTable g) →
     Does (.lutRead g) s fun t => t.comps = s.comps ∧ t.readData = BitVec.ofNat 32
       (s.lutEntry g (s.get (compB g + 0x2000) F.LUT_ADDR_BANK) (s.lutTable g) (s.get (compB g + 0x2000) F.LUT_ADDR_INDEX)).2.2) ∧
  (∀ (g : Fin 96) (u : CompUe) (s : State), s.present (g / 16 + 1) = true → 8 ≤ u.array.val → u.array.val < 10 →
     Does (.composerUe g u) s fun t => tget false (t.comp g).badCoef (badKey (u.array - 8) u.vertical (u.unit % 64)) = true) ∧
  (∀ (g : Fin 96) (u : CompUe) (s : State), s.present (g / 16 + 1) = true → 2 ≤ u.array.val → u.array.val < 8 →
     u.array.val % 2 = s.effGet (compB (if s.outMember g = true then g - g % 4 else g)) F.COMP_COLOR_LUT_BANK →
     Does (.composerUe g u) s fun t => t.comps = s.comps ∧ t.get (compB g) ⟨0x1C, 6, 1⟩ = 1)

/-- The fence deadline of a G layer of an output that is no member is recorded for its frame. A doorbell write with no window write held
first flushes every entry of the combining buffer and then sets the doorbell; behind held writes it is held with them. A line that a
working Finano direction carries is recorded with its frame for its tag, and counted on its link. -/
def Obligations.FencesAndLines : Prop :=
  (∀ (g : Fin 96) (k : Bool) (s : State), s.present (g / 16 + 1) = true → s.outMember g = false →
     Does (.fenceDeadline g k) s fun t => (t.layer g (if k then 3 else 2)).deadline = true) ∧
  (∀ (g : Fin 96) (k : Bool) (s : State), s.outMember g = true → exec (.fenceDeadline g k) s = .next s) ∧
  (∀ (g : Fin 96) (k : Bool) (v : Word) (s : State), s.present (g / 16 + 1) = true → s.silo.held = [] →
     Does (.fenceDoorbell g k v) s fun t => t.rd (doorbellA g (if k then 3 else 2)) = v ∧ t.silo.combining = [] ∧ t.eff = s.eff) ∧
  (∀ (g : Fin 96) (k : Bool) (v : Word) (s : State), s.present (g / 16 + 1) = true → s.silo.held ≠ [] →
     Does (.fenceDoorbell g k v) s fun t => t.rd (doorbellA g (if k then 3 else 2)) = s.rd (doorbellA g (if k then 3 else 2)) ∧
       t.silo = { s.silo with held := s.silo.held ++ [(513, doorbellA g (if k then 3 else 2), leBytes 4 v.toNat)] } ∧ t.mem = s.mem) ∧
  (∀ (sheaf : Fin 8) (dir : Bool) (l : FinLine) (ue : Bool) (s : State), s.sheafUp sheaf = true →
     s.is flB (linkBit sheaf dir 0) = true ∨ s.is flB (linkBit sheaf dir 1) = true →
     Does (.finanoLine sheaf dir l ue) s fun t =>
       tget (0, 0) t.floor.order (sheaf * 8192 + b2n (!dir) * 4096 + l.tag) = (l.line, l.frame)) ∧
  (∀ (sheaf : Fin 8) (dir : Bool) (l : FinLine) (ue : Bool) (s : State), s.is flB (linkBit sheaf dir 0) = false →
     s.is flB (linkBit sheaf dir 1) = false → exec (.finanoLine sheaf dir l ue) s = .next s)

/-- The instant of a frame is its start less the context's delay. Where the source is not frozen and no picture lies at or before the
instant, a slot that holds a context delivers the newest picture it holds, and does nothing where it holds none; where none follows it,
it delivers the newest and its state is 3; between two pictures it converts for the instant, unless it still holds after a loss, and its
state is 2. A frozen source leaves state 3. A late frame is marked. An unlocked context remembers the class of the next picture that is
complete and not classed, or locks to a cadence. A fault of an engine that holds contexts makes them repeat from the next line on. A
slot without a context does nothing. -/
def Obligations.RateConversion : Prop :=
  (∀ (e : Fin 8) (c : Fin 2) (f : ConvFrame) (v : CvView) (q : Option CvView) (s : State), s.slotUsed e c = true →
     s.srcFrozen (s.get (ctxA e c) F.CTX_KEY_SRC) = false →
     around (f.start - s.get (ctxA e c) F.CTX_DELAY_NS) (s.ctxViews e c) = (none, q) → newestView (s.ctxViews e c) = some v →
     Does (.converterFrame e c f) s fun t =>
       (t.ctx e c).out = v.rows (s.is (ctxA e c) F.CTX_KEY_SRC_INTERLACED) ∧ (t.ctx e c).shown = some v.inst) ∧
  (∀ (e : Fin 8) (c : Fin 2) (f : ConvFrame) (v va : CvView) (s : State), s.slotUsed e c = true →
     s.srcFrozen (s.get (ctxA e c) F.CTX_KEY_SRC) = false →
     around (f.start - s.get (ctxA e c) F.CTX_DELAY_NS) (s.ctxViews e c) = (some va, none) → newestView (s.ctxViews e c) = some v →
     Does (.converterFrame e c f) s fun t => t.get (ctxA e c) F.CTX_STAT_STATE = 3 ∧
       (t.ctx e c).out = v.rows (s.is (ctxA e c) F.CTX_KEY_SRC_INTERLACED) ∧ (t.ctx e c).shown = some v.inst) ∧
  (∀ (e : Fin 8) (c : Fin 2) (f : ConvFrame) (q : Option CvView) (s : State), s.slotUsed e c = true →
     s.srcFrozen (s.get (ctxA e c) F.CTX_KEY_SRC) = false →
     around (f.start - s.get (ctxA e c) F.CTX_DELAY_NS) (s.ctxViews e c) = (none, q) → newestView (s.ctxViews e c) = none →
     exec (.converterFrame e c f) s = .next s) ∧
  (∀ (e : Fin 8) (c : Fin 2) (f : ConvFrame) (s : State), s.slotUsed e c = true → s.srcFrozen (s.get (ctxA e c) F.CTX_KEY_SRC) = true →
     Does (.converterFrame e c f) s fun t => t.get (ctxA e c) F.CTX_STAT_STATE = 3) ∧
  (∀ (e : Fin 8) (c : Fin 2) (f : ConvFrame) (va vb : CvView) (s : State), s.slotUsed e c = true →
     s.srcFrozen (s.get (ctxA e c) F.CTX_KEY_SRC) = false →
     around (f.start - s.get (ctxA e c) F.CTX_DELAY_NS) (s.ctxViews e c) = (some va, some vb) →
     s.get (ctxA e c) F.CTX_STAT_STATE ≠ 3 ∨ (s.srcDelivers (s.get (ctxA e c) F.CTX_KEY_SRC) = true ∧ va.fresh = true ∧ vb.fresh = true) →
     Does (.converterFrame e c f) s fun t => (t.ctx e c).shown = some (f.start - s.get (ctxA e c) F.CTX_DELAY_NS) ∧
       (t.ctx e c).warm = false ∧ t.get (ctxA e c) F.CTX_STAT_STATE = 2) ∧
  (∀ (e : Fin 8) (c : Fin 2) (s : State), s.slotUsed e c = true → Does (.frameLate e c) s fun t => (t.ctx e c).late = true) ∧
  (∀ (e : Fin 8) (c : Fin 2) (f : ConvFrame) (i k : Nat) (s : State), s.slotUsed e c = false →
     exec (.converterFrame e c f) s = .next s ∧ exec (.frameLate e c) s = .next s ∧ exec (.cadencePicture e c i k) s = .next s) ∧
  (∀ (e : Fin 8) (c : Fin 2) (p : CvPic) (k : Nat) (prev : Option CvPic) (s : State), s.slotUsed e c = true →
     s.get (ctxA e c) F.CTX_KEY_SRCMODE = 1 → s.get (ctxA e c) F.CTX_STAT_CADENCE = 0 → s.cadenceNext e c = some (p, k, prev) →
     Does (.cadencePicture e c p.id k) s fun t => t.get (ctxA e c) F.CTX_STAT_CADENCE ≠ 0 ∧ (t.ctx e c).pattern = [] ∨
       (t.ctx e c).pattern = (s.cadenceRepeat e c p k prev :: (s.ctx e c).pattern).take 75 ∧ t.regs = s.regs) ∧
  (∀ (e : Fin 8) (c : Fin 2) (i k : Nat) (s : State), s.cadenceNext e c = none → exec (.cadencePicture e c i k) s = .next s) ∧
  (∀ (e : Fin 8) (array : Fin 3) (index : Fin 512) (s : State), s.slotUsed e 0 = true ∨ s.slotUsed e 1 = true →
     Does (.engineFault e array index) s fun t => (t.ctx e 0).out = (s.ctx e 0).rep ∧ (t.ctx e 1).out = (s.ctx e 1).rep) ∧
  (∀ (e : Fin 8) (array : Fin 3) (index : Fin 512) (s : State), s.slotUsed e 0 = false → s.slotUsed e 1 = false →
     Does (.engineFault e array index) s fun t => t.conv = s.conv)

/-- Every system sample counts one. A switch of a destination shows the number of its routes and changes no value in effect. A generator's
word is stored with frequency and level confined to their ranges and acts from the sample count of the write. A converter group that
locks in range reads state 2 with its ratio; unlocked it acquires again in range and is out of range otherwise. A context that follows
nothing is of class 0; one whose ledger is unknown is held, in class 3. -/
def Obligations.AudioRouter : Prop :=
  (∀ (k : AudTick) (s : State), Does (.audioSample k) s fun t => t.aud.count = s.aud.count + 1 ∧ t.eff = s.eff) ∧
  (∀ (d : Fin 4096) (s : State), Does (.audioSwitch d) s fun t => t.eff = s.eff ∧
     t.get (destStatA d) F.DEST_STAT_ROUTES = min 8 (s.routesOf d).length) ∧
  (∀ (k : Fin 16) (v : Word) (s : State), s.present 0 = true → Does (.genCfgWrite k v) s fun t =>
     t.rd (arB + 0x100 + 4 * k) = fldSet (fldSet (v &&& 0x0FFFFFFF) 2 15 (clampN 20 20000 (fldGet v 2 15))) 17 11 (min 1000 (fldGet v 17 11)) ∧
     OnlyRegs [arB + 0x100 + 4 * k.val] s t ∧ t.aud.count = s.aud.count) ∧
  (∀ (k : Fin 96) (ppb : Int) (s : State), s.effGet (asrcB k) F.ASRC_CFG_COUNT ≠ 0 → ppb.natAbs ≤ 1000000 →
     Does (.asrcLock k ppb) s fun t => t.get (asrcB k) F.ASRC_STAT_STATE = 2 ∧ t.eff = s.eff) ∧
  (∀ (k : Fin 96) (ppb : Option Int) (s : State), s.effGet (asrcB k) F.ASRC_CFG_COUNT ≠ 0 →
     Does (.asrcUnlock k ppb) s fun t => t.get (asrcB k) F.ASRC_STAT_STATE =
       match ppb with
       | some p => if p.natAbs ≤ 1000000 then 1 else 3
       | none => 1) ∧
  (∀ (k : Fin 96) (p : Int) (q : Option Int) (s : State), s.effGet (asrcB k) F.ASRC_CFG_COUNT = 0 →
     exec (.asrcLock k p) s = .next s ∧ exec (.asrcUnlock k q) s = .next s) ∧
  (∀ (n : Fin 16384) (s : State), s.audEnabled.contains n = true → s.effIs (rtA n) F.ROUTE_TIME_AUTO = true →
     s.followed (s.audDst n) = none → Does (.autoDelayUpdate n) s fun t => (t.actx n).cls = 0 ∧ (t.actx n).applied = (s.actx n).applied) ∧
  (∀ (n : Fin 16384) (p : Nat × Nat) (s : State), s.audEnabled.contains n = true → s.effIs (rtA n) F.ROUTE_TIME_AUTO = true →
     s.followed (s.audDst n) = some p → (∀ c, s.inUse n = some c → audIsGen c = false) → s.followedLedger p = 0xFFFFFFFF →
     Does (.autoDelayUpdate n) s fun t => (t.actx n).cls = 3 ∧ (t.actx n).held = true)

/-- A control packet that a delivering receiver parses records its group and its rate; a data packet records its group; a group beyond those
of the rate is no packet. The measured rate of a locked receiver is shown, and it counts as asynchronous where it leaves the limit. The
limiter assist shows the metered level in 0.1 steps, at most 2047, and the attenuation by which it exceeds the threshold, or zeros while
it is off. -/
def Obligations.EmbeddedAudio : Prop :=
  (∀ (g : Fin 96) (k : Fin 8) (r : AudRate) (s : State), s.rxUp g = true → s.inBonded g = false → (s.rx g).delivering = true →
     k.val < s.inGroups g →
     Does (.audioPacketReceived g (.control k r)) s fun t => bitN (t.deemb g).found k = true ∧ bitN (t.deemb g).ctrl k = true ∧
       (t.deemb g).rates.getD k .sync48 = r) ∧
  (∀ (g : Fin 96) (k : Fin 8) (ecc : Fin 3) (short : Bool) (l : List AudSmp) (s : State), s.rxUp g = true → s.inBonded g = false →
     (s.rx g).delivering = true → k.val < s.inGroups g →
     Does (.audioPacketReceived g (.data k ecc short l)) s fun t => bitN (t.deemb g).found k = true) ∧
  (∀ (g : Fin 96) (p : AudPkt) (s : State), s.inBonded g = false → s.inGroups g ≤ audGroup p →
     exec (.audioPacketReceived g p) s = .next s) ∧
  (∀ (g : Fin 96) (p : AudPkt) (s : State), s.rxUp g = false → exec (.audioPacketReceived g p) s = .next s) ∧
  (∀ (g : Fin 96) (ppb : Int) (s : State), s.rxUp g = true →
     Does (.deembRateMeasure g ppb) s fun t => t.get (audB g) F.DEEMB_RATE_PPB = unsgn 32 ppb ∧
       t.is (audB g) F.DEEMB_STAT_ASYNC = decide (100 * max 1 (s.get arB F.AR_CFG_ASYNC_TENTHS_PPM) < ppb.natAbs)) ∧
  (∀ s : State, s.is arB F.LIM_CFG_EN = true → Does .limiterUpdate s fun t =>
     t.get arB F.LIM_STAT_LEVEL = min 2047 ((s.limValue + 5) / 10) ∧ t.eff = s.eff ∧ t.aud = s.aud) ∧
  (∀ s : State, s.is arB F.LIM_CFG_EN = false → Does .limiterUpdate s fun t =>
     t.get arB F.LIM_STAT_LEVEL = 0 ∧ t.get arB F.LIM_STAT_VALID = 0 ∧ t.get arB F.LIM_SUGGEST_ATTEN = 0)

/-- A pop discards the head of the host receive queue and the queue's count follows. A send with a legal length and no frame waiting takes
the window's bytes and is busy; while busy it does nothing. The frame's sending ends the busy time. A frame that arrives on a port that
is not up changes nothing; one that does not fit and one with a bad check sequence are counted; a good frame for the host enters the
host receive queue. An optics transfer joins its controller's queue, and its end takes it off and shows whether it was acknowledged.
Module presence, module interrupt and link follow their pins. An uncorrectable table word sets the fault, and an entry of a context or
channel table is given up. -/
def Obligations.HostQueuesAndLinks : Prop :=
  (∀ (n : Fin 4) (s : State), s.present 0 = true → Does (.hqrPop n) s fun t =>
     t.hqr n = (s.hqr n).drop 1 ∧ t.get (ipB n 14) F.HQR_STAT_COUNT = min 255 ((s.hqr n).length - 1) ∧ t.eff = s.eff) ∧
  (∀ (n : Fin 4) (v : Word) (s : State), s.present 0 = true → s.is (ipB n 15) F.HQT_STAT_BUSY = false →
     60 ≤ fldGet v 0 12 → fldGet v 0 12 ≤ 2048 → Does (.hqtSend n v) s fun t =>
       t.is (ipB n 15) F.HQT_STAT_BUSY = true ∧ tget [] t.ip.hqt n = s.window8 (ipB n 15 + 0x800) (fldGet v 0 12) ∧ t.eff = s.eff) ∧
  (∀ (n : Fin 4) (v : Word) (s : State), s.present 0 = true → s.is (ipB n 15) F.HQT_STAT_BUSY = true → exec (.hqtSend n v) s = .next s) ∧
  (∀ (n : Fin 4) (ts : Nat) (s : State), s.is (ipB n 15) F.HQT_STAT_BUSY = true → Does (.hqtSent n ts) s fun t =>
     t.is (ipB n 15) F.HQT_STAT_BUSY = false ∧ tget [] t.ip.hqt n = []) ∧
  (∀ (n : Fin 4) (ts : Nat) (s : State), s.is (ipB n 15) F.HQT_STAT_BUSY = false → exec (.hqtSent n ts) s = .next s) ∧
  (∀ (n : Fin 4) (f : EthFrame) (s : State), s.portUp n = false → exec (.ethFrameReceived n f) s = .next s) ∧
  (∀ (n : Fin 4) (f : EthFrame) (s : State), s.portUp n = true → f.fits = false →
     exec (.ethFrameReceived n f) s = .next ((s.bump (ipB n 0) F.CNT_RX_OVERFLOW_COUNT).ipCause n 22)) ∧
  (∀ (n : Fin 4) (f : EthFrame) (s : State), s.portUp n = true → f.fits = true → (f.fcsOk = false ∨ f.bytes.length < 60) →
     exec (.ethFrameReceived n f) s = .next (s.bump (ipB n 0) F.CNT_RX_FCS_COUNT)) ∧
  (∀ (n : Fin 4) (f : EthFrame) (s : State), s.portUp n = true → f.fits = true → f.fcsOk = true → 60 ≤ f.bytes.length → f.bytes.length ≤ 2048 →
     beAt f.bytes 12 2 ≠ 0x8808 → s.is (ipB n 2) F.MS_CFG_EN = false → beAt f.bytes 0 6 = s.portMac n → udpOf f.bytes = none →
     s.forHost n f.bytes = true → sumN ((s.hqr n).map fun p => p.1.length) + f.bytes.length ≤ 32768 →
     Does (.ethFrameReceived n f) s fun t => t.hqr n = s.hqr n ++ [(f.bytes, f.ts)] ∧
       t.get (ipB n 0) F.CNT_RX_FRAMES_COUNT = min 0xFFFFFFFF (s.get (ipB n 0) F.CNT_RX_FRAMES_COUNT + 1)) ∧
  (∀ (n : Fin 4) (v : Word) (s : State), s.present 0 = true → Does (.optTransferStart n v) s fun t =>
     t.is (ipB n 3) F.OPT_STAT_BUSY = true ∧ t.i2cQ n = s.i2cQ n ++ [(n.val, (mergeWord (s.rd (ipB n 3 + 4)) v 0x1FFFF).toNat)]) ∧
  (∀ (n : Fin 4) (r : Option (List Byte)) (w : Nat) (l : List (Nat × Nat)) (s : State), s.i2cQ n = (n.val, w) :: l →
     Does (.optTransferDone n r) s fun t => t.i2cQ n = l ∧ t.is (ipB n 3) F.OPT_STAT_NACK = r.isNone) ∧
  (∀ (n : Fin 4) (r : Option (List Byte)) (s : State), s.i2cQ n = [] → exec (.optTransferDone n r) s = .next s) ∧
  (∀ (n : Fin 4) (b : Bool) (s : State), s.is (ipB n 0) F.PORT_STAT_MOD_PRESENT ≠ b → Does (.modChange n b) s fun t =>
     t.is (ipB n 0) F.PORT_STAT_MOD_PRESENT = b ∧ t.eff = s.eff) ∧
  (∀ (n : Fin 4) (b : Bool) (s : State), s.is (ipB n 0) F.PORT_STAT_MOD_PRESENT = b → exec (.modChange n b) s = .next s) ∧
  (∀ (n : Fin 4) (b : Bool) (s : State), Does (.modInt n b) s fun t => t.is (ipB n 0) F.PORT_STAT_MOD_INT = b ∧ t.eff = s.eff) ∧
  (∀ (n : Fin 4) (s : State), s.is (ipB n 0) F.PORT_STAT_LINK = false → Does (.linkUp n) s fun t =>
     t.is (ipB n 0) F.PORT_STAT_LINK = true ∧ t.is (ipB n 0) F.PORT_STAT_ALIGNED = true ∧ t.eff = s.eff) ∧
  (∀ (n : Fin 4) (b : Bool) (s : State), s.is (ipB n 0) F.PORT_STAT_LINK = true → Does (.linkDown n b) s fun t =>
     t.is (ipB n 0) F.PORT_STAT_LINK = false ∧ t.is (ipB n 0) F.PORT_STAT_ALIGNED = b ∧ t.eff = s.eff) ∧
  (∀ (n : Fin 4) (b : Bool) (s : State), s.is (ipB n 0) F.PORT_STAT_LINK = true → s.candActive (8 + n) = true →
     Does (.linkDown n b) s fun t => t.candActive (8 + n) = false ∧ t.candQualified (8 + n) = false) ∧
  (∀ (n : Fin 4) (array : Fin 6) (i : Fin 512) (s : State), array.val < 3 →
     Does (.ipTableUe n array i) s fun t => t.entryDead n array (if array.val = 2 then i.val % 32 else i.val % 256) = true) ∧
  (∀ (n : Fin 4) (array : Fin 6) (i : Fin 512) (s : State), 3 ≤ array.val →
     Does (.ipTableUe n array i) s fun t => t.is (ipB n 0) F.STAT_FAULT = true)

/-- The time-out of a video set ends it: the next set starts after the marker that ended it. A delivering stream that is lost reads state 3;
a leg that times out is lost; an audio stream is asynchronous where its measured rate leaves the limit. A video context's frame starts
with no packet sent; each packet advances its sequence number and, for video, the count of the frame. An Announce in the domain is kept;
a Sync of the parent is kept, and its Follow_Up completes it; a Delay_Resp that answers the open request gives the path delay; a master
that times out is dropped; a Delay_Req records its number and instant. A command that does not apply changes nothing. -/
def Obligations.MediaContexts : Prop :=
  (∀ (c : Fin 1024) (a m : Nat) (s : State), s.rxType c = 1 ∨ s.rxType c = 4 → (s.irx c).start = some a → (s.irx c).markers = [m] →
     (s.irx c).held = [] → Does (.rxFrameTimeout c) s fun t => (t.irx c).start = some (m + 1) ∧ (t.irx c).markers = [] ∧
       (t.irx c).prev = some (a, m)) ∧
  (∀ (c : Fin 1024) (s : State), (s.irx c).markers = [] → exec (.rxFrameTimeout c) s = .next s) ∧
  (∀ (c : Fin 1024) (s : State), s.rxType c ≠ 0 → s.get (rxA c) F.RX_STAT_STATE = 2 →
     Does (.rxStreamLost c) s fun t => t.get (rxA c) F.RX_STAT_STATE = 3 ∧ t.eff = s.eff) ∧
  (∀ (c : Fin 1024) (b : Bool) (ppb : Int) (s : State), s.get (rxA c) F.RX_STAT_STATE ≠ 2 →
     exec (.rxStreamLost c) s = .next s ∧ exec (.legTimeout c b) s = .next s ∧ exec (.rxAsyncMeasure c ppb) s = .next s) ∧
  (∀ (c : Fin 1024) (b : Bool) (s : State), s.get (rxA c) F.RX_STAT_STATE = 2 → s.rxType c ≠ 0 → s.rxLegOn c (if b then 1 else 0) = true →
     bitN (s.irx c).lost (if b then 1 else 0) = false →
     Does (.legTimeout c b) s fun t => bitN (t.irx c).lost (if b then 1 else 0) = true ∧ t.eff = s.eff) ∧
  (∀ (c : Fin 1024) (ppb : Int) (s : State), s.rxType c = 2 ∨ s.rxType c = 3 → s.get (rxA c) F.RX_STAT_STATE = 2 →
     Does (.rxAsyncMeasure c ppb) s fun t =>
       t.is (rxA c) F.RX_STAT_ASYNC = decide (100 * max 1 (s.get arB F.AR_CFG_ASYNC_TENTHS_PPM) < ppb.natAbs) ∧ t.eff = s.eff) ∧
  (∀ (c : Fin 1024) (k : Nat) (d : Int) (s : State), s.partWords (txWord c) = [] → (s.route 1 c).due = 0 → s.txType c = 1 →
     Does (.txFrameStart c k d) s fun t => (t.itx c).sent = 0 ∧ (t.itx c).seq = (s.itx c).seq) ∧
  (∀ (c : Fin 1024) (k : Nat) (d : Int) (s : State), s.partWords (txWord c) = [] → (s.route 1 c).due = 0 → s.txType c ≠ 1 →
     exec (.txFrameStart c k d) s = .next s) ∧
  (∀ (c : Fin 1024) (na nb : Nat) (s : State), s.txType c = 1 → (s.itx c).what ≠ 2 →
     (s.itx c).sent < fieldPackets (s.txFmtWord c) * fieldsOf (s.txFmtWord c) →
     Does (.txPacketSend c na nb) s fun t => (t.itx c).seq = ((s.itx c).seq + 1) % 2 ^ 32 ∧ (t.itx c).sent = (s.itx c).sent + 1) ∧
  (∀ (c : Fin 1024) (na nb : Nat) (s : State), s.txType c ≠ 1 ∨ (s.itx c).what = 2 → exec (.txPacketSend c na nb) s = .next s) ∧
  (∀ (c : Fin 1024) (n : Nat) (s : State), s.txType c = 2 ∨ s.txType c = 3 → n % audPacket (s.txType c) (s.txAudWord c) = 0 →
     Does (.txAudioPacket c n) s fun t => (t.itx c).seq = ((s.itx c).seq + 1) % 2 ^ 32) ∧
  (∀ (c : Fin 1024) (n : Nat) (s : State), n % audPacket (s.txType c) (s.txAudWord c) ≠ 0 → exec (.txAudioPacket c n) s = .next s) ∧
  (∀ (n : Fin 4) (d : Byte) (a : Announce) (s : State), s.is (ipB n 1) F.PTP_CFG_EN = true → s.portUp n = true →
     d.toNat = s.get (ipB n 1) F.PTP_CFG_DOMAIN → s.ptpAccepts n a.sender = true →
     Does (.ptpMessage n (.announce d a)) s fun t => a ∈ (t.ptp n).masters) ∧
  (∀ (n : Fin 4) (d : Byte) (sender port seq : Nat) (two : Bool) (t1 t2 : Int) (s : State), s.is (ipB n 1) F.PTP_CFG_EN = true →
     s.portUp n = true → d.toNat = s.get (ipB n 1) F.PTP_CFG_DOMAIN → s.ptpAccepts n sender = true →
     2 ≤ s.get (ipB n 1) F.PTP_STAT_STATE → s.ptpParent n = (sender, port) →
     Does (.ptpMessage n (.sync d sender port seq two t1 t2)) s fun t => (t.ptp n).sync = some (seq, if two then none else some t1, t2)) ∧
  (∀ (n : Fin 4) (d : Byte) (sender port seq : Nat) (t1 t2 : Int) (s : State), s.is (ipB n 1) F.PTP_CFG_EN = true →
     s.portUp n = true → d.toNat = s.get (ipB n 1) F.PTP_CFG_DOMAIN → s.ptpAccepts n sender = true →
     2 ≤ s.get (ipB n 1) F.PTP_STAT_STATE → s.ptpParent n = (sender, port) → (s.ptp n).sync = some (seq, none, t2) →
     Does (.ptpMessage n (.followUp d sender port seq t1)) s fun t => (t.ptp n).sync = some (seq, some t1, t2)) ∧
  (∀ (n : Fin 4) (d : Byte) (sender port seq k : Nat) (t1 t2 t3 t4 : Int) (s : State), s.is (ipB n 1) F.PTP_CFG_EN = true →
     s.portUp n = true → d.toNat = s.get (ipB n 1) F.PTP_CFG_DOMAIN → s.ptpAccepts n sender = true →
     2 ≤ s.get (ipB n 1) F.PTP_STAT_STATE → s.ptpParent n = (sender, port) → (s.ptp n).req = some (seq, t3) →
     (s.ptp n).sync = some (k, some t1, t2) →
     Does (.ptpMessage n (.delayResp d sender port seq t4)) s fun t =>
       (t.ptp n).delay = some (((t2 - t1) + (t4 - t3)) / 2) ∧ (t.ptp n).req = none) ∧
  (∀ (n : Fin 4) (m : PtpMsg) (t3 : Int) (s : State), s.is (ipB n 1) F.PTP_CFG_EN = false →
     exec (.ptpMessage n m) s = .next s ∧ exec (.delayReq n t3) s = .next s) ∧
  (∀ (n : Fin 4) (sender : Nat) (s : State), (s.ptp n).masters.any (fun a => a.sender == sender) = true →
     Does (.announceTimeout n sender) s fun t => (t.ptp n).masters = (s.ptp n).masters.filter fun a => a.sender != sender) ∧
  (∀ (n : Fin 4) (sender : Nat) (s : State), (s.ptp n).masters.any (fun a => a.sender == sender) = false →
     exec (.announceTimeout n sender) s = .next s) ∧
  (∀ (n : Fin 4) (t3 : Int) (s : State), s.is (ipB n 1) F.PTP_CFG_EN = true → 2 ≤ s.get (ipB n 1) F.PTP_STAT_STATE →
     Does (.delayReq n t3) s fun t => (t.ptp n).req = some ((s.ptp n).reqSeq, t3) ∧ (t.ptp n).reqSeq = ((s.ptp n).reqSeq + 1) % 65536)

/-- A channel whose failure cause is met, or that the host fails, reads state 3 with that reason; a cause that is not met changes nothing. A
failed channel enters erasure once. A restore of a failed channel asks for its training; a good training brings a channel into service,
or starts the rebuild of a restored one; a failed training keeps it failed with reason 1. The end of a rebuild returns its channel to
service. The self-test ends initialisation with all contents zero. A refresh command goes out on a channel that is in service. An
uncorrectable queue word fails the channel, marks the next burst, spoils the stripe's check bytes or drops the poison entry. -/
def Obligations.MemoryChannels : Prop :=
  (∀ (c : Fin 12) (s : State), s.get (mcB c) F.MC_STAT_STATE ≠ 3 →
     (Does (.channelFailCause c 2) s fun t => t.get (mcB c) F.MC_STAT_STATE = 3 ∧ t.get (mcB c) F.MC_STAT_REASON = 2) ∧
     (max 1 (s.get (mcB c) F.MC_THRESH_UE_FAIL) ≤ tget 0 s.mem.ueWin c → Does (.channelFailCause c 3) s fun t =>
       t.get (mcB c) F.MC_STAT_STATE = 3 ∧ t.get (mcB c) F.MC_STAT_REASON = 3) ∧
     (max 1 (s.get (mcB c) F.MC_THRESH_CE_FAIL) ≤ tget 0 s.mem.ceWin c → Does (.channelFailCause c 4) s fun t =>
       t.get (mcB c) F.MC_STAT_STATE = 3 ∧ t.get (mcB c) F.MC_STAT_REASON = 4)) ∧
  (∀ (c : Fin 12) (reason : Fin 8) (s : State), reason ≠ 2 → reason ≠ 3 → reason ≠ 4 → exec (.channelFailCause c reason) s = .next s) ∧
  (∀ (c : Fin 12) (s : State), s.get (mcB c) F.MC_STAT_STATE = 3 → s.chErased c = false →
     Does (.erasureEntry c) s fun t => t.chErased c = true) ∧
  (∀ (c : Fin 12) (s : State), s.get (mcB c) F.MC_STAT_STATE ≠ 3 ∨ s.chErased c = true → exec (.erasureEntry c) s = .next s) ∧
  (∀ (c : Fin 12) (s : State), Does (.ceWindowEnd c) s fun t => tget 0 t.mem.ceWin c = 0 ∧ tget 0 t.mem.ueWin c = 0 ∧
     t.mem.cells = s.mem.cells ∧ t.regs = s.regs) ∧
  (∀ (c : Fin 12) (s : State), s.present 0 = true → s.get (mcB c) F.MC_STAT_STATE ≠ 3 →
     Does (.mcFail c) s fun t => t.get (mcB c) F.MC_STAT_STATE = 3 ∧ t.get (mcB c) F.MC_STAT_REASON = 5) ∧
  (∀ (c : Fin 12) (s : State), s.present 0 = true → s.get (mcB c) F.MC_STAT_STATE = 3 → exec (.mcFail c) s = .next s) ∧
  (∀ (c : Fin 12) (s : State), s.present 0 = true → s.get (mcB c) F.MC_STAT_STATE = 3 → s.is (mcB 0) F.MEM_STAT_LOST = false →
     s.is wnB F.WN_REBUILD_STAT_ACTIVE = false → s.mem.restoring = 0 →
     Does (.mcRestore c) s fun t => bitN t.mem.restoring c = true ∧ t.regs = s.regs ∧ t.mem.cells = s.mem.cells) ∧
  (∀ (c : Fin 12) (s : State), s.present 0 = true → s.get (mcB c) F.MC_STAT_STATE ≠ 3 ∨ s.is wnB F.WN_REBUILD_STAT_ACTIVE = true →
     exec (.mcRestore c) s = .next s) ∧
  (∀ s : State, s.is wnB F.WN_REBUILD_STAT_ACTIVE = true → s.stripes ≤ s.mem.rebuildPos → s.get wnB F.WN_REBUILD_STAT_CHANNEL < 12 →
     Does .rebuildDone s fun t => t.get (mcB (s.get wnB F.WN_REBUILD_STAT_CHANNEL)) F.MC_STAT_STATE = 2 ∧
       t.is wnB F.WN_REBUILD_STAT_ACTIVE = false ∧ t.chErased (s.get wnB F.WN_REBUILD_STAT_CHANNEL) = false) ∧
  (∀ s : State, s.is wnB F.WN_REBUILD_STAT_ACTIVE = false ∨ s.mem.rebuildPos < s.stripes → exec .rebuildDone s = .next s) ∧
  (∀ (c : Fin 12) (rd wr : Fin 256) (v : Fin 64) (s : State), s.get (mcB c) F.MC_STAT_STATE = 1 → bitN s.mem.restoring c = false →
     13 ≤ rd.val → 13 ≤ wr.val → Does (.memTrainingDone c rd wr v) s fun t => t.get (mcB c) F.MC_STAT_STATE = 2 ∧
       t.get (mcB c) F.MC_TRAIN_RD_EYE = rd ∧ t.get (mcB c) F.MC_TRAIN_WR_EYE = wr ∧ t.get (mcB c) F.MC_TRAIN_VREF = v) ∧
  (∀ (c : Fin 12) (rd wr : Fin 256) (v : Fin 64) (s : State), s.get (mcB c) F.MC_STAT_STATE = 1 → bitN s.mem.restoring c = false →
     rd.val < 13 ∨ wr.val < 13 → Does (.memTrainingDone c rd wr v) s fun t =>
       t.get (mcB c) F.MC_STAT_STATE = 3 ∧ t.get (mcB c) F.MC_STAT_REASON = 1) ∧
  (∀ (c : Fin 12) (rd wr : Fin 256) (v : Fin 64) (s : State), bitN s.mem.restoring c = true → 13 ≤ rd.val → 13 ≤ wr.val →
     Does (.memTrainingDone c rd wr v) s fun t => t.get (mcB c) F.MC_STAT_STATE = 4 ∧ t.is wnB F.WN_REBUILD_STAT_ACTIVE = true ∧
       t.get wnB F.WN_REBUILD_STAT_CHANNEL = c ∧ t.mem.rebuildPos = 0 ∧ t.chErased c = true) ∧
  (∀ (c : Fin 12) (rd wr : Fin 256) (v : Fin 64) (s : State), s.get (mcB c) F.MC_STAT_STATE ≠ 1 → bitN s.mem.restoring c = false →
     exec (.memTrainingDone c rd wr v) s = .next s) ∧
  (∀ (l : List Nat) (ms : Nat) (s : State), (∀ c, c < 12 → 2 ≤ s.get (mcB c) F.MC_STAT_STATE) → s.is (mcB 0) F.MEM_STAT_INIT_DONE = false →
     s.stopped (mcB 0) = false → Does (.selftestDone l ms) s fun t =>
       t.is (mcB 0) F.MEM_STAT_INIT_DONE = true ∧ t.mem.cells = [] ∧ t.mem.poison = [] ∧ t.mem.cold = false) ∧
  (∀ (l : List Nat) (ms : Nat) (s : State), s.is (mcB 0) F.MEM_STAT_INIT_DONE = true → exec (.selftestDone l ms) s = .next s) ∧
  (∀ (c : Fin 12) (r : Refresh) (s : State), s.get (mcB c) F.MC_STAT_STATE = 2 ∨ s.get (mcB c) F.MC_STAT_STATE = 4 →
     Does (.memRefresh c r) s fun t => t.out = s.out ++ [.dram c r] ∧ t.regs = s.regs ∧ t.mem = s.mem) ∧
  (∀ (c : Fin 12) (r : Refresh) (s : State), s.get (mcB c) F.MC_STAT_STATE ≠ 2 → s.get (mcB c) F.MC_STAT_STATE ≠ 4 →
     exec (.memRefresh c r) s = .next s) ∧
  (∀ (c : Fin 12) (i : Fin 512) (s : State), s.get (mcB c) F.MC_STAT_STATE ≠ 3 →
     Does (.memQueueUe (.command c i)) s fun t => t.get (mcB c) F.MC_STAT_STATE = 3 ∧ t.get (mcB c) F.MC_STAT_REASON = 7) ∧
  (∀ (c : Fin 12) (i : Fin 512) (s : State), Does (.memQueueUe (.readData c i)) s fun t =>
     bitN t.mem.badBurst c = true ∧ t.is (mcB c) F.STAT_FAULT = true ∧ t.mem.cells = s.mem.cells) ∧
  (∀ (c : Fin 12) (i : Fin 512) (stripe : Nat) (s : State), stripe < s.stripes →
     Does (.memQueueUe (.writeData c i stripe)) s fun t => t.is (mcB c) F.STAT_FAULT = true ∧
       (∀ w, w < 8 → cellGet t.mem.cells (cellKey c (8 * stripe + w) 8) = 0x5A ^^^ 0x7F) ∧
       ∀ k, (∀ w, w < 8 → k ≠ cellKey c (8 * stripe + w) 8) → cellGet t.mem.cells k = cellGet s.mem.cells k) ∧
  (∀ (e : Fin 4096) (s : State), Does (.memQueueUe (.poison e)) s fun t => t.mem.poison = s.mem.poison.filter (fun p => p.1 != e.val) ∧
     t.mem.cells = s.mem.cells)

/-- A read of a stripe answers its decoded bytes, or nothing where the memory is lost. A write of a whole stripe stores each data word with
its check byte on its channel, and a write of any part changes no byte outside its stripe. A walk of Winnow visits the next stripe and
wraps with a new pass; a rebuild moves to its next stripe. Raw mode opens with its key alone and ends again; while it is open, a raw
write stores exactly one word with the given check byte and a raw read shows one. -/
def Obligations.MemoryAccesses : Prop :=
  (∀ (who : MemReader) (stripe : Nat) (first count : Fin 11) (h : List MemHit) (s : State), stripe < s.stripes → first.val + count.val ≤ 10 →
     Does (.memoryRead who stripe first count h) s fun t =>
       t.out = s.out ++ [.memData stripe ((s.applyHits stripe h).stripeData stripe first count).2]) ∧
  (∀ (who : MemReader) (stripe : Nat) (first count : Fin 11) (s : State), stripe < s.stripes → first.val + count.val ≤ 10 →
     s.is (mcB 0) F.MEM_STAT_LOST = true → Does (.memoryRead who stripe first count []) s fun t =>
       t.out = s.out ++ [.memData stripe none] ∧ t.mem = s.mem) ∧
  (∀ (who : MemReader) (stripe : Nat) (first count : Fin 11) (h : List MemHit) (s : State), s.stripes ≤ stripe →
     exec (.memoryRead who stripe first count h) s = .next s) ∧
  (∀ (stripe : Nat) (o : Fin 640) (d : List Byte) (k : Nat) (s : State), stripe < s.stripes → o.val + d.length ≤ 640 → d ≠ [] → k / 2048 ≠ stripe →
     Does (.memoryWrite stripe o d) s fun t => cellGet t.mem.cells k = cellGet s.mem.cells k) ∧
  (∀ (stripe : Nat) (d : List Byte) (i w : Nat) (s : State), stripe < s.stripes → d.length = 640 → stripe % 3277 ≠ 3276 → i < 10 → w < 8 →
     s.chWritten (burstChan stripe (i + 2)) = true → Does (.memoryWrite stripe 0 d) s fun t =>
       wordGet t.mem.cells (burstChan stripe (i + 2)) (8 * stripe + w) =
         (ofLe (slice d (64 * i + 8 * w) 8), checkOf (ofLe (slice d (64 * i + 8 * w) 8)) ^^^ 0x5A)) ∧
  (∀ (stripe : Nat) (o : Fin 640) (d : List Byte) (s : State), s.stripes ≤ stripe ∨ 640 < o.val + d.length →
     exec (.memoryWrite stripe o d) s = .next s) ∧
  (∀ (h : List MemHit) (b : Bool) (s : State), s.is (mcB 0) F.MEM_STAT_LOST = false → s.is wnB F.WN_REBUILD_STAT_ACTIVE = false →
     s.is wnB F.WN_CFG_EN = true → s.get wnB F.WN_POS_STRIPE + 1 < s.stripes → s.get wnB F.WN_POS_STRIPE + 1 < 2 ^ 32 →
     Does (.winnowStripe h b) s fun t => t.get wnB F.WN_POS_STRIPE = s.get wnB F.WN_POS_STRIPE + 1) ∧
  (∀ (h : List MemHit) (b : Bool) (s : State), s.is (mcB 0) F.MEM_STAT_LOST = false → s.is wnB F.WN_REBUILD_STAT_ACTIVE = false →
     s.is wnB F.WN_CFG_EN = true → s.get wnB F.WN_POS_STRIPE + 1 = s.stripes →
     Does (.winnowStripe h b) s fun t => t.get wnB F.WN_POS_STRIPE = 0) ∧
  (∀ (h : List MemHit) (b : Bool) (s : State), s.is (mcB 0) F.MEM_STAT_LOST = false → s.is wnB F.WN_REBUILD_STAT_ACTIVE = true →
     s.mem.rebuildPos < s.stripes → Does (.winnowStripe h b) s fun t => t.mem.rebuildPos = s.mem.rebuildPos + 1) ∧
  (∀ (h : List MemHit) (b : Bool) (s : State), s.is (mcB 0) F.MEM_STAT_LOST = true → exec (.winnowStripe h b) s = .next s) ∧
  (∀ (c : Fin 12) (key : Word) (s : State), s.present 0 = true → key = 0xA5C3 →
     Does (.mcRawUnlock c key) s fun t => bitN t.mem.raw c = true ∧ t.regs = s.regs ∧ t.mem.cells = s.mem.cells) ∧
  (∀ (c : Fin 12) (key : Word) (s : State), s.present 0 = true → key ≠ 0xA5C3 → exec (.mcRawUnlock c key) s = .next s) ∧
  (∀ (c : Fin 12) (s : State), Does (.rawModeExpiry c) s fun t => bitN t.mem.raw c = false ∧ t.regs = s.regs ∧ t.mem.cells = s.mem.cells) ∧
  (∀ (c : Fin 12) (s : State), s.present 0 = true → bitN s.mem.raw c = true → s.get (mcB c) F.MC_STAT_STATE ≠ 3 →
     s.get (mcB c) F.MC_RAW_ADDR_WORD < s.memGib * 2 ^ 27 → Does (.mcRawGo c false) s fun t =>
       t.get (mcB c) F.MC_RAW_CHECK_VALUE = (wordGet s.mem.cells c (s.get (mcB c) F.MC_RAW_ADDR_WORD)).2 ∧
       t.get (mcB c) F.MC_RAW_DATA_LO_VALUE = (wordGet s.mem.cells c (s.get (mcB c) F.MC_RAW_ADDR_WORD)).1 % 2 ^ 32 ∧ t.mem = s.mem) ∧
  (∀ (c : Fin 12) (s : State), s.present 0 = true → bitN s.mem.raw c = true → s.get (mcB c) F.MC_STAT_STATE ≠ 3 →
     s.get (mcB c) F.MC_RAW_ADDR_WORD < s.memGib * 2 ^ 27 → Does (.mcRawGo c true) s fun t =>
       wordGet t.mem.cells c (s.get (mcB c) F.MC_RAW_ADDR_WORD) =
         (s.get (mcB c) F.MC_RAW_DATA_LO_VALUE + s.get (mcB c) F.MC_RAW_DATA_HI_VALUE * 2 ^ 32, s.get (mcB c) F.MC_RAW_CHECK_VALUE) ∧
       ∀ k, k / 16 ≠ 16 * s.get (mcB c) F.MC_RAW_ADDR_WORD + c → cellGet t.mem.cells k = cellGet s.mem.cells k) ∧
  (∀ (c : Fin 12) (w : Bool) (s : State), s.present 0 = true → bitN s.mem.raw c = false →
     exec (.mcRawGo c w) s = .next (s.put (mcB c) F.MC_RAW_CTRL_WRITE (b2n w)))

/-- A transaction of an empty matrix waits at the target its address decodes to, and a decode miss is answered at once with response 2. A
master in reset issues nothing. A target grants the only transaction that waits there; an empty matrix grants nothing. A response
answers the granted transaction, which leaves the matrix. Breaking a lock frees the target and records its owner. After a reset of a
master port every transaction of the named identifiers that is still present is absorbed. An uncorrectable request word answers its
transaction with an error and sets the fault. -/
def Obligations.BusMatrix : Prop :=
  (∀ (r : BusReq) (s : State), s.bus.txs = [] → s.is (bmM r.master) F.BM_MSTAT_IN_RESET = false → s.busMiss r = none →
     s.bus.broken.contains (s.busTarget r.addr.toNat * 8 + r.master.val) = false →
     Does (.busTransaction r) s fun t => t.bus.txs = [⟨r, s.busTarget r.addr.toNat, 1, 0,
       if r.master.val = 3 then r.qos.val else s.get (bmM r.master) F.BM_MCFG_QOS, 0, [], false⟩] ∧ t.out = s.out) ∧
  (∀ (r : BusReq) (k : Nat) (s : State), s.bus.txs = [] → s.is (bmM r.master) F.BM_MSTAT_IN_RESET = false → s.busMiss r = some k →
     Does (.busTransaction r) s fun t => t.bus.txs = [] ∧
       t.out = s.out ++ [.busResp r.master r.id 2 (if r.write then [] else List.replicate r.len 0)]) ∧
  (∀ (r : BusReq) (s : State), s.is (bmM r.master) F.BM_MSTAT_IN_RESET = true → exec (.busTransaction r) s = .next s) ∧
  (∀ (t : Fin 9) (x : BusTx) (s : State), s.bus.txs = [x] → x.st = 1 → x.target = t → s.lockedOut t x.req.master = false →
     Does (.targetArbitration t) s fun u => u.bus.txs = [{ x with st := 2 }] ∧ u.out = s.out) ∧
  (∀ (t : Fin 9) (s : State), s.bus.txs = [] → exec (.targetArbitration t) s = .next s) ∧
  (∀ (t : Fin 9) (m : Fin 8) (id : Fin 32) (code : Fin 4) (d : List (BitVec 128)) (x : BusTx) (s : State), s.bus.txs = [x] →
     x.granted t m id = true → x.st = 3 → x.absorb = false → 2 ≤ t.val → code ≠ 1 →
     Does (.busResponse t m id code d) s fun u => u.bus.txs = [] ∧ u.out = s.out ++ [.busResp m id 0 (x.reply t d)]) ∧
  (∀ (t : Fin 9) (m : Fin 8) (id : Fin 32) (code : Fin 4) (d : List (BitVec 128)) (s : State), s.bus.txs = [] →
     exec (.busResponse t m id code d) s = .next s) ∧
  (∀ (t : Fin 9) (s : State), t ≠ 8 → s.is (bmB + 4 * t) F.BM_TSTAT_LOCKED = true →
     Does (.lockBroken t) s fun u => u.is (bmB + 4 * t) F.BM_TSTAT_LOCKED = false ∧
       u.get bmB F.BM_LOCK_INFO_MASTER = s.get (bmB + 4 * t) F.BM_TSTAT_LOCK_OWNER ∧ u.get bmB F.BM_LOCK_INFO_TARGET = t) ∧
  (∀ (t : Fin 9) (s : State), s.is (bmB + 4 * t) F.BM_TSTAT_LOCKED = false → exec (.lockBroken t) s = .next s) ∧
  (∀ (m : Fin 8) (ids : Word) (held : Bool) (l : List (Nat × Nat)) (s : State), m ≠ 4 →
     Does (.masterPortReset m ids held l) s fun t => t.is (bmM m) F.BM_MSTAT_IN_RESET = held ∧
       ∀ x ∈ t.bus.txs, x.req.master = m → bitN ids.toNat x.req.id = true → x.absorb = true) ∧
  (∀ (m : Fin 8) (id : Fin 32) (i : Fin 512) (x : BusTx) (s : State), s.bus.txs = [x] → x.req.master = m → x.req.id = id → x.st = 1 →
     x.absorb = false → m ≠ 2 → Does (.bmFault (.request m id i)) s fun t => t.bus.txs = [] ∧ t.is bmB F.STAT_FAULT = true ∧
       t.out = s.out ++ [.busResp m id 1 (if x.req.write then [] else List.replicate x.req.len 0)]) ∧
  (∀ (m : Fin 8) (i : Fin 512) (s : State), Does (.bmFault (.idTable m i)) s fun t => t.is bmB F.STAT_FAULT = true)

/-- A command is ignored while one runs; in a store that has been tampered with DERIVE, CLEAR and ATTEST answer 0x43 and change no key; a
DERIVE without entropy waits. A permitted DERIVE of a free slot makes it valid with the key that the parent, the attribute word, the
label and the context give. A CLEAR of a derived slot makes it invalid. An ATTEST of a slot that may sign leaves the first 32 bytes of
the code over the message. An UPDATE without its magic answers 0x41; an invalidating UPDATE that passes the other checks ends with the
slot invalid where its signature is right, and with 0x44 where it is not. -/
def Obligations.KeyStoreCommands : Prop :=
  (∀ (v : Word) (s : State), s.is ksB F.KS_CMD_RES_BUSY = true → exec (.ksDerive v) s = .next s ∧ exec (.ksClear v) s = .next s ∧
     exec (.ksAttest v) s = .next s ∧ exec (.ksUpdate v) s = .next s) ∧
  (∀ (v : Word) (s : State), s.is ksB F.KS_CMD_RES_BUSY = false → s.tampered = true →
     (Does (.ksDerive v) s fun t => t.get ksB F.KS_CMD_RES_CODE = 0x43 ∧ t.is ksB F.KS_CMD_RES_DONE = true ∧ t.ks = s.ks) ∧
     (Does (.ksClear v) s fun t => t.get ksB F.KS_CMD_RES_CODE = 0x43 ∧ t.is ksB F.KS_CMD_RES_DONE = true ∧ t.ks = s.ks) ∧
     (Does (.ksAttest v) s fun t => t.get ksB F.KS_CMD_RES_CODE = 0x43 ∧ t.is ksB F.KS_CMD_RES_DONE = true ∧ t.ks = s.ks)) ∧
  (∀ (v : Word) (s : State), s.is ksB F.KS_CMD_RES_BUSY = false → s.tampered = false → s.ks.rngBad = true →
     Does (.ksDerive v) s fun t => t.is ksB F.KS_CMD_RES_BUSY = true ∧ t.ks = { s.ks with waiting := some v }) ∧
  (∀ (v : Word) (i p a : Nat) (s : State), s.is ksB F.KS_CMD_RES_BUSY = false → s.tampered = false → s.ks.rngBad = false →
     fldGet v 4 6 = i → fldGet v 10 6 = p → s.get ksB F.CMD_ATTR_WORD = a → i ≠ p → s.slotMay p atKdf = true → s.slotValid i = false →
     s.get ksB F.CMD_LEN_LABEL_LEN ≤ 32 → s.get ksB F.CMD_LEN_CTX_LEN ≤ 64 → badAttr a = false → bitN a atBootBound = false →
     Does (.ksDerive v) s fun t => t.get ksB F.KS_CMD_RES_CODE = 0 ∧ t.slotValid i = true ∧
       t.slotKey i = beBytes 32 (ofBe (kdf (s.slotKey p) 1 (beBytes 4 (a + 2 ^ atHasParent + p * 2 ^ 13))
         (s.ksBytes 0x80 (s.get ksB F.CMD_LEN_LABEL_LEN)) (s.ksBytes 0xA0 (s.get ksB F.CMD_LEN_CTX_LEN)) [] 256) % 2 ^ 256)) ∧
  (∀ (v : Word) (i : Nat) (s : State), s.is ksB F.KS_CMD_RES_BUSY = false → s.tampered = false → fldGet v 4 6 = i →
     bitN (s.slotAttr i) atHasParent = true → Does (.ksClear v) s fun t => t.get ksB F.KS_CMD_RES_CODE = 0 ∧ t.slotValid i = false) ∧
  (∀ (v : Word) (i : Nat) (s : State), s.is ksB F.KS_CMD_RES_BUSY = false → s.tampered = false → fldGet v 4 6 = i →
     bitN (s.slotAttr i) atHasParent = false → Does (.ksClear v) s fun t => t.get ksB F.KS_CMD_RES_CODE = 0x40 ∧ t.ks = s.ks) ∧
  (∀ (v : Word) (i : Nat) (s : State), s.is ksB F.KS_CMD_RES_BUSY = false → fldGet v 4 6 = i → s.slotMay i 4 = true →
     Does (.ksAttest v) s fun t => t.get ksB F.KS_CMD_RES_CODE = 0 ∧ t.ks = s.ks ∧
       t.ksBytes 0x100 32 = slice (Config.hmacSha256 (s.slotKey i) (s.attestMsg i)) 0 32) ∧
  (∀ (v : Word) (s : State), s.is ksB F.KS_CMD_RES_BUSY = false → s.ks.rngBad = false → slice (s.ksBytes 0x400 374) 0 4 ≠ magicKu →
     Does (.ksUpdate v) s fun t => t.get ksB F.KS_CMD_RES_CODE = 0x41 ∧ t.ks = s.ks) ∧
  (∀ (v : Word) (m : List Byte) (slot : Nat) (s : State), s.is ksB F.KS_CMD_RES_BUSY = false → s.ks.rngBad = false → s.tampered = false →
     s.inhibited = false → s.ksBytes 0x400 374 = m → slice m 0 4 = magicKu → m.getD 4 0 = 0x01 → m.getD 5 0 = 3 → (m.getD 6 0).toNat = slot →
     slot < 64 → m.getD 7 0 = 0 → (slice m 121 157).any (· != 0) = false → slice m 8 8 = s.deviceId → ofBe (slice m 16 4) = s.cntVal 0 →
     s.cntVal 0 ≠ 0xFFFFFFFF → s.slotValid slot = true → badAttr (ofBe (slice m 20 4)) = false →
     bitN (ofBe (slice m 20 4)) atBootBound = false →
     Does (.ksUpdate v) s fun t =>
       if Config.sha384 (slice m 24 97) = s.ksBytes 0x150 48 ∧ Config.ecdsaVerify (slice m 24 97) (slice m 0 278) (slice m 278 96) = true then
         t.get ksB F.KS_CMD_RES_CODE = 0 ∧ t.slotValid slot = false
       else t.get ksB F.KS_CMD_RES_CODE = 0x44 ∧ t.ks = s.ks)

/-- An extend of the accumulator replaces it by the digest of it and the new digest, counts a stage, and makes the measurement final where
asked; behind a running command it waits; after the final one nothing changes it. Drawing the masks again leaves every key as it is and
does nothing without entropy. The loss of the entropy source is recorded; with its return a waiting command runs to its end. An
uncorrectable slot word invalidates the slot; one of the roots derives them again. Tampering clears every slot and every root and
records its cause. Start-up ends ready, once. -/
def Obligations.KeyStoreEvents : Prop :=
  (∀ (d : List Byte) (final : Bool) (s : State), d.length = 48 → s.is ksB F.KS_CMD_RES_BUSY = false → s.is ksB F.MEAS_STAGES_FINAL = false →
     s.tampered = false → Does (.measExtend d final) s fun t => t.measAcc = slice (Config.sha384 (s.measAcc ++ d)) 0 48 ∧
       t.get ksB F.MEAS_STAGES_STAGES = (s.get ksB F.MEAS_STAGES_STAGES + 1) % 256 ∧ t.is ksB F.MEAS_STAGES_FINAL = final) ∧
  (∀ (d : List Byte) (final : Bool) (s : State), s.is ksB F.KS_CMD_RES_BUSY = true →
     Does (.measExtend d final) s fun t => t.ks.queue = s.ks.queue ++ [(d, final)] ∧ t.regs = s.regs) ∧
  (∀ (d : List Byte) (final : Bool) (s : State), s.is ksB F.KS_CMD_RES_BUSY = false → s.is ksB F.MEAS_STAGES_FINAL = true →
     exec (.measExtend d final) s = .next s) ∧
  (∀ (i : Nat) (s : State), s.ks.rngBad = false → i < 64 → Does .remask s fun t => t.slotKey i = s.slotKey i ∧ t.regs = s.regs) ∧
  (∀ s : State, s.ks.rngBad = true → exec .remask s = .next s) ∧
  (∀ s : State, Does .rngFault s fun t => t.ks = { s.ks with rngBad := true } ∧ t.get ksB ⟨0x1C, 6, 1⟩ = 1) ∧
  (∀ s : State, s.ks.waiting = none → Does .rngRecover s fun t => t.ks = { s.ks with rngBad := false } ∧ t.get ksB ⟨0x1C, 6, 1⟩ = 0) ∧
  (∀ (v : Word) (s : State), s.ks.waiting = some v → Does .rngRecover s fun t => t.ks.rngBad = false ∧ t.ks.waiting = none ∧
     t.is ksB F.KS_CMD_RES_BUSY = false) ∧
  (∀ (i : Fin 64) (s : State), (Does (.ksFault (.value i)) s fun t => t.slotValid i = false ∧ t.is ksB F.STAT_FAULT = true) ∧
     (Does (.ksFault (.attr i)) s fun t => t.slotValid i = false ∧ t.is ksB F.STAT_FAULT = true)) ∧
  (∀ (i : Fin 64) (s : State), s.tampered = false → Does (.ksFault (.root i)) s fun t =>
     t.ks.kSeal = kdf Config.otpSecret 1 [] lblSeal s.deviceId [] 256 ∧ t.is ksB F.STAT_FAULT = true) ∧
  (∀ (cause : Fin 32) (s : State), cause ≠ 0 → Does (.tamper cause) s fun t => (∀ i, i < 64 → t.slotValid i = false) ∧ t.ks.masked = [] ∧
     t.ks.kSeal = [] ∧ t.ks.dDev = [] ∧ t.tampered = true ∧ t.get ksB F.KS_TAMPER_CAUSE = s.get ksB F.KS_TAMPER_CAUSE ||| cause.val) ∧
  (∀ s : State, exec (.tamper 0) s = .next s) ∧
  (∀ s : State, s.is ksB F.KS_STAT_READY = false → s.tampered = false → Does .ksStartup s fun t => t.is ksB F.KS_STAT_READY = true) ∧
  (∀ s : State, s.is ksB F.KS_STAT_READY = true → exec .ksStartup s = .next s)

/-- A record command before READY changes nothing in the store; a notice that waits for the master is returned in place of the command.
Appending or deleting a key that the master may write adds its version to the master's gather buffer under the next sequence number; a
reserved key answers 0x55 and a foreign one 0x51. A commit of the master's own buffer empties it, an abort empties it without touching
the array, and either without a buffer answers 0x58. A read shows the record that resolves its key, or 0x50. A buffer that times out is
dropped with a notice. A sector is compacted only where none is erased. -/
def Obligations.FlashRecords : Prop :=
  (∀ (m : Fin 8) (v : Word) (s : State), s.is nvB F.NV_STAT_READY = false →
     (Does (.recAppend m v) s fun t => t.nv = s.nv) ∧ (Does (.recDelete m v) s fun t => t.nv = s.nv) ∧
     (Does (.recCommit m v) s fun t => t.nv = s.nv) ∧ (Does (.recAbort m v) s fun t => t.nv = s.nv) ∧
     (Does (.recRead m v) s fun t => t.nv = s.nv)) ∧
  (∀ (m : Fin 8) (v : Word) (c : Fin 256) (s : State), s.is nvB F.NV_STAT_READY = true → s.nv.notice = [(m.val, c.val)] →
     Does (.recAppend m v) s fun t => t.get nvB F.REC_RES_CODE = c ∧ t.nv = { s.nv with notice := [] }) ∧
  (∀ (m : Fin 8) (v : Word) (key : Nat) (s : State), s.is nvB F.NV_STAT_READY = true → s.nv.notice = [] → s.nv.gather = none →
     s.get nvB F.REC_KEY_KEY = key → keyReserved key = false → keyMay m key true = true → fldGet v 4 8 ≤ 240 → bitN v.toNat 3 = false →
     s.get nvB F.REC_SEQ_VALUE ≠ 0xFFFFFFFF → s.liveBytes + recSize (fldGet v 4 8) ≤ 786432 → s.liveKeys.length < 2048 →
     Does (.recAppend m v) s fun t => t.get nvB F.REC_RES_CODE = 0 ∧ t.get nvB F.REC_SEQ_VALUE = s.get nvB F.REC_SEQ_VALUE + 1 ∧
       t.nv = { s.nv with
         gather := some (m.val, [⟨key, s.get nvB F.REC_SEQ_VALUE, recFlags false false false, s.recData (fldGet v 4 8)⟩]) }) ∧
  (∀ (m : Fin 8) (v : Word) (key : Nat) (s : State), s.is nvB F.NV_STAT_READY = true → s.nv.notice = [] → s.nv.gather = none →
     s.get nvB F.REC_KEY_KEY = key → keyReserved key = false → keyMay m key true = true → bitN v.toNat 3 = false →
     s.get nvB F.REC_SEQ_VALUE ≠ 0xFFFFFFFF →
     Does (.recDelete m v) s fun t => t.get nvB F.REC_RES_CODE = 0 ∧ t.get nvB F.REC_SEQ_VALUE = s.get nvB F.REC_SEQ_VALUE + 1 ∧
       t.nv = { s.nv with gather := some (m.val, [⟨key, s.get nvB F.REC_SEQ_VALUE, recFlags false false true, []⟩]) }) ∧
  (∀ (m : Fin 8) (v : Word) (s : State), s.is nvB F.NV_STAT_READY = true → s.nv.notice = [] →
     keyReserved (s.get nvB F.REC_KEY_KEY) = true ∨ keyMay m (s.get nvB F.REC_KEY_KEY) true = false →
     Does (.recDelete m v) s fun t => t.nv = s.nv ∧
       t.get nvB F.REC_RES_CODE = if keyReserved (s.get nvB F.REC_KEY_KEY) then 0x55 else 0x51) ∧
  (∀ (m : Fin 8) (v : Word) (l : List GRec) (s : State), s.is nvB F.NV_STAT_READY = true → s.nv.notice = [] → s.inhibited = false →
     s.nv.gather = some (m.val, l) → Does (.recCommit m v) s fun t => t.get nvB F.REC_RES_CODE = 0 ∧ t.nv.gather = none) ∧
  (∀ (m : Fin 8) (v : Word) (l : List GRec) (s : State), s.is nvB F.NV_STAT_READY = true → s.nv.notice = [] → s.inhibited = true →
     s.nv.gather = some (m.val, l) → Does (.recCommit m v) s fun t => t.get nvB F.REC_RES_CODE = 0x48 ∧ t.nv = s.nv) ∧
  (∀ (m : Fin 8) (v : Word) (l : List GRec) (s : State), s.is nvB F.NV_STAT_READY = true → s.nv.notice = [] →
     s.nv.gather = some (m.val, l) → Does (.recAbort m v) s fun t => t.get nvB F.REC_RES_CODE = 0 ∧ t.nv = { s.nv with gather := none }) ∧
  (∀ (m : Fin 8) (v : Word) (s : State), s.is nvB F.NV_STAT_READY = true → s.nv.notice = [] → s.nv.gather = none →
     (Does (.recCommit m v) s fun t => t.get nvB F.REC_RES_CODE = 0x58 ∧ t.nv = s.nv) ∧
     (Does (.recAbort m v) s fun t => t.get nvB F.REC_RES_CODE = 0x58 ∧ t.nv = s.nv)) ∧
  (∀ (m : Fin 8) (v : Word) (r : GRec) (s : State), s.is nvB F.NV_STAT_READY = true → s.nv.notice = [] →
     keyReserved (s.get nvB F.REC_KEY_KEY) = false → keyMay m (s.get nvB F.REC_KEY_KEY) false = true →
     (s.resolveKey (s.get nvB F.REC_KEY_KEY)).2 = some r → r.data.length ≤ 240 →
     Does (.recRead m v) s fun t => t.get nvB F.REC_RES_CODE = 0 ∧ t.get nvB F.REC_RES_LEN = r.data.length ∧
       t.recData r.data.length = r.data) ∧
  (∀ (m : Fin 8) (v : Word) (s : State), s.is nvB F.NV_STAT_READY = true → s.nv.notice = [] →
     keyReserved (s.get nvB F.REC_KEY_KEY) = false → keyMay m (s.get nvB F.REC_KEY_KEY) false = true →
     (s.resolveKey (s.get nvB F.REC_KEY_KEY)).2 = none → Does (.recRead m v) s fun t => t.get nvB F.REC_RES_CODE = 0x50) ∧
  (∀ (m : Nat) (l : List GRec) (s : State), s.nv.gather = some (m, l) →
     Does .gatherTimeout s fun t => t.nv = { s.nv with gather := none, notice := s.nv.notice ++ [(m, 0x59)] }) ∧
  (∀ s : State, s.nv.gather = none → exec .gatherTimeout s = .next s) ∧
  (∀ s : State, s.is nvB F.NV_STAT_READY = true → s.inhibited = false → s.mustCompact = true →
     exec .compaction s = .next s.compact.nvRefresh) ∧
  (∀ s : State, s.is nvB F.NV_STAT_READY = false ∨ s.inhibited = true ∨ s.mustCompact = false → exec .compaction s = .next s)

/-- An increment by a master that may make it adds one to its counter and leaves every other; it is refused with 0x51, 0x48 or 0x56, and
ignored before the counters are settled. A raw program clears bits of its page and empties the buffer, an erase leaves nothing of the
sector, a load fills the buffer from the page, and a foreign sector answers 0x51. Background erase takes the oldest queued sector. A
pass of the Gleaner starts its counts anew and keeps repairs waiting while writes are inhibited. Power-up ends ready. The inhibit is
asserted and released. A fault of the array, of the gather buffer or of the page buffer has its record or drops its contents. -/
def Obligations.FlashAccesses : Prop :=
  (∀ (m : Fin 8) (i : Fin 16) (s : State), s.nv.active.isSome = true → cntMay m i = true → s.inhibited = false → s.cntVal i ≠ 0xFFFFFFFF →
     Does (.cntInc m i) s fun t => t.cntVal i = s.cntVal i + 1 ∧ t.get nvB F.CNT_RES_CODE = 0 ∧
       ∀ j : Fin 16, j ≠ i → t.cntVal j = s.cntVal j) ∧
  (∀ (m : Fin 8) (i : Fin 16) (s : State), s.nv.active.isSome = true →
     (cntMay m i = false → Does (.cntInc m i) s fun t => t.get nvB F.CNT_RES_CODE = 0x51 ∧ t.nv = s.nv) ∧
     (cntMay m i = true → s.inhibited = true → Does (.cntInc m i) s fun t => t.get nvB F.CNT_RES_CODE = 0x48 ∧ t.nv = s.nv) ∧
     (cntMay m i = true → s.inhibited = false → s.cntVal i = 0xFFFFFFFF →
       Does (.cntInc m i) s fun t => t.get nvB F.CNT_RES_CODE = 0x56 ∧ t.nv = s.nv)) ∧
  (∀ (m : Fin 8) (i : Fin 16) (s : State), s.nv.active = none → exec (.cntInc m i) s = .next (s.put nvB F.CNT_CMD_INDEX i)) ∧
  (∀ (m : Fin 8) (v : Word) (s : State), s.nv.notice = [] → rawMay m (fldGet v 0 14 / 256) = true → s.nv.owner = none ∨ s.nv.owner = some m.val →
     s.inhibited = false → Does (.rawProgram m v) s fun t => t.get nvB F.RAW_RES_CODE = 0 ∧
       t.nv = { s.nv with flash := flashProg s.nv.flash (256 * fldGet v 0 14) s.nv.buf, buf := emptyBuf, owner := none }) ∧
  (∀ (m : Fin 8) (v : Word) (s : State), s.nv.notice = [] → rawMay m (fldGet v 0 14 / 256) = true → s.inhibited = false →
     Does (.rawEraseSector m v) s fun t => t.get nvB F.RAW_RES_CODE = 0 ∧
       t.nv = { s.nv with flash := s.nv.flash.filter fun p => p.1 / 65536 != fldGet v 0 14 / 256 }) ∧
  (∀ (m : Fin 8) (v : Word) (s : State), s.nv.notice = [] → rawMay m (fldGet v 0 14 / 256) = true → s.nv.owner = none → s.inhibited = true →
     (Does (.rawProgram m v) s fun t => t.get nvB F.RAW_RES_CODE = 0x48 ∧ t.nv = s.nv) ∧
     (Does (.rawEraseSector m v) s fun t => t.get nvB F.RAW_RES_CODE = 0x48 ∧ t.nv = s.nv)) ∧
  (∀ (m : Fin 8) (v : Word) (s : State), s.nv.notice = [] → s.nv.owner = none ∨ s.nv.owner = some m.val →
     Does (.rawClearBuf m v) s fun t => t.get nvB F.RAW_RES_CODE = 0 ∧ t.nv = { s.nv with buf := emptyBuf, owner := none }) ∧
  (∀ (m : Fin 8) (v : Word) (s : State), s.nv.notice = [] → rawMay m (fldGet v 0 14 / 256) = true → s.nv.owner = none ∨ s.nv.owner = some m.val →
     Does (.rawLoad m v) s fun t => t.get nvB F.RAW_RES_CODE = 0 ∧
       t.nv = { s.nv with buf := s.fBytes (256 * fldGet v 0 14) 256, owner := some m.val }) ∧
  (∀ (m : Fin 8) (v : Word) (s : State), s.nv.notice = [] → rawMay m (fldGet v 0 14 / 256) = false →
     (Does (.rawProgram m v) s fun t => t.get nvB F.RAW_RES_CODE = 0x51 ∧ t.nv = s.nv) ∧
     (Does (.rawEraseSector m v) s fun t => t.get nvB F.RAW_RES_CODE = 0x51 ∧ t.nv = s.nv) ∧
     (Does (.rawLoad m v) s fun t => t.get nvB F.RAW_RES_CODE = 0x51 ∧ t.nv = s.nv)) ∧
  (∀ (m : Fin 8) (v : Word) (s : State), s.nv.owner = none ∨ s.nv.owner = some m.val →
     Does (.rawBufferWrite m (.data v)) s fun t => t.get nvB F.RAW_PTR_PTR = (s.get nvB F.RAW_PTR_PTR + 4) % 256 ∧
       t.nv = { s.nv with buf := bufWrite s.nv.buf (s.get nvB F.RAW_PTR_PTR) (leBytes 4 v.toNat), owner := some m.val }) ∧
  (∀ (m : Fin 8) (o : Fin 0x3E0000) (l : List Byte) (s : State), s.nv.owner = none ∨ s.nv.owner = some m.val →
     Does (.rawBufferWrite m (.window o l)) s fun t => t.nv = { s.nv with buf := bufWrite s.nv.buf o l, owner := some m.val }) ∧
  (∀ (m : Fin 8) (w : BufWrite) (k : Nat) (s : State), s.nv.owner = some k → k ≠ m → Does (.rawBufferWrite m w) s fun t => t.nv = s.nv) ∧
  (∀ (k : Nat) (l : List Nat) (s : State), s.nv.eraseQ = k :: l → s.inhibited = false → 16 ≤ k →
     Does .backgroundErase s fun t => t.nv = { s.nv with flash := s.nv.flash.filter (fun p => p.1 / 65536 != k), eraseQ := l }) ∧
  (∀ (k : Nat) (l : List Nat) (s : State), s.nv.eraseQ = k :: l → s.inhibited = false → k < 16 →
     Does .backgroundErase s fun t => t.nv.eraseQ = l ∧ t.secState k = ssErased) ∧
  (∀ s : State, s.nv.eraseQ = [] ∨ s.inhibited = true → exec .backgroundErase s = .next s) ∧
  (∀ s : State, s.is nvB F.NV_CFG_GLEANER_EN = true → s.is nvB F.NV_STAT_READY = true →
     Does (.gleanerPass []) s fun t => t.get nvB F.GLEAN_STAT_REWRITTEN = 0 ∧ t.get nvB F.GLEAN_STAT_RAW_WEAK = 0 ∧
       t.get nvB F.GLEAN_NEXT_MINUTES = 1440 ∧ t.nv = s.nv) ∧
  (∀ (a : Fin 0x100000) (s : State), s.is nvB F.NV_CFG_GLEANER_EN = true → s.is nvB F.NV_STAT_READY = true → s.inhibited = true →
     Does (.gleanerPass [.record a]) s fun t => t.nv = { s.nv with weakQ := s.nv.weakQ ++ [.record a] }) ∧
  (∀ (l : List Weak) (s : State), s.is nvB F.NV_CFG_GLEANER_EN = false → exec (.gleanerPass l) s = .next s) ∧
  (∀ (l : List Weak) (s : State), s.is nvB F.NV_STAT_READY = false → Does (.flashPowerUp l) s fun t => t.is nvB F.NV_STAT_READY = true) ∧
  (∀ (l : List Weak) (s : State), s.is nvB F.NV_STAT_READY = true → exec (.flashPowerUp l) s = .next s) ∧
  (∀ s : State, s.inhibited = false → Does .nvInhibitAssert s fun t => t.inhibited = true ∧ t.get nvB ⟨0x1C, 3, 1⟩ = 1 ∧ t.nv = s.nv) ∧
  (∀ s : State, s.inhibited = true → Does .nvInhibitRelease s fun t => t.inhibited = false) ∧
  (∀ s : State, (s.inhibited = true → exec .nvInhibitAssert s = .next s) ∧ (s.inhibited = false → exec .nvInhibitRelease s = .next s)) ∧
  (∀ (page : Fin 16384) (e : Bool) (s : State), 16 ≤ page.val / 256 → page.val / 256 < 62 → Does (.flashFault (.array page e)) s fun t =>
     t.get nvB F.RAW_RES_CODE = 0x57 ∧ t.get nvB F.FLASH_LAST_PAGE = page ∧ t.is nvB F.STAT_FAULT = true ∧ t.nv = s.nv) ∧
  (∀ (w : Fin 512) (m : Nat) (l : List GRec) (s : State), s.nv.gather = some (m, l) → Does (.flashFault (.gather w)) s fun t =>
     t.is nvB F.STAT_FAULT = true ∧ t.nv = { s.nv with gather := none, notice := s.nv.notice ++ [(m, 0x57)] }) ∧
  (∀ (w : Fin 512) (s : State), Does (.flashFault (.pageBuffer w)) s fun t =>
     t.is nvB F.STAT_FAULT = true ∧ t.nv.buf = emptyBuf ∧ t.nv.owner = none ∧ t.nv.flash = s.nv.flash) ∧
  (∀ (w : Fin 512) (s : State), Does (.flashFault (.index w)) s fun t => t.is nvB F.STAT_FAULT = true)

/-- Every second of a measuring Yumen stores one S-record under the next number, moves the clock to its next value and consumes the offer;
an uncorrectable word of flash or SRAM leaves its locator. An offer leaves a started timing core and is kept unless it is garbled. A
missing offer, the opening and the closing of the seal are events, and opening counts. STATUS, IDENTITY and the record reads answer; a
command with a bad code and a record that is not held are refused without effect. A calibration command with the seal open takes effect
at the next second and counts in the audit trail; with the seal closed it is refused. Loss of the clock's supply restarts it from flash.
Power-up starts measuring; power loss ends it. An unpowered Yumen does nothing. -/
def Obligations.YumenMeter : Prop :=
  (∀ (m : List YmMeas) (temp : Int) (f : YmFaults) (s : State), s.ymOn = true → s.ym.measuring = true →
     Does (.yumenSecond m temp f) s fun t => t.ym.sSeq = s.ym.sSeq + 1 ∧ (t.ym.sRing.head?.map fun p => p.1) = some s.ym.sSeq ∧
       t.ym.rtc = (match s.ym.nextRtc with | some r => r | none => s.ym.rtc + 1) ∧ t.ym.offer = none ∧ t.ym.signOk = (f.signs != 2)) ∧
  (∀ (m : List YmMeas) (temp : Int) (f : Fin 3) (i : Fin 512) (s : State), s.ymOn = true → s.ym.measuring = true →
     (Does (.yumenSecond m temp ⟨f, some (.flash i)⟩) s fun t => t.ym.locator = locator 7 0x3F 0 0 i) ∧
     (Does (.yumenSecond m temp ⟨f, some (.sram i)⟩) s fun t => t.ym.locator = locator 7 0x3F 0 1 i)) ∧
  (∀ (a : Fin 1000000) (s : State), s.tc.started = true → s.populated 7 = true → s.ym.powered = true → s.ym.measuring = true →
     Does (.timeOffer a false) s fun t => t.out = s.out ++ [.offer s.offerMsg.1] ∧ t.regs = s.regs ∧
       t.ym.offer = some (s.offerMsg.2.1, if a.val < 500000 then (a.val : Int) else (a.val : Int) - 1000000, s.offerMsg.2.2)) ∧
  (∀ (a : Fin 1000000) (s : State), s.tc.started = true → s.populated 7 = true →
     Does (.timeOffer a true) s fun t => t.out = s.out ++ [.offer s.offerMsg.1] ∧ t.ym = s.ym) ∧
  (∀ (a : Fin 1000000) (g : Bool) (s : State), s.tc.started = false → exec (.timeOffer a g) s = .next s) ∧
  (∀ s : State, s.ymOn = true → bitN s.ym.live 7 = false → Does .offerMissing s fun t => bitN t.ym.live 7 = true ∧ bitN t.ym.events 7 = true ∧
     t.regs = s.regs) ∧
  (∀ s : State, s.ymOn = true → s.ym.sealOpen = false → Does .sealOpened s fun t => t.ym.sealOpen = true ∧
     t.ym.seals = min 0xFFFF (s.ym.seals + 1) ∧ bitN t.ym.events 0 = true ∧ t.regs = s.regs) ∧
  (∀ s : State, s.ymOn = true → s.ym.sealOpen = true → Does .sealClosed s fun t => t.ym.sealOpen = false ∧ t.ym.seals = s.ym.seals ∧
     bitN t.ym.events 1 = true ∧ t.regs = s.regs) ∧
  (∀ (m : List YmMeas) (temp : Int) (f : YmFaults) (s : State), s.ymOn = false → exec (.yumenSecond m temp f) s = .next s ∧
     exec .offerMissing s = .next s ∧ exec .sealOpened s = .next s ∧ exec .sealClosed s = .next s ∧ exec .carouselRecord s = .next s ∧
     exec .yumenPowerLoss s = .next s ∧ exec (.yumenStatusFrame true) s = .next s) ∧
  (∀ s : State, s.ymOn = true → (Does (.status true) s fun t => t.ym = s.ym ∧ t.out = s.out ++ [.metro 0x01 (s.ym.words.flatMap fun w => beBytes 4 w)]) ∧
     (Does (.identity true) s fun t => t.ym = s.ym ∧
       t.out = s.out ++ [.metro 0x02 (beBytes 8 Config.ymIdentity.toNat ++ Config.ymPublicKey ++ Config.ymCertificate)])) ∧
  (∀ (q : Word) (p : Nat × List Byte) (s : State), s.ymOn = true →
     (s.ym.sRing.find? (fun r => r.1 == q.toNat) = some p → Does (.readS true q) s fun t => t.ym = s.ym ∧ t.out = s.out ++ [.metro 0x03 p.2]) ∧
     (s.ym.qRing.find? (fun r => r.1 == q.toNat) = some p → Does (.readQ true q) s fun t => t.ym = s.ym ∧ t.out = s.out ++ [.metro 0x04 p.2])) ∧
  (∀ (q : Word) (s : State), s.ymOn = true →
     (s.ym.sRing.find? (fun r => r.1 == q.toNat) = none → Does (.readS true q) s fun t => t.ym = s.ym ∧ ∃ c, t.out = s.out ++ [.metro c []]) ∧
     (s.ym.qRing.find? (fun r => r.1 == q.toNat) = none → Does (.readQ true q) s fun t => t.ym = s.ym ∧ ∃ c, t.out = s.out ++ [.metro c []])) ∧
  (∀ (q : Word) (i : Fin 4) (en : Bool) (r : Fin 4) (b : BitVec 16) (k : BitVec 48) (v : Fin 900) (c : Instr) (s : State), s.ymOn = true →
     c ∈ [.status false, .identity false, .readS false q, .readQ false q, .setInput false i en r b, .setRtc false k, .setQofs false v] →
     Does c s fun t => t.ym = s.ym ∧ t.regs = s.regs ∧ ∃ n, t.out = s.out ++ [.metro n []]) ∧
  (∀ (i : Fin 4) (en : Bool) (r : Fin 4) (b : BitVec 16) (v : Fin 900) (k : BitVec 48) (s : State), s.ymOn = true → s.ym.sealOpen = true →
     s.ym.nextCals = none →
     (Does (.setInput true i en r b) s fun t => t.ym.audit = min 0xFFFFFFFF (s.ym.audit + 1) ∧ t.ym.cals = s.ym.cals ∧
       t.ym.nextCals = some (s.ym.cals.set i ⟨en, r, b.toNat⟩, s.ym.qofs)) ∧
     (Does (.setQofs true v) s fun t => t.ym.audit = min 0xFFFFFFFF (s.ym.audit + 1) ∧ t.ym.qofs = s.ym.qofs ∧
       t.ym.nextCals = some (s.ym.cals, v.val)) ∧
     (Does (.setRtc true k) s fun t => t.ym.audit = min 0xFFFFFFFF (s.ym.audit + 1) ∧ t.ym.rtc = s.ym.rtc ∧ t.ym.nextRtc = some k.toNat)) ∧
  (∀ (i : Fin 4) (en : Bool) (r : Fin 4) (b : BitVec 16) (v : Fin 900) (k : BitVec 48) (s : State), s.ymOn = true → s.ym.sealOpen = false →
     (Does (.setInput true i en r b) s fun t => t.ym = s.ym) ∧ (Does (.setQofs true v) s fun t => t.ym = s.ym) ∧
     (Does (.setRtc true k) s fun t => t.ym = s.ym)) ∧
  (∀ s : State, s.populated 7 = true → Does .rtcSupplyLoss s fun t => t.ym.rtcValid = false ∧ t.ym.rtc = s.ym.rtcFlash ∧ t.ym.nextRtc = none ∧
     t.regs = s.regs) ∧
  (∀ (n : Nat) (s : State), s.populated 7 = true → s.ym.powered = false → Does (.yumenPowerUp n) s fun t => t.ym.powered = true ∧
     t.ym.measuring = true ∧ t.ym.first = true ∧ t.ym.rtc = if s.ym.rtcValid then s.ym.rtc + n else s.ym.rtc) ∧
  (∀ s : State, s.ymOn = true → Does .yumenPowerLoss s fun t => t.ym.powered = false ∧ t.ym.measuring = false ∧ t.ym.link = [] ∧
     t.ym.nextCals = none ∧ t.ym.sRing = s.ym.sRing ∧ t.ym.audit = s.ym.audit ∧ t.regs = s.regs)

/-- A record frame leaves the link when it arrives; with a good code it shows the link up, and the bridge writes a live record to the next
slot of the log; with a bad code nothing is stored, and in reset nobody hears it. A status frame shows the meter's state, the locator of
a fault included, and takes its events. The carousel sends the newest S-record first. A link without a frame for its time is shown down.
Mernak forwards one record of the log to the next slot of the host ring. -/
def Obligations.YumenLink : Prop :=
  (∀ (r : List Byte) (l : List (Nat × List Byte)) (s : State), s.ym.link = (1, r) :: l → s.pwr.inReset = false →
     Does (.yumenLinkFrame true) s fun t => t.ym.link = l ∧ t.is ymB F.YM_YM_LINK_UP = true ∧ t.is ymB F.YM_YM_LINK_EVER = true) ∧
  (∀ (r : List Byte) (l : List (Nat × List Byte)) (s : State), s.ym.link = (1, r) :: l → s.pwr.inReset = false → s.mg.logFull = false →
     s.get bmB F.BM_M6_LEN_BYTES ≠ 0 →
     Does (.yumenLinkFrame true) s fun t => t.get brB F.LOG_WR_SLOT = (s.get brB F.LOG_WR_SLOT + 1) % 8190) ∧
  (∀ (p : Nat × List Byte) (l : List (Nat × List Byte)) (s : State), s.ym.link = p :: l → s.pwr.inReset = false →
     Does (.yumenLinkFrame false) s fun t => t.ym.link = l ∧ t.mem = s.mem ∧ t.get brB F.LOG_WR_SLOT = s.get brB F.LOG_WR_SLOT) ∧
  (∀ (c : Bool) (p : Nat × List Byte) (l : List (Nat × List Byte)) (s : State), s.ym.link = p :: l → s.pwr.inReset = true →
     Does (.yumenLinkFrame c) s fun t => t.ym.link = l ∧ t.regs = s.regs ∧ t.mem = s.mem) ∧
  (∀ (c : Bool) (s : State), s.ym.link = [] → exec (.yumenLinkFrame c) s = .next s) ∧
  (∀ s : State, s.ymOn = true → s.pwr.inReset = false → Does (.yumenStatusFrame true) s fun t => t.is ymB F.YM_YM_LINK_UP = true ∧
     t.get ymB F.YM_YM_AUDIT_VALUE = s.ym.audit % 2 ^ 32 ∧ (s.ym.locator ≠ 0 → t.rd (ymB + 0x28) = s.ym.locator) ∧ t.ym = { s.ym with evStatus := 0, locator := 0 }) ∧
  (∀ (c : Bool) (s : State), s.ymOn = true → s.pwr.inReset = true → Does (.yumenStatusFrame c) s fun t => t.regs = s.regs ∧ t.ym.evStatus = 0) ∧
  (∀ (k : Nat) (r : List Byte) (l : List (Nat × List Byte)) (s : State), s.ymOn = true → s.ym.carousel = 0 → s.ym.sRing = (k, r) :: l →
     Does .carouselRecord s fun t => t.ym = { s.ym with carousel := 2 * k + 1, link := s.ym.link ++ [(3, r)] }) ∧
  (∀ s : State, s.populated 7 = true → s.pwr.inReset = false → s.is ymB ⟨0x1C, 12, 1⟩ = false → Does .yumenLinkTimeout s fun t =>
     t.is ymB F.YM_YM_LINK_UP = false ∧ t.get ymB F.YM_YM_LINK_AGE_MS = 500 ∧ t.is ymB ⟨0x1C, 12, 1⟩ = true) ∧
  (∀ s : State, s.is ymB ⟨0x1C, 12, 1⟩ = true → exec .yumenLinkTimeout s = .next s) ∧
  (∀ s : State, s.get (gPage 0x233) F.YF_SLOTS_COUNT ≠ 0 → s.pwr.inReset = false → s.logRd ≠ s.get brB F.LOG_WR_SLOT →
     s.get bmB F.BM_M6_LEN_BYTES ≠ 0 → s.yfFull = false → Does .yfForward s fun t =>
       t.get brB F.LOG_RD_SLOT = (s.logRd + 1) % 8190 ∧
       t.get (gPage 0x233) F.YF_WR_SLOT = (s.get (gPage 0x233) F.YF_WR_SLOT + 1) % s.get (gPage 0x233) F.YF_SLOTS_COUNT ∧ t.mg.logFull = false) ∧
  (∀ s : State, s.get (gPage 0x233) F.YF_SLOTS_COUNT = 0 → exec .yfForward s = .next s)

/-- A kick reloads the watchdog; its expiry restarts Mernak with the calibration window closed and the debug port off. The debug port is
enabled unless its fuse is set. A DMA job with good arguments becomes busy and one with bad arguments ends at once; its end or its abort
ends the busy time, and a whole job inside Mernak's memory copies its bytes. An update starts, is aborted or times out, takes its next
block where the block's tag is right, and ends with the image's header written last, or with the code of its failure. A command that
does not apply changes nothing. -/
def Obligations.MernakControl : Prop :=
  (∀ s : State, Does .mgWdtKick s fun t => t.mg = { s.mg with wdt := s.get mgB F.MG_WDT_TIMEOUT_MS } ∧ t.regs = s.regs) ∧
  (∀ (u : Option (Fin 512)) (s : State), Does (.watchdog u) s fun t => t.mg.calOpen = false ∧ t.mg.wdt = s.get mgB F.MG_WDT_TIMEOUT_MS ∧
     t.debugOn = false) ∧
  (∀ s : State, s.is mgB F.MG_DBG_LOCKED = false → s.debugOn = false → Does .debugEnabled s fun t => t.debugOn = true ∧
     t.get mgB ⟨0x1C, 18, 1⟩ = 1) ∧
  (∀ s : State, s.is mgB F.MG_DBG_LOCKED = true ∨ s.debugOn = true → exec .debugEnabled s = .next s) ∧
  (∀ (v : Word) (s : State), s.present 0 = true → s.is mgB F.DMA_STAT_BUSY = false → s.dmaArgsOk = true →
     Does (.dmaGo v) s fun t => t.is mgB F.DMA_STAT_BUSY = true ∧ t.is mgB F.DMA_STAT_DONE = false ∧ t.is mgB F.DMA_STAT_BAD_ARG = false ∧
       t.get mgB F.DMA_POS_BYTES = 0) ∧
  (∀ (v : Word) (s : State), s.present 0 = true → s.is mgB F.DMA_STAT_BUSY = false → s.dmaArgsOk = false →
     Does (.dmaGo v) s fun t => t.is mgB F.DMA_STAT_BUSY = false ∧ t.is mgB F.DMA_STAT_DONE = true ∧ t.is mgB F.DMA_STAT_BAD_ARG = true) ∧
  (∀ (v : Word) (s : State), s.present 0 = true → s.is mgB F.DMA_STAT_BUSY = true →
     exec (.dmaGo v) s = .next (s.put mgB F.DMA_CTRL_QOS (fldGet v 0 4))) ∧
  (∀ (e : DmaEnd) (s : State), s.is mgB F.DMA_STAT_BUSY = true → e.pos < 16 → e.resp ≠ 0 → Does (.dmaJobEnd e) s fun t =>
     t.is mgB F.DMA_STAT_BUSY = false ∧ t.is mgB F.DMA_STAT_DONE = true ∧ t.get mgB F.DMA_STAT_RESP = e.resp ∧
     t.get mgB F.DMA_POS_BYTES = 0 ∧ t.mem = s.mem ∧ t.bus = s.bus) ∧
  (∀ (e : DmaEnd) (a b : Nat) (s : State), s.is mgB F.DMA_STAT_BUSY = true → e.resp = 0 → s.get mgB F.DMA_LEN_BYTES = 16 →
     s.dmaSrc = 0x5000000 + a → s.dmaDst = 0x5000000 + b → a + 16 ≤ 0x40000 → b + 16 ≤ 0x40000 → Does (.dmaJobEnd e) s fun t =>
     t.is mgB F.DMA_STAT_BUSY = false ∧ t.get mgB F.DMA_STAT_RESP = 0 ∧ t.get mgB F.DMA_POS_BYTES = 16 ∧ t.sramRead b 16 = s.sramRead a 16) ∧
  (∀ (e : DmaEnd) (s : State), s.present 0 = true → s.is mgB F.DMA_STAT_BUSY = true → Does (.dmaAbort e) s fun t =>
     t.is mgB F.DMA_STAT_BUSY = false ∧ t.is mgB F.DMA_STAT_DONE = true) ∧
  (∀ (e : DmaEnd) (s : State), s.present 0 = true → s.is mgB F.DMA_STAT_BUSY = false →
     exec (.dmaJobEnd e) s = .next s ∧ exec (.dmaAbort e) s = .next s) ∧
  (∀ (h : List Byte) (s : State), s.present 0 = true → s.updRuns = false → s.is mgB F.UPD_CFG_SRC = true → Does (.updStart h) s fun t =>
     t.get mgB F.UPD_STAT_STATE = 1 ∧ t.get mgB F.UPD_STAT_RESULT = 0 ∧ t.get mgB F.UPD_STAT_BLOCKS = 0 ∧ t.mg.updWin = true ∧
     t.mg.updKey = none ∧ t.mg.updSlot = if s.is mgB F.MG_STAT_RECOVERY then 0 else 1 - s.get mgB F.MG_STAT_SLOT) ∧
  (∀ (h : List Byte) (s : State), s.present 0 = true → s.updRuns = false → s.is mgB F.UPD_CFG_SRC = false → slice h 0 4 ≠ magicFw →
     Does (.updStart h) s fun t => t.get mgB F.UPD_STAT_STATE = 4 ∧ t.get mgB F.UPD_STAT_RESULT = 0x60 ∧ t.out = s.out) ∧
  (∀ (h : List Byte) (s : State), s.present 0 = true → s.updRuns = true → exec (.updStart h) s = .next s) ∧
  (∀ s : State, s.present 0 = true → s.updRuns = true → Does .updAbort s fun t =>
     t.get mgB F.UPD_STAT_STATE = 4 ∧ t.get mgB F.UPD_STAT_RESULT = 0x66 ∧ t.mg.updKey = none) ∧
  (∀ s : State, s.present 0 = true → s.mg.updWin = true → s.get mgB F.UPD_STAT_STATE = 2 → s.mg.updKey.isSome = true →
     s.get mgB F.UPD_STAT_BLOCKS < hdrN s.mg.updHeader + tagBlocks (hdrN s.mg.updHeader) →
     (Does (.updBlockReady true) s fun t => t.get mgB F.UPD_STAT_BLOCKS = (s.get mgB F.UPD_STAT_BLOCKS + 1) % 2048 ∧
       t.out = s.out ++ [.qspi (s.updPlace (s.get mgB F.UPD_STAT_BLOCKS)) s.updWindow]) ∧
     (Does (.updBlockReady false) s fun t => t.get mgB F.UPD_STAT_STATE = 4 ∧ t.get mgB F.UPD_STAT_RESULT = 0x63 ∧ t.out = s.out)) ∧
  (∀ s : State, s.mg.updWin = true → s.updRuns = true → Does .updBlockTimeout s fun t =>
     t.get mgB F.UPD_STAT_STATE = 4 ∧ t.get mgB F.UPD_STAT_RESULT = 0x66) ∧
  (∀ (l : List Byte) (s : State), s.get mgB F.UPD_STAT_STATE = 2 → s.mg.updKey.isSome = true →
     (Does (.updComplete .blockFail l) s fun t => t.get mgB F.UPD_STAT_STATE = 4 ∧ t.get mgB F.UPD_STAT_RESULT = 0x63) ∧
     (Does (.updComplete .digestFail l) s fun t => t.get mgB F.UPD_STAT_STATE = 4 ∧ t.get mgB F.UPD_STAT_RESULT = 0x64) ∧
     (Does (.updComplete .qspiFault l) s fun t => t.get mgB F.UPD_STAT_STATE = 4 ∧ t.get mgB F.UPD_STAT_RESULT = 0x65)) ∧
  (∀ (l : List Byte) (s : State), s.get mgB F.UPD_STAT_STATE = 2 → s.mg.updKey.isSome = true → s.mg.updWin = true →
     hdrN s.mg.updHeader + tagBlocks (hdrN s.mg.updHeader) ≤ s.get mgB F.UPD_STAT_BLOCKS → s.is mgB F.MG_STAT_RECOVERY = false →
     Does (.updComplete .ok l) s fun t => t.get mgB F.UPD_STAT_STATE = 3 ∧ t.get mgB F.UPD_STAT_RESULT = 0 ∧ t.mg.updKey = none ∧
       t.out = s.out ++ [.qspi (slotBase s.mg.updSlot) s.mg.updHeader]) ∧
  (∀ (b : Bool) (e : UpdEnd) (l : List Byte) (s : State), s.present 0 = true → s.updRuns = false → exec .updAbort s = .next s ∧
     exec (.updBlockReady b) s = .next s ∧ exec .updBlockTimeout s = .next s ∧ exec (.updComplete e l) s = .next s)

/-- A sensor shows the temperature with its offset, or that it has none; a rail shows its voltage. An ageing measurement enters the
operating point of the hour, and the daily sample counts a day, of a die that answers. A fault-log entry is programmed at the next place
of the log, or waits while writes are inhibited. The calibration window opens with its key alone and closes with time or with a write; a
read shows an item or why not; a write with the window open replaces the item. The learned table is kept as an item. -/
def Obligations.HealthAndCalibration : Prop :=
  (∀ (i : Fin 11) (x : Int) (s : State), s.present (if i.val < 5 then 0 else i.val - 4) = true → Does (.sensorRead i (some x)) s fun t =>
     t.geti (tempA i) F.TEMP_VALUE = clampI (-32768) 32767 (x + s.tempOffset i) ∧ t.is (tempA i) F.TEMP_VALID = true) ∧
  (∀ (i : Fin 11) (s : State), Does (.sensorRead i none) s fun t => t.is (tempA i) F.TEMP_VALID = false) ∧
  (∀ (r : Fin 13) (mv : Fin 65536) (low : Fin 8) (s : State), r = 0 ∨ 8 ≤ r.val ∨ (r.val ≤ 6 ∧ s.present r = true) →
     Does (.railRead r mv low) s fun t => t.get (tempA r) F.VOLT_MV = mv ∧ t.is (tempA r) F.VOLT_VALID = true) ∧
  (∀ (r : Fin 13) (mv : Fin 65536) (low : Fin 8) (s : State), 1 ≤ r.val → r.val ≤ 6 → s.present r = false →
     exec (.railRead r mv low) s = .next (s.put (tempA r) F.VOLT_VALID 0)) ∧
  (∀ (d : Fin 7) (c : List Nat) (mv : Nat) (temp : Int) (s : State), s.present d = true → Does (.ageingMeasure d c mv temp) s fun t =>
     (t.age d).points = ((mv, temp) :: (s.age d).points).take 60 ∧ (t.age d).days = (s.age d).days) ∧
  (∀ (d : Fin 7) (s : State), s.present d = true → Does (.ageingDaily d) s fun t => (t.age d).days = (s.age d).days + 1 ∧
     (t.age d).points = (s.age d).points) ∧
  (∀ (d : Fin 7) (c : List Nat) (mv : Nat) (temp : Int) (s : State), s.present d = false →
     exec (.ageingMeasure d c mv temp) s = .next s ∧ (d ≠ 0 → exec (.ageingDaily d) s = .next s)) ∧
  (∀ (ev : Fin 512) (n : Nat) (s : State), s.mg.logOn = true → s.inhibited = false →
     s.fBytes (0x100000 + 32 * s.mg.logNext) 32 = List.replicate 32 0xFF → Does (.faultLogWrite ev n) s fun t =>
       t.fBytes (0x100000 + 32 * s.mg.logNext) 32 = s.logEntry 0 ev n ∧ t.mg.logNext = (s.mg.logNext + 1) % 16384) ∧
  (∀ (ev : Fin 512) (n : Nat) (s : State), s.mg.logOn = true → s.inhibited = true → s.mg.logWait.length < 64 →
     Does (.faultLogWrite ev n) s fun t => t.mg = { s.mg with logWait := s.mg.logWait ++ [s.logEntry 0 ev n] } ∧ t.nv = s.nv) ∧
  (∀ (ev : Fin 512) (n : Nat) (s : State), s.mg.logOn = false → exec (.faultLogWrite ev n) s = .next s) ∧
  (∀ (k : Word) (s : State), s.present 0 = true → (Does (.calUnlock k) s fun t => t.mg = { s.mg with calOpen := k == 0xC41B } ∧ t.regs = s.regs) ∧
     (Does .calWindowExpiry s fun t => t.mg = { s.mg with calOpen := false } ∧ t.regs = s.regs)) ∧
  (∀ (v : Word) (s : State), s.present 0 = true →
     (calLen (fldGet v 0 8) = none → Does (.calRead v) s fun t => t.get calB F.CAL_STAT_CODE = 0x55 ∧ t.nv = s.nv) ∧
     (∀ n, calLen (fldGet v 0 8) = some n → (s.resolveKey (0x200 + fldGet v 0 8)).2 = none →
       Does (.calRead v) s fun t => t.get calB F.CAL_STAT_CODE = 0x50 ∧ t.get calB F.CAL_STAT_LEN = 0) ∧
     (∀ n r, calLen (fldGet v 0 8) = some n → (s.resolveKey (0x200 + fldGet v 0 8)).2 = some r → r.data.length ≤ 240 →
       Does (.calRead v) s fun t => t.get calB F.CAL_STAT_CODE = 0 ∧ t.get calB F.CAL_STAT_LEN = r.data.length ∧
         t.calData r.data.length = r.data)) ∧
  (∀ (v : Word) (s : State), s.present 0 = true → s.mg.calOpen = true → s.inhibited = false → fldGet v 0 8 = 0x11 →
     Does (.calWrite v) s fun t => t.get calB F.CAL_STAT_CODE = 0 ∧ t.get calB F.CAL_STAT_LEN = 22 ∧ t.mg.calOpen = false ∧
       tget [] t.mg.cal 0x11 = s.calData 22) ∧
  (∀ (v : Word) (s : State), s.present 0 = true →
     (s.mg.calOpen = false → Does (.calWrite v) s fun t => t.get calB F.CAL_STAT_CODE = 0x51 ∧ t.nv = s.nv ∧ t.mg = s.mg) ∧
     (s.mg.calOpen = true → calLen (fldGet v 0 8) = none → Does (.calWrite v) s fun t =>
       t.get calB F.CAL_STAT_CODE = 0x55 ∧ t.nv = s.nv ∧ t.mg = { s.mg with calOpen := false }) ∧
     (∀ n, s.mg.calOpen = true → calLen (fldGet v 0 8) = some n → s.inhibited = true → Does (.calWrite v) s fun t =>
       t.get calB F.CAL_STAT_CODE = 0x48 ∧ t.nv = s.nv ∧ t.mg = s.mg)) ∧
  (∀ s : State, s.is tcB F.TC_CFG_LEARN = true → s.inhibited = false → Does .learnTableSave s fun t =>
     tget [] t.mg.cal 0x10 = s.tc.dcoTable.flatMap fun e => leBytes 2 (unsgn 16 e)) ∧
  (∀ s : State, s.is tcB F.TC_CFG_LEARN = false ∨ s.inhibited = true → exec .learnTableSave s = .next s)

/-- Part reset returns every value in effect and the memory contents to their reset state, leaves Yumen, the flash array and the powered
hours as they are, and holds the part in reset; after a loss of power good the next start is cold. A start takes the part out of reset
with the timing core running, in recovery where no image has the format. A part that is not in reset is not started again. The PCIe link
comes up. A populated Sheaf with a passing link in each direction comes up with those links, and one without does not. A Sheaf that is
lost no longer answers and its links are down. -/
def Obligations.StartupAndSheafs : Prop :=
  (∀ s : State, (Does .porstAssert s fun t => t.eff = State.reset.eff ∧ t.mem = State.reset.mem ∧ t.ym = s.ym ∧ t.nv.flash = s.nv.flash ∧
       t.get mgB F.MG_POWERED_HOURS = s.get mgB F.MG_POWERED_HOURS ∧ t.pwr.inReset = true ∧ t.pwr.coldNext = s.pwr.coldNext ∧ t.pwr.up = 0) ∧
     (Does .powerGoodReset s fun t => t.eff = State.reset.eff ∧ t.mem = State.reset.mem ∧ t.ym = s.ym ∧ t.nv.flash = s.nv.flash ∧
       t.get mgB F.MG_POWERED_HOURS = s.get mgB F.MG_POWERED_HOURS ∧ t.pwr.inReset = true ∧ t.pwr.coldNext = true ∧ t.pwr.up = 0)) ∧
  (∀ (b : Boot) (s : State), s.pwr.inReset = true → Does (.coldStart b) s fun t => t.pwr.inReset = false ∧ t.pwr.coldNext = false ∧
     t.tc.started = true) ∧
  (∀ (b : Boot) (s : State), s.pwr.inReset = true → slice b.slotA.header 0 4 ≠ magicFw → slice b.slotB.header 0 4 ≠ magicFw →
     Does (.coldStart b) s fun t => t.is mgB F.MG_STAT_RECOVERY = true ∧ t.pwr.inReset = false) ∧
  (∀ (b : Boot) (s : State), s.pwr.inReset = false → exec (.coldStart b) s = .next s) ∧
  (∀ s : State, exec .pcieLinkUp s = .next { s with pwr := { s.pwr with pcie := true } }) ∧
  (∀ (d : Fin 8) (pass : Fin 16) (s : State), 1 ≤ d.val → d.val ≤ 6 → s.populated d = true → s.pwr.sheafsOut = true → s.present d = false →
     pass.val % 4 ≠ 0 → pass.val / 4 ≠ 0 → Does (.sheafBringup d pass) s fun t => t.present d = true ∧ t.get flB (linkFld d) = pass) ∧
  (∀ (d : Fin 8) (pass : Fin 16) (s : State), 1 ≤ d.val → d.val ≤ 6 → s.populated d = true → s.pwr.sheafsOut = true → s.present d = false →
     pass.val % 4 = 0 ∨ pass.val / 4 = 0 → Does (.sheafBringup d pass) s fun t => t.present d = false ∧ t.get flB (linkFld d) = 0) ∧
  (∀ (d : Fin 8) (pass : Fin 16) (s : State), s.pwr.sheafsOut = false ∨ s.present d = true → exec (.sheafBringup d pass) s = .next s) ∧
  (∀ (d : Fin 8) (s : State), s.sheafUp d = true → Does (.sheafDown d) s fun t => t.present d = false ∧ t.get flB (linkFld d) = 0) ∧
  (∀ (d : Fin 8) (s : State), s.sheafUp d = false → exec (.sheafDown d) s = .next s)
end

