-- ==== Sys2Proof/Laws/Frame.lean ====
section
/-! SUPPORT. Frames: which parts of the state an operation leaves alone. `erase m s` is the state with the parts of the mask `m` at their
reset value; that an operation keeps `erase m` says that it touches no part outside `m`. -/

set_option Elab.async false

namespace Sys2Proof.Machine

/-- The state with the parts of a mask at their reset value: bit i is the i-th field of State. -/
def erase (m : Nat) (s : State) : State where
  regs := if m.testBit 0 then State.reset.regs else s.regs
  eff := if m.testBit 1 then State.reset.eff else s.eff
  tags := if m.testBit 2 then State.reset.tags else s.tags
  grps := if m.testBit 3 then State.reset.grps else s.grps
  irq := if m.testBit 4 then State.reset.irq else s.irq
  sdiRx := if m.testBit 5 then State.reset.sdiRx else s.sdiRx
  sdiTx := if m.testBit 6 then State.reset.sdiTx else s.sdiTx
  tc := if m.testBit 7 then State.reset.tc else s.tc
  tds := if m.testBit 8 then State.reset.tds else s.tds
  floor := if m.testBit 9 then State.reset.floor else s.floor
  silo := if m.testBit 10 then State.reset.silo else s.silo
  comps := if m.testBit 11 then State.reset.comps else s.comps
  conv := if m.testBit 12 then State.reset.conv else s.conv
  aud := if m.testBit 13 then State.reset.aud else s.aud
  ip := if m.testBit 14 then State.reset.ip else s.ip
  mem := if m.testBit 15 then State.reset.mem else s.mem
  bus := if m.testBit 16 then State.reset.bus else s.bus
  ks := if m.testBit 17 then State.reset.ks else s.ks
  nv := if m.testBit 18 then State.reset.nv else s.nv
  ym := if m.testBit 19 then State.reset.ym else s.ym
  mg := if m.testBit 20 then State.reset.mg else s.mg
  pwr := if m.testBit 21 then State.reset.pwr else s.pwr
  readData := if m.testBit 22 then State.reset.readData else s.readData
  out := if m.testBit 23 then State.reset.out else s.out
  freeCtr := if m.testBit 24 then State.reset.freeCtr else s.freeCtr
  pending := if m.testBit 25 then State.reset.pending else s.pending

/-- Every part of one mask is in the other. -/
def within (m n : Nat) : Bool := m &&& n == m

theorem within_testBit {m n : Nat} (h : within m n = true) {i : Nat} (hi : m.testBit i = true) : n.testBit i = true := by
  have h' : m &&& n = m := by simpa [within] using h
  have := congrArg (fun x => Nat.testBit x i) h'
  simpa [Nat.testBit_and, hi] using this

theorem within_trans {a b c : Nat} (h : within a b = true) (g : within b c = true) : within a c = true := by
  have h' : a &&& b = a := by simpa [within] using h
  have g' : b &&& c = b := by simpa [within] using g
  have : a &&& c = a := by rw [← h', Nat.and_assoc, g']
  simpa [within] using this

theorem State.ext_parts {s t : State}
    (_ : s.regs = t.regs)
    (_ : s.eff = t.eff)
    (_ : s.tags = t.tags)
    (_ : s.grps = t.grps)
    (_ : s.irq = t.irq)
    (_ : s.sdiRx = t.sdiRx)
    (_ : s.sdiTx = t.sdiTx)
    (_ : s.tc = t.tc)
    (_ : s.tds = t.tds)
    (_ : s.floor = t.floor)
    (_ : s.silo = t.silo)
    (_ : s.comps = t.comps)
    (_ : s.conv = t.conv)
    (_ : s.aud = t.aud)
    (_ : s.ip = t.ip)
    (_ : s.mem = t.mem)
    (_ : s.bus = t.bus)
    (_ : s.ks = t.ks)
    (_ : s.nv = t.nv)
    (_ : s.ym = t.ym)
    (_ : s.mg = t.mg)
    (_ : s.pwr = t.pwr)
    (_ : s.readData = t.readData)
    (_ : s.out = t.out)
    (_ : s.freeCtr = t.freeCtr)
    (_ : s.pending = t.pending)
    : s = t := by
  cases s; cases t; simp_all

/-- What an operation keeps outside a mask, it keeps outside a larger one. -/
theorem erase_mono {m n : Nat} {s t : State} (h : within m n = true) (e : erase m t = erase m s) : erase n t = erase n s := by
  have key : ∀ i, n.testBit i = false → m.testBit i = false := fun i hi => by
    cases hm : m.testBit i with
    | false => rfl
    | true => simp [within_testBit h hm] at hi
  apply State.ext_parts <;> simp only [erase] <;> split <;> first | rfl | skip
  · rename_i hn; have := congrArg State.regs e; simpa only [erase, key 0 (Bool.eq_false_iff.2 hn), Bool.false_eq_true, if_false] using this
  · rename_i hn; have := congrArg State.eff e; simpa only [erase, key 1 (Bool.eq_false_iff.2 hn), Bool.false_eq_true, if_false] using this
  · rename_i hn; have := congrArg State.tags e; simpa only [erase, key 2 (Bool.eq_false_iff.2 hn), Bool.false_eq_true, if_false] using this
  · rename_i hn; have := congrArg State.grps e; simpa only [erase, key 3 (Bool.eq_false_iff.2 hn), Bool.false_eq_true, if_false] using this
  · rename_i hn; have := congrArg State.irq e; simpa only [erase, key 4 (Bool.eq_false_iff.2 hn), Bool.false_eq_true, if_false] using this
  · rename_i hn; have := congrArg State.sdiRx e; simpa only [erase, key 5 (Bool.eq_false_iff.2 hn), Bool.false_eq_true, if_false] using this
  · rename_i hn; have := congrArg State.sdiTx e; simpa only [erase, key 6 (Bool.eq_false_iff.2 hn), Bool.false_eq_true, if_false] using this
  · rename_i hn; have := congrArg State.tc e; simpa only [erase, key 7 (Bool.eq_false_iff.2 hn), Bool.false_eq_true, if_false] using this
  · rename_i hn; have := congrArg State.tds e; simpa only [erase, key 8 (Bool.eq_false_iff.2 hn), Bool.false_eq_true, if_false] using this
  · rename_i hn; have := congrArg State.floor e; simpa only [erase, key 9 (Bool.eq_false_iff.2 hn), Bool.false_eq_true, if_false] using this
  · rename_i hn; have := congrArg State.silo e; simpa only [erase, key 10 (Bool.eq_false_iff.2 hn), Bool.false_eq_true, if_false] using this
  · rename_i hn; have := congrArg State.comps e; simpa only [erase, key 11 (Bool.eq_false_iff.2 hn), Bool.false_eq_true, if_false] using this
  · rename_i hn; have := congrArg State.conv e; simpa only [erase, key 12 (Bool.eq_false_iff.2 hn), Bool.false_eq_true, if_false] using this
  · rename_i hn; have := congrArg State.aud e; simpa only [erase, key 13 (Bool.eq_false_iff.2 hn), Bool.false_eq_true, if_false] using this
  · rename_i hn; have := congrArg State.ip e; simpa only [erase, key 14 (Bool.eq_false_iff.2 hn), Bool.false_eq_true, if_false] using this
  · rename_i hn; have := congrArg State.mem e; simpa only [erase, key 15 (Bool.eq_false_iff.2 hn), Bool.false_eq_true, if_false] using this
  · rename_i hn; have := congrArg State.bus e; simpa only [erase, key 16 (Bool.eq_false_iff.2 hn), Bool.false_eq_true, if_false] using this
  · rename_i hn; have := congrArg State.ks e; simpa only [erase, key 17 (Bool.eq_false_iff.2 hn), Bool.false_eq_true, if_false] using this
  · rename_i hn; have := congrArg State.nv e; simpa only [erase, key 18 (Bool.eq_false_iff.2 hn), Bool.false_eq_true, if_false] using this
  · rename_i hn; have := congrArg State.ym e; simpa only [erase, key 19 (Bool.eq_false_iff.2 hn), Bool.false_eq_true, if_false] using this
  · rename_i hn; have := congrArg State.mg e; simpa only [erase, key 20 (Bool.eq_false_iff.2 hn), Bool.false_eq_true, if_false] using this
  · rename_i hn; have := congrArg State.pwr e; simpa only [erase, key 21 (Bool.eq_false_iff.2 hn), Bool.false_eq_true, if_false] using this
  · rename_i hn; have := congrArg State.readData e; simpa only [erase, key 22 (Bool.eq_false_iff.2 hn), Bool.false_eq_true, if_false] using this
  · rename_i hn; have := congrArg State.out e; simpa only [erase, key 23 (Bool.eq_false_iff.2 hn), Bool.false_eq_true, if_false] using this
  · rename_i hn; have := congrArg State.freeCtr e; simpa only [erase, key 24 (Bool.eq_false_iff.2 hn), Bool.false_eq_true, if_false] using this
  · rename_i hn; have := congrArg State.pending e; simpa only [erase, key 25 (Bool.eq_false_iff.2 hn), Bool.false_eq_true, if_false] using this

theorem upd_regs_er {m : Nat} {s u : State} {x} (e : erase m u = erase m s) (h : m.testBit 0 = true := by decide) :
    erase m { u with regs := x } = erase m s := by rw [← e]; simp only [erase, h, if_true]
theorem upd_eff_er {m : Nat} {s u : State} {x} (e : erase m u = erase m s) (h : m.testBit 1 = true := by decide) :
    erase m { u with eff := x } = erase m s := by rw [← e]; simp only [erase, h, if_true]
theorem upd_tags_er {m : Nat} {s u : State} {x} (e : erase m u = erase m s) (h : m.testBit 2 = true := by decide) :
    erase m { u with tags := x } = erase m s := by rw [← e]; simp only [erase, h, if_true]
theorem upd_grps_er {m : Nat} {s u : State} {x} (e : erase m u = erase m s) (h : m.testBit 3 = true := by decide) :
    erase m { u with grps := x } = erase m s := by rw [← e]; simp only [erase, h, if_true]
theorem upd_irq_er {m : Nat} {s u : State} {x} (e : erase m u = erase m s) (h : m.testBit 4 = true := by decide) :
    erase m { u with irq := x } = erase m s := by rw [← e]; simp only [erase, h, if_true]
theorem upd_sdiRx_er {m : Nat} {s u : State} {x} (e : erase m u = erase m s) (h : m.testBit 5 = true := by decide) :
    erase m { u with sdiRx := x } = erase m s := by rw [← e]; simp only [erase, h, if_true]
theorem upd_sdiTx_er {m : Nat} {s u : State} {x} (e : erase m u = erase m s) (h : m.testBit 6 = true := by decide) :
    erase m { u with sdiTx := x } = erase m s := by rw [← e]; simp only [erase, h, if_true]
theorem upd_tc_er {m : Nat} {s u : State} {x} (e : erase m u = erase m s) (h : m.testBit 7 = true := by decide) :
    erase m { u with tc := x } = erase m s := by rw [← e]; simp only [erase, h, if_true]
theorem upd_tds_er {m : Nat} {s u : State} {x} (e : erase m u = erase m s) (h : m.testBit 8 = true := by decide) :
    erase m { u with tds := x } = erase m s := by rw [← e]; simp only [erase, h, if_true]
theorem upd_floor_er {m : Nat} {s u : State} {x} (e : erase m u = erase m s) (h : m.testBit 9 = true := by decide) :
    erase m { u with floor := x } = erase m s := by rw [← e]; simp only [erase, h, if_true]
theorem upd_silo_er {m : Nat} {s u : State} {x} (e : erase m u = erase m s) (h : m.testBit 10 = true := by decide) :
    erase m { u with silo := x } = erase m s := by rw [← e]; simp only [erase, h, if_true]
theorem upd_comps_er {m : Nat} {s u : State} {x} (e : erase m u = erase m s) (h : m.testBit 11 = true := by decide) :
    erase m { u with comps := x } = erase m s := by rw [← e]; simp only [erase, h, if_true]
theorem upd_conv_er {m : Nat} {s u : State} {x} (e : erase m u = erase m s) (h : m.testBit 12 = true := by decide) :
    erase m { u with conv := x } = erase m s := by rw [← e]; simp only [erase, h, if_true]
theorem upd_aud_er {m : Nat} {s u : State} {x} (e : erase m u = erase m s) (h : m.testBit 13 = true := by decide) :
    erase m { u with aud := x } = erase m s := by rw [← e]; simp only [erase, h, if_true]
theorem upd_ip_er {m : Nat} {s u : State} {x} (e : erase m u = erase m s) (h : m.testBit 14 = true := by decide) :
    erase m { u with ip := x } = erase m s := by rw [← e]; simp only [erase, h, if_true]
theorem upd_mem_er {m : Nat} {s u : State} {x} (e : erase m u = erase m s) (h : m.testBit 15 = true := by decide) :
    erase m { u with mem := x } = erase m s := by rw [← e]; simp only [erase, h, if_true]
theorem upd_bus_er {m : Nat} {s u : State} {x} (e : erase m u = erase m s) (h : m.testBit 16 = true := by decide) :
    erase m { u with bus := x } = erase m s := by rw [← e]; simp only [erase, h, if_true]
theorem upd_ks_er {m : Nat} {s u : State} {x} (e : erase m u = erase m s) (h : m.testBit 17 = true := by decide) :
    erase m { u with ks := x } = erase m s := by rw [← e]; simp only [erase, h, if_true]
theorem upd_nv_er {m : Nat} {s u : State} {x} (e : erase m u = erase m s) (h : m.testBit 18 = true := by decide) :
    erase m { u with nv := x } = erase m s := by rw [← e]; simp only [erase, h, if_true]
theorem upd_ym_er {m : Nat} {s u : State} {x} (e : erase m u = erase m s) (h : m.testBit 19 = true := by decide) :
    erase m { u with ym := x } = erase m s := by rw [← e]; simp only [erase, h, if_true]
theorem upd_mg_er {m : Nat} {s u : State} {x} (e : erase m u = erase m s) (h : m.testBit 20 = true := by decide) :
    erase m { u with mg := x } = erase m s := by rw [← e]; simp only [erase, h, if_true]
theorem upd_pwr_er {m : Nat} {s u : State} {x} (e : erase m u = erase m s) (h : m.testBit 21 = true := by decide) :
    erase m { u with pwr := x } = erase m s := by rw [← e]; simp only [erase, h, if_true]
theorem upd_readData_er {m : Nat} {s u : State} {x} (e : erase m u = erase m s) (h : m.testBit 22 = true := by decide) :
    erase m { u with readData := x } = erase m s := by rw [← e]; simp only [erase, h, if_true]
theorem upd_out_er {m : Nat} {s u : State} {x} (e : erase m u = erase m s) (h : m.testBit 23 = true := by decide) :
    erase m { u with out := x } = erase m s := by rw [← e]; simp only [erase, h, if_true]
theorem upd_freeCtr_er {m : Nat} {s u : State} {x} (e : erase m u = erase m s) (h : m.testBit 24 = true := by decide) :
    erase m { u with freeCtr := x } = erase m s := by rw [← e]; simp only [erase, h, if_true]
theorem upd_pending_er {m : Nat} {s u : State} {x} (e : erase m u = erase m s) (h : m.testBit 25 = true := by decide) :
    erase m { u with pending := x } = erase m s := by rw [← e]; simp only [erase, h, if_true]

/-- A state that differs only in parts of the mask. -/
theorem erase_of_parts {m : Nat} {s t : State}
    (h0 : m.testBit 0 = true ∨ t.regs = s.regs)
    (h1 : m.testBit 1 = true ∨ t.eff = s.eff)
    (h2 : m.testBit 2 = true ∨ t.tags = s.tags)
    (h3 : m.testBit 3 = true ∨ t.grps = s.grps)
    (h4 : m.testBit 4 = true ∨ t.irq = s.irq)
    (h5 : m.testBit 5 = true ∨ t.sdiRx = s.sdiRx)
    (h6 : m.testBit 6 = true ∨ t.sdiTx = s.sdiTx)
    (h7 : m.testBit 7 = true ∨ t.tc = s.tc)
    (h8 : m.testBit 8 = true ∨ t.tds = s.tds)
    (h9 : m.testBit 9 = true ∨ t.floor = s.floor)
    (h10 : m.testBit 10 = true ∨ t.silo = s.silo)
    (h11 : m.testBit 11 = true ∨ t.comps = s.comps)
    (h12 : m.testBit 12 = true ∨ t.conv = s.conv)
    (h13 : m.testBit 13 = true ∨ t.aud = s.aud)
    (h14 : m.testBit 14 = true ∨ t.ip = s.ip)
    (h15 : m.testBit 15 = true ∨ t.mem = s.mem)
    (h16 : m.testBit 16 = true ∨ t.bus = s.bus)
    (h17 : m.testBit 17 = true ∨ t.ks = s.ks)
    (h18 : m.testBit 18 = true ∨ t.nv = s.nv)
    (h19 : m.testBit 19 = true ∨ t.ym = s.ym)
    (h20 : m.testBit 20 = true ∨ t.mg = s.mg)
    (h21 : m.testBit 21 = true ∨ t.pwr = s.pwr)
    (h22 : m.testBit 22 = true ∨ t.readData = s.readData)
    (h23 : m.testBit 23 = true ∨ t.out = s.out)
    (h24 : m.testBit 24 = true ∨ t.freeCtr = s.freeCtr)
    (h25 : m.testBit 25 = true ∨ t.pending = s.pending)
    : erase m t = erase m s := by
  apply State.ext_parts <;> simp only [erase] <;> split <;> first | rfl | skip
  · exact h0.resolve_left (by assumption)
  · exact h1.resolve_left (by assumption)
  · exact h2.resolve_left (by assumption)
  · exact h3.resolve_left (by assumption)
  · exact h4.resolve_left (by assumption)
  · exact h5.resolve_left (by assumption)
  · exact h6.resolve_left (by assumption)
  · exact h7.resolve_left (by assumption)
  · exact h8.resolve_left (by assumption)
  · exact h9.resolve_left (by assumption)
  · exact h10.resolve_left (by assumption)
  · exact h11.resolve_left (by assumption)
  · exact h12.resolve_left (by assumption)
  · exact h13.resolve_left (by assumption)
  · exact h14.resolve_left (by assumption)
  · exact h15.resolve_left (by assumption)
  · exact h16.resolve_left (by assumption)
  · exact h17.resolve_left (by assumption)
  · exact h18.resolve_left (by assumption)
  · exact h19.resolve_left (by assumption)
  · exact h20.resolve_left (by assumption)
  · exact h21.resolve_left (by assumption)
  · exact h22.resolve_left (by assumption)
  · exact h23.resolve_left (by assumption)
  · exact h24.resolve_left (by assumption)
  · exact h25.resolve_left (by assumption)

theorem erase_ite {m : Nat} {c : Prop} [Decidable c] {a b s : State} (ha : erase m a = erase m s) (hb : erase m b = erase m s) :
    erase m (if c then a else b) = erase m s := by split <;> assumption

theorem erase_ite_fst {α : Type} {m : Nat} {c : Prop} [Decidable c] {a b : State × α} {s : State} (ha : erase m a.1 = erase m s)
    (hb : erase m b.1 = erase m s) : erase m (if c then a else b).1 = erase m s := by split <;> assumption

theorem erase_of_fst {α : Type} {m : Nat} {q : State × α} {t s : State} {a : α} (h : q = (t, a)) (e : erase m q.1 = erase m s) :
    erase m t = erase m s := by subst h; exact e

theorem erase_foldl {α : Type} {m : Nat} {f : State → α → State} {l : List α} {s u : State} (e : erase m u = erase m s)
    (h : ∀ v x, erase m (f v x) = erase m v) : erase m (l.foldl f u) = erase m s := by
  induction l generalizing u with
  | nil => exact e
  | cons x l ih => exact ih ((h u x).trans e)

theorem erase_foldl_fst {α β : Type} {m : Nat} {f : State × β → α → State × β} {l : List α} {s : State} {p : State × β}
    (e : erase m p.1 = erase m s) (h : ∀ q x, erase m (f q x).1 = erase m q.1) : erase m (l.foldl f p).1 = erase m s := by
  induction l generalizing p with
  | nil => exact e
  | cons x l ih => exact ih ((h p x).trans e)

/-! A part outside the mask is the same. -/

theorem erase_regs {m : Nat} {s t : State} (e : erase m t = erase m s) (h : m.testBit 0 = false := by decide) : t.regs = s.regs := by
  have := congrArg State.regs e
  simpa only [erase, h, Bool.false_eq_true, if_false] using this
theorem erase_eff {m : Nat} {s t : State} (e : erase m t = erase m s) (h : m.testBit 1 = false := by decide) : t.eff = s.eff := by
  have := congrArg State.eff e
  simpa only [erase, h, Bool.false_eq_true, if_false] using this
theorem erase_tags {m : Nat} {s t : State} (e : erase m t = erase m s) (h : m.testBit 2 = false := by decide) : t.tags = s.tags := by
  have := congrArg State.tags e
  simpa only [erase, h, Bool.false_eq_true, if_false] using this
theorem erase_grps {m : Nat} {s t : State} (e : erase m t = erase m s) (h : m.testBit 3 = false := by decide) : t.grps = s.grps := by
  have := congrArg State.grps e
  simpa only [erase, h, Bool.false_eq_true, if_false] using this
theorem erase_irq {m : Nat} {s t : State} (e : erase m t = erase m s) (h : m.testBit 4 = false := by decide) : t.irq = s.irq := by
  have := congrArg State.irq e
  simpa only [erase, h, Bool.false_eq_true, if_false] using this
theorem erase_sdiRx {m : Nat} {s t : State} (e : erase m t = erase m s) (h : m.testBit 5 = false := by decide) : t.sdiRx = s.sdiRx := by
  have := congrArg State.sdiRx e
  simpa only [erase, h, Bool.false_eq_true, if_false] using this
theorem erase_sdiTx {m : Nat} {s t : State} (e : erase m t = erase m s) (h : m.testBit 6 = false := by decide) : t.sdiTx = s.sdiTx := by
  have := congrArg State.sdiTx e
  simpa only [erase, h, Bool.false_eq_true, if_false] using this
theorem erase_tc {m : Nat} {s t : State} (e : erase m t = erase m s) (h : m.testBit 7 = false := by decide) : t.tc = s.tc := by
  have := congrArg State.tc e
  simpa only [erase, h, Bool.false_eq_true, if_false] using this
theorem erase_tds {m : Nat} {s t : State} (e : erase m t = erase m s) (h : m.testBit 8 = false := by decide) : t.tds = s.tds := by
  have := congrArg State.tds e
  simpa only [erase, h, Bool.false_eq_true, if_false] using this
theorem erase_floor {m : Nat} {s t : State} (e : erase m t = erase m s) (h : m.testBit 9 = false := by decide) : t.floor = s.floor := by
  have := congrArg State.floor e
  simpa only [erase, h, Bool.false_eq_true, if_false] using this
theorem erase_silo {m : Nat} {s t : State} (e : erase m t = erase m s) (h : m.testBit 10 = false := by decide) : t.silo = s.silo := by
  have := congrArg State.silo e
  simpa only [erase, h, Bool.false_eq_true, if_false] using this
theorem erase_comps {m : Nat} {s t : State} (e : erase m t = erase m s) (h : m.testBit 11 = false := by decide) : t.comps = s.comps := by
  have := congrArg State.comps e
  simpa only [erase, h, Bool.false_eq_true, if_false] using this
theorem erase_conv {m : Nat} {s t : State} (e : erase m t = erase m s) (h : m.testBit 12 = false := by decide) : t.conv = s.conv := by
  have := congrArg State.conv e
  simpa only [erase, h, Bool.false_eq_true, if_false] using this
theorem erase_aud {m : Nat} {s t : State} (e : erase m t = erase m s) (h : m.testBit 13 = false := by decide) : t.aud = s.aud := by
  have := congrArg State.aud e
  simpa only [erase, h, Bool.false_eq_true, if_false] using this
theorem erase_ip {m : Nat} {s t : State} (e : erase m t = erase m s) (h : m.testBit 14 = false := by decide) : t.ip = s.ip := by
  have := congrArg State.ip e
  simpa only [erase, h, Bool.false_eq_true, if_false] using this
theorem erase_mem {m : Nat} {s t : State} (e : erase m t = erase m s) (h : m.testBit 15 = false := by decide) : t.mem = s.mem := by
  have := congrArg State.mem e
  simpa only [erase, h, Bool.false_eq_true, if_false] using this
theorem erase_bus {m : Nat} {s t : State} (e : erase m t = erase m s) (h : m.testBit 16 = false := by decide) : t.bus = s.bus := by
  have := congrArg State.bus e
  simpa only [erase, h, Bool.false_eq_true, if_false] using this
theorem erase_ks {m : Nat} {s t : State} (e : erase m t = erase m s) (h : m.testBit 17 = false := by decide) : t.ks = s.ks := by
  have := congrArg State.ks e
  simpa only [erase, h, Bool.false_eq_true, if_false] using this
theorem erase_nv {m : Nat} {s t : State} (e : erase m t = erase m s) (h : m.testBit 18 = false := by decide) : t.nv = s.nv := by
  have := congrArg State.nv e
  simpa only [erase, h, Bool.false_eq_true, if_false] using this
theorem erase_ym {m : Nat} {s t : State} (e : erase m t = erase m s) (h : m.testBit 19 = false := by decide) : t.ym = s.ym := by
  have := congrArg State.ym e
  simpa only [erase, h, Bool.false_eq_true, if_false] using this
theorem erase_mg {m : Nat} {s t : State} (e : erase m t = erase m s) (h : m.testBit 20 = false := by decide) : t.mg = s.mg := by
  have := congrArg State.mg e
  simpa only [erase, h, Bool.false_eq_true, if_false] using this
theorem erase_pwr {m : Nat} {s t : State} (e : erase m t = erase m s) (h : m.testBit 21 = false := by decide) : t.pwr = s.pwr := by
  have := congrArg State.pwr e
  simpa only [erase, h, Bool.false_eq_true, if_false] using this
theorem erase_readData {m : Nat} {s t : State} (e : erase m t = erase m s) (h : m.testBit 22 = false := by decide) : t.readData = s.readData := by
  have := congrArg State.readData e
  simpa only [erase, h, Bool.false_eq_true, if_false] using this
theorem erase_out {m : Nat} {s t : State} (e : erase m t = erase m s) (h : m.testBit 23 = false := by decide) : t.out = s.out := by
  have := congrArg State.out e
  simpa only [erase, h, Bool.false_eq_true, if_false] using this
theorem erase_freeCtr {m : Nat} {s t : State} (e : erase m t = erase m s) (h : m.testBit 24 = false := by decide) : t.freeCtr = s.freeCtr := by
  have := congrArg State.freeCtr e
  simpa only [erase, h, Bool.false_eq_true, if_false] using this
theorem erase_pending {m : Nat} {s t : State} (e : erase m t = erase m s) (h : m.testBit 25 = false := by decide) : t.pending = s.pending := by
  have := congrArg State.pending e
  simpa only [erase, h, Bool.false_eq_true, if_false] using this

end Sys2Proof.Machine
end

