-- ==== Sys2Proof/Laws/FrameOps.lean ====
section
/-! SUPPORT. Frames of the operations of Machine/Ops.lean. -/

set_option Elab.async false

namespace Sys2Proof.Machine

theorem State.wr_er {m : Nat} {s : State} {u : State} {a : Nat} {v : Word} (he : erase m u = erase m s) (hw : within 1 m = true := by decide) :
    erase m (State.wr u a v) = erase m s := by
  refine (erase_mono (m := 1) hw ?_).trans he
  unfold State.wr
  repeat' first
    | with_reducible rfl
    | with_reducible assumption
    | with_reducible refine upd_regs_er ?_

theorem State.effWr_er {m : Nat} {s : State} {u : State} {a : Nat} {v : Word} (he : erase m u = erase m s) (hw : within 2 m = true := by decide) :
    erase m (State.effWr u a v) = erase m s := by
  refine (erase_mono (m := 2) hw ?_).trans he
  unfold State.effWr
  repeat' first
    | with_reducible rfl
    | with_reducible assumption
    | with_reducible refine upd_eff_er ?_

theorem State.put_er {m : Nat} {s : State} {u : State} {base : Nat} {f : Fld} {v : Nat} (he : erase m u = erase m s) (hw : within 1 m = true := by decide) :
    erase m (State.put u base f v) = erase m s := by
  refine (erase_mono (m := 1) hw ?_).trans he
  unfold State.put
  repeat' first
    | with_reducible rfl
    | with_reducible assumption
    | with_reducible refine State.wr_er ?_

theorem State.bump_er {m : Nat} {s : State} {u : State} {base : Nat} {f : Fld} {n : Nat} (he : erase m u = erase m s) (hw : within 1 m = true := by decide) :
    erase m (State.bump u base f n) = erase m s := by
  refine (erase_mono (m := 1) hw ?_).trans he
  unfold State.bump
  repeat' first
    | with_reducible rfl
    | with_reducible assumption
    | with_reducible refine State.put_er ?_

theorem State.puts_er {m : Nat} {s u : State} {base : Nat} {l : List (Fld × Nat)} (e : erase m u = erase m s) (h : within 1 m = true := by decide) :
    erase m (State.puts u base l) = erase m s := by
  induction l generalizing u with
  | nil => exact e
  | cons p l ih => exact ih (State.put_er e h)

theorem State.emit_er {m : Nat} {s : State} {u : State} {mz : OutMsg} (he : erase m u = erase m s) (hw : within 8388608 m = true := by decide) :
    erase m (State.emit u mz) = erase m s := by
  refine (erase_mono (m := 8388608) hw ?_).trans he
  unfold State.emit
  repeat' first
    | with_reducible rfl
    | with_reducible assumption
    | with_reducible refine upd_out_er ?_

theorem State.answer_er {m : Nat} {s : State} {u : State} {v : Word} (he : erase m u = erase m s) (hw : within 4194304 m = true := by decide) :
    erase m (State.answer u v) = erase m s := by
  refine (erase_mono (m := 4194304) hw ?_).trans he
  unfold State.answer
  repeat' first
    | with_reducible rfl
    | with_reducible assumption
    | with_reducible refine upd_readData_er ?_

theorem State.tick_er {m : Nat} {s : State} {u : State} (he : erase m u = erase m s) (hw : within 16777216 m = true := by decide) :
    erase m (State.tick u) = erase m s := by
  refine (erase_mono (m := 16777216) hw ?_).trans he
  unfold State.tick
  repeat' first
    | with_reducible rfl
    | with_reducible assumption
    | with_reducible refine upd_freeCtr_er ?_

theorem State.forAll_er {m : Nat} {s u : State} {l : List Nat} {f : Nat → State → State} (e : erase m u = erase m s)
    (hf : ∀ i v, erase m (f i v) = erase m v) : erase m (State.forAll u l f) = erase m s := erase_foldl e fun v i => hf i v

theorem State.whenB_er {m : Nat} {s u : State} {b : Bool} {f : State → State} (e : erase m u = erase m s)
    (hf : ∀ v, erase m (f v) = erase m v) : erase m (State.whenB u b f) = erase m s := by
  cases b
  · exact e
  · exact (hf u).trans e

theorem State.setFault_er {m : Nat} {s : State} {u : State} {base : Nat} {array : Nat} {index : Nat} (he : erase m u = erase m s) (hw : within 1 m = true := by decide) :
    erase m (State.setFault u base array index) = erase m s := by
  refine (erase_mono (m := 1) hw ?_).trans he
  unfold State.setFault
  repeat' first
    | with_reducible rfl
    | with_reducible assumption
    | with_reducible refine State.wr_er ?_
    | with_reducible refine State.put_er ?_

theorem State.setTag_er {m : Nat} {s : State} {u : State} {a : Nat} {n : Nat} (he : erase m u = erase m s) (hw : within 4 m = true := by decide) :
    erase m (State.setTag u a n) = erase m s := by
  refine (erase_mono (m := 4) hw ?_).trans he
  unfold State.setTag
  repeat' first
    | with_reducible rfl
    | with_reducible assumption
    | with_reducible refine upd_tags_er ?_

theorem State.setGrp_er {m : Nat} {s : State} {u : State} {n : Nat} {g : Grp} (he : erase m u = erase m s) (hw : within 8 m = true := by decide) :
    erase m (State.setGrp u n g) = erase m s := by
  refine (erase_mono (m := 8) hw ?_).trans he
  unfold State.setGrp
  repeat' first
    | with_reducible rfl
    | with_reducible assumption
    | with_reducible refine upd_grps_er ?_

theorem State.applyStaging_er {m : Nat} {s u : State} {l : List (Nat × Word)} (e : erase m u = erase m s) (h : within 2 m = true := by decide) :
    erase m (State.applyStaging u l) = erase m s := by
  induction l generalizing u with
  | nil => exact e
  | cons p l ih => exact ih (State.effWr_er e h)

theorem State.refuseDirect_er {m : Nat} {s : State} {u : State} {base : Nat} {code : Nat} (he : erase m u = erase m s) (hw : within 1 m = true := by decide) :
    erase m (State.refuseDirect u base code) = erase m s := by
  refine (erase_mono (m := 1) hw ?_).trans he
  unfold State.refuseDirect
  repeat' first
    | with_reducible rfl
    | with_reducible assumption
    | with_reducible refine State.put_er ?_

end Sys2Proof.Machine
end

