-- ==== Sys2Proof/Laws/FrameFlags.lean ====
section
/-! SUPPORT. Frames of the operations of Machine/Flags.lean. -/

set_option Elab.async false

namespace Sys2Proof.Machine

theorem State.setEvg_er {m : Nat} {s : State} {u : State} {ev : Nat} {b : Bool} (he : erase m u = erase m s) (hw : within 1 m = true := by decide) :
    erase m (State.setEvg u ev b) = erase m s := by
  refine (erase_mono (m := 1) hw ?_).trans he
  unfold State.setEvg
  repeat' first
    | with_reducible rfl
    | with_reducible assumption
    | with_reducible refine State.put_er ?_

theorem State.setPba_er {m : Nat} {s : State} {u : State} {v : Nat} {b : Bool} (he : erase m u = erase m s) (hw : within 1 m = true := by decide) :
    erase m (State.setPba u v b) = erase m s := by
  refine (erase_mono (m := 1) hw ?_).trans he
  unfold State.setPba
  repeat' first
    | with_reducible rfl
    | with_reducible assumption
    | with_reducible refine State.put_er ?_

theorem State.msixSend_er {m : Nat} {s : State} {u : State} {v : Nat} (he : erase m u = erase m s) (hw : within 8388625 m = true := by decide) :
    erase m (State.msixSend u v) = erase m s := by
  refine (erase_mono (m := 8388625) hw ?_).trans he
  unfold State.msixSend
  repeat' first
    | with_reducible rfl
    | with_reducible assumption
    | with_reducible refine State.emit_er ?_
    | with_reducible refine State.setPba_er ?_
    | with_reducible refine erase_ite ?_ ?_
    | dsimp only
    | split
    | with_reducible refine upd_irq_er ?_

theorem State.raise_er {m : Nat} {s : State} {u : State} {base : Nat} {k : Nat} (he : erase m u = erase m s) (hw : within 17 m = true := by decide) :
    erase m (State.raise u base k) = erase m s := by
  refine (erase_mono (m := 17) hw ?_).trans he
  unfold State.raise
  repeat' first
    | with_reducible rfl
    | with_reducible assumption
    | with_reducible refine State.wr_er ?_
    | with_reducible refine erase_ite ?_ ?_
    | with_reducible refine erase_of_fst (by assumption) ?_
    | dsimp only
    | split
    | with_reducible refine upd_irq_er ?_

theorem State.raiseIf_er {m : Nat} {s : State} {u : State} {b : Bool} {base : Nat} {k : Nat} (he : erase m u = erase m s) (hw : within 17 m = true := by decide) :
    erase m (State.raiseIf u b base k) = erase m s := by
  refine (erase_mono (m := 17) hw ?_).trans he
  unfold State.raiseIf
  repeat' first
    | with_reducible rfl
    | with_reducible assumption
    | with_reducible refine State.raise_er ?_
    | with_reducible refine erase_ite ?_ ?_
    | dsimp only
    | split

theorem State.live_er {m : Nat} {s : State} {u : State} {base : Nat} {k : Nat} {b : Bool} (he : erase m u = erase m s) (hw : within 1 m = true := by decide) :
    erase m (State.live u base k b) = erase m s := by
  refine (erase_mono (m := 1) hw ?_).trans he
  unfold State.live
  repeat' first
    | with_reducible rfl
    | with_reducible assumption
    | with_reducible refine State.put_er ?_

theorem State.msixRequest_er {m : Nat} {s : State} {u : State} {v : Nat} (he : erase m u = erase m s) (hw : within 8388625 m = true := by decide) :
    erase m (State.msixRequest u v) = erase m s := by
  refine (erase_mono (m := 8388625) hw ?_).trans he
  unfold State.msixRequest
  repeat' first
    | with_reducible rfl
    | with_reducible assumption
    | with_reducible refine State.setPba_er ?_
    | with_reducible refine State.raise_er ?_
    | with_reducible refine State.msixSend_er ?_
    | with_reducible refine erase_ite ?_ ?_
    | dsimp only
    | split
    | with_reducible refine upd_irq_er ?_

theorem State.refreshVecs_er {m : Nat} {s : State} {u : State} (he : erase m u = erase m s) (hw : within 8388625 m = true := by decide) :
    erase m (State.refreshVecs u) = erase m s := by
  refine (erase_mono (m := 8388625) hw ?_).trans he
  unfold State.refreshVecs
  repeat' first
    | with_reducible rfl
    | with_reducible assumption
    | with_reducible refine State.put_er ?_
    | with_reducible refine State.forAll_er ?_ (fun _ _ => ?_)
    | with_reducible refine State.msixRequest_er ?_
    | with_reducible refine State.setPba_er ?_
    | with_reducible refine erase_ite ?_ ?_
    | dsimp only
    | split
    | with_reducible refine upd_irq_er ?_

theorem State.refreshEv_er {m : Nat} {s : State} {u : State} {ev : Nat} (he : erase m u = erase m s) (hw : within 8388625 m = true := by decide) :
    erase m (State.refreshEv u ev) = erase m s := by
  refine (erase_mono (m := 8388625) hw ?_).trans he
  unfold State.refreshEv
  repeat' first
    | with_reducible rfl
    | with_reducible assumption
    | with_reducible refine State.setEvg_er ?_
    | with_reducible refine State.refreshVecs_er ?_

theorem State.refreshBlock_er {m : Nat} {s : State} {u : State} {base : Nat} {mask : Nat} (he : erase m u = erase m s) (hw : within 8388625 m = true := by decide) :
    erase m (State.refreshBlock u base mask) = erase m s := by
  refine (erase_mono (m := 8388625) hw ?_).trans he
  unfold State.refreshBlock
  repeat' first
    | with_reducible rfl
    | with_reducible assumption
    | with_reducible refine State.setEvg_er ?_
    | with_reducible refine State.refreshVecs_er ?_
    | with_reducible refine erase_foldl ?_ (fun _ _ => ?_)
    | with_reducible refine erase_foldl_fst ?_ (fun _ _ => ?_)

theorem State.cause_er {m : Nat} {s : State} {u : State} {base : Nat} {f : Fld} {bit : Nat} (he : erase m u = erase m s) (hw : within 1 m = true := by decide) :
    erase m (State.cause u base f bit) = erase m s := by
  refine (erase_mono (m := 1) hw ?_).trans he
  unfold State.cause
  repeat' first
    | with_reducible rfl
    | with_reducible assumption
    | with_reducible refine State.put_er ?_

end Sys2Proof.Machine
end

