-- ==== Sys2Proof/Laws/FrameRegisters.lean ====
section
/-! SUPPORT. Frames of the operations of Machine/Registers.lean. -/

set_option Elab.async false

namespace Sys2Proof.Machine

theorem State.absentAccess_er {m : Nat} {s : State} {u : State} {die : Nat} (he : erase m u = erase m s) (hw : within 17 m = true := by decide) :
    erase m (State.absentAccess u die) = erase m s := by
  refine (erase_mono (m := 17) hw ?_).trans he
  unfold State.absentAccess
  repeat' first
    | with_reducible rfl
    | with_reducible assumption
    | with_reducible refine State.raiseIf_er ?_

theorem State.hostWrite_er {m : Nat} {s u t : State} {die : Nat} (e : erase m u = erase m s) (et : erase m t = erase m s)
    (h : within 17 m = true := by decide) : erase m (State.hostWrite u die t) = erase m s := by
  unfold State.hostWrite
  split
  · refine State.raise_er ?_ h
    split
    · exact e
    · exact State.absentAccess_er e h
  · split
    · exact et
    · exact State.absentAccess_er e h

theorem State.pendingRefresh_er {m : Nat} {s : State} {u : State} {base : Nat} (he : erase m u = erase m s) (hw : within 1 m = true := by decide) :
    erase m (State.pendingRefresh u base) = erase m s := by
  refine (erase_mono (m := 1) hw ?_).trans he
  unfold State.pendingRefresh
  repeat' first
    | with_reducible rfl
    | with_reducible assumption
    | with_reducible refine State.put_er ?_

theorem State.shadowPut_er {m : Nat} {s : State} {u : State} {a : Nat} {v : Word} {mask : Nat} (he : erase m u = erase m s) (hw : within 5 m = true := by decide) :
    erase m (State.shadowPut u a v mask) = erase m s := by
  refine (erase_mono (m := 5) hw ?_).trans he
  unfold State.shadowPut
  repeat' first
    | with_reducible rfl
    | with_reducible assumption
    | with_reducible refine State.wr_er ?_
    | with_reducible refine State.setTag_er ?_
    | with_reducible refine State.pendingRefresh_er ?_

theorem State.shadowStore_er {m : Nat} {s : State} {u : State} {a : Nat} {v : Word} (he : erase m u = erase m s) (hw : within 5 m = true := by decide) :
    erase m (State.shadowStore u a v) = erase m s := by
  refine (erase_mono (m := 5) hw ?_).trans he
  unfold State.shadowStore
  repeat' first
    | with_reducible rfl
    | with_reducible assumption
    | with_reducible refine State.shadowPut_er ?_
    | with_reducible refine erase_ite ?_ ?_
    | with_reducible refine erase_of_fst (by assumption) ?_
    | dsimp only
    | split

theorem State.msixRelease_er {m : Nat} {s : State} {u : State} {v : Nat} (he : erase m u = erase m s) (hw : within 8388625 m = true := by decide) :
    erase m (State.msixRelease u v) = erase m s := by
  refine (erase_mono (m := 8388625) hw ?_).trans he
  unfold State.msixRelease
  repeat' first
    | with_reducible rfl
    | with_reducible assumption
    | with_reducible refine State.setPba_er ?_
    | with_reducible refine State.msixSend_er ?_
    | with_reducible refine erase_ite ?_ ?_
    | dsimp only
    | split
    | with_reducible refine upd_irq_er ?_

end Sys2Proof.Machine
end

