-- ==== Sys2Proof/Laws/FrameTiming.lean ====
section
/-! SUPPORT. Frames of the operations of Machine/Timing.lean. -/

set_option Elab.async false

namespace Sys2Proof.Machine

theorem State.modTc_er {m : Nat} {s : State} {u : State} {f : Tc → Tc} (he : erase m u = erase m s) (hw : within 128 m = true := by decide) :
    erase m (State.modTc u f) = erase m s := by
  refine (erase_mono (m := 128) hw ?_).trans he
  unfold State.modTc
  repeat' first
    | with_reducible rfl
    | with_reducible assumption
    | with_reducible refine upd_tc_er ?_

theorem State.setTd_er {m : Nat} {s : State} {u : State} {d : Nat} {x : Td} (he : erase m u = erase m s) (hw : within 256 m = true := by decide) :
    erase m (State.setTd u d x) = erase m s := by
  refine (erase_mono (m := 256) hw ?_).trans he
  unfold State.setTd
  repeat' first
    | with_reducible rfl
    | with_reducible assumption
    | with_reducible refine upd_tds_er ?_

theorem State.puti_er {m : Nat} {s : State} {u : State} {base : Nat} {f : Fld} {v : Int} (he : erase m u = erase m s) (hw : within 1 m = true := by decide) :
    erase m (State.puti u base f v) = erase m s := by
  refine (erase_mono (m := 1) hw ?_).trans he
  unfold State.puti
  repeat' first
    | with_reducible rfl
    | with_reducible assumption
    | with_reducible refine State.put_er ?_

theorem State.tcRefresh_er {m : Nat} {s : State} {u : State} (he : erase m u = erase m s) (hw : within 1 m = true := by decide) :
    erase m (State.tcRefresh u) = erase m s := by
  refine (erase_mono (m := 1) hw ?_).trans he
  unfold State.tcRefresh
  repeat' first
    | with_reducible rfl
    | with_reducible assumption
    | with_reducible refine State.put_er ?_
    | with_reducible refine State.live_er ?_
    | with_reducible refine State.forAll_er ?_ (fun _ _ => ?_)
    | with_reducible refine erase_ite ?_ ?_
    | dsimp only
    | split

theorem State.candDown_er {m : Nat} {s : State} {u : State} {c : Nat} (he : erase m u = erase m s) (hw : within 145 m = true := by decide) :
    erase m (State.candDown u c) = erase m s := by
  refine (erase_mono (m := 145) hw ?_).trans he
  unfold State.candDown
  repeat' first
    | with_reducible rfl
    | with_reducible assumption
    | with_reducible refine State.modTc_er ?_
    | with_reducible refine State.put_er ?_
    | with_reducible refine State.cause_er ?_
    | with_reducible refine State.raise_er ?_
    | with_reducible refine erase_ite ?_ ?_
    | dsimp only
    | split

theorem State.setQl_er {m : Nat} {s : State} {u : State} {c : Nat} {ql : Nat} {fromMsg : Bool} (he : erase m u = erase m s) (hw : within 145 m = true := by decide) :
    erase m (State.setQl u c ql fromMsg) = erase m s := by
  refine (erase_mono (m := 145) hw ?_).trans he
  unfold State.setQl
  repeat' first
    | with_reducible rfl
    | with_reducible assumption
    | with_reducible refine State.put_er ?_
    | with_reducible refine State.raiseIf_er ?_
    | with_reducible refine State.candDown_er ?_
    | with_reducible refine erase_ite ?_ ?_
    | dsimp only
    | split

theorem State.requal_er {m : Nat} {s : State} {u : State} {c : Nat} (he : erase m u = erase m s) (hw : within 145 m = true := by decide) :
    erase m (State.requal u c) = erase m s := by
  refine (erase_mono (m := 145) hw ?_).trans he
  unfold State.requal
  repeat' first
    | with_reducible rfl
    | with_reducible assumption
    | with_reducible refine State.setQl_er ?_
    | with_reducible refine erase_ite ?_ ?_
    | dsimp only
    | split

theorem State.candLost_er {m : Nat} {s : State} {u : State} {c : Nat} (he : erase m u = erase m s) (hw : within 145 m = true := by decide) :
    erase m (State.candLost u c) = erase m s := by
  refine (erase_mono (m := 145) hw ?_).trans he
  unfold State.candLost
  repeat' first
    | with_reducible rfl
    | with_reducible assumption
    | with_reducible refine State.candDown_er ?_
    | with_reducible refine State.modTc_er ?_
    | with_reducible refine State.puts_er ?_
    | with_reducible refine State.setQl_er ?_
    | with_reducible refine State.tcRefresh_er ?_

theorem State.candsFollow_er {m : Nat} {s : State} {u : State} (he : erase m u = erase m s) (hw : within 145 m = true := by decide) :
    erase m (State.candsFollow u) = erase m s := by
  refine (erase_mono (m := 145) hw ?_).trans he
  unfold State.candsFollow
  repeat' first
    | with_reducible rfl
    | with_reducible assumption
    | with_reducible refine State.forAll_er ?_ (fun _ _ => ?_)
    | with_reducible refine State.candLost_er ?_
    | with_reducible refine erase_ite ?_ ?_
    | dsimp only
    | split

theorem State.candMeas_er {m : Nat} {s : State} {u : State} {c : Nat} {mz : CandMeas} (he : erase m u = erase m s) (hw : within 1 m = true := by decide) :
    erase m (State.candMeas u c mz) = erase m s := by
  refine (erase_mono (m := 1) hw ?_).trans he
  unfold State.candMeas
  repeat' first
    | with_reducible rfl
    | with_reducible assumption
    | with_reducible refine State.puti_er ?_
    | with_reducible refine State.put_er ?_

theorem State.rqpTo_er {m : Nat} {s : State} {u : State} {c : Nat} {d : List Nat} (he : erase m u = erase m s) (hw : within 145 m = true := by decide) :
    erase m (State.rqpTo u c d) = erase m s := by
  refine (erase_mono (m := 145) hw ?_).trans he
  unfold State.rqpTo
  repeat' first
    | with_reducible rfl
    | with_reducible assumption
    | with_reducible refine State.put_er ?_
    | with_reducible refine State.bump_er ?_
    | with_reducible refine State.raise_er ?_
    | with_reducible refine State.puts_er ?_
    | with_reducible refine State.raiseIf_er ?_
    | with_reducible refine State.setQl_er ?_
    | with_reducible refine State.tcRefresh_er ?_
    | with_reducible refine erase_ite ?_ ?_
    | dsimp only
    | split

theorem State.rqp_er {m : Nat} {s : State} {u : State} {g : Nat} {data : List Byte} (he : erase m u = erase m s) (hw : within 145 m = true := by decide) :
    erase m (State.rqp u g data) = erase m s := by
  refine (erase_mono (m := 145) hw ?_).trans he
  unfold State.rqp
  repeat' first
    | with_reducible rfl
    | with_reducible assumption
    | with_reducible refine State.forAll_er ?_ (fun _ _ => ?_)
    | with_reducible refine State.rqpTo_er ?_
    | with_reducible refine erase_ite ?_ ?_
    | dsimp only
    | split

theorem State.tempRefresh_er {m : Nat} {s : State} {u : State} (he : erase m u = erase m s) (hw : within 145 m = true := by decide) :
    erase m (State.tempRefresh u) = erase m s := by
  refine (erase_mono (m := 145) hw ?_).trans he
  unfold State.tempRefresh
  repeat' first
    | with_reducible rfl
    | with_reducible assumption
    | with_reducible refine State.put_er ?_
    | with_reducible refine State.raiseIf_er ?_
    | with_reducible refine State.modTc_er ?_

theorem State.rebase_er {m : Nat} {s : State} {u : State} {bw : Nat} {e : Int} (he : erase m u = erase m s) (hw : within 128 m = true := by decide) :
    erase m (State.rebase u bw e) = erase m s := by
  refine (erase_mono (m := 128) hw ?_).trans he
  unfold State.rebase
  repeat' first
    | with_reducible rfl
    | with_reducible assumption
    | with_reducible refine State.modTc_er ?_

theorem State.trackBwChanged_er {m : Nat} {s : State} {u : State} (he : erase m u = erase m s) (hw : within 128 m = true := by decide) :
    erase m (State.trackBwChanged u) = erase m s := by
  refine (erase_mono (m := 128) hw ?_).trans he
  unfold State.trackBwChanged
  repeat' first
    | with_reducible rfl
    | with_reducible assumption
    | with_reducible refine State.rebase_er ?_
    | with_reducible refine erase_ite ?_ ?_
    | dsimp only
    | split

theorem State.switchTo_er {m : Nat} {s : State} {u : State} {c : Nat} {phase : Int} (he : erase m u = erase m s) (hw : within 145 m = true := by decide) :
    erase m (State.switchTo u c phase) = erase m s := by
  refine (erase_mono (m := 145) hw ?_).trans he
  unfold State.switchTo
  repeat' first
    | with_reducible rfl
    | with_reducible assumption
    | with_reducible refine State.puts_er ?_
    | with_reducible refine State.puti_er ?_
    | with_reducible refine State.put_er ?_
    | with_reducible refine State.modTc_er ?_
    | with_reducible refine State.rebase_er ?_
    | with_reducible refine State.raise_er ?_
    | with_reducible refine State.live_er ?_
    | with_reducible refine erase_ite ?_ ?_
    | dsimp only
    | split

theorem State.enterHold_er {m : Nat} {s : State} {u : State} (he : erase m u = erase m s) (hw : within 145 m = true := by decide) :
    erase m (State.enterHold u) = erase m s := by
  refine (erase_mono (m := 145) hw ?_).trans he
  unfold State.enterHold
  repeat' first
    | with_reducible rfl
    | with_reducible assumption
    | with_reducible refine State.puts_er ?_
    | with_reducible refine State.puti_er ?_
    | with_reducible refine State.modTc_er ?_
    | with_reducible refine State.raise_er ?_
    | with_reducible refine State.live_er ?_
    | with_reducible refine erase_ite ?_ ?_
    | with_reducible refine erase_foldl ?_ (fun _ _ => ?_)
    | with_reducible refine erase_foldl_fst ?_ (fun _ _ => ?_)
    | with_reducible refine erase_of_fst (by assumption) ?_
    | dsimp only
    | split

theorem State.enterFree_er {m : Nat} {s : State} {u : State} (he : erase m u = erase m s) (hw : within 145 m = true := by decide) :
    erase m (State.enterFree u) = erase m s := by
  refine (erase_mono (m := 145) hw ?_).trans he
  unfold State.enterFree
  repeat' first
    | with_reducible rfl
    | with_reducible assumption
    | with_reducible refine State.puts_er ?_
    | with_reducible refine State.modTc_er ?_
    | with_reducible refine State.raise_er ?_
    | with_reducible refine erase_ite ?_ ?_
    | dsimp only
    | split

theorem State.holdOrFree_er {m : Nat} {s : State} {u : State} {lost : Bool} (he : erase m u = erase m s) (hw : within 145 m = true := by decide) :
    erase m (State.holdOrFree u lost) = erase m s := by
  refine (erase_mono (m := 145) hw ?_).trans he
  unfold State.holdOrFree
  repeat' first
    | with_reducible rfl
    | with_reducible assumption
    | with_reducible refine State.enterHold_er ?_
    | with_reducible refine erase_ite ?_ ?_
    | dsimp only
    | split

theorem State.selectAuto_er {m : Nat} {s : State} {u : State} {ph : Nat → Int} (he : erase m u = erase m s) (hw : within 145 m = true := by decide) :
    erase m (State.selectAuto u ph) = erase m s := by
  refine (erase_mono (m := 145) hw ?_).trans he
  unfold State.selectAuto
  repeat' first
    | with_reducible rfl
    | with_reducible assumption
    | with_reducible refine State.switchTo_er ?_
    | with_reducible refine State.raiseIf_er ?_
    | with_reducible refine State.holdOrFree_er ?_
    | with_reducible refine erase_ite ?_ ?_
    | with_reducible refine erase_of_fst (by assumption) ?_
    | dsimp only
    | split

theorem State.selectForced_er {m : Nat} {s : State} {u : State} {ph : Nat → Int} (he : erase m u = erase m s) (hw : within 145 m = true := by decide) :
    erase m (State.selectForced u ph) = erase m s := by
  refine (erase_mono (m := 145) hw ?_).trans he
  unfold State.selectForced
  repeat' first
    | with_reducible rfl
    | with_reducible assumption
    | with_reducible refine State.switchTo_er ?_
    | with_reducible refine State.raiseIf_er ?_
    | with_reducible refine State.enterHold_er ?_
    | with_reducible refine State.modTc_er ?_
    | with_reducible refine erase_ite ?_ ?_
    | dsimp only
    | split

theorem State.measured_er {m : Nat} {s : State} {u : State} {mz : List CandMeas} (he : erase m u = erase m s) (hw : within 1 m = true := by decide) :
    erase m (State.measured u mz) = erase m s := by
  refine (erase_mono (m := 1) hw ?_).trans he
  unfold State.measured
  repeat' first
    | with_reducible rfl
    | with_reducible assumption
    | with_reducible refine State.forAll_er ?_ (fun _ _ => ?_)
    | with_reducible refine State.candMeas_er ?_
    | with_reducible refine erase_ite ?_ ?_
    | with_reducible refine erase_of_fst (by assumption) ?_
    | dsimp only
    | split

theorem State.evaluate_er {m : Nat} {s : State} {u : State} {ph : Nat → Int} (he : erase m u = erase m s) (hw : within 145 m = true := by decide) :
    erase m (State.evaluate u ph) = erase m s := by
  refine (erase_mono (m := 145) hw ?_).trans he
  unfold State.evaluate
  repeat' first
    | with_reducible rfl
    | with_reducible assumption
    | with_reducible refine State.selectAuto_er ?_
    | with_reducible refine State.modTc_er ?_
    | with_reducible refine State.selectForced_er ?_
    | with_reducible refine State.enterHold_er ?_
    | with_reducible refine State.enterFree_er ?_
    | with_reducible refine erase_ite ?_ ?_
    | with_reducible refine erase_of_fst (by assumption) ?_
    | dsimp only
    | split

theorem State.evaluated_er {m : Nat} {s : State} {u : State} (he : erase m u = erase m s) (hw : within 129 m = true := by decide) :
    erase m (State.evaluated u) = erase m s := by
  refine (erase_mono (m := 129) hw ?_).trans he
  unfold State.evaluated
  repeat' first
    | with_reducible rfl
    | with_reducible assumption
    | with_reducible refine State.modTc_er ?_
    | with_reducible refine State.tcRefresh_er ?_
    | with_reducible refine erase_of_fst (by assumption) ?_
    | dsimp only
    | split

theorem State.setSteer_er {m : Nat} {s : State} {u : State} {y : Int} (he : erase m u = erase m s) (hw : within 17 m = true := by decide) :
    erase m (State.setSteer u y) = erase m s := by
  refine (erase_mono (m := 17) hw ?_).trans he
  unfold State.setSteer
  repeat' first
    | with_reducible rfl
    | with_reducible assumption
    | with_reducible refine State.puti_er ?_
    | with_reducible refine State.raiseIf_er ?_

theorem State.holdSteer_er {m : Nat} {s : State} {u : State} (he : erase m u = erase m s) (hw : within 145 m = true := by decide) :
    erase m (State.holdSteer u) = erase m s := by
  refine (erase_mono (m := 145) hw ?_).trans he
  unfold State.holdSteer
  repeat' first
    | with_reducible rfl
    | with_reducible assumption
    | with_reducible refine State.tempRefresh_er ?_
    | with_reducible refine State.modTc_er ?_
    | with_reducible refine State.setSteer_er ?_
    | with_reducible refine erase_of_fst (by assumption) ?_
    | dsimp only
    | split

theorem State.phaseStep_er {m : Nat} {s : State} {u : State} {e : Int} (he : erase m u = erase m s) (hw : within 145 m = true := by decide) :
    erase m (State.phaseStep u e) = erase m s := by
  refine (erase_mono (m := 145) hw ?_).trans he
  unfold State.phaseStep
  repeat' first
    | with_reducible rfl
    | with_reducible assumption
    | with_reducible refine State.modTc_er ?_
    | with_reducible refine State.raise_er ?_

theorem State.piLoop_er {m : Nat} {s : State} {u : State} {c : Nat} {phase : Int} (he : erase m u = erase m s) (hw : within 145 m = true := by decide) :
    erase m (State.piLoop u c phase) = erase m s := by
  refine (erase_mono (m := 145) hw ?_).trans he
  unfold State.piLoop
  repeat' first
    | with_reducible rfl
    | with_reducible assumption
    | with_reducible refine State.phaseStep_er ?_
    | with_reducible refine State.modTc_er ?_
    | with_reducible refine State.puts_er ?_
    | with_reducible refine State.puti_er ?_
    | with_reducible refine State.setSteer_er ?_
    | with_reducible refine erase_ite ?_ ?_
    | dsimp only
    | split

theorem State.tcTick_er {m : Nat} {s : State} {u : State} (he : erase m u = erase m s) (hw : within 129 m = true := by decide) :
    erase m (State.tcTick u) = erase m s := by
  refine (erase_mono (m := 129) hw ?_).trans he
  unfold State.tcTick
  repeat' first
    | with_reducible rfl
    | with_reducible assumption
    | with_reducible refine State.modTc_er ?_
    | with_reducible refine State.forAll_er ?_ (fun _ _ => ?_)
    | with_reducible refine State.put_er ?_
    | with_reducible refine erase_ite ?_ ?_
    | dsimp only
    | split

theorem State.loopStep_er {m : Nat} {s : State} {u : State} {phase : Int} (he : erase m u = erase m s) (hw : within 145 m = true := by decide) :
    erase m (State.loopStep u phase) = erase m s := by
  refine (erase_mono (m := 145) hw ?_).trans he
  unfold State.loopStep
  repeat' first
    | with_reducible rfl
    | with_reducible assumption
    | with_reducible refine State.setSteer_er ?_
    | with_reducible refine State.holdSteer_er ?_
    | with_reducible refine State.piLoop_er ?_
    | with_reducible refine erase_ite ?_ ?_
    | with_reducible refine erase_of_fst (by assumption) ?_
    | dsimp only
    | split

theorem State.slopeStep_er {m : Nat} {s : State} {u : State} {d : Nat} (he : erase m u = erase m s) (hw : within 257 m = true := by decide) :
    erase m (State.slopeStep u d) = erase m s := by
  refine (erase_mono (m := 257) hw ?_).trans he
  unfold State.slopeStep
  repeat' first
    | with_reducible rfl
    | with_reducible assumption
    | with_reducible refine State.setTd_er ?_
    | with_reducible refine State.puti_er ?_
    | with_reducible refine erase_ite ?_ ?_
    | dsimp only
    | split

theorem State.tdStart_er {m : Nat} {s : State} {u : State} {d : Nat} (he : erase m u = erase m s) (hw : within 273 m = true := by decide) :
    erase m (State.tdStart u d) = erase m s := by
  refine (erase_mono (m := 273) hw ?_).trans he
  unfold State.tdStart
  repeat' first
    | with_reducible rfl
    | with_reducible assumption
    | with_reducible refine State.puts_er ?_
    | with_reducible refine State.setTd_er ?_
    | with_reducible refine State.put_er ?_
    | with_reducible refine State.refuseDirect_er ?_
    | with_reducible refine State.raise_er ?_
    | with_reducible refine erase_ite ?_ ?_
    | dsimp only
    | split

theorem State.tdMeasure_er {m : Nat} {s : State} {u : State} {d : Nat} {fromPoint : Int} (he : erase m u = erase m s) (hw : within 257 m = true := by decide) :
    erase m (State.tdMeasure u d fromPoint) = erase m s := by
  refine (erase_mono (m := 257) hw ?_).trans he
  unfold State.tdMeasure
  repeat' first
    | with_reducible rfl
    | with_reducible assumption
    | with_reducible refine State.setTd_er ?_
    | with_reducible refine State.puti_er ?_
    | with_reducible refine State.put_er ?_

end Sys2Proof.Machine
end

