-- ==== Sys2Proof/Laws/FramePlan.lean ====
section
/-! SUPPORT. Frames of the operations of Machine/Plan.lean. -/

set_option Elab.async false

namespace Sys2Proof.Machine

theorem State.setCtx_er {m : Nat} {s : State} {u : State} {e : Nat} {c : Nat} {x : Ctx} (he : erase m u = erase m s) (hw : within 4096 m = true := by decide) :
    erase m (State.setCtx u e c x) = erase m s := by
  refine (erase_mono (m := 4096) hw ?_).trans he
  unfold State.setCtx
  repeat' first
    | with_reducible rfl
    | with_reducible assumption
    | with_reducible refine upd_conv_er ?_

theorem State.setBins_er {m : Nat} {s : State} {u : State} {key : Nat} {v : Nat × List Nat} (he : erase m u = erase m s) (hw : within 1024 m = true := by decide) :
    erase m (State.setBins u key v) = erase m s := by
  refine (erase_mono (m := 1024) hw ?_).trans he
  unfold State.setBins
  repeat' first
    | with_reducible rfl
    | with_reducible assumption
    | with_reducible refine upd_silo_er ?_

theorem State.releaseBins_er {m : Nat} {s : State} {u : State} {domain : Nat} {pulses : Nat} {l : List Nat} (he : erase m u = erase m s) (hw : within 1024 m = true := by decide) :
    erase m (State.releaseBins u domain pulses l) = erase m s := by
  refine (erase_mono (m := 1024) hw ?_).trans he
  unfold State.releaseBins
  repeat' first
    | with_reducible rfl
    | with_reducible assumption
    | with_reducible refine erase_ite ?_ ?_
    | dsimp only
    | split
    | with_reducible refine upd_silo_er ?_

theorem State.dropUnneeded_er {m : Nat} {s : State} {u : State} {domain : Nat} {pulses : Nat} (he : erase m u = erase m s) (hw : within 1024 m = true := by decide) :
    erase m (State.dropUnneeded u domain pulses) = erase m s := by
  refine (erase_mono (m := 1024) hw ?_).trans he
  unfold State.dropUnneeded
  repeat' first
    | with_reducible rfl
    | with_reducible assumption
    | with_reducible refine State.setBins_er ?_
    | with_reducible refine State.releaseBins_er ?_
    | with_reducible refine erase_ite ?_ ?_
    | with_reducible refine erase_foldl ?_ (fun _ _ => ?_)
    | with_reducible refine erase_foldl_fst ?_ (fun _ _ => ?_)
    | dsimp only
    | split

theorem State.ctxRefresh_er {m : Nat} {s : State} {u : State} {e : Nat} {c : Nat} (he : erase m u = erase m s) (hw : within 1 m = true := by decide) :
    erase m (State.ctxRefresh u e c) = erase m s := by
  refine (erase_mono (m := 1) hw ?_).trans he
  unfold State.ctxRefresh
  repeat' first
    | with_reducible rfl
    | with_reducible assumption
    | with_reducible refine State.put_er ?_

theorem State.cvCause_er {m : Nat} {s : State} {u : State} {e : Nat} {bit : Nat} (he : erase m u = erase m s) (hw : within 17 m = true := by decide) :
    erase m (State.cvCause u e bit) = erase m s := by
  refine (erase_mono (m := 17) hw ?_).trans he
  unfold State.cvCause
  repeat' first
    | with_reducible rfl
    | with_reducible assumption
    | with_reducible refine State.cause_er ?_
    | with_reducible refine State.raiseIf_er ?_

theorem State.poolRefresh_er {m : Nat} {s : State} {u : State} (he : erase m u = erase m s) (hw : within 1 m = true := by decide) :
    erase m (State.poolRefresh u) = erase m s := by
  refine (erase_mono (m := 1) hw ?_).trans he
  unfold State.poolRefresh
  repeat' first
    | with_reducible rfl
    | with_reducible assumption
    | with_reducible refine State.put_er ?_

theorem State.newCtx_er {m : Nat} {s : State} {u : State} {e : Nat} {c : Nat} {f : SrcFmt} {code : Nat} {domain : Nat} {fsrc : Nat} {fdst : Nat} {mode : Nat} {entry : Nat} (he : erase m u = erase m s) (hw : within 4113 m = true := by decide) :
    erase m (State.newCtx u e c f code domain fsrc fdst mode entry) = erase m s := by
  refine (erase_mono (m := 4113) hw ?_).trans he
  unfold State.newCtx
  repeat' first
    | with_reducible rfl
    | with_reducible assumption
    | with_reducible refine State.puts_er ?_
    | with_reducible refine State.setCtx_er ?_
    | with_reducible refine State.ctxRefresh_er ?_
    | with_reducible refine State.cvCause_er ?_
    | with_reducible refine State.poolRefresh_er ?_

theorem State.leaveOthers_er {m : Nat} {s : State} {u : State} {e : Nat} {c : Nat} {entry : Nat} (he : erase m u = erase m s) (hw : within 4096 m = true := by decide) :
    erase m (State.leaveOthers u e c entry) = erase m s := by
  refine (erase_mono (m := 4096) hw ?_).trans he
  unfold State.leaveOthers
  repeat' first
    | with_reducible rfl
    | with_reducible assumption
    | with_reducible refine erase_ite ?_ ?_
    | dsimp only
    | split
    | with_reducible refine upd_conv_er ?_

theorem State.dropCtxs_er {m : Nat} {s : State} {u : State} {pulses : Nat} (he : erase m u = erase m s) (hw : within 4097 m = true := by decide) :
    erase m (State.dropCtxs u pulses) = erase m s := by
  refine (erase_mono (m := 4097) hw ?_).trans he
  unfold State.dropCtxs
  repeat' first
    | with_reducible rfl
    | with_reducible assumption
    | with_reducible refine State.setCtx_er ?_
    | with_reducible refine State.ctxRefresh_er ?_
    | with_reducible refine erase_ite ?_ ?_
    | with_reducible refine erase_foldl ?_ (fun _ _ => ?_)
    | with_reducible refine erase_foldl_fst ?_ (fun _ _ => ?_)
    | with_reducible refine erase_of_fst (by assumption) ?_
    | dsimp only
    | split

theorem State.freeCtx_er {m : Nat} {s : State} {u : State} {e : Nat} {c : Nat} (he : erase m u = erase m s) (hw : within 4113 m = true := by decide) :
    erase m (State.freeCtx u e c) = erase m s := by
  refine (erase_mono (m := 4113) hw ?_).trans he
  unfold State.freeCtx
  repeat' first
    | with_reducible rfl
    | with_reducible assumption
    | with_reducible refine State.wr_er ?_
    | with_reducible refine State.setCtx_er ?_
    | with_reducible refine State.ctxRefresh_er ?_
    | with_reducible refine State.put_er ?_
    | with_reducible refine State.live_er ?_
    | with_reducible refine State.cvCause_er ?_
    | with_reducible refine State.poolRefresh_er ?_
    | with_reducible refine erase_ite ?_ ?_
    | with_reducible refine erase_foldl ?_ (fun _ _ => ?_)
    | with_reducible refine erase_foldl_fst ?_ (fun _ _ => ?_)
    | dsimp only
    | split

end Sys2Proof.Machine
end

