-- ==== Sys2Proof/Laws/FrameSources.lean ====
section
/-! SUPPORT. Frames of the operations of Machine/Sources.lean. -/

set_option Elab.async false

namespace Sys2Proof.Machine

theorem State.setRoute_er {m : Nat} {s : State} {u : State} {t : Nat} {i : Nat} {x : RouteX} (he : erase m u = erase m s) (hw : within 512 m = true := by decide) :
    erase m (State.setRoute u t i x) = erase m s := by
  refine (erase_mono (m := 512) hw ?_).trans he
  unfold State.setRoute
  repeat' first
    | with_reducible rfl
    | with_reducible assumption
    | with_reducible refine upd_floor_er ?_

theorem State.setRing_er {m : Nat} {s : State} {u : State} {key : Nat} {x : Ring} (he : erase m u = erase m s) (hw : within 1024 m = true := by decide) :
    erase m (State.setRing u key x) = erase m s := by
  refine (erase_mono (m := 1024) hw ?_).trans he
  unfold State.setRing
  repeat' first
    | with_reducible rfl
    | with_reducible assumption
    | with_reducible refine upd_silo_er ?_

theorem State.setRx_er {m : Nat} {s : State} {u : State} {g : Nat} {x : Rx} (he : erase m u = erase m s) (hw : within 32 m = true := by decide) :
    erase m (State.setRx u g x) = erase m s := by
  refine (erase_mono (m := 32) hw ?_).trans he
  unfold State.setRx
  repeat' first
    | with_reducible rfl
    | with_reducible assumption
    | with_reducible refine upd_sdiRx_er ?_

theorem State.setTx_er {m : Nat} {s : State} {u : State} {g : Nat} {x : Tx} (he : erase m u = erase m s) (hw : within 64 m = true := by decide) :
    erase m (State.setTx u g x) = erase m s := by
  refine (erase_mono (m := 64) hw ?_).trans he
  unfold State.setTx
  repeat' first
    | with_reducible rfl
    | with_reducible assumption
    | with_reducible refine upd_sdiTx_er ?_

theorem State.setComp_er {m : Nat} {s : State} {u : State} {g : Nat} {x : Comp} (he : erase m u = erase m s) (hw : within 2048 m = true := by decide) :
    erase m (State.setComp u g x) = erase m s := by
  refine (erase_mono (m := 2048) hw ?_).trans he
  unfold State.setComp
  repeat' first
    | with_reducible rfl
    | with_reducible assumption
    | with_reducible refine upd_comps_er ?_

theorem State.setLayer_er {m : Nat} {s : State} {u : State} {g : Nat} {k : Nat} {l : LayerSt} (he : erase m u = erase m s) (hw : within 2048 m = true := by decide) :
    erase m (State.setLayer u g k l) = erase m s := by
  refine (erase_mono (m := 2048) hw ?_).trans he
  unfold State.setLayer
  repeat' first
    | with_reducible rfl
    | with_reducible assumption
    | with_reducible refine State.setComp_er ?_
    | with_reducible refine erase_ite ?_ ?_
    | dsimp only
    | split

theorem State.frameRoll_er {m : Nat} {s : State} {u : State} {t : Nat} {i : Nat} (he : erase m u = erase m s) (hw : within 512 m = true := by decide) :
    erase m (State.frameRoll u t i) = erase m s := by
  refine (erase_mono (m := 512) hw ?_).trans he
  unfold State.frameRoll
  repeat' first
    | with_reducible rfl
    | with_reducible assumption
    | with_reducible refine State.setRoute_er ?_
    | with_reducible refine erase_ite ?_ ?_
    | with_reducible refine erase_foldl ?_ (fun _ _ => ?_)
    | with_reducible refine erase_foldl_fst ?_ (fun _ _ => ?_)
    | dsimp only
    | split
    | with_reducible refine upd_floor_er ?_

theorem State.routeEvent_er {m : Nat} {s : State} {u : State} {t : Nat} {i : Nat} {bit : Nat} (he : erase m u = erase m s) (hw : within 17 m = true := by decide) :
    erase m (State.routeEvent u t i bit) = erase m s := by
  refine (erase_mono (m := 17) hw ?_).trans he
  unfold State.routeEvent
  repeat' first
    | with_reducible rfl
    | with_reducible assumption
    | with_reducible refine State.raise_er ?_
    | with_reducible refine State.puts_er ?_

theorem State.siloEvent_er {m : Nat} {s : State} {u : State} {table : Nat} {i : Nat} {bit : Nat} (he : erase m u = erase m s) (hw : within 17 m = true := by decide) :
    erase m (State.siloEvent u table i bit) = erase m s := by
  refine (erase_mono (m := 17) hw ?_).trans he
  unfold State.siloEvent
  repeat' first
    | with_reducible rfl
    | with_reducible assumption
    | with_reducible refine State.raise_er ?_
    | with_reducible refine State.puts_er ?_

theorem State.floorLive_er {m : Nat} {s : State} {u : State} (he : erase m u = erase m s) (hw : within 1 m = true := by decide) :
    erase m (State.floorLive u) = erase m s := by
  refine (erase_mono (m := 1) hw ?_).trans he
  unfold State.floorLive
  repeat' first
    | with_reducible rfl
    | with_reducible assumption
    | with_reducible refine State.live_er ?_

theorem State.siloStat_er {m : Nat} {s : State} {u : State} {key : Nat} (he : erase m u = erase m s) (hw : within 1 m = true := by decide) :
    erase m (State.siloStat u key) = erase m s := by
  refine (erase_mono (m := 1) hw ?_).trans he
  unfold State.siloStat
  repeat' first
    | with_reducible rfl
    | with_reducible assumption
    | with_reducible refine State.puts_er ?_
    | with_reducible refine erase_ite ?_ ?_
    | with_reducible refine erase_of_fst (by assumption) ?_
    | dsimp only
    | split

theorem State.dropRings_er {m : Nat} {s : State} {u : State} {domain : Nat} {pulses : Nat} (he : erase m u = erase m s) (hw : within 1025 m = true := by decide) :
    erase m (State.dropRings u domain pulses) = erase m s := by
  refine (erase_mono (m := 1025) hw ?_).trans he
  unfold State.dropRings
  repeat' first
    | with_reducible rfl
    | with_reducible assumption
    | with_reducible refine State.setRing_er ?_
    | with_reducible refine State.siloStat_er ?_
    | with_reducible refine State.dropUnneeded_er ?_
    | with_reducible refine erase_ite ?_ ?_
    | with_reducible refine erase_foldl ?_ (fun _ _ => ?_)
    | with_reducible refine erase_foldl_fst ?_ (fun _ _ => ?_)
    | dsimp only
    | split

theorem State.lineOut_er {m : Nat} {s : State} {u : State} {c : Nat} {l : FlLine} (he : erase m u = erase m s) (hw : within 512 m = true := by decide) :
    erase m (State.lineOut u c l) = erase m s := by
  refine (erase_mono (m := 512) hw ?_).trans he
  unfold State.lineOut
  repeat' first
    | with_reducible rfl
    | with_reducible assumption
    | with_reducible refine erase_ite ?_ ?_
    | dsimp only
    | split
    | with_reducible refine upd_floor_er ?_

theorem State.routesLose_er {m : Nat} {s : State} {u : State} {c : Nat} {was : Bool} (he : erase m u = erase m s) (hw : within 529 m = true := by decide) :
    erase m (State.routesLose u c was) = erase m s := by
  refine (erase_mono (m := 529) hw ?_).trans he
  unfold State.routesLose
  repeat' first
    | with_reducible rfl
    | with_reducible assumption
    | with_reducible refine State.setRoute_er ?_
    | with_reducible refine State.put_er ?_
    | with_reducible refine State.routeEvent_er ?_
    | with_reducible refine erase_ite ?_ ?_
    | with_reducible refine erase_foldl ?_ (fun _ _ => ?_)
    | with_reducible refine erase_foldl_fst ?_ (fun _ _ => ?_)
    | dsimp only
    | split

theorem State.epochMoves_er {m : Nat} {s : State} {u : State} {c : Nat} (he : erase m u = erase m s) (hw : within 1 m = true := by decide) :
    erase m (State.epochMoves u c) = erase m s := by
  refine (erase_mono (m := 1) hw ?_).trans he
  unfold State.epochMoves
  repeat' first
    | with_reducible rfl
    | with_reducible assumption
    | with_reducible refine State.put_er ?_
    | with_reducible refine erase_foldl ?_ (fun _ _ => ?_)
    | with_reducible refine erase_foldl_fst ?_ (fun _ _ => ?_)

theorem State.contextsHold_er {m : Nat} {s : State} {u : State} {c : Nat} (he : erase m u = erase m s) (hw : within 4097 m = true := by decide) :
    erase m (State.contextsHold u c) = erase m s := by
  refine (erase_mono (m := 4097) hw ?_).trans he
  unfold State.contextsHold
  repeat' first
    | with_reducible rfl
    | with_reducible assumption
    | with_reducible refine State.setCtx_er ?_
    | with_reducible refine State.put_er ?_
    | with_reducible refine erase_ite ?_ ?_
    | with_reducible refine erase_foldl ?_ (fun _ _ => ?_)
    | with_reducible refine erase_foldl_fst ?_ (fun _ _ => ?_)
    | dsimp only
    | split

theorem State.storeStops_er {m : Nat} {s : State} {u : State} {i : Nat} (he : erase m u = erase m s) (hw : within 5649 m = true := by decide) :
    erase m (State.storeStops u i) = erase m s := by
  refine (erase_mono (m := 5649) hw ?_).trans he
  unfold State.storeStops
  repeat' first
    | with_reducible rfl
    | with_reducible assumption
    | with_reducible refine State.setRing_er ?_
    | with_reducible refine State.routesLose_er ?_
    | with_reducible refine State.contextsHold_er ?_
    | with_reducible refine State.siloStat_er ?_
    | with_reducible refine erase_ite ?_ ?_
    | dsimp only
    | split

theorem State.storesLose_er {m : Nat} {s : State} {u : State} {c : Nat} (he : erase m u = erase m s) (hw : within 5649 m = true := by decide) :
    erase m (State.storesLose u c) = erase m s := by
  refine (erase_mono (m := 5649) hw ?_).trans he
  unfold State.storesLose
  repeat' first
    | with_reducible rfl
    | with_reducible assumption
    | with_reducible refine State.storeStops_er ?_
    | with_reducible refine erase_foldl ?_ (fun _ _ => ?_)
    | with_reducible refine erase_foldl_fst ?_ (fun _ _ => ?_)

theorem State.sourceStops_er {m : Nat} {s : State} {u : State} {c : Nat} {was : Bool} (he : erase m u = erase m s) (hw : within 5649 m = true := by decide) :
    erase m (State.sourceStops u c was) = erase m s := by
  refine (erase_mono (m := 5649) hw ?_).trans he
  unfold State.sourceStops
  repeat' first
    | with_reducible rfl
    | with_reducible assumption
    | with_reducible refine State.setRing_er ?_
    | with_reducible refine State.routesLose_er ?_
    | with_reducible refine State.contextsHold_er ?_
    | with_reducible refine State.storesLose_er ?_
    | with_reducible refine State.siloStat_er ?_
    | with_reducible refine State.floorLive_er ?_
    | with_reducible refine erase_ite ?_ ?_
    | with_reducible refine erase_foldl ?_ (fun _ _ => ?_)
    | with_reducible refine erase_foldl_fst ?_ (fun _ _ => ?_)
    | dsimp only
    | split

theorem State.marginRefresh_er {m : Nat} {s : State} {u : State} {t : Nat} {i : Nat} (he : erase m u = erase m s) (hw : within 1 m = true := by decide) :
    erase m (State.marginRefresh u t i) = erase m s := by
  refine (erase_mono (m := 1) hw ?_).trans he
  unfold State.marginRefresh
  repeat' first
    | with_reducible rfl
    | with_reducible assumption
    | with_reducible refine State.put_er ?_
    | with_reducible refine State.wr_er ?_
    | with_reducible refine erase_ite ?_ ?_
    | dsimp only
    | split

theorem State.routeSettle_er {m : Nat} {s : State} {u : State} {t : Nat} {i : Nat} (he : erase m u = erase m s) (hw : within 513 m = true := by decide) :
    erase m (State.routeSettle u t i) = erase m s := by
  refine (erase_mono (m := 513) hw ?_).trans he
  unfold State.routeSettle
  repeat' first
    | with_reducible rfl
    | with_reducible assumption
    | with_reducible refine State.setRoute_er ?_
    | with_reducible refine State.wr_er ?_
    | with_reducible refine State.puts_er ?_
    | with_reducible refine State.marginRefresh_er ?_
    | with_reducible refine erase_ite ?_ ?_
    | dsimp only
    | split

theorem State.wnRate_er {m : Nat} {s : State} {u : State} (he : erase m u = erase m s) (hw : within 1 m = true := by decide) :
    erase m (State.wnRate u) = erase m s := by
  refine (erase_mono (m := 1) hw ?_).trans he
  unfold State.wnRate
  repeat' first
    | with_reducible rfl
    | with_reducible assumption
    | with_reducible refine State.put_er ?_
    | with_reducible refine erase_ite ?_ ?_
    | dsimp only
    | split

theorem State.sumsRefresh_er {m : Nat} {s : State} {u : State} (he : erase m u = erase m s) (hw : within 17 m = true := by decide) :
    erase m (State.sumsRefresh u) = erase m s := by
  refine (erase_mono (m := 17) hw ?_).trans he
  unfold State.sumsRefresh
  repeat' first
    | with_reducible rfl
    | with_reducible assumption
    | with_reducible refine State.wnRate_er ?_
    | with_reducible refine State.forAll_er ?_ (fun _ _ => ?_)
    | with_reducible refine State.put_er ?_
    | with_reducible refine State.raiseIf_er ?_
    | with_reducible refine State.live_er ?_
    | with_reducible refine erase_foldl ?_ (fun _ _ => ?_)
    | with_reducible refine erase_foldl_fst ?_ (fun _ _ => ?_)

end Sys2Proof.Machine
end

