-- ==== Sys2Proof/Laws/FrameFloor.lean ====
section
/-! SUPPORT. Frames of the operations of Machine/Floor.lean. -/

set_option Elab.async false

namespace Sys2Proof.Machine

theorem State.latencyChange_er {m : Nat} {s : State} {u : State} {t : Nat} {i : Nat} (he : erase m u = erase m s) (hw : within 529 m = true := by decide) :
    erase m (State.latencyChange u t i) = erase m s := by
  refine (erase_mono (m := 529) hw ?_).trans he
  unfold State.latencyChange
  repeat' first
    | with_reducible rfl
    | with_reducible assumption
    | with_reducible refine State.frameRoll_er ?_
    | with_reducible refine State.setRoute_er ?_
    | with_reducible refine State.routeEvent_er ?_
    | with_reducible refine erase_ite ?_ ?_
    | dsimp only
    | split

theorem State.marginTick_er {m : Nat} {s : State} {u : State} {t : Nat} {i : Nat} (he : erase m u = erase m s) (hw : within 513 m = true := by decide) :
    erase m (State.marginTick u t i) = erase m s := by
  refine (erase_mono (m := 513) hw ?_).trans he
  unfold State.marginTick
  repeat' first
    | with_reducible rfl
    | with_reducible assumption
    | with_reducible refine State.marginRefresh_er ?_
    | with_reducible refine State.setRoute_er ?_
    | with_reducible refine erase_ite ?_ ?_
    | dsimp only
    | split

theorem State.pathDue_er {m : Nat} {s : State} {u : State} {t : Nat} {i : Nat} (he : erase m u = erase m s) (hw : within 512 m = true := by decide) :
    erase m (State.pathDue u t i) = erase m s := by
  refine (erase_mono (m := 512) hw ?_).trans he
  unfold State.pathDue
  repeat' first
    | with_reducible rfl
    | with_reducible assumption
    | with_reducible refine State.setRoute_er ?_
    | with_reducible refine erase_ite ?_ ?_
    | with_reducible refine erase_of_fst (by assumption) ?_
    | dsimp only
    | split

theorem State.routeLeaves_er {m : Nat} {s : State} {u : State} {t : Nat} {i : Nat} (he : erase m u = erase m s) (hw : within 5121 m = true := by decide) :
    erase m (State.routeLeaves u t i) = erase m s := by
  refine (erase_mono (m := 5121) hw ?_).trans he
  unfold State.routeLeaves
  repeat' first
    | with_reducible rfl
    | with_reducible assumption
    | with_reducible refine State.dropCtxs_er ?_
    | with_reducible refine State.dropRings_er ?_

theorem State.shedRoute_er {m : Nat} {s : State} {u : State} {t : Nat} {i : Nat} {bySilo : Bool} (he : erase m u = erase m s) (hw : within 5649 m = true := by decide) :
    erase m (State.shedRoute u t i bySilo) = erase m s := by
  refine (erase_mono (m := 5649) hw ?_).trans he
  unfold State.shedRoute
  repeat' first
    | with_reducible rfl
    | with_reducible assumption
    | with_reducible refine State.put_er ?_
    | with_reducible refine State.setRoute_er ?_
    | with_reducible refine State.siloEvent_er ?_
    | with_reducible refine State.routeEvent_er ?_
    | with_reducible refine State.storeStops_er ?_
    | with_reducible refine State.routeLeaves_er ?_
    | with_reducible refine erase_ite ?_ ?_
    | dsimp only
    | split

theorem State.shedFinano_er {m : Nat} {s : State} {u : State} {sheaf : Nat} {dir : Nat} (he : erase m u = erase m s) (hw : within 5649 m = true := by decide) :
    erase m (State.shedFinano u sheaf dir) = erase m s := by
  refine (erase_mono (m := 5649) hw ?_).trans he
  unfold State.shedFinano
  repeat' first
    | with_reducible rfl
    | with_reducible assumption
    | with_reducible refine State.shedRoute_er ?_
    | with_reducible refine State.sumsRefresh_er ?_
    | with_reducible refine State.floorLive_er ?_
    | with_reducible refine erase_ite ?_ ?_
    | with_reducible refine erase_foldl ?_ (fun _ _ => ?_)
    | with_reducible refine erase_foldl_fst ?_ (fun _ _ => ?_)
    | dsimp only
    | split

theorem State.shedMemoryFrom_er {m : Nat} {s : State} {x0 : Nat} {u : State} (he : erase m u = erase m s) (hw : within 5649 m = true := by decide) :
    erase m (State.shedMemoryFrom x0 u) = erase m s := by
  refine (erase_mono (m := 5649) hw ?_).trans he
  clear he hw
  induction x0 generalizing u with
  | zero =>
    unfold State.shedMemoryFrom
    repeat' first
      | with_reducible rfl
      | with_reducible assumption
      | with_reducible refine State.shedRoute_er ?_
      | with_reducible refine erase_ite ?_ ?_
      | with_reducible refine erase_of_fst (by assumption) ?_
      | dsimp only
      | split
  | succ _ ih =>
    unfold State.shedMemoryFrom
    repeat' first
      | with_reducible rfl
      | with_reducible assumption
      | with_reducible refine State.shedRoute_er ?_
      | with_reducible refine erase_ite ?_ ?_
      | with_reducible refine erase_of_fst (by assumption) ?_
      | dsimp only
      | split
      | with_reducible refine (ih ..).trans ?_

theorem State.shedMemory_er {m : Nat} {s : State} {u : State} (he : erase m u = erase m s) (hw : within 5649 m = true := by decide) :
    erase m (State.shedMemory u) = erase m s := by
  refine (erase_mono (m := 5649) hw ?_).trans he
  unfold State.shedMemory
  repeat' first
    | with_reducible rfl
    | with_reducible assumption
    | with_reducible refine State.shedMemoryFrom_er ?_
    | with_reducible refine State.sumsRefresh_er ?_
    | with_reducible refine State.floorLive_er ?_

end Sys2Proof.Machine
end

