-- ==== Sys2Proof/Laws/FrameMemory.lean ====
section
/-! SUPPORT. Frames of the operations of Machine/Memory.lean. -/

set_option Elab.async false

namespace Sys2Proof.Machine

theorem State.modMem_er {m : Nat} {s : State} {u : State} {f : Mem → Mem} (he : erase m u = erase m s) (hw : within 32768 m = true := by decide) :
    erase m (State.modMem u f) = erase m s := by
  refine (erase_mono (m := 32768) hw ?_).trans he
  unfold State.modMem
  repeat' first
    | with_reducible rfl
    | with_reducible assumption
    | with_reducible refine upd_mem_er ?_

theorem State.stripeStore_er {m : Nat} {s : State} {u : State} {stripe : Nat} {bursts : List (List Nat)} (he : erase m u = erase m s) (hw : within 32768 m = true := by decide) :
    erase m (State.stripeStore u stripe bursts) = erase m s := by
  refine (erase_mono (m := 32768) hw ?_).trans he
  unfold State.stripeStore
  repeat' first
    | with_reducible rfl
    | with_reducible assumption
    | with_reducible refine State.modMem_er ?_
    | with_reducible refine erase_ite ?_ ?_
    | with_reducible refine erase_foldl ?_ (fun _ _ => ?_)
    | with_reducible refine erase_foldl_fst ?_ (fun _ _ => ?_)
    | dsimp only
    | split

theorem State.limitRefresh_er {m : Nat} {s : State} {u : State} (he : erase m u = erase m s) (hw : within 1041 m = true := by decide) :
    erase m (State.limitRefresh u) = erase m s := by
  refine (erase_mono (m := 1041) hw ?_).trans he
  unfold State.limitRefresh
  repeat' first
    | with_reducible rfl
    | with_reducible assumption
    | with_reducible refine State.puts_er ?_
    | with_reducible refine State.raiseIf_er ?_
    | with_reducible refine State.live_er ?_
    | with_reducible refine State.sumsRefresh_er ?_
    | with_reducible refine erase_ite ?_ ?_
    | dsimp only
    | split
    | with_reducible refine upd_silo_er ?_

theorem State.memRefresh_er {m : Nat} {s : State} {u : State} (he : erase m u = erase m s) (hw : within 1041 m = true := by decide) :
    erase m (State.memRefresh u) = erase m s := by
  refine (erase_mono (m := 1041) hw ?_).trans he
  unfold State.memRefresh
  repeat' first
    | with_reducible rfl
    | with_reducible assumption
    | with_reducible refine State.puts_er ?_
    | with_reducible refine State.raiseIf_er ?_
    | with_reducible refine State.live_er ?_
    | with_reducible refine State.forAll_er ?_ (fun _ _ => ?_)
    | with_reducible refine State.limitRefresh_er ?_
    | with_reducible refine erase_ite ?_ ?_
    | dsimp only
    | split

theorem State.markFailed_er {m : Nat} {s : State} {u : State} {c : Nat} {reason : Nat} (he : erase m u = erase m s) (hw : within 32785 m = true := by decide) :
    erase m (State.markFailed u c reason) = erase m s := by
  refine (erase_mono (m := 32785) hw ?_).trans he
  unfold State.markFailed
  repeat' first
    | with_reducible rfl
    | with_reducible assumption
    | with_reducible refine State.put_er ?_
    | with_reducible refine State.sumsRefresh_er ?_
    | with_reducible refine State.puts_er ?_
    | with_reducible refine State.raise_er ?_
    | with_reducible refine State.live_er ?_
    | with_reducible refine State.modMem_er ?_
    | with_reducible refine erase_ite ?_ ?_
    | dsimp only
    | split

theorem State.poisonRefresh_er {m : Nat} {s : State} {u : State} (he : erase m u = erase m s) (hw : within 17 m = true := by decide) :
    erase m (State.poisonRefresh u) = erase m s := by
  refine (erase_mono (m := 17) hw ?_).trans he
  unfold State.poisonRefresh
  repeat' first
    | with_reducible rfl
    | with_reducible assumption
    | with_reducible refine State.puts_er ?_
    | with_reducible refine State.raiseIf_er ?_
    | with_reducible refine State.live_er ?_

theorem State.poisonAdd_er {m : Nat} {s : State} {u : State} {stripe : Nat} (he : erase m u = erase m s) (hw : within 32785 m = true := by decide) :
    erase m (State.poisonAdd u stripe) = erase m s := by
  refine (erase_mono (m := 32785) hw ?_).trans he
  unfold State.poisonAdd
  repeat' first
    | with_reducible rfl
    | with_reducible assumption
    | with_reducible refine State.modMem_er ?_
    | with_reducible refine State.raise_er ?_
    | with_reducible refine State.puts_er ?_
    | with_reducible refine State.poisonRefresh_er ?_
    | with_reducible refine erase_ite ?_ ?_
    | dsimp only
    | split

theorem State.poisonDrop_er {m : Nat} {s : State} {u : State} {stripe : Nat} (he : erase m u = erase m s) (hw : within 32785 m = true := by decide) :
    erase m (State.poisonDrop u stripe) = erase m s := by
  refine (erase_mono (m := 32785) hw ?_).trans he
  unfold State.poisonDrop
  repeat' first
    | with_reducible rfl
    | with_reducible assumption
    | with_reducible refine State.modMem_er ?_
    | with_reducible refine State.poisonRefresh_er ?_
    | with_reducible refine erase_ite ?_ ?_
    | dsimp only
    | split

theorem State.applyHits_er {m : Nat} {s : State} {u : State} {stripe : Nat} {hits : List MemHit} (he : erase m u = erase m s) (hw : within 32768 m = true := by decide) :
    erase m (State.applyHits u stripe hits) = erase m s := by
  refine (erase_mono (m := 32768) hw ?_).trans he
  unfold State.applyHits
  repeat' first
    | with_reducible rfl
    | with_reducible assumption
    | with_reducible refine State.modMem_er ?_
    | with_reducible refine erase_foldl ?_ (fun _ _ => ?_)
    | with_reducible refine erase_foldl_fst ?_ (fun _ _ => ?_)

theorem State.countWord_er {m : Nat} {s : State} {u : State} {c : Nat} {w : Nat} {syn : Nat} {p : Bool} {o : Light} (he : erase m u = erase m s) (hw : within 32785 m = true := by decide) :
    erase m (State.countWord u c w syn p o) = erase m s := by
  refine (erase_mono (m := 32785) hw ?_).trans he
  unfold State.countWord
  repeat' first
    | with_reducible rfl
    | with_reducible assumption
    | with_reducible refine State.bump_er ?_
    | with_reducible refine State.puts_er ?_
    | with_reducible refine State.raise_er ?_
    | with_reducible refine State.modMem_er ?_
    | with_reducible refine State.markFailed_er ?_
    | with_reducible refine State.setFault_er ?_
    | with_reducible refine erase_ite ?_ ?_
    | with_reducible refine erase_of_fst (by assumption) ?_
    | dsimp only
    | split

theorem State.burstRead_er {m : Nat} {s : State} {u : State} {stripe : Nat} {p : Nat} (he : erase m u = erase m s) (hw : within 32785 m = true := by decide) :
    erase m (State.burstRead u stripe p).1 = erase m s := by
  refine (erase_mono (m := 32785) hw ?_).trans he
  unfold State.burstRead
  repeat' first
    | with_reducible rfl
    | with_reducible assumption
    | with_reducible refine State.countWord_er ?_
    | with_reducible refine State.modMem_er ?_
    | with_reducible refine erase_ite ?_ ?_
    | with_reducible refine erase_foldl ?_ (fun _ _ => ?_)
    | with_reducible refine erase_foldl_fst ?_ (fun _ _ => ?_)
    | with_reducible refine erase_ite_fst ?_ ?_
    | dsimp only
    | split

theorem State.burstsRead_er {m : Nat} {s : State} {u : State} {stripe : Nat} {x0 : List Nat} (he : erase m u = erase m s) (hw : within 32785 m = true := by decide) :
    erase m (State.burstsRead u stripe x0).1 = erase m s := by
  refine (erase_mono (m := 32785) hw ?_).trans he
  clear he hw
  induction x0 generalizing u stripe with
  | nil =>
    unfold State.burstsRead
    repeat' first
      | with_reducible rfl
      | with_reducible assumption
      | with_reducible refine State.burstRead_er ?_
      | with_reducible refine erase_ite ?_ ?_
      | with_reducible refine erase_ite_fst ?_ ?_
      | with_reducible refine erase_of_fst (by assumption) ?_
      | dsimp only
      | split
  | cons _ _ ih =>
    unfold State.burstsRead
    repeat' first
      | with_reducible rfl
      | with_reducible assumption
      | with_reducible refine State.burstRead_er ?_
      | with_reducible refine erase_ite ?_ ?_
      | with_reducible refine erase_ite_fst ?_ ?_
      | with_reducible refine erase_of_fst (by assumption) ?_
      | dsimp only
      | split
      | with_reducible refine (ih ..).trans ?_

theorem State.stripeRead_er {m : Nat} {s : State} {u : State} {stripe : Nat} (he : erase m u = erase m s) (hw : within 32785 m = true := by decide) :
    erase m (State.stripeRead u stripe).1 = erase m s := by
  refine (erase_mono (m := 32785) hw ?_).trans he
  unfold State.stripeRead
  repeat' first
    | with_reducible rfl
    | with_reducible assumption
    | with_reducible refine State.burstsRead_er ?_
    | with_reducible refine erase_of_fst (by assumption) ?_
    | dsimp only
    | split

theorem State.stripeData_er {m : Nat} {s : State} {u : State} {stripe : Nat} {first : Nat} {count : Nat} (he : erase m u = erase m s) (hw : within 32785 m = true := by decide) :
    erase m (State.stripeData u stripe first count).1 = erase m s := by
  refine (erase_mono (m := 32785) hw ?_).trans he
  unfold State.stripeData
  repeat' first
    | with_reducible rfl
    | with_reducible assumption
    | with_reducible refine State.stripeRead_er ?_
    | with_reducible refine State.poisonAdd_er ?_
    | with_reducible refine State.burstsRead_er ?_
    | with_reducible refine erase_ite ?_ ?_
    | with_reducible refine erase_ite_fst ?_ ?_
    | with_reducible refine erase_of_fst (by assumption) ?_
    | dsimp only
    | split

theorem State.stripeMerge_er {m : Nat} {s : State} {u : State} {stripe : Nat} {merge : List Byte → List Byte} (he : erase m u = erase m s) (hw : within 32785 m = true := by decide) :
    erase m (State.stripeMerge u stripe merge) = erase m s := by
  refine (erase_mono (m := 32785) hw ?_).trans he
  unfold State.stripeMerge
  repeat' first
    | with_reducible rfl
    | with_reducible assumption
    | with_reducible refine State.stripeStore_er ?_
    | with_reducible refine State.stripeRead_er ?_
    | with_reducible refine State.poisonAdd_er ?_
    | with_reducible refine erase_ite ?_ ?_
    | with_reducible refine erase_of_fst (by assumption) ?_
    | dsimp only
    | split

theorem State.stripeWrite_er {m : Nat} {s : State} {u : State} {stripe : Nat} {off : Nat} {data : List Byte} (he : erase m u = erase m s) (hw : within 32785 m = true := by decide) :
    erase m (State.stripeWrite u stripe off data) = erase m s := by
  refine (erase_mono (m := 32785) hw ?_).trans he
  unfold State.stripeWrite
  repeat' first
    | with_reducible rfl
    | with_reducible assumption
    | with_reducible refine State.stripeStore_er ?_
    | with_reducible refine State.poisonDrop_er ?_
    | with_reducible refine State.stripeMerge_er ?_
    | with_reducible refine erase_ite ?_ ?_
    | dsimp only
    | split

theorem State.winnowVisit_er {m : Nat} {s : State} {u : State} {stripe : Nat} {rebuilding : Bool} (he : erase m u = erase m s) (hw : within 32785 m = true := by decide) :
    erase m (State.winnowVisit u stripe rebuilding) = erase m s := by
  refine (erase_mono (m := 32785) hw ?_).trans he
  unfold State.winnowVisit
  repeat' first
    | with_reducible rfl
    | with_reducible assumption
    | with_reducible refine State.stripeRead_er ?_
    | with_reducible refine State.poisonAdd_er ?_
    | with_reducible refine State.stripeStore_er ?_
    | with_reducible refine State.bump_er ?_
    | with_reducible refine State.modMem_er ?_
    | with_reducible refine erase_ite ?_ ?_
    | with_reducible refine erase_of_fst (by assumption) ?_
    | dsimp only
    | split

theorem State.memTrained_er {m : Nat} {s : State} {u : State} {c : Nat} {rdEye : Nat} {wrEye : Nat} {vref : Nat} (he : erase m u = erase m s) (hw : within 33809 m = true := by decide) :
    erase m (State.memTrained u c rdEye wrEye vref) = erase m s := by
  refine (erase_mono (m := 33809) hw ?_).trans he
  unfold State.memTrained
  repeat' first
    | with_reducible rfl
    | with_reducible assumption
    | with_reducible refine State.puts_er ?_
    | with_reducible refine State.modMem_er ?_
    | with_reducible refine State.put_er ?_
    | with_reducible refine State.memRefresh_er ?_
    | with_reducible refine State.markFailed_er ?_
    | with_reducible refine erase_ite ?_ ?_
    | dsimp only
    | split

theorem State.countBins_er {m : Nat} {s : State} {u : State} (he : erase m u = erase m s) (hw : within 17 m = true := by decide) :
    erase m (State.countBins u) = erase m s := by
  refine (erase_mono (m := 17) hw ?_).trans he
  unfold State.countBins
  repeat' first
    | with_reducible rfl
    | with_reducible assumption
    | with_reducible refine State.put_er ?_
    | with_reducible refine State.sumsRefresh_er ?_

theorem State.selftest_er {m : Nat} {s : State} {u : State} {mismatch : List Nat} {ms : Nat} (he : erase m u = erase m s) (hw : within 32785 m = true := by decide) :
    erase m (State.selftest u mismatch ms) = erase m s := by
  refine (erase_mono (m := 32785) hw ?_).trans he
  unfold State.selftest
  repeat' first
    | with_reducible rfl
    | with_reducible assumption
    | with_reducible refine State.forAll_er ?_ (fun _ _ => ?_)
    | with_reducible refine State.put_er ?_
    | with_reducible refine State.markFailed_er ?_
    | with_reducible refine State.puts_er ?_
    | with_reducible refine State.raiseIf_er ?_
    | with_reducible refine State.modMem_er ?_
    | with_reducible refine State.poisonRefresh_er ?_
    | with_reducible refine State.countBins_er ?_
    | with_reducible refine erase_ite ?_ ?_
    | with_reducible refine erase_foldl ?_ (fun _ _ => ?_)
    | with_reducible refine erase_foldl_fst ?_ (fun _ _ => ?_)
    | dsimp only
    | split

end Sys2Proof.Machine
end

