-- ==== Sys2Proof/Laws/FrameSilo.lean ====
section
/-! SUPPORT. Frames of the operations of Machine/Silo.lean. -/

set_option Elab.async false

namespace Sys2Proof.Machine

theorem State.setItx_er {m : Nat} {s : State} {u : State} {c : Nat} {x : IpTx} (he : erase m u = erase m s) (hw : within 16384 m = true := by decide) :
    erase m (State.setItx u c x) = erase m s := by
  refine (erase_mono (m := 16384) hw ?_).trans he
  unfold State.setItx
  repeat' first
    | with_reducible rfl
    | with_reducible assumption
    | with_reducible refine upd_ip_er ?_

theorem State.ctxStart_er {m : Nat} {s : State} {u : State} {key : Nat} {entry : Int} (he : erase m u = erase m s) (hw : within 16781312 m = true := by decide) :
    erase m (State.ctxStart u key entry) = erase m s := by
  refine (erase_mono (m := 16781312) hw ?_).trans he
  unfold State.ctxStart
  repeat' first
    | with_reducible rfl
    | with_reducible assumption
    | with_reducible refine State.setCtx_er ?_
    | with_reducible refine State.tick_er ?_
    | with_reducible refine erase_ite ?_ ?_
    | with_reducible refine erase_foldl ?_ (fun _ _ => ?_)
    | with_reducible refine erase_foldl_fst ?_ (fun _ _ => ?_)
    | dsimp only
    | split

theorem State.ringStart_er {m : Nat} {s : State} {u : State} {key : Nat} {entry : Int} (he : erase m u = erase m s) (hw : within 1041 m = true := by decide) :
    erase m (State.ringStart u key entry) = erase m s := by
  refine (erase_mono (m := 1041) hw ?_).trans he
  unfold State.ringStart
  repeat' first
    | with_reducible rfl
    | with_reducible assumption
    | with_reducible refine State.setRing_er ?_
    | with_reducible refine State.siloEvent_er ?_
    | with_reducible refine erase_ite ?_ ?_
    | with_reducible refine erase_of_fst (by assumption) ?_
    | dsimp only
    | split

theorem State.ctxComplete_er {m : Nat} {s : State} {u : State} {key : Nat} {cut : Bool} (he : erase m u = erase m s) (hw : within 4096 m = true := by decide) :
    erase m (State.ctxComplete u key cut) = erase m s := by
  refine (erase_mono (m := 4096) hw ?_).trans he
  unfold State.ctxComplete
  repeat' first
    | with_reducible rfl
    | with_reducible assumption
    | with_reducible refine State.setCtx_er ?_
    | with_reducible refine erase_ite ?_ ?_
    | with_reducible refine erase_foldl ?_ (fun _ _ => ?_)
    | with_reducible refine erase_foldl_fst ?_ (fun _ _ => ?_)
    | dsimp only
    | split

theorem State.storeComplete_er {m : Nat} {s : State} {u : State} {i : Nat} {changed : Bool} (he : erase m u = erase m s) (hw : within 1041 m = true := by decide) :
    erase m (State.storeComplete u i changed) = erase m s := by
  refine (erase_mono (m := 1041) hw ?_).trans he
  unfold State.storeComplete
  repeat' first
    | with_reducible rfl
    | with_reducible assumption
    | with_reducible refine State.put_er ?_
    | with_reducible refine State.siloEvent_er ?_
    | with_reducible refine State.epochMoves_er ?_
    | with_reducible refine State.setRing_er ?_
    | with_reducible refine erase_ite ?_ ?_
    | with_reducible refine erase_of_fst (by assumption) ?_
    | dsimp only
    | split

theorem State.ringComplete_er {m : Nat} {s : State} {u : State} {key : Nat} {cut : Bool} (he : erase m u = erase m s) (hw : within 1041 m = true := by decide) :
    erase m (State.ringComplete u key cut) = erase m s := by
  refine (erase_mono (m := 1041) hw ?_).trans he
  unfold State.ringComplete
  repeat' first
    | with_reducible rfl
    | with_reducible assumption
    | with_reducible refine State.setRing_er ?_
    | with_reducible refine State.siloStat_er ?_
    | with_reducible refine State.storeComplete_er ?_
    | with_reducible refine State.floorLive_er ?_
    | with_reducible refine erase_ite ?_ ?_
    | with_reducible refine erase_of_fst (by assumption) ?_
    | dsimp only
    | split

theorem State.setReader_er {m : Nat} {s : State} {u : State} {d : Nat} {c : Nat} {x : Reader} (he : erase m u = erase m s) (hw : within 1024 m = true := by decide) :
    erase m (State.setReader u d c x) = erase m s := by
  refine (erase_mono (m := 1024) hw ?_).trans he
  unfold State.setReader
  repeat' first
    | with_reducible rfl
    | with_reducible assumption
    | with_reducible refine upd_silo_er ?_

theorem State.selectFrame_er {m : Nat} {s : State} {u : State} {d : Nat} {c : Nat} {blend : Bool} (he : erase m u = erase m s) (hw : within 1024 m = true := by decide) :
    erase m (State.selectFrame u d c blend) = erase m s := by
  refine (erase_mono (m := 1024) hw ?_).trans he
  unfold State.selectFrame
  repeat' first
    | with_reducible rfl
    | with_reducible assumption
    | with_reducible refine State.setRing_er ?_
    | with_reducible refine State.setReader_er ?_
    | with_reducible refine erase_ite ?_ ?_
    | with_reducible refine erase_foldl ?_ (fun _ _ => ?_)
    | with_reducible refine erase_foldl_fst ?_ (fun _ _ => ?_)
    | with_reducible refine erase_of_fst (by assumption) ?_
    | dsimp only
    | split

theorem State.selectReaders_er {m : Nat} {s : State} {u : State} {routes : List (Nat × Nat)} (he : erase m u = erase m s) (hw : within 1536 m = true := by decide) :
    erase m (State.selectReaders u routes) = erase m s := by
  refine (erase_mono (m := 1536) hw ?_).trans he
  unfold State.selectReaders
  repeat' first
    | with_reducible rfl
    | with_reducible assumption
    | with_reducible refine State.selectFrame_er ?_
    | with_reducible refine State.setRoute_er ?_
    | with_reducible refine erase_ite ?_ ?_
    | with_reducible refine erase_foldl ?_ (fun _ _ => ?_)
    | with_reducible refine erase_foldl_fst ?_ (fun _ _ => ?_)
    | with_reducible refine erase_of_fst (by assumption) ?_
    | dsimp only
    | split
    | with_reducible refine upd_silo_er ?_

theorem State.readersDone_er {m : Nat} {s : State} {u : State} {d : Nat} (he : erase m u = erase m s) (hw : within 1024 m = true := by decide) :
    erase m (State.readersDone u d) = erase m s := by
  refine (erase_mono (m := 1024) hw ?_).trans he
  unfold State.readersDone
  repeat' first
    | with_reducible rfl
    | with_reducible assumption
    | with_reducible refine State.setRing_er ?_
    | with_reducible refine erase_foldl ?_ (fun _ _ => ?_)
    | with_reducible refine erase_foldl_fst ?_ (fun _ _ => ?_)

theorem State.storeRow_er {m : Nat} {s : State} {u : State} {bins : List Nat} {row : Nat} {pitch : Nat} {data : List Byte} (he : erase m u = erase m s) (hw : within 32785 m = true := by decide) :
    erase m (State.storeRow u bins row pitch data) = erase m s := by
  refine (erase_mono (m := 32785) hw ?_).trans he
  unfold State.storeRow
  repeat' first
    | with_reducible rfl
    | with_reducible assumption
    | with_reducible refine State.forAll_er ?_ (fun _ _ => ?_)
    | with_reducible refine State.stripeWrite_er ?_
    | with_reducible refine erase_of_fst (by assumption) ?_
    | dsimp only
    | split

theorem State.binRead_er {m : Nat} {s : State} {u : State} {bin : Nat} {stripe : Nat} {first : Nat} {count : Nat} (he : erase m u = erase m s) (hw : within 32785 m = true := by decide) :
    erase m (State.binRead u bin stripe first count).1 = erase m s := by
  refine (erase_mono (m := 32785) hw ?_).trans he
  unfold State.binRead
  repeat' first
    | with_reducible rfl
    | with_reducible assumption
    | with_reducible refine State.stripeData_er ?_
    | with_reducible refine erase_of_fst (by assumption) ?_
    | dsimp only
    | split

theorem State.readRow_er {m : Nat} {s : State} {u : State} {bins : List Nat} {f : SrcFmt} {row : Nat} (he : erase m u = erase m s) (hw : within 32785 m = true := by decide) :
    erase m (State.readRow u bins f row).1 = erase m s := by
  refine (erase_mono (m := 32785) hw ?_).trans he
  unfold State.readRow
  repeat' first
    | with_reducible rfl
    | with_reducible assumption
    | with_reducible refine State.binRead_er ?_
    | with_reducible refine erase_foldl ?_ (fun _ _ => ?_)
    | with_reducible refine erase_foldl_fst ?_ (fun _ _ => ?_)
    | with_reducible refine erase_of_fst (by assumption) ?_
    | dsimp only
    | split

theorem State.readLine_er {m : Nat} {s : State} {u : State} {b : Buf} {y : Nat} (he : erase m u = erase m s) (hw : within 32785 m = true := by decide) :
    erase m (State.readLine u b y).1 = erase m s := by
  refine (erase_mono (m := 32785) hw ?_).trans he
  unfold State.readLine
  repeat' first
    | with_reducible rfl
    | with_reducible assumption
    | with_reducible refine State.readRow_er ?_
    | with_reducible refine erase_of_fst (by assumption) ?_
    | dsimp only
    | split

theorem State.blendRead_er {m : Nat} {s : State} {u : State} {b : Buf} {o : Buf} {y : Nat} (he : erase m u = erase m s) (hw : within 32785 m = true := by decide) :
    erase m (State.blendRead u b o y).1 = erase m s := by
  refine (erase_mono (m := 32785) hw ?_).trans he
  unfold State.blendRead
  repeat' first
    | with_reducible rfl
    | with_reducible assumption
    | with_reducible refine State.readLine_er ?_
    | with_reducible refine erase_of_fst (by assumption) ?_
    | dsimp only
    | split

theorem State.bufferLine_er {m : Nat} {s : State} {u : State} {key : Nat} {b : Buf} {l : FlLine} (he : erase m u = erase m s) (hw : within 33809 m = true := by decide) :
    erase m (State.bufferLine u key b l) = erase m s := by
  refine (erase_mono (m := 33809) hw ?_).trans he
  unfold State.bufferLine
  repeat' first
    | with_reducible rfl
    | with_reducible assumption
    | with_reducible refine State.setRing_er ?_
    | with_reducible refine State.readRow_er ?_
    | with_reducible refine State.storeRow_er ?_
    | with_reducible refine erase_ite ?_ ?_
    | with_reducible refine erase_of_fst (by assumption) ?_
    | dsimp only
    | split

theorem State.siloLine_er {m : Nat} {s : State} {u : State} {c : Nat} {l : FlLine} (he : erase m u = erase m s) (hw : within 37905 m = true := by decide) :
    erase m (State.siloLine u c l) = erase m s := by
  refine (erase_mono (m := 37905) hw ?_).trans he
  unfold State.siloLine
  repeat' first
    | with_reducible rfl
    | with_reducible assumption
    | with_reducible refine State.bufferLine_er ?_
    | with_reducible refine erase_foldl ?_ (fun _ _ => ?_)
    | with_reducible refine erase_foldl_fst ?_ (fun _ _ => ?_)
    | with_reducible refine upd_conv_er ?_

theorem State.modSilo_er {m : Nat} {s : State} {u : State} {f : Silo → Silo} (he : erase m u = erase m s) (hw : within 1024 m = true := by decide) :
    erase m (State.modSilo u f) = erase m s := by
  refine (erase_mono (m := 1024) hw ?_).trans he
  unfold State.modSilo
  repeat' first
    | with_reducible rfl
    | with_reducible assumption
    | with_reducible refine upd_silo_er ?_

theorem State.combineFlush_er {m : Nat} {s : State} {u : State} {e : Combine} (he : erase m u = erase m s) (hw : within 33809 m = true := by decide) :
    erase m (State.combineFlush u e) = erase m s := by
  refine (erase_mono (m := 33809) hw ?_).trans he
  unfold State.combineFlush
  repeat' first
    | with_reducible rfl
    | with_reducible assumption
    | with_reducible refine State.modSilo_er ?_
    | with_reducible refine State.binRead_er ?_
    | with_reducible refine State.stripeWrite_er ?_
    | with_reducible refine State.stripeMerge_er ?_
    | with_reducible refine erase_ite ?_ ?_
    | with_reducible refine erase_foldl ?_ (fun _ _ => ?_)
    | with_reducible refine erase_foldl_fst ?_ (fun _ _ => ?_)
    | with_reducible refine erase_of_fst (by assumption) ?_
    | dsimp only
    | split

theorem State.holdWrite_er {m : Nat} {s : State} {u : State} {i : Nat} {off : Nat} {data : List Byte} {again : Bool} (he : erase m u = erase m s) (hw : within 1041 m = true := by decide) :
    erase m (State.holdWrite u i off data again) = erase m s := by
  refine (erase_mono (m := 1041) hw ?_).trans he
  unfold State.holdWrite
  repeat' first
    | with_reducible rfl
    | with_reducible assumption
    | with_reducible refine State.modSilo_er ?_
    | with_reducible refine State.siloEvent_er ?_
    | with_reducible refine State.live_er ?_
    | with_reducible refine erase_ite ?_ ?_
    | dsimp only
    | split

theorem State.bar2Piece_er {m : Nat} {s : State} {u : State} {i : Nat} {bin : Nat} {off : Nat} {data : List Byte} {again : Bool} (he : erase m u = erase m s) (hw : within 33809 m = true := by decide) :
    erase m (State.bar2Piece u i bin off data again) = erase m s := by
  refine (erase_mono (m := 33809) hw ?_).trans he
  unfold State.bar2Piece
  repeat' first
    | with_reducible rfl
    | with_reducible assumption
    | with_reducible refine State.holdWrite_er ?_
    | with_reducible refine State.combineFlush_er ?_
    | with_reducible refine State.modSilo_er ?_
    | with_reducible refine erase_ite ?_ ?_
    | with_reducible refine erase_of_fst (by assumption) ?_
    | dsimp only
    | split

theorem State.bar2Fault_er {m : Nat} {s : State} {u : State} {a : Nat} (he : erase m u = erase m s) (hw : within 17 m = true := by decide) :
    erase m (State.bar2Fault u a) = erase m s := by
  refine (erase_mono (m := 17) hw ?_).trans he
  unfold State.bar2Fault
  repeat' first
    | with_reducible rfl
    | with_reducible assumption
    | with_reducible refine State.put_er ?_
    | with_reducible refine State.raise_er ?_

theorem State.bar2Bytes_er {m : Nat} {s : State} {x0 : Nat} {u : State} {x2 : Nat} {x3 : List Byte} (he : erase m u = erase m s) (hw : within 33809 m = true := by decide) :
    erase m (State.bar2Bytes x0 u x2 x3) = erase m s := by
  refine (erase_mono (m := 33809) hw ?_).trans he
  clear he hw
  induction x0 generalizing u x2 x3 with
  | zero =>
    unfold State.bar2Bytes
    repeat' first
      | with_reducible rfl
      | with_reducible assumption
      | with_reducible refine State.bar2Piece_er ?_
      | with_reducible refine State.bar2Fault_er ?_
      | with_reducible refine State.holdWrite_er ?_
      | with_reducible refine erase_ite ?_ ?_
      | with_reducible refine erase_of_fst (by assumption) ?_
      | dsimp only
      | split
  | succ _ ih =>
    unfold State.bar2Bytes
    repeat' first
      | with_reducible rfl
      | with_reducible assumption
      | with_reducible refine State.bar2Piece_er ?_
      | with_reducible refine State.bar2Fault_er ?_
      | with_reducible refine State.holdWrite_er ?_
      | with_reducible refine erase_ite ?_ ?_
      | with_reducible refine erase_of_fst (by assumption) ?_
      | dsimp only
      | split
      | with_reducible refine (ih ..).trans ?_

theorem State.doorbell_er {m : Nat} {s : State} {u : State} {a : Nat} {v : Word} (he : erase m u = erase m s) (hw : within 33809 m = true := by decide) :
    erase m (State.doorbell u a v) = erase m s := by
  refine (erase_mono (m := 33809) hw ?_).trans he
  unfold State.doorbell
  repeat' first
    | with_reducible rfl
    | with_reducible assumption
    | with_reducible refine State.combineFlush_er ?_
    | with_reducible refine State.wr_er ?_
    | with_reducible refine erase_foldl ?_ (fun _ _ => ?_)
    | with_reducible refine erase_foldl_fst ?_ (fun _ _ => ?_)

end Sys2Proof.Machine
end

