-- ==== Sys2Proof/Laws/FrameComposer.lean ====
section
/-! SUPPORT. Frames of the operations of Machine/Composer.lean. -/

set_option Elab.async false

namespace Sys2Proof.Machine

theorem State.layerStat_er {m : Nat} {s : State} {u : State} {g : Nat} {k : Nat} (he : erase m u = erase m s) (hw : within 1 m = true := by decide) :
    erase m (State.layerStat u g k) = erase m s := by
  refine (erase_mono (m := 1) hw ?_).trans he
  unfold State.layerStat
  repeat' first
    | with_reducible rfl
    | with_reducible assumption
    | with_reducible refine State.puts_er ?_
    | with_reducible refine erase_ite ?_ ?_
    | with_reducible refine erase_of_fst (by assumption) ?_
    | dsimp only
    | split

theorem State.layerStats_er {m : Nat} {s : State} {u : State} {g : Nat} (he : erase m u = erase m s) (hw : within 1 m = true := by decide) :
    erase m (State.layerStats u g) = erase m s := by
  refine (erase_mono (m := 1) hw ?_).trans he
  unfold State.layerStats
  repeat' first
    | with_reducible rfl
    | with_reducible assumption
    | with_reducible refine State.forAll_er ?_ (fun _ _ => ?_)
    | with_reducible refine State.layerStat_er ?_

theorem State.coefRefuse_er {m : Nat} {s : State} {u : State} {g : Nat} (he : erase m u = erase m s) (hw : within 17 m = true := by decide) :
    erase m (State.coefRefuse u g) = erase m s := by
  refine (erase_mono (m := 17) hw ?_).trans he
  unfold State.coefRefuse
  repeat' first
    | with_reducible rfl
    | with_reducible assumption
    | with_reducible refine State.refuseDirect_er ?_
    | with_reducible refine State.raise_er ?_

theorem State.tableWritten_er {m : Nat} {s : State} {u : State} {g : Nat} {layer : Nat} {vertical : Bool} (he : erase m u = erase m s) (hw : within 2048 m = true := by decide) :
    erase m (State.tableWritten u g layer vertical) = erase m s := by
  refine (erase_mono (m := 2048) hw ?_).trans he
  unfold State.tableWritten
  repeat' first
    | with_reducible rfl
    | with_reducible assumption
    | with_reducible refine State.setComp_er ?_

theorem State.coefStore_er {m : Nat} {s : State} {u : State} {g : Nat} {layer : Nat} {vertical : Bool} {phase : Nat} {c : List Int} (he : erase m u = erase m s) (hw : within 1 m = true := by decide) :
    erase m (State.coefStore u g layer vertical phase c) = erase m s := by
  refine (erase_mono (m := 1) hw ?_).trans he
  unfold State.coefStore
  repeat' first
    | with_reducible rfl
    | with_reducible assumption
    | with_reducible refine State.forAll_er ?_ (fun _ _ => ?_)
    | with_reducible refine State.wr_er ?_

theorem State.coefReload_er {m : Nat} {s : State} {u : State} {g : Nat} {layer : Nat} (he : erase m u = erase m s) (hw : within 2049 m = true := by decide) :
    erase m (State.coefReload u g layer) = erase m s := by
  refine (erase_mono (m := 2049) hw ?_).trans he
  unfold State.coefReload
  repeat' first
    | with_reducible rfl
    | with_reducible assumption
    | with_reducible refine State.forAll_er ?_ (fun _ _ => ?_)
    | with_reducible refine State.wr_er ?_
    | with_reducible refine State.tableWritten_er ?_
    | with_reducible refine State.put_er ?_
    | with_reducible refine erase_ite ?_ ?_
    | dsimp only
    | split

theorem State.lutInc_er {m : Nat} {s : State} {u : State} {g : Nat} (he : erase m u = erase m s) (hw : within 1 m = true := by decide) :
    erase m (State.lutInc u g) = erase m s := by
  refine (erase_mono (m := 1) hw ?_).trans he
  unfold State.lutInc
  repeat' first
    | with_reducible rfl
    | with_reducible assumption
    | with_reducible refine State.put_er ?_
    | with_reducible refine erase_ite ?_ ?_
    | dsimp only
    | split

theorem State.storedLine_er {m : Nat} {s : State} {u : State} {g : Nat} {k : Nat} {y : Nat} (he : erase m u = erase m s) (hw : within 32785 m = true := by decide) :
    erase m (State.storedLine u g k y).1 = erase m s := by
  refine (erase_mono (m := 32785) hw ?_).trans he
  unfold State.storedLine
  repeat' first
    | with_reducible rfl
    | with_reducible assumption
    | with_reducible refine State.readLine_er ?_
    | with_reducible refine State.blendRead_er ?_
    | with_reducible refine State.readRow_er ?_
    | with_reducible refine erase_ite ?_ ?_
    | with_reducible refine erase_ite_fst ?_ ?_
    | with_reducible refine erase_of_fst (by assumption) ?_
    | dsimp only
    | split

theorem State.substitute_er {m : Nat} {s : State} {u : State} {g : Nat} {k : Nat} {y : Nat} (he : erase m u = erase m s) (hw : within 32785 m = true := by decide) :
    erase m (State.substitute u g k y).1 = erase m s := by
  refine (erase_mono (m := 32785) hw ?_).trans he
  unfold State.substitute
  repeat' first
    | with_reducible rfl
    | with_reducible assumption
    | with_reducible refine State.readLine_er ?_
    | with_reducible refine State.readRow_er ?_
    | with_reducible refine erase_ite ?_ ?_
    | with_reducible refine erase_ite_fst ?_ ?_
    | with_reducible refine erase_of_fst (by assumption) ?_
    | dsimp only
    | split

theorem State.hideLayer_er {m : Nat} {s : State} {u : State} {g : Nat} {k : Nat} {f : SrcFmt} {y : Nat} (he : erase m u = erase m s) (hw : within 2065 m = true := by decide) :
    erase m (State.hideLayer u g k f y) = erase m s := by
  refine (erase_mono (m := 2065) hw ?_).trans he
  unfold State.hideLayer
  repeat' first
    | with_reducible rfl
    | with_reducible assumption
    | with_reducible refine State.bump_er ?_
    | with_reducible refine State.raiseIf_er ?_
    | with_reducible refine State.setLayer_er ?_
    | with_reducible refine State.layerStat_er ?_
    | with_reducible refine erase_ite ?_ ?_
    | with_reducible refine erase_of_fst (by assumption) ?_
    | dsimp only
    | split

theorem State.damage_er {m : Nat} {s : State} {u : State} {g : Nat} {k : Nat} {y : Nat} (he : erase m u = erase m s) (hw : within 34833 m = true := by decide) :
    erase m (State.damage u g k y) = erase m s := by
  refine (erase_mono (m := 34833) hw ?_).trans he
  unfold State.damage
  repeat' first
    | with_reducible rfl
    | with_reducible assumption
    | with_reducible refine State.substitute_er ?_
    | with_reducible refine State.setLayer_er ?_
    | with_reducible refine State.bump_er ?_
    | with_reducible refine State.raise_er ?_
    | with_reducible refine State.hideLayer_er ?_
    | with_reducible refine erase_ite ?_ ?_
    | with_reducible refine erase_of_fst (by assumption) ?_
    | dsimp only
    | split

theorem State.layerGets_er {m : Nat} {s : State} {u : State} {g : Nat} {k : Nat} {y : Nat} {w : Option (List Nat)} (he : erase m u = erase m s) (hw : within 34833 m = true := by decide) :
    erase m (State.layerGets u g k y w) = erase m s := by
  refine (erase_mono (m := 34833) hw ?_).trans he
  unfold State.layerGets
  repeat' first
    | with_reducible rfl
    | with_reducible assumption
    | with_reducible refine State.damage_er ?_
    | with_reducible refine State.setLayer_er ?_
    | with_reducible refine erase_of_fst (by assumption) ?_
    | dsimp only
    | split

theorem State.cutLine_er {m : Nat} {s : State} {u : State} {g : Nat} {k : Nat} {l : FlLine} (he : erase m u = erase m s) (hw : within 34833 m = true := by decide) :
    erase m (State.cutLine u g k l) = erase m s := by
  refine (erase_mono (m := 34833) hw ?_).trans he
  unfold State.cutLine
  repeat' first
    | with_reducible rfl
    | with_reducible assumption
    | with_reducible refine State.setLayer_er ?_
    | with_reducible refine State.layerGets_er ?_
    | with_reducible refine erase_ite ?_ ?_
    | dsimp only
    | split

theorem State.lineIn_er {m : Nat} {s : State} {u : State} {c : Nat} {l : FlLine} (he : erase m u = erase m s) (hw : within 54801 m = true := by decide) :
    erase m (State.lineIn u c l) = erase m s := by
  refine (erase_mono (m := 54801) hw ?_).trans he
  unfold State.lineIn
  repeat' first
    | with_reducible rfl
    | with_reducible assumption
    | with_reducible refine State.siloLine_er ?_
    | with_reducible refine State.setItx_er ?_
    | with_reducible refine erase_ite ?_ ?_
    | with_reducible refine erase_foldl ?_ (fun _ _ => ?_)
    | with_reducible refine erase_foldl_fst ?_ (fun _ _ => ?_)
    | dsimp only
    | split
    | with_reducible refine upd_floor_er ?_

theorem State.toSheafLine_er {m : Nat} {s : State} {u : State} {d : Nat} {l : FinLine} {bad : Bool} (he : erase m u = erase m s) (hw : within 35345 m = true := by decide) :
    erase m (State.toSheafLine u d l bad) = erase m s := by
  refine (erase_mono (m := 35345) hw ?_).trans he
  unfold State.toSheafLine
  repeat' first
    | with_reducible rfl
    | with_reducible assumption
    | with_reducible refine State.cutLine_er ?_
    | with_reducible refine erase_foldl ?_ (fun _ _ => ?_)
    | with_reducible refine erase_foldl_fst ?_ (fun _ _ => ?_)
    | with_reducible refine upd_floor_er ?_

theorem State.storedToSheaf_er {m : Nat} {s : State} {u : State} {d : Nat} {l : FinLine} {bad : Bool} (he : erase m u = erase m s) (hw : within 34833 m = true := by decide) :
    erase m (State.storedToSheaf u d l bad) = erase m s := by
  refine (erase_mono (m := 34833) hw ?_).trans he
  unfold State.storedToSheaf
  repeat' first
    | with_reducible rfl
    | with_reducible assumption
    | with_reducible refine State.layerGets_er ?_
    | with_reducible refine State.storedLine_er ?_
    | with_reducible refine erase_ite ?_ ?_
    | with_reducible refine erase_foldl ?_ (fun _ _ => ?_)
    | with_reducible refine erase_foldl_fst ?_ (fun _ _ => ?_)
    | dsimp only
    | split

theorem State.toGranaryLine_er {m : Nat} {s : State} {u : State} {d : Nat} {l : FinLine} {bad : Bool} (he : erase m u = erase m s) (hw : within 54801 m = true := by decide) :
    erase m (State.toGranaryLine u d l bad) = erase m s := by
  refine (erase_mono (m := 54801) hw ?_).trans he
  unfold State.toGranaryLine
  repeat' first
    | with_reducible rfl
    | with_reducible assumption
    | with_reducible refine State.lineIn_er ?_
    | with_reducible refine erase_ite ?_ ?_
    | with_reducible refine erase_foldl ?_ (fun _ _ => ?_)
    | with_reducible refine erase_foldl_fst ?_ (fun _ _ => ?_)
    | dsimp only
    | split
    | with_reducible refine upd_floor_er ?_

theorem State.flipWait_er {m : Nat} {s : State} {u : State} {g : Nat} {wait : Nat → Bool} (he : erase m u = erase m s) (hw : within 1 m = true := by decide) :
    erase m (State.flipWait u g wait) = erase m s := by
  refine (erase_mono (m := 1) hw ?_).trans he
  unfold State.flipWait
  repeat' first
    | with_reducible rfl
    | with_reducible assumption
    | with_reducible refine State.put_er ?_
    | with_reducible refine State.live_er ?_

theorem State.deferFlip_er {m : Nat} {s : State} {u : State} {g : Nat} {k : Nat} {n : Nat} (he : erase m u = erase m s) (hw : within 17 m = true := by decide) :
    erase m (State.deferFlip u g k n) = erase m s := by
  refine (erase_mono (m := 17) hw ?_).trans he
  unfold State.deferFlip
  repeat' first
    | with_reducible rfl
    | with_reducible assumption
    | with_reducible refine State.puts_er ?_
    | with_reducible refine State.live_er ?_
    | with_reducible refine State.raise_er ?_
    | with_reducible refine State.raiseIf_er ?_

theorem State.fenceEvaluate_er {m : Nat} {s : State} {u : State} {g : Nat} {k : Nat} {n : Nat} (he : erase m u = erase m s) (hw : within 2065 m = true := by decide) :
    erase m (State.fenceEvaluate u g k n) = erase m s := by
  refine (erase_mono (m := 2065) hw ?_).trans he
  unfold State.fenceEvaluate
  repeat' first
    | with_reducible rfl
    | with_reducible assumption
    | with_reducible refine State.setLayer_er ?_
    | with_reducible refine State.deferFlip_er ?_
    | with_reducible refine erase_ite ?_ ?_
    | dsimp only
    | split

theorem State.fenceOnMessage_er {m : Nat} {s : State} {u : State} {n : Nat} {die : Nat} (he : erase m u = erase m s) (hw : within 2065 m = true := by decide) :
    erase m (State.fenceOnMessage u n die) = erase m s := by
  refine (erase_mono (m := 2065) hw ?_).trans he
  unfold State.fenceOnMessage
  repeat' first
    | with_reducible rfl
    | with_reducible assumption
    | with_reducible refine State.fenceEvaluate_er ?_
    | with_reducible refine erase_ite ?_ ?_
    | with_reducible refine erase_foldl ?_ (fun _ _ => ?_)
    | with_reducible refine erase_foldl_fst ?_ (fun _ _ => ?_)
    | dsimp only
    | split

theorem State.fenceConfirm_er {m : Nat} {s : State} {u : State} {n : Nat} (he : erase m u = erase m s) (hw : within 17 m = true := by decide) :
    erase m (State.fenceConfirm u n) = erase m s := by
  refine (erase_mono (m := 17) hw ?_).trans he
  unfold State.fenceConfirm
  repeat' first
    | with_reducible rfl
    | with_reducible assumption
    | with_reducible refine State.forAll_er ?_ (fun _ _ => ?_)
    | with_reducible refine State.deferFlip_er ?_
    | with_reducible refine erase_ite ?_ ?_
    | with_reducible refine erase_foldl ?_ (fun _ _ => ?_)
    | with_reducible refine erase_foldl_fst ?_ (fun _ _ => ?_)
    | dsimp only
    | split

theorem State.takeLayer_er {m : Nat} {s : State} {u : State} {g : Nat} {k : Nat} {n : Nat} (he : erase m u = erase m s) (hw : within 2067 m = true := by decide) :
    erase m (State.takeLayer u g k n) = erase m s := by
  refine (erase_mono (m := 2067) hw ?_).trans he
  unfold State.takeLayer
  repeat' first
    | with_reducible rfl
    | with_reducible assumption
    | with_reducible refine State.fenceEvaluate_er ?_
    | with_reducible refine State.put_er ?_
    | with_reducible refine State.raise_er ?_
    | with_reducible refine State.setLayer_er ?_
    | with_reducible refine State.applyStaging_er ?_
    | with_reducible refine erase_ite ?_ ?_
    | dsimp only
    | split

theorem State.takeHeld_er {m : Nat} {s : State} {u : State} {g : Nat} {k : Nat} (he : erase m u = erase m s) (hw : within 2051 m = true := by decide) :
    erase m (State.takeHeld u g k) = erase m s := by
  refine (erase_mono (m := 2051) hw ?_).trans he
  unfold State.takeHeld
  repeat' first
    | with_reducible rfl
    | with_reducible assumption
    | with_reducible refine State.setLayer_er ?_
    | with_reducible refine State.applyStaging_er ?_
    | with_reducible refine State.put_er ?_
    | with_reducible refine State.flipWait_er ?_
    | with_reducible refine erase_ite ?_ ?_
    | dsimp only
    | split

theorem State.composerTake_er {m : Nat} {s : State} {u : State} {g : Nat} {n : Nat} (he : erase m u = erase m s) (hw : within 2075 m = true := by decide) :
    erase m (State.composerTake u g n) = erase m s := by
  refine (erase_mono (m := 2075) hw ?_).trans he
  unfold State.composerTake
  repeat' first
    | with_reducible rfl
    | with_reducible assumption
    | with_reducible refine State.applyStaging_er ?_
    | with_reducible refine State.forAll_er ?_ (fun _ _ => ?_)
    | with_reducible refine State.takeLayer_er ?_
    | with_reducible refine State.flipWait_er ?_
    | with_reducible refine State.setGrp_er ?_
    | with_reducible refine State.put_er ?_
    | with_reducible refine State.live_er ?_
    | with_reducible refine erase_ite ?_ ?_
    | with_reducible refine erase_foldl ?_ (fun _ _ => ?_)
    | with_reducible refine erase_foldl_fst ?_ (fun _ _ => ?_)
    | dsimp only
    | split

theorem State.composerFrame_er {m : Nat} {s : State} {u : State} {g : Nat} (he : erase m u = erase m s) (hw : within 2075 m = true := by decide) :
    erase m (State.composerFrame u g) = erase m s := by
  refine (erase_mono (m := 2075) hw ?_).trans he
  unfold State.composerFrame
  repeat' first
    | with_reducible rfl
    | with_reducible assumption
    | with_reducible refine State.put_er ?_
    | with_reducible refine State.composerTake_er ?_
    | with_reducible refine State.forAll_er ?_ (fun _ _ => ?_)
    | with_reducible refine State.takeHeld_er ?_
    | with_reducible refine State.setLayer_er ?_
    | with_reducible refine State.layerStats_er ?_
    | with_reducible refine erase_ite ?_ ?_
    | with_reducible refine erase_foldl ?_ (fun _ _ => ?_)
    | with_reducible refine erase_foldl_fst ?_ (fun _ _ => ?_)
    | dsimp only
    | split

end Sys2Proof.Machine
end

