-- ==== Sys2Proof/Laws/FrameConvert.lean ====
section
/-! SUPPORT. Frames of the operations of Machine/Convert.lean. -/

set_option Elab.async false

namespace Sys2Proof.Machine

theorem State.convCount_er {m : Nat} {s : State} {u : State} {e : Nat} {c : Nat} {method : Nat} {once : Bool} (he : erase m u = erase m s) (hw : within 4113 m = true := by decide) :
    erase m (State.convCount u e c method once) = erase m s := by
  refine (erase_mono (m := 4113) hw ?_).trans he
  unfold State.convCount
  repeat' first
    | with_reducible rfl
    | with_reducible assumption
    | with_reducible refine State.put_er ?_
    | with_reducible refine State.bump_er ?_
    | with_reducible refine State.cvCause_er ?_
    | with_reducible refine State.setCtx_er ?_
    | with_reducible refine erase_ite ?_ ?_
    | dsimp only
    | split

theorem State.convUnhide_er {m : Nat} {s : State} {u : State} {e : Nat} {c : Nat} (he : erase m u = erase m s) (hw : within 1024 m = true := by decide) :
    erase m (State.convUnhide u e c) = erase m s := by
  refine (erase_mono (m := 1024) hw ?_).trans he
  unfold State.convUnhide
  repeat' first
    | with_reducible rfl
    | with_reducible assumption
    | with_reducible refine erase_foldl ?_ (fun _ _ => ?_)
    | with_reducible refine erase_foldl_fst ?_ (fun _ _ => ?_)
    | with_reducible refine upd_silo_er ?_

theorem State.convRepeat_er {m : Nat} {s : State} {u : State} {e : Nat} {c : Nat} {v : CvView} (he : erase m u = erase m s) (hw : within 8393745 m = true := by decide) :
    erase m (State.convRepeat u e c v) = erase m s := by
  refine (erase_mono (m := 8393745) hw ?_).trans he
  unfold State.convRepeat
  repeat' first
    | with_reducible rfl
    | with_reducible assumption
    | with_reducible refine State.setCtx_er ?_
    | with_reducible refine State.convUnhide_er ?_
    | with_reducible refine State.put_er ?_
    | with_reducible refine State.convCount_er ?_
    | with_reducible refine erase_ite ?_ ?_
    | dsimp only
    | split
    | with_reducible refine upd_out_er ?_

theorem State.convPair_er {m : Nat} {s : State} {u : State} {e : Nat} {c : Nat} {conf : Nat} {pair : Int × Int} (he : erase m u = erase m s) (hw : within 4113 m = true := by decide) :
    erase m (State.convPair u e c conf pair) = erase m s := by
  refine (erase_mono (m := 4113) hw ?_).trans he
  unfold State.convPair
  repeat' first
    | with_reducible rfl
    | with_reducible assumption
    | with_reducible refine State.setCtx_er ?_
    | with_reducible refine State.puts_er ?_
    | with_reducible refine State.bump_er ?_
    | with_reducible refine State.cvCause_er ?_
    | with_reducible refine erase_ite ?_ ?_
    | dsimp only
    | split

theorem State.convBuild_er {m : Nat} {s : State} {u : State} {e : Nat} {c : Nat} {tau : Int} {conf : Nat} {va : CvView} {vb : CvView} (he : erase m u = erase m s) (hw : within 25170961 m = true := by decide) :
    erase m (State.convBuild u e c tau conf va vb) = erase m s := by
  refine (erase_mono (m := 25170961) hw ?_).trans he
  unfold State.convBuild
  repeat' first
    | with_reducible rfl
    | with_reducible assumption
    | with_reducible refine State.convPair_er ?_
    | with_reducible refine State.tick_er ?_
    | with_reducible refine State.setCtx_er ?_
    | with_reducible refine State.convUnhide_er ?_
    | with_reducible refine State.put_er ?_
    | with_reducible refine State.convCount_er ?_
    | with_reducible refine erase_ite ?_ ?_
    | with_reducible refine erase_of_fst (by assumption) ?_
    | dsimp only
    | split
    | with_reducible refine upd_out_er ?_

theorem State.ctxFreeze_er {m : Nat} {s : State} {u : State} {e : Nat} {c : Nat} (he : erase m u = erase m s) (hw : within 4097 m = true := by decide) :
    erase m (State.ctxFreeze u e c) = erase m s := by
  refine (erase_mono (m := 4097) hw ?_).trans he
  unfold State.ctxFreeze
  repeat' first
    | with_reducible rfl
    | with_reducible assumption
    | with_reducible refine State.setCtx_er ?_
    | with_reducible refine State.put_er ?_
    | with_reducible refine erase_ite ?_ ?_
    | dsimp only
    | split

theorem State.convFrame_er {m : Nat} {s : State} {u : State} {e : Nat} {c : Nat} {f : ConvFrame} (he : erase m u = erase m s) (hw : within 25171473 m = true := by decide) :
    erase m (State.convFrame u e c f) = erase m s := by
  refine (erase_mono (m := 25171473) hw ?_).trans he
  unfold State.convFrame
  repeat' first
    | with_reducible rfl
    | with_reducible assumption
    | with_reducible refine State.ctxFreeze_er ?_
    | with_reducible refine State.convRepeat_er ?_
    | with_reducible refine State.put_er ?_
    | with_reducible refine State.convBuild_er ?_
    | with_reducible refine State.setCtx_er ?_
    | with_reducible refine State.cvCause_er ?_
    | with_reducible refine State.latencyChange_er ?_
    | with_reducible refine erase_ite ?_ ?_
    | with_reducible refine erase_foldl ?_ (fun _ _ => ?_)
    | with_reducible refine erase_foldl_fst ?_ (fun _ _ => ?_)
    | with_reducible refine erase_of_fst (by assumption) ?_
    | dsimp only
    | split

theorem State.cadenceLocked_er {m : Nat} {s : State} {u : State} {e : Nat} {c : Nat} {id : Nat} {r : Bool} {code : Nat} {pat : List Bool} (he : erase m u = erase m s) (hw : within 4113 m = true := by decide) :
    erase m (State.cadenceLocked u e c id r code pat) = erase m s := by
  refine (erase_mono (m := 4113) hw ?_).trans he
  unfold State.cadenceLocked
  repeat' first
    | with_reducible rfl
    | with_reducible assumption
    | with_reducible refine State.setCtx_er ?_
    | with_reducible refine State.put_er ?_
    | with_reducible refine State.cvCause_er ?_
    | with_reducible refine erase_ite ?_ ?_
    | with_reducible refine erase_foldl ?_ (fun _ _ => ?_)
    | with_reducible refine erase_foldl_fst ?_ (fun _ _ => ?_)
    | dsimp only
    | split

theorem State.cadenceSeek_er {m : Nat} {s : State} {u : State} {e : Nat} {c : Nat} {id : Nat} {r : Bool} {all : List (Nat × List Bool)} (he : erase m u = erase m s) (hw : within 4113 m = true := by decide) :
    erase m (State.cadenceSeek u e c id r all) = erase m s := by
  refine (erase_mono (m := 4113) hw ?_).trans he
  unfold State.cadenceSeek
  repeat' first
    | with_reducible rfl
    | with_reducible assumption
    | with_reducible refine State.setCtx_er ?_
    | with_reducible refine State.put_er ?_
    | with_reducible refine State.cvCause_er ?_
    | with_reducible refine erase_of_fst (by assumption) ?_
    | dsimp only
    | split

end Sys2Proof.Machine
end

