-- ==== Sys2Proof/Laws/FrameSdi.lean ====
section
/-! SUPPORT. Frames of the operations of Machine/Sdi.lean. -/

set_option Elab.async false

namespace Sys2Proof.Machine

theorem State.rxLive_er {m : Nat} {s : State} {u : State} {g : Nat} (he : erase m u = erase m s) (hw : within 1 m = true := by decide) :
    erase m (State.rxLive u g) = erase m s := by
  refine (erase_mono (m := 1) hw ?_).trans he
  unfold State.rxLive
  repeat' first
    | with_reducible rfl
    | with_reducible assumption
    | with_reducible refine State.live_er ?_

theorem State.pipeLine_er {m : Nat} {s : State} {u : State} {g : Nat} {y : Nat} {missing : Bool} {words : List Nat} (he : erase m u = erase m s) (hw : within 512 m = true := by decide) :
    erase m (State.pipeLine u g y missing words) = erase m s := by
  refine (erase_mono (m := 512) hw ?_).trans he
  unfold State.pipeLine
  repeat' first
    | with_reducible rfl
    | with_reducible assumption
    | with_reducible refine State.lineOut_er ?_
    | with_reducible refine erase_ite ?_ ?_
    | dsimp only
    | split

theorem State.pipeStops_er {m : Nat} {s : State} {u : State} {g : Nat} {midLine : Option Nat} (he : erase m u = erase m s) (hw : within 5681 m = true := by decide) :
    erase m (State.pipeStops u g midLine) = erase m s := by
  refine (erase_mono (m := 5681) hw ?_).trans he
  unfold State.pipeStops
  repeat' first
    | with_reducible rfl
    | with_reducible assumption
    | with_reducible refine State.setRx_er ?_
    | with_reducible refine State.raise_er ?_
    | with_reducible refine State.pipeLine_er ?_
    | with_reducible refine State.sourceStops_er ?_
    | with_reducible refine erase_ite ?_ ?_
    | with_reducible refine erase_of_fst (by assumption) ?_
    | dsimp only
    | split

theorem State.linksRefresh_er {m : Nat} {s : State} {u : State} {g : Nat} (he : erase m u = erase m s) (hw : within 1 m = true := by decide) :
    erase m (State.linksRefresh u g) = erase m s := by
  refine (erase_mono (m := 1) hw ?_).trans he
  unfold State.linksRefresh
  repeat' first
    | with_reducible rfl
    | with_reducible assumption
    | with_reducible refine State.put_er ?_
    | with_reducible refine erase_foldl ?_ (fun _ _ => ?_)
    | with_reducible refine erase_foldl_fst ?_ (fun _ _ => ?_)

theorem State.groupLoss_er {m : Nat} {s : State} {u : State} {q : Nat} {midLine : Option Nat} (he : erase m u = erase m s) (hw : within 5809 m = true := by decide) :
    erase m (State.groupLoss u q midLine) = erase m s := by
  refine (erase_mono (m := 5809) hw ?_).trans he
  unfold State.groupLoss
  repeat' first
    | with_reducible rfl
    | with_reducible assumption
    | with_reducible refine State.candsFollow_er ?_
    | with_reducible refine State.setRx_er ?_
    | with_reducible refine State.puts_er ?_
    | with_reducible refine State.raise_er ?_
    | with_reducible refine State.pipeStops_er ?_
    | with_reducible refine State.rxLive_er ?_
    | with_reducible refine erase_ite ?_ ?_
    | dsimp only
    | split

theorem State.rxFall_er {m : Nat} {s : State} {u : State} {g : Nat} {low : Nat} (he : erase m u = erase m s) (hw : within 33 m = true := by decide) :
    erase m (State.rxFall u g low) = erase m s := by
  refine (erase_mono (m := 33) hw ?_).trans he
  unfold State.rxFall
  repeat' first
    | with_reducible rfl
    | with_reducible assumption
    | with_reducible refine State.puts_er ?_
    | with_reducible refine State.setRx_er ?_
    | with_reducible refine State.rxLive_er ?_
    | with_reducible refine erase_ite ?_ ?_
    | dsimp only
    | split

theorem State.rxLoss_er {m : Nat} {s : State} {u : State} {g : Nat} {low : Nat} {midLine : Option Nat} (he : erase m u = erase m s) (hw : within 5809 m = true := by decide) :
    erase m (State.rxLoss u g low midLine) = erase m s := by
  refine (erase_mono (m := 5809) hw ?_).trans he
  unfold State.rxLoss
  repeat' first
    | with_reducible rfl
    | with_reducible assumption
    | with_reducible refine State.raise_er ?_
    | with_reducible refine State.whenB_er ?_ (fun _ => ?_)
    | with_reducible refine State.groupLoss_er ?_
    | with_reducible refine State.rxFall_er ?_
    | with_reducible refine State.linksRefresh_er ?_
    | with_reducible refine State.candsFollow_er ?_
    | with_reducible refine State.pipeStops_er ?_
    | with_reducible refine erase_ite ?_ ?_
    | dsimp only
    | split

theorem State.streamLock_er {m : Nat} {s : State} {u : State} {g : Nat} {w : Word} (he : erase m u = erase m s) (hw : within 49 m = true := by decide) :
    erase m (State.streamLock u g w) = erase m s := by
  refine (erase_mono (m := 49) hw ?_).trans he
  unfold State.streamLock
  repeat' first
    | with_reducible rfl
    | with_reducible assumption
    | with_reducible refine State.wr_er ?_
    | with_reducible refine State.puts_er ?_
    | with_reducible refine State.setRx_er ?_
    | with_reducible refine State.raise_er ?_
    | with_reducible refine State.raiseIf_er ?_
    | with_reducible refine State.rxLive_er ?_
    | with_reducible refine erase_of_fst (by assumption) ?_
    | dsimp only
    | split

theorem State.bondLines_er {m : Nat} {s : State} {u : State} {q : Nat} (he : erase m u = erase m s) (hw : within 544 m = true := by decide) :
    erase m (State.bondLines u q) = erase m s := by
  refine (erase_mono (m := 544) hw ?_).trans he
  unfold State.bondLines
  repeat' first
    | with_reducible rfl
    | with_reducible assumption
    | with_reducible refine State.setRx_er ?_
    | with_reducible refine State.pipeLine_er ?_
    | with_reducible refine erase_ite ?_ ?_
    | with_reducible refine erase_of_fst (by assumption) ?_
    | dsimp only
    | split

theorem State.deembRoll_er {m : Nat} {s : State} {u : State} {g : Nat} (he : erase m u = erase m s) (hw : within 8209 m = true := by decide) :
    erase m (State.deembRoll u g) = erase m s := by
  refine (erase_mono (m := 8209) hw ?_).trans he
  unfold State.deembRoll
  repeat' first
    | with_reducible rfl
    | with_reducible assumption
    | with_reducible refine State.puts_er ?_
    | with_reducible refine State.raiseIf_er ?_
    | with_reducible refine erase_ite ?_ ?_
    | with_reducible refine erase_foldl ?_ (fun _ _ => ?_)
    | with_reducible refine erase_foldl_fst ?_ (fun _ _ => ?_)
    | dsimp only
    | split
    | with_reducible refine upd_aud_er ?_

theorem State.ancOffer_er {m : Nat} {s : State} {u : State} {c : Nat} {l : List AncPkt} (he : erase m u = erase m s) (hw : within 64 m = true := by decide) :
    erase m (State.ancOffer u c l) = erase m s := by
  refine (erase_mono (m := 64) hw ?_).trans he
  unfold State.ancOffer
  repeat' first
    | with_reducible rfl
    | with_reducible assumption
    | with_reducible refine State.setTx_er ?_
    | with_reducible refine erase_ite ?_ ?_
    | with_reducible refine erase_foldl ?_ (fun _ _ => ?_)
    | with_reducible refine erase_foldl_fst ?_ (fun _ _ => ?_)
    | dsimp only
    | split

theorem State.overrideActs_er {m : Nat} {s : State} {u : State} {g : Nat} (he : erase m u = erase m s) (hw : within 1 m = true := by decide) :
    erase m (State.overrideActs u g) = erase m s := by
  refine (erase_mono (m := 1) hw ?_).trans he
  unfold State.overrideActs
  repeat' first
    | with_reducible rfl
    | with_reducible assumption
    | with_reducible refine State.wr_er ?_
    | with_reducible refine erase_ite ?_ ?_
    | dsimp only
    | split

theorem State.frameBoundary_er {m : Nat} {s : State} {u : State} {g : Nat} (he : erase m u = erase m s) (hw : within 8305 m = true := by decide) :
    erase m (State.frameBoundary u g) = erase m s := by
  refine (erase_mono (m := 8305) hw ?_).trans he
  unfold State.frameBoundary
  repeat' first
    | with_reducible rfl
    | with_reducible assumption
    | with_reducible refine State.puts_er ?_
    | with_reducible refine State.deembRoll_er ?_
    | with_reducible refine State.setRx_er ?_
    | with_reducible refine State.ancOffer_er ?_
    | with_reducible refine erase_ite ?_ ?_
    | dsimp only
    | split

theorem State.rxMeasured_er {m : Nat} {s : State} {u : State} {g : Nat} {mz : FrameMeas} (he : erase m u = erase m s) (hw : within 49 m = true := by decide) :
    erase m (State.rxMeasured u g mz) = erase m s := by
  refine (erase_mono (m := 49) hw ?_).trans he
  unfold State.rxMeasured
  repeat' first
    | with_reducible rfl
    | with_reducible assumption
    | with_reducible refine State.puts_er ?_
    | with_reducible refine State.setRx_er ?_
    | with_reducible refine State.raiseIf_er ?_
    | with_reducible refine State.put_er ?_
    | with_reducible refine State.linksRefresh_er ?_
    | with_reducible refine erase_ite ?_ ?_
    | with_reducible refine erase_of_fst (by assumption) ?_
    | dsimp only
    | split

theorem State.rxDetect_er {m : Nat} {s : State} {u : State} {g : Nat} {mz : FrameMeas} (he : erase m u = erase m s) (hw : within 5809 m = true := by decide) :
    erase m (State.rxDetect u g mz) = erase m s := by
  refine (erase_mono (m := 5809) hw ?_).trans he
  unfold State.rxDetect
  repeat' first
    | with_reducible rfl
    | with_reducible assumption
    | with_reducible refine State.setRx_er ?_
    | with_reducible refine State.rxLoss_er ?_
    | with_reducible refine State.put_er ?_
    | with_reducible refine State.raiseIf_er ?_
    | with_reducible refine State.rxLive_er ?_
    | with_reducible refine erase_ite ?_ ?_
    | with_reducible refine erase_of_fst (by assumption) ?_
    | dsimp only
    | split

theorem State.bondFrame_er {m : Nat} {s : State} {u : State} {g : Nat} {skew : Nat} (he : erase m u = erase m s) (hw : within 5809 m = true := by decide) :
    erase m (State.bondFrame u g skew) = erase m s := by
  refine (erase_mono (m := 5809) hw ?_).trans he
  unfold State.bondFrame
  repeat' first
    | with_reducible rfl
    | with_reducible assumption
    | with_reducible refine State.put_er ?_
    | with_reducible refine State.setRx_er ?_
    | with_reducible refine State.raise_er ?_
    | with_reducible refine State.groupLoss_er ?_
    | with_reducible refine erase_ite ?_ ?_
    | dsimp only
    | split

theorem State.rxErrors_er {m : Nat} {s : State} {u : State} {g : Nat} {l : RxLine} (he : erase m u = erase m s) (hw : within 49 m = true := by decide) :
    erase m (State.rxErrors u g l) = erase m s := by
  refine (erase_mono (m := 49) hw ?_).trans he
  unfold State.rxErrors
  repeat' first
    | with_reducible rfl
    | with_reducible assumption
    | with_reducible refine State.bump_er ?_
    | with_reducible refine State.raise_er ?_
    | with_reducible refine State.setRx_er ?_
    | with_reducible refine erase_ite ?_ ?_
    | dsimp only
    | split

theorem State.rxPicture_er {m : Nat} {s : State} {u : State} {g : Nat} {l : RxLine} {y : Nat} (he : erase m u = erase m s) (hw : within 561 m = true := by decide) :
    erase m (State.rxPicture u g l y) = erase m s := by
  refine (erase_mono (m := 561) hw ?_).trans he
  unfold State.rxPicture
  repeat' first
    | with_reducible rfl
    | with_reducible assumption
    | with_reducible refine State.setRx_er ?_
    | with_reducible refine State.raiseIf_er ?_
    | with_reducible refine State.bondLines_er ?_
    | with_reducible refine State.pipeLine_er ?_
    | with_reducible refine erase_ite ?_ ?_
    | dsimp only
    | split

theorem State.ancQueue_er {m : Nat} {s : State} {u : State} {g : Nat} {p : AncPkt} (he : erase m u = erase m s) (hw : within 49 m = true := by decide) :
    erase m (State.ancQueue u g p) = erase m s := by
  refine (erase_mono (m := 49) hw ?_).trans he
  unfold State.ancQueue
  repeat' first
    | with_reducible rfl
    | with_reducible assumption
    | with_reducible refine State.setRx_er ?_
    | with_reducible refine State.raise_er ?_
    | with_reducible refine erase_ite ?_ ?_
    | dsimp only
    | split

end Sys2Proof.Machine
end

