-- ==== Sys2Proof/Laws/FrameAudio.lean ====
section
/-! SUPPORT. Frames of the operations of Machine/Audio.lean. -/

set_option Elab.async false

namespace Sys2Proof.Machine

theorem State.modAud_er {m : Nat} {s : State} {u : State} {f : Aud → Aud} (he : erase m u = erase m s) (hw : within 8192 m = true := by decide) :
    erase m (State.modAud u f) = erase m s := by
  refine (erase_mono (m := 8192) hw ?_).trans he
  unfold State.modAud
  repeat' first
    | with_reducible rfl
    | with_reducible assumption
    | with_reducible refine upd_aud_er ?_

theorem State.audEvent_er {m : Nat} {s : State} {u : State} {i : Nat} {bit : Nat} (he : erase m u = erase m s) (hw : within 17 m = true := by decide) :
    erase m (State.audEvent u i bit) = erase m s := by
  refine (erase_mono (m := 17) hw ?_).trans he
  unfold State.audEvent
  repeat' first
    | with_reducible rfl
    | with_reducible assumption
    | with_reducible refine State.raise_er ?_
    | with_reducible refine State.puts_er ?_

theorem State.setDest_er {m : Nat} {s : State} {u : State} {d : Nat} {x : DestSt} (he : erase m u = erase m s) (hw : within 8192 m = true := by decide) :
    erase m (State.setDest u d x) = erase m s := by
  refine (erase_mono (m := 8192) hw ?_).trans he
  unfold State.setDest
  repeat' first
    | with_reducible rfl
    | with_reducible assumption
    | with_reducible refine State.modAud_er ?_

theorem State.fadeTo_er {m : Nat} {s : State} {u : State} {d : Nat} {taps : List Tap} {hard : Bool} (he : erase m u = erase m s) (hw : within 8192 m = true := by decide) :
    erase m (State.fadeTo u d taps hard) = erase m s := by
  refine (erase_mono (m := 8192) hw ?_).trans he
  unfold State.fadeTo
  repeat' first
    | with_reducible rfl
    | with_reducible assumption
    | with_reducible refine State.setDest_er ?_
    | with_reducible refine erase_ite ?_ ?_
    | dsimp only
    | split

theorem State.setActx_er {m : Nat} {s : State} {u : State} {n : Nat} {x : ACtx} (he : erase m u = erase m s) (hw : within 8192 m = true := by decide) :
    erase m (State.setActx u n x) = erase m s := by
  refine (erase_mono (m := 8192) hw ?_).trans he
  unfold State.setActx
  repeat' first
    | with_reducible rfl
    | with_reducible assumption
    | with_reducible refine State.modAud_er ?_

theorem State.audCounts_er {m : Nat} {s : State} {u : State} (he : erase m u = erase m s) (hw : within 1 m = true := by decide) :
    erase m (State.audCounts u) = erase m s := by
  refine (erase_mono (m := 1) hw ?_).trans he
  unfold State.audCounts
  repeat' first
    | with_reducible rfl
    | with_reducible assumption
    | with_reducible refine State.put_er ?_

theorem State.rqRefresh_er {m : Nat} {s : State} {u : State} (he : erase m u = erase m s) (hw : within 1 m = true := by decide) :
    erase m (State.rqRefresh u) = erase m s := by
  refine (erase_mono (m := 1) hw ?_).trans he
  unfold State.rqRefresh
  repeat' first
    | with_reducible rfl
    | with_reducible assumption
    | with_reducible refine State.puts_er ?_
    | with_reducible refine erase_ite ?_ ?_
    | with_reducible refine erase_of_fst (by assumption) ?_
    | dsimp only
    | split

theorem State.holdLive_er {m : Nat} {s : State} {u : State} (he : erase m u = erase m s) (hw : within 1 m = true := by decide) :
    erase m (State.holdLive u) = erase m s := by
  refine (erase_mono (m := 1) hw ?_).trans he
  unfold State.holdLive
  repeat' first
    | with_reducible rfl
    | with_reducible assumption
    | with_reducible refine State.live_er ?_

theorem State.autoUpdate_er {m : Nat} {s : State} {u : State} {n : Nat} {tick : Bool} (he : erase m u = erase m s) (hw : within 8209 m = true := by decide) :
    erase m (State.autoUpdate u n tick) = erase m s := by
  refine (erase_mono (m := 8209) hw ?_).trans he
  unfold State.autoUpdate
  repeat' first
    | with_reducible rfl
    | with_reducible assumption
    | with_reducible refine State.setActx_er ?_
    | with_reducible refine State.audEvent_er ?_
    | with_reducible refine State.holdLive_er ?_
    | with_reducible refine erase_ite ?_ ?_
    | with_reducible refine erase_of_fst (by assumption) ?_
    | dsimp only
    | split

theorem State.ctxSwitch_er {m : Nat} {s : State} {u : State} {n : Nat} (he : erase m u = erase m s) (hw : within 8209 m = true := by decide) :
    erase m (State.ctxSwitch u n) = erase m s := by
  refine (erase_mono (m := 8209) hw ?_).trans he
  unfold State.ctxSwitch
  repeat' first
    | with_reducible rfl
    | with_reducible assumption
    | with_reducible refine State.setActx_er ?_
    | with_reducible refine State.audEvent_er ?_
    | with_reducible refine State.autoUpdate_er ?_
    | with_reducible refine erase_ite ?_ ?_
    | dsimp only
    | split

theorem State.switchDest_er {m : Nat} {s : State} {u : State} {d : Nat} (he : erase m u = erase m s) (hw : within 8209 m = true := by decide) :
    erase m (State.switchDest u d) = erase m s := by
  refine (erase_mono (m := 8209) hw ?_).trans he
  unfold State.switchDest
  repeat' first
    | with_reducible rfl
    | with_reducible assumption
    | with_reducible refine State.ctxSwitch_er ?_
    | with_reducible refine State.fadeTo_er ?_
    | with_reducible refine State.put_er ?_
    | with_reducible refine erase_foldl ?_ (fun _ _ => ?_)
    | with_reducible refine erase_foldl_fst ?_ (fun _ _ => ?_)

theorem State.refade_er {m : Nat} {s : State} {u : State} {f : Tap → Tap} (he : erase m u = erase m s) (hw : within 8192 m = true := by decide) :
    erase m (State.refade u f) = erase m s := by
  refine (erase_mono (m := 8192) hw ?_).trans he
  unfold State.refade
  repeat' first
    | with_reducible rfl
    | with_reducible assumption
    | with_reducible refine State.fadeTo_er ?_
    | with_reducible refine erase_foldl ?_ (fun _ _ => ?_)
    | with_reducible refine erase_foldl_fst ?_ (fun _ _ => ?_)

theorem State.asrcLive_er {m : Nat} {s : State} {u : State} (he : erase m u = erase m s) (hw : within 1 m = true := by decide) :
    erase m (State.asrcLive u) = erase m s := by
  refine (erase_mono (m := 1) hw ?_).trans he
  unfold State.asrcLive
  repeat' first
    | with_reducible rfl
    | with_reducible assumption
    | with_reducible refine State.live_er ?_

theorem State.asrcSet_er {m : Nat} {s : State} {u : State} {k : Nat} {st : Nat} {ppb : Option Int} (he : erase m u = erase m s) (hw : within 8209 m = true := by decide) :
    erase m (State.asrcSet u k st ppb) = erase m s := by
  refine (erase_mono (m := 8209) hw ?_).trans he
  unfold State.asrcSet
  repeat' first
    | with_reducible rfl
    | with_reducible assumption
    | with_reducible refine State.put_er ?_
    | with_reducible refine State.refade_er ?_
    | with_reducible refine State.audEvent_er ?_
    | with_reducible refine State.asrcLive_er ?_
    | with_reducible refine erase_ite ?_ ?_
    | with_reducible refine erase_of_fst (by assumption) ?_
    | dsimp only
    | split

theorem State.asrcSettle_er {m : Nat} {s : State} {u : State} (he : erase m u = erase m s) (hw : within 8209 m = true := by decide) :
    erase m (State.asrcSettle u) = erase m s := by
  refine (erase_mono (m := 8209) hw ?_).trans he
  unfold State.asrcSettle
  repeat' first
    | with_reducible rfl
    | with_reducible assumption
    | with_reducible refine State.modAud_er ?_
    | with_reducible refine State.asrcSet_er ?_
    | with_reducible refine State.put_er ?_
    | with_reducible refine State.asrcLive_er ?_
    | with_reducible refine erase_ite ?_ ?_
    | with_reducible refine erase_foldl ?_ (fun _ _ => ?_)
    | with_reducible refine erase_foldl_fst ?_ (fun _ _ => ?_)
    | dsimp only
    | split

theorem State.audIntake_er {m : Nat} {s : State} {u : State} {slips : List (Nat × Bool)} (he : erase m u = erase m s) (hw : within 8209 m = true := by decide) :
    erase m (State.audIntake u slips) = erase m s := by
  refine (erase_mono (m := 8209) hw ?_).trans he
  unfold State.audIntake
  repeat' first
    | with_reducible rfl
    | with_reducible assumption
    | with_reducible refine State.modAud_er ?_
    | with_reducible refine State.raise_er ?_
    | with_reducible refine erase_ite ?_ ?_
    | with_reducible refine erase_foldl ?_ (fun _ _ => ?_)
    | with_reducible refine erase_foldl_fst ?_ (fun _ _ => ?_)
    | with_reducible refine erase_of_fst (by assumption) ?_
    | dsimp only
    | split

theorem State.audGaps_er {m : Nat} {s : State} {u : State} {poisoned : List Nat} (he : erase m u = erase m s) (hw : within 8192 m = true := by decide) :
    erase m (State.audGaps u poisoned) = erase m s := by
  refine (erase_mono (m := 8192) hw ?_).trans he
  unfold State.audGaps
  repeat' first
    | with_reducible rfl
    | with_reducible assumption
    | with_reducible refine State.refade_er ?_

theorem State.ctxLost_er {m : Nat} {s : State} {u : State} {n : Nat} (he : erase m u = erase m s) (hw : within 8209 m = true := by decide) :
    erase m (State.ctxLost u n) = erase m s := by
  refine (erase_mono (m := 8209) hw ?_).trans he
  unfold State.ctxLost
  repeat' first
    | with_reducible rfl
    | with_reducible assumption
    | with_reducible refine State.modAud_er ?_
    | with_reducible refine State.setFault_er ?_
    | with_reducible refine State.audEvent_er ?_
    | with_reducible refine State.fadeTo_er ?_
    | with_reducible refine erase_foldl ?_ (fun _ _ => ?_)
    | with_reducible refine erase_foldl_fst ?_ (fun _ _ => ?_)

theorem State.audReady_er {m : Nat} {s : State} {u : State} {d : Nat} {v : Int × Option Nat} (he : erase m u = erase m s) (hw : within 8192 m = true := by decide) :
    erase m (State.audReady u d v) = erase m s := by
  refine (erase_mono (m := 8192) hw ?_).trans he
  unfold State.audReady
  repeat' first
    | with_reducible rfl
    | with_reducible assumption
    | with_reducible refine State.modAud_er ?_
    | with_reducible refine erase_ite ?_ ?_
    | dsimp only
    | split

theorem State.destTick_er {m : Nat} {s : State} {u : State} {d : Nat} (he : erase m u = erase m s) (hw : within 8209 m = true := by decide) :
    erase m (State.destTick u d) = erase m s := by
  refine (erase_mono (m := 8209) hw ?_).trans he
  unfold State.destTick
  repeat' first
    | with_reducible rfl
    | with_reducible assumption
    | with_reducible refine State.setDest_er ?_
    | with_reducible refine State.audReady_er ?_
    | with_reducible refine State.put_er ?_
    | with_reducible refine State.audEvent_er ?_
    | with_reducible refine State.live_er ?_
    | with_reducible refine erase_ite ?_ ?_
    | dsimp only
    | split

theorem State.embZero_er {m : Nat} {s : State} {u : State} {g : Nat} (he : erase m u = erase m s) (hw : within 8192 m = true := by decide) :
    erase m (State.embZero u g) = erase m s := by
  refine (erase_mono (m := 8192) hw ?_).trans he
  unfold State.embZero
  repeat' first
    | with_reducible rfl
    | with_reducible assumption
    | with_reducible refine State.audReady_er ?_
    | with_reducible refine erase_ite ?_ ?_
    | with_reducible refine erase_foldl ?_ (fun _ _ => ?_)
    | with_reducible refine erase_foldl_fst ?_ (fun _ _ => ?_)
    | dsimp only
    | split

theorem State.clipRoll_er {m : Nat} {s : State} {u : State} {d : Nat} (he : erase m u = erase m s) (hw : within 8193 m = true := by decide) :
    erase m (State.clipRoll u d) = erase m s := by
  refine (erase_mono (m := 8193) hw ?_).trans he
  unfold State.clipRoll
  repeat' first
    | with_reducible rfl
    | with_reducible assumption
    | with_reducible refine State.put_er ?_
    | with_reducible refine State.setDest_er ?_
    | with_reducible refine State.live_er ?_

theorem State.setDeemb_er {m : Nat} {s : State} {u : State} {g : Nat} {d : Deemb} (he : erase m u = erase m s) (hw : within 8192 m = true := by decide) :
    erase m (State.setDeemb u g d) = erase m s := by
  refine (erase_mono (m := 8192) hw ?_).trans he
  unfold State.setDeemb
  repeat' first
    | with_reducible rfl
    | with_reducible assumption
    | with_reducible refine State.modAud_er ?_

theorem State.audQueue_er {m : Nat} {s : State} {u : State} {c : Nat} {l : List (AudSmp × Bool)} (he : erase m u = erase m s) (hw : within 8192 m = true := by decide) :
    erase m (State.audQueue u c l) = erase m s := by
  refine (erase_mono (m := 8192) hw ?_).trans he
  unfold State.audQueue
  repeat' first
    | with_reducible rfl
    | with_reducible assumption
    | with_reducible refine State.modAud_er ?_

theorem State.audChannels_er {m : Nat} {s : State} {u : State} {base : Nat} {r96 : Bool} {odd : Bool} {l : List (AudSmp × Bool)} (he : erase m u = erase m s) (hw : within 8192 m = true := by decide) :
    erase m (State.audChannels u base r96 odd l) = erase m s := by
  refine (erase_mono (m := 8192) hw ?_).trans he
  unfold State.audChannels
  repeat' first
    | with_reducible rfl
    | with_reducible assumption
    | with_reducible refine State.audQueue_er ?_
    | with_reducible refine erase_ite ?_ ?_
    | with_reducible refine erase_foldl ?_ (fun _ _ => ?_)
    | with_reducible refine erase_foldl_fst ?_ (fun _ _ => ?_)
    | with_reducible refine erase_of_fst (by assumption) ?_
    | dsimp only
    | split

end Sys2Proof.Machine
end

