-- ==== Sys2Proof/Laws/FrameFlash.lean ====
section
/-! SUPPORT. Frames of the operations of Machine/Flash.lean. -/

set_option Elab.async false

namespace Sys2Proof.Machine

theorem State.modNv_er {m : Nat} {s : State} {u : State} {f : Nv → Nv} (he : erase m u = erase m s) (hw : within 262144 m = true := by decide) :
    erase m (State.modNv u f) = erase m s := by
  refine (erase_mono (m := 262144) hw ?_).trans he
  unfold State.modNv
  repeat' first
    | with_reducible rfl
    | with_reducible assumption
    | with_reducible refine upd_nv_er ?_

theorem State.prog_er {m : Nat} {s : State} {u : State} {a : Nat} {l : List Byte} (he : erase m u = erase m s) (hw : within 262144 m = true := by decide) :
    erase m (State.prog u a l) = erase m s := by
  refine (erase_mono (m := 262144) hw ?_).trans he
  unfold State.prog
  repeat' first
    | with_reducible rfl
    | with_reducible assumption
    | with_reducible refine State.modNv_er ?_

theorem State.progWord_er {m : Nat} {s : State} {u : State} {a : Nat} {v : Nat} (he : erase m u = erase m s) (hw : within 262144 m = true := by decide) :
    erase m (State.progWord u a v) = erase m s := by
  refine (erase_mono (m := 262144) hw ?_).trans he
  unfold State.progWord
  repeat' first
    | with_reducible rfl
    | with_reducible assumption
    | with_reducible refine State.prog_er ?_

theorem State.eraseRaw_er {m : Nat} {s : State} {u : State} {sec : Nat} (he : erase m u = erase m s) (hw : within 262144 m = true := by decide) :
    erase m (State.eraseRaw u sec) = erase m s := by
  refine (erase_mono (m := 262144) hw ?_).trans he
  unfold State.eraseRaw
  repeat' first
    | with_reducible rfl
    | with_reducible assumption
    | with_reducible refine State.modNv_er ?_

theorem State.setSecState_er {m : Nat} {s : State} {u : State} {sec : Nat} {v : Nat} (he : erase m u = erase m s) (hw : within 262144 m = true := by decide) :
    erase m (State.setSecState u sec v) = erase m s := by
  refine (erase_mono (m := 262144) hw ?_).trans he
  unfold State.setSecState
  repeat' first
    | with_reducible rfl
    | with_reducible assumption
    | with_reducible refine State.progWord_er ?_

theorem State.eraseRec_er {m : Nat} {s : State} {u : State} {sec : Nat} (he : erase m u = erase m s) (hw : within 262145 m = true := by decide) :
    erase m (State.eraseRec u sec) = erase m s := by
  refine (erase_mono (m := 262145) hw ?_).trans he
  unfold State.eraseRec
  repeat' first
    | with_reducible rfl
    | with_reducible assumption
    | with_reducible refine State.eraseRaw_er ?_
    | with_reducible refine State.prog_er ?_
    | with_reducible refine State.put_er ?_

theorem State.retire_er {m : Nat} {s : State} {u : State} {r : FRec} (he : erase m u = erase m s) (hw : within 262144 m = true := by decide) :
    erase m (State.retire u r) = erase m s := by
  refine (erase_mono (m := 262144) hw ?_).trans he
  unfold State.retire
  repeat' first
    | with_reducible rfl
    | with_reducible assumption
    | with_reducible refine State.prog_er ?_

theorem State.nvRefresh_er {m : Nat} {s : State} {u : State} (he : erase m u = erase m s) (hw : within 17 m = true := by decide) :
    erase m (State.nvRefresh u) = erase m s := by
  refine (erase_mono (m := 17) hw ?_).trans he
  unfold State.nvRefresh
  repeat' first
    | with_reducible rfl
    | with_reducible assumption
    | with_reducible refine State.puts_er ?_
    | with_reducible refine State.raiseIf_er ?_
    | with_reducible refine State.live_er ?_
    | with_reducible refine erase_of_fst (by assumption) ?_
    | dsimp only
    | split

theorem State.openSector_er {m : Nat} {s u t : State}  (h : State.openSector u  = some t) (he : erase m u = erase m s) (hw : within 262145 m = true := by decide) :
    erase m t = erase m s := by
  refine (erase_mono (m := 262145) hw ?_).trans he
  clear he hw
  unfold State.openSector at h
  dsimp only at h
  split at h
  · cases h
  · simp only [Option.some.injEq] at h
    subst h
    refine State.modNv_er (State.setSecState_er (State.progWord_er ?_))
    split
    · exact State.modNv_er (State.eraseRec_er rfl)
    · rfl

theorem State.closeSector_er {m : Nat} {s : State} {u : State} (he : erase m u = erase m s) (hw : within 262144 m = true := by decide) :
    erase m (State.closeSector u) = erase m s := by
  refine (erase_mono (m := 262144) hw ?_).trans he
  unfold State.closeSector
  repeat' first
    | with_reducible rfl
    | with_reducible assumption
    | with_reducible refine State.setSecState_er ?_
    | with_reducible refine State.modNv_er ?_
    | with_reducible refine erase_of_fst (by assumption) ?_
    | dsimp only
    | split

theorem State.roomFor_er {m : Nat} {s u t : State} {l : List GRec} (h : State.roomFor u l = some t) (he : erase m u = erase m s) (hw : within 262145 m = true := by decide) :
    erase m t = erase m s := by
  refine (erase_mono (m := 262145) hw ?_).trans he
  clear he hw
  unfold State.roomFor at h
  split at h
  · split at h
    · simp only [Option.some.injEq] at h
      subst h
      rfl
    · exact State.openSector_er h (State.closeSector_er rfl)
  · exact State.openSector_er h rfl

theorem State.writeCommit_er {m : Nat} {s : State} {u : State} {l : List GRec} (he : erase m u = erase m s) (hw : within 262145 m = true := by decide) :
    erase m (State.writeCommit u l) = erase m s := by
  refine (erase_mono (m := 262145) hw ?_).trans he
  unfold State.writeCommit
  repeat' first
    | with_reducible rfl
    | with_reducible assumption
    | with_reducible refine State.prog_er ?_
    | with_reducible refine State.modNv_er ?_
    | with_reducible refine State.put_er ?_
    | with_reducible refine State.setSecState_er ?_
    | with_reducible refine State.retire_er ?_
    | with_reducible refine erase_ite ?_ ?_
    | with_reducible refine erase_foldl ?_ (fun _ _ => ?_)
    | with_reducible refine erase_foldl_fst ?_ (fun _ _ => ?_)
    | dsimp only
    | split

theorem State.ownCommits_er {m n : Nat} {s u t : State} {l r : List GRec} (h : State.ownCommits n u l r = some t) (he : erase m u = erase m s) (hw : within 262145 m = true := by decide) :
    erase m t = erase m s := by
  refine (erase_mono (m := 262145) hw ?_).trans he
  clear he hw
  induction n generalizing u l r with
  | zero => simp only [State.ownCommits, Option.some.injEq] at h; subst h; rfl
  | succ n ih =>
    cases r with
    | nil =>
      simp only [State.ownCommits] at h
      split at h
      · simp only [Option.some.injEq] at h; subst h; rfl
      · obtain ⟨v, hv, rfl⟩ := Option.map_eq_some_iff.1 h
        exact State.writeCommit_er (State.roomFor_er hv rfl)
    | cons g r =>
      simp only [State.ownCommits] at h
      split at h
      · exact ih h
      · split at h
        · cases h
        · rename_i v hv
          exact (ih h).trans (State.writeCommit_er (State.roomFor_er hv rfl))

theorem State.compactSec_er {m : Nat} {s : State} {u : State} {sec : Nat} (he : erase m u = erase m s) (hw : within 262145 m = true := by decide) :
    erase m (State.compactSec u sec) = erase m s := by
  refine (erase_mono (m := 262145) hw ?_).trans he
  unfold State.compactSec
  repeat' first
    | with_reducible rfl
    | with_reducible assumption
    | with_reducible refine State.ownCommits_er (by assumption) ?_
    | with_reducible refine State.closeSector_er ?_
    | with_reducible refine State.setSecState_er ?_
    | with_reducible refine State.eraseRec_er ?_
    | with_reducible refine erase_ite ?_ ?_
    | with_reducible refine erase_of_fst (by assumption) ?_
    | dsimp only
    | split

theorem State.compact_er {m : Nat} {s : State} {u : State} (he : erase m u = erase m s) (hw : within 262145 m = true := by decide) :
    erase m (State.compact u) = erase m s := by
  refine (erase_mono (m := 262145) hw ?_).trans he
  unfold State.compact
  repeat' first
    | with_reducible rfl
    | with_reducible assumption
    | with_reducible refine State.compactSec_er ?_
    | with_reducible refine erase_ite ?_ ?_
    | with_reducible refine erase_foldl ?_ (fun _ _ => ?_)
    | with_reducible refine erase_foldl_fst ?_ (fun _ _ => ?_)
    | with_reducible refine erase_of_fst (by assumption) ?_
    | dsimp only
    | split

theorem State.commitRecs_er {m : Nat} {s : State} {u : State} {l : List GRec} (he : erase m u = erase m s) (hw : within 262161 m = true := by decide) :
    erase m (State.commitRecs u l) = erase m s := by
  refine (erase_mono (m := 262161) hw ?_).trans he
  unfold State.commitRecs
  repeat' first
    | with_reducible rfl
    | with_reducible assumption
    | with_reducible refine State.compact_er ?_
    | with_reducible refine State.roomFor_er (by assumption) ?_
    | with_reducible refine State.writeCommit_er ?_
    | with_reducible refine State.nvRefresh_er ?_
    | with_reducible refine erase_ite ?_ ?_
    | with_reducible refine erase_of_fst (by assumption) ?_
    | dsimp only
    | split

theorem State.recRes_er {m : Nat} {s : State} {u : State} {code : Nat} (he : erase m u = erase m s) (hw : within 17 m = true := by decide) :
    erase m (State.recRes u code) = erase m s := by
  refine (erase_mono (m := 17) hw ?_).trans he
  unfold State.recRes
  repeat' first
    | with_reducible rfl
    | with_reducible assumption
    | with_reducible refine State.puts_er ?_
    | with_reducible refine State.nvRefresh_er ?_

theorem State.recCommand_er {m : Nat} {s u : State} {n op : Nat} {x : Word} {f : State → State} (e : erase m u = erase m s)
    (hf : ∀ v, erase m (f v) = erase m v) (hw : within 262161 m = true := by decide) : erase m (State.recCommand u n op x f) = erase m s := by
  unfold State.recCommand
  repeat' first
    | with_reducible refine (hf ..).trans ?_
    | with_reducible rfl
    | with_reducible assumption
    | with_reducible refine State.puts_er ?_ (within_trans (by decide) hw)
    | with_reducible refine State.modNv_er ?_ (within_trans (by decide) hw)
    | with_reducible refine State.recRes_er ?_ (within_trans (by decide) hw)
    | with_reducible refine erase_ite ?_ ?_
    | with_reducible refine erase_of_fst (by assumption) ?_
    | dsimp only
    | split

theorem State.gatherAdd_er {m : Nat} {s : State} {u : State} {mz : Nat} {key : Nat} {crit : Bool} {tomb : Bool} {data : List Byte} (he : erase m u = erase m s) (hw : within 262161 m = true := by decide) :
    erase m (State.gatherAdd u mz key crit tomb data) = erase m s := by
  refine (erase_mono (m := 262161) hw ?_).trans he
  unfold State.gatherAdd
  repeat' first
    | with_reducible rfl
    | with_reducible assumption
    | with_reducible refine State.recRes_er ?_
    | with_reducible refine State.modNv_er ?_
    | with_reducible refine State.put_er ?_
    | with_reducible refine erase_ite ?_ ?_
    | with_reducible refine erase_foldl ?_ (fun _ _ => ?_)
    | with_reducible refine erase_foldl_fst ?_ (fun _ _ => ?_)
    | with_reducible refine erase_of_fst (by assumption) ?_
    | dsimp only
    | split

theorem State.resolveKey_er {m : Nat} {s : State} {u : State} {key : Nat} (he : erase m u = erase m s) (hw : within 262161 m = true := by decide) :
    erase m (State.resolveKey u key).1 = erase m s := by
  refine (erase_mono (m := 262161) hw ?_).trans he
  unfold State.resolveKey
  repeat' first
    | with_reducible rfl
    | with_reducible assumption
    | with_reducible refine State.raiseIf_er ?_
    | with_reducible refine State.retire_er ?_
    | with_reducible refine State.raise_er ?_
    | with_reducible refine State.commitRecs_er ?_
    | with_reducible refine erase_ite ?_ ?_
    | with_reducible refine erase_foldl ?_ (fun _ _ => ?_)
    | with_reducible refine erase_foldl_fst ?_ (fun _ _ => ?_)
    | with_reducible refine erase_ite_fst ?_ ?_
    | with_reducible refine erase_of_fst (by assumption) ?_
    | dsimp only
    | split

theorem State.cntRefresh_er {m : Nat} {s : State} {u : State} (he : erase m u = erase m s) (hw : within 1 m = true := by decide) :
    erase m (State.cntRefresh u) = erase m s := by
  refine (erase_mono (m := 1) hw ?_).trans he
  unfold State.cntRefresh
  repeat' first
    | with_reducible rfl
    | with_reducible assumption
    | with_reducible refine State.forAll_er ?_ (fun _ _ => ?_)
    | with_reducible refine State.wr_er ?_
    | with_reducible refine State.put_er ?_
    | with_reducible refine State.live_er ?_
    | with_reducible refine erase_foldl ?_ (fun _ _ => ?_)
    | with_reducible refine erase_foldl_fst ?_ (fun _ _ => ?_)

theorem State.makeActive_er {m : Nat} {s : State} {u : State} {k : Nat} {fold : Nat} {base : Nat → Nat} (he : erase m u = erase m s) (hw : within 262144 m = true := by decide) :
    erase m (State.makeActive u k fold base) = erase m s := by
  refine (erase_mono (m := 262144) hw ?_).trans he
  unfold State.makeActive
  repeat' first
    | with_reducible rfl
    | with_reducible assumption
    | with_reducible refine State.progWord_er ?_
    | with_reducible refine State.forAll_er ?_ (fun _ _ => ?_)
    | with_reducible refine State.modNv_er ?_

theorem State.fold_er {m : Nat} {s : State} {u : State} (he : erase m u = erase m s) (hw : within 262144 m = true := by decide) :
    erase m (State.fold u) = erase m s := by
  refine (erase_mono (m := 262144) hw ?_).trans he
  unfold State.fold
  repeat' first
    | with_reducible rfl
    | with_reducible assumption
    | with_reducible refine State.eraseRaw_er ?_
    | with_reducible refine State.modNv_er ?_
    | with_reducible refine State.makeActive_er ?_
    | with_reducible refine State.progWord_er ?_
    | with_reducible refine erase_of_fst (by assumption) ?_
    | dsimp only
    | split

theorem State.cntStep_er {m : Nat} {s : State} {u : State} {i : Nat} (he : erase m u = erase m s) (hw : within 262145 m = true := by decide) :
    erase m (State.cntStep u i) = erase m s := by
  refine (erase_mono (m := 262145) hw ?_).trans he
  unfold State.cntStep
  repeat' first
    | with_reducible rfl
    | with_reducible assumption
    | with_reducible refine State.fold_er ?_
    | with_reducible refine State.progWord_er ?_
    | with_reducible refine State.cntRefresh_er ?_
    | with_reducible refine erase_ite ?_ ?_
    | with_reducible refine erase_of_fst (by assumption) ?_
    | dsimp only
    | split

theorem State.rawRes_er {m : Nat} {s : State} {u : State} {code : Nat} (he : erase m u = erase m s) (hw : within 17 m = true := by decide) :
    erase m (State.rawRes u code) = erase m s := by
  refine (erase_mono (m := 17) hw ?_).trans he
  unfold State.rawRes
  repeat' first
    | with_reducible rfl
    | with_reducible assumption
    | with_reducible refine State.puts_er ?_
    | with_reducible refine State.nvRefresh_er ?_

theorem State.rawCommand_er {m : Nat} {s u : State} {n op : Nat} {x : Word} {owned : Bool} {f : State → Nat → State} (e : erase m u = erase m s)
    (hf : ∀ v p, erase m (f v p) = erase m v) (hw : within 262161 m = true := by decide) : erase m (State.rawCommand u n op x owned f) = erase m s := by
  unfold State.rawCommand
  repeat' first
    | with_reducible refine (hf ..).trans ?_
    | with_reducible rfl
    | with_reducible assumption
    | with_reducible refine State.puts_er ?_ (within_trans (by decide) hw)
    | with_reducible refine State.modNv_er ?_ (within_trans (by decide) hw)
    | with_reducible refine State.rawRes_er ?_ (within_trans (by decide) hw)
    | with_reducible refine State.raise_er ?_ (within_trans (by decide) hw)
    | with_reducible refine erase_ite ?_ ?_
    | with_reducible refine erase_of_fst (by assumption) ?_
    | dsimp only
    | split

theorem State.weakItem_er {m : Nat} {s : State} {u : State} {x0 : Weak} (he : erase m u = erase m s) (hw : within 262161 m = true := by decide) :
    erase m (State.weakItem u x0) = erase m s := by
  refine (erase_mono (m := 262161) hw ?_).trans he
  unfold State.weakItem
  repeat' first
    | with_reducible rfl
    | with_reducible assumption
    | with_reducible refine State.commitRecs_er ?_
    | with_reducible refine State.retire_er ?_
    | with_reducible refine State.bump_er ?_
    | with_reducible refine State.progWord_er ?_
    | with_reducible refine State.cntRefresh_er ?_
    | with_reducible refine State.fold_er ?_
    | with_reducible refine State.compactSec_er ?_
    | with_reducible refine State.puts_er ?_
    | with_reducible refine erase_ite ?_ ?_
    | with_reducible refine erase_of_fst (by assumption) ?_
    | dsimp only
    | split

theorem State.glean_er {m : Nat} {s : State} {u : State} {weak : List Weak} (he : erase m u = erase m s) (hw : within 262161 m = true := by decide) :
    erase m (State.glean u weak) = erase m s := by
  refine (erase_mono (m := 262161) hw ?_).trans he
  unfold State.glean
  repeat' first
    | with_reducible rfl
    | with_reducible assumption
    | with_reducible refine State.raiseIf_er ?_
    | with_reducible refine State.weakItem_er ?_
    | with_reducible refine State.modNv_er ?_
    | with_reducible refine State.nvRefresh_er ?_
    | with_reducible refine erase_ite ?_ ?_
    | with_reducible refine erase_foldl ?_ (fun _ _ => ?_)
    | with_reducible refine erase_foldl_fst ?_ (fun _ _ => ?_)
    | with_reducible refine erase_of_fst (by assumption) ?_
    | dsimp only
    | split

theorem State.settleCounters_er {m : Nat} {s : State} {u : State} (he : erase m u = erase m s) (hw : within 262161 m = true := by decide) :
    erase m (State.settleCounters u) = erase m s := by
  refine (erase_mono (m := 262161) hw ?_).trans he
  unfold State.settleCounters
  repeat' first
    | with_reducible rfl
    | with_reducible assumption
    | with_reducible refine State.progWord_er ?_
    | with_reducible refine State.modNv_er ?_
    | with_reducible refine State.eraseRaw_er ?_
    | with_reducible refine State.makeActive_er ?_
    | with_reducible refine State.puts_er ?_
    | with_reducible refine State.raise_er ?_
    | with_reducible refine State.cntRefresh_er ?_
    | with_reducible refine erase_ite ?_ ?_
    | with_reducible refine erase_of_fst (by assumption) ?_
    | dsimp only
    | split

theorem State.indexRecords_er {m : Nat} {s : State} {u : State} (he : erase m u = erase m s) (hw : within 262161 m = true := by decide) :
    erase m (State.indexRecords u) = erase m s := by
  refine (erase_mono (m := 262161) hw ?_).trans he
  unfold State.indexRecords
  repeat' first
    | with_reducible rfl
    | with_reducible assumption
    | with_reducible refine State.retire_er ?_
    | with_reducible refine State.resolveKey_er ?_
    | with_reducible refine State.modNv_er ?_
    | with_reducible refine State.puts_er ?_
    | with_reducible refine erase_ite ?_ ?_
    | with_reducible refine erase_foldl ?_ (fun _ _ => ?_)
    | with_reducible refine erase_foldl_fst ?_ (fun _ _ => ?_)
    | with_reducible refine erase_of_fst (by assumption) ?_
    | dsimp only
    | split

theorem State.flashStart_er {m : Nat} {s : State} {u : State} {weak : List Weak} (he : erase m u = erase m s) (hw : within 262161 m = true := by decide) :
    erase m (State.flashStart u weak) = erase m s := by
  refine (erase_mono (m := 262161) hw ?_).trans he
  unfold State.flashStart
  repeat' first
    | with_reducible rfl
    | with_reducible assumption
    | with_reducible refine State.settleCounters_er ?_
    | with_reducible refine State.modNv_er ?_
    | with_reducible refine State.indexRecords_er ?_
    | with_reducible refine State.compact_er ?_
    | with_reducible refine State.put_er ?_
    | with_reducible refine State.puts_er ?_
    | with_reducible refine State.glean_er ?_
    | with_reducible refine erase_ite ?_ ?_
    | dsimp only
    | split

theorem State.inhibitEnd_er {m : Nat} {s : State} {u : State} (he : erase m u = erase m s) (hw : within 262161 m = true := by decide) :
    erase m (State.inhibitEnd u) = erase m s := by
  refine (erase_mono (m := 262161) hw ?_).trans he
  unfold State.inhibitEnd
  repeat' first
    | with_reducible rfl
    | with_reducible assumption
    | with_reducible refine State.put_er ?_
    | with_reducible refine State.live_er ?_
    | with_reducible refine State.settleCounters_er ?_
    | with_reducible refine State.modNv_er ?_
    | with_reducible refine State.glean_er ?_
    | with_reducible refine erase_ite ?_ ?_
    | dsimp only
    | split

end Sys2Proof.Machine
end

