-- ==== Sys2Proof/Laws/FrameMatrix.lean ====
section
/-! SUPPORT. Frames of the operations of Machine/Matrix.lean. -/

set_option Elab.async false

namespace Sys2Proof.Machine

theorem State.modBus_er {m : Nat} {s : State} {u : State} {f : Bus → Bus} (he : erase m u = erase m s) (hw : within 65536 m = true := by decide) :
    erase m (State.modBus u f) = erase m s := by
  refine (erase_mono (m := 65536) hw ?_).trans he
  unfold State.modBus
  repeat' first
    | with_reducible rfl
    | with_reducible assumption
    | with_reducible refine upd_bus_er ?_

theorem State.busRefresh_er {m : Nat} {s : State} {u : State} (he : erase m u = erase m s) (hw : within 1 m = true := by decide) :
    erase m (State.busRefresh u) = erase m s := by
  refine (erase_mono (m := 1) hw ?_).trans he
  unfold State.busRefresh
  repeat' first
    | with_reducible rfl
    | with_reducible assumption
    | with_reducible refine State.forAll_er ?_ (fun _ _ => ?_)
    | with_reducible refine State.puts_er ?_
    | with_reducible refine State.live_er ?_

theorem State.busAnswer_er {m : Nat} {s : State} {u : State} {x : BusTx} {resp : Nat} {data : List (BitVec 128)} (he : erase m u = erase m s) (hw : within 8388625 m = true := by decide) :
    erase m (State.busAnswer u x resp data) = erase m s := by
  refine (erase_mono (m := 8388625) hw ?_).trans he
  unfold State.busAnswer
  repeat' first
    | with_reducible rfl
    | with_reducible assumption
    | with_reducible refine State.puts_er ?_
    | with_reducible refine State.bump_er ?_
    | with_reducible refine State.raiseIf_er ?_
    | with_reducible refine State.put_er ?_
    | with_reducible refine State.emit_er ?_
    | with_reducible refine erase_ite ?_ ?_
    | dsimp only
    | split

theorem State.busT8_er {m : Nat} {s : State} {u : State} {x : BusTx} {reason : Nat} (he : erase m u = erase m s) (hw : within 8388625 m = true := by decide) :
    erase m (State.busT8 u x reason) = erase m s := by
  refine (erase_mono (m := 8388625) hw ?_).trans he
  unfold State.busT8
  repeat' first
    | with_reducible rfl
    | with_reducible assumption
    | with_reducible refine State.puts_er ?_
    | with_reducible refine State.bump_er ?_
    | with_reducible refine State.raise_er ?_
    | with_reducible refine State.busAnswer_er ?_
    | with_reducible refine erase_ite ?_ ?_
    | dsimp only
    | split

theorem State.busAccept_er {m : Nat} {s u t : State}  (h : State.busAccept u  = some t) (he : erase m u = erase m s) (hw : within 8454161 m = true := by decide) :
    erase m t = erase m s := by
  refine (erase_mono (m := 8454161) hw ?_).trans he
  clear he hw
  unfold State.busAccept at h
  dsimp only at h
  split at h
  · cases h
  · simp only [Option.some.injEq] at h
    subst h
    repeat' first
      | with_reducible rfl
      | with_reducible assumption
      | with_reducible refine State.modBus_er ?_
      | with_reducible refine State.busT8_er ?_
      | with_reducible refine State.busAnswer_er ?_
      | with_reducible refine erase_ite ?_ ?_
      | with_reducible refine erase_of_fst (by assumption) ?_
      | dsimp only
      | split

theorem State.busSettle_er {m : Nat} {s : State} {x0 : Nat} {u : State} (he : erase m u = erase m s) (hw : within 8454161 m = true := by decide) :
    erase m (State.busSettle x0 u) = erase m s := by
  refine (erase_mono (m := 8454161) hw ?_).trans he
  clear he hw
  induction x0 generalizing u with
  | zero =>
    unfold State.busSettle
    repeat' first
      | with_reducible rfl
      | with_reducible assumption
      | with_reducible refine State.busRefresh_er ?_
      | with_reducible refine State.modBus_er ?_
      | with_reducible refine State.busAnswer_er ?_
      | with_reducible refine State.busAccept_er (by assumption) ?_
      | with_reducible refine erase_ite ?_ ?_
      | with_reducible refine erase_foldl ?_ (fun _ _ => ?_)
      | with_reducible refine erase_foldl_fst ?_ (fun _ _ => ?_)
      | with_reducible refine erase_of_fst (by assumption) ?_
      | dsimp only
      | split
  | succ _ ih =>
    unfold State.busSettle
    repeat' first
      | with_reducible rfl
      | with_reducible assumption
      | with_reducible refine State.busRefresh_er ?_
      | with_reducible refine State.modBus_er ?_
      | with_reducible refine State.busAnswer_er ?_
      | with_reducible refine State.busAccept_er (by assumption) ?_
      | with_reducible refine erase_ite ?_ ?_
      | with_reducible refine erase_foldl ?_ (fun _ _ => ?_)
      | with_reducible refine erase_foldl_fst ?_ (fun _ _ => ?_)
      | with_reducible refine erase_of_fst (by assumption) ?_
      | dsimp only
      | split
      | with_reducible refine (ih ..).trans ?_

theorem State.busGo_er {m : Nat} {s : State} {u : State} (he : erase m u = erase m s) (hw : within 8454161 m = true := by decide) :
    erase m (State.busGo u) = erase m s := by
  refine (erase_mono (m := 8454161) hw ?_).trans he
  unfold State.busGo
  repeat' first
    | with_reducible rfl
    | with_reducible assumption
    | with_reducible refine State.busSettle_er ?_

theorem State.busReset_er {m : Nat} {s : State} {u : State} {mz : Nat} {ids : Nat} {delivered : List (Nat × Nat)} (he : erase m u = erase m s) (hw : within 25231377 m = true := by decide) :
    erase m (State.busReset u mz ids delivered) = erase m s := by
  refine (erase_mono (m := 25231377) hw ?_).trans he
  unfold State.busReset
  repeat' first
    | with_reducible rfl
    | with_reducible assumption
    | with_reducible refine State.modBus_er ?_
    | with_reducible refine State.tick_er ?_
    | with_reducible refine State.forAll_er ?_ (fun _ _ => ?_)
    | with_reducible refine State.put_er ?_
    | with_reducible refine State.raiseIf_er ?_
    | with_reducible refine State.busGo_er ?_
    | with_reducible refine erase_ite ?_ ?_
    | with_reducible refine erase_of_fst (by assumption) ?_
    | dsimp only
    | split

theorem State.spaceRead_er {m : Nat} {s : State} {x0 : Nat} {u : State} {x2 : Nat} {x3 : Nat} (he : erase m u = erase m s) (hw : within 32785 m = true := by decide) :
    erase m (State.spaceRead x0 u x2 x3).1 = erase m s := by
  refine (erase_mono (m := 32785) hw ?_).trans he
  clear he hw
  induction x0 generalizing u x2 x3 with
  | zero =>
    unfold State.spaceRead
    repeat' first
      | with_reducible rfl
      | with_reducible assumption
      | with_reducible refine State.stripeData_er ?_
      | with_reducible refine State.raise_er ?_
      | with_reducible refine erase_ite ?_ ?_
      | with_reducible refine erase_ite_fst ?_ ?_
      | with_reducible refine erase_of_fst (by assumption) ?_
      | dsimp only
      | split
  | succ _ ih =>
    unfold State.spaceRead
    repeat' first
      | with_reducible rfl
      | with_reducible assumption
      | with_reducible refine State.stripeData_er ?_
      | with_reducible refine State.raise_er ?_
      | with_reducible refine erase_ite ?_ ?_
      | with_reducible refine erase_ite_fst ?_ ?_
      | with_reducible refine erase_of_fst (by assumption) ?_
      | dsimp only
      | split
      | with_reducible refine (ih ..).trans ?_

theorem State.spaceWrite_er {m : Nat} {s : State} {u : State} {l : List (Nat × Byte)} (he : erase m u = erase m s) (hw : within 32785 m = true := by decide) :
    erase m (State.spaceWrite u l) = erase m s := by
  refine (erase_mono (m := 32785) hw ?_).trans he
  unfold State.spaceWrite
  repeat' first
    | with_reducible rfl
    | with_reducible assumption
    | with_reducible refine State.stripeMerge_er ?_
    | with_reducible refine erase_foldl ?_ (fun _ _ => ?_)
    | with_reducible refine erase_foldl_fst ?_ (fun _ _ => ?_)

theorem State.sramWrite_er {m : Nat} {s : State} {u : State} {l : List (Nat × Byte)} (he : erase m u = erase m s) (hw : within 65536 m = true := by decide) :
    erase m (State.sramWrite u l) = erase m s := by
  refine (erase_mono (m := 65536) hw ?_).trans he
  unfold State.sramWrite
  repeat' first
    | with_reducible rfl
    | with_reducible assumption
    | with_reducible refine State.modBus_er ?_
    | with_reducible refine erase_foldl ?_ (fun _ _ => ?_)
    | with_reducible refine erase_foldl_fst ?_ (fun _ _ => ?_)

theorem State.loadImage_er {m : Nat} {s : State} {u : State} {n : Nat} (he : erase m u = erase m s) (hw : within 65536 m = true := by decide) :
    erase m (State.loadImage u n) = erase m s := by
  refine (erase_mono (m := 65536) hw ?_).trans he
  unfold State.loadImage
  repeat' first
    | with_reducible rfl
    | with_reducible assumption
    | with_reducible refine State.modBus_er ?_

theorem State.pageWrite_er {m : Nat} {s : State} {u : State} {mz : Nat} {l : List (Nat × Byte)} (he : erase m u = erase m s) (hw : within 262161 m = true := by decide) :
    erase m (State.pageWrite u mz l) = erase m s := by
  refine (erase_mono (m := 262161) hw ?_).trans he
  unfold State.pageWrite
  repeat' first
    | with_reducible rfl
    | with_reducible assumption
    | with_reducible refine State.raise_er ?_
    | with_reducible refine State.nvRefresh_er ?_
    | with_reducible refine State.modNv_er ?_
    | with_reducible refine erase_ite ?_ ?_
    | with_reducible refine erase_foldl ?_ (fun _ _ => ?_)
    | with_reducible refine erase_foldl_fst ?_ (fun _ _ => ?_)
    | dsimp only
    | split

end Sys2Proof.Machine
end

