-- ==== Sys2Proof/Laws/FrameKeyStore.lean ====
section
/-! SUPPORT. Frames of the operations of Machine/KeyStore.lean. -/

set_option Elab.async false

namespace Sys2Proof.Machine

theorem State.modKs_er {m : Nat} {s : State} {u : State} {f : Ks → Ks} (he : erase m u = erase m s) (hw : within 131072 m = true := by decide) :
    erase m (State.modKs u f) = erase m s := by
  refine (erase_mono (m := 131072) hw ?_).trans he
  unfold State.modKs
  repeat' first
    | with_reducible rfl
    | with_reducible assumption
    | with_reducible refine upd_ks_er ?_

theorem State.modIp_er {m : Nat} {s : State} {u : State} {f : Ip → Ip} (he : erase m u = erase m s) (hw : within 16384 m = true := by decide) :
    erase m (State.modIp u f) = erase m s := by
  refine (erase_mono (m := 16384) hw ?_).trans he
  unfold State.modIp
  repeat' first
    | with_reducible rfl
    | with_reducible assumption
    | with_reducible refine upd_ip_er ?_

theorem State.ipCause_er {m : Nat} {s : State} {u : State} {n : Nat} {bit : Nat} (he : erase m u = erase m s) (hw : within 17 m = true := by decide) :
    erase m (State.ipCause u n bit) = erase m s := by
  refine (erase_mono (m := 17) hw ?_).trans he
  unfold State.ipCause
  repeat' first
    | with_reducible rfl
    | with_reducible assumption
    | with_reducible refine State.cause_er ?_
    | with_reducible refine State.raiseIf_er ?_

theorem State.ipCauseAt_er {m : Nat} {s : State} {u : State} {n : Nat} {bit : Nat} {i : Nat} (he : erase m u = erase m s) (hw : within 17 m = true := by decide) :
    erase m (State.ipCauseAt u n bit i) = erase m s := by
  refine (erase_mono (m := 17) hw ?_).trans he
  unfold State.ipCauseAt
  repeat' first
    | with_reducible rfl
    | with_reducible assumption
    | with_reducible refine State.ipCause_er ?_
    | with_reducible refine State.puts_er ?_

theorem State.setAssoc_er {m : Nat} {s : State} {u : State} {n : Nat} {c : Nat} {j : Nat} {a : Assoc} (he : erase m u = erase m s) (hw : within 16384 m = true := by decide) :
    erase m (State.setAssoc u n c j a) = erase m s := by
  refine (erase_mono (m := 16384) hw ?_).trans he
  unfold State.setAssoc
  repeat' first
    | with_reducible rfl
    | with_reducible assumption
    | with_reducible refine State.modIp_er ?_

theorem State.keyedRefresh_er {m : Nat} {s : State} {u : State} {n : Nat} {c : Nat} (he : erase m u = erase m s) (hw : within 1 m = true := by decide) :
    erase m (State.keyedRefresh u n c) = erase m s := by
  refine (erase_mono (m := 1) hw ?_).trans he
  unfold State.keyedRefresh
  repeat' first
    | with_reducible rfl
    | with_reducible assumption
    | with_reducible refine State.put_er ?_
    | with_reducible refine erase_ite ?_ ?_
    | dsimp only
    | split

theorem State.revokePorts_er {m : Nat} {s : State} {u : State} {slots : List Nat} (he : erase m u = erase m s) (hw : within 16401 m = true := by decide) :
    erase m (State.revokePorts u slots) = erase m s := by
  refine (erase_mono (m := 16401) hw ?_).trans he
  unfold State.revokePorts
  repeat' first
    | with_reducible rfl
    | with_reducible assumption
    | with_reducible refine State.setAssoc_er ?_
    | with_reducible refine State.keyedRefresh_er ?_
    | with_reducible refine State.ipCauseAt_er ?_
    | with_reducible refine erase_foldl ?_ (fun _ _ => ?_)
    | with_reducible refine erase_foldl_fst ?_ (fun _ _ => ?_)

theorem State.setAttr_er {m : Nat} {s : State} {u : State} {i : Nat} {v : Nat} (he : erase m u = erase m s) (hw : within 1 m = true := by decide) :
    erase m (State.setAttr u i v) = erase m s := by
  refine (erase_mono (m := 1) hw ?_).trans he
  unfold State.setAttr
  repeat' first
    | with_reducible rfl
    | with_reducible assumption
    | with_reducible refine State.wr_er ?_

theorem State.setKey_er {m : Nat} {s : State} {u : State} {i : Nat} {k : List Byte} (he : erase m u = erase m s) (hw : within 16908288 m = true := by decide) :
    erase m (State.setKey u i k) = erase m s := by
  refine (erase_mono (m := 16908288) hw ?_).trans he
  unfold State.setKey
  repeat' first
    | with_reducible rfl
    | with_reducible assumption
    | with_reducible refine State.modKs_er ?_
    | with_reducible refine State.tick_er ?_

theorem State.slotsRefresh_er {m : Nat} {s : State} {u : State} (he : erase m u = erase m s) (hw : within 1 m = true := by decide) :
    erase m (State.slotsRefresh u) = erase m s := by
  refine (erase_mono (m := 1) hw ?_).trans he
  unfold State.slotsRefresh
  repeat' first
    | with_reducible rfl
    | with_reducible assumption
    | with_reducible refine State.put_er ?_

theorem State.ksSetBytes_er {m : Nat} {s : State} {u : State} {off : Nat} {l : List Byte} (he : erase m u = erase m s) (hw : within 1 m = true := by decide) :
    erase m (State.ksSetBytes u off l) = erase m s := by
  refine (erase_mono (m := 1) hw ?_).trans he
  unfold State.ksSetBytes
  repeat' first
    | with_reducible rfl
    | with_reducible assumption
    | with_reducible refine State.forAll_er ?_ (fun _ _ => ?_)
    | with_reducible refine State.wr_er ?_

theorem State.deriveRoots_er {m : Nat} {s : State} {u : State} (he : erase m u = erase m s) (hw : within 131073 m = true := by decide) :
    erase m (State.deriveRoots u) = erase m s := by
  refine (erase_mono (m := 131073) hw ?_).trans he
  unfold State.deriveRoots
  repeat' first
    | with_reducible rfl
    | with_reducible assumption
    | with_reducible refine State.modKs_er ?_
    | with_reducible refine State.ksSetBytes_er ?_

theorem State.critPair_er {m : Nat} {s : State} {u : State} {key : Nat} {tomb : Bool} {data : List Byte} (he : erase m u = erase m s) (hw : within 1 m = true := by decide) :
    erase m (State.critPair u key tomb data).1 = erase m s := by
  refine (erase_mono (m := 1) hw ?_).trans he
  unfold State.critPair
  repeat' first
    | with_reducible rfl
    | with_reducible assumption
    | with_reducible refine State.put_er ?_
    | with_reducible refine erase_ite ?_ ?_
    | with_reducible refine erase_ite_fst ?_ ?_
    | dsimp only
    | split

theorem State.slotRecord_er {m : Nat} {s : State} {u : State} {i : Nat} (he : erase m u = erase m s) (hw : within 16777216 m = true := by decide) :
    erase m (State.slotRecord u i).1 = erase m s := by
  refine (erase_mono (m := 16777216) hw ?_).trans he
  unfold State.slotRecord
  repeat' first
    | with_reducible rfl
    | with_reducible assumption
    | with_reducible refine State.tick_er ?_
    | with_reducible refine erase_of_fst (by assumption) ?_
    | dsimp only
    | split

theorem State.sealCommit_er {m : Nat} {s : State} {u : State} {l : List GRec} (he : erase m u = erase m s) (hw : within 262161 m = true := by decide) :
    erase m (State.sealCommit u l) = erase m s := by
  refine (erase_mono (m := 262161) hw ?_).trans he
  unfold State.sealCommit
  repeat' first
    | with_reducible rfl
    | with_reducible assumption
    | with_reducible refine State.ownCommits_er (by assumption) ?_
    | with_reducible refine State.compact_er ?_
    | with_reducible refine State.nvRefresh_er ?_
    | with_reducible refine erase_ite ?_ ?_
    | with_reducible refine erase_of_fst (by assumption) ?_
    | dsimp only
    | split

theorem State.ksFlush_er {m : Nat} {s : State} {u : State} (he : erase m u = erase m s) (hw : within 17170449 m = true := by decide) :
    erase m (State.ksFlush u) = erase m s := by
  refine (erase_mono (m := 17170449) hw ?_).trans he
  unfold State.ksFlush
  repeat' first
    | with_reducible rfl
    | with_reducible assumption
    | with_reducible refine State.tick_er ?_
    | with_reducible refine State.critPair_er ?_
    | with_reducible refine State.sealCommit_er ?_
    | with_reducible refine State.modKs_er ?_
    | with_reducible refine State.put_er ?_
    | with_reducible refine State.slotRecord_er ?_
    | with_reducible refine erase_ite ?_ ?_
    | with_reducible refine erase_foldl ?_ (fun _ _ => ?_)
    | with_reducible refine erase_foldl_fst ?_ (fun _ _ => ?_)
    | dsimp only
    | split

theorem State.ksDue_er {m : Nat} {s : State} {u : State} {i : Nat} (he : erase m u = erase m s) (hw : within 131072 m = true := by decide) :
    erase m (State.ksDue u i) = erase m s := by
  refine (erase_mono (m := 131072) hw ?_).trans he
  unfold State.ksDue
  repeat' first
    | with_reducible rfl
    | with_reducible assumption
    | with_reducible refine State.modKs_er ?_
    | with_reducible refine erase_ite ?_ ?_
    | dsimp only
    | split

theorem State.slotDrop_er {m : Nat} {s : State} {u : State} {i : Nat} {replace : Bool} (he : erase m u = erase m s) (hw : within 131073 m = true := by decide) :
    erase m (State.slotDrop u i replace) = erase m s := by
  refine (erase_mono (m := 131073) hw ?_).trans he
  unfold State.slotDrop
  repeat' first
    | with_reducible rfl
    | with_reducible assumption
    | with_reducible refine State.put_er ?_
    | with_reducible refine State.setAttr_er ?_
    | with_reducible refine State.modKs_er ?_
    | with_reducible refine State.ksDue_er ?_
    | with_reducible refine erase_ite ?_ ?_
    | dsimp only
    | split

theorem State.walk_er {m : Nat} {s : State} {x0 : Nat} {u : State} {x2 : List Nat} (he : erase m u = erase m s) (hw : within 131073 m = true := by decide) :
    erase m (State.walk x0 u x2).1 = erase m s := by
  refine (erase_mono (m := 131073) hw ?_).trans he
  clear he hw
  induction x0 generalizing u x2 with
  | zero =>
    unfold State.walk
    repeat' first
      | with_reducible rfl
      | with_reducible assumption
      | with_reducible refine State.slotDrop_er ?_
      | with_reducible refine erase_ite ?_ ?_
      | with_reducible refine erase_foldl ?_ (fun _ _ => ?_)
      | with_reducible refine erase_foldl_fst ?_ (fun _ _ => ?_)
      | with_reducible refine erase_ite_fst ?_ ?_
      | with_reducible refine erase_of_fst (by assumption) ?_
      | dsimp only
      | split
  | succ _ ih =>
    unfold State.walk
    repeat' first
      | with_reducible rfl
      | with_reducible assumption
      | with_reducible refine State.slotDrop_er ?_
      | with_reducible refine erase_ite ?_ ?_
      | with_reducible refine erase_foldl ?_ (fun _ _ => ?_)
      | with_reducible refine erase_foldl_fst ?_ (fun _ _ => ?_)
      | with_reducible refine erase_ite_fst ?_ ?_
      | with_reducible refine erase_of_fst (by assumption) ?_
      | dsimp only
      | split
      | with_reducible refine (ih ..).trans ?_

theorem State.invalidate_er {m : Nat} {s : State} {u : State} {i : Nat} {replace : Bool} (he : erase m u = erase m s) (hw : within 1196049 m = true := by decide) :
    erase m (State.invalidate u i replace) = erase m s := by
  refine (erase_mono (m := 1196049) hw ?_).trans he
  unfold State.invalidate
  repeat' first
    | with_reducible rfl
    | with_reducible assumption
    | with_reducible refine State.walk_er ?_
    | with_reducible refine State.slotDrop_er ?_
    | with_reducible refine State.put_er ?_
    | with_reducible refine State.raise_er ?_
    | with_reducible refine State.puts_er ?_
    | with_reducible refine State.revokePorts_er ?_
    | with_reducible refine State.slotsRefresh_er ?_
    | with_reducible refine erase_ite ?_ ?_
    | with_reducible refine erase_of_fst (by assumption) ?_
    | dsimp only
    | split
    | with_reducible refine upd_mg_er ?_

theorem State.ksRes_er {m : Nat} {s : State} {u : State} {code : Nat} (he : erase m u = erase m s) (hw : within 1 m = true := by decide) :
    erase m (State.ksRes u code) = erase m s := by
  refine (erase_mono (m := 1) hw ?_).trans he
  unfold State.ksRes
  repeat' first
    | with_reducible rfl
    | with_reducible assumption
    | with_reducible refine State.puts_er ?_
    | with_reducible refine State.slotsRefresh_er ?_

theorem State.derive_er {m : Nat} {s : State} {u : State} (he : erase m u = erase m s) (hw : within 18235409 m = true := by decide) :
    erase m (State.derive u) = erase m s := by
  refine (erase_mono (m := 18235409) hw ?_).trans he
  unfold State.derive
  repeat' first
    | with_reducible rfl
    | with_reducible assumption
    | with_reducible refine State.ksRes_er ?_
    | with_reducible refine State.setAttr_er ?_
    | with_reducible refine State.modKs_er ?_
    | with_reducible refine State.setKey_er ?_
    | with_reducible refine State.put_er ?_
    | with_reducible refine State.invalidate_er ?_
    | with_reducible refine State.ksDue_er ?_
    | with_reducible refine State.ksFlush_er ?_
    | with_reducible refine erase_ite ?_ ?_
    | with_reducible refine erase_of_fst (by assumption) ?_
    | dsimp only
    | split

theorem State.clearSlot_er {m : Nat} {s : State} {u : State} (he : erase m u = erase m s) (hw : within 18235409 m = true := by decide) :
    erase m (State.clearSlot u) = erase m s := by
  refine (erase_mono (m := 18235409) hw ?_).trans he
  unfold State.clearSlot
  repeat' first
    | with_reducible rfl
    | with_reducible assumption
    | with_reducible refine State.ksRes_er ?_
    | with_reducible refine State.invalidate_er ?_
    | with_reducible refine State.ksFlush_er ?_
    | with_reducible refine erase_of_fst (by assumption) ?_
    | dsimp only
    | split

theorem State.attest_er {m : Nat} {s : State} {u : State} (he : erase m u = erase m s) (hw : within 1 m = true := by decide) :
    erase m (State.attest u) = erase m s := by
  refine (erase_mono (m := 1) hw ?_).trans he
  unfold State.attest
  repeat' first
    | with_reducible rfl
    | with_reducible assumption
    | with_reducible refine State.ksRes_er ?_
    | with_reducible refine State.ksSetBytes_er ?_
    | with_reducible refine erase_of_fst (by assumption) ?_
    | dsimp only
    | split

theorem State.update_er {m : Nat} {s : State} {u : State} (he : erase m u = erase m s) (hw : within 18235409 m = true := by decide) :
    erase m (State.update u) = erase m s := by
  refine (erase_mono (m := 18235409) hw ?_).trans he
  unfold State.update
  repeat' first
    | with_reducible rfl
    | with_reducible assumption
    | with_reducible refine State.raise_er ?_
    | with_reducible refine State.raiseIf_er ?_
    | with_reducible refine State.ksRes_er ?_
    | with_reducible refine State.cntStep_er ?_
    | with_reducible refine State.setAttr_er ?_
    | with_reducible refine State.modKs_er ?_
    | with_reducible refine State.setKey_er ?_
    | with_reducible refine State.put_er ?_
    | with_reducible refine State.ksDue_er ?_
    | with_reducible refine State.invalidate_er ?_
    | with_reducible refine State.critPair_er ?_
    | with_reducible refine State.sealCommit_er ?_
    | with_reducible refine State.ksFlush_er ?_
    | with_reducible refine erase_ite ?_ ?_
    | with_reducible refine erase_of_fst (by assumption) ?_
    | dsimp only
    | split

theorem State.ksRun_er {m : Nat} {s : State} {u : State} (he : erase m u = erase m s) (hw : within 18235409 m = true := by decide) :
    erase m (State.ksRun u) = erase m s := by
  refine (erase_mono (m := 18235409) hw ?_).trans he
  unfold State.ksRun
  repeat' first
    | with_reducible rfl
    | with_reducible assumption
    | with_reducible refine State.derive_er ?_
    | with_reducible refine State.clearSlot_er ?_
    | with_reducible refine State.attest_er ?_
    | with_reducible refine State.update_er ?_
    | with_reducible refine erase_ite ?_ ?_
    | dsimp only
    | split

theorem State.ksCommand_er {m : Nat} {s : State} {u : State} {op : Nat} {v : Word} (he : erase m u = erase m s) (hw : within 18235409 m = true := by decide) :
    erase m (State.ksCommand u op v) = erase m s := by
  refine (erase_mono (m := 18235409) hw ?_).trans he
  unfold State.ksCommand
  repeat' first
    | with_reducible rfl
    | with_reducible assumption
    | with_reducible refine State.puts_er ?_
    | with_reducible refine State.put_er ?_
    | with_reducible refine State.modKs_er ?_
    | with_reducible refine State.ksRun_er ?_
    | with_reducible refine erase_ite ?_ ?_
    | dsimp only
    | split

theorem State.deriveRecipes_er {m : Nat} {s : State} {x0 : Nat} {u : State} {x2 : Bool} (he : erase m u = erase m s) (hw : within 16908289 m = true := by decide) :
    erase m (State.deriveRecipes x0 u x2) = erase m s := by
  refine (erase_mono (m := 16908289) hw ?_).trans he
  clear he hw
  induction x0 generalizing u x2 with
  | zero =>
    unfold State.deriveRecipes
    repeat' first
      | with_reducible rfl
      | with_reducible assumption
      | with_reducible refine State.setKey_er ?_
      | with_reducible refine State.setAttr_er ?_
      | with_reducible refine erase_of_fst (by assumption) ?_
      | dsimp only
      | split
  | succ _ ih =>
    unfold State.deriveRecipes
    repeat' first
      | with_reducible rfl
      | with_reducible assumption
      | with_reducible refine State.setKey_er ?_
      | with_reducible refine State.setAttr_er ?_
      | with_reducible refine erase_of_fst (by assumption) ?_
      | dsimp only
      | split
      | with_reducible refine (ih ..).trans ?_

theorem State.extend_er {m : Nat} {s : State} {u : State} {digest : List Byte} {final : Bool} (he : erase m u = erase m s) (hw : within 16908289 m = true := by decide) :
    erase m (State.extend u digest final) = erase m s := by
  refine (erase_mono (m := 16908289) hw ?_).trans he
  unfold State.extend
  repeat' first
    | with_reducible rfl
    | with_reducible assumption
    | with_reducible refine State.deriveRecipes_er ?_
    | with_reducible refine State.ksSetBytes_er ?_
    | with_reducible refine State.put_er ?_
    | with_reducible refine State.slotsRefresh_er ?_
    | with_reducible refine erase_ite ?_ ?_
    | dsimp only
    | split

theorem State.runQueue_er {m : Nat} {s : State} {u : State} (he : erase m u = erase m s) (hw : within 16908289 m = true := by decide) :
    erase m (State.runQueue u) = erase m s := by
  refine (erase_mono (m := 16908289) hw ?_).trans he
  unfold State.runQueue
  repeat' first
    | with_reducible rfl
    | with_reducible assumption
    | with_reducible refine State.extend_er ?_
    | with_reducible refine State.modKs_er ?_
    | with_reducible refine erase_foldl ?_ (fun _ _ => ?_)
    | with_reducible refine erase_foldl_fst ?_ (fun _ _ => ?_)

theorem State.unseal_er {m : Nat} {s : State} {u : State} {i : Nat} {d : List Byte} (he : erase m u = erase m s) (hw : within 16908305 m = true := by decide) :
    erase m (State.unseal u i d) = erase m s := by
  refine (erase_mono (m := 16908305) hw ?_).trans he
  unfold State.unseal
  repeat' first
    | with_reducible rfl
    | with_reducible assumption
    | with_reducible refine State.put_er ?_
    | with_reducible refine State.raise_er ?_
    | with_reducible refine State.puts_er ?_
    | with_reducible refine State.setKey_er ?_
    | with_reducible refine State.setAttr_er ?_
    | with_reducible refine State.modKs_er ?_
    | with_reducible refine erase_ite ?_ ?_
    | with_reducible refine erase_of_fst (by assumption) ?_
    | dsimp only
    | split

theorem State.ksStart_er {m : Nat} {s : State} {u : State} (he : erase m u = erase m s) (hw : within 17170449 m = true := by decide) :
    erase m (State.ksStart u) = erase m s := by
  refine (erase_mono (m := 17170449) hw ?_).trans he
  unfold State.ksStart
  repeat' first
    | with_reducible rfl
    | with_reducible assumption
    | with_reducible refine State.deriveRecipes_er ?_
    | with_reducible refine State.modKs_er ?_
    | with_reducible refine State.tick_er ?_
    | with_reducible refine State.deriveRoots_er ?_
    | with_reducible refine State.put_er ?_
    | with_reducible refine State.ksFlush_er ?_
    | with_reducible refine State.resolveKey_er ?_
    | with_reducible refine State.unseal_er ?_
    | with_reducible refine State.slotsRefresh_er ?_
    | with_reducible refine erase_ite ?_ ?_
    | with_reducible refine erase_foldl ?_ (fun _ _ => ?_)
    | with_reducible refine erase_foldl_fst ?_ (fun _ _ => ?_)
    | with_reducible refine erase_of_fst (by assumption) ?_
    | dsimp only
    | split

end Sys2Proof.Machine
end

