-- ==== Sys2Proof/Laws/FrameTake.lean ====
section
/-! SUPPORT. Frames of the operations of Machine/Take.lean. -/

set_option Elab.async false

namespace Sys2Proof.Machine

theorem State.memberResult_er {m : Nat} {s : State} {u : State} {base : Nat} {n : Nat} {code : Nat} (he : erase m u = erase m s) (hw : within 1 m = true := by decide) :
    erase m (State.memberResult u base n code) = erase m s := by
  refine (erase_mono (m := 1) hw ?_).trans he
  unfold State.memberResult
  repeat' first
    | with_reducible rfl
    | with_reducible assumption
    | with_reducible refine State.puts_er ?_
    | with_reducible refine erase_ite ?_ ?_
    | dsimp only
    | split

theorem State.setCgFrame_er {m : Nat} {s : State} {u : State} {n : Nat} {v : Nat} (he : erase m u = erase m s) (hw : within 1 m = true := by decide) :
    erase m (State.setCgFrame u n v) = erase m s := by
  refine (erase_mono (m := 1) hw ?_).trans he
  unfold State.setCgFrame
  repeat' first
    | with_reducible rfl
    | with_reducible assumption
    | with_reducible refine State.put_er ?_

theorem State.groupEnd_er {m : Nat} {s : State} {u : State} {n : Nat} {code : Nat} {members : List Nat} (he : erase m u = erase m s) (hw : within 9 m = true := by decide) :
    erase m (State.groupEnd u n code members) = erase m s := by
  refine (erase_mono (m := 9) hw ?_).trans he
  unfold State.groupEnd
  repeat' first
    | with_reducible rfl
    | with_reducible assumption
    | with_reducible refine State.puts_er ?_
    | with_reducible refine State.setGrp_er ?_
    | with_reducible refine State.memberResult_er ?_
    | with_reducible refine State.pendingRefresh_er ?_
    | with_reducible refine erase_foldl ?_ (fun _ _ => ?_)
    | with_reducible refine erase_foldl_fst ?_ (fun _ _ => ?_)

theorem State.groupsDone_er {m : Nat} {s : State} {u : State} (he : erase m u = erase m s) (hw : within 1033 m = true := by decide) :
    erase m (State.groupsDone u) = erase m s := by
  refine (erase_mono (m := 1033) hw ?_).trans he
  unfold State.groupsDone
  repeat' first
    | with_reducible rfl
    | with_reducible assumption
    | with_reducible refine State.forAll_er ?_ (fun _ _ => ?_)
    | with_reducible refine State.modSilo_er ?_
    | with_reducible refine State.setCgFrame_er ?_
    | with_reducible refine State.groupEnd_er ?_
    | with_reducible refine erase_ite ?_ ?_
    | dsimp only
    | split

theorem State.takePart_er {m : Nat} {s : State} {u : State} {pred : Nat → Bool} (he : erase m u = erase m s) (hw : within 10 m = true := by decide) :
    erase m (State.takePart u pred) = erase m s := by
  refine (erase_mono (m := 10) hw ?_).trans he
  unfold State.takePart
  repeat' first
    | with_reducible rfl
    | with_reducible assumption
    | with_reducible refine State.forAll_er ?_ (fun _ _ => ?_)
    | with_reducible refine State.applyStaging_er ?_
    | with_reducible refine State.setGrp_er ?_

theorem State.ringAccept_er {m : Nat} {s : State} {u : State} {key : Nat} (he : erase m u = erase m s) (hw : within 1024 m = true := by decide) :
    erase m (State.ringAccept u key) = erase m s := by
  refine (erase_mono (m := 1024) hw ?_).trans he
  unfold State.ringAccept
  repeat' first
    | with_reducible rfl
    | with_reducible assumption
    | with_reducible refine State.setRing_er ?_

theorem State.ctxSettle_er {m : Nat} {s : State} {u : State} {t : Nat} {i : Nat} (he : erase m u = erase m s) (hw : within 4096 m = true := by decide) :
    erase m (State.ctxSettle u t i) = erase m s := by
  refine (erase_mono (m := 4096) hw ?_).trans he
  unfold State.ctxSettle
  repeat' first
    | with_reducible rfl
    | with_reducible assumption
    | with_reducible refine erase_ite ?_ ?_
    | dsimp only
    | split
    | with_reducible refine upd_conv_er ?_

theorem State.routeTaken_er {m : Nat} {s : State} {u : State} {old : State} {t : Nat} {i : Nat} (he : erase m u = erase m s) (hw : within 7697 m = true := by decide) :
    erase m (State.routeTaken u old t i) = erase m s := by
  refine (erase_mono (m := 7697) hw ?_).trans he
  unfold State.routeTaken
  repeat' first
    | with_reducible rfl
    | with_reducible assumption
    | with_reducible refine State.ctxSettle_er ?_
    | with_reducible refine State.puts_er ?_
    | with_reducible refine State.routeSettle_er ?_
    | with_reducible refine State.setLayer_er ?_
    | with_reducible refine State.storeStops_er ?_
    | with_reducible refine State.ringAccept_er ?_
    | with_reducible refine State.latencyChange_er ?_
    | with_reducible refine erase_ite ?_ ?_
    | dsimp only
    | split

theorem State.tagBins_er {m : Nat} {s : State} {u : State} {l : List Nat} (he : erase m u = erase m s) (hw : within 16810001 m = true := by decide) :
    erase m (State.tagBins u l) = erase m s := by
  refine (erase_mono (m := 16810001) hw ?_).trans he
  unfold State.tagBins
  repeat' first
    | with_reducible rfl
    | with_reducible assumption
    | with_reducible refine State.stripeWrite_er ?_
    | with_reducible refine State.tick_er ?_
    | with_reducible refine erase_foldl ?_ (fun _ _ => ?_)
    | with_reducible refine erase_foldl_fst ?_ (fun _ _ => ?_)

theorem State.binsTaken_er {m : Nat} {s : State} {u : State} {domain : Nat} {pulses : Nat} {key : Nat} {v : Nat × List Nat} (he : erase m u = erase m s) (hw : within 16811025 m = true := by decide) :
    erase m (State.binsTaken u domain pulses key v) = erase m s := by
  refine (erase_mono (m := 16811025) hw ?_).trans he
  unfold State.binsTaken
  repeat' first
    | with_reducible rfl
    | with_reducible assumption
    | with_reducible refine State.setBins_er ?_
    | with_reducible refine State.releaseBins_er ?_
    | with_reducible refine State.modSilo_er ?_
    | with_reducible refine State.tagBins_er ?_

theorem State.reBin_er {m : Nat} {s : State} {u : State} {domain : Nat} {pulses : Nat} {key : Nat} {v : Nat × List Nat} {fresh : Bool} (he : erase m u = erase m s) (hw : within 16811025 m = true := by decide) :
    erase m (State.reBin u domain pulses key v fresh) = erase m s := by
  refine (erase_mono (m := 16811025) hw ?_).trans he
  unfold State.reBin
  repeat' first
    | with_reducible rfl
    | with_reducible assumption
    | with_reducible refine State.binsTaken_er ?_
    | with_reducible refine State.setRing_er ?_
    | with_reducible refine State.siloStat_er ?_
    | with_reducible refine erase_ite ?_ ?_
    | dsimp only
    | split

theorem State.surfaceAnew_er {m : Nat} {s : State} {u : State} {key : Nat} (he : erase m u = erase m s) (hw : within 16778240 m = true := by decide) :
    erase m (State.surfaceAnew u key) = erase m s := by
  refine (erase_mono (m := 16778240) hw ?_).trans he
  unfold State.surfaceAnew
  repeat' first
    | with_reducible rfl
    | with_reducible assumption
    | with_reducible refine State.modSilo_er ?_
    | with_reducible refine State.tick_er ?_

theorem State.takeBins_er {m : Nat} {s : State} {u : State} {fresh : List Nat} (he : erase m u = erase m s) (hw : within 16811025 m = true := by decide) :
    erase m (State.takeBins u fresh) = erase m s := by
  refine (erase_mono (m := 16811025) hw ?_).trans he
  unfold State.takeBins
  repeat' first
    | with_reducible rfl
    | with_reducible assumption
    | with_reducible refine State.modSilo_er ?_
    | with_reducible refine State.reBin_er ?_
    | with_reducible refine erase_foldl ?_ (fun _ _ => ?_)
    | with_reducible refine erase_foldl_fst ?_ (fun _ _ => ?_)

theorem State.takeKept_er {m : Nat} {s : State} {u : State} {domain : Nat} (he : erase m u = erase m s) (hw : within 16811025 m = true := by decide) :
    erase m (State.takeKept u domain) = erase m s := by
  refine (erase_mono (m := 16811025) hw ?_).trans he
  unfold State.takeKept
  repeat' first
    | with_reducible rfl
    | with_reducible assumption
    | with_reducible refine State.modSilo_er ?_
    | with_reducible refine State.reBin_er ?_
    | with_reducible refine State.ringAccept_er ?_
    | with_reducible refine State.siloStat_er ?_
    | with_reducible refine erase_foldl ?_ (fun _ _ => ?_)
    | with_reducible refine erase_foldl_fst ?_ (fun _ _ => ?_)

theorem State.takeOld_er {m : Nat} {s : State} {u : State} {domain : Nat} {key : Nat} (he : erase m u = erase m s) (hw : within 16811025 m = true := by decide) :
    erase m (State.takeOld u domain key) = erase m s := by
  refine (erase_mono (m := 16811025) hw ?_).trans he
  unfold State.takeOld
  repeat' first
    | with_reducible rfl
    | with_reducible assumption
    | with_reducible refine State.modSilo_er ?_
    | with_reducible refine State.reBin_er ?_
    | with_reducible refine erase_of_fst (by assumption) ?_
    | dsimp only
    | split

theorem State.routeDue_er {m : Nat} {s : State} {u : State} {t : Nat} {i : Nat} (he : erase m u = erase m s) (hw : within 16813585 m = true := by decide) :
    erase m (State.routeDue u t i) = erase m s := by
  refine (erase_mono (m := 16813585) hw ?_).trans he
  unfold State.routeDue
  repeat' first
    | with_reducible rfl
    | with_reducible assumption
    | with_reducible refine State.setRoute_er ?_
    | with_reducible refine State.takeOld_er ?_
    | with_reducible refine State.ringAccept_er ?_
    | with_reducible refine State.routeSettle_er ?_
    | with_reducible refine State.latencyChange_er ?_
    | with_reducible refine State.floorLive_er ?_
    | with_reducible refine State.setLayer_er ?_
    | with_reducible refine State.puts_er ?_
    | with_reducible refine erase_ite ?_ ?_
    | with_reducible refine erase_of_fst (by assumption) ?_
    | dsimp only
    | split

end Sys2Proof.Machine
end

