-- ==== Sys2Proof/Laws/FrameMacSec.lean ====
section
/-! SUPPORT. Frames of the operations of Machine/MacSec.lean. -/

set_option Elab.async false

namespace Sys2Proof.Machine

theorem State.free_er {m : Nat} {s : State} {u : State} {n : Nat} (he : erase m u = erase m s) (hw : within 16777216 m = true := by decide) :
    erase m (State.free u n).1 = erase m s := by
  refine (erase_mono (m := 16777216) hw ?_).trans he
  unfold State.free
  repeat' first
    | with_reducible rfl
    | with_reducible assumption
    | with_reducible refine State.tick_er ?_

theorem State.pnRefresh_er {m : Nat} {s : State} {u : State} {n : Nat} {c : Nat} {j : Nat} (he : erase m u = erase m s) (hw : within 1 m = true := by decide) :
    erase m (State.pnRefresh u n c j) = erase m s := by
  refine (erase_mono (m := 1) hw ?_).trans he
  unfold State.pnRefresh
  repeat' first
    | with_reducible rfl
    | with_reducible assumption
    | with_reducible refine State.put_er ?_
    | with_reducible refine erase_ite ?_ ?_
    | dsimp only
    | split

theorem State.protect_er {m : Nat} {s : State} {u : State} {n : Nat} {c : Nat} {f : List Byte} (he : erase m u = erase m s) (hw : within 16401 m = true := by decide) :
    erase m (State.protect u n c f).1 = erase m s := by
  refine (erase_mono (m := 16401) hw ?_).trans he
  unfold State.protect
  repeat' first
    | with_reducible rfl
    | with_reducible assumption
    | with_reducible refine State.bump_er ?_
    | with_reducible refine State.setAssoc_er ?_
    | with_reducible refine State.put_er ?_
    | with_reducible refine State.ipCauseAt_er ?_
    | with_reducible refine State.pnRefresh_er ?_
    | with_reducible refine erase_ite ?_ ?_
    | with_reducible refine erase_ite_fst ?_ ?_
    | dsimp only
    | split

theorem State.msReceive_er {m : Nat} {s : State} {u : State} {n : Nat} {f : List Byte} (he : erase m u = erase m s) (hw : within 16401 m = true := by decide) :
    erase m (State.msReceive u n f).1 = erase m s := by
  refine (erase_mono (m := 16401) hw ?_).trans he
  unfold State.msReceive
  repeat' first
    | with_reducible rfl
    | with_reducible assumption
    | with_reducible refine State.bump_er ?_
    | with_reducible refine State.setAssoc_er ?_
    | with_reducible refine State.pnRefresh_er ?_
    | with_reducible refine State.ipCauseAt_er ?_
    | with_reducible refine erase_of_fst (by assumption) ?_
    | dsimp only
    | split

theorem State.portSend_er {m : Nat} {s : State} {u : State} {n : Nat} {sc : Option Nat} {f : List Byte} (he : erase m u = erase m s) (hw : within 8405009 m = true := by decide) :
    erase m (State.portSend u n sc f) = erase m s := by
  refine (erase_mono (m := 8405009) hw ?_).trans he
  unfold State.portSend
  repeat' first
    | with_reducible rfl
    | with_reducible assumption
    | with_reducible refine State.bump_er ?_
    | with_reducible refine State.protect_er ?_
    | with_reducible refine State.emit_er ?_
    | with_reducible refine erase_ite ?_ ?_
    | with_reducible refine erase_of_fst (by assumption) ?_
    | dsimp only
    | split

theorem State.ipMac_er {m : Nat} {s : State} {u : State} {ip : Nat} (he : erase m u = erase m s) (hw : within 16777216 m = true := by decide) :
    erase m (State.ipMac u ip).1 = erase m s := by
  refine (erase_mono (m := 16777216) hw ?_).trans he
  unfold State.ipMac
  repeat' first
    | with_reducible rfl
    | with_reducible assumption
    | with_reducible refine State.free_er ?_
    | with_reducible refine erase_ite ?_ ?_
    | with_reducible refine erase_ite_fst ?_ ?_
    | dsimp only
    | split

theorem State.udpFrame_er {m : Nat} {s : State} {u : State} {n : Nat} {dst : Nat} {sport : Nat} {dport : Nat} {dscp : Nat} {tag : Option (Nat × Nat)} {payload : List Byte} (he : erase m u = erase m s) (hw : within 16777216 m = true := by decide) :
    erase m (State.udpFrame u n dst sport dport dscp tag payload).1 = erase m s := by
  refine (erase_mono (m := 16777216) hw ?_).trans he
  unfold State.udpFrame
  repeat' first
    | with_reducible rfl
    | with_reducible assumption
    | with_reducible refine State.ipMac_er ?_
    | with_reducible refine State.free_er ?_
    | with_reducible refine erase_of_fst (by assumption) ?_
    | dsimp only
    | split

end Sys2Proof.Machine
end

