-- ==== Sys2Proof/Laws/FrameIpRx.lean ====
section
/-! SUPPORT. Frames of the operations of Machine/IpRx.lean. -/

set_option Elab.async false

namespace Sys2Proof.Machine

theorem State.setIrx_er {m : Nat} {s : State} {u : State} {c : Nat} {x : IpRx} (he : erase m u = erase m s) (hw : within 16384 m = true := by decide) :
    erase m (State.setIrx u c x) = erase m s := by
  refine (erase_mono (m := 16384) hw ?_).trans he
  unfold State.setIrx
  repeat' first
    | with_reducible rfl
    | with_reducible assumption
    | with_reducible refine State.modIp_er ?_

theorem State.ipLive_er {m : Nat} {s : State} {u : State} {n : Nat} (he : erase m u = erase m s) (hw : within 1 m = true := by decide) :
    erase m (State.ipLive u n) = erase m s := by
  refine (erase_mono (m := 1) hw ?_).trans he
  unfold State.ipLive
  repeat' first
    | with_reducible rfl
    | with_reducible assumption
    | with_reducible refine State.live_er ?_

theorem State.legsRefresh_er {m : Nat} {s : State} {u : State} {c : Nat} (he : erase m u = erase m s) (hw : within 1 m = true := by decide) :
    erase m (State.legsRefresh u c) = erase m s := by
  refine (erase_mono (m := 1) hw ?_).trans he
  unfold State.legsRefresh
  repeat' first
    | with_reducible rfl
    | with_reducible assumption
    | with_reducible refine State.puts_er ?_
    | with_reducible refine State.ipLive_er ?_

theorem State.rxStart_er {m : Nat} {s : State} {u : State} {c : Nat} (he : erase m u = erase m s) (hw : within 16401 m = true := by decide) :
    erase m (State.rxStart u c) = erase m s := by
  refine (erase_mono (m := 16401) hw ?_).trans he
  unfold State.rxStart
  repeat' first
    | with_reducible rfl
    | with_reducible assumption
    | with_reducible refine State.put_er ?_
    | with_reducible refine State.setIrx_er ?_
    | with_reducible refine State.legsRefresh_er ?_
    | with_reducible refine State.ipCauseAt_er ?_
    | with_reducible refine erase_ite ?_ ?_
    | dsimp only
    | split

theorem State.bumpLost_er {m : Nat} {s : State} {u : State} {c : Nat} {x : Nat} {n : Nat} (he : erase m u = erase m s) (hw : within 1 m = true := by decide) :
    erase m (State.bumpLost u c x n) = erase m s := by
  refine (erase_mono (m := 1) hw ?_).trans he
  unfold State.bumpLost
  repeat' first
    | with_reducible rfl
    | with_reducible assumption
    | with_reducible refine State.bump_er ?_
    | with_reducible refine erase_ite ?_ ?_
    | dsimp only
    | split

theorem State.legArrival_er {m : Nat} {s : State} {u : State} {c : Nat} {x : Nat} {n : Nat} {ts : Nat} (he : erase m u = erase m s) (hw : within 16401 m = true := by decide) :
    erase m (State.legArrival u c x n ts) = erase m s := by
  refine (erase_mono (m := 16401) hw ?_).trans he
  unfold State.legArrival
  repeat' first
    | with_reducible rfl
    | with_reducible assumption
    | with_reducible refine State.setIrx_er ?_
    | with_reducible refine State.legsRefresh_er ?_
    | with_reducible refine State.ipCauseAt_er ?_
    | with_reducible refine State.puts_er ?_
    | with_reducible refine erase_ite ?_ ?_
    | with_reducible refine erase_foldl ?_ (fun _ _ => ?_)
    | with_reducible refine erase_foldl_fst ?_ (fun _ _ => ?_)
    | with_reducible refine erase_of_fst (by assumption) ?_
    | dsimp only
    | split

theorem State.rxEntry_er {m : Nat} {s : State} {u : State} {c : Nat} {r : Nat} {ts : Nat} {arrival : Nat} (he : erase m u = erase m s) (hw : within 16384 m = true := by decide) :
    erase m (State.rxEntry u c r ts arrival) = erase m s := by
  refine (erase_mono (m := 16384) hw ?_).trans he
  unfold State.rxEntry
  repeat' first
    | with_reducible rfl
    | with_reducible assumption
    | with_reducible refine State.setIrx_er ?_
    | with_reducible refine erase_ite ?_ ?_
    | dsimp only
    | split

theorem State.rxFeed_er {m : Nat} {s : State} {u : State} {c : Nat} {n : Nat} {p : RxPart} (he : erase m u = erase m s) (hw : within 16384 m = true := by decide) :
    erase m (State.rxFeed u c n p) = erase m s := by
  refine (erase_mono (m := 16384) hw ?_).trans he
  unfold State.rxFeed
  repeat' first
    | with_reducible rfl
    | with_reducible assumption
    | with_reducible refine State.setIrx_er ?_
    | with_reducible refine erase_ite ?_ ?_
    | with_reducible refine erase_foldl ?_ (fun _ _ => ?_)
    | with_reducible refine erase_foldl_fst ?_ (fun _ _ => ?_)
    | dsimp only
    | split

theorem State.rxFrameDone_er {m : Nat} {s : State} {u : State} {c : Nat} (he : erase m u = erase m s) (hw : within 16401 m = true := by decide) :
    erase m (State.rxFrameDone u c) = erase m s := by
  refine (erase_mono (m := 16401) hw ?_).trans he
  unfold State.rxFrameDone
  repeat' first
    | with_reducible rfl
    | with_reducible assumption
    | with_reducible refine State.bump_er ?_
    | with_reducible refine State.rxStart_er ?_

theorem State.rxSetEnd_er {m : Nat} {s : State} {u : State} {c : Nat} {a : Nat} {mz : Nat} (he : erase m u = erase m s) (hw : within 54353 m = true := by decide) :
    erase m (State.rxSetEnd u c a mz) = erase m s := by
  refine (erase_mono (m := 54353) hw ?_).trans he
  unfold State.rxSetEnd
  repeat' first
    | with_reducible rfl
    | with_reducible assumption
    | with_reducible refine State.bump_er ?_
    | with_reducible refine State.bumpLost_er ?_
    | with_reducible refine State.siloLine_er ?_
    | with_reducible refine State.ancOffer_er ?_
    | with_reducible refine State.rxFrameDone_er ?_
    | with_reducible refine State.setIrx_er ?_
    | with_reducible refine State.rxFeed_er ?_
    | with_reducible refine erase_ite ?_ ?_
    | with_reducible refine erase_foldl ?_ (fun _ _ => ?_)
    | with_reducible refine erase_foldl_fst ?_ (fun _ _ => ?_)
    | with_reducible refine erase_of_fst (by assumption) ?_
    | dsimp only
    | split

theorem State.rxSets_er {m : Nat} {s : State} {x0 : Nat} {u : State} {x2 : Nat} (he : erase m u = erase m s) (hw : within 54353 m = true := by decide) :
    erase m (State.rxSets x0 u x2) = erase m s := by
  refine (erase_mono (m := 54353) hw ?_).trans he
  clear he hw
  induction x0 generalizing u x2 with
  | zero =>
    unfold State.rxSets
    repeat' first
      | with_reducible rfl
      | with_reducible assumption
      | with_reducible refine State.rxSetEnd_er ?_
      | with_reducible refine erase_ite ?_ ?_
      | with_reducible refine erase_of_fst (by assumption) ?_
      | dsimp only
      | split
  | succ _ ih =>
    unfold State.rxSets
    repeat' first
      | with_reducible rfl
      | with_reducible assumption
      | with_reducible refine State.rxSetEnd_er ?_
      | with_reducible refine erase_ite ?_ ?_
      | with_reducible refine erase_of_fst (by assumption) ?_
      | dsimp only
      | split
      | with_reducible refine (ih ..).trans ?_

theorem State.rxSetPacket_er {m : Nat} {s : State} {u : State} {c : Nat} {n : Nat} {marker : Bool} {p : RxPart} (he : erase m u = erase m s) (hw : within 54353 m = true := by decide) :
    erase m (State.rxSetPacket u c n marker p) = erase m s := by
  refine (erase_mono (m := 54353) hw ?_).trans he
  unfold State.rxSetPacket
  repeat' first
    | with_reducible rfl
    | with_reducible assumption
    | with_reducible refine State.rxSets_er ?_
    | with_reducible refine State.setIrx_er ?_
    | with_reducible refine State.rxFeed_er ?_
    | with_reducible refine erase_ite ?_ ?_
    | with_reducible refine erase_of_fst (by assumption) ?_
    | dsimp only
    | split

theorem State.audPlace_er {m : Nat} {s : State} {u : State} {code : Nat} {p : Nat} {v : AudSmp} (he : erase m u = erase m s) (hw : within 8192 m = true := by decide) :
    erase m (State.audPlace u code p v) = erase m s := by
  refine (erase_mono (m := 8192) hw ?_).trans he
  unfold State.audPlace
  repeat' first
    | with_reducible rfl
    | with_reducible assumption
    | with_reducible refine State.modAud_er ?_
    | with_reducible refine erase_ite ?_ ?_
    | dsimp only
    | split

theorem State.rxAudio_er {m : Nat} {s : State} {u : State} {c : Nat} {ts : Nat} {arrival : Nat} {l : List Byte} (he : erase m u = erase m s) (hw : within 16801809 m = true := by decide) :
    erase m (State.rxAudio u c ts arrival l) = erase m s := by
  refine (erase_mono (m := 16801809) hw ?_).trans he
  unfold State.rxAudio
  repeat' first
    | with_reducible rfl
    | with_reducible assumption
    | with_reducible refine State.ipCauseAt_er ?_
    | with_reducible refine State.setIrx_er ?_
    | with_reducible refine State.rxStart_er ?_
    | with_reducible refine State.audPlace_er ?_
    | with_reducible refine erase_ite ?_ ?_
    | with_reducible refine erase_foldl ?_ (fun _ _ => ?_)
    | with_reducible refine erase_foldl_fst ?_ (fun _ _ => ?_)
    | dsimp only
    | split
    | with_reducible refine upd_freeCtr_er ?_

theorem State.audLosses_er {m : Nat} {s : State} {u : State} {c : Nat} {x : Nat} {n : Nat} (he : erase m u = erase m s) (hw : within 1 m = true := by decide) :
    erase m (State.audLosses u c x n) = erase m s := by
  refine (erase_mono (m := 1) hw ?_).trans he
  unfold State.audLosses
  repeat' first
    | with_reducible rfl
    | with_reducible assumption
    | with_reducible refine State.bumpLost_er ?_
    | with_reducible refine State.bump_er ?_
    | with_reducible refine erase_ite ?_ ?_
    | with_reducible refine erase_foldl ?_ (fun _ _ => ?_)
    | with_reducible refine erase_foldl_fst ?_ (fun _ _ => ?_)
    | dsimp only
    | split

theorem State.rxPacket_er {m : Nat} {s : State} {u : State} {c : Nat} {x : Nat} {arrival : Nat} {l : List Byte} (he : erase m u = erase m s) (hw : within 16839761 m = true := by decide) :
    erase m (State.rxPacket u c x arrival l) = erase m s := by
  refine (erase_mono (m := 16839761) hw ?_).trans he
  unfold State.rxPacket
  repeat' first
    | with_reducible rfl
    | with_reducible assumption
    | with_reducible refine State.ipCauseAt_er ?_
    | with_reducible refine State.legArrival_er ?_
    | with_reducible refine State.audLosses_er ?_
    | with_reducible refine State.setIrx_er ?_
    | with_reducible refine State.rxAudio_er ?_
    | with_reducible refine State.rxEntry_er ?_
    | with_reducible refine State.rxSetPacket_er ?_
    | with_reducible refine erase_ite ?_ ?_
    | with_reducible refine erase_of_fst (by assumption) ?_
    | dsimp only
    | split

theorem State.rxClear_er {m : Nat} {s : State} {u : State} {c : Nat} (he : erase m u = erase m s) (hw : within 16384 m = true := by decide) :
    erase m (State.rxClear u c) = erase m s := by
  refine (erase_mono (m := 16384) hw ?_).trans he
  unfold State.rxClear
  repeat' first
    | with_reducible rfl
    | with_reducible assumption
    | with_reducible refine State.setIrx_er ?_

end Sys2Proof.Machine
end

