-- ==== Sys2Proof/Laws/FrameIpTx.lean ====
section
/-! SUPPORT. Frames of the operations of Machine/IpTx.lean. -/

set_option Elab.async false

namespace Sys2Proof.Machine

theorem State.loadRefresh_er {m : Nat} {s : State} {u : State} {c : Nat} (he : erase m u = erase m s) (hw : within 1 m = true := by decide) :
    erase m (State.loadRefresh u c) = erase m s := by
  refine (erase_mono (m := 1) hw ?_).trans he
  unfold State.loadRefresh
  repeat' first
    | with_reducible rfl
    | with_reducible assumption
    | with_reducible refine State.put_er ?_
    | with_reducible refine State.forAll_er ?_ (fun _ _ => ?_)
    | with_reducible refine erase_ite ?_ ?_
    | dsimp only
    | split

theorem State.revive_er {m : Nat} {s : State} {u : State} {n : Nat} {array : Nat} {i : Nat} (he : erase m u = erase m s) (hw : within 16384 m = true := by decide) :
    erase m (State.revive u n array i) = erase m s := by
  refine (erase_mono (m := 16384) hw ?_).trans he
  unfold State.revive
  repeat' first
    | with_reducible rfl
    | with_reducible assumption
    | with_reducible refine State.modIp_er ?_

theorem State.rxTaken_er {m : Nat} {s : State} {u : State} {old : State} {c : Nat} (he : erase m u = erase m s) (hw : within 22033 m = true := by decide) :
    erase m (State.rxTaken u old c) = erase m s := by
  refine (erase_mono (m := 22033) hw ?_).trans he
  unfold State.rxTaken
  repeat' first
    | with_reducible rfl
    | with_reducible assumption
    | with_reducible refine State.revive_er ?_
    | with_reducible refine State.put_er ?_
    | with_reducible refine State.rxClear_er ?_
    | with_reducible refine State.sourceStops_er ?_
    | with_reducible refine State.epochMoves_er ?_
    | with_reducible refine State.legsRefresh_er ?_
    | with_reducible refine erase_ite ?_ ?_
    | dsimp only
    | split

theorem State.txTaken_er {m : Nat} {s : State} {u : State} {old : State} {c : Nat} (he : erase m u = erase m s) (hw : within 16385 m = true := by decide) :
    erase m (State.txTaken u old c) = erase m s := by
  refine (erase_mono (m := 16385) hw ?_).trans he
  unfold State.txTaken
  repeat' first
    | with_reducible rfl
    | with_reducible assumption
    | with_reducible refine State.revive_er ?_
    | with_reducible refine State.setItx_er ?_
    | with_reducible refine State.put_er ?_
    | with_reducible refine State.loadRefresh_er ?_
    | with_reducible refine erase_ite ?_ ?_
    | dsimp only
    | split

theorem State.scTaken_er {m : Nat} {s : State} {u : State} {old : State} {n : Nat} {c : Nat} (he : erase m u = erase m s) (hw : within 16401 m = true := by decide) :
    erase m (State.scTaken u old n c) = erase m s := by
  refine (erase_mono (m := 16401) hw ?_).trans he
  unfold State.scTaken
  repeat' first
    | with_reducible rfl
    | with_reducible assumption
    | with_reducible refine State.revive_er ?_
    | with_reducible refine State.forAll_er ?_ (fun _ _ => ?_)
    | with_reducible refine State.setAssoc_er ?_
    | with_reducible refine State.ipCauseAt_er ?_
    | with_reducible refine State.puts_er ?_
    | with_reducible refine State.keyedRefresh_er ?_
    | with_reducible refine State.pnRefresh_er ?_
    | with_reducible refine erase_ite ?_ ?_
    | dsimp only
    | split

theorem State.ipTaken_er {m : Nat} {s : State} {u : State} {old : State} {l : List (Nat × Word)} (he : erase m u = erase m s) (hw : within 22033 m = true := by decide) :
    erase m (State.ipTaken u old l) = erase m s := by
  refine (erase_mono (m := 22033) hw ?_).trans he
  unfold State.ipTaken
  repeat' first
    | with_reducible rfl
    | with_reducible assumption
    | with_reducible refine State.scTaken_er ?_
    | with_reducible refine State.rxTaken_er ?_
    | with_reducible refine State.txTaken_er ?_
    | with_reducible refine erase_foldl ?_ (fun _ _ => ?_)
    | with_reducible refine erase_foldl_fst ?_ (fun _ _ => ?_)

theorem State.rtpSend_er {m : Nat} {s : State} {u : State} {c : Nat} {marker : Bool} {seq : Nat} {ts : Nat} {payload : List Byte} (he : erase m u = erase m s) (hw : within 25182225 m = true := by decide) :
    erase m (State.rtpSend u c marker seq ts payload) = erase m s := by
  refine (erase_mono (m := 25182225) hw ?_).trans he
  unfold State.rtpSend
  repeat' first
    | with_reducible rfl
    | with_reducible assumption
    | with_reducible refine State.forAll_er ?_ (fun _ _ => ?_)
    | with_reducible refine State.udpFrame_er ?_
    | with_reducible refine State.portSend_er ?_
    | with_reducible refine erase_ite ?_ ?_
    | dsimp only
    | split

theorem State.ancSend_er {m : Nat} {s : State} {u : State} {c : Nat} {ts : Nat} {ts2 : Nat} {l : List AncPkt} (he : erase m u = erase m s) (hw : within 25182225 m = true := by decide) :
    erase m (State.ancSend u c ts ts2 l) = erase m s := by
  refine (erase_mono (m := 25182225) hw ?_).trans he
  unfold State.ancSend
  repeat' first
    | with_reducible rfl
    | with_reducible assumption
    | with_reducible refine State.rtpSend_er ?_
    | with_reducible refine State.setItx_er ?_
    | with_reducible refine erase_ite ?_ ?_
    | with_reducible refine erase_foldl ?_ (fun _ _ => ?_)
    | with_reducible refine erase_foldl_fst ?_ (fun _ _ => ?_)
    | with_reducible refine erase_of_fst (by assumption) ?_
    | dsimp only
    | split

theorem State.txLedgerSet_er {m : Nat} {s : State} {u : State} {c : Nat} {ts : Int} {part : Int} (he : erase m u = erase m s) (hw : within 513 m = true := by decide) :
    erase m (State.txLedgerSet u c ts part) = erase m s := by
  refine (erase_mono (m := 513) hw ?_).trans he
  unfold State.txLedgerSet
  repeat' first
    | with_reducible rfl
    | with_reducible assumption
    | with_reducible refine State.wr_er ?_
    | with_reducible refine erase_of_fst (by assumption) ?_
    | dsimp only
    | split
    | with_reducible refine upd_floor_er ?_

theorem State.txLine_er {m : Nat} {s : State} {u : State} {c : Nat} {y : Nat} (he : erase m u = erase m s) (hw : within 49169 m = true := by decide) :
    erase m (State.txLine u c y).1 = erase m s := by
  refine (erase_mono (m := 49169) hw ?_).trans he
  unfold State.txLine
  repeat' first
    | with_reducible rfl
    | with_reducible assumption
    | with_reducible refine State.blendRead_er ?_
    | with_reducible refine State.readLine_er ?_
    | with_reducible refine State.setItx_er ?_
    | with_reducible refine erase_ite ?_ ?_
    | with_reducible refine erase_ite_fst ?_ ?_
    | with_reducible refine erase_of_fst (by assumption) ?_
    | dsimp only
    | split

theorem State.txBytes_er {m : Nat} {s : State} {u : State} {c : Nat} {field : Nat} {start : Nat} {n : Nat} (he : erase m u = erase m s) (hw : within 49169 m = true := by decide) :
    erase m (State.txBytes u c field start n).1 = erase m s := by
  refine (erase_mono (m := 49169) hw ?_).trans he
  unfold State.txBytes
  repeat' first
    | with_reducible rfl
    | with_reducible assumption
    | with_reducible refine State.txLine_er ?_
    | with_reducible refine erase_foldl ?_ (fun _ _ => ?_)
    | with_reducible refine erase_foldl_fst ?_ (fun _ _ => ?_)

end Sys2Proof.Machine
end

