-- ==== Sys2Proof/Laws/FrameIpPorts.lean ====
section
/-! SUPPORT. Frames of the operations of Machine/IpPorts.lean. -/

set_option Elab.async false

namespace Sys2Proof.Machine

theorem State.setWindow_er {m : Nat} {s : State} {u : State} {a : Nat} {words : Nat} {l : List Byte} (he : erase m u = erase m s) (hw : within 1 m = true := by decide) :
    erase m (State.setWindow u a words l) = erase m s := by
  refine (erase_mono (m := 1) hw ?_).trans he
  unfold State.setWindow
  repeat' first
    | with_reducible rfl
    | with_reducible assumption
    | with_reducible refine State.forAll_er ?_ (fun _ _ => ?_)
    | with_reducible refine State.wr_er ?_

theorem State.setHqr_er {m : Nat} {s : State} {u : State} {n : Nat} {l : List (List Byte × Nat)} (he : erase m u = erase m s) (hw : within 16385 m = true := by decide) :
    erase m (State.setHqr u n l) = erase m s := by
  refine (erase_mono (m := 16385) hw ?_).trans he
  unfold State.setHqr
  repeat' first
    | with_reducible rfl
    | with_reducible assumption
    | with_reducible refine State.modIp_er ?_
    | with_reducible refine State.puts_er ?_
    | with_reducible refine State.setWindow_er ?_

theorem State.hostQueue_er {m : Nat} {s : State} {u : State} {n : Nat} {ts : Nat} {f : List Byte} (he : erase m u = erase m s) (hw : within 16401 m = true := by decide) :
    erase m (State.hostQueue u n ts f) = erase m s := by
  refine (erase_mono (m := 16401) hw ?_).trans he
  unfold State.hostQueue
  repeat' first
    | with_reducible rfl
    | with_reducible assumption
    | with_reducible refine State.bump_er ?_
    | with_reducible refine State.ipCause_er ?_
    | with_reducible refine State.setHqr_er ?_
    | with_reducible refine erase_ite ?_ ?_
    | dsimp only
    | split

theorem State.ethRoute_er {m : Nat} {s : State} {u : State} {n : Nat} {ts : Nat} {f : List Byte} (he : erase m u = erase m s) (hw : within 16839761 m = true := by decide) :
    erase m (State.ethRoute u n ts f) = erase m s := by
  refine (erase_mono (m := 16839761) hw ?_).trans he
  unfold State.ethRoute
  repeat' first
    | with_reducible rfl
    | with_reducible assumption
    | with_reducible refine State.bump_er ?_
    | with_reducible refine State.rxPacket_er ?_
    | with_reducible refine State.hostQueue_er ?_
    | with_reducible refine erase_ite ?_ ?_
    | with_reducible refine erase_of_fst (by assumption) ?_
    | dsimp only
    | split

theorem State.txTake_er {m : Nat} {s : State} {u : State} {c : Nat} (he : erase m u = erase m s) (hw : within 16834075 m = true := by decide) :
    erase m (State.txTake u c) = erase m s := by
  refine (erase_mono (m := 16834075) hw ?_).trans he
  unfold State.txTake
  repeat' first
    | with_reducible rfl
    | with_reducible assumption
    | with_reducible refine State.takePart_er ?_
    | with_reducible refine State.ipTaken_er ?_
    | with_reducible refine State.takeBins_er ?_
    | with_reducible refine State.routeTaken_er ?_
    | with_reducible refine State.dropCtxs_er ?_
    | with_reducible refine State.dropRings_er ?_
    | with_reducible refine State.sumsRefresh_er ?_
    | with_reducible refine State.floorLive_er ?_
    | with_reducible refine State.groupsDone_er ?_
    | with_reducible refine erase_ite ?_ ?_
    | dsimp only
    | split

theorem State.txFrame_er {m : Nat} {s : State} {u : State} {c : Nat} {k : Nat} {dev : Int} (he : erase m u = erase m s) (hw : within 25183761 m = true := by decide) :
    erase m (State.txFrame u c k dev) = erase m s := by
  refine (erase_mono (m := 25183761) hw ?_).trans he
  unfold State.txFrame
  repeat' first
    | with_reducible rfl
    | with_reducible assumption
    | with_reducible refine State.frameRoll_er ?_
    | with_reducible refine State.selectReaders_er ?_
    | with_reducible refine State.setItx_er ?_
    | with_reducible refine State.put_er ?_
    | with_reducible refine State.ipCauseAt_er ?_
    | with_reducible refine State.txLedgerSet_er ?_
    | with_reducible refine State.ancSend_er ?_
    | with_reducible refine State.readersDone_er ?_
    | with_reducible refine erase_ite ?_ ?_
    | with_reducible refine erase_of_fst (by assumption) ?_
    | dsimp only
    | split

theorem State.audBytes_er {m : Nat} {s : State} {u : State} {w : Nat} {v : Int × Option Nat} (he : erase m u = erase m s) (hw : within 16777216 m = true := by decide) :
    erase m (State.audBytes u w v).1 = erase m s := by
  refine (erase_mono (m := 16777216) hw ?_).trans he
  unfold State.audBytes
  repeat' first
    | with_reducible rfl
    | with_reducible assumption
    | with_reducible refine State.free_er ?_
    | with_reducible refine erase_ite ?_ ?_
    | with_reducible refine erase_ite_fst ?_ ?_
    | with_reducible refine erase_of_fst (by assumption) ?_
    | dsimp only
    | split

theorem State.setPtp_er {m : Nat} {s : State} {u : State} {n : Nat} {x : Ptp} (he : erase m u = erase m s) (hw : within 16384 m = true := by decide) :
    erase m (State.setPtp u n x) = erase m s := by
  refine (erase_mono (m := 16384) hw ?_).trans he
  unfold State.setPtp
  repeat' first
    | with_reducible rfl
    | with_reducible assumption
    | with_reducible refine State.modIp_er ?_

theorem State.ptpState_er {m : Nat} {s : State} {u : State} {n : Nat} {st : Nat} (he : erase m u = erase m s) (hw : within 17 m = true := by decide) :
    erase m (State.ptpState u n st) = erase m s := by
  refine (erase_mono (m := 17) hw ?_).trans he
  unfold State.ptpState
  repeat' first
    | with_reducible rfl
    | with_reducible assumption
    | with_reducible refine State.put_er ?_
    | with_reducible refine State.ipLive_er ?_
    | with_reducible refine State.ipCause_er ?_
    | with_reducible refine erase_ite ?_ ?_
    | dsimp only
    | split

theorem State.ptpSelect_er {m : Nat} {s : State} {u : State} {n : Nat} (he : erase m u = erase m s) (hw : within 16529 m = true := by decide) :
    erase m (State.ptpSelect u n) = erase m s := by
  refine (erase_mono (m := 16529) hw ?_).trans he
  unfold State.ptpSelect
  repeat' first
    | with_reducible rfl
    | with_reducible assumption
    | with_reducible refine State.setPtp_er ?_
    | with_reducible refine State.put_er ?_
    | with_reducible refine State.ptpState_er ?_
    | with_reducible refine State.puts_er ?_
    | with_reducible refine State.ipCause_er ?_
    | with_reducible refine State.requal_er ?_
    | with_reducible refine State.tcRefresh_er ?_
    | with_reducible refine erase_ite ?_ ?_
    | with_reducible refine erase_foldl ?_ (fun _ _ => ?_)
    | with_reducible refine erase_foldl_fst ?_ (fun _ _ => ?_)
    | with_reducible refine erase_of_fst (by assumption) ?_
    | dsimp only
    | split

theorem State.ptpOffset_er {m : Nat} {s : State} {u : State} {n : Nat} (he : erase m u = erase m s) (hw : within 16401 m = true := by decide) :
    erase m (State.ptpOffset u n) = erase m s := by
  refine (erase_mono (m := 16401) hw ?_).trans he
  unfold State.ptpOffset
  repeat' first
    | with_reducible rfl
    | with_reducible assumption
    | with_reducible refine State.setPtp_er ?_
    | with_reducible refine State.puti_er ?_
    | with_reducible refine State.ptpState_er ?_
    | with_reducible refine erase_of_fst (by assumption) ?_
    | dsimp only
    | split

end Sys2Proof.Machine
end

