-- ==== Sys2Proof/Laws/FrameOutput.lean ====
section
/-! SUPPORT. Frames of the operations of Machine/Output.lean. -/

set_option Elab.async false

namespace Sys2Proof.Machine

theorem State.embRefresh_er {m : Nat} {s : State} {u : State} {g : Nat} (he : erase m u = erase m s) (hw : within 17 m = true := by decide) :
    erase m (State.embRefresh u g) = erase m s := by
  refine (erase_mono (m := 17) hw ?_).trans he
  unfold State.embRefresh
  repeat' first
    | with_reducible rfl
    | with_reducible assumption
    | with_reducible refine State.puts_er ?_
    | with_reducible refine State.raiseIf_er ?_
    | with_reducible refine erase_ite ?_ ?_
    | dsimp only
    | split

theorem State.embLatch_er {m : Nat} {s : State} {u : State} {g : Nat} (he : erase m u = erase m s) (hw : within 64 m = true := by decide) :
    erase m (State.embLatch u g) = erase m s := by
  refine (erase_mono (m := 64) hw ?_).trans he
  unfold State.embLatch
  repeat' first
    | with_reducible rfl
    | with_reducible assumption
    | with_reducible refine State.setTx_er ?_

theorem State.outSend_er {m : Nat} {s : State} {u : State} {g : Nat} {st : Nat} (he : erase m u = erase m s) (hw : within 81 m = true := by decide) :
    erase m (State.outSend u g st) = erase m s := by
  refine (erase_mono (m := 81) hw ?_).trans he
  unfold State.outSend
  repeat' first
    | with_reducible rfl
    | with_reducible assumption
    | with_reducible refine State.put_er ?_
    | with_reducible refine State.embLatch_er ?_
    | with_reducible refine State.puts_er ?_
    | with_reducible refine State.embRefresh_er ?_
    | with_reducible refine erase_ite ?_ ?_
    | with_reducible refine erase_foldl ?_ (fun _ _ => ?_)
    | with_reducible refine erase_foldl_fst ?_ (fun _ _ => ?_)
    | dsimp only
    | split

theorem State.outInvalid_er {m : Nat} {s : State} {u : State} {g : Nat} (he : erase m u = erase m s) (hw : within 81 m = true := by decide) :
    erase m (State.outInvalid u g) = erase m s := by
  refine (erase_mono (m := 81) hw ?_).trans he
  unfold State.outInvalid
  repeat' first
    | with_reducible rfl
    | with_reducible assumption
    | with_reducible refine State.puts_er ?_
    | with_reducible refine State.setTx_er ?_
    | with_reducible refine State.refuseDirect_er ?_
    | with_reducible refine State.raise_er ?_

theorem State.outRun_er {m : Nat} {s : State} {u : State} {g : Nat} (he : erase m u = erase m s) (hw : within 81 m = true := by decide) :
    erase m (State.outRun u g) = erase m s := by
  refine (erase_mono (m := 81) hw ?_).trans he
  unfold State.outRun
  repeat' first
    | with_reducible rfl
    | with_reducible assumption
    | with_reducible refine State.put_er ?_
    | with_reducible refine State.puts_er ?_
    | with_reducible refine State.setTx_er ?_
    | with_reducible refine State.outInvalid_er ?_
    | with_reducible refine erase_ite ?_ ?_
    | dsimp only
    | split

theorem State.outHalt_er {m : Nat} {s : State} {u : State} {g : Nat} (he : erase m u = erase m s) (hw : within 65 m = true := by decide) :
    erase m (State.outHalt u g) = erase m s := by
  refine (erase_mono (m := 65) hw ?_).trans he
  unfold State.outHalt
  repeat' first
    | with_reducible rfl
    | with_reducible assumption
    | with_reducible refine State.put_er ?_
    | with_reducible refine State.setTx_er ?_
    | with_reducible refine erase_ite ?_ ?_
    | dsimp only
    | split

theorem State.outStop_er {m : Nat} {s : State} {u : State} {g : Nat} (he : erase m u = erase m s) (hw : within 5713 m = true := by decide) :
    erase m (State.outStop u g) = erase m s := by
  refine (erase_mono (m := 5713) hw ?_).trans he
  unfold State.outStop
  repeat' first
    | with_reducible rfl
    | with_reducible assumption
    | with_reducible refine State.puts_er ?_
    | with_reducible refine State.setTx_er ?_
    | with_reducible refine State.outSend_er ?_
    | with_reducible refine State.raise_er ?_
    | with_reducible refine State.sourceStops_er ?_
    | with_reducible refine State.outRun_er ?_
    | with_reducible refine erase_ite ?_ ?_
    | dsimp only
    | split

theorem State.outResume_er {m : Nat} {s : State} {u : State} {g : Nat} (he : erase m u = erase m s) (hw : within 81 m = true := by decide) :
    erase m (State.outResume u g) = erase m s := by
  refine (erase_mono (m := 81) hw ?_).trans he
  unfold State.outResume
  repeat' first
    | with_reducible rfl
    | with_reducible assumption
    | with_reducible refine State.outSend_er ?_
    | with_reducible refine State.setTx_er ?_
    | with_reducible refine erase_ite ?_ ?_
    | dsimp only
    | split

theorem State.outCfgChanged_er {m : Nat} {s : State} {u : State} {g : Nat} {old : Word} (he : erase m u = erase m s) (hw : within 64 m = true := by decide) :
    erase m (State.outCfgChanged u g old) = erase m s := by
  refine (erase_mono (m := 64) hw ?_).trans he
  unfold State.outCfgChanged
  repeat' first
    | with_reducible rfl
    | with_reducible assumption
    | with_reducible refine State.setTx_er ?_
    | with_reducible refine erase_ite ?_ ?_
    | dsimp only
    | split

theorem State.ancOut_er {m : Nat} {s : State} {u : State} {g : Nat} {l : Nat} {vanc : Bool} {p : AncPkt} (he : erase m u = erase m s) (hw : within 8388608 m = true := by decide) :
    erase m (State.ancOut u g l vanc p) = erase m s := by
  refine (erase_mono (m := 8388608) hw ?_).trans he
  unfold State.ancOut
  repeat' first
    | with_reducible rfl
    | with_reducible assumption
    | with_reducible refine State.emit_er ?_

theorem State.ancPlace_er {m : Nat} {s : State} {u : State} {g : Nat} {first : Nat} {hancRoom : Nat} {vancRoom : Nat} {x0 : AncRoom} {x1 : List AncPkt} (he : erase m u = erase m s) (hw : within 8388625 m = true := by decide) :
    erase m (State.ancPlace u g first hancRoom vancRoom x0 x1) = erase m s := by
  refine (erase_mono (m := 8388625) hw ?_).trans he
  clear he hw
  induction x1 generalizing u g first hancRoom vancRoom x0 with
  | nil =>
    unfold State.ancPlace
    repeat' first
      | with_reducible rfl
      | with_reducible assumption
      | with_reducible refine State.ancOut_er ?_
      | with_reducible refine State.raise_er ?_
      | with_reducible refine erase_of_fst (by assumption) ?_
      | dsimp only
      | split
  | cons _ _ ih =>
    unfold State.ancPlace
    repeat' first
      | with_reducible rfl
      | with_reducible assumption
      | with_reducible refine State.ancOut_er ?_
      | with_reducible refine State.raise_er ?_
      | with_reducible refine erase_of_fst (by assumption) ?_
      | dsimp only
      | split
      | with_reducible refine (ih ..).trans ?_

theorem State.ancTake_er {m : Nat} {s : State} {u : State} {g : Nat} (he : erase m u = erase m s) (hw : within 64 m = true := by decide) :
    erase m (State.ancTake u g).1 = erase m s := by
  refine (erase_mono (m := 64) hw ?_).trans he
  unfold State.ancTake
  repeat' first
    | with_reducible rfl
    | with_reducible assumption
    | with_reducible refine State.setTx_er ?_
    | with_reducible refine erase_ite ?_ ?_
    | with_reducible refine erase_ite_fst ?_ ?_
    | with_reducible refine erase_of_fst (by assumption) ?_
    | dsimp only
    | split

theorem State.pidInsert_er {m : Nat} {s : State} {u : State} {g : Nat} (he : erase m u = erase m s) (hw : within 8388608 m = true := by decide) :
    erase m (State.pidInsert u g) = erase m s := by
  refine (erase_mono (m := 8388608) hw ?_).trans he
  unfold State.pidInsert
  repeat' first
    | with_reducible rfl
    | with_reducible assumption
    | with_reducible refine State.ancOut_er ?_
    | with_reducible refine erase_ite ?_ ?_
    | with_reducible refine erase_foldl ?_ (fun _ _ => ?_)
    | with_reducible refine erase_foldl_fst ?_ (fun _ _ => ?_)
    | dsimp only
    | split

theorem State.edhInsert_er {m : Nat} {s : State} {u : State} {g : Nat} {n : Nat} (he : erase m u = erase m s) (hw : within 8388672 m = true := by decide) :
    erase m (State.edhInsert u g n) = erase m s := by
  refine (erase_mono (m := 8388672) hw ?_).trans he
  unfold State.edhInsert
  repeat' first
    | with_reducible rfl
    | with_reducible assumption
    | with_reducible refine State.ancOut_er ?_
    | with_reducible refine State.setTx_er ?_
    | with_reducible refine erase_ite ?_ ?_
    | dsimp only
    | split

theorem State.edhTake_er {m : Nat} {s : State} {u : State} {g : Nat} {n : Nat} {l : List Nat} (he : erase m u = erase m s) (hw : within 64 m = true := by decide) :
    erase m (State.edhTake u g n l) = erase m s := by
  refine (erase_mono (m := 64) hw ?_).trans he
  unfold State.edhTake
  repeat' first
    | with_reducible rfl
    | with_reducible assumption
    | with_reducible refine State.setTx_er ?_
    | with_reducible refine erase_ite ?_ ?_
    | dsimp only
    | split

theorem State.embControl_er {m : Nat} {s : State} {u : State} {g : Nat} (he : erase m u = erase m s) (hw : within 8388608 m = true := by decide) :
    erase m (State.embControl u g) = erase m s := by
  refine (erase_mono (m := 8388608) hw ?_).trans he
  unfold State.embControl
  repeat' first
    | with_reducible rfl
    | with_reducible assumption
    | with_reducible refine State.emit_er ?_
    | with_reducible refine erase_ite ?_ ?_
    | with_reducible refine erase_foldl ?_ (fun _ _ => ?_)
    | with_reducible refine erase_foldl_fst ?_ (fun _ _ => ?_)
    | dsimp only
    | split

theorem State.ledgers_er {m : Nat} {s : State} {u : State} {g : Nat} {t : Int} (he : erase m u = erase m s) (hw : within 513 m = true := by decide) :
    erase m (State.ledgers u g t) = erase m s := by
  refine (erase_mono (m := 513) hw ?_).trans he
  unfold State.ledgers
  repeat' first
    | with_reducible rfl
    | with_reducible assumption
    | with_reducible refine State.wr_er ?_
    | with_reducible refine erase_foldl ?_ (fun _ _ => ?_)
    | with_reducible refine erase_foldl_fst ?_ (fun _ _ => ?_)
    | with_reducible refine erase_of_fst (by assumption) ?_
    | dsimp only
    | split
    | with_reducible refine upd_floor_er ?_

theorem State.frameAnc_er {m : Nat} {s : State} {u : State} {o : Nat} {hancRoom : Nat} {vancRoom : Nat} (he : erase m u = erase m s) (hw : within 8388689 m = true := by decide) :
    erase m (State.frameAnc u o hancRoom vancRoom) = erase m s := by
  refine (erase_mono (m := 8388689) hw ?_).trans he
  unfold State.frameAnc
  repeat' first
    | with_reducible rfl
    | with_reducible assumption
    | with_reducible refine State.pidInsert_er ?_
    | with_reducible refine State.ancOut_er ?_
    | with_reducible refine State.embControl_er ?_
    | with_reducible refine State.ancTake_er ?_
    | with_reducible refine State.ancPlace_er ?_
    | with_reducible refine erase_ite ?_ ?_
    | dsimp only
    | split

theorem State.runFrame_er {m : Nat} {s : State} {u : State} {o : Nat} {t : Int} {hancRoom : Nat} {vancRoom : Nat} (he : erase m u = erase m s) (hw : within 8397393 m = true := by decide) :
    erase m (State.runFrame u o t hancRoom vancRoom) = erase m s := by
  refine (erase_mono (m := 8397393) hw ?_).trans he
  unfold State.runFrame
  repeat' first
    | with_reducible rfl
    | with_reducible assumption
    | with_reducible refine State.embLatch_er ?_
    | with_reducible refine State.put_er ?_
    | with_reducible refine State.frameAnc_er ?_
    | with_reducible refine State.ledgers_er ?_
    | with_reducible refine State.clipRoll_er ?_
    | with_reducible refine State.rqRefresh_er ?_
    | with_reducible refine erase_foldl ?_ (fun _ _ => ?_)
    | with_reducible refine erase_foldl_fst ?_ (fun _ _ => ?_)

theorem State.blackFrame_er {m : Nat} {s : State} {u : State} {o : Nat} (he : erase m u = erase m s) (hw : within 8388689 m = true := by decide) :
    erase m (State.blackFrame u o) = erase m s := by
  refine (erase_mono (m := 8388689) hw ?_).trans he
  unfold State.blackFrame
  repeat' first
    | with_reducible rfl
    | with_reducible assumption
    | with_reducible refine State.setTx_er ?_
    | with_reducible refine State.outSend_er ?_
    | with_reducible refine State.embLatch_er ?_
    | with_reducible refine State.pidInsert_er ?_
    | with_reducible refine State.embControl_er ?_
    | with_reducible refine erase_ite ?_ ?_
    | dsimp only
    | split

theorem State.quietFrame_er {m : Nat} {s : State} {u : State} {o : Nat} (he : erase m u = erase m s) (hw : within 8388689 m = true := by decide) :
    erase m (State.quietFrame u o) = erase m s := by
  refine (erase_mono (m := 8388689) hw ?_).trans he
  unfold State.quietFrame
  repeat' first
    | with_reducible rfl
    | with_reducible assumption
    | with_reducible refine State.setTx_er ?_
    | with_reducible refine State.outSend_er ?_
    | with_reducible refine State.pidInsert_er ?_
    | with_reducible refine State.embControl_er ?_
    | with_reducible refine erase_ite ?_ ?_
    | dsimp only
    | split

theorem State.sendLine_er {m : Nat} {s : State} {u : State} {g : Nat} {y : Nat} {l : List Nat} (he : erase m u = erase m s) (hw : within 8388672 m = true := by decide) :
    erase m (State.sendLine u g y l) = erase m s := by
  refine (erase_mono (m := 8388672) hw ?_).trans he
  unfold State.sendLine
  repeat' first
    | with_reducible rfl
    | with_reducible assumption
    | with_reducible refine State.emit_er ?_
    | with_reducible refine State.edhTake_er ?_
    | with_reducible refine erase_ite ?_ ?_
    | dsimp only
    | split

theorem State.embLine_er {m : Nat} {s : State} {u : State} {g : Nat} {n : Nat} {silent : Bool} {late : List Nat} (he : erase m u = erase m s) (hw : within 8396817 m = true := by decide) :
    erase m (State.embLine u g n silent late) = erase m s := by
  refine (erase_mono (m := 8396817) hw ?_).trans he
  unfold State.embLine
  repeat' first
    | with_reducible rfl
    | with_reducible assumption
    | with_reducible refine State.modAud_er ?_
    | with_reducible refine State.bump_er ?_
    | with_reducible refine State.raise_er ?_
    | with_reducible refine State.emit_er ?_
    | with_reducible refine erase_ite ?_ ?_
    | with_reducible refine erase_foldl ?_ (fun _ _ => ?_)
    | with_reducible refine erase_foldl_fst ?_ (fun _ _ => ?_)
    | dsimp only
    | split

theorem State.showLines_er {m : Nat} {s : State} {u : State} {o : Nat} {w : Word} {ready : Bool} {l : List (Nat × List Nat)} (he : erase m u = erase m s) (hw : within 8388689 m = true := by decide) :
    erase m (State.showLines u o w ready l) = erase m s := by
  refine (erase_mono (m := 8388689) hw ?_).trans he
  unfold State.showLines
  repeat' first
    | with_reducible rfl
    | with_reducible assumption
    | with_reducible refine State.sendLine_er ?_
    | with_reducible refine State.setTx_er ?_
    | with_reducible refine State.bump_er ?_
    | with_reducible refine State.raise_er ?_
    | with_reducible refine erase_ite ?_ ?_
    | with_reducible refine erase_foldl ?_ (fun _ _ => ?_)
    | with_reducible refine erase_foldl_fst ?_ (fun _ _ => ?_)
    | dsimp only
    | split

theorem State.wbLines_er {m : Nat} {s : State} {u : State} {o : Nat} {w : Word} {l : List (Nat × List Nat)} (he : erase m u = erase m s) (hw : within 8391168 m = true := by decide) :
    erase m (State.wbLines u o w l) = erase m s := by
  refine (erase_mono (m := 8391168) hw ?_).trans he
  unfold State.wbLines
  repeat' first
    | with_reducible rfl
    | with_reducible assumption
    | with_reducible refine State.emit_er ?_
    | with_reducible refine State.lineOut_er ?_
    | with_reducible refine State.setComp_er ?_
    | with_reducible refine erase_foldl ?_ (fun _ _ => ?_)
    | with_reducible refine erase_foldl_fst ?_ (fun _ _ => ?_)

theorem State.runLine_er {m : Nat} {s : State} {u : State} {o : Nat} {line : Nat} {w : Word} {complete : Bool} {late : List Nat} (he : erase m u = erase m s) (hw : within 8400465 m = true := by decide) :
    erase m (State.runLine u o line w complete late) = erase m s := by
  refine (erase_mono (m := 8400465) hw ?_).trans he
  unfold State.runLine
  repeat' first
    | with_reducible rfl
    | with_reducible assumption
    | with_reducible refine State.showLines_er ?_
    | with_reducible refine State.wbLines_er ?_
    | with_reducible refine State.embLine_er ?_
    | with_reducible refine State.readersDone_er ?_
    | with_reducible refine erase_ite ?_ ?_
    | dsimp only
    | split

theorem State.blankLine_er {m : Nat} {s : State} {u : State} {o : Nat} {n : Nat} {silent : Bool} {late : List Nat} (he : erase m u = erase m s) (hw : within 8396881 m = true := by decide) :
    erase m (State.blankLine u o n silent late) = erase m s := by
  refine (erase_mono (m := 8396881) hw ?_).trans he
  unfold State.blankLine
  repeat' first
    | with_reducible rfl
    | with_reducible assumption
    | with_reducible refine State.emit_er ?_
    | with_reducible refine State.edhTake_er ?_
    | with_reducible refine State.edhInsert_er ?_
    | with_reducible refine State.embLine_er ?_
    | with_reducible refine erase_ite ?_ ?_
    | with_reducible refine erase_foldl ?_ (fun _ _ => ?_)
    | with_reducible refine erase_foldl_fst ?_ (fun _ _ => ?_)
    | dsimp only
    | split

end Sys2Proof.Machine
end

