-- ==== Sys2Proof/Laws/FrameCheck.lean ====
section
/-! SUPPORT. Frames of the operations of Machine/Check.lean. -/

set_option Elab.async false

namespace Sys2Proof.Machine

theorem State.planned_er {m : Nat} {s : State} {u : State} {extra : List (Nat × Word)} (he : erase m u = erase m s) (hw : within 5131 m = true := by decide) :
    erase m (State.planned u extra) = erase m s := by
  refine (erase_mono (m := 5131) hw ?_).trans he
  unfold State.planned
  repeat' first
    | with_reducible rfl
    | with_reducible assumption
    | with_reducible refine State.applyStaging_er ?_
    | with_reducible refine State.put_er ?_
    | with_reducible refine State.releaseBins_er ?_
    | with_reducible refine State.setBins_er ?_
    | with_reducible refine State.ctxSettle_er ?_
    | with_reducible refine State.modSilo_er ?_
    | with_reducible refine erase_foldl ?_ (fun _ _ => ?_)
    | with_reducible refine erase_foldl_fst ?_ (fun _ _ => ?_)
    | with_reducible refine upd_grps_er ?_

theorem State.record_er {m : Nat} {s : State} {u : State} {n : Nat} {st : List (Nat × Word)} {x0 : Note} (he : erase m u = erase m s) (hw : within 17 m = true := by decide) :
    erase m (State.record u n st x0) = erase m s := by
  refine (erase_mono (m := 17) hw ?_).trans he
  unfold State.record
  repeat' first
    | with_reducible rfl
    | with_reducible assumption
    | with_reducible refine State.puts_er ?_
    | with_reducible refine State.raise_er ?_
    | with_reducible refine State.forAll_er ?_ (fun _ _ => ?_)
    | with_reducible refine State.put_er ?_
    | with_reducible refine erase_ite ?_ ?_
    | with_reducible refine erase_of_fst (by assumption) ?_
    | dsimp only
    | split

end Sys2Proof.Machine
end

