-- ==== Sys2Proof/Laws/FrameCommit.lean ====
section
/-! SUPPORT. Frames of the operations of Machine/Commit.lean. -/

set_option Elab.async false

namespace Sys2Proof.Machine

theorem State.cgBusy_er {m : Nat} {s : State} {u : State} {n : Nat} (he : erase m u = erase m s) (hw : within 1 m = true := by decide) :
    erase m (State.cgBusy u n) = erase m s := by
  refine (erase_mono (m := 1) hw ?_).trans he
  unfold State.cgBusy
  repeat' first
    | with_reducible rfl
    | with_reducible assumption
    | with_reducible refine State.put_er ?_

theorem State.pendings_er {m : Nat} {s : State} {u : State} {members : List Nat} (he : erase m u = erase m s) (hw : within 1 m = true := by decide) :
    erase m (State.pendings u members) = erase m s := by
  refine (erase_mono (m := 1) hw ?_).trans he
  unfold State.pendings
  repeat' first
    | with_reducible rfl
    | with_reducible assumption
    | with_reducible refine State.pendingRefresh_er ?_
    | with_reducible refine erase_foldl ?_ (fun _ _ => ?_)
    | with_reducible refine erase_foldl_fst ?_ (fun _ _ => ?_)

theorem State.refuseGroup_er {m : Nat} {s : State} {u : State} {n : Nat} {st : List (Nat × Word)} {e : Refused} (he : erase m u = erase m s) (hw : within 25 m = true := by decide) :
    erase m (State.refuseGroup u n st e) = erase m s := by
  refine (erase_mono (m := 25) hw ?_).trans he
  unfold State.refuseGroup
  repeat' first
    | with_reducible rfl
    | with_reducible assumption
    | with_reducible refine State.record_er ?_
    | with_reducible refine State.puts_er ?_
    | with_reducible refine State.groupEnd_er ?_
    | with_reducible refine State.raise_er ?_

theorem State.armGroup_er {m : Nat} {s : State} {u : State} {n : Nat} {us : Nat} (he : erase m u = erase m s) (hw : within 25 m = true := by decide) :
    erase m (State.armGroup u n us) = erase m s := by
  refine (erase_mono (m := 25) hw ?_).trans he
  unfold State.armGroup
  repeat' first
    | with_reducible rfl
    | with_reducible assumption
    | with_reducible refine State.cgBusy_er ?_
    | with_reducible refine State.put_er ?_
    | with_reducible refine State.puts_er ?_
    | with_reducible refine State.setGrp_er ?_
    | with_reducible refine State.pendings_er ?_
    | with_reducible refine State.refuseGroup_er ?_
    | with_reducible refine State.raiseIf_er ?_
    | with_reducible refine erase_ite ?_ ?_
    | dsimp only
    | split

theorem State.commitGroup_er {m : Nat} {s : State} {u : State} {b : Nat} {n : Nat} (he : erase m u = erase m s) (hw : within 1 m = true := by decide) :
    erase m (State.commitGroup u b n) = erase m s := by
  refine (erase_mono (m := 1) hw ?_).trans he
  unfold State.commitGroup
  repeat' first
    | with_reducible rfl
    | with_reducible assumption
    | with_reducible refine State.refuseDirect_er ?_
    | with_reducible refine State.put_er ?_
    | with_reducible refine erase_ite ?_ ?_
    | dsimp only
    | split

theorem State.joinCtx_er {m : Nat} {s : State} {u : State} {q : State} {entry : Nat} {mark : Nat} (he : erase m u = erase m s) (hw : within 4113 m = true := by decide) :
    erase m (State.joinCtx u q entry mark) = erase m s := by
  refine (erase_mono (m := 4113) hw ?_).trans he
  unfold State.joinCtx
  repeat' first
    | with_reducible rfl
    | with_reducible assumption
    | with_reducible refine State.setCtx_er ?_
    | with_reducible refine State.ctxRefresh_er ?_
    | with_reducible refine State.newCtx_er ?_
    | with_reducible refine erase_ite ?_ ?_
    | with_reducible refine erase_of_fst (by assumption) ?_
    | dsimp only
    | split

theorem State.reserve_er {m : Nat} {s : State} {u : State} {n : Nat} {l : List (Nat × (Nat × List Nat))} (he : erase m u = erase m s) (hw : within 1024 m = true := by decide) :
    erase m (State.reserve u n l) = erase m s := by
  refine (erase_mono (m := 1024) hw ?_).trans he
  unfold State.reserve
  repeat' first
    | with_reducible rfl
    | with_reducible assumption
    | with_reducible refine State.modSilo_er ?_

theorem State.acceptGroup_er {m : Nat} {s : State} {u : State} {n : Nat} {st : List (Nat × Word)} {q : State} {bins : List (Nat × (Nat × List Nat))} (he : erase m u = erase m s) (hw : within 8394269 m = true := by decide) :
    erase m (State.acceptGroup u n st q bins) = erase m s := by
  refine (erase_mono (m := 8394269) hw ?_).trans he
  unfold State.acceptGroup
  repeat' first
    | with_reducible rfl
    | with_reducible assumption
    | with_reducible refine State.joinCtx_er ?_
    | with_reducible refine State.reserve_er ?_
    | with_reducible refine State.setRoute_er ?_
    | with_reducible refine State.setGrp_er ?_
    | with_reducible refine State.put_er ?_
    | with_reducible refine State.pendings_er ?_
    | with_reducible refine State.emit_er ?_
    | with_reducible refine erase_ite ?_ ?_
    | with_reducible refine erase_foldl ?_ (fun _ _ => ?_)
    | with_reducible refine erase_foldl_fst ?_ (fun _ _ => ?_)
    | dsimp only
    | split
    | with_reducible refine upd_tags_er ?_

theorem State.deferGroup_er {m : Nat} {s : State} {u : State} {n : Nat} (he : erase m u = erase m s) (hw : within 25 m = true := by decide) :
    erase m (State.deferGroup u n) = erase m s := by
  refine (erase_mono (m := 25) hw ?_).trans he
  unfold State.deferGroup
  repeat' first
    | with_reducible rfl
    | with_reducible assumption
    | with_reducible refine State.puts_er ?_
    | with_reducible refine State.setGrp_er ?_
    | with_reducible refine State.pendingRefresh_er ?_
    | with_reducible refine State.raiseIf_er ?_
    | with_reducible refine erase_foldl ?_ (fun _ _ => ?_)
    | with_reducible refine erase_foldl_fst ?_ (fun _ _ => ?_)

theorem State.cutGroup_er {m : Nat} {s : State} {u : State} {n : Nat} (he : erase m u = erase m s) (hw : within 8394271 m = true := by decide) :
    erase m (State.cutGroup u n) = erase m s := by
  refine (erase_mono (m := 8394271) hw ?_).trans he
  unfold State.cutGroup
  repeat' first
    | with_reducible rfl
    | with_reducible assumption
    | with_reducible refine State.setCgFrame_er ?_
    | with_reducible refine State.groupEnd_er ?_
    | with_reducible refine State.refuseGroup_er ?_
    | with_reducible refine State.deferGroup_er ?_
    | with_reducible refine State.acceptGroup_er ?_
    | with_reducible refine erase_ite ?_ ?_
    | with_reducible refine erase_of_fst (by assumption) ?_
    | dsimp only
    | split

theorem State.giveUp_er {m : Nat} {s : State} {u : State} {t : Nat} {i : Nat} (he : erase m u = erase m s) (hw : within 4096 m = true := by decide) :
    erase m (State.giveUp u t i) = erase m s := by
  refine (erase_mono (m := 4096) hw ?_).trans he
  unfold State.giveUp
  repeat' first
    | with_reducible rfl
    | with_reducible assumption
    | with_reducible refine erase_ite ?_ ?_
    | dsimp only
    | split
    | with_reducible refine upd_conv_er ?_

theorem State.suspend_er {m : Nat} {s : State} {u : State} {t : Nat} {i : Nat} {code : Nat} (he : erase m u = erase m s) (hw : within 5649 m = true := by decide) :
    erase m (State.suspend u t i code) = erase m s := by
  refine (erase_mono (m := 5649) hw ?_).trans he
  unfold State.suspend
  repeat' first
    | with_reducible rfl
    | with_reducible assumption
    | with_reducible refine State.puts_er ?_
    | with_reducible refine State.setRoute_er ?_
    | with_reducible refine State.storeStops_er ?_
    | with_reducible refine State.routeLeaves_er ?_
    | with_reducible refine State.routeEvent_er ?_
    | with_reducible refine erase_ite ?_ ?_
    | dsimp only
    | split

theorem State.routeBack_er {m : Nat} {s : State} {u : State} {t : Nat} {i : Nat} {q : State} {bins : List (Nat × (Nat × List Nat))} (he : erase m u = erase m s) (hw : within 16815633 m = true := by decide) :
    erase m (State.routeBack u t i q bins) = erase m s := by
  refine (erase_mono (m := 16815633) hw ?_).trans he
  unfold State.routeBack
  repeat' first
    | with_reducible rfl
    | with_reducible assumption
    | with_reducible refine State.giveUp_er ?_
    | with_reducible refine State.joinCtx_er ?_
    | with_reducible refine State.puts_er ?_
    | with_reducible refine State.reserve_er ?_
    | with_reducible refine State.takeOld_er ?_
    | with_reducible refine State.ringAccept_er ?_
    | with_reducible refine State.setRoute_er ?_
    | with_reducible refine erase_ite ?_ ?_
    | dsimp only
    | split

theorem State.recheckRoute_er {m : Nat} {s : State} {u : State} {t : Nat} {i : Nat} (he : erase m u = erase m s) (hw : within 16815643 m = true := by decide) :
    erase m (State.recheckRoute u t i) = erase m s := by
  refine (erase_mono (m := 16815643) hw ?_).trans he
  unfold State.recheckRoute
  repeat' first
    | with_reducible rfl
    | with_reducible assumption
    | with_reducible refine State.suspend_er ?_
    | with_reducible refine State.routeBack_er ?_
    | with_reducible refine State.routeEvent_er ?_
    | with_reducible refine erase_ite ?_ ?_
    | with_reducible refine erase_of_fst (by assumption) ?_
    | dsimp only
    | split

theorem State.recheckAll_er {m : Nat} {s : State} {u : State} {d : Nat} (he : erase m u = erase m s) (hw : within 16815643 m = true := by decide) :
    erase m (State.recheckAll u d) = erase m s := by
  refine (erase_mono (m := 16815643) hw ?_).trans he
  unfold State.recheckAll
  repeat' first
    | with_reducible rfl
    | with_reducible assumption
    | with_reducible refine State.recheckRoute_er ?_
    | with_reducible refine erase_ite ?_ ?_
    | with_reducible refine erase_foldl ?_ (fun _ _ => ?_)
    | with_reducible refine erase_foldl_fst ?_ (fun _ _ => ?_)
    | dsimp only
    | split

theorem State.restoreTry_er {m : Nat} {s : State} {u : State} {bySilo : Bool} {p : Nat × Nat} (he : erase m u = erase m s) (hw : within 16815643 m = true := by decide) :
    erase m (State.restoreTry u bySilo p) = erase m s := by
  refine (erase_mono (m := 16815643) hw ?_).trans he
  unfold State.restoreTry
  repeat' first
    | with_reducible rfl
    | with_reducible assumption
    | with_reducible refine State.planned_er ?_
    | with_reducible refine State.put_er ?_
    | with_reducible refine State.setRoute_er ?_
    | with_reducible refine State.routeBack_er ?_
    | with_reducible refine State.siloEvent_er ?_
    | with_reducible refine State.routeEvent_er ?_
    | with_reducible refine erase_ite ?_ ?_
    | with_reducible refine erase_of_fst (by assumption) ?_
    | dsimp only
    | split

theorem State.restoreShed_er {m : Nat} {s : State} {u : State} {d : Nat} (he : erase m u = erase m s) (hw : within 16815643 m = true := by decide) :
    erase m (State.restoreShed u d) = erase m s := by
  refine (erase_mono (m := 16815643) hw ?_).trans he
  unfold State.restoreShed
  repeat' first
    | with_reducible rfl
    | with_reducible assumption
    | with_reducible refine State.restoreTry_er ?_
    | with_reducible refine erase_ite ?_ ?_
    | with_reducible refine erase_foldl ?_ (fun _ _ => ?_)
    | with_reducible refine erase_foldl_fst ?_ (fun _ _ => ?_)
    | dsimp only
    | split

theorem State.keepTry_er {m : Nat} {s : State} {u : State} {d : Nat} (he : erase m u = erase m s) (hw : within 5131 m = true := by decide) :
    erase m (State.keepTry u d) = erase m s := by
  refine (erase_mono (m := 5131) hw ?_).trans he
  unfold State.keepTry
  repeat' first
    | with_reducible rfl
    | with_reducible assumption
    | with_reducible refine State.planned_er ?_
    | with_reducible refine State.reserve_er ?_
    | with_reducible refine erase_ite ?_ ?_
    | with_reducible refine erase_foldl ?_ (fun _ _ => ?_)
    | with_reducible refine erase_foldl_fst ?_ (fun _ _ => ?_)
    | with_reducible refine erase_of_fst (by assumption) ?_
    | dsimp only
    | split

theorem State.heldByRoute_er {m : Nat} {s : State} {u : State} {n : Nat} (he : erase m u = erase m s) (hw : within 2048 m = true := by decide) :
    erase m (State.heldByRoute u n) = erase m s := by
  refine (erase_mono (m := 2048) hw ?_).trans he
  unfold State.heldByRoute
  repeat' first
    | with_reducible rfl
    | with_reducible assumption
    | with_reducible refine State.setLayer_er ?_
    | with_reducible refine erase_ite ?_ ?_
    | with_reducible refine erase_foldl ?_ (fun _ _ => ?_)
    | with_reducible refine erase_foldl_fst ?_ (fun _ _ => ?_)
    | dsimp only
    | split

theorem State.tagAgain_er {m : Nat} {s : State} {u : State} {n : Nat} {st : List (Nat × Word)} (he : erase m u = erase m s) (hw : within 4 m = true := by decide) :
    erase m (State.tagAgain u n st) = erase m s := by
  refine (erase_mono (m := 4) hw ?_).trans he
  unfold State.tagAgain
  repeat' first
    | with_reducible rfl
    | with_reducible assumption
    | with_reducible refine erase_ite ?_ ?_
    | with_reducible refine erase_foldl ?_ (fun _ _ => ?_)
    | with_reducible refine erase_foldl_fst ?_ (fun _ _ => ?_)
    | dsimp only
    | split
    | with_reducible refine upd_tags_er ?_

theorem State.leaveJoins_er {m : Nat} {s : State} {u : State} {st : List (Nat × Word)} (he : erase m u = erase m s) (hw : within 4096 m = true := by decide) :
    erase m (State.leaveJoins u st) = erase m s := by
  refine (erase_mono (m := 4096) hw ?_).trans he
  unfold State.leaveJoins
  repeat' first
    | with_reducible rfl
    | with_reducible assumption
    | with_reducible refine upd_conv_er ?_

theorem State.cancelTake_er {m : Nat} {s : State} {u : State} {n : Nat} (he : erase m u = erase m s) (hw : within 8396317 m = true := by decide) :
    erase m (State.cancelTake u n) = erase m s := by
  refine (erase_mono (m := 8396317) hw ?_).trans he
  unfold State.cancelTake
  repeat' first
    | with_reducible rfl
    | with_reducible assumption
    | with_reducible refine State.tagAgain_er ?_
    | with_reducible refine State.leaveJoins_er ?_
    | with_reducible refine State.modSilo_er ?_
    | with_reducible refine State.setGrp_er ?_
    | with_reducible refine State.put_er ?_
    | with_reducible refine State.setRoute_er ?_
    | with_reducible refine State.forAll_er ?_ (fun _ _ => ?_)
    | with_reducible refine State.setLayer_er ?_
    | with_reducible refine State.dropCtxs_er ?_
    | with_reducible refine State.pendings_er ?_
    | with_reducible refine State.emit_er ?_
    | with_reducible refine State.raise_er ?_
    | with_reducible refine erase_ite ?_ ?_
    | with_reducible refine erase_foldl ?_ (fun _ _ => ?_)
    | with_reducible refine erase_foldl_fst ?_ (fun _ _ => ?_)
    | dsimp only
    | split

theorem State.audTaken_er {m : Nat} {s : State} {u : State} {w : List (Nat × Word)} (he : erase m u = erase m s) (hw : within 8209 m = true := by decide) :
    erase m (State.audTaken u w) = erase m s := by
  refine (erase_mono (m := 8209) hw ?_).trans he
  unfold State.audTaken
  repeat' first
    | with_reducible rfl
    | with_reducible assumption
    | with_reducible refine State.setActx_er ?_
    | with_reducible refine State.embRefresh_er ?_
    | with_reducible refine State.modAud_er ?_
    | with_reducible refine State.audCounts_er ?_
    | with_reducible refine State.rqRefresh_er ?_
    | with_reducible refine erase_ite ?_ ?_
    | with_reducible refine erase_foldl ?_ (fun _ _ => ?_)
    | with_reducible refine erase_foldl_fst ?_ (fun _ _ => ?_)
    | with_reducible refine erase_of_fst (by assumption) ?_
    | dsimp only
    | split

theorem State.storesTaken_er {m : Nat} {s : State} {u : State} {old : State} {l : List Nat} (he : erase m u = erase m s) (hw : within 5649 m = true := by decide) :
    erase m (State.storesTaken u old l).1 = erase m s := by
  refine (erase_mono (m := 5649) hw ?_).trans he
  unfold State.storesTaken
  repeat' first
    | with_reducible rfl
    | with_reducible assumption
    | with_reducible refine State.setRing_er ?_
    | with_reducible refine State.routesLose_er ?_
    | with_reducible refine State.contextsHold_er ?_
    | with_reducible refine erase_ite ?_ ?_
    | with_reducible refine erase_foldl ?_ (fun _ _ => ?_)
    | with_reducible refine erase_foldl_fst ?_ (fun _ _ => ?_)
    | with_reducible refine erase_ite_fst ?_ ?_
    | dsimp only
    | split

theorem State.capturesTaken_er {m : Nat} {s : State} {u : State} {old : State} {l : List Nat} (he : erase m u = erase m s) (hw : within 1024 m = true := by decide) :
    erase m (State.capturesTaken u old l) = erase m s := by
  refine (erase_mono (m := 1024) hw ?_).trans he
  unfold State.capturesTaken
  repeat' first
    | with_reducible rfl
    | with_reducible assumption
    | with_reducible refine State.setRing_er ?_
    | with_reducible refine erase_ite ?_ ?_
    | with_reducible refine erase_foldl ?_ (fun _ _ => ?_)
    | with_reducible refine erase_foldl_fst ?_ (fun _ _ => ?_)
    | dsimp only
    | split

theorem State.freezeTaken_er {m : Nat} {s : State} {u : State} {old : State} {codes : List Nat} (he : erase m u = erase m s) (hw : within 529 m = true := by decide) :
    erase m (State.freezeTaken u old codes) = erase m s := by
  refine (erase_mono (m := 529) hw ?_).trans he
  unfold State.freezeTaken
  repeat' first
    | with_reducible rfl
    | with_reducible assumption
    | with_reducible refine State.puts_er ?_
    | with_reducible refine State.setRoute_er ?_
    | with_reducible refine State.latencyChange_er ?_
    | with_reducible refine State.put_er ?_
    | with_reducible refine erase_ite ?_ ?_
    | with_reducible refine erase_foldl ?_ (fun _ _ => ?_)
    | with_reducible refine erase_foldl_fst ?_ (fun _ _ => ?_)
    | dsimp only
    | split

theorem State.takePulse_er {m : Nat} {s : State} {u : State} {d : Nat} (he : erase m u = erase m s) (hw : within 16842267 m = true := by decide) :
    erase m (State.takePulse u d) = erase m s := by
  refine (erase_mono (m := 16842267) hw ?_).trans he
  unfold State.takePulse
  repeat' first
    | with_reducible rfl
    | with_reducible assumption
    | with_reducible refine State.surfaceAnew_er ?_
    | with_reducible refine State.takePart_er ?_
    | with_reducible refine State.ipTaken_er ?_
    | with_reducible refine State.storesTaken_er ?_
    | with_reducible refine State.takeBins_er ?_
    | with_reducible refine State.takeKept_er ?_
    | with_reducible refine State.capturesTaken_er ?_
    | with_reducible refine State.routeTaken_er ?_
    | with_reducible refine State.freezeTaken_er ?_
    | with_reducible refine State.ringAccept_er ?_
    | with_reducible refine State.siloStat_er ?_
    | with_reducible refine State.composerTake_er ?_
    | with_reducible refine State.asrcSettle_er ?_
    | with_reducible refine State.audTaken_er ?_
    | with_reducible refine State.routeDue_er ?_
    | with_reducible refine State.dropCtxs_er ?_
    | with_reducible refine State.dropRings_er ?_
    | with_reducible refine State.layerStats_er ?_
    | with_reducible refine erase_ite ?_ ?_
    | with_reducible refine erase_foldl ?_ (fun _ _ => ?_)
    | with_reducible refine erase_foldl_fst ?_ (fun _ _ => ?_)
    | dsimp only
    | split

theorem State.releasePulse_er {m : Nat} {s : State} {u : State} {d : Nat} (he : erase m u = erase m s) (hw : within 16815121 m = true := by decide) :
    erase m (State.releasePulse u d) = erase m s := by
  refine (erase_mono (m := 16815121) hw ?_).trans he
  unfold State.releasePulse
  repeat' first
    | with_reducible rfl
    | with_reducible assumption
    | with_reducible refine State.modSilo_er ?_
    | with_reducible refine State.tagBins_er ?_
    | with_reducible refine State.freeCtx_er ?_
    | with_reducible refine State.setCtx_er ?_
    | with_reducible refine erase_ite ?_ ?_
    | with_reducible refine erase_foldl ?_ (fun _ _ => ?_)
    | with_reducible refine erase_foldl_fst ?_ (fun _ _ => ?_)
    | with_reducible refine erase_of_fst (by assumption) ?_
    | dsimp only
    | split

theorem State.domainStop_er {m : Nat} {s : State} {u : State} {d : Nat} (he : erase m u = erase m s) (hw : within 5977 m = true := by decide) :
    erase m (State.domainStop u d) = erase m s := by
  refine (erase_mono (m := 5977) hw ?_).trans he
  unfold State.domainStop
  repeat' first
    | with_reducible rfl
    | with_reducible assumption
    | with_reducible refine State.put_er ?_
    | with_reducible refine State.setTd_er ?_
    | with_reducible refine State.forAll_er ?_ (fun _ _ => ?_)
    | with_reducible refine State.setTx_er ?_
    | with_reducible refine State.outStop_er ?_
    | with_reducible refine State.refuseGroup_er ?_
    | with_reducible refine State.tdStart_er ?_
    | with_reducible refine erase_ite ?_ ?_
    | dsimp only
    | split

theorem State.pulseAlign_er {m : Nat} {s : State} {u : State} {d : Nat} {fromPoint : Int} (he : erase m u = erase m s) (hw : within 337 m = true := by decide) :
    erase m (State.pulseAlign u d fromPoint) = erase m s := by
  refine (erase_mono (m := 337) hw ?_).trans he
  unfold State.pulseAlign
  repeat' first
    | with_reducible rfl
    | with_reducible assumption
    | with_reducible refine State.setTd_er ?_
    | with_reducible refine State.puts_er ?_
    | with_reducible refine State.raiseIf_er ?_
    | with_reducible refine State.forAll_er ?_ (fun _ _ => ?_)
    | with_reducible refine State.outResume_er ?_
    | with_reducible refine State.tdMeasure_er ?_
    | with_reducible refine State.put_er ?_
    | with_reducible refine erase_ite ?_ ?_
    | dsimp only
    | split

theorem State.framePulse_er {m : Nat} {s : State} {u : State} {d : Nat} {fromPoint : Int} (he : erase m u = erase m s) (hw : within 25231199 m = true := by decide) :
    erase m (State.framePulse u d fromPoint) = erase m s := by
  refine (erase_mono (m := 25231199) hw ?_).trans he
  unfold State.framePulse
  repeat' first
    | with_reducible rfl
    | with_reducible assumption
    | with_reducible refine State.forAll_er ?_ (fun _ _ => ?_)
    | with_reducible refine State.put_er ?_
    | with_reducible refine State.fenceConfirm_er ?_
    | with_reducible refine State.heldByRoute_er ?_
    | with_reducible refine State.cancelTake_er ?_
    | with_reducible refine State.setTd_er ?_
    | with_reducible refine State.takePulse_er ?_
    | with_reducible refine State.releasePulse_er ?_
    | with_reducible refine State.clipRoll_er ?_
    | with_reducible refine State.pulseAlign_er ?_
    | with_reducible refine State.groupsDone_er ?_
    | with_reducible refine State.domainStop_er ?_
    | with_reducible refine State.sumsRefresh_er ?_
    | with_reducible refine State.floorLive_er ?_
    | with_reducible refine erase_ite ?_ ?_
    | with_reducible refine erase_foldl ?_ (fun _ _ => ?_)
    | with_reducible refine erase_foldl_fst ?_ (fun _ _ => ?_)
    | dsimp only
    | split

end Sys2Proof.Machine
end

