-- ==== Sys2Proof/Laws/FrameWrites.lean ====
section
/-! SUPPORT. Frames of the operations of Machine/Writes.lean. -/

set_option Elab.async false

namespace Sys2Proof.Machine

theorem State.logRefresh_er {m : Nat} {s : State} {u : State} (he : erase m u = erase m s) (hw : within 1 m = true := by decide) :
    erase m (State.logRefresh u) = erase m s := by
  refine (erase_mono (m := 1) hw ?_).trans he
  unfold State.logRefresh
  repeat' first
    | with_reducible rfl
    | with_reducible assumption
    | with_reducible refine State.forAll_er ?_ (fun _ _ => ?_)
    | with_reducible refine State.wr_er ?_
    | with_reducible refine State.put_er ?_

theorem State.yfRefresh_er {m : Nat} {s : State} {u : State} (he : erase m u = erase m s) (hw : within 17 m = true := by decide) :
    erase m (State.yfRefresh u) = erase m s := by
  refine (erase_mono (m := 17) hw ?_).trans he
  unfold State.yfRefresh
  repeat' first
    | with_reducible rfl
    | with_reducible assumption
    | with_reducible refine State.raiseIf_er ?_
    | with_reducible refine State.live_er ?_

theorem State.ptpConfigured_er {m : Nat} {s : State} {u : State} {n : Nat} {old : Word} (he : erase m u = erase m s) (hw : within 16529 m = true := by decide) :
    erase m (State.ptpConfigured u n old) = erase m s := by
  refine (erase_mono (m := 16529) hw ?_).trans he
  unfold State.ptpConfigured
  repeat' first
    | with_reducible rfl
    | with_reducible assumption
    | with_reducible refine State.candLost_er ?_
    | with_reducible refine State.setPtp_er ?_
    | with_reducible refine State.put_er ?_
    | with_reducible refine State.ptpState_er ?_
    | with_reducible refine State.ptpSelect_er ?_
    | with_reducible refine erase_ite ?_ ?_
    | dsimp only
    | split

theorem State.tcConfigured_er {m : Nat} {s : State} {u : State} (he : erase m u = erase m s) (hw : within 145 m = true := by decide) :
    erase m (State.tcConfigured u) = erase m s := by
  refine (erase_mono (m := 145) hw ?_).trans he
  unfold State.tcConfigured
  repeat' first
    | with_reducible rfl
    | with_reducible assumption
    | with_reducible refine State.trackBwChanged_er ?_
    | with_reducible refine State.forAll_er ?_ (fun _ _ => ?_)
    | with_reducible refine State.candLost_er ?_
    | with_reducible refine State.requal_er ?_
    | with_reducible refine State.tempRefresh_er ?_
    | with_reducible refine State.tcRefresh_er ?_
    | with_reducible refine erase_ite ?_ ?_
    | dsimp only
    | split

theorem State.afterGranary_er {m : Nat} {s : State} {u : State} {a : Nat} {old : Word} (he : erase m u = erase m s) (hw : within 9520273 m = true := by decide) :
    erase m (State.afterGranary u a old) = erase m s := by
  refine (erase_mono (m := 9520273) hw ?_).trans he
  unfold State.afterGranary
  repeat' first
    | with_reducible rfl
    | with_reducible assumption
    | with_reducible refine State.setEvg_er ?_
    | with_reducible refine State.refreshVecs_er ?_
    | with_reducible refine State.tcConfigured_er ?_
    | with_reducible refine State.limitRefresh_er ?_
    | with_reducible refine State.poisonRefresh_er ?_
    | with_reducible refine State.sumsRefresh_er ?_
    | with_reducible refine State.ptpConfigured_er ?_
    | with_reducible refine State.rqRefresh_er ?_
    | with_reducible refine State.poolRefresh_er ?_
    | with_reducible refine State.nvRefresh_er ?_
    | with_reducible refine State.busGo_er ?_
    | with_reducible refine State.logRefresh_er ?_
    | with_reducible refine State.yfRefresh_er ?_
    | with_reducible refine erase_ite ?_ ?_
    | with_reducible refine erase_foldl ?_ (fun _ _ => ?_)
    | with_reducible refine erase_foldl_fst ?_ (fun _ _ => ?_)
    | dsimp only
    | split
    | with_reducible refine upd_mg_er ?_

theorem State.afterWrite_er {m : Nat} {s : State} {u : State} {a : Nat} {old : Word} (he : erase m u = erase m s) (hw : within 9520273 m = true := by decide) :
    erase m (State.afterWrite u a old) = erase m s := by
  refine (erase_mono (m := 9520273) hw ?_).trans he
  unfold State.afterWrite
  repeat' first
    | with_reducible rfl
    | with_reducible assumption
    | with_reducible refine State.refreshBlock_er ?_
    | with_reducible refine State.afterGranary_er ?_
    | with_reducible refine State.embRefresh_er ?_
    | with_reducible refine erase_ite ?_ ?_
    | dsimp only
    | split

theorem State.directPut_er {m : Nat} {s : State} {u : State} {m1 : Bool} {a : Nat} {r : Row} {v : Word} (he : erase m u = erase m s) (hw : within 9520273 m = true := by decide) :
    erase m (State.directPut u m1 a r v) = erase m s := by
  refine (erase_mono (m := 9520273) hw ?_).trans he
  unfold State.directPut
  repeat' first
    | with_reducible rfl
    | with_reducible assumption
    | with_reducible refine State.wr_er ?_
    | with_reducible refine State.afterWrite_er ?_
    | with_reducible refine erase_ite ?_ ?_
    | dsimp only
    | split

theorem State.regWrite_er {m : Nat} {s : State} {u : State} {m1 : Bool} {a : Nat} {v : Word} (he : erase m u = erase m s) (hw : within 9520273 m = true := by decide) :
    erase m (State.regWrite u m1 a v) = erase m s := by
  refine (erase_mono (m := 9520273) hw ?_).trans he
  unfold State.regWrite
  repeat' first
    | with_reducible rfl
    | with_reducible assumption
    | with_reducible refine State.wr_er ?_
    | with_reducible refine State.put_er ?_
    | with_reducible refine State.live_er ?_
    | with_reducible refine State.raise_er ?_
    | with_reducible refine State.directPut_er ?_
    | with_reducible refine erase_ite ?_ ?_
    | with_reducible refine erase_of_fst (by assumption) ?_
    | dsimp only
    | split

theorem State.refuseStruct_er {m : Nat} {s : State} {u : State} {base : Nat} (he : erase m u = erase m s) (hw : within 17 m = true := by decide) :
    erase m (State.refuseStruct u base) = erase m s := by
  refine (erase_mono (m := 17) hw ?_).trans he
  unfold State.refuseStruct
  repeat' first
    | with_reducible rfl
    | with_reducible assumption
    | with_reducible refine State.refuseDirect_er ?_
    | with_reducible refine State.raise_er ?_

theorem State.inBondChanged_er {m : Nat} {s : State} {u : State} {q : Nat} (he : erase m u = erase m s) (hw : within 5809 m = true := by decide) :
    erase m (State.inBondChanged u q) = erase m s := by
  refine (erase_mono (m := 5809) hw ?_).trans he
  unfold State.inBondChanged
  repeat' first
    | with_reducible rfl
    | with_reducible assumption
    | with_reducible refine State.forAll_er ?_ (fun _ _ => ?_)
    | with_reducible refine State.rxLoss_er ?_
    | with_reducible refine State.setRx_er ?_
    | with_reducible refine State.put_er ?_
    | with_reducible refine erase_ite ?_ ?_
    | dsimp only
    | split

theorem State.outBondChanged_er {m : Nat} {s : State} {u : State} {q : Nat} (he : erase m u = erase m s) (hw : within 81 m = true := by decide) :
    erase m (State.outBondChanged u q) = erase m s := by
  refine (erase_mono (m := 81) hw ?_).trans he
  unfold State.outBondChanged
  repeat' first
    | with_reducible rfl
    | with_reducible assumption
    | with_reducible refine State.forAll_er ?_ (fun _ _ => ?_)
    | with_reducible refine State.put_er ?_
    | with_reducible refine State.setTx_er ?_
    | with_reducible refine State.outSend_er ?_
    | with_reducible refine erase_ite ?_ ?_
    | dsimp only
    | split

theorem State.afterStruct_er {m : Nat} {s : State} {u : State} {kind : Nat} {base : Nat} {a : Nat} {old : Word} {changed : Bool} (he : erase m u = erase m s) (hw : within 5873 m = true := by decide) :
    erase m (State.afterStruct u kind base a old changed) = erase m s := by
  refine (erase_mono (m := 5873) hw ?_).trans he
  unfold State.afterStruct
  repeat' first
    | with_reducible rfl
    | with_reducible assumption
    | with_reducible refine State.inBondChanged_er ?_
    | with_reducible refine State.outCfgChanged_er ?_
    | with_reducible refine State.outBondChanged_er ?_
    | with_reducible refine State.embRefresh_er ?_
    | with_reducible refine State.sumsRefresh_er ?_
    | with_reducible refine State.tcRefresh_er ?_
    | with_reducible refine erase_ite ?_ ?_
    | with_reducible refine erase_of_fst (by assumption) ?_
    | dsimp only
    | split

theorem State.structWrite_er {m : Nat} {s : State} {u : State} {a : Nat} {v : Word} (he : erase m u = erase m s) (hw : within 5873 m = true := by decide) :
    erase m (State.structWrite u a v) = erase m s := by
  refine (erase_mono (m := 5873) hw ?_).trans he
  unfold State.structWrite
  repeat' first
    | with_reducible rfl
    | with_reducible assumption
    | with_reducible refine State.refuseStruct_er ?_
    | with_reducible refine State.wr_er ?_
    | with_reducible refine State.afterStruct_er ?_
    | with_reducible refine erase_ite ?_ ?_
    | with_reducible refine erase_of_fst (by assumption) ?_
    | dsimp only
    | split

theorem State.requestStop_er {m : Nat} {s : State} {u : State} {base : Nat} (he : erase m u = erase m s) (hw : within 1 m = true := by decide) :
    erase m (State.requestStop u base) = erase m s := by
  refine (erase_mono (m := 1) hw ?_).trans he
  unfold State.requestStop
  repeat' first
    | with_reducible rfl
    | with_reducible assumption
    | with_reducible refine State.put_er ?_
    | with_reducible refine erase_ite ?_ ?_
    | dsimp only
    | split

theorem State.clearRun_er {m : Nat} {s : State} {u : State} {kind : Nat} {base : Nat} (he : erase m u = erase m s) (hw : within 81 m = true := by decide) :
    erase m (State.clearRun u kind base) = erase m s := by
  refine (erase_mono (m := 81) hw ?_).trans he
  unfold State.clearRun
  repeat' first
    | with_reducible rfl
    | with_reducible assumption
    | with_reducible refine State.requestStop_er ?_
    | with_reducible refine State.outHalt_er ?_
    | with_reducible refine State.refuseStruct_er ?_
    | with_reducible refine erase_ite ?_ ?_
    | with_reducible refine erase_of_fst (by assumption) ?_
    | dsimp only
    | split

theorem State.memRun_er {m : Nat} {s : State} {u : State} (he : erase m u = erase m s) (hw : within 33809 m = true := by decide) :
    erase m (State.memRun u) = erase m s := by
  refine (erase_mono (m := 33809) hw ?_).trans he
  unfold State.memRun
  repeat' first
    | with_reducible rfl
    | with_reducible assumption
    | with_reducible refine State.puts_er ?_
    | with_reducible refine State.forAll_er ?_ (fun _ _ => ?_)
    | with_reducible refine State.modMem_er ?_
    | with_reducible refine State.put_er ?_
    | with_reducible refine State.memRefresh_er ?_
    | with_reducible refine upd_silo_er ?_

theorem State.blockStart_er {m : Nat} {s : State} {u : State} {base : Nat} (he : erase m u = erase m s) (hw : within 33809 m = true := by decide) :
    erase m (State.blockStart u base) = erase m s := by
  refine (erase_mono (m := 33809) hw ?_).trans he
  unfold State.blockStart
  repeat' first
    | with_reducible rfl
    | with_reducible assumption
    | with_reducible refine State.memRun_er ?_
    | with_reducible refine State.puts_er ?_
    | with_reducible refine erase_ite ?_ ?_
    | dsimp only
    | split

theorem State.blockRun_er {m : Nat} {s : State} {u : State} {base : Nat} (he : erase m u = erase m s) (hw : within 33809 m = true := by decide) :
    erase m (State.blockRun u base) = erase m s := by
  refine (erase_mono (m := 33809) hw ?_).trans he
  unfold State.blockRun
  repeat' first
    | with_reducible rfl
    | with_reducible assumption
    | with_reducible refine State.put_er ?_
    | with_reducible refine State.blockStart_er ?_
    | with_reducible refine erase_ite ?_ ?_
    | dsimp only
    | split

theorem State.afterStop_er {m : Nat} {s : State} {u : State} {kind : Nat} {base : Nat} (he : erase m u = erase m s) (hw : within 5809 m = true := by decide) :
    erase m (State.afterStop u kind base) = erase m s := by
  refine (erase_mono (m := 5809) hw ?_).trans he
  unfold State.afterStop
  repeat' first
    | with_reducible rfl
    | with_reducible assumption
    | with_reducible refine State.pipeStops_er ?_
    | with_reducible refine State.candLost_er ?_
    | with_reducible refine State.forAll_er ?_ (fun _ _ => ?_)
    | with_reducible refine State.put_er ?_
    | with_reducible refine erase_ite ?_ ?_
    | with_reducible refine erase_of_fst (by assumption) ?_
    | dsimp only
    | split

theorem State.blockStops_er {m : Nat} {s : State} {u : State} {kind : Nat} {base : Nat} (he : erase m u = erase m s) (hw : within 38641 m = true := by decide) :
    erase m (State.blockStops u kind base) = erase m s := by
  refine (erase_mono (m := 38641) hw ?_).trans he
  unfold State.blockStops
  repeat' first
    | with_reducible rfl
    | with_reducible assumption
    | with_reducible refine State.outStop_er ?_
    | with_reducible refine State.puts_er ?_
    | with_reducible refine State.afterStop_er ?_
    | with_reducible refine State.blockStart_er ?_
    | with_reducible refine erase_ite ?_ ?_
    | dsimp only
    | split

theorem State.setRun_er {m : Nat} {s : State} {u : State} {kind : Nat} {base : Nat} (he : erase m u = erase m s) (hw : within 33873 m = true := by decide) :
    erase m (State.setRun u kind base) = erase m s := by
  refine (erase_mono (m := 33873) hw ?_).trans he
  unfold State.setRun
  repeat' first
    | with_reducible rfl
    | with_reducible assumption
    | with_reducible refine State.blockRun_er ?_
    | with_reducible refine State.outRun_er ?_
    | with_reducible refine erase_ite ?_ ?_
    | with_reducible refine erase_of_fst (by assumption) ?_
    | dsimp only
    | split

theorem State.clearBlock_er {m : Nat} {s u : State} {d : Nat} (he : erase m u = erase m s) (hw : within 7 m = true := by decide) :
    erase m (State.clearBlock u d) = erase m s := by
  refine (erase_mono (m := 7) hw ?_).trans he
  apply erase_of_parts <;> first | exact .inr rfl | exact .inl (by decide)

theorem State.afterReset_er {m : Nat} {s : State} {u : State} {old : State} {kind : Nat} {base : Nat} (he : erase m u = erase m s) (hw : within 24305 m = true := by decide) :
    erase m (State.afterReset u old kind base) = erase m s := by
  refine (erase_mono (m := 24305) hw ?_).trans he
  unfold State.afterReset
  repeat' first
    | with_reducible rfl
    | with_reducible assumption
    | with_reducible refine State.setRx_er ?_
    | with_reducible refine State.rxLive_er ?_
    | with_reducible refine State.inBondChanged_er ?_
    | with_reducible refine State.put_er ?_
    | with_reducible refine State.setTx_er ?_
    | with_reducible refine State.outCfgChanged_er ?_
    | with_reducible refine State.outBondChanged_er ?_
    | with_reducible refine State.outSend_er ?_
    | with_reducible refine State.sumsRefresh_er ?_
    | with_reducible refine State.modIp_er ?_
    | with_reducible refine State.setPtp_er ?_
    | with_reducible refine State.ipTaken_er ?_
    | with_reducible refine State.candLost_er ?_
    | with_reducible refine State.ipLive_er ?_
    | with_reducible refine State.setComp_er ?_
    | with_reducible refine erase_ite ?_ ?_
    | with_reducible refine erase_of_fst (by assumption) ?_
    | dsimp only
    | split

theorem State.softReset_er {m : Nat} {s : State} {u : State} {base : Nat} (he : erase m u = erase m s) (hw : within 8412919 m = true := by decide) :
    erase m (State.softReset u base) = erase m s := by
  refine (erase_mono (m := 8412919) hw ?_).trans he
  unfold State.softReset
  repeat' first
    | with_reducible rfl
    | with_reducible assumption
    | with_reducible refine State.rxLoss_er ?_
    | with_reducible refine State.clearBlock_er ?_
    | with_reducible refine State.afterReset_er ?_
    | with_reducible refine State.wr_er ?_
    | with_reducible refine State.refreshBlock_er ?_
    | with_reducible refine State.rxLive_er ?_
    | with_reducible refine erase_ite ?_ ?_
    | dsimp only
    | split

theorem State.resetWrite_er {m : Nat} {s : State} {u : State} {base : Nat} (he : erase m u = erase m s) (hw : within 8412919 m = true := by decide) :
    erase m (State.resetWrite u base) = erase m s := by
  refine (erase_mono (m := 8412919) hw ?_).trans he
  unfold State.resetWrite
  repeat' first
    | with_reducible rfl
    | with_reducible assumption
    | with_reducible refine State.softReset_er ?_
    | with_reducible refine State.refuseStruct_er ?_
    | with_reducible refine erase_ite ?_ ?_
    | dsimp only
    | split

end Sys2Proof.Machine
end

