-- ==== Sys2Proof/Laws/FrameYumen.lean ====
section
/-! SUPPORT. Frames of the operations of Machine/Yumen.lean. -/

set_option Elab.async false

namespace Sys2Proof.Machine

theorem State.modYm_er {m : Nat} {s : State} {u : State} {f : Ym → Ym} (he : erase m u = erase m s) (hw : within 524288 m = true := by decide) :
    erase m (State.modYm u f) = erase m s := by
  refine (erase_mono (m := 524288) hw ?_).trans he
  unfold State.modYm
  repeat' first
    | with_reducible rfl
    | with_reducible assumption
    | with_reducible refine upd_ym_er ?_

theorem State.metroRefuse_er {m : Nat} {s : State} {u : State} (he : erase m u = erase m s) (hw : within 25165824 m = true := by decide) :
    erase m (State.metroRefuse u) = erase m s := by
  refine (erase_mono (m := 25165824) hw ?_).trans he
  unfold State.metroRefuse
  repeat' first
    | with_reducible rfl
    | with_reducible assumption
    | with_reducible refine State.emit_er ?_
    | with_reducible refine State.tick_er ?_

theorem State.metroCommand_er {m : Nat} {s u : State} {b : Bool} {f : State → State} (e : erase m u = erase m s)
    (hf : ∀ v, erase m (f v) = erase m v) (hw : within 25165824 m = true := by decide) : erase m (State.metroCommand u b f) = erase m s := by
  unfold State.metroCommand
  repeat' first
    | with_reducible refine (hf ..).trans ?_
    | with_reducible rfl
    | with_reducible assumption
    | with_reducible refine State.metroRefuse_er ?_ (within_trans (by decide) hw)
    | with_reducible refine erase_ite ?_ ?_
    | dsimp only
    | split

theorem State.calChange_er {m : Nat} {s : State} {u : State} {op : Nat} {f : List YmCal × Nat → List YmCal × Nat} (he : erase m u = erase m s) (hw : within 25690112 m = true := by decide) :
    erase m (State.calChange u op f) = erase m s := by
  refine (erase_mono (m := 25690112) hw ?_).trans he
  unfold State.calChange
  repeat' first
    | with_reducible rfl
    | with_reducible assumption
    | with_reducible refine State.metroRefuse_er ?_
    | with_reducible refine State.modYm_er ?_
    | with_reducible refine State.emit_er ?_
    | with_reducible refine erase_ite ?_ ?_
    | dsimp only
    | split

theorem State.readRecord_er {m : Nat} {s : State} {u : State} {op : Nat} {l : List (Nat × List Byte)} {seq : Nat} (he : erase m u = erase m s) (hw : within 25165824 m = true := by decide) :
    erase m (State.readRecord u op l seq) = erase m s := by
  refine (erase_mono (m := 25165824) hw ?_).trans he
  unfold State.readRecord
  repeat' first
    | with_reducible rfl
    | with_reducible assumption
    | with_reducible refine State.emit_er ?_
    | with_reducible refine State.metroRefuse_er ?_
    | with_reducible refine erase_of_fst (by assumption) ?_
    | dsimp only
    | split

theorem State.bridgeRaise_er {m : Nat} {s : State} {u : State} {k : Nat} (he : erase m u = erase m s) (hw : within 8388625 m = true := by decide) :
    erase m (State.bridgeRaise u k) = erase m s := by
  refine (erase_mono (m := 8388625) hw ?_).trans he
  unfold State.bridgeRaise
  repeat' first
    | with_reducible rfl
    | with_reducible assumption
    | with_reducible refine State.put_er ?_
    | with_reducible refine State.refreshEv_er ?_

theorem State.linkDown_er {m : Nat} {s : State} {u : State} {down : Bool} (he : erase m u = erase m s) (hw : within 1 m = true := by decide) :
    erase m (State.linkDown u down) = erase m s := by
  refine (erase_mono (m := 1) hw ?_).trans he
  unfold State.linkDown
  repeat' first
    | with_reducible rfl
    | with_reducible assumption
    | with_reducible refine State.puts_er ?_
    | with_reducible refine State.live_er ?_

theorem State.frameSeen_er {m : Nat} {s : State} {u : State} (he : erase m u = erase m s) (hw : within 1 m = true := by decide) :
    erase m (State.frameSeen u) = erase m s := by
  refine (erase_mono (m := 1) hw ?_).trans he
  unfold State.frameSeen
  repeat' first
    | with_reducible rfl
    | with_reducible assumption
    | with_reducible refine State.linkDown_er ?_
    | with_reducible refine State.puts_er ?_

theorem State.frameBad_er {m : Nat} {s : State} {u : State} (he : erase m u = erase m s) (hw : within 8388625 m = true := by decide) :
    erase m (State.frameBad u) = erase m s := by
  refine (erase_mono (m := 8388625) hw ?_).trans he
  unfold State.frameBad
  repeat' first
    | with_reducible rfl
    | with_reducible assumption
    | with_reducible refine State.bump_er ?_
    | with_reducible refine State.bridgeRaise_er ?_

theorem State.showBytes_er {m : Nat} {s : State} {u : State} {a : Nat} {l : List Byte} (he : erase m u = erase m s) (hw : within 1 m = true := by decide) :
    erase m (State.showBytes u a l) = erase m s := by
  refine (erase_mono (m := 1) hw ?_).trans he
  unfold State.showBytes
  repeat' first
    | with_reducible rfl
    | with_reducible assumption
    | with_reducible refine State.forAll_er ?_ (fun _ _ => ?_)
    | with_reducible refine State.wr_er ?_

theorem State.logWrite_er {m : Nat} {s : State} {u : State} {r : List Byte} (he : erase m u = erase m s) (hw : within 9469969 m = true := by decide) :
    erase m (State.logWrite u r) = erase m s := by
  refine (erase_mono (m := 9469969) hw ?_).trans he
  unfold State.logWrite
  repeat' first
    | with_reducible rfl
    | with_reducible assumption
    | with_reducible refine State.bump_er ?_
    | with_reducible refine State.bridgeRaise_er ?_
    | with_reducible refine State.spaceWrite_er ?_
    | with_reducible refine State.put_er ?_
    | with_reducible refine erase_ite ?_ ?_
    | dsimp only
    | split
    | with_reducible refine upd_mg_er ?_

theorem State.statusShown_er {m : Nat} {s : State} {u : State} {y : Ym} (he : erase m u = erase m s) (hw : within 1 m = true := by decide) :
    erase m (State.statusShown u y) = erase m s := by
  refine (erase_mono (m := 1) hw ?_).trans he
  unfold State.statusShown
  repeat' first
    | with_reducible rfl
    | with_reducible assumption
    | with_reducible refine State.wr_er ?_
    | with_reducible refine State.put_er ?_
    | with_reducible refine State.showBytes_er ?_
    | with_reducible refine erase_ite ?_ ?_
    | with_reducible refine erase_foldl ?_ (fun _ _ => ?_)
    | with_reducible refine erase_foldl_fst ?_ (fun _ _ => ?_)
    | dsimp only
    | split

end Sys2Proof.Machine
end

