-- ==== Sys2Proof/Laws/FrameMernak.lean ====
section
/-! SUPPORT. Frames of the operations of Machine/Mernak.lean. -/

set_option Elab.async false

namespace Sys2Proof.Machine

theorem State.modMg_er {m : Nat} {s : State} {u : State} {f : Mg → Mg} (he : erase m u = erase m s) (hw : within 1048576 m = true := by decide) :
    erase m (State.modMg u f) = erase m s := by
  refine (erase_mono (m := 1048576) hw ?_).trans he
  unfold State.modMg
  repeat' first
    | with_reducible rfl
    | with_reducible assumption
    | with_reducible refine upd_mg_er ?_

theorem State.logProgram_er {m : Nat} {s : State} {u : State} {e : List Byte} (he : erase m u = erase m s) (hw : within 1310721 m = true := by decide) :
    erase m (State.logProgram u e) = erase m s := by
  refine (erase_mono (m := 1310721) hw ?_).trans he
  unfold State.logProgram
  repeat' first
    | with_reducible rfl
    | with_reducible assumption
    | with_reducible refine State.eraseRaw_er ?_
    | with_reducible refine State.prog_er ?_
    | with_reducible refine State.modMg_er ?_
    | with_reducible refine State.logRefresh_er ?_
    | with_reducible refine erase_ite ?_ ?_
    | dsimp only
    | split

theorem State.logAppend_er {m : Nat} {s : State} {u : State} {kind : Nat} {ev : Nat} {count : Nat} (he : erase m u = erase m s) (hw : within 18087937 m = true := by decide) :
    erase m (State.logAppend u kind ev count) = erase m s := by
  refine (erase_mono (m := 18087937) hw ?_).trans he
  unfold State.logAppend
  repeat' first
    | with_reducible rfl
    | with_reducible assumption
    | with_reducible refine State.tick_er ?_
    | with_reducible refine State.modMg_er ?_
    | with_reducible refine State.bump_er ?_
    | with_reducible refine State.logProgram_er ?_
    | with_reducible refine erase_ite ?_ ?_
    | dsimp only
    | split

theorem State.mernakCommit_er {m : Nat} {s : State} {u : State} {key : Nat} {data : List Byte} (he : erase m u = erase m s) (hw : within 262161 m = true := by decide) :
    erase m (State.mernakCommit u key data) = erase m s := by
  refine (erase_mono (m := 262161) hw ?_).trans he
  unfold State.mernakCommit
  repeat' first
    | with_reducible rfl
    | with_reducible assumption
    | with_reducible refine State.put_er ?_
    | with_reducible refine State.commitRecs_er ?_
    | with_reducible refine erase_ite ?_ ?_
    | dsimp only
    | split

theorem State.selectSlot_er {m : Nat} {s : State} {u : State} {slot : Nat} (he : erase m u = erase m s) (hw : within 1310737 m = true := by decide) :
    erase m (State.selectSlot u slot) = erase m s := by
  refine (erase_mono (m := 1310737) hw ?_).trans he
  unfold State.selectSlot
  repeat' first
    | with_reducible rfl
    | with_reducible assumption
    | with_reducible refine State.modMg_er ?_
    | with_reducible refine State.mernakCommit_er ?_
    | with_reducible refine erase_ite ?_ ?_
    | dsimp only
    | split

theorem State.mernakFlush_er {m : Nat} {s : State} {u : State} (he : erase m u = erase m s) (hw : within 1310737 m = true := by decide) :
    erase m (State.mernakFlush u) = erase m s := by
  refine (erase_mono (m := 1310737) hw ?_).trans he
  unfold State.mernakFlush
  repeat' first
    | with_reducible rfl
    | with_reducible assumption
    | with_reducible refine State.logProgram_er ?_
    | with_reducible refine State.modMg_er ?_
    | with_reducible refine State.selectSlot_er ?_
    | with_reducible refine erase_foldl ?_ (fun _ _ => ?_)
    | with_reducible refine erase_foldl_fst ?_ (fun _ _ => ?_)
    | with_reducible refine erase_of_fst (by assumption) ?_
    | dsimp only
    | split

theorem State.debugOff_er {m : Nat} {s : State} {u : State} (he : erase m u = erase m s) (hw : within 25231377 m = true := by decide) :
    erase m (State.debugOff u) = erase m s := by
  refine (erase_mono (m := 25231377) hw ?_).trans he
  unfold State.debugOff
  repeat' first
    | with_reducible rfl
    | with_reducible assumption
    | with_reducible refine State.put_er ?_
    | with_reducible refine State.live_er ?_
    | with_reducible refine State.busReset_er ?_
    | with_reducible refine erase_ite ?_ ?_
    | dsimp only
    | split

theorem State.mernakRestart_er {m : Nat} {s : State} {u : State} (he : erase m u = erase m s) (hw : within 26542097 m = true := by decide) :
    erase m (State.mernakRestart u) = erase m s := by
  refine (erase_mono (m := 26542097) hw ?_).trans he
  unfold State.mernakRestart
  repeat' first
    | with_reducible rfl
    | with_reducible assumption
    | with_reducible refine State.raise_er ?_
    | with_reducible refine State.busReset_er ?_
    | with_reducible refine State.debugOff_er ?_
    | with_reducible refine State.modMg_er ?_
    | with_reducible refine State.loadImage_er ?_
    | with_reducible refine State.logAppend_er ?_
    | with_reducible refine erase_ite ?_ ?_
    | dsimp only
    | split

theorem State.dmaRead_er {m : Nat} {s : State} {u : State} {a : Nat} {host : List Byte} {off : Nat} (he : erase m u = erase m s) (hw : within 32785 m = true := by decide) :
    erase m (State.dmaRead u a host off).1 = erase m s := by
  refine (erase_mono (m := 32785) hw ?_).trans he
  unfold State.dmaRead
  repeat' first
    | with_reducible rfl
    | with_reducible assumption
    | with_reducible refine State.spaceRead_er ?_
    | with_reducible refine erase_of_fst (by assumption) ?_
    | dsimp only
    | split

theorem State.dmaWrite_er {m : Nat} {s : State} {u : State} {a : Nat} {l : List Byte} (he : erase m u = erase m s) (hw : within 8486929 m = true := by decide) :
    erase m (State.dmaWrite u a l) = erase m s := by
  refine (erase_mono (m := 8486929) hw ?_).trans he
  unfold State.dmaWrite
  repeat' first
    | with_reducible rfl
    | with_reducible assumption
    | with_reducible refine State.spaceWrite_er ?_
    | with_reducible refine State.sramWrite_er ?_
    | with_reducible refine State.emit_er ?_
    | with_reducible refine erase_of_fst (by assumption) ?_
    | dsimp only
    | split

theorem dmaMask_er {m : Nat} {s : State} {b : Bool} {r : State × Option (List Byte)} (he : erase m r.1 = erase m s) (hw : within 0 m = true := by decide) :
    erase m (dmaMask b r).1 = erase m s := by
  cases r; exact he

theorem State.dmaTake_er {m : Nat} {s : State} {u : State} {host : List Byte} {pos : Nat} (he : erase m u = erase m s) (hw : within 32785 m = true := by decide) :
    erase m (State.dmaTake u host pos).1 = erase m s := by
  unfold State.dmaTake
  exact dmaMask_er (State.dmaRead_er he hw) (by simp [within])

theorem State.dmaGive_er {m : Nat} {s : State} {u : State} {pos : Nat} {l : Option (List Byte)} (he : erase m u = erase m s) (hw : within 25264145 m = true := by decide) :
    erase m (State.dmaGive u pos l).1 = erase m s := by
  cases l with
  | none => exact he
  | some l =>
    rw [State.dmaGive]
    cases hb : u.dmaMay (u.dmaDst + pos) true
    · rw [cond_false]; exact he
    · rw [cond_true]; exact State.dmaWrite_er (State.tick_er he (within_trans (by decide) hw)) (within_trans (by decide) hw)

theorem dmaPass_er {m : Nat} {s : State} {pos : Nat} {r : State × Option (List Byte)} (he : erase m r.1 = erase m s) (hw : within 25264145 m = true := by decide) :
    erase m (dmaPass pos r).1 = erase m s := by
  unfold dmaPass
  exact State.dmaGive_er he hw

theorem State.dmaMove_er {m : Nat} {s : State} {u : State} {host : List Byte} {pos : Nat} (he : erase m u = erase m s) (hw : within 25264145 m = true := by decide) :
    erase m (State.dmaMove u host pos).1 = erase m s := by
  unfold State.dmaMove
  cases hb : u.dmaMay (u.dmaSrc + pos) false
  · rw [cond_false]; exact he
  · rw [cond_true]; exact dmaPass_er (State.dmaTake_er he (within_trans (by decide) hw)) hw

theorem dmaDoneAt_er {m : Nat} {s : State} {pos : Nat} {r : State × Nat} (he : erase m r.1 = erase m s) (hw : within 0 m = true := by decide) :
    erase m (dmaDoneAt pos r).1 = erase m s := by
  cases r; exact he

theorem dmaNext_er {m : Nat} {s : State} {host : List Byte} {q : State × Nat × Nat} (he : erase m q.1 = erase m s) (hw : within 25264145 m = true := by decide) :
    erase m (dmaNext host q).1 = erase m s := by
  unfold dmaNext
  cases hb : q.2.2 == 0
  · rw [cond_false]; exact he
  · rw [cond_true]; exact dmaDoneAt_er (State.dmaMove_er he hw) (by simp [within])

theorem State.dmaCopy_er {m : Nat} {s u : State} {n : Nat} {host : List Byte} (he : erase m u = erase m s) (hw : within 25264145 m = true := by decide) :
    erase m (State.dmaCopy u n host).1 = erase m s := by
  unfold State.dmaCopy
  generalize List.range n = l
  suffices h : ∀ q : State × Nat × Nat, erase m q.1 = erase m s → erase m (l.foldl (fun q _ => dmaNext host q) q).1 = erase m s from h _ he
  induction l with
  | nil => exact fun _ h => h
  | cons _ _ ih => exact fun _ h => ih _ (dmaNext_er h hw)

theorem State.dmaDone_er {m : Nat} {s : State} {u : State} {e : DmaEnd} (he : erase m u = erase m s) (hw : within 25264145 m = true := by decide) :
    erase m (State.dmaDone u e).1 = erase m s := by
  refine (erase_mono (m := 25264145) hw ?_).trans he
  unfold State.dmaDone
  repeat' first
    | with_reducible rfl
    | with_reducible assumption
    | with_reducible refine State.dmaCopy_er ?_
    | with_reducible refine erase_ite ?_ ?_
    | with_reducible refine erase_ite_fst ?_ ?_
    | dsimp only
    | split

theorem State.updFail_er {m : Nat} {s : State} {u : State} {code : Nat} (he : erase m u = erase m s) (hw : within 1048593 m = true := by decide) :
    erase m (State.updFail u code) = erase m s := by
  refine (erase_mono (m := 1048593) hw ?_).trans he
  unfold State.updFail
  repeat' first
    | with_reducible rfl
    | with_reducible assumption
    | with_reducible refine State.puts_er ?_
    | with_reducible refine State.modMg_er ?_
    | with_reducible refine State.raise_er ?_

theorem State.updHeaderIn_er {m : Nat} {s : State} {u : State} {h : List Byte} (he : erase m u = erase m s) (hw : within 9437201 m = true := by decide) :
    erase m (State.updHeaderIn u h) = erase m s := by
  refine (erase_mono (m := 9437201) hw ?_).trans he
  unfold State.updHeaderIn
  repeat' first
    | with_reducible rfl
    | with_reducible assumption
    | with_reducible refine State.updFail_er ?_
    | with_reducible refine State.modMg_er ?_
    | with_reducible refine State.put_er ?_
    | with_reducible refine State.emit_er ?_
    | with_reducible refine erase_ite ?_ ?_
    | dsimp only
    | split

theorem State.updAbandon_er {m : Nat} {s : State} {u : State} (he : erase m u = erase m s) (hw : within 26279953 m = true := by decide) :
    erase m (State.updAbandon u) = erase m s := by
  refine (erase_mono (m := 26279953) hw ?_).trans he
  unfold State.updAbandon
  repeat' first
    | with_reducible rfl
    | with_reducible assumption
    | with_reducible refine State.busReset_er ?_
    | with_reducible refine State.updFail_er ?_
    | with_reducible refine erase_ite ?_ ?_
    | dsimp only
    | split

theorem State.updWrite_er {m : Nat} {s : State} {u : State} {host : List Byte} (he : erase m u = erase m s) (hw : within 9699345 m = true := by decide) :
    erase m (State.updWrite u host) = erase m s := by
  refine (erase_mono (m := 9699345) hw ?_).trans he
  unfold State.updWrite
  repeat' first
    | with_reducible rfl
    | with_reducible assumption
    | with_reducible refine State.emit_er ?_
    | with_reducible refine State.put_er ?_
    | with_reducible refine State.puts_er ?_
    | with_reducible refine State.modMg_er ?_
    | with_reducible refine State.raise_er ?_
    | with_reducible refine State.selectSlot_er ?_
    | with_reducible refine erase_ite ?_ ?_
    | dsimp only
    | split

theorem State.updEnd_er {m : Nat} {s : State} {u : State} {e : UpdEnd} {host : List Byte} (he : erase m u = erase m s) (hw : within 9699345 m = true := by decide) :
    erase m (State.updEnd u e host).1 = erase m s := by
  refine (erase_mono (m := 9699345) hw ?_).trans he
  unfold State.updEnd
  repeat' first
    | with_reducible rfl
    | with_reducible assumption
    | with_reducible refine State.updFail_er ?_
    | with_reducible refine State.updWrite_er ?_
    | with_reducible refine erase_ite ?_ ?_
    | with_reducible refine erase_ite_fst ?_ ?_
    | with_reducible refine erase_of_fst (by assumption) ?_
    | dsimp only
    | split

theorem State.setAge_er {m : Nat} {s : State} {u : State} {d : Nat} {x : Ageing} (he : erase m u = erase m s) (hw : within 1048576 m = true := by decide) :
    erase m (State.setAge u d x) = erase m s := by
  refine (erase_mono (m := 1048576) hw ?_).trans he
  unfold State.setAge
  repeat' first
    | with_reducible rfl
    | with_reducible assumption
    | with_reducible refine State.modMg_er ?_

theorem State.eolRefresh_er {m : Nat} {s : State} {u : State} {d : Nat} (he : erase m u = erase m s) (hw : within 17 m = true := by decide) :
    erase m (State.eolRefresh u d) = erase m s := by
  refine (erase_mono (m := 17) hw ?_).trans he
  unfold State.eolRefresh
  repeat' first
    | with_reducible rfl
    | with_reducible assumption
    | with_reducible refine State.put_er ?_
    | with_reducible refine State.puti_er ?_
    | with_reducible refine State.raiseIf_er ?_
    | with_reducible refine State.live_er ?_
    | with_reducible refine erase_ite ?_ ?_
    | with_reducible refine erase_of_fst (by assumption) ?_
    | dsimp only
    | split

theorem State.calUse_er {m : Nat} {s : State} {u : State} {k : Nat} {l : List Byte} (he : erase m u = erase m s) (hw : within 1048704 m = true := by decide) :
    erase m (State.calUse u k l) = erase m s := by
  refine (erase_mono (m := 1048704) hw ?_).trans he
  unfold State.calUse
  repeat' first
    | with_reducible rfl
    | with_reducible assumption
    | with_reducible refine State.modMg_er ?_
    | with_reducible refine State.modTc_er ?_
    | with_reducible refine erase_ite ?_ ?_
    | dsimp only
    | split

theorem State.calReplace_er {m : Nat} {s : State} {u : State} {k : Nat} {l : List Byte} (he : erase m u = erase m s) (hw : within 1310865 m = true := by decide) :
    erase m (State.calReplace u k l) = erase m s := by
  refine (erase_mono (m := 1310865) hw ?_).trans he
  unfold State.calReplace
  repeat' first
    | with_reducible rfl
    | with_reducible assumption
    | with_reducible refine State.mernakCommit_er ?_
    | with_reducible refine State.calUse_er ?_
    | with_reducible refine State.raise_er ?_
    | with_reducible refine erase_ite ?_ ?_
    | dsimp only
    | split

theorem State.calCmd_er {m : Nat} {s : State} {u : State} {op : Nat} {v : Word} (he : erase m u = erase m s) (hw : within 1 m = true := by decide) :
    erase m (State.calCmd u op v) = erase m s := by
  refine (erase_mono (m := 1) hw ?_).trans he
  unfold State.calCmd
  repeat' first
    | with_reducible rfl
    | with_reducible assumption
    | with_reducible refine State.puts_er ?_

end Sys2Proof.Machine
end

