-- ==== Sys2Proof/Laws/UnitCommands.lean ====
section
/-! SUPPORT. Frames of the commands of the units: which parts of the state a command that runs can change. -/

set_option Elab.async false

namespace Sys2Proof.Machine

theorem next_er {m : Nat} {E t u : State} (h : (Host.Outcome.next E : Host.Outcome State Fault Refusal) = .next t)
    (e : erase m E = erase m u) : erase m t = erase m u := by
  injection h with h; exact h ▸ e

theorem execAutoDelayUpdate_frame {u t : State} {n : Fin 16384} (h : execAutoDelayUpdate n u = .next t) : erase 8209 t = erase 8209 u := by
  unfold execAutoDelayUpdate at h
  refine next_er h ?_
  repeat' first
    | with_reducible rfl
    | with_reducible assumption
    | with_reducible refine State.autoUpdate_er ?_
    | with_reducible refine State.rqRefresh_er ?_
    | with_reducible refine erase_ite ?_ ?_
    | dsimp only
    | split

theorem execAudioSwitch_frame {u t : State} {d : Fin 4096} (h : execAudioSwitch d u = .next t) : erase 8209 t = erase 8209 u := by
  unfold execAudioSwitch at h
  refine next_er h ?_
  repeat' first
    | with_reducible rfl
    | with_reducible assumption
    | with_reducible refine State.switchDest_er ?_
    | with_reducible refine State.audCounts_er ?_
    | with_reducible refine State.rqRefresh_er ?_

theorem execGenCfgWrite_frame {u t : State} {k : Fin 16} {v : Word} (h : execGenCfgWrite k v u = .next t) : erase 8209 t = erase 8209 u := by
  unfold execGenCfgWrite at h
  dsimp only at h
  refine next_er h ?_
  repeat' first
    | with_reducible rfl
    | with_reducible assumption
    | with_reducible refine State.hostWrite_er ?_ ?_
    | with_reducible refine State.wr_er ?_
    | with_reducible refine State.modAud_er ?_
    | with_reducible refine State.refade_er ?_
    | with_reducible refine erase_ite ?_ ?_
    | dsimp only
    | split

theorem execAsrcLock_frame {u t : State} {k : Fin 96} {ppb : Int} (h : execAsrcLock k ppb u = .next t) : erase 8209 t = erase 8209 u := by
  unfold execAsrcLock at h
  refine next_er h ?_
  repeat' first
    | with_reducible rfl
    | with_reducible assumption
    | with_reducible refine State.asrcSet_er ?_
    | with_reducible refine State.rqRefresh_er ?_
    | with_reducible refine erase_ite ?_ ?_
    | dsimp only
    | split

theorem execAsrcUnlock_frame {u t : State} {k : Fin 96} {ppb : Option Int} (h : execAsrcUnlock k ppb u = .next t) : erase 8209 t = erase 8209 u := by
  unfold execAsrcUnlock at h
  refine next_er h ?_
  repeat' first
    | with_reducible rfl
    | with_reducible assumption
    | with_reducible refine State.asrcSet_er ?_
    | with_reducible refine State.rqRefresh_er ?_
    | with_reducible refine erase_ite ?_ ?_
    | with_reducible refine erase_of_fst (by assumption) ?_
    | dsimp only
    | split

theorem execAudioSample_frame {u t : State} {y0 : AudTick} (h : execAudioSample y0 u = .next t) : erase 8209 t = erase 8209 u := by
  unfold execAudioSample at h
  dsimp only at h
  refine next_er h ?_
  repeat' first
    | with_reducible rfl
    | with_reducible assumption
    | with_reducible refine State.ctxLost_er ?_
    | with_reducible refine State.audEvent_er ?_
    | with_reducible refine State.audIntake_er ?_
    | with_reducible refine State.audGaps_er ?_
    | with_reducible refine State.destTick_er ?_
    | with_reducible refine State.embZero_er ?_
    | with_reducible refine State.modAud_er ?_
    | with_reducible refine State.rqRefresh_er ?_
    | with_reducible refine erase_foldl ?_ (fun _ _ => ?_)
    | with_reducible refine erase_foldl_fst ?_ (fun _ _ => ?_)

theorem execAudioPacketReceived_frame {u t : State} {g : Fin 96} {p : AudPkt} (h : execAudioPacketReceived g p u = .next t) : erase 8209 t = erase 8209 u := by
  unfold execAudioPacketReceived at h
  dsimp only at h
  refine next_er h ?_
  repeat' first
    | with_reducible rfl
    | with_reducible assumption
    | with_reducible refine State.setDeemb_er ?_
    | with_reducible refine State.raise_er ?_
    | with_reducible refine State.bump_er ?_
    | with_reducible refine State.audChannels_er ?_
    | with_reducible refine erase_ite ?_ ?_
    | with_reducible refine erase_of_fst (by assumption) ?_
    | dsimp only
    | split

theorem execDeembRateMeasure_frame {u t : State} {g : Fin 96} {ppb : Int} (h : execDeembRateMeasure g ppb u = .next t) : erase 17 t = erase 17 u := by
  unfold execDeembRateMeasure at h
  dsimp only at h
  refine next_er h ?_
  repeat' first
    | with_reducible rfl
    | with_reducible assumption
    | with_reducible refine State.put_er ?_
    | with_reducible refine State.raiseIf_er ?_
    | with_reducible refine State.live_er ?_
    | with_reducible refine erase_ite ?_ ?_
    | dsimp only
    | split

theorem execCgArm_frame {u t : State} {group : Fin 64} {usToCutoff : Nat} (h : execCgArm group usToCutoff u = .next t) : erase 25 t = erase 25 u := by
  unfold execCgArm at h
  refine next_er h ?_
  repeat' first
    | with_reducible rfl
    | with_reducible assumption
    | with_reducible refine State.armGroup_er ?_

theorem execCommitGroupWrite_frame {u t : State} {b : BlockAddr} {group : Fin 64} (h : execCommitGroupWrite b group u = .next t) : erase 17 t = erase 17 u := by
  unfold execCommitGroupWrite at h
  refine next_er h ?_
  repeat' first
    | with_reducible rfl
    | with_reducible assumption
    | with_reducible refine State.hostWrite_er ?_ ?_
    | with_reducible refine State.commitGroup_er ?_
    | with_reducible refine erase_ite ?_ ?_
    | dsimp only
    | split

theorem execCommitArm_frame {u t : State} {b : BlockAddr} {group : Fin 64} {usToCutoff : Nat} (h : execCommitArm b group usToCutoff u = .next t) : erase 25 t = erase 25 u := by
  unfold execCommitArm at h
  refine next_er h ?_
  repeat' first
    | with_reducible rfl
    | with_reducible assumption
    | with_reducible refine State.hostWrite_er ?_ ?_
    | with_reducible refine State.commitGroup_er ?_
    | with_reducible refine State.armGroup_er ?_
    | with_reducible refine erase_ite ?_ ?_
    | dsimp only
    | split

theorem execCgAbort_frame {u t : State} {group : Fin 64} (h : execCgAbort group u = .next t) : erase 25 t = erase 25 u := by
  unfold execCgAbort at h
  dsimp only at h
  refine next_er h ?_
  repeat' first
    | with_reducible rfl
    | with_reducible assumption
    | with_reducible refine State.put_er ?_
    | with_reducible refine State.setGrp_er ?_
    | with_reducible refine State.pendings_er ?_
    | with_reducible refine State.raise_er ?_
    | with_reducible refine erase_ite ?_ ?_
    | dsimp only
    | split

theorem execCgCfgWrite_frame {u t : State} {group : Fin 64} {v : Word} (h : execCgCfgWrite group v u = .next t) : erase 1 t = erase 1 u := by
  unfold execCgCfgWrite at h
  dsimp only at h
  refine next_er h ?_
  repeat' first
    | with_reducible rfl
    | with_reducible assumption
    | with_reducible refine State.cgBusy_er ?_
    | with_reducible refine State.puts_er ?_
    | with_reducible refine erase_ite ?_ ?_
    | dsimp only
    | split

theorem execTakeCutoff_frame {u t : State} {domain : Fin 8} (h : execTakeCutoff domain u = .next t) : erase 25204511 t = erase 25204511 u := by
  unfold execTakeCutoff at h
  dsimp only at h
  refine next_er h ?_
  repeat' first
    | with_reducible rfl
    | with_reducible assumption
    | with_reducible refine State.forAll_er ?_ (fun _ _ => ?_)
    | with_reducible refine State.cutGroup_er ?_
    | with_reducible refine State.pathDue_er ?_
    | with_reducible refine State.restoreShed_er ?_
    | with_reducible refine State.recheckAll_er ?_
    | with_reducible refine State.keepTry_er ?_
    | with_reducible refine State.setTd_er ?_
    | with_reducible refine State.sumsRefresh_er ?_
    | with_reducible refine State.floorLive_er ?_
    | with_reducible refine erase_ite ?_ ?_
    | with_reducible refine erase_foldl ?_ (fun _ _ => ?_)
    | with_reducible refine erase_foldl_fst ?_ (fun _ _ => ?_)
    | dsimp only
    | split

theorem execRingFrameComplete_frame {u t : State} {r : RingId} {cut : Bool} (h : execRingFrameComplete r cut u = .next t) : erase 16815643 t = erase 16815643 u := by
  unfold execRingFrameComplete at h
  dsimp only at h
  refine next_er h ?_
  repeat' first
    | with_reducible rfl
    | with_reducible assumption
    | with_reducible refine State.ctxComplete_er ?_
    | with_reducible refine State.ringComplete_er ?_
    | with_reducible refine State.recheckRoute_er ?_
    | with_reducible refine State.sumsRefresh_er ?_
    | with_reducible refine State.floorLive_er ?_
    | with_reducible refine erase_ite ?_ ?_
    | with_reducible refine erase_foldl ?_ (fun _ _ => ?_)
    | with_reducible refine erase_foldl_fst ?_ (fun _ _ => ?_)
    | dsimp only
    | split

theorem execTakeMessage_frame {u t : State} {group : Fin 64} {die : Fin 8} (h : execTakeMessage group die u = .next t) : erase 2073 t = erase 2073 u := by
  unfold execTakeMessage at h
  dsimp only at h
  refine next_er h ?_
  repeat' first
    | with_reducible rfl
    | with_reducible assumption
    | with_reducible refine State.setGrp_er ?_
    | with_reducible refine State.fenceOnMessage_er ?_
    | with_reducible refine erase_ite ?_ ?_
    | dsimp only
    | split

theorem execDomainFramePulse_frame {u t : State} {domain : Fin 8} {fromPoint : Int} (h : execDomainFramePulse domain fromPoint u = .next t) : erase 25231199 t = erase 25231199 u := by
  unfold execDomainFramePulse at h
  refine next_er h ?_
  repeat' first
    | with_reducible rfl
    | with_reducible assumption
    | with_reducible refine State.framePulse_er ?_
    | with_reducible refine erase_ite ?_ ?_
    | dsimp only
    | split

theorem execDomainStart_frame {u t : State} {d : Fin 8} (h : execDomainStart d u = .next t) : erase 25231199 t = erase 25231199 u := by
  unfold execDomainStart at h
  refine next_er h ?_
  repeat' first
    | with_reducible rfl
    | with_reducible assumption
    | with_reducible refine State.framePulse_er ?_
    | with_reducible refine erase_ite ?_ ?_
    | dsimp only
    | split

theorem execTakeApply_frame {u t : State} {g : Fin 96} (h : execTakeApply g u = .next t) : erase 16821787 t = erase 16821787 u := by
  unfold execTakeApply at h
  dsimp only at h
  refine next_er h ?_
  repeat' first
    | with_reducible rfl
    | with_reducible assumption
    | with_reducible refine State.composerFrame_er ?_
    | with_reducible refine State.takePart_er ?_
    | with_reducible refine State.audTaken_er ?_
    | with_reducible refine State.routeDue_er ?_
    | with_reducible refine State.selectReaders_er ?_
    | with_reducible refine State.layerStats_er ?_
    | with_reducible refine State.groupsDone_er ?_
    | with_reducible refine erase_ite ?_ ?_
    | with_reducible refine erase_foldl ?_ (fun _ _ => ?_)
    | with_reducible refine erase_foldl_fst ?_ (fun _ _ => ?_)
    | dsimp only
    | split

theorem execCoefWrite_frame {u t : State} {g : Fin 96} {c : CoefAddr} {v : Word} (h : execCoefWrite g c v u = .next t) : erase 2065 t = erase 2065 u := by
  unfold execCoefWrite at h
  dsimp only at h
  refine next_er h ?_
  repeat' first
    | with_reducible rfl
    | with_reducible assumption
    | with_reducible refine State.hostWrite_er ?_ ?_
    | with_reducible refine State.raise_er ?_
    | with_reducible refine State.coefRefuse_er ?_
    | with_reducible refine State.wr_er ?_
    | with_reducible refine State.tableWritten_er ?_
    | with_reducible refine State.coefStore_er ?_
    | with_reducible refine State.put_er ?_
    | with_reducible refine erase_ite ?_ ?_
    | with_reducible refine erase_foldl ?_ (fun _ _ => ?_)
    | with_reducible refine erase_foldl_fst ?_ (fun _ _ => ?_)
    | dsimp only
    | split

theorem execCoefRestore_frame {u t : State} {g : Fin 96} {layers : Fin 4} (h : execCoefRestore g layers u = .next t) : erase 2065 t = erase 2065 u := by
  unfold execCoefRestore at h
  dsimp only at h
  refine next_er h ?_
  repeat' first
    | with_reducible rfl
    | with_reducible assumption
    | with_reducible refine State.hostWrite_er ?_ ?_
    | with_reducible refine State.raise_er ?_
    | with_reducible refine State.forAll_er ?_ (fun _ _ => ?_)
    | with_reducible refine State.coefRefuse_er ?_
    | with_reducible refine State.coefReload_er ?_
    | with_reducible refine erase_ite ?_ ?_
    | with_reducible refine erase_foldl ?_ (fun _ _ => ?_)
    | with_reducible refine erase_foldl_fst ?_ (fun _ _ => ?_)
    | dsimp only
    | split

theorem execLutWrite_frame {u t : State} {g : Fin 96} {v : Word} (h : execLutWrite g v u = .next t) : erase 2065 t = erase 2065 u := by
  unfold execLutWrite at h
  dsimp only at h
  refine next_er h ?_
  repeat' first
    | with_reducible rfl
    | with_reducible assumption
    | with_reducible refine State.hostWrite_er ?_ ?_
    | with_reducible refine State.raise_er ?_
    | with_reducible refine State.lutInc_er ?_
    | with_reducible refine State.setComp_er ?_
    | with_reducible refine erase_ite ?_ ?_
    | with_reducible refine erase_foldl ?_ (fun _ _ => ?_)
    | with_reducible refine erase_foldl_fst ?_ (fun _ _ => ?_)
    | dsimp only
    | split

theorem execLutRead_frame {u t : State} {g : Fin 96} (h : execLutRead g u = .next t) : erase 4194321 t = erase 4194321 u := by
  unfold execLutRead at h
  dsimp only at h
  refine next_er h ?_
  repeat' first
    | with_reducible rfl
    | with_reducible assumption
    | with_reducible refine State.answer_er ?_
    | with_reducible refine State.lutInc_er ?_
    | with_reducible refine State.absentAccess_er ?_
    | with_reducible refine erase_ite ?_ ?_
    | dsimp only
    | split

theorem execComposerUe_frame {u t : State} {g : Fin 96} {y1 : CompUe} (h : execComposerUe g y1 u = .next t) : erase 34833 t = erase 34833 u := by
  unfold execComposerUe at h
  dsimp only at h
  refine next_er h ?_
  repeat' first
    | with_reducible rfl
    | with_reducible assumption
    | with_reducible refine State.setFault_er ?_
    | with_reducible refine State.damage_er ?_
    | with_reducible refine State.cause_er ?_
    | with_reducible refine State.raise_er ?_
    | with_reducible refine State.live_er ?_
    | with_reducible refine State.setComp_er ?_
    | with_reducible refine erase_ite ?_ ?_
    | dsimp only
    | split

theorem execFinanoLine_frame {u t : State} {sheaf : Fin 8} {toSheaf : Bool} {l : FinLine} {ue : Bool} (h : execFinanoLine sheaf toSheaf l ue u = .next t) : erase 56849 t = erase 56849 u := by
  unfold execFinanoLine at h
  dsimp only at h
  refine next_er h ?_
  repeat' first
    | with_reducible rfl
    | with_reducible assumption
    | with_reducible refine State.toGranaryLine_er ?_
    | with_reducible refine State.storedToSheaf_er ?_
    | with_reducible refine State.toSheafLine_er ?_
    | with_reducible refine erase_ite ?_ ?_
    | dsimp only
    | split
    | with_reducible refine upd_floor_er ?_

theorem execFenceDeadline_frame {u t : State} {g : Fin 96} {k : Bool} (h : execFenceDeadline g k u = .next t) : erase 2065 t = erase 2065 u := by
  unfold execFenceDeadline at h
  dsimp only at h
  refine next_er h ?_
  repeat' first
    | with_reducible rfl
    | with_reducible assumption
    | with_reducible refine State.setLayer_er ?_
    | with_reducible refine State.fenceEvaluate_er ?_
    | with_reducible refine State.deferFlip_er ?_
    | with_reducible refine erase_ite ?_ ?_
    | with_reducible refine erase_of_fst (by assumption) ?_
    | dsimp only
    | split

theorem execFenceDoorbell_frame {u t : State} {g : Fin 96} {k : Bool} {v : Word} (h : execFenceDoorbell g k v u = .next t) : erase 33809 t = erase 33809 u := by
  unfold execFenceDoorbell at h
  dsimp only at h
  refine next_er h ?_
  repeat' first
    | with_reducible rfl
    | with_reducible assumption
    | with_reducible refine State.hostWrite_er ?_ ?_
    | with_reducible refine State.doorbell_er ?_
    | with_reducible refine State.holdWrite_er ?_
    | with_reducible refine erase_ite ?_ ?_
    | dsimp only
    | split

theorem execConverterFrame_frame {u t : State} {e : Fin 8} {c : Fin 2} {f : ConvFrame} (h : execConverterFrame e c f u = .next t) : erase 25171473 t = erase 25171473 u := by
  unfold execConverterFrame at h
  refine next_er h ?_
  repeat' first
    | with_reducible rfl
    | with_reducible assumption
    | with_reducible refine State.convFrame_er ?_
    | with_reducible refine erase_ite ?_ ?_
    | dsimp only
    | split

theorem execFrameLate_frame {u t : State} {e : Fin 8} {c : Fin 2} (h : execFrameLate e c u = .next t) : erase 4113 t = erase 4113 u := by
  unfold execFrameLate at h
  refine next_er h ?_
  repeat' first
    | with_reducible rfl
    | with_reducible assumption
    | with_reducible refine State.setCtx_er ?_
    | with_reducible refine State.bump_er ?_
    | with_reducible refine State.cvCause_er ?_
    | with_reducible refine erase_ite ?_ ?_
    | dsimp only
    | split

theorem execCadencePicture_frame {u t : State} {e : Fin 8} {c : Fin 2} {i k : Nat} (h : execCadencePicture e c i k u = .next t) : erase 4113 t = erase 4113 u := by
  unfold execCadencePicture at h
  dsimp only at h
  refine next_er h ?_
  repeat' first
    | with_reducible rfl
    | with_reducible assumption
    | with_reducible refine State.cadenceLocked_er ?_
    | with_reducible refine State.cadenceSeek_er ?_
    | with_reducible refine erase_ite ?_ ?_
    | with_reducible refine erase_of_fst (by assumption) ?_
    | dsimp only
    | split

theorem execEngineFault_frame {u t : State} {e : Fin 8} {array : Fin 3} {index : Fin 512} (h : execEngineFault e array index u = .next t) : erase 8392721 t = erase 8392721 u := by
  unfold execEngineFault at h
  dsimp only at h
  refine next_er h ?_
  repeat' first
    | with_reducible rfl
    | with_reducible assumption
    | with_reducible refine State.setFault_er ?_
    | with_reducible refine State.put_er ?_
    | with_reducible refine State.live_er ?_
    | with_reducible refine State.poolRefresh_er ?_
    | with_reducible refine State.forAll_er ?_ (fun _ _ => ?_)
    | with_reducible refine State.setCtx_er ?_
    | with_reducible refine State.cvCause_er ?_
    | with_reducible refine erase_ite ?_ ?_
    | dsimp only
    | split
    | with_reducible refine upd_out_er ?_

theorem execRecAppend_frame {u t : State} {y0 : Fin 8} {v : Word} (h : execRecAppend y0 v u = .next t) : erase 262161 t = erase 262161 u := by
  unfold execRecAppend at h
  dsimp only at h
  refine next_er h ?_
  repeat' first
    | with_reducible rfl
    | with_reducible assumption
    | with_reducible refine State.recCommand_er ?_ (fun _ => ?_)
    | with_reducible refine State.recRes_er ?_
    | with_reducible refine State.gatherAdd_er ?_
    | with_reducible refine erase_ite ?_ ?_
    | dsimp only
    | split

theorem execRecDelete_frame {u t : State} {y0 : Fin 8} {v : Word} (h : execRecDelete y0 v u = .next t) : erase 262161 t = erase 262161 u := by
  unfold execRecDelete at h
  dsimp only at h
  refine next_er h ?_
  repeat' first
    | with_reducible rfl
    | with_reducible assumption
    | with_reducible refine State.recCommand_er ?_ (fun _ => ?_)
    | with_reducible refine State.recRes_er ?_
    | with_reducible refine State.gatherAdd_er ?_
    | with_reducible refine erase_ite ?_ ?_
    | dsimp only
    | split

theorem execRecCommit_frame {u t : State} {y0 : Fin 8} {v : Word} (h : execRecCommit y0 v u = .next t) : erase 262161 t = erase 262161 u := by
  unfold execRecCommit at h
  refine next_er h ?_
  repeat' first
    | with_reducible rfl
    | with_reducible assumption
    | with_reducible refine State.recCommand_er ?_ (fun _ => ?_)
    | with_reducible refine State.recRes_er ?_
    | with_reducible refine State.commitRecs_er ?_
    | with_reducible refine State.modNv_er ?_
    | with_reducible refine erase_ite ?_ ?_
    | with_reducible refine erase_of_fst (by assumption) ?_
    | dsimp only
    | split

theorem execRecAbort_frame {u t : State} {y0 : Fin 8} {v : Word} (h : execRecAbort y0 v u = .next t) : erase 262161 t = erase 262161 u := by
  unfold execRecAbort at h
  refine next_er h ?_
  repeat' first
    | with_reducible rfl
    | with_reducible assumption
    | with_reducible refine State.recCommand_er ?_ (fun _ => ?_)
    | with_reducible refine State.recRes_er ?_
    | with_reducible refine State.modNv_er ?_
    | with_reducible refine erase_of_fst (by assumption) ?_
    | dsimp only
    | split

theorem execGatherTimeout_frame {u t : State}  (h : execGatherTimeout u = .next t) : erase 262161 t = erase 262161 u := by
  unfold execGatherTimeout at h
  refine next_er h ?_
  repeat' first
    | with_reducible rfl
    | with_reducible assumption
    | with_reducible refine State.modNv_er ?_
    | with_reducible refine State.nvRefresh_er ?_
    | with_reducible refine erase_of_fst (by assumption) ?_
    | dsimp only
    | split

theorem execRecRead_frame {u t : State} {y0 : Fin 8} {v : Word} (h : execRecRead y0 v u = .next t) : erase 262161 t = erase 262161 u := by
  unfold execRecRead at h
  dsimp only at h
  refine next_er h ?_
  repeat' first
    | with_reducible rfl
    | with_reducible assumption
    | with_reducible refine State.recCommand_er ?_ (fun _ => ?_)
    | with_reducible refine State.recRes_er ?_
    | with_reducible refine State.resolveKey_er ?_
    | with_reducible refine State.forAll_er ?_ (fun _ _ => ?_)
    | with_reducible refine State.wr_er ?_
    | with_reducible refine State.puts_er ?_
    | with_reducible refine erase_ite ?_ ?_
    | with_reducible refine erase_of_fst (by assumption) ?_
    | dsimp only
    | split

theorem execCompaction_frame {u t : State}  (h : execCompaction u = .next t) : erase 262161 t = erase 262161 u := by
  unfold execCompaction at h
  refine next_er h ?_
  repeat' first
    | with_reducible rfl
    | with_reducible assumption
    | with_reducible refine State.compact_er ?_
    | with_reducible refine State.nvRefresh_er ?_
    | with_reducible refine erase_ite ?_ ?_
    | dsimp only
    | split

theorem execCntInc_frame {u t : State} {y0 : Fin 8} {i : Fin 16} (h : execCntInc y0 i u = .next t) : erase 262161 t = erase 262161 u := by
  unfold execCntInc at h
  dsimp only at h
  refine next_er h ?_
  repeat' first
    | with_reducible rfl
    | with_reducible assumption
    | with_reducible refine State.put_er ?_
    | with_reducible refine State.puts_er ?_
    | with_reducible refine State.raise_er ?_
    | with_reducible refine State.raiseIf_er ?_
    | with_reducible refine State.cntStep_er ?_
    | with_reducible refine erase_ite ?_ ?_
    | dsimp only
    | split

theorem execRawProgram_frame {u t : State} {y0 : Fin 8} {v : Word} (h : execRawProgram y0 v u = .next t) : erase 262161 t = erase 262161 u := by
  unfold execRawProgram at h
  refine next_er h ?_
  repeat' first
    | with_reducible rfl
    | with_reducible assumption
    | with_reducible refine State.rawCommand_er ?_ (fun _ _ => ?_)
    | with_reducible refine State.rawRes_er ?_
    | with_reducible refine State.prog_er ?_
    | with_reducible refine State.modNv_er ?_
    | with_reducible refine erase_ite ?_ ?_
    | dsimp only
    | split

theorem execRawEraseSector_frame {u t : State} {y0 : Fin 8} {v : Word} (h : execRawEraseSector y0 v u = .next t) : erase 262161 t = erase 262161 u := by
  unfold execRawEraseSector at h
  refine next_er h ?_
  repeat' first
    | with_reducible rfl
    | with_reducible assumption
    | with_reducible refine State.rawCommand_er ?_ (fun _ _ => ?_)
    | with_reducible refine State.rawRes_er ?_
    | with_reducible refine State.eraseRaw_er ?_
    | with_reducible refine erase_ite ?_ ?_
    | dsimp only
    | split

theorem execRawClearBuf_frame {u t : State} {y0 : Fin 8} {v : Word} (h : execRawClearBuf y0 v u = .next t) : erase 262161 t = erase 262161 u := by
  unfold execRawClearBuf at h
  refine next_er h ?_
  repeat' first
    | with_reducible rfl
    | with_reducible assumption
    | with_reducible refine State.rawCommand_er ?_ (fun _ _ => ?_)
    | with_reducible refine State.modNv_er ?_
    | with_reducible refine State.rawRes_er ?_

theorem execRawLoad_frame {u t : State} {y0 : Fin 8} {v : Word} (h : execRawLoad y0 v u = .next t) : erase 262161 t = erase 262161 u := by
  unfold execRawLoad at h
  refine next_er h ?_
  repeat' first
    | with_reducible rfl
    | with_reducible assumption
    | with_reducible refine State.rawCommand_er ?_ (fun _ _ => ?_)
    | with_reducible refine State.modNv_er ?_
    | with_reducible refine State.rawRes_er ?_

theorem execRawBufferWrite_frame {u t : State} {y0 : Fin 8} {w : BufWrite} (h : execRawBufferWrite y0 w u = .next t) : erase 262161 t = erase 262161 u := by
  unfold execRawBufferWrite at h
  dsimp only at h
  refine next_er h ?_
  repeat' first
    | with_reducible rfl
    | with_reducible assumption
    | with_reducible refine State.put_er ?_
    | with_reducible refine State.raise_er ?_
    | with_reducible refine State.nvRefresh_er ?_
    | with_reducible refine State.modNv_er ?_
    | with_reducible refine erase_ite ?_ ?_
    | with_reducible refine erase_of_fst (by assumption) ?_
    | dsimp only
    | split

theorem execGleanerPass_frame {u t : State} {weak : List Weak} (h : execGleanerPass weak u = .next t) : erase 262161 t = erase 262161 u := by
  unfold execGleanerPass at h
  refine next_er h ?_
  repeat' first
    | with_reducible rfl
    | with_reducible assumption
    | with_reducible refine State.puts_er ?_
    | with_reducible refine State.glean_er ?_
    | with_reducible refine erase_ite ?_ ?_
    | dsimp only
    | split

theorem execFlashPowerUp_frame {u t : State} {weak : List Weak} (h : execFlashPowerUp weak u = .next t) : erase 262161 t = erase 262161 u := by
  unfold execFlashPowerUp at h
  refine next_er h ?_
  repeat' first
    | with_reducible rfl
    | with_reducible assumption
    | with_reducible refine State.flashStart_er ?_
    | with_reducible refine erase_ite ?_ ?_
    | dsimp only
    | split

theorem execNvInhibitAssert_frame {u t : State}  (h : execNvInhibitAssert u = .next t) : erase 17 t = erase 17 u := by
  unfold execNvInhibitAssert at h
  refine next_er h ?_
  repeat' first
    | with_reducible rfl
    | with_reducible assumption
    | with_reducible refine State.put_er ?_
    | with_reducible refine State.raise_er ?_
    | with_reducible refine State.live_er ?_
    | with_reducible refine erase_ite ?_ ?_
    | dsimp only
    | split

theorem execBackgroundErase_frame {u t : State}  (h : execBackgroundErase u = .next t) : erase 262161 t = erase 262161 u := by
  unfold execBackgroundErase at h
  refine next_er h ?_
  repeat' first
    | with_reducible rfl
    | with_reducible assumption
    | with_reducible refine State.eraseRec_er ?_
    | with_reducible refine State.eraseRaw_er ?_
    | with_reducible refine State.modNv_er ?_
    | with_reducible refine State.nvRefresh_er ?_
    | with_reducible refine erase_ite ?_ ?_
    | with_reducible refine erase_of_fst (by assumption) ?_
    | dsimp only
    | split

theorem execFlashFault_frame {u t : State} {y0 : FlashUe} (h : execFlashFault y0 u = .next t) : erase 262161 t = erase 262161 u := by
  unfold execFlashFault at h
  dsimp only at h
  refine next_er h ?_
  repeat' first
    | with_reducible rfl
    | with_reducible assumption
    | with_reducible refine State.raise_er ?_
    | with_reducible refine State.setFault_er ?_
    | with_reducible refine State.puts_er ?_
    | with_reducible refine State.compactSec_er ?_
    | with_reducible refine State.nvRefresh_er ?_
    | with_reducible refine State.eraseRaw_er ?_
    | with_reducible refine State.modNv_er ?_
    | with_reducible refine State.fold_er ?_
    | with_reducible refine State.cntRefresh_er ?_
    | with_reducible refine State.rawRes_er ?_
    | with_reducible refine State.indexRecords_er ?_
    | with_reducible refine erase_ite ?_ ?_
    | with_reducible refine erase_of_fst (by assumption) ?_
    | dsimp only
    | split

theorem execRouteCfgWrite_frame {u t : State} {table : Fin 3} {entry : Fin 1024} {v : Word} (h : execRouteCfgWrite table entry v u = .next t) : erase 21 t = erase 21 u := by
  unfold execRouteCfgWrite at h
  refine next_er h ?_
  repeat' first
    | with_reducible rfl
    | with_reducible assumption
    | with_reducible refine State.hostWrite_er ?_ ?_
    | with_reducible refine State.shadowPut_er ?_
    | with_reducible refine erase_ite ?_ ?_
    | dsimp only
    | split

theorem execWindowMeasure_frame {u t : State} {src : Fin 96} {dst : Dest} {lead0 : Int} {lead1 : Int} (h : execWindowMeasure src dst lead0 lead1 u = .next t) : erase 513 t = erase 513 u := by
  unfold execWindowMeasure at h
  dsimp only at h
  refine next_er h ?_
  repeat' first
    | with_reducible rfl
    | with_reducible assumption
    | with_reducible refine State.marginTick_er ?_
    | with_reducible refine erase_foldl ?_ (fun _ _ => ?_)
    | with_reducible refine erase_foldl_fst ?_ (fun _ _ => ?_)
    | with_reducible refine erase_of_fst (by assumption) ?_
    | dsimp only
    | split
    | with_reducible refine upd_floor_er ?_

theorem execRouteFallback_frame {u t : State} {table : Fin 2} {entry : Fin 1024} (h : execRouteFallback table entry u = .next t) : erase 529 t = erase 529 u := by
  unfold execRouteFallback at h
  dsimp only at h
  refine next_er h ?_
  repeat' first
    | with_reducible rfl
    | with_reducible assumption
    | with_reducible refine State.puts_er ?_
    | with_reducible refine State.setRoute_er ?_
    | with_reducible refine State.routeEvent_er ?_
    | with_reducible refine State.latencyChange_er ?_
    | with_reducible refine erase_ite ?_ ?_
    | dsimp only
    | split

theorem execRouteReturn_frame {u t : State} {table : Fin 2} {entry : Fin 1024} (h : execRouteReturn table entry u = .next t) : erase 529 t = erase 529 u := by
  unfold execRouteReturn at h
  dsimp only at h
  refine next_er h ?_
  repeat' first
    | with_reducible rfl
    | with_reducible assumption
    | with_reducible refine State.puts_er ?_
    | with_reducible refine State.setRoute_er ?_
    | with_reducible refine State.routeEvent_er ?_
    | with_reducible refine State.latencyChange_er ?_
    | with_reducible refine erase_ite ?_ ?_
    | dsimp only
    | split

theorem execFlReexamine_frame {u t : State} {domains : BitVec 8} (h : execFlReexamine domains u = .next t) : erase 529 t = erase 529 u := by
  unfold execFlReexamine at h
  refine next_er h ?_
  repeat' first
    | with_reducible rfl
    | with_reducible assumption
    | with_reducible refine State.hostWrite_er ?_ ?_
    | with_reducible refine State.setRoute_er ?_
    | with_reducible refine erase_foldl ?_ (fun _ _ => ?_)
    | with_reducible refine erase_foldl_fst ?_ (fun _ _ => ?_)

theorem execRouteSourceResume_frame {u t : State} {table : Fin 3} {entry : Fin 1024} (h : execRouteSourceResume table entry u = .next t) : erase 2577 t = erase 2577 u := by
  unfold execRouteSourceResume at h
  dsimp only at h
  refine next_er h ?_
  repeat' first
    | with_reducible rfl
    | with_reducible assumption
    | with_reducible refine State.setRoute_er ?_
    | with_reducible refine State.put_er ?_
    | with_reducible refine State.puts_er ?_
    | with_reducible refine State.setLayer_er ?_
    | with_reducible refine State.latencyChange_er ?_
    | with_reducible refine State.floorLive_er ?_
    | with_reducible refine erase_ite ?_ ?_
    | dsimp only
    | split

theorem execFinanoLinkFail_frame {u t : State} {sheaf : Fin 8} {toSheaf : Bool} {link : Fin 2} {y3 : LinkFail} (h : execFinanoLinkFail sheaf toSheaf link y3 u = .next t) : erase 529 t = erase 529 u := by
  unfold execFinanoLinkFail at h
  refine next_er h ?_
  repeat' first
    | with_reducible rfl
    | with_reducible assumption
    | with_reducible refine State.put_er ?_
    | with_reducible refine State.raise_er ?_
    | with_reducible refine State.floorLive_er ?_
    | with_reducible refine erase_ite ?_ ?_
    | dsimp only
    | split
    | with_reducible refine upd_floor_er ?_

theorem execLinkMove_frame {u t : State} {sheaf : Fin 8} {toSheaf : Bool} (h : execLinkMove sheaf toSheaf u = .next t) : erase 5649 t = erase 5649 u := by
  unfold execLinkMove at h
  refine next_er h ?_
  repeat' first
    | with_reducible rfl
    | with_reducible assumption
    | with_reducible refine State.shedFinano_er ?_
    | with_reducible refine erase_ite ?_ ?_
    | dsimp only
    | split
    | with_reducible refine upd_floor_er ?_

theorem execFinanoLinkTest_frame {u t : State} {sheaf : Fin 8} {toSheaf : Bool} {link : Fin 2} {uncorrectable : Nat} (h : execFinanoLinkTest sheaf toSheaf link uncorrectable u = .next t) : erase 512 t = erase 512 u := by
  unfold execFinanoLinkTest at h
  refine next_er h ?_
  repeat' first
    | with_reducible rfl
    | with_reducible assumption
    | with_reducible refine erase_ite ?_ ?_
    | dsimp only
    | split
    | with_reducible refine upd_floor_er ?_

theorem execFinanoLinkRestore_frame {u t : State} {sheaf : Fin 8} {toSheaf : Bool} {link : Fin 2} (h : execFinanoLinkRestore sheaf toSheaf link u = .next t) : erase 513 t = erase 513 u := by
  unfold execFinanoLinkRestore at h
  refine next_er h ?_
  repeat' first
    | with_reducible rfl
    | with_reducible assumption
    | with_reducible refine State.put_er ?_
    | with_reducible refine State.floorLive_er ?_
    | with_reducible refine erase_ite ?_ ?_
    | dsimp only
    | split
    | with_reducible refine upd_floor_er ?_

theorem execHqrPop_frame {u t : State} {n : Fin 4} (h : execHqrPop n u = .next t) : erase 16401 t = erase 16401 u := by
  unfold execHqrPop at h
  refine next_er h ?_
  repeat' first
    | with_reducible rfl
    | with_reducible assumption
    | with_reducible refine State.hostWrite_er ?_ ?_
    | with_reducible refine State.setHqr_er ?_

theorem execHqtSend_frame {u t : State} {n : Fin 4} {v : Word} (h : execHqtSend n v u = .next t) : erase 16401 t = erase 16401 u := by
  unfold execHqtSend at h
  dsimp only at h
  refine next_er h ?_
  repeat' first
    | with_reducible rfl
    | with_reducible assumption
    | with_reducible refine State.hostWrite_er ?_ ?_
    | with_reducible refine State.wr_er ?_
    | with_reducible refine State.puts_er ?_
    | with_reducible refine State.modIp_er ?_
    | with_reducible refine erase_ite ?_ ?_
    | dsimp only
    | split

theorem execHqtSent_frame {u t : State} {n : Fin 4} {ts : Nat} (h : execHqtSent n ts u = .next t) : erase 8405009 t = erase 8405009 u := by
  unfold execHqtSent at h
  dsimp only at h
  refine next_er h ?_
  repeat' first
    | with_reducible rfl
    | with_reducible assumption
    | with_reducible refine State.portSend_er ?_
    | with_reducible refine State.modIp_er ?_
    | with_reducible refine State.put_er ?_
    | with_reducible refine State.puts_er ?_
    | with_reducible refine erase_ite ?_ ?_
    | dsimp only
    | split

theorem execEthFrameReceived_frame {u t : State} {n : Fin 4} {f : EthFrame} (h : execEthFrameReceived n f u = .next t) : erase 16839761 t = erase 16839761 u := by
  unfold execEthFrameReceived at h
  dsimp only at h
  refine next_er h ?_
  repeat' first
    | with_reducible rfl
    | with_reducible assumption
    | with_reducible refine State.bump_er ?_
    | with_reducible refine State.ipCause_er ?_
    | with_reducible refine State.msReceive_er ?_
    | with_reducible refine State.ethRoute_er ?_
    | with_reducible refine State.hostQueue_er ?_
    | with_reducible refine erase_ite ?_ ?_
    | with_reducible refine erase_of_fst (by assumption) ?_
    | dsimp only
    | split

theorem execRxFrameTimeout_frame {u t : State} {c : Fin 1024} (h : execRxFrameTimeout c u = .next t) : erase 54353 t = erase 54353 u := by
  unfold execRxFrameTimeout at h
  dsimp only at h
  refine next_er h ?_
  repeat' first
    | with_reducible rfl
    | with_reducible assumption
    | with_reducible refine State.rxSets_er ?_
    | with_reducible refine State.start_er ?_
    | with_reducible refine State.rxSetEnd_er ?_
    | with_reducible refine erase_ite ?_ ?_
    | with_reducible refine erase_of_fst (by assumption) ?_
    | dsimp only
    | split

theorem execRxStreamLost_frame {u t : State} {c : Fin 1024} (h : execRxStreamLost c u = .next t) : erase 22033 t = erase 22033 u := by
  unfold execRxStreamLost at h
  refine next_er h ?_
  repeat' first
    | with_reducible rfl
    | with_reducible assumption
    | with_reducible refine State.puts_er ?_
    | with_reducible refine State.rxClear_er ?_
    | with_reducible refine State.ipCauseAt_er ?_
    | with_reducible refine State.sourceStops_er ?_
    | with_reducible refine State.legsRefresh_er ?_
    | with_reducible refine erase_ite ?_ ?_
    | dsimp only
    | split

theorem execLegTimeout_frame {u t : State} {c : Fin 1024} {legB : Bool} (h : execLegTimeout c legB u = .next t) : erase 16401 t = erase 16401 u := by
  unfold execLegTimeout at h
  dsimp only at h
  refine next_er h ?_
  repeat' first
    | with_reducible rfl
    | with_reducible assumption
    | with_reducible refine State.setIrx_er ?_
    | with_reducible refine State.legsRefresh_er ?_
    | with_reducible refine State.ipCauseAt_er ?_
    | with_reducible refine erase_ite ?_ ?_
    | dsimp only
    | split

theorem execRxAsyncMeasure_frame {u t : State} {c : Fin 1024} {ppb : Int} (h : execRxAsyncMeasure c ppb u = .next t) : erase 17 t = erase 17 u := by
  unfold execRxAsyncMeasure at h
  dsimp only at h
  refine next_er h ?_
  repeat' first
    | with_reducible rfl
    | with_reducible assumption
    | with_reducible refine State.put_er ?_
    | with_reducible refine State.ipCauseAt_er ?_
    | with_reducible refine erase_ite ?_ ?_
    | dsimp only
    | split

theorem execOptTransferStart_frame {u t : State} {n : Fin 4} {v : Word} (h : execOptTransferStart n v u = .next t) : erase 16401 t = erase 16401 u := by
  unfold execOptTransferStart at h
  dsimp only at h
  refine next_er h ?_
  repeat' first
    | with_reducible rfl
    | with_reducible assumption
    | with_reducible refine State.hostWrite_er ?_ ?_
    | with_reducible refine State.wr_er ?_
    | with_reducible refine State.put_er ?_
    | with_reducible refine State.modIp_er ?_

theorem execOptTransferDone_frame {u t : State} {n : Fin 4} {r : Option (List Byte)} (h : execOptTransferDone n r u = .next t) : erase 8405009 t = erase 8405009 u := by
  unfold execOptTransferDone at h
  dsimp only at h
  refine next_er h ?_
  repeat' first
    | with_reducible rfl
    | with_reducible assumption
    | with_reducible refine State.modIp_er ?_
    | with_reducible refine State.puts_er ?_
    | with_reducible refine State.ipCause_er ?_
    | with_reducible refine State.emit_er ?_
    | with_reducible refine State.setWindow_er ?_
    | with_reducible refine erase_ite ?_ ?_
    | with_reducible refine erase_of_fst (by assumption) ?_
    | dsimp only
    | split

theorem execModChange_frame {u t : State} {n : Fin 4} {present : Bool} (h : execModChange n present u = .next t) : erase 17 t = erase 17 u := by
  unfold execModChange at h
  refine next_er h ?_
  repeat' first
    | with_reducible rfl
    | with_reducible assumption
    | with_reducible refine State.put_er ?_
    | with_reducible refine State.ipCause_er ?_
    | with_reducible refine erase_ite ?_ ?_
    | dsimp only
    | split

theorem execModInt_frame {u t : State} {n : Fin 4} {asserted : Bool} (h : execModInt n asserted u = .next t) : erase 17 t = erase 17 u := by
  unfold execModInt at h
  dsimp only at h
  refine next_er h ?_
  repeat' first
    | with_reducible rfl
    | with_reducible assumption
    | with_reducible refine State.put_er ?_
    | with_reducible refine State.ipCause_er ?_
    | with_reducible refine erase_ite ?_ ?_
    | dsimp only
    | split

theorem execLinkUp_frame {u t : State} {n : Fin 4} (h : execLinkUp n u = .next t) : erase 17 t = erase 17 u := by
  unfold execLinkUp at h
  refine next_er h ?_
  repeat' first
    | with_reducible rfl
    | with_reducible assumption
    | with_reducible refine State.puts_er ?_
    | with_reducible refine State.ipLive_er ?_
    | with_reducible refine State.ipCause_er ?_
    | with_reducible refine erase_ite ?_ ?_
    | dsimp only
    | split

theorem execLinkDown_frame {u t : State} {n : Fin 4} {aligned : Bool} (h : execLinkDown n aligned u = .next t) : erase 145 t = erase 145 u := by
  unfold execLinkDown at h
  refine next_er h ?_
  repeat' first
    | with_reducible rfl
    | with_reducible assumption
    | with_reducible refine State.puts_er ?_
    | with_reducible refine State.ipLive_er ?_
    | with_reducible refine State.ipCause_er ?_
    | with_reducible refine State.candLost_er ?_
    | with_reducible refine State.put_er ?_
    | with_reducible refine erase_ite ?_ ?_
    | dsimp only
    | split

theorem execTxFrameStart_frame {u t : State} {c : Fin 1024} {k : Nat} {dev : Int} (h : execTxFrameStart c k dev u = .next t) : erase 25222683 t = erase 25222683 u := by
  unfold execTxFrameStart at h
  dsimp only at h
  refine next_er h ?_
  repeat' first
    | with_reducible rfl
    | with_reducible assumption
    | with_reducible refine State.txTake_er ?_
    | with_reducible refine State.routeDue_er ?_
    | with_reducible refine State.txFrame_er ?_
    | with_reducible refine erase_ite ?_ ?_
    | dsimp only
    | split

theorem execTxPacketSend_frame {u t : State} {c : Fin 1024} {lateA lateB : Nat} (h : execTxPacketSend c lateA lateB u = .next t) : erase 25216017 t = erase 25216017 u := by
  unfold execTxPacketSend at h
  dsimp only at h
  refine next_er h ?_
  repeat' first
    | with_reducible rfl
    | with_reducible assumption
    | with_reducible refine State.txBytes_er ?_
    | with_reducible refine State.rtpSend_er ?_
    | with_reducible refine State.setItx_er ?_
    | with_reducible refine State.readersDone_er ?_
    | with_reducible refine State.bump_er ?_
    | with_reducible refine State.ipCauseAt_er ?_
    | with_reducible refine erase_ite ?_ ?_
    | dsimp only
    | split

theorem execTxAudioPacket_frame {u t : State} {c : Fin 1024} {n : Nat} (h : execTxAudioPacket c n u = .next t) : erase 25190417 t = erase 25190417 u := by
  unfold execTxAudioPacket at h
  dsimp only at h
  refine next_er h ?_
  repeat' first
    | with_reducible rfl
    | with_reducible assumption
    | with_reducible refine State.audBytes_er ?_
    | with_reducible refine State.modAud_er ?_
    | with_reducible refine State.rtpSend_er ?_
    | with_reducible refine State.setItx_er ?_
    | with_reducible refine State.rqRefresh_er ?_
    | with_reducible refine erase_ite ?_ ?_
    | with_reducible refine erase_foldl ?_ (fun _ _ => ?_)
    | with_reducible refine erase_foldl_fst ?_ (fun _ _ => ?_)
    | dsimp only
    | split

theorem execPtpMessage_frame {u t : State} {n : Fin 4} {y1 : PtpMsg} (h : execPtpMessage n y1 u = .next t) : erase 16529 t = erase 16529 u := by
  unfold execPtpMessage at h
  dsimp only at h
  refine next_er h ?_
  repeat' first
    | with_reducible rfl
    | with_reducible assumption
    | with_reducible refine State.setPtp_er ?_
    | with_reducible refine State.ptpSelect_er ?_
    | with_reducible refine State.bump_er ?_
    | with_reducible refine State.put_er ?_
    | with_reducible refine State.ptpOffset_er ?_
    | with_reducible refine State.puti_er ?_
    | with_reducible refine erase_ite ?_ ?_
    | with_reducible refine erase_of_fst (by assumption) ?_
    | dsimp only
    | split

theorem execAnnounceTimeout_frame {u t : State} {n : Fin 4} {sender : Nat} (h : execAnnounceTimeout n sender u = .next t) : erase 16529 t = erase 16529 u := by
  unfold execAnnounceTimeout at h
  dsimp only at h
  refine next_er h ?_
  repeat' first
    | with_reducible rfl
    | with_reducible assumption
    | with_reducible refine State.setPtp_er ?_
    | with_reducible refine State.bump_er ?_
    | with_reducible refine State.ptpSelect_er ?_
    | with_reducible refine State.candLost_er ?_
    | with_reducible refine erase_ite ?_ ?_
    | dsimp only
    | split

theorem execDelayReq_frame {u t : State} {n : Fin 4} {t3 : Int} (h : execDelayReq n t3 u = .next t) : erase 25182225 t = erase 25182225 u := by
  unfold execDelayReq at h
  dsimp only at h
  refine next_er h ?_
  repeat' first
    | with_reducible rfl
    | with_reducible assumption
    | with_reducible refine State.free_er ?_
    | with_reducible refine State.udpFrame_er ?_
    | with_reducible refine State.portSend_er ?_
    | with_reducible refine State.setPtp_er ?_
    | with_reducible refine erase_ite ?_ ?_
    | dsimp only
    | split

theorem execIpTableUe_frame {u t : State} {n : Fin 4} {array : Fin 6} {index : Fin 512} (h : execIpTableUe n array index u = .next t) : erase 22033 t = erase 22033 u := by
  unfold execIpTableUe at h
  dsimp only at h
  refine next_er h ?_
  repeat' first
    | with_reducible rfl
    | with_reducible assumption
    | with_reducible refine State.setFault_er ?_
    | with_reducible refine State.modIp_er ?_
    | with_reducible refine State.keyedRefresh_er ?_
    | with_reducible refine State.put_er ?_
    | with_reducible refine State.loadRefresh_er ?_
    | with_reducible refine State.puts_er ?_
    | with_reducible refine State.rxClear_er ?_
    | with_reducible refine State.sourceStops_er ?_
    | with_reducible refine State.legsRefresh_er ?_
    | with_reducible refine State.ipCause_er ?_
    | with_reducible refine State.setHqr_er ?_
    | with_reducible refine erase_ite ?_ ?_
    | dsimp only
    | split

theorem execKsDerive_frame {u t : State} {v : Word} (h : execKsDerive v u = .next t) : erase 18235409 t = erase 18235409 u := by
  unfold execKsDerive at h
  refine next_er h ?_
  repeat' first
    | with_reducible rfl
    | with_reducible assumption
    | with_reducible refine State.ksCommand_er ?_

theorem execKsClear_frame {u t : State} {v : Word} (h : execKsClear v u = .next t) : erase 18235409 t = erase 18235409 u := by
  unfold execKsClear at h
  refine next_er h ?_
  repeat' first
    | with_reducible rfl
    | with_reducible assumption
    | with_reducible refine State.ksCommand_er ?_

theorem execKsAttest_frame {u t : State} {v : Word} (h : execKsAttest v u = .next t) : erase 18235409 t = erase 18235409 u := by
  unfold execKsAttest at h
  refine next_er h ?_
  repeat' first
    | with_reducible rfl
    | with_reducible assumption
    | with_reducible refine State.ksCommand_er ?_

theorem execKsUpdate_frame {u t : State} {v : Word} (h : execKsUpdate v u = .next t) : erase 18235409 t = erase 18235409 u := by
  unfold execKsUpdate at h
  refine next_er h ?_
  repeat' first
    | with_reducible rfl
    | with_reducible assumption
    | with_reducible refine State.ksCommand_er ?_

theorem execMeasExtend_frame {u t : State} {digest : List Byte} {final : Bool} (h : execMeasExtend digest final u = .next t) : erase 16908289 t = erase 16908289 u := by
  unfold execMeasExtend at h
  refine next_er h ?_
  repeat' first
    | with_reducible rfl
    | with_reducible assumption
    | with_reducible refine State.modKs_er ?_
    | with_reducible refine State.extend_er ?_
    | with_reducible refine erase_ite ?_ ?_
    | dsimp only
    | split

theorem execRemask_frame {u t : State}  (h : execRemask u = .next t) : erase 16908288 t = erase 16908288 u := by
  unfold execRemask at h
  refine next_er h ?_
  repeat' first
    | with_reducible rfl
    | with_reducible assumption
    | with_reducible refine State.forAll_er ?_ (fun _ _ => ?_)
    | with_reducible refine State.setKey_er ?_
    | with_reducible refine erase_ite ?_ ?_
    | dsimp only
    | split

theorem execRngFault_frame {u t : State}  (h : execRngFault u = .next t) : erase 131089 t = erase 131089 u := by
  unfold execRngFault at h
  refine next_er h ?_
  repeat' first
    | with_reducible rfl
    | with_reducible assumption
    | with_reducible refine State.modKs_er ?_
    | with_reducible refine State.raise_er ?_
    | with_reducible refine State.live_er ?_

theorem execRngRecover_frame {u t : State}  (h : execRngRecover u = .next t) : erase 18235409 t = erase 18235409 u := by
  unfold execRngRecover at h
  dsimp only at h
  refine next_er h ?_
  repeat' first
    | with_reducible rfl
    | with_reducible assumption
    | with_reducible refine State.modKs_er ?_
    | with_reducible refine State.live_er ?_
    | with_reducible refine State.ksRun_er ?_
    | with_reducible refine State.runQueue_er ?_
    | with_reducible refine erase_ite ?_ ?_
    | dsimp only
    | split

theorem execKsFault_frame {u t : State} {y0 : KsUe} (h : execKsFault y0 u = .next t) : erase 18235409 t = erase 18235409 u := by
  unfold execKsFault at h
  dsimp only at h
  refine next_er h ?_
  repeat' first
    | with_reducible rfl
    | with_reducible assumption
    | with_reducible refine State.setFault_er ?_
    | with_reducible refine State.put_er ?_
    | with_reducible refine State.raise_er ?_
    | with_reducible refine State.invalidate_er ?_
    | with_reducible refine State.ksFlush_er ?_
    | with_reducible refine State.deriveRoots_er ?_
    | with_reducible refine erase_ite ?_ ?_
    | with_reducible refine erase_of_fst (by assumption) ?_
    | dsimp only
    | split

theorem execTamper_frame {u t : State} {cause : Fin 32} (h : execTamper cause u = .next t) : erase 26689553 t = erase 26689553 u := by
  unfold execTamper at h
  refine next_er h ?_
  repeat' first
    | with_reducible rfl
    | with_reducible assumption
    | with_reducible refine State.forAll_er ?_ (fun _ _ => ?_)
    | with_reducible refine State.setAttr_er ?_
    | with_reducible refine State.modKs_er ?_
    | with_reducible refine State.revokePorts_er ?_
    | with_reducible refine State.puts_er ?_
    | with_reducible refine State.raise_er ?_
    | with_reducible refine State.live_er ?_
    | with_reducible refine State.raiseIf_er ?_
    | with_reducible refine State.ksRes_er ?_
    | with_reducible refine State.put_er ?_
    | with_reducible refine State.busReset_er ?_
    | with_reducible refine State.runQueue_er ?_
    | with_reducible refine State.ksFlush_er ?_
    | with_reducible refine State.slotsRefresh_er ?_
    | with_reducible refine erase_ite ?_ ?_
    | dsimp only
    | split
    | with_reducible refine upd_mg_er ?_

theorem execKsStartup_frame {u t : State}  (h : execKsStartup u = .next t) : erase 17170449 t = erase 17170449 u := by
  unfold execKsStartup at h
  refine next_er h ?_
  repeat' first
    | with_reducible rfl
    | with_reducible assumption
    | with_reducible refine State.ksStart_er ?_
    | with_reducible refine erase_ite ?_ ?_
    | dsimp only
    | split

theorem execChannelFailCause_frame {u t : State} {c : Fin 12} {reason : Fin 8} (h : execChannelFailCause c reason u = .next t) : erase 32785 t = erase 32785 u := by
  unfold execChannelFailCause at h
  dsimp only at h
  refine next_er h ?_
  repeat' first
    | with_reducible rfl
    | with_reducible assumption
    | with_reducible refine State.markFailed_er ?_
    | with_reducible refine erase_ite ?_ ?_
    | with_reducible refine erase_of_fst (by assumption) ?_
    | dsimp only
    | split

theorem execErasureEntry_frame {u t : State} {c : Fin 12} (h : execErasureEntry c u = .next t) : erase 38417 t = erase 38417 u := by
  unfold execErasureEntry at h
  refine next_er h ?_
  repeat' first
    | with_reducible rfl
    | with_reducible assumption
    | with_reducible refine State.modMem_er ?_
    | with_reducible refine State.raise_er ?_
    | with_reducible refine State.memRefresh_er ?_
    | with_reducible refine State.shedMemory_er ?_
    | with_reducible refine erase_ite ?_ ?_
    | dsimp only
    | split

theorem execCeWindowEnd_frame {u t : State} {c : Fin 12} (h : execCeWindowEnd c u = .next t) : erase 32768 t = erase 32768 u := by
  unfold execCeWindowEnd at h
  refine next_er h ?_
  repeat' first
    | with_reducible rfl
    | with_reducible assumption
    | with_reducible refine State.modMem_er ?_

theorem execMcFail_frame {u t : State} {c : Fin 12} (h : execMcFail c u = .next t) : erase 32785 t = erase 32785 u := by
  unfold execMcFail at h
  refine next_er h ?_
  repeat' first
    | with_reducible rfl
    | with_reducible assumption
    | with_reducible refine State.hostWrite_er ?_ ?_
    | with_reducible refine State.markFailed_er ?_

theorem execMcRestore_frame {u t : State} {c : Fin 12} (h : execMcRestore c u = .next t) : erase 32785 t = erase 32785 u := by
  unfold execMcRestore at h
  refine next_er h ?_
  repeat' first
    | with_reducible rfl
    | with_reducible assumption
    | with_reducible refine State.hostWrite_er ?_ ?_
    | with_reducible refine State.modMem_er ?_
    | with_reducible refine erase_ite ?_ ?_
    | dsimp only
    | split

theorem execMemoryRead_frame {u t : State} {y0 : MemReader} {stripe : Nat} {first : Fin 11} {count : Fin 11} {hits : List MemHit} (h : execMemoryRead y0 stripe first count hits u = .next t) : erase 8421393 t = erase 8421393 u := by
  unfold execMemoryRead at h
  refine next_er h ?_
  repeat' first
    | with_reducible rfl
    | with_reducible assumption
    | with_reducible refine State.applyHits_er ?_
    | with_reducible refine State.stripeData_er ?_
    | with_reducible refine State.raiseIf_er ?_
    | with_reducible refine State.emit_er ?_
    | with_reducible refine erase_ite ?_ ?_
    | dsimp only
    | split

theorem execMemoryWrite_frame {u t : State} {stripe : Nat} {offset : Fin 640} {data : List Byte} (h : execMemoryWrite stripe offset data u = .next t) : erase 32785 t = erase 32785 u := by
  unfold execMemoryWrite at h
  refine next_er h ?_
  repeat' first
    | with_reducible rfl
    | with_reducible assumption
    | with_reducible refine State.stripeWrite_er ?_
    | with_reducible refine erase_ite ?_ ?_
    | dsimp only
    | split

theorem execWinnowStripe_frame {u t : State} {hits : List MemHit} {behind : Bool} (h : execWinnowStripe hits behind u = .next t) : erase 32785 t = erase 32785 u := by
  unfold execWinnowStripe at h
  refine next_er h ?_
  repeat' first
    | with_reducible rfl
    | with_reducible assumption
    | with_reducible refine State.raiseIf_er ?_
    | with_reducible refine State.applyHits_er ?_
    | with_reducible refine State.winnowVisit_er ?_
    | with_reducible refine State.modMem_er ?_
    | with_reducible refine State.put_er ?_
    | with_reducible refine State.raise_er ?_
    | with_reducible refine erase_ite ?_ ?_
    | dsimp only
    | split

theorem execRebuildDone_frame {u t : State}  (h : execRebuildDone u = .next t) : erase 33809 t = erase 33809 u := by
  unfold execRebuildDone at h
  refine next_er h ?_
  repeat' first
    | with_reducible rfl
    | with_reducible assumption
    | with_reducible refine State.put_er ?_
    | with_reducible refine State.memRefresh_er ?_
    | with_reducible refine State.modMem_er ?_
    | with_reducible refine erase_ite ?_ ?_
    | dsimp only
    | split

theorem execMemRefresh_frame {u t : State} {c : Fin 12} {what : Refresh} (h : execMemRefresh c what u = .next t) : erase 8388608 t = erase 8388608 u := by
  unfold execMemRefresh at h
  dsimp only at h
  refine next_er h ?_
  repeat' first
    | with_reducible rfl
    | with_reducible assumption
    | with_reducible refine State.emit_er ?_
    | with_reducible refine erase_ite ?_ ?_
    | dsimp only
    | split

theorem execMemTrainingDone_frame {u t : State} {c : Fin 12} {rdEye : Fin 256} {wrEye : Fin 256} {vref : Fin 64} (h : execMemTrainingDone c rdEye wrEye vref u = .next t) : erase 33809 t = erase 33809 u := by
  unfold execMemTrainingDone at h
  refine next_er h ?_
  repeat' first
    | with_reducible rfl
    | with_reducible assumption
    | with_reducible refine State.memTrained_er ?_

theorem execSelftestDone_frame {u t : State} {mismatch : List Nat} {ms : Nat} (h : execSelftestDone mismatch ms u = .next t) : erase 32785 t = erase 32785 u := by
  unfold execSelftestDone at h
  refine next_er h ?_
  repeat' first
    | with_reducible rfl
    | with_reducible assumption
    | with_reducible refine State.selftest_er ?_

theorem execMcRawUnlock_frame {u t : State} {c : Fin 12} {key : Word} (h : execMcRawUnlock c key u = .next t) : erase 32785 t = erase 32785 u := by
  unfold execMcRawUnlock at h
  refine next_er h ?_
  repeat' first
    | with_reducible rfl
    | with_reducible assumption
    | with_reducible refine State.hostWrite_er ?_ ?_
    | with_reducible refine State.modMem_er ?_
    | with_reducible refine erase_ite ?_ ?_
    | dsimp only
    | split

theorem execMcRawGo_frame {u t : State} {c : Fin 12} {write : Bool} (h : execMcRawGo c write u = .next t) : erase 32785 t = erase 32785 u := by
  unfold execMcRawGo at h
  dsimp only at h
  refine next_er h ?_
  repeat' first
    | with_reducible rfl
    | with_reducible assumption
    | with_reducible refine State.hostWrite_er ?_ ?_
    | with_reducible refine State.put_er ?_
    | with_reducible refine State.modMem_er ?_
    | with_reducible refine State.puts_er ?_
    | with_reducible refine erase_ite ?_ ?_
    | dsimp only
    | split

theorem execRawModeExpiry_frame {u t : State} {c : Fin 12} (h : execRawModeExpiry c u = .next t) : erase 32768 t = erase 32768 u := by
  unfold execRawModeExpiry at h
  refine next_er h ?_
  repeat' first
    | with_reducible rfl
    | with_reducible assumption
    | with_reducible refine State.modMem_er ?_

theorem execMemQueueUe_frame {u t : State} {y0 : QueueUe} (h : execMemQueueUe y0 u = .next t) : erase 32785 t = erase 32785 u := by
  unfold execMemQueueUe at h
  refine next_er h ?_
  repeat' first
    | with_reducible rfl
    | with_reducible assumption
    | with_reducible refine State.setFault_er ?_
    | with_reducible refine State.markFailed_er ?_
    | with_reducible refine State.modMem_er ?_
    | with_reducible refine State.wr_er ?_
    | with_reducible refine State.put_er ?_
    | with_reducible refine State.poisonRefresh_er ?_
    | with_reducible refine erase_ite ?_ ?_
    | with_reducible refine erase_foldl ?_ (fun _ _ => ?_)
    | with_reducible refine erase_foldl_fst ?_ (fun _ _ => ?_)
    | with_reducible refine erase_of_fst (by assumption) ?_
    | dsimp only
    | split

theorem execFaultLogWrite_frame {u t : State} {ev : Fin 512} {count : Nat} (h : execFaultLogWrite ev count u = .next t) : erase 18087937 t = erase 18087937 u := by
  unfold execFaultLogWrite at h
  refine next_er h ?_
  repeat' first
    | with_reducible rfl
    | with_reducible assumption
    | with_reducible refine State.logAppend_er ?_
    | with_reducible refine erase_ite ?_ ?_
    | dsimp only
    | split

theorem execNvInhibitRelease_frame {u t : State}  (h : execNvInhibitRelease u = .next t) : erase 18219025 t = erase 18219025 u := by
  unfold execNvInhibitRelease at h
  refine next_er h ?_
  repeat' first
    | with_reducible rfl
    | with_reducible assumption
    | with_reducible refine State.inhibitEnd_er ?_
    | with_reducible refine State.ksFlush_er ?_
    | with_reducible refine State.mernakFlush_er ?_
    | with_reducible refine erase_ite ?_ ?_
    | dsimp only
    | split

theorem execMgWdtKick_frame {u t : State}  (h : execMgWdtKick u = .next t) : erase 1048576 t = erase 1048576 u := by
  unfold execMgWdtKick at h
  refine next_er h ?_
  repeat' first
    | with_reducible rfl
    | with_reducible assumption
    | with_reducible refine State.modMg_er ?_

theorem execWatchdog_frame {u t : State} {ue : Option (Fin 512)} (h : execWatchdog ue u = .next t) : erase 26542097 t = erase 26542097 u := by
  unfold execWatchdog at h
  refine next_er h ?_
  repeat' first
    | with_reducible rfl
    | with_reducible assumption
    | with_reducible refine State.setFault_er ?_
    | with_reducible refine State.mernakRestart_er ?_
    | with_reducible refine erase_of_fst (by assumption) ?_
    | dsimp only
    | split

theorem execDebugEnabled_frame {u t : State}  (h : execDebugEnabled u = .next t) : erase 17 t = erase 17 u := by
  unfold execDebugEnabled at h
  refine next_er h ?_
  repeat' first
    | with_reducible rfl
    | with_reducible assumption
    | with_reducible refine State.put_er ?_
    | with_reducible refine State.raise_er ?_
    | with_reducible refine State.live_er ?_
    | with_reducible refine erase_ite ?_ ?_
    | dsimp only
    | split

theorem execDmaGo_frame {u t : State} {v : Word} (h : execDmaGo v u = .next t) : erase 17 t = erase 17 u := by
  unfold execDmaGo at h
  refine next_er h ?_
  repeat' first
    | with_reducible rfl
    | with_reducible assumption
    | with_reducible refine State.hostWrite_er ?_ ?_
    | with_reducible refine State.put_er ?_
    | with_reducible refine State.puts_er ?_
    | with_reducible refine State.raiseIf_er ?_
    | with_reducible refine erase_ite ?_ ?_
    | dsimp only
    | split

theorem execDmaJobEnd_frame {u t : State} {e : DmaEnd} (h : execDmaJobEnd e u = .next t) : erase 25264145 t = erase 25264145 u := by
  unfold execDmaJobEnd at h
  refine next_er h ?_
  repeat' first
    | with_reducible rfl
    | with_reducible assumption
    | with_reducible refine State.dmaDone_er ?_
    | with_reducible refine State.puts_er ?_
    | with_reducible refine State.raise_er ?_
    | with_reducible refine erase_ite ?_ ?_
    | dsimp only
    | split

theorem execDmaAbort_frame {u t : State} {e : DmaEnd} (h : execDmaAbort e u = .next t) : erase 25264145 t = erase 25264145 u := by
  unfold execDmaAbort at h
  refine next_er h ?_
  repeat' first
    | with_reducible rfl
    | with_reducible assumption
    | with_reducible refine State.hostWrite_er ?_ ?_
    | with_reducible refine State.dmaCopy_er ?_
    | with_reducible refine State.busReset_er ?_
    | with_reducible refine State.puts_er ?_
    | with_reducible refine State.raise_er ?_
    | with_reducible refine erase_ite ?_ ?_
    | dsimp only
    | split

theorem execUpdStart_frame {u t : State} {header : List Byte} (h : execUpdStart header u = .next t) : erase 9437201 t = erase 9437201 u := by
  unfold execUpdStart at h
  refine next_er h ?_
  repeat' first
    | with_reducible rfl
    | with_reducible assumption
    | with_reducible refine State.hostWrite_er ?_ ?_
    | with_reducible refine State.modMg_er ?_
    | with_reducible refine State.puts_er ?_
    | with_reducible refine State.updHeaderIn_er ?_
    | with_reducible refine erase_ite ?_ ?_
    | dsimp only
    | split

theorem execUpdAbort_frame {u t : State}  (h : execUpdAbort u = .next t) : erase 26279953 t = erase 26279953 u := by
  unfold execUpdAbort at h
  refine next_er h ?_
  repeat' first
    | with_reducible rfl
    | with_reducible assumption
    | with_reducible refine State.hostWrite_er ?_ ?_
    | with_reducible refine State.updAbandon_er ?_

theorem execMasterPortReset_frame {u t : State} {y0 : Fin 8} {ids : Word} {held : Bool} {delivered : List (Nat × Nat)} (h : execMasterPortReset y0 ids held delivered u = .next t) : erase 26279953 t = erase 26279953 u := by
  unfold execMasterPortReset at h
  dsimp only at h
  refine next_er h ?_
  repeat' first
    | with_reducible rfl
    | with_reducible assumption
    | with_reducible refine State.put_er ?_
    | with_reducible refine State.busReset_er ?_
    | with_reducible refine State.updFail_er ?_
    | with_reducible refine erase_ite ?_ ?_
    | dsimp only
    | split

theorem execUpdBlockTimeout_frame {u t : State}  (h : execUpdBlockTimeout u = .next t) : erase 26279953 t = erase 26279953 u := by
  unfold execUpdBlockTimeout at h
  refine next_er h ?_
  repeat' first
    | with_reducible rfl
    | with_reducible assumption
    | with_reducible refine State.updAbandon_er ?_
    | with_reducible refine erase_ite ?_ ?_
    | dsimp only
    | split

theorem execUpdBlockReady_frame {u t : State} {tagOk : Bool} (h : execUpdBlockReady tagOk u = .next t) : erase 9437201 t = erase 9437201 u := by
  unfold execUpdBlockReady at h
  refine next_er h ?_
  repeat' first
    | with_reducible rfl
    | with_reducible assumption
    | with_reducible refine State.hostWrite_er ?_ ?_
    | with_reducible refine State.updHeaderIn_er ?_
    | with_reducible refine State.updFail_er ?_
    | with_reducible refine State.emit_er ?_
    | with_reducible refine State.put_er ?_
    | with_reducible refine erase_ite ?_ ?_
    | dsimp only
    | split

theorem execSensorRead_frame {u t : State} {i : Fin 11} {v : Option Int} (h : execSensorRead i v u = .next t) : erase 145 t = erase 145 u := by
  unfold execSensorRead at h
  dsimp only at h
  refine next_er h ?_
  repeat' first
    | with_reducible rfl
    | with_reducible assumption
    | with_reducible refine State.puti_er ?_
    | with_reducible refine State.put_er ?_
    | with_reducible refine State.raiseIf_er ?_
    | with_reducible refine State.live_er ?_
    | with_reducible refine State.tempRefresh_er ?_
    | with_reducible refine erase_ite ?_ ?_
    | with_reducible refine erase_of_fst (by assumption) ?_
    | dsimp only
    | split

theorem execRailRead_frame {u t : State} {r : Fin 13} {mv : Fin 65536} {low : Fin 8} (h : execRailRead r mv low u = .next t) : erase 1048593 t = erase 1048593 u := by
  unfold execRailRead at h
  dsimp only at h
  refine next_er h ?_
  repeat' first
    | with_reducible rfl
    | with_reducible assumption
    | with_reducible refine State.put_er ?_
    | with_reducible refine State.puts_er ?_
    | with_reducible refine State.modMg_er ?_
    | with_reducible refine State.forAll_er ?_ (fun _ _ => ?_)
    | with_reducible refine State.raiseIf_er ?_
    | with_reducible refine State.live_er ?_
    | with_reducible refine erase_ite ?_ ?_
    | dsimp only
    | split

theorem execAgeingMeasure_frame {u t : State} {die : Fin 7} {cycles : List Nat} {mv : Nat} {temp : Int} (h : execAgeingMeasure die cycles mv temp u = .next t) : erase 1048593 t = erase 1048593 u := by
  unfold execAgeingMeasure at h
  dsimp only at h
  refine next_er h ?_
  repeat' first
    | with_reducible rfl
    | with_reducible assumption
    | with_reducible refine State.forAll_er ?_ (fun _ _ => ?_)
    | with_reducible refine State.put_er ?_
    | with_reducible refine State.setAge_er ?_
    | with_reducible refine State.eolRefresh_er ?_
    | with_reducible refine erase_ite ?_ ?_
    | with_reducible refine erase_foldl ?_ (fun _ _ => ?_)
    | with_reducible refine erase_foldl_fst ?_ (fun _ _ => ?_)
    | with_reducible refine erase_of_fst (by assumption) ?_
    | dsimp only
    | split

theorem execAgeingDaily_frame {u t : State} {die : Fin 7} (h : execAgeingDaily die u = .next t) : erase 1048593 t = erase 1048593 u := by
  unfold execAgeingDaily at h
  dsimp only at h
  refine next_er h ?_
  repeat' first
    | with_reducible rfl
    | with_reducible assumption
    | with_reducible refine State.bump_er ?_
    | with_reducible refine State.setAge_er ?_
    | with_reducible refine State.eolRefresh_er ?_
    | with_reducible refine erase_ite ?_ ?_
    | dsimp only
    | split

theorem execCalUnlock_frame {u t : State} {key : Word} (h : execCalUnlock key u = .next t) : erase 1048593 t = erase 1048593 u := by
  unfold execCalUnlock at h
  refine next_er h ?_
  repeat' first
    | with_reducible rfl
    | with_reducible assumption
    | with_reducible refine State.hostWrite_er ?_ ?_
    | with_reducible refine State.modMg_er ?_

theorem execCalRead_frame {u t : State} {v : Word} (h : execCalRead v u = .next t) : erase 262161 t = erase 262161 u := by
  unfold execCalRead at h
  dsimp only at h
  refine next_er h ?_
  repeat' first
    | with_reducible rfl
    | with_reducible assumption
    | with_reducible refine State.hostWrite_er ?_ ?_
    | with_reducible refine State.calCmd_er ?_
    | with_reducible refine State.put_er ?_
    | with_reducible refine State.resolveKey_er ?_
    | with_reducible refine State.puts_er ?_
    | with_reducible refine State.forAll_er ?_ (fun _ _ => ?_)
    | with_reducible refine State.wr_er ?_
    | with_reducible refine erase_ite ?_ ?_
    | with_reducible refine erase_of_fst (by assumption) ?_
    | dsimp only
    | split

theorem execCalWrite_frame {u t : State} {v : Word} (h : execCalWrite v u = .next t) : erase 1310865 t = erase 1310865 u := by
  unfold execCalWrite at h
  dsimp only at h
  refine next_er h ?_
  repeat' first
    | with_reducible rfl
    | with_reducible assumption
    | with_reducible refine State.hostWrite_er ?_ ?_
    | with_reducible refine State.calCmd_er ?_
    | with_reducible refine State.put_er ?_
    | with_reducible refine State.modMg_er ?_
    | with_reducible refine State.calReplace_er ?_
    | with_reducible refine erase_ite ?_ ?_
    | with_reducible refine erase_of_fst (by assumption) ?_
    | dsimp only
    | split

theorem execCalWindowExpiry_frame {u t : State}  (h : execCalWindowExpiry u = .next t) : erase 1048576 t = erase 1048576 u := by
  unfold execCalWindowExpiry at h
  refine next_er h ?_
  repeat' first
    | with_reducible rfl
    | with_reducible assumption
    | with_reducible refine State.modMg_er ?_

theorem execLearnTableSave_frame {u t : State}  (h : execLearnTableSave u = .next t) : erase 1310865 t = erase 1310865 u := by
  unfold execLearnTableSave at h
  refine next_er h ?_
  repeat' first
    | with_reducible rfl
    | with_reducible assumption
    | with_reducible refine State.calReplace_er ?_
    | with_reducible refine erase_ite ?_ ?_
    | dsimp only
    | split

theorem execOutputStart_frame {u t : State} {g : Fin 96} (h : execOutputStart g u = .next t) : erase 2129 t = erase 2129 u := by
  unfold execOutputStart at h
  dsimp only at h
  refine next_er h ?_
  repeat' first
    | with_reducible rfl
    | with_reducible assumption
    | with_reducible refine State.outInvalid_er ?_
    | with_reducible refine State.setTx_er ?_
    | with_reducible refine State.puts_er ?_
    | with_reducible refine State.outSend_er ?_
    | with_reducible refine State.raise_er ?_
    | with_reducible refine State.setComp_er ?_
    | with_reducible refine State.epochMoves_er ?_
    | with_reducible refine erase_ite ?_ ?_
    | with_reducible refine erase_of_fst (by assumption) ?_
    | dsimp only
    | split

theorem execStopModeWrite_frame {u t : State} {g : Fin 96} {mode : Fin 4} (h : execStopModeWrite g mode u = .next t) : erase 81 t = erase 81 u := by
  unfold execStopModeWrite at h
  dsimp only at h
  refine next_er h ?_
  repeat' first
    | with_reducible rfl
    | with_reducible assumption
    | with_reducible refine State.hostWrite_er ?_ ?_
    | with_reducible refine State.put_er ?_
    | with_reducible refine State.setTx_er ?_
    | with_reducible refine erase_ite ?_ ?_
    | dsimp only
    | split

theorem execOutputFrameStart_frame {u t : State} {g : Fin 96} {y1 : Int} {hancRoom : Nat} {vancRoom : Nat} (h : execOutputFrameStart g y1 hancRoom vancRoom u = .next t) : erase 8397393 t = erase 8397393 u := by
  unfold execOutputFrameStart at h
  dsimp only at h
  refine next_er h ?_
  repeat' first
    | with_reducible rfl
    | with_reducible assumption
    | with_reducible refine State.runFrame_er ?_
    | with_reducible refine State.blackFrame_er ?_
    | with_reducible refine State.quietFrame_er ?_
    | with_reducible refine erase_ite ?_ ?_
    | with_reducible refine erase_of_fst (by assumption) ?_
    | dsimp only
    | split

theorem execOutputLineStart_frame {u t : State} {g : Fin 96} {line : Nat} {complete : Bool} {late : List (Fin 32)} (h : execOutputLineStart g line complete late u = .next t) : erase 8400465 t = erase 8400465 u := by
  unfold execOutputLineStart at h
  dsimp only at h
  refine next_er h ?_
  repeat' first
    | with_reducible rfl
    | with_reducible assumption
    | with_reducible refine State.puts_er ?_
    | with_reducible refine State.blankLine_er ?_
    | with_reducible refine State.sendLine_er ?_
    | with_reducible refine State.embLine_er ?_
    | with_reducible refine State.runLine_er ?_
    | with_reducible refine erase_ite ?_ ?_
    | with_reducible refine erase_of_fst (by assumption) ?_
    | dsimp only
    | split

theorem execHostAccessAbsentDie_frame {u t : State} {a : RegAddr} {acc : Access} (h : execHostAccessAbsentDie a acc u = .next t) : erase 4194321 t = erase 4194321 u := by
  unfold execHostAccessAbsentDie at h
  refine next_er h ?_
  repeat' first
    | with_reducible rfl
    | with_reducible assumption
    | with_reducible refine State.absentAccess_er ?_
    | with_reducible refine State.answer_er ?_
    | with_reducible refine State.hostWrite_er ?_ ?_
    | with_reducible refine erase_ite ?_ ?_
    | with_reducible refine erase_of_fst (by assumption) ?_
    | dsimp only
    | split

theorem execHostWriteSlot7_frame {u t : State} {y0 : Fin 2048} {y1 : Fin 1024} {y2 : Word} (h : execHostWriteSlot7 y0 y1 y2 u = .next t) : erase 17 t = erase 17 u := by
  unfold execHostWriteSlot7 at h
  refine next_er h ?_
  repeat' first
    | with_reducible rfl
    | with_reducible assumption
    | with_reducible refine State.hostWrite_er ?_ ?_

theorem execErrLocRead_frame {u t : State} {b : BlockAddr} (h : execErrLocRead b u = .next t) : erase 4194321 t = erase 4194321 u := by
  unfold execErrLocRead at h
  refine next_er h ?_
  repeat' first
    | with_reducible rfl
    | with_reducible assumption
    | with_reducible refine State.answer_er ?_
    | with_reducible refine State.put_er ?_
    | with_reducible refine State.absentAccess_er ?_
    | with_reducible refine erase_ite ?_ ?_
    | dsimp only
    | split

theorem execShadowWrite_frame {u t : State} {a : RegAddr} {v : Word} (h : execShadowWrite a v u = .next t) : erase 21 t = erase 21 u := by
  unfold execShadowWrite at h
  refine next_er h ?_
  repeat' first
    | with_reducible rfl
    | with_reducible assumption
    | with_reducible refine State.hostWrite_er ?_ ?_
    | with_reducible refine State.shadowStore_er ?_

theorem execEvStickyClear_frame {u t : State} {b : BlockAddr} {bits : Word} (h : execEvStickyClear b bits u = .next t) : erase 8388625 t = erase 8388625 u := by
  unfold execEvStickyClear at h
  refine next_er h ?_
  repeat' first
    | with_reducible rfl
    | with_reducible assumption
    | with_reducible refine State.hostWrite_er ?_ ?_
    | with_reducible refine State.wr_er ?_
    | with_reducible refine State.refreshBlock_er ?_

theorem execEvForce_frame {u t : State} {b : BlockAddr} {bits : Word} (h : execEvForce b bits u = .next t) : erase 17 t = erase 17 u := by
  unfold execEvForce at h
  refine next_er h ?_
  repeat' first
    | with_reducible rfl
    | with_reducible assumption
    | with_reducible refine State.hostWrite_er ?_ ?_
    | with_reducible refine State.forAll_er ?_ (fun _ _ => ?_)
    | with_reducible refine State.raiseIf_er ?_

theorem execYumenStickyClear_frame {u t : State} {bits : BitVec 16} (h : execYumenStickyClear bits u = .next t) : erase 8388625 t = erase 8388625 u := by
  unfold execYumenStickyClear at h
  dsimp only at h
  refine next_er h ?_
  repeat' first
    | with_reducible rfl
    | with_reducible assumption
    | with_reducible refine State.put_er ?_
    | with_reducible refine State.setEvg_er ?_
    | with_reducible refine State.refreshVecs_er ?_
    | with_reducible refine erase_foldl ?_ (fun _ _ => ?_)
    | with_reducible refine erase_foldl_fst ?_ (fun _ _ => ?_)

theorem execEventMessage_frame {u t : State} {die : Fin 8} (h : execEventMessage die u = .next t) : erase 8388625 t = erase 8388625 u := by
  unfold execEventMessage at h
  refine next_er h ?_
  repeat' first
    | with_reducible rfl
    | with_reducible assumption
    | with_reducible refine State.refreshEv_er ?_
    | with_reducible refine erase_of_fst (by assumption) ?_
    | dsimp only
    | split
    | with_reducible refine upd_irq_er ?_

theorem execMsixHoldoffExpiry_frame {u t : State} {v : Fin 64} (h : execMsixHoldoffExpiry v u = .next t) : erase 8388625 t = erase 8388625 u := by
  unfold execMsixHoldoffExpiry at h
  dsimp only at h
  refine next_er h ?_
  repeat' first
    | with_reducible rfl
    | with_reducible assumption
    | with_reducible refine State.msixRequest_er ?_
    | with_reducible refine erase_ite ?_ ?_
    | dsimp only
    | split
    | with_reducible refine upd_irq_er ?_

theorem execVecAck_frame {u t : State} {v : Fin 64} (h : execVecAck v u = .next t) : erase 8388625 t = erase 8388625 u := by
  unfold execVecAck at h
  refine next_er h ?_
  repeat' first
    | with_reducible rfl
    | with_reducible assumption
    | with_reducible refine State.msixRequest_er ?_
    | with_reducible refine erase_ite ?_ ?_
    | dsimp only
    | split

theorem execMsixUnmask_frame {u t : State} {y0 : Unmask} (h : execMsixUnmask y0 u = .next t) : erase 8388625 t = erase 8388625 u := by
  unfold execMsixUnmask at h
  refine next_er h ?_
  repeat' first
    | with_reducible rfl
    | with_reducible assumption
    | with_reducible refine State.put_er ?_
    | with_reducible refine State.msixRelease_er ?_
    | with_reducible refine State.forAll_er ?_ (fun _ _ => ?_)
    | with_reducible refine erase_of_fst (by assumption) ?_
    | dsimp only
    | split
    | with_reducible refine upd_irq_er ?_

theorem execCarrierLoss_frame {u t : State} {g : Fin 96} {midLine : Option Nat} (h : execCarrierLoss g midLine u = .next t) : erase 5809 t = erase 5809 u := by
  unfold execCarrierLoss at h
  refine next_er h ?_
  repeat' first
    | with_reducible rfl
    | with_reducible assumption
    | with_reducible refine State.rxLoss_er ?_
    | with_reducible refine erase_ite ?_ ?_
    | dsimp only
    | split

theorem execSignalDetect_frame {u t : State} {g : Fin 96} (h : execSignalDetect g u = .next t) : erase 33 t = erase 33 u := by
  unfold execSignalDetect at h
  refine next_er h ?_
  repeat' first
    | with_reducible rfl
    | with_reducible assumption
    | with_reducible refine State.put_er ?_
    | with_reducible refine State.setRx_er ?_
    | with_reducible refine State.rxLive_er ?_
    | with_reducible refine erase_ite ?_ ?_
    | dsimp only
    | split

theorem execCdrLock_frame {u t : State} {g : Fin 96} {rateClass : Fin 6} {r1001 : Bool} (h : execCdrLock g rateClass r1001 u = .next t) : erase 1 t = erase 1 u := by
  unfold execCdrLock at h
  refine next_er h ?_
  repeat' first
    | with_reducible rfl
    | with_reducible assumption
    | with_reducible refine State.puts_er ?_
    | with_reducible refine State.rxLive_er ?_
    | with_reducible refine erase_ite ?_ ?_
    | dsimp only
    | split

theorem execCdrSearchTimeout_frame {u t : State} {g : Fin 96} (h : execCdrSearchTimeout g u = .next t) : erase 32 t = erase 32 u := by
  unfold execCdrSearchTimeout at h
  refine next_er h ?_
  repeat' first
    | with_reducible rfl
    | with_reducible assumption
    | with_reducible refine State.setRx_er ?_
    | with_reducible refine erase_ite ?_ ?_
    | dsimp only
    | split

theorem execCdrLoss_frame {u t : State} {g : Fin 96} {midLine : Option Nat} (h : execCdrLoss g midLine u = .next t) : erase 5809 t = erase 5809 u := by
  unfold execCdrLoss at h
  refine next_er h ?_
  repeat' first
    | with_reducible rfl
    | with_reducible assumption
    | with_reducible refine State.rxLoss_er ?_
    | with_reducible refine erase_ite ?_ ?_
    | dsimp only
    | split

theorem execEavTimeout_frame {u t : State} {g : Fin 96} {midLine : Option Nat} (h : execEavTimeout g midLine u = .next t) : erase 5809 t = erase 5809 u := by
  unfold execEavTimeout at h
  refine next_er h ?_
  repeat' first
    | with_reducible rfl
    | with_reducible assumption
    | with_reducible refine State.rxLoss_er ?_
    | with_reducible refine erase_ite ?_ ?_
    | dsimp only
    | split

theorem execFmtLock_frame {u t : State} {g : Fin 96} (h : execFmtLock g u = .next t) : erase 49 t = erase 49 u := by
  unfold execFmtLock at h
  dsimp only at h
  refine next_er h ?_
  repeat' first
    | with_reducible rfl
    | with_reducible assumption
    | with_reducible refine State.setRx_er ?_
    | with_reducible refine State.puts_er ?_
    | with_reducible refine State.raiseIf_er ?_
    | with_reducible refine State.streamLock_er ?_
    | with_reducible refine State.linksRefresh_er ?_
    | with_reducible refine erase_ite ?_ ?_
    | with_reducible refine erase_of_fst (by assumption) ?_
    | dsimp only
    | split

theorem execQuadGroupLock_frame {u t : State} {q : Fin 24} (h : execQuadGroupLock q u = .next t) : erase 49 t = erase 49 u := by
  unfold execQuadGroupLock at h
  dsimp only at h
  refine next_er h ?_
  repeat' first
    | with_reducible rfl
    | with_reducible assumption
    | with_reducible refine State.raise_er ?_
    | with_reducible refine State.raiseIf_er ?_
    | with_reducible refine State.setRx_er ?_
    | with_reducible refine State.streamLock_er ?_
    | with_reducible refine erase_ite ?_ ?_
    | dsimp only
    | split

theorem execSdiRxFrame_frame {u t : State} {g : Fin 96} {y1 : FrameMeas} (h : execSdiRxFrame g y1 u = .next t) : erase 14065 t = erase 14065 u := by
  unfold execSdiRxFrame at h
  refine next_er h ?_
  repeat' first
    | with_reducible rfl
    | with_reducible assumption
    | with_reducible refine State.rxMeasured_er ?_
    | with_reducible refine State.rxDetect_er ?_
    | with_reducible refine State.bondFrame_er ?_
    | with_reducible refine State.overrideActs_er ?_
    | with_reducible refine State.frameBoundary_er ?_
    | with_reducible refine erase_ite ?_ ?_
    | dsimp only
    | split

theorem execInOverrideWrite_frame {u t : State} {g : Fin 96} {v : Word} (h : execInOverrideWrite g v u = .next t) : erase 17 t = erase 17 u := by
  unfold execInOverrideWrite at h
  refine next_er h ?_
  repeat' first
    | with_reducible rfl
    | with_reducible assumption
    | with_reducible refine State.hostWrite_er ?_ ?_
    | with_reducible refine State.wr_er ?_

theorem execSdiRxLine_frame {u t : State} {g : Fin 96} {l : RxLine} (h : execSdiRxLine g l u = .next t) : erase 561 t = erase 561 u := by
  unfold execSdiRxLine at h
  refine next_er h ?_
  repeat' first
    | with_reducible rfl
    | with_reducible assumption
    | with_reducible refine State.rxErrors_er ?_
    | with_reducible refine State.rxPicture_er ?_
    | with_reducible refine erase_ite ?_ ?_
    | with_reducible refine erase_of_fst (by assumption) ?_
    | dsimp only
    | split

theorem execAncPacketReceived_frame {u t : State} {g : Fin 96} {checksumOk : Bool} {p : AncPkt} (h : execAncPacketReceived g checksumOk p u = .next t) : erase 177 t = erase 177 u := by
  unfold execAncPacketReceived at h
  dsimp only at h
  refine next_er h ?_
  repeat' first
    | with_reducible rfl
    | with_reducible assumption
    | with_reducible refine State.raise_er ?_
    | with_reducible refine State.rqp_er ?_
    | with_reducible refine State.ancQueue_er ?_
    | with_reducible refine erase_ite ?_ ?_
    | dsimp only
    | split

theorem execDriverOpenShort_frame {u t : State} {g : Fin 96} {faulty : Bool} (h : execDriverOpenShort g faulty u = .next t) : erase 81 t = erase 81 u := by
  unfold execDriverOpenShort at h
  refine next_er h ?_
  repeat' first
    | with_reducible rfl
    | with_reducible assumption
    | with_reducible refine State.setTx_er ?_
    | with_reducible refine State.raiseIf_er ?_
    | with_reducible refine State.live_er ?_
    | with_reducible refine erase_ite ?_ ?_
    | dsimp only
    | split

theorem execRingFrameStart_frame {u t : State} {r : RingId} {entry : Int} (h : execRingFrameStart r entry u = .next t) : erase 16782353 t = erase 16782353 u := by
  unfold execRingFrameStart at h
  refine next_er h ?_
  repeat' first
    | with_reducible rfl
    | with_reducible assumption
    | with_reducible refine State.ctxStart_er ?_
    | with_reducible refine State.ringStart_er ?_

theorem execLossHide_frame {u t : State} {g : Fin 96} {k : Fin 4} (h : execLossHide g k u = .next t) : erase 1041 t = erase 1041 u := by
  unfold execLossHide at h
  dsimp only at h
  refine next_er h ?_
  repeat' first
    | with_reducible rfl
    | with_reducible assumption
    | with_reducible refine State.siloEvent_er ?_
    | with_reducible refine erase_ite ?_ ?_
    | with_reducible refine erase_of_fst (by assumption) ?_
    | dsimp only
    | split
    | with_reducible refine upd_silo_er ?_

theorem execBar2Write_frame {u t : State} {offset : BitVec 32} {data : List Byte} (h : execBar2Write offset data u = .next t) : erase 33809 t = erase 33809 u := by
  unfold execBar2Write at h
  refine next_er h ?_
  repeat' first
    | with_reducible rfl
    | with_reducible assumption
    | with_reducible refine State.bar2Bytes_er ?_

theorem execBar2Read_frame {u t : State} {offset : BitVec 32} (h : execBar2Read offset u = .next t) : erase 12616721 t = erase 12616721 u := by
  unfold execBar2Read at h
  dsimp only at h
  refine next_er h ?_
  repeat' first
    | with_reducible rfl
    | with_reducible assumption
    | with_reducible refine State.combineFlush_er ?_
    | with_reducible refine State.binRead_er ?_
    | with_reducible refine State.answer_er ?_
    | with_reducible refine State.raise_er ?_
    | with_reducible refine State.emit_er ?_
    | with_reducible refine erase_ite ?_ ?_
    | with_reducible refine erase_of_fst (by assumption) ?_
    | dsimp only
    | split

theorem execCombineTimeout_frame {u t : State} {bin : Fin 0x40000} {stripe : Fin 3276} (h : execCombineTimeout bin stripe u = .next t) : erase 33809 t = erase 33809 u := by
  unfold execCombineTimeout at h
  refine next_er h ?_
  repeat' first
    | with_reducible rfl
    | with_reducible assumption
    | with_reducible refine State.combineFlush_er ?_
    | with_reducible refine State.holdWrite_er ?_
    | with_reducible refine erase_ite ?_ ?_
    | with_reducible refine erase_of_fst (by assumption) ?_
    | dsimp only
    | split

theorem execMeterWindow_frame {u t : State} {store : Fin 512} (h : execMeterWindow store u = .next t) : erase 33809 t = erase 33809 u := by
  unfold execMeterWindow at h
  dsimp only at h
  refine next_er h ?_
  repeat' first
    | with_reducible rfl
    | with_reducible assumption
    | with_reducible refine State.modSilo_er ?_
    | with_reducible refine State.holdWrite_er ?_
    | with_reducible refine State.bar2Fault_er ?_
    | with_reducible refine State.doorbell_er ?_
    | with_reducible refine State.combineFlush_er ?_
    | with_reducible refine State.bar2Piece_er ?_
    | with_reducible refine State.live_er ?_
    | with_reducible refine erase_ite ?_ ?_
    | with_reducible refine erase_foldl ?_ (fun _ _ => ?_)
    | with_reducible refine erase_foldl_fst ?_ (fun _ _ => ?_)
    | with_reducible refine erase_of_fst (by assumption) ?_
    | dsimp only
    | split

theorem execCandActive_frame {u t : State} {c : Fin 16} {family : Option (Fin 5)} {khz96 : Bool} (h : execCandActive c family khz96 u = .next t) : erase 145 t = erase 145 u := by
  unfold execCandActive at h
  refine next_er h ?_
  repeat' first
    | with_reducible rfl
    | with_reducible assumption
    | with_reducible refine State.modTc_er ?_
    | with_reducible refine State.puts_er ?_
    | with_reducible refine State.requal_er ?_
    | with_reducible refine State.tcRefresh_er ?_
    | with_reducible refine erase_ite ?_ ?_
    | dsimp only
    | split

theorem execCandLoss_frame {u t : State} {c : Fin 16} (h : execCandLoss c u = .next t) : erase 145 t = erase 145 u := by
  unfold execCandLoss at h
  refine next_er h ?_
  repeat' first
    | with_reducible rfl
    | with_reducible assumption
    | with_reducible refine State.candLost_er ?_
    | with_reducible refine erase_ite ?_ ?_
    | dsimp only
    | split

theorem execCandQualify_frame {u t : State} {c : Fin 16} {y1 : CandMeas} (h : execCandQualify c y1 u = .next t) : erase 145 t = erase 145 u := by
  unfold execCandQualify at h
  refine next_er h ?_
  repeat' first
    | with_reducible rfl
    | with_reducible assumption
    | with_reducible refine State.candMeas_er ?_
    | with_reducible refine State.modTc_er ?_
    | with_reducible refine State.put_er ?_
    | with_reducible refine State.cause_er ?_
    | with_reducible refine State.tcRefresh_er ?_
    | with_reducible refine State.raise_er ?_
    | with_reducible refine erase_ite ?_ ?_
    | dsimp only
    | split

theorem execCandDisqualify_frame {u t : State} {c : Fin 16} {why : QualLoss} (h : execCandDisqualify c why u = .next t) : erase 145 t = erase 145 u := by
  unfold execCandDisqualify at h
  dsimp only at h
  refine next_er h ?_
  repeat' first
    | with_reducible rfl
    | with_reducible assumption
    | with_reducible refine State.candDown_er ?_
    | with_reducible refine State.tcRefresh_er ?_
    | with_reducible refine erase_ite ?_ ?_
    | with_reducible refine erase_of_fst (by assumption) ?_
    | dsimp only
    | split

theorem execWtrExpiry_frame {u t : State} {c : Fin 16} (h : execWtrExpiry c u = .next t) : erase 145 t = erase 145 u := by
  unfold execWtrExpiry at h
  refine next_er h ?_
  repeat' first
    | with_reducible rfl
    | with_reducible assumption
    | with_reducible refine State.modTc_er ?_
    | with_reducible refine State.put_er ?_
    | with_reducible refine State.raise_er ?_
    | with_reducible refine State.tcRefresh_er ?_
    | with_reducible refine erase_ite ?_ ?_
    | dsimp only
    | split

theorem execSelectHoldExpiry_frame {u t : State}  (h : execSelectHoldExpiry u = .next t) : erase 128 t = erase 128 u := by
  unfold execSelectHoldExpiry at h
  refine next_er h ?_
  repeat' first
    | with_reducible rfl
    | with_reducible assumption
    | with_reducible refine State.modTc_er ?_
    | with_reducible refine erase_ite ?_ ?_
    | dsimp only
    | split

theorem execRqpAgeExpiry_frame {u t : State} {c : Fin 4} (h : execRqpAgeExpiry c u = .next t) : erase 145 t = erase 145 u := by
  unfold execRqpAgeExpiry at h
  dsimp only at h
  refine next_er h ?_
  repeat' first
    | with_reducible rfl
    | with_reducible assumption
    | with_reducible refine State.put_er ?_
    | with_reducible refine State.setQl_er ?_
    | with_reducible refine State.tcRefresh_er ?_
    | with_reducible refine erase_ite ?_ ?_
    | dsimp only
    | split

theorem execSelectEvaluation_frame {u t : State} {y0 : List CandMeas} (h : execSelectEvaluation y0 u = .next t) : erase 145 t = erase 145 u := by
  unfold execSelectEvaluation at h
  refine next_er h ?_
  repeat' first
    | with_reducible rfl
    | with_reducible assumption
    | with_reducible refine State.measured_er ?_
    | with_reducible refine State.evaluate_er ?_
    | with_reducible refine State.evaluated_er ?_
    | with_reducible refine erase_ite ?_ ?_
    | dsimp only
    | split

theorem execDisagreeDetect_frame {u t : State} {a : Fin 16} {b : Fin 16} (h : execDisagreeDetect a b u = .next t) : erase 145 t = erase 145 u := by
  unfold execDisagreeDetect at h
  dsimp only at h
  refine next_er h ?_
  repeat' first
    | with_reducible rfl
    | with_reducible assumption
    | with_reducible refine State.puts_er ?_
    | with_reducible refine State.modTc_er ?_
    | with_reducible refine State.raise_er ?_
    | with_reducible refine State.tcRefresh_er ?_
    | with_reducible refine erase_ite ?_ ?_
    | dsimp only
    | split

theorem execLoopUpdate_frame {u t : State} {phase : Int} (h : execLoopUpdate phase u = .next t) : erase 401 t = erase 401 u := by
  unfold execLoopUpdate at h
  refine next_er h ?_
  repeat' first
    | with_reducible rfl
    | with_reducible assumption
    | with_reducible refine State.tcTick_er ?_
    | with_reducible refine State.loopStep_er ?_
    | with_reducible refine State.forAll_er ?_ (fun _ _ => ?_)
    | with_reducible refine State.slopeStep_er ?_
    | with_reducible refine erase_ite ?_ ?_
    | dsimp only
    | split

theorem execAcquireDone_frame {u t : State}  (h : execAcquireDone u = .next t) : erase 1 t = erase 1 u := by
  unfold execAcquireDone at h
  refine next_er h ?_
  repeat' first
    | with_reducible rfl
    | with_reducible assumption
    | with_reducible refine State.put_er ?_
    | with_reducible refine erase_ite ?_ ?_
    | dsimp only
    | split

theorem execPullComplete_frame {u t : State}  (h : execPullComplete u = .next t) : erase 145 t = erase 145 u := by
  unfold execPullComplete at h
  refine next_er h ?_
  repeat' first
    | with_reducible rfl
    | with_reducible assumption
    | with_reducible refine State.put_er ?_
    | with_reducible refine State.modTc_er ?_
    | with_reducible refine State.raise_er ?_
    | with_reducible refine State.tcRefresh_er ?_
    | with_reducible refine erase_ite ?_ ?_
    | dsimp only
    | split

theorem execBandwidthHalving_frame {u t : State}  (h : execBandwidthHalving u = .next t) : erase 145 t = erase 145 u := by
  unfold execBandwidthHalving at h
  refine next_er h ?_
  repeat' first
    | with_reducible rfl
    | with_reducible assumption
    | with_reducible refine State.rebase_er ?_
    | with_reducible refine State.put_er ?_
    | with_reducible refine State.modTc_er ?_
    | with_reducible refine State.raise_er ?_
    | with_reducible refine erase_ite ?_ ?_
    | dsimp only
    | split

theorem execHistorySample_frame {u t : State}  (h : execHistorySample u = .next t) : erase 145 t = erase 145 u := by
  unfold execHistorySample at h
  dsimp only at h
  refine next_er h ?_
  repeat' first
    | with_reducible rfl
    | with_reducible assumption
    | with_reducible refine State.tempRefresh_er ?_
    | with_reducible refine State.modTc_er ?_
    | with_reducible refine erase_ite ?_ ?_
    | with_reducible refine erase_of_fst (by assumption) ?_
    | dsimp only
    | split

theorem execHoldoverPredict_frame {u t : State}  (h : execHoldoverPredict u = .next t) : erase 145 t = erase 145 u := by
  unfold execHoldoverPredict at h
  refine next_er h ?_
  repeat' first
    | with_reducible rfl
    | with_reducible assumption
    | with_reducible refine State.tempRefresh_er ?_
    | with_reducible refine State.modTc_er ?_
    | with_reducible refine State.puts_er ?_
    | with_reducible refine State.raiseIf_er ?_
    | with_reducible refine State.live_er ?_
    | with_reducible refine State.tcRefresh_er ?_
    | with_reducible refine erase_ite ?_ ?_
    | with_reducible refine erase_of_fst (by assumption) ?_
    | dsimp only
    | split

theorem execDcoTableLearn_frame {u t : State}  (h : execDcoTableLearn u = .next t) : erase 128 t = erase 128 u := by
  unfold execDcoTableLearn at h
  refine next_er h ?_
  repeat' first
    | with_reducible rfl
    | with_reducible assumption
    | with_reducible refine State.modTc_er ?_
    | with_reducible refine erase_ite ?_ ?_
    | dsimp only
    | split

theorem execTsSetArm_frame {u t : State}  (h : execTsSetArm u = .next t) : erase 128 t = erase 128 u := by
  unfold execTsSetArm at h
  refine next_er h ?_
  repeat' first
    | with_reducible rfl
    | with_reducible assumption
    | with_reducible refine State.modTc_er ?_

theorem execTsSetApply_frame {u t : State} (h : execTsSetApply u = .next t) : erase 16777361 t = erase 16777361 u := by
  unfold execTsSetApply at h
  refine next_er h ?_
  repeat' first
    | with_reducible rfl
    | with_reducible assumption
    | with_reducible refine State.tick_er ?_
    | with_reducible refine State.modTc_er ?_
    | with_reducible refine State.raise_er ?_
    | with_reducible refine erase_ite ?_ ?_
    | with_reducible refine erase_of_fst (by assumption) ?_
    | dsimp only
    | split

theorem execTsSecRead_frame {u t : State} {ns : Fin 1000000} (h : execTsSecRead ns u = .next t) : erase 4194305 t = erase 4194305 u := by
  unfold execTsSecRead at h
  dsimp only at h
  refine next_er h ?_
  repeat' first
    | with_reducible rfl
    | with_reducible assumption
    | with_reducible refine State.puts_er ?_
    | with_reducible refine State.answer_er ?_

theorem execTdRunWrite_frame {u t : State} {d : Fin 8} {run : Bool} (h : execTdRunWrite d run u = .next t) : erase 273 t = erase 273 u := by
  unfold execTdRunWrite at h
  refine next_er h ?_
  repeat' first
    | with_reducible rfl
    | with_reducible assumption
    | with_reducible refine State.tdStart_er ?_
    | with_reducible refine State.put_er ?_
    | with_reducible refine State.setTd_er ?_
    | with_reducible refine erase_ite ?_ ?_
    | dsimp only
    | split

theorem execTdRealignGo_frame {u t : State} {d : Fin 8} {jump : Bool} (h : execTdRealignGo d jump u = .next t) : erase 273 t = erase 273 u := by
  unfold execTdRealignGo at h
  dsimp only at h
  refine next_er h ?_
  repeat' first
    | with_reducible rfl
    | with_reducible assumption
    | with_reducible refine State.put_er ?_
    | with_reducible refine State.raise_er ?_
    | with_reducible refine State.setTd_er ?_
    | with_reducible refine erase_ite ?_ ?_
    | dsimp only
    | split

theorem execRealignSlopeDone_frame {u t : State} {d : Fin 8} (h : execRealignSlopeDone d u = .next t) : erase 17 t = erase 17 u := by
  unfold execRealignSlopeDone at h
  refine next_er h ?_
  repeat' first
    | with_reducible rfl
    | with_reducible assumption
    | with_reducible refine State.puts_er ?_
    | with_reducible refine State.raise_er ?_
    | with_reducible refine erase_ite ?_ ?_
    | dsimp only
    | split

theorem execRealignJump_frame {u t : State} {d : Fin 8} (h : execRealignJump d u = .next t) : erase 257 t = erase 257 u := by
  unfold execRealignJump at h
  dsimp only at h
  refine next_er h ?_
  repeat' first
    | with_reducible rfl
    | with_reducible assumption
    | with_reducible refine State.put_er ?_
    | with_reducible refine State.setTd_er ?_
    | with_reducible refine State.forAll_er ?_ (fun _ _ => ?_)
    | with_reducible refine erase_ite ?_ ?_
    | dsimp only
    | split

theorem execRegisterWrite_frame {u t : State} {m1 : Bool} {a : RegAddr} {v : Word} (h : execRegisterWrite m1 a v u = .next t) : erase 9520273 t = erase 9520273 u := by
  unfold execRegisterWrite at h
  refine next_er h ?_
  repeat' first
    | with_reducible rfl
    | with_reducible assumption
    | with_reducible refine State.hostWrite_er ?_ ?_
    | with_reducible refine State.regWrite_er ?_

theorem execStructuralWrite_frame {u t : State} {a : RegAddr} {v : Word} (h : execStructuralWrite a v u = .next t) : erase 5873 t = erase 5873 u := by
  unfold execStructuralWrite at h
  refine next_er h ?_
  repeat' first
    | with_reducible rfl
    | with_reducible assumption
    | with_reducible refine State.hostWrite_er ?_ ?_
    | with_reducible refine State.structWrite_er ?_

theorem execCtrlRunClear_frame {u t : State} {b : BlockAddr} (h : execCtrlRunClear b u = .next t) : erase 81 t = erase 81 u := by
  unfold execCtrlRunClear at h
  refine next_er h ?_
  repeat' first
    | with_reducible rfl
    | with_reducible assumption
    | with_reducible refine State.hostWrite_er ?_ ?_
    | with_reducible refine State.clearRun_er ?_

theorem execBlockStopped_frame {u t : State} {b : BlockAddr} (h : execBlockStopped b u = .next t) : erase 38641 t = erase 38641 u := by
  unfold execBlockStopped at h
  refine next_er h ?_
  repeat' first
    | with_reducible rfl
    | with_reducible assumption
    | with_reducible refine State.blockStops_er ?_
    | with_reducible refine erase_ite ?_ ?_
    | dsimp only
    | split

theorem execCtrlRunSet_frame {u t : State} {b : BlockAddr} (h : execCtrlRunSet b u = .next t) : erase 33873 t = erase 33873 u := by
  unfold execCtrlRunSet at h
  refine next_er h ?_
  repeat' first
    | with_reducible rfl
    | with_reducible assumption
    | with_reducible refine State.hostWrite_er ?_ ?_
    | with_reducible refine State.setRun_er ?_

theorem execSoftReset_frame {u t : State} {b : BlockAddr} (h : execSoftReset b u = .next t) : erase 8412919 t = erase 8412919 u := by
  unfold execSoftReset at h
  refine next_er h ?_
  repeat' first
    | with_reducible rfl
    | with_reducible assumption
    | with_reducible refine State.hostWrite_er ?_ ?_
    | with_reducible refine State.resetWrite_er ?_

theorem execSlackWindowEnd_frame {u t : State} {y0 : SlackMon} {slack : Int} (h : execSlackWindowEnd y0 slack u = .next t) : erase 1048593 t = erase 1048593 u := by
  unfold execSlackWindowEnd at h
  dsimp only at h
  refine next_er h ?_
  repeat' first
    | with_reducible rfl
    | with_reducible assumption
    | with_reducible refine State.puti_er ?_
    | with_reducible refine State.raiseIf_er ?_
    | with_reducible refine erase_ite ?_ ?_
    | dsimp only
    | split
    | with_reducible refine upd_mg_er ?_

theorem execSlackRead_frame {u t : State} {y0 : SlackMon} (h : execSlackRead y0 u = .next t) : erase 4194321 t = erase 4194321 u := by
  unfold execSlackRead at h
  dsimp only at h
  refine next_er h ?_
  repeat' first
    | with_reducible rfl
    | with_reducible assumption
    | with_reducible refine State.answer_er ?_
    | with_reducible refine State.puti_er ?_
    | with_reducible refine State.absentAccess_er ?_
    | with_reducible refine erase_ite ?_ ?_
    | dsimp only
    | split

theorem execYumenSecond_frame {u t : State} {y0 : List YmMeas} {temp : Int} {f : YmFaults} (h : execYumenSecond y0 temp f u = .next t) : erase 17301504 t = erase 17301504 u := by
  unfold execYumenSecond at h
  dsimp only at h
  refine next_er h ?_
  repeat' first
    | with_reducible rfl
    | with_reducible assumption
    | with_reducible refine State.modYm_er ?_
    | with_reducible refine State.tick_er ?_
    | with_reducible refine erase_ite ?_ ?_
    | dsimp only
    | split

theorem execTimeOffer_frame {u t : State} {arrivalUs : Fin 1000000} {garbled : Bool} (h : execTimeOffer arrivalUs garbled u = .next t) : erase 8912897 t = erase 8912897 u := by
  unfold execTimeOffer at h
  dsimp only at h
  refine next_er h ?_
  repeat' first
    | with_reducible rfl
    | with_reducible assumption
    | with_reducible refine State.emit_er ?_
    | with_reducible refine State.modYm_er ?_
    | with_reducible refine State.live_er ?_
    | with_reducible refine erase_ite ?_ ?_
    | dsimp only
    | split

theorem execOfferMissing_frame {u t : State}  (h : execOfferMissing u = .next t) : erase 524289 t = erase 524289 u := by
  unfold execOfferMissing at h
  refine next_er h ?_
  repeat' first
    | with_reducible rfl
    | with_reducible assumption
    | with_reducible refine State.live_er ?_
    | with_reducible refine State.modYm_er ?_
    | with_reducible refine erase_ite ?_ ?_
    | dsimp only
    | split

theorem execSealOpened_frame {u t : State}  (h : execSealOpened u = .next t) : erase 524288 t = erase 524288 u := by
  unfold execSealOpened at h
  refine next_er h ?_
  repeat' first
    | with_reducible rfl
    | with_reducible assumption
    | with_reducible refine State.modYm_er ?_
    | with_reducible refine erase_ite ?_ ?_
    | dsimp only
    | split

theorem execSealClosed_frame {u t : State}  (h : execSealClosed u = .next t) : erase 524288 t = erase 524288 u := by
  unfold execSealClosed at h
  refine next_er h ?_
  repeat' first
    | with_reducible rfl
    | with_reducible assumption
    | with_reducible refine State.modYm_er ?_
    | with_reducible refine erase_ite ?_ ?_
    | dsimp only
    | split

theorem execStatus_frame {u t : State} {crcOk : Bool} (h : execStatus crcOk u = .next t) : erase 25165824 t = erase 25165824 u := by
  unfold execStatus at h
  refine next_er h ?_
  repeat' first
    | with_reducible rfl
    | with_reducible assumption
    | with_reducible refine State.metroCommand_er ?_ (fun _ => ?_)
    | with_reducible refine State.emit_er ?_

theorem execIdentity_frame {u t : State} {crcOk : Bool} (h : execIdentity crcOk u = .next t) : erase 25165824 t = erase 25165824 u := by
  unfold execIdentity at h
  refine next_er h ?_
  repeat' first
    | with_reducible rfl
    | with_reducible assumption
    | with_reducible refine State.metroCommand_er ?_ (fun _ => ?_)
    | with_reducible refine State.emit_er ?_

theorem execReadS_frame {u t : State} {crcOk : Bool} {seq : Word} (h : execReadS crcOk seq u = .next t) : erase 25165824 t = erase 25165824 u := by
  unfold execReadS at h
  refine next_er h ?_
  repeat' first
    | with_reducible rfl
    | with_reducible assumption
    | with_reducible refine State.metroCommand_er ?_ (fun _ => ?_)
    | with_reducible refine State.readRecord_er ?_

theorem execReadQ_frame {u t : State} {crcOk : Bool} {seq : Word} (h : execReadQ crcOk seq u = .next t) : erase 25165824 t = erase 25165824 u := by
  unfold execReadQ at h
  refine next_er h ?_
  repeat' first
    | with_reducible rfl
    | with_reducible assumption
    | with_reducible refine State.metroCommand_er ?_ (fun _ => ?_)
    | with_reducible refine State.readRecord_er ?_

theorem execSetInput_frame {u t : State} {crcOk : Bool} {i : Fin 4} {en : Bool} {range : Fin 4} {sens : BitVec 16} (h : execSetInput crcOk i en range sens u = .next t) : erase 25690112 t = erase 25690112 u := by
  unfold execSetInput at h
  refine next_er h ?_
  repeat' first
    | with_reducible rfl
    | with_reducible assumption
    | with_reducible refine State.metroCommand_er ?_ (fun _ => ?_)
    | with_reducible refine State.calChange_er ?_

theorem execSetRtc_frame {u t : State} {crcOk : Bool} {seconds : BitVec 48} (h : execSetRtc crcOk seconds u = .next t) : erase 25690112 t = erase 25690112 u := by
  unfold execSetRtc at h
  refine next_er h ?_
  repeat' first
    | with_reducible rfl
    | with_reducible assumption
    | with_reducible refine State.metroCommand_er ?_ (fun _ => ?_)
    | with_reducible refine State.calChange_er ?_
    | with_reducible refine State.modYm_er ?_
    | with_reducible refine erase_ite ?_ ?_
    | dsimp only
    | split

theorem execSetQofs_frame {u t : State} {crcOk : Bool} {v : Fin 900} (h : execSetQofs crcOk v u = .next t) : erase 25690112 t = erase 25690112 u := by
  unfold execSetQofs at h
  refine next_er h ?_
  repeat' first
    | with_reducible rfl
    | with_reducible assumption
    | with_reducible refine State.metroCommand_er ?_ (fun _ => ?_)
    | with_reducible refine State.calChange_er ?_

theorem execRtcSupplyLoss_frame {u t : State}  (h : execRtcSupplyLoss u = .next t) : erase 524288 t = erase 524288 u := by
  unfold execRtcSupplyLoss at h
  refine next_er h ?_
  repeat' first
    | with_reducible rfl
    | with_reducible assumption
    | with_reducible refine State.modYm_er ?_
    | with_reducible refine erase_ite ?_ ?_
    | dsimp only
    | split

theorem execYumenPowerUp_frame {u t : State} {off : Nat} (h : execYumenPowerUp off u = .next t) : erase 25755665 t = erase 25755665 u := by
  unfold execYumenPowerUp at h
  refine next_er h ?_
  repeat' first
    | with_reducible rfl
    | with_reducible assumption
    | with_reducible refine State.modYm_er ?_
    | with_reducible refine State.busReset_er ?_
    | with_reducible refine erase_ite ?_ ?_
    | dsimp only
    | split

theorem execYumenPowerLoss_frame {u t : State}  (h : execYumenPowerLoss u = .next t) : erase 524288 t = erase 524288 u := by
  unfold execYumenPowerLoss at h
  refine next_er h ?_
  repeat' first
    | with_reducible rfl
    | with_reducible assumption
    | with_reducible refine State.modYm_er ?_
    | with_reducible refine erase_ite ?_ ?_
    | with_reducible refine erase_of_fst (by assumption) ?_
    | dsimp only
    | split

theorem execYumenLinkFrame_frame {u t : State} {crcOk : Bool} (h : execYumenLinkFrame crcOk u = .next t) : erase 9994257 t = erase 9994257 u := by
  unfold execYumenLinkFrame at h
  refine next_er h ?_
  repeat' first
    | with_reducible rfl
    | with_reducible assumption
    | with_reducible refine State.modYm_er ?_
    | with_reducible refine State.frameBad_er ?_
    | with_reducible refine State.frameSeen_er ?_
    | with_reducible refine State.showBytes_er ?_
    | with_reducible refine State.logWrite_er ?_
    | with_reducible refine erase_ite ?_ ?_
    | with_reducible refine erase_of_fst (by assumption) ?_
    | dsimp only
    | split

theorem execYumenStatusFrame_frame {u t : State} {crcOk : Bool} (h : execYumenStatusFrame crcOk u = .next t) : erase 8912913 t = erase 8912913 u := by
  unfold execYumenStatusFrame at h
  dsimp only at h
  refine next_er h ?_
  repeat' first
    | with_reducible rfl
    | with_reducible assumption
    | with_reducible refine State.modYm_er ?_
    | with_reducible refine State.frameBad_er ?_
    | with_reducible refine State.statusShown_er ?_
    | with_reducible refine State.frameSeen_er ?_
    | with_reducible refine State.put_er ?_
    | with_reducible refine State.setEvg_er ?_
    | with_reducible refine State.refreshVecs_er ?_
    | with_reducible refine erase_ite ?_ ?_
    | with_reducible refine erase_foldl ?_ (fun _ _ => ?_)
    | with_reducible refine erase_foldl_fst ?_ (fun _ _ => ?_)
    | dsimp only
    | split

theorem execCarouselRecord_frame {u t : State}  (h : execCarouselRecord u = .next t) : erase 524288 t = erase 524288 u := by
  unfold execCarouselRecord at h
  dsimp only at h
  refine next_er h ?_
  repeat' first
    | with_reducible rfl
    | with_reducible assumption
    | with_reducible refine State.modYm_er ?_
    | with_reducible refine erase_ite ?_ ?_
    | with_reducible refine erase_of_fst (by assumption) ?_
    | dsimp only
    | split

theorem execYumenLinkTimeout_frame {u t : State}  (h : execYumenLinkTimeout u = .next t) : erase 8388625 t = erase 8388625 u := by
  unfold execYumenLinkTimeout at h
  refine next_er h ?_
  repeat' first
    | with_reducible rfl
    | with_reducible assumption
    | with_reducible refine State.linkDown_er ?_
    | with_reducible refine State.put_er ?_
    | with_reducible refine State.bridgeRaise_er ?_
    | with_reducible refine erase_ite ?_ ?_
    | dsimp only
    | split

theorem execYfForward_frame {u t : State}  (h : execYfForward u = .next t) : erase 9469969 t = erase 9469969 u := by
  unfold execYfForward at h
  dsimp only at h
  refine next_er h ?_
  repeat' first
    | with_reducible rfl
    | with_reducible assumption
    | with_reducible refine State.yfRefresh_er ?_
    | with_reducible refine State.spaceRead_er ?_
    | with_reducible refine State.emit_er ?_
    | with_reducible refine State.put_er ?_
    | with_reducible refine erase_ite ?_ ?_
    | with_reducible refine erase_of_fst (by assumption) ?_
    | dsimp only
    | split
    | with_reducible refine upd_mg_er ?_

theorem execLimiterUpdate_frame {u t : State}  (h : execLimiterUpdate u = .next t) : erase 17 t = erase 17 u := by
  unfold execLimiterUpdate at h
  dsimp only at h
  refine next_er h ?_
  repeat' first
    | with_reducible rfl
    | with_reducible assumption
    | with_reducible refine State.puts_er ?_
    | with_reducible refine State.raiseIf_er ?_
    | with_reducible refine State.live_er ?_
    | with_reducible refine erase_ite ?_ ?_
    | dsimp only
    | split

end Sys2Proof.Machine
end

