-- ==== Sys2Proof/Laws/FrameFabric.lean ====
section
/-! SUPPORT. Frames of the operations of Machine/Fabric.lean. -/

set_option Elab.async false

namespace Sys2Proof.Machine

/-- Where an operation answers a state, that state keeps what lies outside a mask. -/
def OptKeeps (m : Nat) (s : State) (o : Option State) : Prop := ∀ t, o = some t → erase m t = erase m s

theorem optKeeps_of {m : Nat} {s : State} {o : Option State} (h : ∀ t, o = some t → erase m t = erase m s) : OptKeeps m s o := h

theorem optKeeps_none {m : Nat} {s : State} : OptKeeps m s none := fun _ h => nomatch h

theorem optKeeps_some {m : Nat} {s t : State} (e : erase m t = erase m s) : OptKeeps m s (some t) := fun _ h => by
  injection h with h
  exact h ▸ e

theorem optKeeps_ite {m : Nat} {s : State} {c : Prop} [Decidable c] {a b : Option State} (ha : OptKeeps m s a) (hb : OptKeeps m s b) :
    OptKeeps m s (if c then a else b) := by split <;> assumption

/-- What a command keeps, its effect on the state keeps. -/
theorem State.took_er {m k : Nat} {s u w : State} {o : Host.Outcome State Fault Refusal} (hx : ∀ t, o = .next t → erase k t = erase k w)
    (hu : erase m u = erase m s) (he : erase m w = erase m s) (hk : within k m = true := by decide) : erase m (State.took u o) = erase m s := by
  unfold State.took
  split
  · rename_i t
    exact (erase_mono hk (hx t rfl)).trans he
  · exact hu

theorem State.headerWrite_er {m : Nat} {s u t : State} {a : Nat} {v : Word} (h : State.headerWrite u a v = some t) (he : erase m u = erase m s) (hw : within 25222911 m = true := by decide) :
    erase m t = erase m s := by
  refine (erase_mono (m := 25222911) hw ?_).trans he
  suffices g : OptKeeps 25222911 u (State.headerWrite u a v) from g t h
  clear he hw h t
  unfold State.headerWrite
  dsimp only
  repeat' first
    | with_reducible exact optKeeps_none
    | with_reducible rfl
    | with_reducible assumption
    | with_reducible refine optKeeps_ite ?_ ?_
    | with_reducible refine optKeeps_some ?_
    | with_reducible refine State.took_er (fun _ h => execSoftReset_frame h) ?_ ?_
    | with_reducible refine State.took_er (fun _ h => execStopModeWrite_frame h) ?_ ?_
    | with_reducible refine State.took_er (fun _ h => execCtrlRunSet_frame h) ?_ ?_
    | with_reducible refine State.took_er (fun _ h => execCtrlRunClear_frame h) ?_ ?_
    | with_reducible refine State.took_er (fun _ h => execEvStickyClear_frame h) ?_ ?_
    | with_reducible refine State.took_er (fun _ h => execEvForce_frame h) ?_ ?_
    | with_reducible refine State.took_er (fun _ h => execCommitArm_frame h) ?_ ?_
    | with_reducible refine State.took_er (fun _ h => execCommitGroupWrite_frame h) ?_ ?_
    | with_reducible refine State.tick_er ?_
    | with_reducible refine State.regWrite_er ?_
    | with_reducible refine erase_ite ?_ ?_
    | split

theorem State.sheafWrite_er {m : Nat} {s u t : State} {a : Nat} {v : Word} (h : State.sheafWrite u a v = some t) (he : erase m u = erase m s) (hw : within 35857 m = true := by decide) :
    erase m t = erase m s := by
  refine (erase_mono (m := 35857) hw ?_).trans he
  suffices g : OptKeeps 35857 u (State.sheafWrite u a v) from g t h
  clear he hw h t
  unfold State.sheafWrite
  dsimp only
  repeat' first
    | with_reducible exact optKeeps_none
    | with_reducible rfl
    | with_reducible assumption
    | with_reducible refine optKeeps_ite ?_ ?_
    | with_reducible refine optKeeps_some ?_
    | with_reducible refine State.took_er (fun _ h => execInOverrideWrite_frame h) ?_ ?_
    | with_reducible refine State.took_er (fun _ h => execCoefRestore_frame h) ?_ ?_
    | with_reducible refine State.took_er (fun _ h => execFenceDoorbell_frame h) ?_ ?_
    | with_reducible refine State.took_er (fun _ h => execCoefWrite_frame h) ?_ ?_
    | with_reducible refine State.took_er (fun _ h => execLutWrite_frame h) ?_ ?_
    | with_reducible refine State.tick_er ?_
    | with_reducible refine State.regWrite_er ?_
    | with_reducible refine erase_ite ?_ ?_
    | split

theorem State.storeWrite_er {m : Nat} {s u t : State} {y a : Nat} {v : Word} (h : State.storeWrite u y a v = some t) (he : erase m u = erase m s) (hw : within 18235409 m = true := by decide) :
    erase m t = erase m s := by
  refine (erase_mono (m := 18235409) hw ?_).trans he
  suffices g : OptKeeps 18235409 u (State.storeWrite u y a v) from g t h
  clear he hw h t
  unfold State.storeWrite
  dsimp only
  repeat' first
    | with_reducible exact optKeeps_none
    | with_reducible rfl
    | with_reducible assumption
    | with_reducible refine optKeeps_ite ?_ ?_
    | with_reducible refine optKeeps_some ?_
    | with_reducible refine State.took_er (fun _ h => execKsDerive_frame h) ?_ ?_
    | with_reducible refine State.took_er (fun _ h => execKsClear_frame h) ?_ ?_
    | with_reducible refine State.took_er (fun _ h => execKsAttest_frame h) ?_ ?_
    | with_reducible refine State.took_er (fun _ h => execKsUpdate_frame h) ?_ ?_
    | with_reducible refine State.took_er (fun _ h => execRecAppend_frame h) ?_ ?_
    | with_reducible refine State.took_er (fun _ h => execRecDelete_frame h) ?_ ?_
    | with_reducible refine State.took_er (fun _ h => execRecCommit_frame h) ?_ ?_
    | with_reducible refine State.took_er (fun _ h => execRecAbort_frame h) ?_ ?_
    | with_reducible refine State.took_er (fun _ h => execRecRead_frame h) ?_ ?_
    | with_reducible refine State.took_er (fun _ h => execCntInc_frame h) ?_ ?_
    | with_reducible refine State.took_er (fun _ h => execRawProgram_frame h) ?_ ?_
    | with_reducible refine State.took_er (fun _ h => execRawEraseSector_frame h) ?_ ?_
    | with_reducible refine State.took_er (fun _ h => execRawClearBuf_frame h) ?_ ?_
    | with_reducible refine State.took_er (fun _ h => execRawLoad_frame h) ?_ ?_
    | with_reducible refine State.took_er (fun _ h => execRawBufferWrite_frame h) ?_ ?_
    | with_reducible refine State.tick_er ?_
    | with_reducible refine State.regWrite_er ?_
    | with_reducible refine erase_ite ?_ ?_
    | split

theorem State.mernakWrite_er {m : Nat} {s u t : State} {y : Bool} {a : Nat} {v : Word} (h : State.mernakWrite u y a v = some t) (he : erase m u = erase m s) (hw : within 26592401 m = true := by decide) :
    erase m t = erase m s := by
  refine (erase_mono (m := 26592401) hw ?_).trans he
  suffices g : OptKeeps 26592401 u (State.mernakWrite u y a v) from g t h
  clear he hw h t
  unfold State.mernakWrite
  dsimp only
  repeat' first
    | with_reducible exact optKeeps_none
    | with_reducible rfl
    | with_reducible assumption
    | with_reducible refine optKeeps_ite ?_ ?_
    | with_reducible refine optKeeps_some ?_
    | with_reducible refine State.took_er (fun _ h => execMgWdtKick_frame h) ?_ ?_
    | with_reducible refine State.took_er (fun _ h => execDebugEnabled_frame h) ?_ ?_
    | with_reducible refine State.took_er (fun _ h => execUpdStart_frame h) ?_ ?_
    | with_reducible refine State.took_er (fun _ h => execUpdAbort_frame h) ?_ ?_
    | with_reducible refine State.took_er (fun _ h => execUpdBlockReady_frame h) ?_ ?_
    | with_reducible refine State.took_er (fun _ h => execDmaAbort_frame h) ?_ ?_
    | with_reducible refine State.took_er (fun _ h => execDmaGo_frame h) ?_ ?_
    | with_reducible refine State.took_er (fun _ h => execCalRead_frame h) ?_ ?_
    | with_reducible refine State.took_er (fun _ h => execCalWrite_frame h) ?_ ?_
    | with_reducible refine State.took_er (fun _ h => execCalUnlock_frame h) ?_ ?_
    | with_reducible refine State.tick_er ?_
    | with_reducible refine State.regWrite_er ?_
    | with_reducible refine erase_ite ?_ ?_
    | split

theorem State.ipWrite_er {m : Nat} {s u t : State} {a : Nat} {v : Word} (h : State.ipWrite u a v = some t) (he : erase m u = erase m s) (hw : within 16401 m = true := by decide) :
    erase m t = erase m s := by
  refine (erase_mono (m := 16401) hw ?_).trans he
  suffices g : OptKeeps 16401 u (State.ipWrite u a v) from g t h
  clear he hw h t
  unfold State.ipWrite
  dsimp only
  repeat' first
    | with_reducible exact optKeeps_none
    | with_reducible rfl
    | with_reducible assumption
    | with_reducible refine optKeeps_ite ?_ ?_
    | with_reducible refine optKeeps_some ?_
    | with_reducible refine State.took_er (fun _ h => execOptTransferStart_frame h) ?_ ?_
    | with_reducible refine State.took_er (fun _ h => execHqrPop_frame h) ?_ ?_
    | with_reducible refine State.took_er (fun _ h => execHqtSend_frame h) ?_ ?_
    | with_reducible refine State.tick_er ?_
    | with_reducible refine State.regWrite_er ?_
    | with_reducible refine erase_ite ?_ ?_
    | split

theorem State.memWrite_er {m : Nat} {s u t : State} {a : Nat} {v : Word} (h : State.memWrite u a v = some t) (he : erase m u = erase m s) (hw : within 32785 m = true := by decide) :
    erase m t = erase m s := by
  refine (erase_mono (m := 32785) hw ?_).trans he
  suffices g : OptKeeps 32785 u (State.memWrite u a v) from g t h
  clear he hw h t
  unfold State.memWrite
  dsimp only
  repeat' first
    | with_reducible exact optKeeps_none
    | with_reducible rfl
    | with_reducible assumption
    | with_reducible refine optKeeps_ite ?_ ?_
    | with_reducible refine optKeeps_some ?_
    | with_reducible refine State.took_er (fun _ h => execMcFail_frame h) ?_ ?_
    | with_reducible refine State.took_er (fun _ h => execMcRestore_frame h) ?_ ?_
    | with_reducible refine State.took_er (fun _ h => execMcRawGo_frame h) ?_ ?_
    | with_reducible refine State.took_er (fun _ h => execMcRawUnlock_frame h) ?_ ?_
    | with_reducible refine State.tick_er ?_
    | with_reducible refine State.regWrite_er ?_
    | with_reducible refine erase_ite ?_ ?_
    | split

theorem State.coreWrite_er {m : Nat} {s u t : State} {a : Nat} {v : Word} (h : State.coreWrite u a v = some t) (he : erase m u = erase m s) (hw : within 25174941 m = true := by decide) :
    erase m t = erase m s := by
  refine (erase_mono (m := 25174941) hw ?_).trans he
  suffices g : OptKeeps 25174941 u (State.coreWrite u a v) from g t h
  clear he hw h t
  unfold State.coreWrite
  dsimp only
  repeat' first
    | with_reducible exact optKeeps_none
    | with_reducible rfl
    | with_reducible assumption
    | with_reducible refine optKeeps_ite ?_ ?_
    | with_reducible refine optKeeps_some ?_
    | with_reducible refine State.took_er (fun _ h => execVecAck_frame h) ?_ ?_
    | with_reducible refine State.took_er (fun _ h => execYumenStickyClear_frame h) ?_ ?_
    | with_reducible refine State.took_er (fun _ h => execMsixUnmask_frame h) ?_ ?_
    | with_reducible refine State.took_er (fun _ h => execTsSetArm_frame h) ?_ ?_
    | with_reducible refine State.took_er (fun _ h => execTdRunWrite_frame h) ?_ ?_
    | with_reducible refine State.took_er (fun _ h => execTdRealignGo_frame h) ?_ ?_
    | with_reducible refine State.took_er (fun _ h => execFlReexamine_frame h) ?_ ?_
    | with_reducible refine State.took_er (fun _ h => execGenCfgWrite_frame h) ?_ ?_
    | with_reducible refine State.took_er (fun _ h => execCgCfgWrite_frame h) ?_ ?_
    | with_reducible refine State.took_er (fun _ h => execCgArm_frame h) ?_ ?_
    | with_reducible refine State.took_er (fun _ h => execCgAbort_frame h) ?_ ?_
    | with_reducible refine State.took_er (fun _ h => execRouteCfgWrite_frame h) ?_ ?_
    | with_reducible refine State.tick_er ?_
    | with_reducible refine State.regWrite_er ?_
    | with_reducible refine erase_ite ?_ ?_
    | split

theorem State.commandWrite_er {m : Nat} {s u t : State} {y a : Nat} {v : Word} (h : State.commandWrite u y a v = some t) (he : erase m u = erase m s) (hw : within 26738687 m = true := by decide) :
    erase m t = erase m s := by
  refine (erase_mono (m := 26738687) hw ?_).trans he
  suffices g : OptKeeps 26738687 u (State.commandWrite u y a v) from g t h
  clear he hw h t
  unfold State.commandWrite
  dsimp only
  repeat' first
    | with_reducible exact optKeeps_none
    | with_reducible rfl
    | with_reducible assumption
    | with_reducible refine optKeeps_ite ?_ ?_
    | with_reducible refine optKeeps_some ?_
    | with_reducible refine State.tick_er ?_
    | with_reducible refine State.regWrite_er ?_
    | with_reducible refine erase_ite ?_ ?_
    | with_reducible exact State.headerWrite_er (by assumption) rfl
    | with_reducible refine optKeeps_of fun _ h => State.headerWrite_er h rfl
    | with_reducible exact State.sheafWrite_er (by assumption) rfl
    | with_reducible refine optKeeps_of fun _ h => State.sheafWrite_er h rfl
    | with_reducible exact State.storeWrite_er (by assumption) rfl
    | with_reducible refine optKeeps_of fun _ h => State.storeWrite_er h rfl
    | with_reducible exact State.mernakWrite_er (by assumption) rfl
    | with_reducible refine optKeeps_of fun _ h => State.mernakWrite_er h rfl
    | with_reducible exact State.coreWrite_er (by assumption) rfl
    | with_reducible refine optKeeps_of fun _ h => State.coreWrite_er h rfl
    | with_reducible exact State.ipWrite_er (by assumption) rfl
    | with_reducible refine optKeeps_of fun _ h => State.ipWrite_er h rfl
    | with_reducible exact State.memWrite_er (by assumption) rfl
    | with_reducible refine optKeeps_of fun _ h => State.memWrite_er h rfl
    | split

theorem State.wordWrite_er {m : Nat} {s : State} {u : State} {mz : Nat} {a : Nat} {v : Word} (he : erase m u = erase m s) (hw : within 26738687 m = true := by decide) :
    erase m (State.wordWrite u mz a v) = erase m s := by
  refine (erase_mono (m := 26738687) hw ?_).trans he
  unfold State.wordWrite
  repeat' first
    | with_reducible rfl
    | with_reducible assumption
    | with_reducible refine State.hostWrite_er ?_ ?_
    | with_reducible refine State.commandWrite_er (by assumption) ?_
    | with_reducible refine State.shadowStore_er ?_
    | with_reducible refine State.regWrite_er ?_
    | with_reducible refine State.structWrite_er ?_
    | with_reducible refine erase_of_fst (by assumption) ?_
    | dsimp only
    | split

theorem State.wordRead_er {m : Nat} {s : State} {u : State} {a : Nat} (he : erase m u = erase m s) (hw : within 20971537 m = true := by decide) :
    erase m (State.wordRead u a).1 = erase m s := by
  refine (erase_mono (m := 20971537) hw ?_).trans he
  unfold State.wordRead
  repeat' first
    | with_reducible rfl
    | with_reducible assumption
    | with_reducible refine State.absentAccess_er ?_
    | with_reducible refine State.put_er ?_
    | with_reducible refine State.tick_er ?_
    | with_reducible refine State.took_er (fun _ h => execTsSecRead_frame h) ?_ ?_
    | with_reducible refine State.lutInc_er ?_
    | with_reducible refine State.puti_er ?_
    | with_reducible refine erase_ite ?_ ?_
    | with_reducible refine erase_ite_fst ?_ ?_
    | dsimp only
    | split
    | with_reducible refine upd_readData_er ?_

theorem State.wordsRead_er {m : Nat} {s : State} {x0 : Nat} {u : State} {x2 : Nat} (he : erase m u = erase m s) (hw : within 20971537 m = true := by decide) :
    erase m (State.wordsRead x0 u x2).1 = erase m s := by
  refine (erase_mono (m := 20971537) hw ?_).trans he
  clear he hw
  induction x0 generalizing u x2 with
  | zero =>
    unfold State.wordsRead
    repeat' first
      | with_reducible rfl
      | with_reducible assumption
      | with_reducible refine State.wordRead_er ?_
      | with_reducible refine erase_of_fst (by assumption) ?_
      | dsimp only
      | split
  | succ _ ih =>
    unfold State.wordsRead
    repeat' first
      | with_reducible rfl
      | with_reducible assumption
      | with_reducible refine State.wordRead_er ?_
      | with_reducible refine erase_of_fst (by assumption) ?_
      | dsimp only
      | split
      | with_reducible refine (ih ..).trans ?_

end Sys2Proof.Machine
end

