-- ==== Sys2Proof/Laws/FrameBusMatrix.lean ====
section
/-! SUPPORT. Frames of the operations of Machine/BusMatrix.lean. -/

set_option Elab.async false

namespace Sys2Proof.Machine

theorem State.fabricWrite_er {m : Nat} {s : State} {u : State} {mz : Nat} {a : Nat} {v : Word} (he : erase m u = erase m s) (hw : within 26738687 m = true := by decide) :
    erase m (State.fabricWrite u mz a v) = erase m s := by
  refine (erase_mono (m := 26738687) hw ?_).trans he
  unfold State.fabricWrite
  repeat' first
    | with_reducible rfl
    | with_reducible assumption
    | with_reducible refine State.emit_er ?_
    | with_reducible refine State.wordWrite_er ?_

theorem State.t0Write_er {m : Nat} {s : State} {u : State} {r : BusReq} (he : erase m u = erase m s) (hw : within 26738687 m = true := by decide) :
    erase m (State.t0Write u r) = erase m s := by
  refine (erase_mono (m := 26738687) hw ?_).trans he
  unfold State.t0Write
  repeat' first
    | with_reducible rfl
    | with_reducible assumption
    | with_reducible refine State.fabricWrite_er ?_
    | with_reducible refine State.bump_er ?_
    | with_reducible refine erase_ite ?_ ?_
    | with_reducible refine erase_foldl ?_ (fun _ _ => ?_)
    | with_reducible refine erase_foldl_fst ?_ (fun _ _ => ?_)
    | dsimp only
    | split

theorem State.t2Read_er {m : Nat} {s : State} {u : State} {a : Nat} {n : Nat} (he : erase m u = erase m s) (hw : within 20971537 m = true := by decide) :
    erase m (State.t2Read u a n).1 = erase m s := by
  refine (erase_mono (m := 20971537) hw ?_).trans he
  unfold State.t2Read
  repeat' first
    | with_reducible rfl
    | with_reducible assumption
    | with_reducible refine State.wordsRead_er ?_
    | with_reducible refine erase_ite ?_ ?_
    | with_reducible refine erase_ite_fst ?_ ?_
    | dsimp only
    | split

theorem State.t2Write_er {m : Nat} {s : State} {u : State} {r : BusReq} (he : erase m u = erase m s) (hw : within 26738687 m = true := by decide) :
    erase m (State.t2Write u r) = erase m s := by
  refine (erase_mono (m := 26738687) hw ?_).trans he
  unfold State.t2Write
  repeat' first
    | with_reducible rfl
    | with_reducible assumption
    | with_reducible refine State.pageWrite_er ?_
    | with_reducible refine State.wordWrite_er ?_
    | with_reducible refine erase_ite ?_ ?_
    | with_reducible refine erase_foldl ?_ (fun _ _ => ?_)
    | with_reducible refine erase_foldl_fst ?_ (fun _ _ => ?_)
    | dsimp only
    | split

theorem State.m2Write_er {m : Nat} {s : State} {u : State} {l : List (Nat × Byte)} (he : erase m u = erase m s) (hw : within 33809 m = true := by decide) :
    erase m (State.m2Write u l) = erase m s := by
  refine (erase_mono (m := 33809) hw ?_).trans he
  unfold State.m2Write
  repeat' first
    | with_reducible rfl
    | with_reducible assumption
    | with_reducible refine State.bar2Bytes_er ?_
    | with_reducible refine State.bar2Fault_er ?_
    | with_reducible refine erase_ite ?_ ?_
    | with_reducible refine erase_foldl ?_ (fun _ _ => ?_)
    | with_reducible refine erase_foldl_fst ?_ (fun _ _ => ?_)
    | dsimp only
    | split

theorem State.m2Read_er {m : Nat} {s : State} {u : State} {a : Nat} {n : Nat} (he : erase m u = erase m s) (hw : within 33809 m = true := by decide) :
    erase m (State.m2Read u a n).1 = erase m s := by
  refine (erase_mono (m := 33809) hw ?_).trans he
  unfold State.m2Read
  repeat' first
    | with_reducible rfl
    | with_reducible assumption
    | with_reducible refine State.combineFlush_er ?_
    | with_reducible refine State.spaceRead_er ?_
    | with_reducible refine erase_ite ?_ ?_
    | with_reducible refine erase_foldl ?_ (fun _ _ => ?_)
    | with_reducible refine erase_foldl_fst ?_ (fun _ _ => ?_)
    | with_reducible refine erase_ite_fst ?_ ?_
    | dsimp only
    | split

theorem State.t1Write_er {m : Nat} {s : State} {u : State} {r : BusReq} {l : List (Nat × Byte)} (he : erase m u = erase m s) (hw : within 33809 m = true := by decide) :
    erase m (State.t1Write u r l) = erase m s := by
  refine (erase_mono (m := 33809) hw ?_).trans he
  unfold State.t1Write
  repeat' first
    | with_reducible rfl
    | with_reducible assumption
    | with_reducible refine State.m2Write_er ?_
    | with_reducible refine State.spaceWrite_er ?_
    | with_reducible refine erase_ite ?_ ?_
    | dsimp only
    | split

theorem State.t1Read_er {m : Nat} {s : State} {u : State} {r : BusReq} {a : Nat} {n : Nat} (he : erase m u = erase m s) (hw : within 33809 m = true := by decide) :
    erase m (State.t1Read u r a n).1 = erase m s := by
  refine (erase_mono (m := 33809) hw ?_).trans he
  unfold State.t1Read
  repeat' first
    | with_reducible rfl
    | with_reducible assumption
    | with_reducible refine State.m2Read_er ?_
    | with_reducible refine State.spaceRead_er ?_
    | with_reducible refine erase_ite ?_ ?_
    | with_reducible refine erase_ite_fst ?_ ?_
    | dsimp only
    | split

theorem t1Reply_er {m : Nat} {s : State} {q : State × Option (List Byte)} {len : Nat} (he : erase m q.1 = erase m s)
    (_hw : within 0 m = true := by decide) : erase m (t1Reply q len).1 = erase m s := by
  unfold t1Reply
  split <;> exact he

theorem State.busApply_er {m : Nat} {s : State} {u : State} {x : BusTx} (he : erase m u = erase m s) (hw : within 30932991 m = true := by decide) :
    erase m (State.busApply u x).1 = erase m s := by
  refine (erase_mono (m := 30932991) hw ?_).trans he
  unfold State.busApply
  dsimp only
  split <;> try dsimp only
  repeat' first
    | with_reducible rfl
    | with_reducible assumption
    | with_reducible refine State.t0Write_er ?_
    | with_reducible refine State.wordsRead_er ?_
    | with_reducible refine State.t1Write_er ?_
    | with_reducible refine State.t1Read_er ?_
    | with_reducible refine State.t2Write_er ?_
    | with_reducible refine State.t2Read_er ?_
    | with_reducible refine State.sramWrite_er ?_
    | with_reducible refine State.emit_er ?_
    | with_reducible refine t1Reply_er ?_
    | with_reducible refine erase_foldl ?_ (fun _ _ => ?_)
    | with_reducible refine erase_foldl_fst ?_ (fun _ _ => ?_)
    | with_reducible refine erase_of_fst (by assumption) ?_
    | dsimp only
    | split

theorem State.flushOne_er {m : Nat} {s : State} {u : State} {t : Nat} (he : erase m u = erase m s) (hw : within 30932991 m = true := by decide) :
    erase m (State.flushOne u t) = erase m s := by
  refine (erase_mono (m := 30932991) hw ?_).trans he
  unfold State.flushOne
  repeat' first
    | with_reducible rfl
    | with_reducible assumption
    | with_reducible refine State.busApply_er ?_
    | with_reducible refine State.modBus_er ?_
    | with_reducible refine erase_of_fst (by assumption) ?_
    | dsimp only
    | split

theorem State.busFlush_er {m : Nat} {s : State} {u : State} {t : Nat} (he : erase m u = erase m s) (hw : within 30932991 m = true := by decide) :
    erase m (State.busFlush u t) = erase m s := by
  refine (erase_mono (m := 30932991) hw ?_).trans he
  unfold State.busFlush
  repeat' first
    | with_reducible rfl
    | with_reducible assumption
    | with_reducible refine State.flushOne_er ?_
    | with_reducible refine erase_ite ?_ ?_
    | dsimp only
    | split

theorem State.busMove_er {m : Nat} {s : State} {u : State} {before : List (Nat × Nat)} (he : erase m u = erase m s) (hw : within 8454161 m = true := by decide) :
    erase m (State.busMove u before) = erase m s := by
  refine (erase_mono (m := 8454161) hw ?_).trans he
  unfold State.busMove
  repeat' first
    | with_reducible rfl
    | with_reducible assumption
    | with_reducible refine State.busGo_er ?_
    | with_reducible refine State.raiseIf_er ?_

theorem State.busLose_er {m : Nat} {s : State} {u : State} {i : Nat} {x : BusTx} (he : erase m u = erase m s) (hw : within 65553 m = true := by decide) :
    erase m (State.busLose u i x) = erase m s := by
  refine (erase_mono (m := 65553) hw ?_).trans he
  unfold State.busLose
  repeat' first
    | with_reducible rfl
    | with_reducible assumption
    | with_reducible refine State.modBus_er ?_
    | with_reducible refine State.bump_er ?_
    | with_reducible refine State.raiseIf_er ?_
    | with_reducible refine erase_ite ?_ ?_
    | dsimp only
    | split

theorem State.busReach_er {m : Nat} {s : State} {u : State} {t : Fin 9} {mz : Fin 8} {id : Fin 32} (he : erase m u = erase m s) (hw : within 30932991 m = true := by decide) :
    erase m (State.busReach u t mz id) = erase m s := by
  refine (erase_mono (m := 30932991) hw ?_).trans he
  unfold State.busReach
  repeat' first
    | with_reducible rfl
    | with_reducible assumption
    | with_reducible refine State.busFlush_er ?_
    | with_reducible refine erase_ite ?_ ?_
    | with_reducible refine erase_of_fst (by assumption) ?_
    | dsimp only
    | split

theorem State.busRespond_er {m : Nat} {s : State} {u : State} {before : List (Nat × Nat)} {t : Fin 9} {mz : Fin 8} {id : Fin 32} {resp : Nat} {data : List (BitVec 128)} (he : erase m u = erase m s) (hw : within 8454161 m = true := by decide) :
    erase m (State.busRespond u before t mz id resp data) = erase m s := by
  refine (erase_mono (m := 8454161) hw ?_).trans he
  unfold State.busRespond
  repeat' first
    | with_reducible rfl
    | with_reducible assumption
    | with_reducible refine State.modBus_er ?_
    | with_reducible refine State.busAnswer_er ?_
    | with_reducible refine State.busMove_er ?_
    | with_reducible refine erase_ite ?_ ?_
    | with_reducible refine erase_of_fst (by assumption) ?_
    | dsimp only
    | split

theorem State.breakWaiting_er {m : Nat} {s : State} {x0 : Nat} {u : State} {x2 : Nat} {x3 : Nat} (he : erase m u = erase m s) (hw : within 8454161 m = true := by decide) :
    erase m (State.breakWaiting x0 u x2 x3) = erase m s := by
  refine (erase_mono (m := 8454161) hw ?_).trans he
  clear he hw
  induction x0 generalizing u x2 x3 with
  | zero =>
    unfold State.breakWaiting
    repeat' first
      | with_reducible rfl
      | with_reducible assumption
      | with_reducible refine State.modBus_er ?_
      | with_reducible refine State.busAnswer_er ?_
      | with_reducible refine erase_ite ?_ ?_
      | with_reducible refine erase_of_fst (by assumption) ?_
      | dsimp only
      | split
  | succ _ ih =>
    unfold State.breakWaiting
    repeat' first
      | with_reducible rfl
      | with_reducible assumption
      | with_reducible refine State.modBus_er ?_
      | with_reducible refine State.busAnswer_er ?_
      | with_reducible refine erase_ite ?_ ?_
      | with_reducible refine erase_of_fst (by assumption) ?_
      | dsimp only
      | split
      | with_reducible refine (ih ..).trans ?_

end Sys2Proof.Machine
end

