-- ==== Sys2Proof/Laws/FrameStartup.lean ====
section
/-! SUPPORT. Frames of the operations of Machine/Startup.lean. -/

set_option Elab.async false

namespace Sys2Proof.Machine

theorem State.keepRegs_er {m : Nat} {s : State} {u : State} {sz : State} {cold : Bool} (he : erase m u = erase m s) (hw : within 1 m = true := by decide) :
    erase m (State.keepRegs u sz cold) = erase m s := by
  refine (erase_mono (m := 1) hw ?_).trans he
  unfold State.keepRegs
  repeat' first
    | with_reducible rfl
    | with_reducible assumption
    | with_reducible refine State.forAll_er ?_ (fun _ _ => ?_)
    | with_reducible refine State.wr_er ?_
    | with_reducible refine State.put_er ?_
    | with_reducible refine erase_ite ?_ ?_
    | dsimp only
    | split

theorem State.porst_er {m : Nat} {s u : State} {cold : Bool} (he : erase m u = erase m s) (hw : within 3670015 m = true := by decide) :
    erase m (State.porst u cold) = erase m s := by
  refine (erase_mono (m := 3670015) hw ?_).trans he
  apply erase_of_parts <;> first | exact .inr rfl | exact .inl (by decide)

theorem State.setLinks_er {m : Nat} {s : State} {u : State} {d : Nat} {up : Nat} (he : erase m u = erase m s) (hw : within 17 m = true := by decide) :
    erase m (State.setLinks u d up) = erase m s := by
  refine (erase_mono (m := 17) hw ?_).trans he
  unfold State.setLinks
  repeat' first
    | with_reducible rfl
    | with_reducible assumption
    | with_reducible refine State.put_er ?_
    | with_reducible refine State.raiseIf_er ?_
    | with_reducible refine State.floorLive_er ?_

theorem State.clearMaps_er {m : Nat} {s u : State} {d : Nat} (he : erase m u = erase m s) (hw : within 1059455 m = true := by decide) :
    erase m (State.clearMaps u d) = erase m s := by
  refine (erase_mono (m := 1059455) hw ?_).trans he
  apply erase_of_parts <;> first | exact .inr rfl | exact .inl (by decide)

theorem State.clearSheaf_er {m : Nat} {s : State} {u : State} {d : Nat} (he : erase m u = erase m s) (hw : within 9448063 m = true := by decide) :
    erase m (State.clearSheaf u d) = erase m s := by
  refine (erase_mono (m := 9448063) hw ?_).trans he
  unfold State.clearSheaf
  repeat' first
    | with_reducible rfl
    | with_reducible assumption
    | with_reducible refine State.clearMaps_er ?_
    | with_reducible refine State.setEvg_er ?_
    | with_reducible refine State.refreshVecs_er ?_
    | with_reducible refine erase_foldl ?_ (fun _ _ => ?_)
    | with_reducible refine erase_foldl_fst ?_ (fun _ _ => ?_)

theorem State.bringUp_er {m : Nat} {s : State} {u : State} {d : Nat} {pass : Nat} (he : erase m u = erase m s) (hw : within 2097233 m = true := by decide) :
    erase m (State.bringUp u d pass) = erase m s := by
  refine (erase_mono (m := 2097233) hw ?_).trans he
  unfold State.bringUp
  repeat' first
    | with_reducible rfl
    | with_reducible assumption
    | with_reducible refine State.setLinks_er ?_
    | with_reducible refine State.forAll_er ?_ (fun _ _ => ?_)
    | with_reducible refine State.setTx_er ?_
    | with_reducible refine State.rxLive_er ?_
    | with_reducible refine erase_ite ?_ ?_
    | dsimp only
    | split
    | with_reducible refine upd_pwr_er ?_

theorem State.sheafLost_er {m : Nat} {s : State} {u : State} {d : Nat} (he : erase m u = erase m s) (hw : within 11550463 m = true := by decide) :
    erase m (State.sheafLost u d) = erase m s := by
  refine (erase_mono (m := 11550463) hw ?_).trans he
  unfold State.sheafLost
  repeat' first
    | with_reducible rfl
    | with_reducible assumption
    | with_reducible refine State.shedRoute_er ?_
    | with_reducible refine State.sourceStops_er ?_
    | with_reducible refine State.clearSheaf_er ?_
    | with_reducible refine State.setLinks_er ?_
    | with_reducible refine State.forAll_er ?_ (fun _ _ => ?_)
    | with_reducible refine State.candLost_er ?_
    | with_reducible refine State.sumsRefresh_er ?_
    | with_reducible refine erase_ite ?_ ?_
    | with_reducible refine erase_foldl ?_ (fun _ _ => ?_)
    | with_reducible refine erase_foldl_fst ?_ (fun _ _ => ?_)
    | dsimp only
    | split
    | with_reducible refine upd_floor_er ?_
    | with_reducible refine upd_pwr_er ?_

theorem State.raiseArc_er {m : Nat} {s : State} {x0 : Nat} {u : State} {x2 : Nat} (he : erase m u = erase m s) (hw : within 262145 m = true := by decide) :
    erase m (State.raiseArc x0 u x2) = erase m s := by
  refine (erase_mono (m := 262145) hw ?_).trans he
  clear he hw
  induction x0 generalizing u x2 with
  | zero =>
    unfold State.raiseArc
    repeat' first
      | with_reducible rfl
      | with_reducible assumption
      | with_reducible refine State.cntStep_er ?_
      | with_reducible refine erase_ite ?_ ?_
      | with_reducible refine erase_of_fst (by assumption) ?_
      | dsimp only
      | split
  | succ _ ih =>
    unfold State.raiseArc
    repeat' first
      | with_reducible rfl
      | with_reducible assumption
      | with_reducible refine State.cntStep_er ?_
      | with_reducible refine erase_ite ?_ ?_
      | with_reducible refine erase_of_fst (by assumption) ?_
      | dsimp only
      | split
      | with_reducible refine (ih ..).trans ?_

theorem State.runImage_er {m : Nat} {s : State} {u : State} {slot : Nat} {mz : Image} {fallback : Bool} (he : erase m u = erase m s) (hw : within 17235985 m = true := by decide) :
    erase m (State.runImage u slot mz fallback) = erase m s := by
  refine (erase_mono (m := 17235985) hw ?_).trans he
  unfold State.runImage
  repeat' first
    | with_reducible rfl
    | with_reducible assumption
    | with_reducible refine State.raiseArc_er ?_
    | with_reducible refine State.extend_er ?_
    | with_reducible refine State.puts_er ?_
    | with_reducible refine State.raiseIf_er ?_
    | with_reducible refine State.loadImage_er ?_

theorem State.startHardware_er {m : Nat} {s : State} {u : State} {b : Boot} (he : erase m u = erase m s) (hw : within 17203345 m = true := by decide) :
    erase m (State.startHardware u b) = erase m s := by
  refine (erase_mono (m := 17203345) hw ?_).trans he
  unfold State.startHardware
  repeat' first
    | with_reducible rfl
    | with_reducible assumption
    | with_reducible refine State.modTc_er ?_
    | with_reducible refine State.raise_er ?_
    | with_reducible refine State.tcRefresh_er ?_
    | with_reducible refine State.modMem_er ?_
    | with_reducible refine State.put_er ?_
    | with_reducible refine State.live_er ?_
    | with_reducible refine State.flashStart_er ?_
    | with_reducible refine State.ksStart_er ?_
    | with_reducible refine State.extend_er ?_

theorem State.loadCal_er {m : Nat} {s : State} {u : State} (he : erase m u = erase m s) (hw : within 18219153 m = true := by decide) :
    erase m (State.loadCal u) = erase m s := by
  refine (erase_mono (m := 18219153) hw ?_).trans he
  unfold State.loadCal
  repeat' first
    | with_reducible rfl
    | with_reducible assumption
    | with_reducible refine State.raise_er ?_
    | with_reducible refine State.cntStep_er ?_
    | with_reducible refine State.resolveKey_er ?_
    | with_reducible refine State.calUse_er ?_
    | with_reducible refine State.raiseIf_er ?_
    | with_reducible refine State.extend_er ?_
    | with_reducible refine State.forAll_er ?_ (fun _ _ => ?_)
    | with_reducible refine State.eolRefresh_er ?_
    | with_reducible refine erase_ite ?_ ?_
    | with_reducible refine erase_foldl ?_ (fun _ _ => ?_)
    | with_reducible refine erase_foldl_fst ?_ (fun _ _ => ?_)
    | with_reducible refine erase_of_fst (by assumption) ?_
    | dsimp only
    | split

theorem State.startDies_er {m : Nat} {s : State} {u : State} {b : Boot} (he : erase m u = erase m s) (hw : within 2131025 m = true := by decide) :
    erase m (State.startDies u b) = erase m s := by
  refine (erase_mono (m := 2131025) hw ?_).trans he
  unfold State.startDies
  repeat' first
    | with_reducible rfl
    | with_reducible assumption
    | with_reducible refine State.forAll_er ?_ (fun _ _ => ?_)
    | with_reducible refine State.bringUp_er ?_
    | with_reducible refine State.blockRun_er ?_
    | with_reducible refine State.memTrained_er ?_
    | with_reducible refine State.selftest_er ?_
    | with_reducible refine erase_ite ?_ ?_
    | dsimp only
    | split
    | with_reducible refine upd_pwr_er ?_

theorem State.startDone_er {m : Nat} {s : State} {u : State} {b : Boot} (he : erase m u = erase m s) (hw : within 18219281 m = true := by decide) :
    erase m (State.startDone u b) = erase m s := by
  refine (erase_mono (m := 18219281) hw ?_).trans he
  unfold State.startDone
  repeat' first
    | with_reducible rfl
    | with_reducible assumption
    | with_reducible refine State.puts_er ?_
    | with_reducible refine State.modMg_er ?_
    | with_reducible refine State.logAppend_er ?_
    | with_reducible refine State.forAll_er ?_ (fun _ _ => ?_)
    | with_reducible refine State.setTd_er ?_
    | with_reducible refine State.extend_er ?_
    | with_reducible refine State.raise_er ?_
    | with_reducible refine erase_ite ?_ ?_
    | with_reducible refine erase_foldl ?_ (fun _ _ => ?_)
    | with_reducible refine erase_foldl_fst ?_ (fun _ _ => ?_)
    | dsimp only
    | split

theorem State.recovery_er {m : Nat} {s : State} {u : State} (he : erase m u = erase m s) (hw : within 17 m = true := by decide) :
    erase m (State.recovery u) = erase m s := by
  refine (erase_mono (m := 17) hw ?_).trans he
  unfold State.recovery
  repeat' first
    | with_reducible rfl
    | with_reducible assumption
    | with_reducible refine State.put_er ?_
    | with_reducible refine State.raise_er ?_
    | with_reducible refine State.live_er ?_

theorem State.bootSel_er {m : Nat} {s : State} {u : State} (he : erase m u = erase m s) (hw : within 262161 m = true := by decide) :
    erase m (State.bootSel u).1 = erase m s := by
  refine (erase_mono (m := 262161) hw ?_).trans he
  unfold State.bootSel
  repeat' first
    | with_reducible rfl
    | with_reducible assumption
    | with_reducible refine State.resolveKey_er ?_
    | with_reducible refine erase_of_fst (by assumption) ?_
    | dsimp only
    | split

theorem State.startFirmware_er {m : Nat} {s : State} {u : State} {b : Boot} (he : erase m u = erase m s) (hw : within 20350417 m = true := by decide) :
    erase m (State.startFirmware u b) = erase m s := by
  refine (erase_mono (m := 20350417) hw ?_).trans he
  unfold State.startFirmware
  repeat' first
    | with_reducible rfl
    | with_reducible assumption
    | with_reducible refine State.loadCal_er ?_
    | with_reducible refine State.startDies_er ?_
    | with_reducible refine State.startDone_er ?_

theorem State.start_er {m : Nat} {s : State} {u : State} {b : Boot} (he : erase m u = erase m s) (hw : within 20415953 m = true := by decide) :
    erase m (State.start u b) = erase m s := by
  refine (erase_mono (m := 20415953) hw ?_).trans he
  unfold State.start
  repeat' first
    | with_reducible rfl
    | with_reducible assumption
    | with_reducible refine State.startHardware_er ?_
    | with_reducible refine State.bootSel_er ?_
    | with_reducible refine State.runImage_er ?_
    | with_reducible refine State.startFirmware_er ?_
    | with_reducible refine State.recovery_er ?_
    | with_reducible refine erase_ite ?_ ?_
    | dsimp only
    | split
    | with_reducible refine upd_pwr_er ?_

end Sys2Proof.Machine
end

