-- ==== Sys2Proof/Laws/Commands.lean ====
section
/-! SUPPORT. Frames of the commands of the matrix and of start-up: which parts of the state a command that runs can change. -/

set_option Elab.async false

namespace Sys2Proof.Machine

theorem execBusTransaction_frame {u t : State} {r : BusReq} (h : execBusTransaction r u = .next t) : erase 8454161 t = erase 8454161 u := by
  unfold execBusTransaction at h
  dsimp only at h
  refine next_er h ?_
  repeat' first
    | with_reducible rfl
    | with_reducible assumption
    | with_reducible refine State.modBus_er ?_
    | with_reducible refine State.busMove_er ?_
    | with_reducible refine erase_ite ?_ ?_
    | dsimp only
    | split

theorem execTargetArbitration_frame {u t : State} {y0 : Fin 9} (h : execTargetArbitration y0 u = .next t) : erase 30932991 t = erase 30932991 u := by
  unfold execTargetArbitration at h
  try dsimp only at h
  repeat' (first | refine next_er h ?_ | split at h)
  repeat' first
    | with_reducible rfl
    | with_reducible assumption
    | with_reducible refine State.busFlush_er ?_
    | with_reducible refine State.busLose_er ?_
    | with_reducible refine State.modBus_er ?_
    | with_reducible refine State.puts_er ?_
    | with_reducible refine State.busMove_er ?_
    | with_reducible refine erase_ite ?_ ?_
    | with_reducible refine erase_foldl ?_ (fun _ _ => ?_)
    | with_reducible refine erase_foldl_fst ?_ (fun _ _ => ?_)
    | with_reducible refine erase_of_fst (by assumption) ?_
    | dsimp only
    | split

theorem execBusResponse_frame {u t : State} {y0 : Fin 9} {y1 : Fin 8} {id : Fin 32} {resp : Fin 4} {data : List (BitVec 128)} (h : execBusResponse y0 y1 id resp data u = .next t) : erase 30932991 t = erase 30932991 u := by
  unfold execBusResponse at h
  refine next_er h ?_
  repeat' first
    | with_reducible rfl
    | with_reducible assumption
    | with_reducible refine State.busReach_er ?_
    | with_reducible refine State.busRespond_er ?_

theorem execLockBroken_frame {u t : State} {y0 : Fin 9} (h : execLockBroken y0 u = .next t) : erase 8454161 t = erase 8454161 u := by
  unfold execLockBroken at h
  dsimp only at h
  refine next_er h ?_
  repeat' first
    | with_reducible rfl
    | with_reducible assumption
    | with_reducible refine State.breakWaiting_er ?_
    | with_reducible refine State.put_er ?_
    | with_reducible refine State.modBus_er ?_
    | with_reducible refine State.puts_er ?_
    | with_reducible refine State.raise_er ?_
    | with_reducible refine State.busMove_er ?_
    | with_reducible refine erase_ite ?_ ?_
    | dsimp only
    | split

theorem execBmFault_frame {u t : State} {y0 : BmUe} (h : execBmFault y0 u = .next t) : erase 30932991 t = erase 30932991 u := by
  unfold execBmFault at h
  dsimp only at h
  refine next_er h ?_
  repeat' first
    | with_reducible rfl
    | with_reducible assumption
    | with_reducible refine State.setFault_er ?_
    | with_reducible refine State.raise_er ?_
    | with_reducible refine State.modBus_er ?_
    | with_reducible refine State.busMove_er ?_
    | with_reducible refine State.busFlush_er ?_
    | with_reducible refine erase_ite ?_ ?_
    | with_reducible refine erase_of_fst (by assumption) ?_
    | dsimp only
    | split

theorem execPorstAssert_frame {u t : State}  (h : execPorstAssert u = .next t) : erase 3670015 t = erase 3670015 u := by
  unfold execPorstAssert at h
  refine next_er h ?_
  repeat' first
    | with_reducible rfl
    | with_reducible assumption
    | with_reducible refine State.porst_er ?_

theorem execPowerGoodReset_frame {u t : State}  (h : execPowerGoodReset u = .next t) : erase 3670015 t = erase 3670015 u := by
  unfold execPowerGoodReset at h
  refine next_er h ?_
  repeat' first
    | with_reducible rfl
    | with_reducible assumption
    | with_reducible refine State.porst_er ?_

theorem execPcieLinkUp_frame {u t : State}  (h : execPcieLinkUp u = .next t) : erase 2097152 t = erase 2097152 u := by
  unfold execPcieLinkUp at h
  refine next_er h ?_
  repeat' first
    | with_reducible rfl
    | with_reducible assumption
    | with_reducible refine upd_pwr_er ?_

theorem execSheafBringup_frame {u t : State} {sheaf : Fin 8} {pass : Fin 16} (h : execSheafBringup sheaf pass u = .next t) : erase 2097233 t = erase 2097233 u := by
  unfold execSheafBringup at h
  dsimp only at h
  refine next_er h ?_
  repeat' first
    | with_reducible rfl
    | with_reducible assumption
    | with_reducible refine State.bringUp_er ?_
    | with_reducible refine erase_ite ?_ ?_
    | dsimp only
    | split

theorem execSheafDown_frame {u t : State} {sheaf : Fin 8} (h : execSheafDown sheaf u = .next t) : erase 11550463 t = erase 11550463 u := by
  unfold execSheafDown at h
  refine next_er h ?_
  repeat' first
    | with_reducible rfl
    | with_reducible assumption
    | with_reducible refine State.sheafLost_er ?_
    | with_reducible refine erase_ite ?_ ?_
    | dsimp only
    | split

theorem execColdStart_frame {u t : State} {b : Boot} (h : execColdStart b u = .next t) : erase 20415953 t = erase 20415953 u := by
  unfold execColdStart at h
  refine next_er h ?_
  repeat' first
    | with_reducible rfl
    | with_reducible assumption
    | with_reducible refine State.start_er ?_
    | with_reducible refine erase_ite ?_ ?_
    | dsimp only
    | split

theorem execUpdComplete_frame {u t : State} {e : UpdEnd} {host : List Byte} (h : execUpdComplete e host u = .next t) : erase 12058623 t = erase 12058623 u := by
  unfold execUpdComplete at h
  dsimp only at h
  refine next_er h ?_
  repeat' first
    | with_reducible rfl
    | with_reducible assumption
    | with_reducible refine State.updEnd_er ?_
    | with_reducible refine State.porst_er ?_
    | with_reducible refine erase_ite ?_ ?_
    | dsimp only
    | split

end Sys2Proof.Machine
end

