-- ==== Sys2Proof/Laws/Table.lean ====
section
/-! SUPPORT. How sparse tables and bit fields read back what was put into them. -/

set_option Elab.async false

namespace Sys2Proof.Machine

theorem find_tins_same {α : Type} (k : Nat) (v : α) (t : List (Nat × α)) (h : ∀ p ∈ t, p.1 ≠ k) :
    (tins k v t).find? (fun p => p.1 == k) = some (k, v) := by
  induction t with
  | nil => simp [tins]
  | cons p t ih =>
    have hp : p.1 ≠ k := h p List.mem_cons_self
    rw [tins]
    split
    · simp
    · rw [List.find?_cons_of_neg (by simpa using hp)]
      exact ih fun q hq => h q (List.mem_cons_of_mem _ hq)

theorem find_tins_ne {α : Type} {j k : Nat} (v : α) (t : List (Nat × α)) (h : j ≠ k) :
    (tins k v t).find? (fun p => p.1 == j) = t.find? (fun p => p.1 == j) := by
  induction t with
  | nil => simp [tins, Ne.symm h]
  | cons p t ih =>
    rw [tins]
    split
    · rw [List.find?_cons_of_neg (by simpa using Ne.symm h)]
    · simp only [List.find?_cons, ih]

theorem find_filter_ne {α : Type} {j k : Nat} (t : List (Nat × α)) (h : j ≠ k) :
    (t.filter (fun p => p.1 != k)).find? (fun p => p.1 == j) = t.find? (fun p => p.1 == j) := by
  induction t with
  | nil => rfl
  | cons p t ih =>
    by_cases hp : p.1 = k
    · have hj : ¬ p.1 = j := fun e => h (e.symm.trans hp)
      simp [hp, ih, Ne.symm h]
    · simp [hp, List.find?_cons, ih]

/-- A table reads the value set at its key. -/
theorem tget_tset_same {α : Type} [DecidableEq α] (d : α) (t : List (Nat × α)) (k : Nat) (v : α) : tget d (tset d t k v) k = v := by
  have hf : ∀ p ∈ t.filter (fun p => p.1 != k), p.1 ≠ k := fun p hp => by simpa using (List.mem_filter.1 hp).2
  unfold tget tset
  by_cases hv : v = d
  · have : (t.filter (fun p => p.1 != k)).find? (fun p => p.1 == k) = none := by
      rw [List.find?_eq_none]; intro p hp; simpa using hf p hp
    rw [if_pos hv, this]
    exact hv.symm
  · rw [if_neg hv, find_tins_same k v _ hf]

/-- A table reads the same at every other key, whatever that key reads as when it is not listed. -/
theorem tget_tset_ne {α : Type} [DecidableEq α] {d d' : α} (t : List (Nat × α)) {j k : Nat} (v : α) (h : j ≠ k) :
    tget d' (tset d t k v) j = tget d' t j := by
  unfold tget tset
  by_cases hv : v = d
  · rw [if_pos hv, find_filter_ne t h]
  · rw [if_neg hv, find_tins_ne v _ h, find_filter_ne t h]

/-- The number that a word with a field replaced spells. -/
theorem fldSet_toNat (w : Word) {lo n : Nat} (v : Nat) (h : lo + n ≤ 32) :
    (fldSet w lo n v).toNat = w.toNat % 2 ^ lo + 2 ^ lo * (v % 2 ^ n + 2 ^ n * (w.toNat / 2 ^ (lo + n))) := by
  have hw : w.toNat < 2 ^ 32 := w.isLt
  have h1 := Nat.div_add_mod w.toNat (2 ^ lo)
  have h2 := Nat.div_add_mod (w.toNat / 2 ^ lo) (2 ^ n)
  have h3 : w.toNat / 2 ^ lo / 2 ^ n = w.toNat / 2 ^ (lo + n) := by rw [Nat.div_div_eq_div_mul, Nat.pow_add]
  rw [h3] at h2
  have hv : v % 2 ^ n < 2 ^ n := Nat.mod_lt _ (by positivity)
  have ha : w.toNat % 2 ^ lo < 2 ^ lo := Nat.mod_lt _ (by positivity)
  have hh : w.toNat / 2 ^ (lo + n) < 2 ^ (32 - (lo + n)) := by
    apply Nat.div_lt_of_lt_mul
    rw [← Nat.pow_add, Nat.add_sub_cancel' h]
    exact hw
  have key : w.toNat - w.toNat / 2 ^ lo % 2 ^ n * 2 ^ lo + v % 2 ^ n * 2 ^ lo
      = w.toNat % 2 ^ lo + 2 ^ lo * (v % 2 ^ n + 2 ^ n * (w.toNat / 2 ^ (lo + n))) := by
    have e : w.toNat = w.toNat % 2 ^ lo + 2 ^ lo * (2 ^ n * (w.toNat / 2 ^ (lo + n))) + w.toNat / 2 ^ lo % 2 ^ n * 2 ^ lo := by
      conv_lhs => rw [← h1, ← h2]
      ring
    generalize w.toNat / 2 ^ lo % 2 ^ n * 2 ^ lo = f at e ⊢
    generalize w.toNat / 2 ^ (lo + n) = q at e ⊢
    generalize w.toNat % 2 ^ lo = r at e ⊢
    rw [e, Nat.add_sub_cancel]
    ring
  have lt : w.toNat % 2 ^ lo + 2 ^ lo * (v % 2 ^ n + 2 ^ n * (w.toNat / 2 ^ (lo + n))) < 2 ^ 32 := by
    have e32 : 2 ^ 32 = 2 ^ lo * (2 ^ n * 2 ^ (32 - (lo + n))) := by
      rw [← Nat.pow_add, ← Nat.pow_add]; congr 1; omega
    have s1 : v % 2 ^ n + 2 ^ n * (w.toNat / 2 ^ (lo + n)) + 1 ≤ 2 ^ n * 2 ^ (32 - (lo + n)) := by
      calc v % 2 ^ n + 2 ^ n * (w.toNat / 2 ^ (lo + n)) + 1 ≤ 2 ^ n * (w.toNat / 2 ^ (lo + n) + 1) := by rw [Nat.mul_add]; omega
        _ ≤ _ := Nat.mul_le_mul_left _ hh
    rw [e32]
    calc _ < 2 ^ lo * (v % 2 ^ n + 2 ^ n * (w.toNat / 2 ^ (lo + n)) + 1) := by rw [Nat.mul_add _ _ 1]; omega
      _ ≤ _ := Nat.mul_le_mul_left _ s1
  rw [fldSet, BitVec.toNat_ofNat, key, Nat.mod_eq_of_lt lt]

/-- A field reads back what was put into it. -/
theorem fldGet_fldSet_same (w : Word) {lo n : Nat} (v : Nat) (h : lo + n ≤ 32) : fldGet (fldSet w lo n v) lo n = v % 2 ^ n := by
  rw [fldGet, fldSet_toNat w v h, Nat.add_mul_div_left _ _ (by positivity), Nat.div_eq_of_lt (Nat.mod_lt _ (by positivity)),
    Nat.zero_add, Nat.add_mul_mod_self_left, Nat.mod_mod]

/-- A field keeps what is put into another. -/
theorem fldGet_fldSet_ne (w : Word) {lo n lo' n' : Nat} (v : Nat)
    (h : lo + n ≤ lo' ∧ lo' + n' ≤ 32 ∨ lo' + n' ≤ lo ∧ lo + n ≤ 32) : fldGet (fldSet w lo n v) lo' n' = fldGet w lo' n' := by
  rcases h with ⟨h, h'⟩ | ⟨h, h'⟩
  · have e : (fldSet w lo n v).toNat / 2 ^ (lo + n) = w.toNat / 2 ^ (lo + n) := by
      rw [fldSet_toNat w v (by omega), Nat.pow_add, ← Nat.div_div_eq_div_mul, Nat.add_mul_div_left _ _ (by positivity),
        Nat.div_eq_of_lt (Nat.mod_lt _ (by positivity)), Nat.zero_add, Nat.add_mul_div_left _ _ (by positivity),
        Nat.div_eq_of_lt (Nat.mod_lt _ (by positivity)), Nat.zero_add]
    have d (x : Nat) : x / 2 ^ lo' = x / 2 ^ (lo + n) / 2 ^ (lo' - (lo + n)) := by
      rw [Nat.div_div_eq_div_mul, ← Nat.pow_add, Nat.add_sub_cancel' h]
    simp only [fldGet]
    rw [d, e, ← d]
  · have e : (fldSet w lo n v).toNat % 2 ^ lo = w.toNat % 2 ^ lo := by
      rw [fldSet_toNat w v h', Nat.add_mul_mod_self_left, Nat.mod_mod]
    have d (x : Nat) : x / 2 ^ lo' % 2 ^ n' = x % 2 ^ lo % 2 ^ (lo' + n') / 2 ^ lo' := by
      rw [Nat.mod_mod_of_dvd _ (Nat.pow_dvd_pow 2 h), Nat.pow_add, Nat.mod_mul_right_div_self]
    simp only [fldGet]
    rw [d, e, ← d]

end Sys2Proof.Machine
end

