-- ==== Sys2Proof/Laws/State.lean ====
section
/-! SUPPORT. What each primitive update leaves alone, one lemma a field, and how the register file and the sparse tables read back. -/

set_option Elab.async false

namespace Sys2Proof.Machine

/-! One primitive update and the fields that it leaves alone. -/

@[simp] theorem State.wr_eff (s : State) (a : Nat) (v : Word) : (s.wr a v).eff = s.eff := rfl
@[simp] theorem State.wr_tags (s : State) (a : Nat) (v : Word) : (s.wr a v).tags = s.tags := rfl
@[simp] theorem State.wr_grps (s : State) (a : Nat) (v : Word) : (s.wr a v).grps = s.grps := rfl
@[simp] theorem State.wr_irq (s : State) (a : Nat) (v : Word) : (s.wr a v).irq = s.irq := rfl
@[simp] theorem State.wr_sdiRx (s : State) (a : Nat) (v : Word) : (s.wr a v).sdiRx = s.sdiRx := rfl
@[simp] theorem State.wr_sdiTx (s : State) (a : Nat) (v : Word) : (s.wr a v).sdiTx = s.sdiTx := rfl
@[simp] theorem State.wr_tc (s : State) (a : Nat) (v : Word) : (s.wr a v).tc = s.tc := rfl
@[simp] theorem State.wr_tds (s : State) (a : Nat) (v : Word) : (s.wr a v).tds = s.tds := rfl
@[simp] theorem State.wr_floor (s : State) (a : Nat) (v : Word) : (s.wr a v).floor = s.floor := rfl
@[simp] theorem State.wr_silo (s : State) (a : Nat) (v : Word) : (s.wr a v).silo = s.silo := rfl
@[simp] theorem State.wr_comps (s : State) (a : Nat) (v : Word) : (s.wr a v).comps = s.comps := rfl
@[simp] theorem State.wr_conv (s : State) (a : Nat) (v : Word) : (s.wr a v).conv = s.conv := rfl
@[simp] theorem State.wr_aud (s : State) (a : Nat) (v : Word) : (s.wr a v).aud = s.aud := rfl
@[simp] theorem State.wr_ip (s : State) (a : Nat) (v : Word) : (s.wr a v).ip = s.ip := rfl
@[simp] theorem State.wr_mem (s : State) (a : Nat) (v : Word) : (s.wr a v).mem = s.mem := rfl
@[simp] theorem State.wr_bus (s : State) (a : Nat) (v : Word) : (s.wr a v).bus = s.bus := rfl
@[simp] theorem State.wr_ks (s : State) (a : Nat) (v : Word) : (s.wr a v).ks = s.ks := rfl
@[simp] theorem State.wr_nv (s : State) (a : Nat) (v : Word) : (s.wr a v).nv = s.nv := rfl
@[simp] theorem State.wr_ym (s : State) (a : Nat) (v : Word) : (s.wr a v).ym = s.ym := rfl
@[simp] theorem State.wr_mg (s : State) (a : Nat) (v : Word) : (s.wr a v).mg = s.mg := rfl
@[simp] theorem State.wr_pwr (s : State) (a : Nat) (v : Word) : (s.wr a v).pwr = s.pwr := rfl
@[simp] theorem State.wr_readData (s : State) (a : Nat) (v : Word) : (s.wr a v).readData = s.readData := rfl
@[simp] theorem State.wr_out (s : State) (a : Nat) (v : Word) : (s.wr a v).out = s.out := rfl
@[simp] theorem State.wr_freeCtr (s : State) (a : Nat) (v : Word) : (s.wr a v).freeCtr = s.freeCtr := rfl
@[simp] theorem State.wr_pending (s : State) (a : Nat) (v : Word) : (s.wr a v).pending = s.pending := rfl

@[simp] theorem State.effWr_regs (s : State) (a : Nat) (v : Word) : (s.effWr a v).regs = s.regs := rfl
@[simp] theorem State.effWr_tags (s : State) (a : Nat) (v : Word) : (s.effWr a v).tags = s.tags := rfl
@[simp] theorem State.effWr_grps (s : State) (a : Nat) (v : Word) : (s.effWr a v).grps = s.grps := rfl
@[simp] theorem State.effWr_irq (s : State) (a : Nat) (v : Word) : (s.effWr a v).irq = s.irq := rfl
@[simp] theorem State.effWr_sdiRx (s : State) (a : Nat) (v : Word) : (s.effWr a v).sdiRx = s.sdiRx := rfl
@[simp] theorem State.effWr_sdiTx (s : State) (a : Nat) (v : Word) : (s.effWr a v).sdiTx = s.sdiTx := rfl
@[simp] theorem State.effWr_tc (s : State) (a : Nat) (v : Word) : (s.effWr a v).tc = s.tc := rfl
@[simp] theorem State.effWr_tds (s : State) (a : Nat) (v : Word) : (s.effWr a v).tds = s.tds := rfl
@[simp] theorem State.effWr_floor (s : State) (a : Nat) (v : Word) : (s.effWr a v).floor = s.floor := rfl
@[simp] theorem State.effWr_silo (s : State) (a : Nat) (v : Word) : (s.effWr a v).silo = s.silo := rfl
@[simp] theorem State.effWr_comps (s : State) (a : Nat) (v : Word) : (s.effWr a v).comps = s.comps := rfl
@[simp] theorem State.effWr_conv (s : State) (a : Nat) (v : Word) : (s.effWr a v).conv = s.conv := rfl
@[simp] theorem State.effWr_aud (s : State) (a : Nat) (v : Word) : (s.effWr a v).aud = s.aud := rfl
@[simp] theorem State.effWr_ip (s : State) (a : Nat) (v : Word) : (s.effWr a v).ip = s.ip := rfl
@[simp] theorem State.effWr_mem (s : State) (a : Nat) (v : Word) : (s.effWr a v).mem = s.mem := rfl
@[simp] theorem State.effWr_bus (s : State) (a : Nat) (v : Word) : (s.effWr a v).bus = s.bus := rfl
@[simp] theorem State.effWr_ks (s : State) (a : Nat) (v : Word) : (s.effWr a v).ks = s.ks := rfl
@[simp] theorem State.effWr_nv (s : State) (a : Nat) (v : Word) : (s.effWr a v).nv = s.nv := rfl
@[simp] theorem State.effWr_ym (s : State) (a : Nat) (v : Word) : (s.effWr a v).ym = s.ym := rfl
@[simp] theorem State.effWr_mg (s : State) (a : Nat) (v : Word) : (s.effWr a v).mg = s.mg := rfl
@[simp] theorem State.effWr_pwr (s : State) (a : Nat) (v : Word) : (s.effWr a v).pwr = s.pwr := rfl
@[simp] theorem State.effWr_readData (s : State) (a : Nat) (v : Word) : (s.effWr a v).readData = s.readData := rfl
@[simp] theorem State.effWr_out (s : State) (a : Nat) (v : Word) : (s.effWr a v).out = s.out := rfl
@[simp] theorem State.effWr_freeCtr (s : State) (a : Nat) (v : Word) : (s.effWr a v).freeCtr = s.freeCtr := rfl
@[simp] theorem State.effWr_pending (s : State) (a : Nat) (v : Word) : (s.effWr a v).pending = s.pending := rfl

@[simp] theorem State.put_eff (s : State) (b : Nat) (f : Fld) (v : Nat) : (s.put b f v).eff = s.eff := rfl
@[simp] theorem State.put_tags (s : State) (b : Nat) (f : Fld) (v : Nat) : (s.put b f v).tags = s.tags := rfl
@[simp] theorem State.put_grps (s : State) (b : Nat) (f : Fld) (v : Nat) : (s.put b f v).grps = s.grps := rfl
@[simp] theorem State.put_irq (s : State) (b : Nat) (f : Fld) (v : Nat) : (s.put b f v).irq = s.irq := rfl
@[simp] theorem State.put_sdiRx (s : State) (b : Nat) (f : Fld) (v : Nat) : (s.put b f v).sdiRx = s.sdiRx := rfl
@[simp] theorem State.put_sdiTx (s : State) (b : Nat) (f : Fld) (v : Nat) : (s.put b f v).sdiTx = s.sdiTx := rfl
@[simp] theorem State.put_tc (s : State) (b : Nat) (f : Fld) (v : Nat) : (s.put b f v).tc = s.tc := rfl
@[simp] theorem State.put_tds (s : State) (b : Nat) (f : Fld) (v : Nat) : (s.put b f v).tds = s.tds := rfl
@[simp] theorem State.put_floor (s : State) (b : Nat) (f : Fld) (v : Nat) : (s.put b f v).floor = s.floor := rfl
@[simp] theorem State.put_silo (s : State) (b : Nat) (f : Fld) (v : Nat) : (s.put b f v).silo = s.silo := rfl
@[simp] theorem State.put_comps (s : State) (b : Nat) (f : Fld) (v : Nat) : (s.put b f v).comps = s.comps := rfl
@[simp] theorem State.put_conv (s : State) (b : Nat) (f : Fld) (v : Nat) : (s.put b f v).conv = s.conv := rfl
@[simp] theorem State.put_aud (s : State) (b : Nat) (f : Fld) (v : Nat) : (s.put b f v).aud = s.aud := rfl
@[simp] theorem State.put_ip (s : State) (b : Nat) (f : Fld) (v : Nat) : (s.put b f v).ip = s.ip := rfl
@[simp] theorem State.put_mem (s : State) (b : Nat) (f : Fld) (v : Nat) : (s.put b f v).mem = s.mem := rfl
@[simp] theorem State.put_bus (s : State) (b : Nat) (f : Fld) (v : Nat) : (s.put b f v).bus = s.bus := rfl
@[simp] theorem State.put_ks (s : State) (b : Nat) (f : Fld) (v : Nat) : (s.put b f v).ks = s.ks := rfl
@[simp] theorem State.put_nv (s : State) (b : Nat) (f : Fld) (v : Nat) : (s.put b f v).nv = s.nv := rfl
@[simp] theorem State.put_ym (s : State) (b : Nat) (f : Fld) (v : Nat) : (s.put b f v).ym = s.ym := rfl
@[simp] theorem State.put_mg (s : State) (b : Nat) (f : Fld) (v : Nat) : (s.put b f v).mg = s.mg := rfl
@[simp] theorem State.put_pwr (s : State) (b : Nat) (f : Fld) (v : Nat) : (s.put b f v).pwr = s.pwr := rfl
@[simp] theorem State.put_readData (s : State) (b : Nat) (f : Fld) (v : Nat) : (s.put b f v).readData = s.readData := rfl
@[simp] theorem State.put_out (s : State) (b : Nat) (f : Fld) (v : Nat) : (s.put b f v).out = s.out := rfl
@[simp] theorem State.put_freeCtr (s : State) (b : Nat) (f : Fld) (v : Nat) : (s.put b f v).freeCtr = s.freeCtr := rfl
@[simp] theorem State.put_pending (s : State) (b : Nat) (f : Fld) (v : Nat) : (s.put b f v).pending = s.pending := rfl

@[simp] theorem State.bump_eff (s : State) (b : Nat) (f : Fld) (n : Nat) : (s.bump b f n).eff = s.eff := rfl
@[simp] theorem State.bump_tags (s : State) (b : Nat) (f : Fld) (n : Nat) : (s.bump b f n).tags = s.tags := rfl
@[simp] theorem State.bump_grps (s : State) (b : Nat) (f : Fld) (n : Nat) : (s.bump b f n).grps = s.grps := rfl
@[simp] theorem State.bump_irq (s : State) (b : Nat) (f : Fld) (n : Nat) : (s.bump b f n).irq = s.irq := rfl
@[simp] theorem State.bump_sdiRx (s : State) (b : Nat) (f : Fld) (n : Nat) : (s.bump b f n).sdiRx = s.sdiRx := rfl
@[simp] theorem State.bump_sdiTx (s : State) (b : Nat) (f : Fld) (n : Nat) : (s.bump b f n).sdiTx = s.sdiTx := rfl
@[simp] theorem State.bump_tc (s : State) (b : Nat) (f : Fld) (n : Nat) : (s.bump b f n).tc = s.tc := rfl
@[simp] theorem State.bump_tds (s : State) (b : Nat) (f : Fld) (n : Nat) : (s.bump b f n).tds = s.tds := rfl
@[simp] theorem State.bump_floor (s : State) (b : Nat) (f : Fld) (n : Nat) : (s.bump b f n).floor = s.floor := rfl
@[simp] theorem State.bump_silo (s : State) (b : Nat) (f : Fld) (n : Nat) : (s.bump b f n).silo = s.silo := rfl
@[simp] theorem State.bump_comps (s : State) (b : Nat) (f : Fld) (n : Nat) : (s.bump b f n).comps = s.comps := rfl
@[simp] theorem State.bump_conv (s : State) (b : Nat) (f : Fld) (n : Nat) : (s.bump b f n).conv = s.conv := rfl
@[simp] theorem State.bump_aud (s : State) (b : Nat) (f : Fld) (n : Nat) : (s.bump b f n).aud = s.aud := rfl
@[simp] theorem State.bump_ip (s : State) (b : Nat) (f : Fld) (n : Nat) : (s.bump b f n).ip = s.ip := rfl
@[simp] theorem State.bump_mem (s : State) (b : Nat) (f : Fld) (n : Nat) : (s.bump b f n).mem = s.mem := rfl
@[simp] theorem State.bump_bus (s : State) (b : Nat) (f : Fld) (n : Nat) : (s.bump b f n).bus = s.bus := rfl
@[simp] theorem State.bump_ks (s : State) (b : Nat) (f : Fld) (n : Nat) : (s.bump b f n).ks = s.ks := rfl
@[simp] theorem State.bump_nv (s : State) (b : Nat) (f : Fld) (n : Nat) : (s.bump b f n).nv = s.nv := rfl
@[simp] theorem State.bump_ym (s : State) (b : Nat) (f : Fld) (n : Nat) : (s.bump b f n).ym = s.ym := rfl
@[simp] theorem State.bump_mg (s : State) (b : Nat) (f : Fld) (n : Nat) : (s.bump b f n).mg = s.mg := rfl
@[simp] theorem State.bump_pwr (s : State) (b : Nat) (f : Fld) (n : Nat) : (s.bump b f n).pwr = s.pwr := rfl
@[simp] theorem State.bump_readData (s : State) (b : Nat) (f : Fld) (n : Nat) : (s.bump b f n).readData = s.readData := rfl
@[simp] theorem State.bump_out (s : State) (b : Nat) (f : Fld) (n : Nat) : (s.bump b f n).out = s.out := rfl
@[simp] theorem State.bump_freeCtr (s : State) (b : Nat) (f : Fld) (n : Nat) : (s.bump b f n).freeCtr = s.freeCtr := rfl
@[simp] theorem State.bump_pending (s : State) (b : Nat) (f : Fld) (n : Nat) : (s.bump b f n).pending = s.pending := rfl

@[simp] theorem State.setTag_regs (s : State) (a n : Nat) : (s.setTag a n).regs = s.regs := rfl
@[simp] theorem State.setTag_eff (s : State) (a n : Nat) : (s.setTag a n).eff = s.eff := rfl
@[simp] theorem State.setTag_grps (s : State) (a n : Nat) : (s.setTag a n).grps = s.grps := rfl
@[simp] theorem State.setTag_irq (s : State) (a n : Nat) : (s.setTag a n).irq = s.irq := rfl
@[simp] theorem State.setTag_sdiRx (s : State) (a n : Nat) : (s.setTag a n).sdiRx = s.sdiRx := rfl
@[simp] theorem State.setTag_sdiTx (s : State) (a n : Nat) : (s.setTag a n).sdiTx = s.sdiTx := rfl
@[simp] theorem State.setTag_tc (s : State) (a n : Nat) : (s.setTag a n).tc = s.tc := rfl
@[simp] theorem State.setTag_tds (s : State) (a n : Nat) : (s.setTag a n).tds = s.tds := rfl
@[simp] theorem State.setTag_floor (s : State) (a n : Nat) : (s.setTag a n).floor = s.floor := rfl
@[simp] theorem State.setTag_silo (s : State) (a n : Nat) : (s.setTag a n).silo = s.silo := rfl
@[simp] theorem State.setTag_comps (s : State) (a n : Nat) : (s.setTag a n).comps = s.comps := rfl
@[simp] theorem State.setTag_conv (s : State) (a n : Nat) : (s.setTag a n).conv = s.conv := rfl
@[simp] theorem State.setTag_aud (s : State) (a n : Nat) : (s.setTag a n).aud = s.aud := rfl
@[simp] theorem State.setTag_ip (s : State) (a n : Nat) : (s.setTag a n).ip = s.ip := rfl
@[simp] theorem State.setTag_mem (s : State) (a n : Nat) : (s.setTag a n).mem = s.mem := rfl
@[simp] theorem State.setTag_bus (s : State) (a n : Nat) : (s.setTag a n).bus = s.bus := rfl
@[simp] theorem State.setTag_ks (s : State) (a n : Nat) : (s.setTag a n).ks = s.ks := rfl
@[simp] theorem State.setTag_nv (s : State) (a n : Nat) : (s.setTag a n).nv = s.nv := rfl
@[simp] theorem State.setTag_ym (s : State) (a n : Nat) : (s.setTag a n).ym = s.ym := rfl
@[simp] theorem State.setTag_mg (s : State) (a n : Nat) : (s.setTag a n).mg = s.mg := rfl
@[simp] theorem State.setTag_pwr (s : State) (a n : Nat) : (s.setTag a n).pwr = s.pwr := rfl
@[simp] theorem State.setTag_readData (s : State) (a n : Nat) : (s.setTag a n).readData = s.readData := rfl
@[simp] theorem State.setTag_out (s : State) (a n : Nat) : (s.setTag a n).out = s.out := rfl
@[simp] theorem State.setTag_freeCtr (s : State) (a n : Nat) : (s.setTag a n).freeCtr = s.freeCtr := rfl
@[simp] theorem State.setTag_pending (s : State) (a n : Nat) : (s.setTag a n).pending = s.pending := rfl

@[simp] theorem State.setGrp_regs (s : State) (n : Nat) (g : Grp) : (s.setGrp n g).regs = s.regs := rfl
@[simp] theorem State.setGrp_eff (s : State) (n : Nat) (g : Grp) : (s.setGrp n g).eff = s.eff := rfl
@[simp] theorem State.setGrp_tags (s : State) (n : Nat) (g : Grp) : (s.setGrp n g).tags = s.tags := rfl
@[simp] theorem State.setGrp_irq (s : State) (n : Nat) (g : Grp) : (s.setGrp n g).irq = s.irq := rfl
@[simp] theorem State.setGrp_sdiRx (s : State) (n : Nat) (g : Grp) : (s.setGrp n g).sdiRx = s.sdiRx := rfl
@[simp] theorem State.setGrp_sdiTx (s : State) (n : Nat) (g : Grp) : (s.setGrp n g).sdiTx = s.sdiTx := rfl
@[simp] theorem State.setGrp_tc (s : State) (n : Nat) (g : Grp) : (s.setGrp n g).tc = s.tc := rfl
@[simp] theorem State.setGrp_tds (s : State) (n : Nat) (g : Grp) : (s.setGrp n g).tds = s.tds := rfl
@[simp] theorem State.setGrp_floor (s : State) (n : Nat) (g : Grp) : (s.setGrp n g).floor = s.floor := rfl
@[simp] theorem State.setGrp_silo (s : State) (n : Nat) (g : Grp) : (s.setGrp n g).silo = s.silo := rfl
@[simp] theorem State.setGrp_comps (s : State) (n : Nat) (g : Grp) : (s.setGrp n g).comps = s.comps := rfl
@[simp] theorem State.setGrp_conv (s : State) (n : Nat) (g : Grp) : (s.setGrp n g).conv = s.conv := rfl
@[simp] theorem State.setGrp_aud (s : State) (n : Nat) (g : Grp) : (s.setGrp n g).aud = s.aud := rfl
@[simp] theorem State.setGrp_ip (s : State) (n : Nat) (g : Grp) : (s.setGrp n g).ip = s.ip := rfl
@[simp] theorem State.setGrp_mem (s : State) (n : Nat) (g : Grp) : (s.setGrp n g).mem = s.mem := rfl
@[simp] theorem State.setGrp_bus (s : State) (n : Nat) (g : Grp) : (s.setGrp n g).bus = s.bus := rfl
@[simp] theorem State.setGrp_ks (s : State) (n : Nat) (g : Grp) : (s.setGrp n g).ks = s.ks := rfl
@[simp] theorem State.setGrp_nv (s : State) (n : Nat) (g : Grp) : (s.setGrp n g).nv = s.nv := rfl
@[simp] theorem State.setGrp_ym (s : State) (n : Nat) (g : Grp) : (s.setGrp n g).ym = s.ym := rfl
@[simp] theorem State.setGrp_mg (s : State) (n : Nat) (g : Grp) : (s.setGrp n g).mg = s.mg := rfl
@[simp] theorem State.setGrp_pwr (s : State) (n : Nat) (g : Grp) : (s.setGrp n g).pwr = s.pwr := rfl
@[simp] theorem State.setGrp_readData (s : State) (n : Nat) (g : Grp) : (s.setGrp n g).readData = s.readData := rfl
@[simp] theorem State.setGrp_out (s : State) (n : Nat) (g : Grp) : (s.setGrp n g).out = s.out := rfl
@[simp] theorem State.setGrp_freeCtr (s : State) (n : Nat) (g : Grp) : (s.setGrp n g).freeCtr = s.freeCtr := rfl
@[simp] theorem State.setGrp_pending (s : State) (n : Nat) (g : Grp) : (s.setGrp n g).pending = s.pending := rfl

@[simp] theorem State.emit_regs (s : State) (m : OutMsg) : (s.emit m).regs = s.regs := rfl
@[simp] theorem State.emit_eff (s : State) (m : OutMsg) : (s.emit m).eff = s.eff := rfl
@[simp] theorem State.emit_tags (s : State) (m : OutMsg) : (s.emit m).tags = s.tags := rfl
@[simp] theorem State.emit_grps (s : State) (m : OutMsg) : (s.emit m).grps = s.grps := rfl
@[simp] theorem State.emit_irq (s : State) (m : OutMsg) : (s.emit m).irq = s.irq := rfl
@[simp] theorem State.emit_sdiRx (s : State) (m : OutMsg) : (s.emit m).sdiRx = s.sdiRx := rfl
@[simp] theorem State.emit_sdiTx (s : State) (m : OutMsg) : (s.emit m).sdiTx = s.sdiTx := rfl
@[simp] theorem State.emit_tc (s : State) (m : OutMsg) : (s.emit m).tc = s.tc := rfl
@[simp] theorem State.emit_tds (s : State) (m : OutMsg) : (s.emit m).tds = s.tds := rfl
@[simp] theorem State.emit_floor (s : State) (m : OutMsg) : (s.emit m).floor = s.floor := rfl
@[simp] theorem State.emit_silo (s : State) (m : OutMsg) : (s.emit m).silo = s.silo := rfl
@[simp] theorem State.emit_comps (s : State) (m : OutMsg) : (s.emit m).comps = s.comps := rfl
@[simp] theorem State.emit_conv (s : State) (m : OutMsg) : (s.emit m).conv = s.conv := rfl
@[simp] theorem State.emit_aud (s : State) (m : OutMsg) : (s.emit m).aud = s.aud := rfl
@[simp] theorem State.emit_ip (s : State) (m : OutMsg) : (s.emit m).ip = s.ip := rfl
@[simp] theorem State.emit_mem (s : State) (m : OutMsg) : (s.emit m).mem = s.mem := rfl
@[simp] theorem State.emit_bus (s : State) (m : OutMsg) : (s.emit m).bus = s.bus := rfl
@[simp] theorem State.emit_ks (s : State) (m : OutMsg) : (s.emit m).ks = s.ks := rfl
@[simp] theorem State.emit_nv (s : State) (m : OutMsg) : (s.emit m).nv = s.nv := rfl
@[simp] theorem State.emit_ym (s : State) (m : OutMsg) : (s.emit m).ym = s.ym := rfl
@[simp] theorem State.emit_mg (s : State) (m : OutMsg) : (s.emit m).mg = s.mg := rfl
@[simp] theorem State.emit_pwr (s : State) (m : OutMsg) : (s.emit m).pwr = s.pwr := rfl
@[simp] theorem State.emit_readData (s : State) (m : OutMsg) : (s.emit m).readData = s.readData := rfl
@[simp] theorem State.emit_freeCtr (s : State) (m : OutMsg) : (s.emit m).freeCtr = s.freeCtr := rfl
@[simp] theorem State.emit_pending (s : State) (m : OutMsg) : (s.emit m).pending = s.pending := rfl

@[simp] theorem State.answer_regs (s : State) (v : Word) : (s.answer v).regs = s.regs := rfl
@[simp] theorem State.answer_eff (s : State) (v : Word) : (s.answer v).eff = s.eff := rfl
@[simp] theorem State.answer_tags (s : State) (v : Word) : (s.answer v).tags = s.tags := rfl
@[simp] theorem State.answer_grps (s : State) (v : Word) : (s.answer v).grps = s.grps := rfl
@[simp] theorem State.answer_irq (s : State) (v : Word) : (s.answer v).irq = s.irq := rfl
@[simp] theorem State.answer_sdiRx (s : State) (v : Word) : (s.answer v).sdiRx = s.sdiRx := rfl
@[simp] theorem State.answer_sdiTx (s : State) (v : Word) : (s.answer v).sdiTx = s.sdiTx := rfl
@[simp] theorem State.answer_tc (s : State) (v : Word) : (s.answer v).tc = s.tc := rfl
@[simp] theorem State.answer_tds (s : State) (v : Word) : (s.answer v).tds = s.tds := rfl
@[simp] theorem State.answer_floor (s : State) (v : Word) : (s.answer v).floor = s.floor := rfl
@[simp] theorem State.answer_silo (s : State) (v : Word) : (s.answer v).silo = s.silo := rfl
@[simp] theorem State.answer_comps (s : State) (v : Word) : (s.answer v).comps = s.comps := rfl
@[simp] theorem State.answer_conv (s : State) (v : Word) : (s.answer v).conv = s.conv := rfl
@[simp] theorem State.answer_aud (s : State) (v : Word) : (s.answer v).aud = s.aud := rfl
@[simp] theorem State.answer_ip (s : State) (v : Word) : (s.answer v).ip = s.ip := rfl
@[simp] theorem State.answer_mem (s : State) (v : Word) : (s.answer v).mem = s.mem := rfl
@[simp] theorem State.answer_bus (s : State) (v : Word) : (s.answer v).bus = s.bus := rfl
@[simp] theorem State.answer_ks (s : State) (v : Word) : (s.answer v).ks = s.ks := rfl
@[simp] theorem State.answer_nv (s : State) (v : Word) : (s.answer v).nv = s.nv := rfl
@[simp] theorem State.answer_ym (s : State) (v : Word) : (s.answer v).ym = s.ym := rfl
@[simp] theorem State.answer_mg (s : State) (v : Word) : (s.answer v).mg = s.mg := rfl
@[simp] theorem State.answer_pwr (s : State) (v : Word) : (s.answer v).pwr = s.pwr := rfl
@[simp] theorem State.answer_out (s : State) (v : Word) : (s.answer v).out = s.out := rfl
@[simp] theorem State.answer_freeCtr (s : State) (v : Word) : (s.answer v).freeCtr = s.freeCtr := rfl
@[simp] theorem State.answer_pending (s : State) (v : Word) : (s.answer v).pending = s.pending := rfl

@[simp] theorem State.tick_regs (s : State) : (s.tick).regs = s.regs := rfl
@[simp] theorem State.tick_eff (s : State) : (s.tick).eff = s.eff := rfl
@[simp] theorem State.tick_tags (s : State) : (s.tick).tags = s.tags := rfl
@[simp] theorem State.tick_grps (s : State) : (s.tick).grps = s.grps := rfl
@[simp] theorem State.tick_irq (s : State) : (s.tick).irq = s.irq := rfl
@[simp] theorem State.tick_sdiRx (s : State) : (s.tick).sdiRx = s.sdiRx := rfl
@[simp] theorem State.tick_sdiTx (s : State) : (s.tick).sdiTx = s.sdiTx := rfl
@[simp] theorem State.tick_tc (s : State) : (s.tick).tc = s.tc := rfl
@[simp] theorem State.tick_tds (s : State) : (s.tick).tds = s.tds := rfl
@[simp] theorem State.tick_floor (s : State) : (s.tick).floor = s.floor := rfl
@[simp] theorem State.tick_silo (s : State) : (s.tick).silo = s.silo := rfl
@[simp] theorem State.tick_comps (s : State) : (s.tick).comps = s.comps := rfl
@[simp] theorem State.tick_conv (s : State) : (s.tick).conv = s.conv := rfl
@[simp] theorem State.tick_aud (s : State) : (s.tick).aud = s.aud := rfl
@[simp] theorem State.tick_ip (s : State) : (s.tick).ip = s.ip := rfl
@[simp] theorem State.tick_mem (s : State) : (s.tick).mem = s.mem := rfl
@[simp] theorem State.tick_bus (s : State) : (s.tick).bus = s.bus := rfl
@[simp] theorem State.tick_ks (s : State) : (s.tick).ks = s.ks := rfl
@[simp] theorem State.tick_nv (s : State) : (s.tick).nv = s.nv := rfl
@[simp] theorem State.tick_ym (s : State) : (s.tick).ym = s.ym := rfl
@[simp] theorem State.tick_mg (s : State) : (s.tick).mg = s.mg := rfl
@[simp] theorem State.tick_pwr (s : State) : (s.tick).pwr = s.pwr := rfl
@[simp] theorem State.tick_readData (s : State) : (s.tick).readData = s.readData := rfl
@[simp] theorem State.tick_out (s : State) : (s.tick).out = s.out := rfl
@[simp] theorem State.tick_pending (s : State) : (s.tick).pending = s.pending := rfl

@[simp] theorem State.puts_eff (s : State) (b : Nat) (l : List (Fld × Nat)) : (s.puts b l).eff = s.eff := by
  induction l generalizing s with
  | nil => rfl
  | cons p l ih => exact ih _
@[simp] theorem State.puts_tags (s : State) (b : Nat) (l : List (Fld × Nat)) : (s.puts b l).tags = s.tags := by
  induction l generalizing s with
  | nil => rfl
  | cons p l ih => exact ih _
@[simp] theorem State.puts_grps (s : State) (b : Nat) (l : List (Fld × Nat)) : (s.puts b l).grps = s.grps := by
  induction l generalizing s with
  | nil => rfl
  | cons p l ih => exact ih _
@[simp] theorem State.puts_irq (s : State) (b : Nat) (l : List (Fld × Nat)) : (s.puts b l).irq = s.irq := by
  induction l generalizing s with
  | nil => rfl
  | cons p l ih => exact ih _
@[simp] theorem State.puts_sdiRx (s : State) (b : Nat) (l : List (Fld × Nat)) : (s.puts b l).sdiRx = s.sdiRx := by
  induction l generalizing s with
  | nil => rfl
  | cons p l ih => exact ih _
@[simp] theorem State.puts_sdiTx (s : State) (b : Nat) (l : List (Fld × Nat)) : (s.puts b l).sdiTx = s.sdiTx := by
  induction l generalizing s with
  | nil => rfl
  | cons p l ih => exact ih _
@[simp] theorem State.puts_tc (s : State) (b : Nat) (l : List (Fld × Nat)) : (s.puts b l).tc = s.tc := by
  induction l generalizing s with
  | nil => rfl
  | cons p l ih => exact ih _
@[simp] theorem State.puts_tds (s : State) (b : Nat) (l : List (Fld × Nat)) : (s.puts b l).tds = s.tds := by
  induction l generalizing s with
  | nil => rfl
  | cons p l ih => exact ih _
@[simp] theorem State.puts_floor (s : State) (b : Nat) (l : List (Fld × Nat)) : (s.puts b l).floor = s.floor := by
  induction l generalizing s with
  | nil => rfl
  | cons p l ih => exact ih _
@[simp] theorem State.puts_silo (s : State) (b : Nat) (l : List (Fld × Nat)) : (s.puts b l).silo = s.silo := by
  induction l generalizing s with
  | nil => rfl
  | cons p l ih => exact ih _
@[simp] theorem State.puts_comps (s : State) (b : Nat) (l : List (Fld × Nat)) : (s.puts b l).comps = s.comps := by
  induction l generalizing s with
  | nil => rfl
  | cons p l ih => exact ih _
@[simp] theorem State.puts_conv (s : State) (b : Nat) (l : List (Fld × Nat)) : (s.puts b l).conv = s.conv := by
  induction l generalizing s with
  | nil => rfl
  | cons p l ih => exact ih _
@[simp] theorem State.puts_aud (s : State) (b : Nat) (l : List (Fld × Nat)) : (s.puts b l).aud = s.aud := by
  induction l generalizing s with
  | nil => rfl
  | cons p l ih => exact ih _
@[simp] theorem State.puts_ip (s : State) (b : Nat) (l : List (Fld × Nat)) : (s.puts b l).ip = s.ip := by
  induction l generalizing s with
  | nil => rfl
  | cons p l ih => exact ih _
@[simp] theorem State.puts_mem (s : State) (b : Nat) (l : List (Fld × Nat)) : (s.puts b l).mem = s.mem := by
  induction l generalizing s with
  | nil => rfl
  | cons p l ih => exact ih _
@[simp] theorem State.puts_bus (s : State) (b : Nat) (l : List (Fld × Nat)) : (s.puts b l).bus = s.bus := by
  induction l generalizing s with
  | nil => rfl
  | cons p l ih => exact ih _
@[simp] theorem State.puts_ks (s : State) (b : Nat) (l : List (Fld × Nat)) : (s.puts b l).ks = s.ks := by
  induction l generalizing s with
  | nil => rfl
  | cons p l ih => exact ih _
@[simp] theorem State.puts_nv (s : State) (b : Nat) (l : List (Fld × Nat)) : (s.puts b l).nv = s.nv := by
  induction l generalizing s with
  | nil => rfl
  | cons p l ih => exact ih _
@[simp] theorem State.puts_ym (s : State) (b : Nat) (l : List (Fld × Nat)) : (s.puts b l).ym = s.ym := by
  induction l generalizing s with
  | nil => rfl
  | cons p l ih => exact ih _
@[simp] theorem State.puts_mg (s : State) (b : Nat) (l : List (Fld × Nat)) : (s.puts b l).mg = s.mg := by
  induction l generalizing s with
  | nil => rfl
  | cons p l ih => exact ih _
@[simp] theorem State.puts_pwr (s : State) (b : Nat) (l : List (Fld × Nat)) : (s.puts b l).pwr = s.pwr := by
  induction l generalizing s with
  | nil => rfl
  | cons p l ih => exact ih _
@[simp] theorem State.puts_readData (s : State) (b : Nat) (l : List (Fld × Nat)) : (s.puts b l).readData = s.readData := by
  induction l generalizing s with
  | nil => rfl
  | cons p l ih => exact ih _
@[simp] theorem State.puts_out (s : State) (b : Nat) (l : List (Fld × Nat)) : (s.puts b l).out = s.out := by
  induction l generalizing s with
  | nil => rfl
  | cons p l ih => exact ih _
@[simp] theorem State.puts_freeCtr (s : State) (b : Nat) (l : List (Fld × Nat)) : (s.puts b l).freeCtr = s.freeCtr := by
  induction l generalizing s with
  | nil => rfl
  | cons p l ih => exact ih _
@[simp] theorem State.puts_pending (s : State) (b : Nat) (l : List (Fld × Nat)) : (s.puts b l).pending = s.pending := by
  induction l generalizing s with
  | nil => rfl
  | cons p l ih => exact ih _

@[simp] theorem State.emit_out (s : State) (m : OutMsg) : (s.emit m).out = s.out ++ [m] := rfl
@[simp] theorem State.answer_readData (s : State) (v : Word) : (s.answer v).readData = v := rfl
@[simp] theorem State.tick_freeCtr (s : State) : s.tick.freeCtr = s.freeCtr + 1 := rfl

/-! The register file. -/

theorem State.rd_of_regs {s t : State} (h : t.regs = s.regs) (a : Nat) : t.rd a = s.rd a := by simp only [State.rd, h]
theorem State.get_of_regs {s t : State} (h : t.regs = s.regs) (b : Nat) (f : Fld) : t.get b f = s.get b f := by
  simp only [State.get, State.rd_of_regs h]
theorem State.is_of_regs {s t : State} (h : t.regs = s.regs) (b : Nat) (f : Fld) : t.is b f = s.is b f := by
  simp only [State.is, State.get_of_regs h]

theorem State.get_of_rd {s t : State} {b : Nat} {f : Fld} (h : t.rd (b + f.off) = s.rd (b + f.off)) : t.get b f = s.get b f := by
  simp only [State.get, h]
theorem State.is_of_rd {s t : State} {b : Nat} {f : Fld} (h : t.rd (b + f.off) = s.rd (b + f.off)) : t.is b f = s.is b f := by
  simp only [State.is, State.get_of_rd h]

@[simp] theorem State.rd_wr_same (s : State) (a : Nat) (v : Word) : (s.wr a v).rd a = v := tget_tset_same ..
theorem State.rd_wr_ne (s : State) {a b : Nat} (v : Word) (h : b ≠ a) : (s.wr a v).rd b = s.rd b := tget_tset_ne _ _ h
theorem State.rd_wr (s : State) (a b : Nat) (v : Word) : (s.wr a v).rd b = if b = a then v else s.rd b := by
  split
  · subst_vars; exact s.rd_wr_same ..
  · exact s.rd_wr_ne v ‹_›
@[simp] theorem State.effRd_effWr_same (s : State) (a : Nat) (v : Word) : (s.effWr a v).effRd a = v := tget_tset_same ..
theorem State.effRd_effWr_ne (s : State) {a b : Nat} (v : Word) (h : b ≠ a) : (s.effWr a v).effRd b = s.effRd b :=
  tget_tset_ne _ _ h
theorem State.rd_put_ne (s : State) {a b : Nat} (f : Fld) (v : Nat) (h : a ≠ b + f.off) : (s.put b f v).rd a = s.rd a :=
  s.rd_wr_ne _ h
theorem State.rd_put_same (s : State) (b : Nat) (f : Fld) (v : Nat) :
    (s.put b f v).rd (b + f.off) = fldSet (s.rd (b + f.off)) f.lo f.width v := s.rd_wr_same ..
theorem State.get_put_same (s : State) (b : Nat) (f : Fld) (v : Nat) (h : f.lo + f.width ≤ 32 := by decide) :
    (s.put b f v).get b f = v % 2 ^ f.width := by
  simp only [State.get, State.rd_put_same, fldGet_fldSet_same _ _ h]
theorem State.get_put_ne (s : State) {b c : Nat} (f g : Fld) (v : Nat) (h : c + g.off ≠ b + f.off) :
    (s.put b f v).get c g = s.get c g := by simp only [State.get, s.rd_put_ne f v h]
theorem State.get_put_apart (s : State) (b : Nat) (f g : Fld) (v : Nat)
    (h : f.lo + f.width ≤ g.lo ∧ g.lo + g.width ≤ 32 ∨ g.lo + g.width ≤ f.lo ∧ f.lo + f.width ≤ 32 := by decide)
    (e : g.off = f.off := by rfl) : (s.put b f v).get b g = s.get b g := by
  simp only [State.get, e, State.rd_put_same]
  exact fldGet_fldSet_ne _ _ h
theorem State.rd_puts_ne (s : State) {a b : Nat} (l : List (Fld × Nat)) (h : ∀ p ∈ l, a ≠ b + p.1.off) :
    (s.puts b l).rd a = s.rd a := by
  induction l generalizing s with
  | nil => rfl
  | cons p l ih =>
    exact (ih _ fun q hq => h q (List.mem_cons_of_mem _ hq)).trans (s.rd_put_ne _ _ (h p List.mem_cons_self))
@[simp] theorem State.puts_nil (s : State) (b : Nat) : s.puts b [] = s := rfl
@[simp] theorem State.puts_cons (s : State) (b : Nat) (f : Fld) (v : Nat) (l : List (Fld × Nat)) :
    s.puts b ((f, v) :: l) = (s.put b f v).puts b l := rfl

/-! Groups and tags. -/

@[simp] theorem State.grp_setGrp_same (s : State) (n : Nat) (g : Grp) : (s.setGrp n g).grp n = g := tget_tset_same ..
theorem State.grp_setGrp_ne (s : State) {n k : Nat} (g : Grp) (h : k ≠ n) : (s.setGrp n g).grp k = s.grp k := tget_tset_ne _ _ h
@[simp] theorem State.tagOf_setTag_same (s : State) (a n : Nat) : (s.setTag a n).tagOf a = n := tget_tset_same ..
theorem State.tagOf_setTag_ne (s : State) {a b n : Nat} (h : b ≠ a) : (s.setTag a n).tagOf b = s.tagOf b := tget_tset_ne _ _ h

end Sys2Proof.Machine
end

