-- ==== Sys2Proof/Laws/Flags.lean ====
section
/-! SUPPORT. What raising an event changes: the sticky bit of its block and the list of events on their way. -/

set_option Elab.async false

namespace Sys2Proof.Machine

/-- Everything that raising an event can do. -/
theorem State.raise_cases (s : State) (b k : Nat) :
    (s.present (dieOf b) = false ∧ s.raise b k = s) ∨
    (s.present (dieOf b) = true ∧ ∃ l, s.raise b k =
      { s.wr (b + 0x10) (s.rd (b + 0x10) ||| BitVec.ofNat 32 (2 ^ k)) with irq := { s.irq with inFlight := s.irq.inFlight ++ l } } ∧
      l = ((gev b k).map fun e => (dieOf b, e)).toList) := by
  unfold State.raise
  cases h : s.present (dieOf b)
  · exact .inl ⟨rfl, rfl⟩
  · refine .inr ⟨rfl, _, ?_, rfl⟩
    cases hg : gev b k with
    | none => simp only [if_true, Option.map_none, Option.toList_none, List.append_nil]; rfl
    | some e => rfl

@[simp] theorem State.raise_eff (s : State) (b k : Nat) : (s.raise b k).eff = s.eff := by
  rcases s.raise_cases b k with ⟨_, h⟩ | ⟨_, _, h, _⟩ <;> rw [h] <;> rfl
@[simp] theorem State.raiseIf_eff (s : State) (c : Bool) (b k : Nat) : (s.raiseIf c b k).eff = s.eff := by
  cases c
  · rfl
  · exact s.raise_eff b k
@[simp] theorem State.live_eff (s : State) (b k : Nat) (c : Bool) : (s.live b k c).eff = s.eff := rfl
@[simp] theorem State.cause_eff (s : State) (b : Nat) (f : Fld) (k : Nat) : (s.cause b f k).eff = s.eff := rfl
@[simp] theorem State.raise_tags (s : State) (b k : Nat) : (s.raise b k).tags = s.tags := by
  rcases s.raise_cases b k with ⟨_, h⟩ | ⟨_, _, h, _⟩ <;> rw [h] <;> rfl
@[simp] theorem State.raiseIf_tags (s : State) (c : Bool) (b k : Nat) : (s.raiseIf c b k).tags = s.tags := by
  cases c
  · rfl
  · exact s.raise_tags b k
@[simp] theorem State.live_tags (s : State) (b k : Nat) (c : Bool) : (s.live b k c).tags = s.tags := rfl
@[simp] theorem State.cause_tags (s : State) (b : Nat) (f : Fld) (k : Nat) : (s.cause b f k).tags = s.tags := rfl
@[simp] theorem State.raise_grps (s : State) (b k : Nat) : (s.raise b k).grps = s.grps := by
  rcases s.raise_cases b k with ⟨_, h⟩ | ⟨_, _, h, _⟩ <;> rw [h] <;> rfl
@[simp] theorem State.raiseIf_grps (s : State) (c : Bool) (b k : Nat) : (s.raiseIf c b k).grps = s.grps := by
  cases c
  · rfl
  · exact s.raise_grps b k
@[simp] theorem State.live_grps (s : State) (b k : Nat) (c : Bool) : (s.live b k c).grps = s.grps := rfl
@[simp] theorem State.cause_grps (s : State) (b : Nat) (f : Fld) (k : Nat) : (s.cause b f k).grps = s.grps := rfl
@[simp] theorem State.raise_sdiRx (s : State) (b k : Nat) : (s.raise b k).sdiRx = s.sdiRx := by
  rcases s.raise_cases b k with ⟨_, h⟩ | ⟨_, _, h, _⟩ <;> rw [h] <;> rfl
@[simp] theorem State.raiseIf_sdiRx (s : State) (c : Bool) (b k : Nat) : (s.raiseIf c b k).sdiRx = s.sdiRx := by
  cases c
  · rfl
  · exact s.raise_sdiRx b k
@[simp] theorem State.live_sdiRx (s : State) (b k : Nat) (c : Bool) : (s.live b k c).sdiRx = s.sdiRx := rfl
@[simp] theorem State.cause_sdiRx (s : State) (b : Nat) (f : Fld) (k : Nat) : (s.cause b f k).sdiRx = s.sdiRx := rfl
@[simp] theorem State.raise_sdiTx (s : State) (b k : Nat) : (s.raise b k).sdiTx = s.sdiTx := by
  rcases s.raise_cases b k with ⟨_, h⟩ | ⟨_, _, h, _⟩ <;> rw [h] <;> rfl
@[simp] theorem State.raiseIf_sdiTx (s : State) (c : Bool) (b k : Nat) : (s.raiseIf c b k).sdiTx = s.sdiTx := by
  cases c
  · rfl
  · exact s.raise_sdiTx b k
@[simp] theorem State.live_sdiTx (s : State) (b k : Nat) (c : Bool) : (s.live b k c).sdiTx = s.sdiTx := rfl
@[simp] theorem State.cause_sdiTx (s : State) (b : Nat) (f : Fld) (k : Nat) : (s.cause b f k).sdiTx = s.sdiTx := rfl
@[simp] theorem State.raise_tc (s : State) (b k : Nat) : (s.raise b k).tc = s.tc := by
  rcases s.raise_cases b k with ⟨_, h⟩ | ⟨_, _, h, _⟩ <;> rw [h] <;> rfl
@[simp] theorem State.raiseIf_tc (s : State) (c : Bool) (b k : Nat) : (s.raiseIf c b k).tc = s.tc := by
  cases c
  · rfl
  · exact s.raise_tc b k
@[simp] theorem State.live_tc (s : State) (b k : Nat) (c : Bool) : (s.live b k c).tc = s.tc := rfl
@[simp] theorem State.cause_tc (s : State) (b : Nat) (f : Fld) (k : Nat) : (s.cause b f k).tc = s.tc := rfl
@[simp] theorem State.raise_tds (s : State) (b k : Nat) : (s.raise b k).tds = s.tds := by
  rcases s.raise_cases b k with ⟨_, h⟩ | ⟨_, _, h, _⟩ <;> rw [h] <;> rfl
@[simp] theorem State.raiseIf_tds (s : State) (c : Bool) (b k : Nat) : (s.raiseIf c b k).tds = s.tds := by
  cases c
  · rfl
  · exact s.raise_tds b k
@[simp] theorem State.live_tds (s : State) (b k : Nat) (c : Bool) : (s.live b k c).tds = s.tds := rfl
@[simp] theorem State.cause_tds (s : State) (b : Nat) (f : Fld) (k : Nat) : (s.cause b f k).tds = s.tds := rfl
@[simp] theorem State.raise_floor (s : State) (b k : Nat) : (s.raise b k).floor = s.floor := by
  rcases s.raise_cases b k with ⟨_, h⟩ | ⟨_, _, h, _⟩ <;> rw [h] <;> rfl
@[simp] theorem State.raiseIf_floor (s : State) (c : Bool) (b k : Nat) : (s.raiseIf c b k).floor = s.floor := by
  cases c
  · rfl
  · exact s.raise_floor b k
@[simp] theorem State.live_floor (s : State) (b k : Nat) (c : Bool) : (s.live b k c).floor = s.floor := rfl
@[simp] theorem State.cause_floor (s : State) (b : Nat) (f : Fld) (k : Nat) : (s.cause b f k).floor = s.floor := rfl
@[simp] theorem State.raise_silo (s : State) (b k : Nat) : (s.raise b k).silo = s.silo := by
  rcases s.raise_cases b k with ⟨_, h⟩ | ⟨_, _, h, _⟩ <;> rw [h] <;> rfl
@[simp] theorem State.raiseIf_silo (s : State) (c : Bool) (b k : Nat) : (s.raiseIf c b k).silo = s.silo := by
  cases c
  · rfl
  · exact s.raise_silo b k
@[simp] theorem State.live_silo (s : State) (b k : Nat) (c : Bool) : (s.live b k c).silo = s.silo := rfl
@[simp] theorem State.cause_silo (s : State) (b : Nat) (f : Fld) (k : Nat) : (s.cause b f k).silo = s.silo := rfl
@[simp] theorem State.raise_comps (s : State) (b k : Nat) : (s.raise b k).comps = s.comps := by
  rcases s.raise_cases b k with ⟨_, h⟩ | ⟨_, _, h, _⟩ <;> rw [h] <;> rfl
@[simp] theorem State.raiseIf_comps (s : State) (c : Bool) (b k : Nat) : (s.raiseIf c b k).comps = s.comps := by
  cases c
  · rfl
  · exact s.raise_comps b k
@[simp] theorem State.live_comps (s : State) (b k : Nat) (c : Bool) : (s.live b k c).comps = s.comps := rfl
@[simp] theorem State.cause_comps (s : State) (b : Nat) (f : Fld) (k : Nat) : (s.cause b f k).comps = s.comps := rfl
@[simp] theorem State.raise_conv (s : State) (b k : Nat) : (s.raise b k).conv = s.conv := by
  rcases s.raise_cases b k with ⟨_, h⟩ | ⟨_, _, h, _⟩ <;> rw [h] <;> rfl
@[simp] theorem State.raiseIf_conv (s : State) (c : Bool) (b k : Nat) : (s.raiseIf c b k).conv = s.conv := by
  cases c
  · rfl
  · exact s.raise_conv b k
@[simp] theorem State.live_conv (s : State) (b k : Nat) (c : Bool) : (s.live b k c).conv = s.conv := rfl
@[simp] theorem State.cause_conv (s : State) (b : Nat) (f : Fld) (k : Nat) : (s.cause b f k).conv = s.conv := rfl
@[simp] theorem State.raise_aud (s : State) (b k : Nat) : (s.raise b k).aud = s.aud := by
  rcases s.raise_cases b k with ⟨_, h⟩ | ⟨_, _, h, _⟩ <;> rw [h] <;> rfl
@[simp] theorem State.raiseIf_aud (s : State) (c : Bool) (b k : Nat) : (s.raiseIf c b k).aud = s.aud := by
  cases c
  · rfl
  · exact s.raise_aud b k
@[simp] theorem State.live_aud (s : State) (b k : Nat) (c : Bool) : (s.live b k c).aud = s.aud := rfl
@[simp] theorem State.cause_aud (s : State) (b : Nat) (f : Fld) (k : Nat) : (s.cause b f k).aud = s.aud := rfl
@[simp] theorem State.raise_ip (s : State) (b k : Nat) : (s.raise b k).ip = s.ip := by
  rcases s.raise_cases b k with ⟨_, h⟩ | ⟨_, _, h, _⟩ <;> rw [h] <;> rfl
@[simp] theorem State.raiseIf_ip (s : State) (c : Bool) (b k : Nat) : (s.raiseIf c b k).ip = s.ip := by
  cases c
  · rfl
  · exact s.raise_ip b k
@[simp] theorem State.live_ip (s : State) (b k : Nat) (c : Bool) : (s.live b k c).ip = s.ip := rfl
@[simp] theorem State.cause_ip (s : State) (b : Nat) (f : Fld) (k : Nat) : (s.cause b f k).ip = s.ip := rfl
@[simp] theorem State.raise_mem (s : State) (b k : Nat) : (s.raise b k).mem = s.mem := by
  rcases s.raise_cases b k with ⟨_, h⟩ | ⟨_, _, h, _⟩ <;> rw [h] <;> rfl
@[simp] theorem State.raiseIf_mem (s : State) (c : Bool) (b k : Nat) : (s.raiseIf c b k).mem = s.mem := by
  cases c
  · rfl
  · exact s.raise_mem b k
@[simp] theorem State.live_mem (s : State) (b k : Nat) (c : Bool) : (s.live b k c).mem = s.mem := rfl
@[simp] theorem State.cause_mem (s : State) (b : Nat) (f : Fld) (k : Nat) : (s.cause b f k).mem = s.mem := rfl
@[simp] theorem State.raise_bus (s : State) (b k : Nat) : (s.raise b k).bus = s.bus := by
  rcases s.raise_cases b k with ⟨_, h⟩ | ⟨_, _, h, _⟩ <;> rw [h] <;> rfl
@[simp] theorem State.raiseIf_bus (s : State) (c : Bool) (b k : Nat) : (s.raiseIf c b k).bus = s.bus := by
  cases c
  · rfl
  · exact s.raise_bus b k
@[simp] theorem State.live_bus (s : State) (b k : Nat) (c : Bool) : (s.live b k c).bus = s.bus := rfl
@[simp] theorem State.cause_bus (s : State) (b : Nat) (f : Fld) (k : Nat) : (s.cause b f k).bus = s.bus := rfl
@[simp] theorem State.raise_ks (s : State) (b k : Nat) : (s.raise b k).ks = s.ks := by
  rcases s.raise_cases b k with ⟨_, h⟩ | ⟨_, _, h, _⟩ <;> rw [h] <;> rfl
@[simp] theorem State.raiseIf_ks (s : State) (c : Bool) (b k : Nat) : (s.raiseIf c b k).ks = s.ks := by
  cases c
  · rfl
  · exact s.raise_ks b k
@[simp] theorem State.live_ks (s : State) (b k : Nat) (c : Bool) : (s.live b k c).ks = s.ks := rfl
@[simp] theorem State.cause_ks (s : State) (b : Nat) (f : Fld) (k : Nat) : (s.cause b f k).ks = s.ks := rfl
@[simp] theorem State.raise_nv (s : State) (b k : Nat) : (s.raise b k).nv = s.nv := by
  rcases s.raise_cases b k with ⟨_, h⟩ | ⟨_, _, h, _⟩ <;> rw [h] <;> rfl
@[simp] theorem State.raiseIf_nv (s : State) (c : Bool) (b k : Nat) : (s.raiseIf c b k).nv = s.nv := by
  cases c
  · rfl
  · exact s.raise_nv b k
@[simp] theorem State.live_nv (s : State) (b k : Nat) (c : Bool) : (s.live b k c).nv = s.nv := rfl
@[simp] theorem State.cause_nv (s : State) (b : Nat) (f : Fld) (k : Nat) : (s.cause b f k).nv = s.nv := rfl
@[simp] theorem State.raise_ym (s : State) (b k : Nat) : (s.raise b k).ym = s.ym := by
  rcases s.raise_cases b k with ⟨_, h⟩ | ⟨_, _, h, _⟩ <;> rw [h] <;> rfl
@[simp] theorem State.raiseIf_ym (s : State) (c : Bool) (b k : Nat) : (s.raiseIf c b k).ym = s.ym := by
  cases c
  · rfl
  · exact s.raise_ym b k
@[simp] theorem State.live_ym (s : State) (b k : Nat) (c : Bool) : (s.live b k c).ym = s.ym := rfl
@[simp] theorem State.cause_ym (s : State) (b : Nat) (f : Fld) (k : Nat) : (s.cause b f k).ym = s.ym := rfl
@[simp] theorem State.raise_mg (s : State) (b k : Nat) : (s.raise b k).mg = s.mg := by
  rcases s.raise_cases b k with ⟨_, h⟩ | ⟨_, _, h, _⟩ <;> rw [h] <;> rfl
@[simp] theorem State.raiseIf_mg (s : State) (c : Bool) (b k : Nat) : (s.raiseIf c b k).mg = s.mg := by
  cases c
  · rfl
  · exact s.raise_mg b k
@[simp] theorem State.live_mg (s : State) (b k : Nat) (c : Bool) : (s.live b k c).mg = s.mg := rfl
@[simp] theorem State.cause_mg (s : State) (b : Nat) (f : Fld) (k : Nat) : (s.cause b f k).mg = s.mg := rfl
@[simp] theorem State.raise_pwr (s : State) (b k : Nat) : (s.raise b k).pwr = s.pwr := by
  rcases s.raise_cases b k with ⟨_, h⟩ | ⟨_, _, h, _⟩ <;> rw [h] <;> rfl
@[simp] theorem State.raiseIf_pwr (s : State) (c : Bool) (b k : Nat) : (s.raiseIf c b k).pwr = s.pwr := by
  cases c
  · rfl
  · exact s.raise_pwr b k
@[simp] theorem State.live_pwr (s : State) (b k : Nat) (c : Bool) : (s.live b k c).pwr = s.pwr := rfl
@[simp] theorem State.cause_pwr (s : State) (b : Nat) (f : Fld) (k : Nat) : (s.cause b f k).pwr = s.pwr := rfl
@[simp] theorem State.raise_readData (s : State) (b k : Nat) : (s.raise b k).readData = s.readData := by
  rcases s.raise_cases b k with ⟨_, h⟩ | ⟨_, _, h, _⟩ <;> rw [h] <;> rfl
@[simp] theorem State.raiseIf_readData (s : State) (c : Bool) (b k : Nat) : (s.raiseIf c b k).readData = s.readData := by
  cases c
  · rfl
  · exact s.raise_readData b k
@[simp] theorem State.live_readData (s : State) (b k : Nat) (c : Bool) : (s.live b k c).readData = s.readData := rfl
@[simp] theorem State.cause_readData (s : State) (b : Nat) (f : Fld) (k : Nat) : (s.cause b f k).readData = s.readData := rfl
@[simp] theorem State.raise_out (s : State) (b k : Nat) : (s.raise b k).out = s.out := by
  rcases s.raise_cases b k with ⟨_, h⟩ | ⟨_, _, h, _⟩ <;> rw [h] <;> rfl
@[simp] theorem State.raiseIf_out (s : State) (c : Bool) (b k : Nat) : (s.raiseIf c b k).out = s.out := by
  cases c
  · rfl
  · exact s.raise_out b k
@[simp] theorem State.live_out (s : State) (b k : Nat) (c : Bool) : (s.live b k c).out = s.out := rfl
@[simp] theorem State.cause_out (s : State) (b : Nat) (f : Fld) (k : Nat) : (s.cause b f k).out = s.out := rfl
@[simp] theorem State.raise_freeCtr (s : State) (b k : Nat) : (s.raise b k).freeCtr = s.freeCtr := by
  rcases s.raise_cases b k with ⟨_, h⟩ | ⟨_, _, h, _⟩ <;> rw [h] <;> rfl
@[simp] theorem State.raiseIf_freeCtr (s : State) (c : Bool) (b k : Nat) : (s.raiseIf c b k).freeCtr = s.freeCtr := by
  cases c
  · rfl
  · exact s.raise_freeCtr b k
@[simp] theorem State.live_freeCtr (s : State) (b k : Nat) (c : Bool) : (s.live b k c).freeCtr = s.freeCtr := rfl
@[simp] theorem State.cause_freeCtr (s : State) (b : Nat) (f : Fld) (k : Nat) : (s.cause b f k).freeCtr = s.freeCtr := rfl
@[simp] theorem State.raise_pending (s : State) (b k : Nat) : (s.raise b k).pending = s.pending := by
  rcases s.raise_cases b k with ⟨_, h⟩ | ⟨_, _, h, _⟩ <;> rw [h] <;> rfl
@[simp] theorem State.raiseIf_pending (s : State) (c : Bool) (b k : Nat) : (s.raiseIf c b k).pending = s.pending := by
  cases c
  · rfl
  · exact s.raise_pending b k
@[simp] theorem State.live_pending (s : State) (b k : Nat) (c : Bool) : (s.live b k c).pending = s.pending := rfl
@[simp] theorem State.cause_pending (s : State) (b : Nat) (f : Fld) (k : Nat) : (s.cause b f k).pending = s.pending := rfl

theorem State.rd_raise_ne (s : State) {a b : Nat} (k : Nat) (h : a ≠ b + 0x10) : (s.raise b k).rd a = s.rd a := by
  rcases s.raise_cases b k with ⟨_, e⟩ | ⟨_, _, e, _⟩
  · rw [e]
  · rw [e]; exact s.rd_wr_ne _ h
theorem State.rd_raiseIf_ne (s : State) {a b : Nat} (c : Bool) (k : Nat) (h : a ≠ b + 0x10) : (s.raiseIf c b k).rd a = s.rd a := by
  cases c
  · rfl
  · exact s.rd_raise_ne k h
theorem State.get_raise_ne (s : State) {b c : Nat} (f : Fld) (k : Nat) (h : c + f.off ≠ b + 0x10) : (s.raise b k).get c f = s.get c f := by
  simp only [State.get, s.rd_raise_ne k h]
theorem State.get_raiseIf_ne (s : State) {b c : Nat} (f : Fld) (d : Bool) (k : Nat) (h : c + f.off ≠ b + 0x10) :
    (s.raiseIf d b k).get c f = s.get c f := by simp only [State.get, s.rd_raiseIf_ne d k h]

/-- A raised event of a die that answers is sticky. -/
theorem State.rd_raise_same (s : State) (b k : Nat) (h : s.present (dieOf b) = true) :
    (s.raise b k).rd (b + 0x10) = s.rd (b + 0x10) ||| BitVec.ofNat 32 (2 ^ k) := by
  rcases s.raise_cases b k with ⟨e, _⟩ | ⟨_, _, e, _⟩
  · rw [h] at e; cases e
  · rw [e]; exact s.rd_wr_same ..

/-- A raised event of a die that answers is on its way to the controller. -/
theorem State.inFlight_raise (s : State) (b k e : Nat) (h : s.present (dieOf b) = true) (g : gev b k = some e) :
    (s.raise b k).irq.inFlight = s.irq.inFlight ++ [(dieOf b, e)] := by
  rcases s.raise_cases b k with ⟨e, _⟩ | ⟨_, _, e, hl⟩
  · rw [h] at e; cases e
  · rw [e, hl, g]; rfl

theorem State.rd_setEvg_ne (s : State) {a ev : Nat} (b : Bool) (h : a ≠ evcB + 4 * (ev / 32) + 0x40) : (s.setEvg ev b).rd a = s.rd a :=
  s.rd_put_ne _ _ h
theorem State.rd_setPba_ne (s : State) {a v : Nat} (b : Bool) (h : a ≠ gPage 0x012 + 4 * (v / 32)) : (s.setPba v b).rd a = s.rd a :=
  s.rd_put_ne _ _ h

/-- The registers that a request for a vector's message may change: its PCIe pending bit and EV_STICKY of the controller. -/
theorem State.rd_msixRequest (s : State) {a v : Nat} (h : a ≠ gPage 0x012 + 4 * (v / 32)) (g : a ≠ evcB + 0x10) :
    (s.msixRequest v).rd a = s.rd a := by
  unfold State.msixRequest
  split
  · rw [State.rd_raise_ne _ _ g, State.rd_setPba_ne _ _ h]
  · split
    · rfl
    · unfold State.msixSend
      exact (State.rd_of_regs rfl a).trans (State.rd_setPba_ne _ _ h)

theorem State.rd_forAll {s : State} {l : List Nat} {f : Nat → State → State} {a : Nat}
    (h : ∀ i ∈ l, ∀ u : State, (f i u).rd a = u.rd a) : (s.forAll l f).rd a = s.rd a := by
  unfold State.forAll
  induction l generalizing s with
  | nil => rfl
  | cons i l ih =>
    exact (ih fun j hj => h j (List.mem_cons_of_mem _ hj)).trans (h i List.mem_cons_self s)

/-- The registers that bringing the vectors up to date may change. -/
theorem State.rd_refreshVecs (s : State) {a : Nat}
    (h : a ∉ [evcB + F.VEC_PEND_LO_BITS.off, evcB + F.VEC_PEND_HI_BITS.off, evcB + F.PIN_STAT_LEVEL.off, evcB + 0x10, 0x12000, 0x12004]) :
    s.refreshVecs.rd a = s.rd a := by
  simp only [List.mem_cons, List.not_mem_nil, or_false, not_or] at h
  obtain ⟨h1, h2, h3, h4, h5, h6⟩ := h
  unfold State.refreshVecs
  dsimp only
  rw [State.rd_forAll, State.rd_put_ne _ _ _ h3, State.rd_put_ne _ _ _ h2, State.rd_put_ne _ _ _ h1]
  intro v hv u
  have p : a ≠ gPage 0x012 + 4 * (v / 32) := by
    have := List.mem_range.1 hv
    simp only [gPage]
    omega
  split
  · exact State.rd_msixRequest _ p h4
  · split
    · exact (State.rd_of_regs rfl a).trans (State.rd_setPba_ne _ _ p)
    · rfl

/-- Whether a die answers stands in one register and the power state. -/
theorem State.present_congr {s t : State} (h : t.rd 0x44 = s.rd 0x44) (g : t.pwr = s.pwr) (d : Nat) : t.present d = s.present d := by
  simp only [State.present, State.populated, State.get, Nat.zero_add, h, g]

end Sys2Proof.Machine
end

