-- ==== Sys2Proof/Laws/Effects.lean ====
section
/-! SUPPORT. How the effects that the statements speak of, registers left alone and events raised, go through the named operations. -/

set_option Elab.async false

namespace Sys2Proof

open Sys2Proof.Machine

theorem OnlyRegs.refl (l : List Nat) (s : State) : OnlyRegs l s s := fun _ _ => rfl

theorem OnlyRegs.of_regs {l : List Nat} {s t u : State} (e : OnlyRegs l s u) (h : t.regs = u.regs) : OnlyRegs l s t :=
  fun a ha => (State.rd_of_regs h a).trans (e a ha)

theorem OnlyRegs.wr {l : List Nat} {s u : State} {a : Nat} {v : Word} (e : OnlyRegs l s u) (h : a ∈ l) : OnlyRegs l s (u.wr a v) :=
  fun b hb => (u.rd_wr_ne v fun c => hb (by rw [c]; exact h)).trans (e b hb)

theorem OnlyRegs.put {l : List Nat} {s u : State} {b : Nat} {f : Fld} {v : Nat} (e : OnlyRegs l s u) (h : b + f.off ∈ l) :
    OnlyRegs l s (u.put b f v) := e.wr h

theorem OnlyRegs.puts {l : List Nat} {s u : State} {b : Nat} {fs : List (Fld × Nat)} (e : OnlyRegs l s u)
    (h : ∀ p ∈ fs, b + p.1.off ∈ l) : OnlyRegs l s (u.puts b fs) := by
  induction fs generalizing u with
  | nil => exact e
  | cons p fs ih => exact ih (e.put (h p List.mem_cons_self)) fun q hq => h q (List.mem_cons_of_mem _ hq)

theorem OnlyRegs.raise {l : List Nat} {s u : State} {b k : Nat} (e : OnlyRegs l s u) (h : b + 0x10 ∈ l) : OnlyRegs l s (u.raise b k) :=
  fun a ha => (u.rd_raise_ne k fun c => ha (by rw [c]; exact h)).trans (e a ha)

theorem OnlyRegs.raiseIf {l : List Nat} {s u : State} {c : Bool} {b k : Nat} (e : OnlyRegs l s u) (h : b + 0x10 ∈ l) :
    OnlyRegs l s (u.raiseIf c b k) := by
  cases c
  · exact e
  · exact e.raise h

/-- An event raised last, after a change that leaves the block's sticky bits, the events on their way and the dies that answer alone. -/
theorem Raised.of {s u : State} {b k : Nat} (h : u.present (dieOf b) = true) (r : u.rd (b + 0x10) = s.rd (b + 0x10)) (q : u.irq = s.irq) :
    Raised s (u.raise b k) b k := by
  rcases u.raise_cases b k with ⟨e, _⟩ | ⟨_, l, e, hl⟩
  · rw [h] at e; cases e
  · rw [e, hl]
    exact ⟨(u.rd_wr_same ..).trans (by rw [r]), by rw [← q]⟩

theorem Raised.raise {s : State} {b k : Nat} (h : s.present (dieOf b) = true) : Raised s (s.raise b k) b k := Raised.of h rfl rfl

/-- A change of other parts keeps a raised event. -/
theorem Raised.keep {s t u : State} {b k : Nat} (e : Raised s u b k) (r : t.rd (b + 0x10) = u.rd (b + 0x10))
    (q : t.irq.inFlight = u.irq.inFlight) : Raised s t b k := ⟨r.trans e.1, q.trans e.2⟩

end Sys2Proof
end

