-- ==== Sys2Proof/Laws/MemoryForm.lean ====
section
/-! SUPPORT. Every memory operation and every command keeps the canonical form of the memory contents. -/

set_option Elab.async false

namespace Sys2Proof.Machine

/-! The canonical form of a table. -/

theorem sortedKeys_iff {α : Type} (t : List (Nat × α)) : sortedKeys t = true ↔ t.Pairwise fun p q => p.1 < q.1 := by
  induction t with
  | nil => simp [sortedKeys]
  | cons p t ih =>
    cases t with
    | nil => simp [sortedKeys]
    | cons q t =>
      rw [sortedKeys, Bool.and_eq_true, ih, decide_eq_true_eq]
      constructor
      · rintro ⟨h, g⟩
        refine List.pairwise_cons.2 ⟨fun x hx => ?_, g⟩
        rcases List.mem_cons.1 hx with rfl | hx
        · exact h
        · exact h.trans ((List.pairwise_cons.1 g).1 x hx)
      · intro w
        obtain ⟨h, g⟩ := List.pairwise_cons.1 w
        exact ⟨h q List.mem_cons_self, g⟩

theorem mem_tins {α : Type} {k : Nat} {v : α} {t : List (Nat × α)} {x : Nat × α} (h : x ∈ tins k v t) : x = (k, v) ∨ x ∈ t := by
  induction t with
  | nil => exact .inl (by simpa [tins] using h)
  | cons p t ih =>
    rw [tins] at h
    split at h
    · exact (List.mem_cons.1 h)
    · rcases List.mem_cons.1 h with rfl | h
      · exact .inr List.mem_cons_self
      · exact (ih h).imp_right (List.mem_cons_of_mem _)

theorem tins_sorted {α : Type} {k : Nat} (v : α) {t : List (Nat × α)} (h : t.Pairwise fun p q => p.1 < q.1) (hk : ∀ p ∈ t, p.1 ≠ k) :
    (tins k v t).Pairwise fun p q => p.1 < q.1 := by
  induction t with
  | nil => simp [tins]
  | cons p t ih =>
    obtain ⟨h1, h2⟩ := List.pairwise_cons.1 h
    rw [tins]
    split
    · rename_i hlt
      refine List.pairwise_cons.2 ⟨fun x hx => ?_, h⟩
      rcases List.mem_cons.1 hx with rfl | hx
      · exact hlt
      · exact Nat.lt_trans hlt (h1 x hx)
    · rename_i hlt
      refine List.pairwise_cons.2 ⟨fun x hx => ?_, ih h2 fun q hq => hk q (List.mem_cons_of_mem _ hq)⟩
      rcases mem_tins hx with rfl | hx
      · have := hk p List.mem_cons_self
        dsimp only
        omega
      · exact h1 x hx

/-- Setting one key keeps the form. -/
theorem canonical_tset {α : Type} [DecidableEq α] {d : Nat → α} {t : List (Nat × α)} (k : Nat) (v : α) (h : canonical d t = true) :
    canonical d (tset (d k) t k v) = true := by
  unfold canonical at *
  rw [Bool.and_eq_true, sortedKeys_iff, List.all_eq_true] at *
  obtain ⟨h1, h2⟩ := h
  have f1 : (t.filter fun p => p.1 != k).Pairwise fun p q => p.1 < q.1 := h1.filter _
  have f2 : ∀ p ∈ t.filter (fun p => p.1 != k), p.1 ≠ k := fun p hp => by simpa using (List.mem_filter.1 hp).2
  unfold tset
  split
  · exact ⟨f1, fun x hx => h2 x (List.mem_filter.1 hx).1⟩
  · rename_i hv
    refine ⟨tins_sorted v f1 f2, fun x hx => ?_⟩
    rcases mem_tins hx with rfl | hx
    · simpa using hv
    · exact h2 x (List.mem_filter.1 hx).1

/-- The form of stored bytes. -/
abbrev cellsOk (m : List Host.Cell) : Prop := canonical memDefault m = true

theorem cellSet_ok {m : List Host.Cell} (k : Nat) (v : Byte) (h : cellsOk m) : cellsOk (cellSet m k v) := canonical_tset k v h
theorem cellsSet_ok {m : List Host.Cell} (k : Nat) (l : List Byte) (h : cellsOk m) : cellsOk (cellsSet m k l) := by
  induction l generalizing m k with
  | nil => exact h
  | cons v l ih => exact ih _ (cellSet_ok _ _ h)
theorem wordSet_ok {m : List Host.Cell} (c w d k : Nat) (h : cellsOk m) : cellsOk (wordSet m c w d k) := cellsSet_ok _ _ h
theorem foldl_ok {α : Type} {l : List α} {f : List Host.Cell → α → List Host.Cell} {m : List Host.Cell} (h : cellsOk m)
    (hf : ∀ x a, cellsOk x → cellsOk (f x a)) : cellsOk (l.foldl f m) := by
  induction l generalizing m with
  | nil => exact h
  | cons a l ih => exact ih (hf m a h)
theorem ite_ok {c : Prop} [Decidable c] {x y : List Host.Cell} (h : cellsOk x) (g : cellsOk y) : cellsOk (if c then x else y) := by
  split
  · exact h
  · exact g
theorem burstWrite_ok {m : List Host.Cell} (c t : Nat) (l : List Nat) (h : cellsOk m) : cellsOk (burstWrite m c t l) := by
  unfold burstWrite
  exact foldl_ok h fun x a hx => wordSet_ok _ _ _ _ hx

/-! Operations. -/

theorem mk_of {s t : State} (e : erase 67076095 t = erase 67076095 s) (h : memOk s = true) : memOk t = true := by
  unfold memOk at *
  rw [erase_mem e]; exact h
theorem mk_by {s t : State} (e : erase 67076095 s = erase 67076095 s → erase 67076095 t = erase 67076095 s) (h : memOk s = true) :
    memOk t = true := mk_of (e rfl) h
theorem ite_mk {c : Prop} [Decidable c] {A B : State} (h : memOk A = true) (g : memOk B = true) : memOk (if c then A else B) = true := by
  split
  · exact h
  · exact g
theorem ite_fst_mk {β : Type} {c : Prop} [Decidable c] {A B : State × β} (h : memOk A.1 = true) (g : memOk B.1 = true) :
    memOk (if c then A else B).1 = true := by
  split
  · exact h
  · exact g
theorem foldl_mk {α : Type} {l : List α} {f : State → α → State} {s : State} (h : memOk s = true)
    (hf : ∀ u a, memOk u = true → memOk (f u a) = true) : memOk (l.foldl f s) = true := by
  induction l generalizing s with
  | nil => exact h
  | cons a l ih => exact ih (hf s a h)
theorem foldl_fst_mk {α β : Type} {l : List α} {f : State × β → α → State × β} {s : State × β} (h : memOk s.1 = true)
    (hf : ∀ u a, memOk u.1 = true → memOk (f u a).1 = true) : memOk (l.foldl f s).1 = true := by
  induction l generalizing s with
  | nil => exact h
  | cons a l ih => exact ih (hf s a h)
theorem forAll_mk {l : List Nat} {f : Nat → State → State} {s : State} (h : memOk s = true)
    (hf : ∀ i u, memOk u = true → memOk (f i u) = true) : memOk (s.forAll l f) = true := foldl_mk h fun u i => hf i u
theorem whenB_mk {b : Bool} {f : State → State} {s : State} (h : memOk s = true) (hf : ∀ u, memOk u = true → memOk (f u) = true) :
    memOk (s.whenB b f) = true := by
  cases b
  · exact h
  · exact hf s h
theorem mk_fst {β : Type} {p : State × β} {s : State} {b : β} (e : p = (s, b)) (h : memOk p.1 = true) : memOk s = true := by
  rw [e] at h; exact h
theorem next_mk {E t : State} (e : (Host.Outcome.next E : Host.Outcome State Fault Refusal) = .next t) (h : memOk E = true) :
    memOk t = true := by
  injection e with e; exact e ▸ h
theorem State.hostWrite_mk {s t : State} {d : Nat} (h : memOk s = true) (g : memOk t = true) : memOk (s.hostWrite d t) = true := by
  unfold State.hostWrite
  split
  · refine mk_of (State.raise_er rfl) ?_
    split
    · exact h
    · exact mk_of (State.absentAccess_er rfl) h
  · split
    · exact g
    · exact mk_of (State.absentAccess_er rfl) h
theorem State.modMem_mk {u : State} {f : Mem → Mem} (h : memOk u = true) (hf : ∀ x : Mem, cellsOk x.cells → cellsOk (f x).cells) :
    memOk (u.modMem f) = true := hf u.mem h

theorem State.stripeStore_mk {u : State} {stripe : Nat} {bursts : List (List Nat)} (h : memOk u = true) :
    memOk (State.stripeStore u stripe bursts) = true := by
  unfold State.stripeStore
  refine State.modMem_mk h fun x hx => foldl_ok hx fun m p hm => ite_ok (burstWrite_ok _ _ _ hm) hm

theorem State.markFailed_mk {u : State} {c : Nat} {reason : Nat} (h : memOk u = true) : memOk (State.markFailed u c reason) = true := by
  unfold State.markFailed
  repeat' first
    | with_reducible assumption
    | with_reducible refine mk_by (fun e => State.put_er e) ?_
    | with_reducible refine mk_by (fun e => State.sumsRefresh_er e) ?_
    | with_reducible refine mk_by (fun e => State.puts_er e) ?_
    | with_reducible refine mk_by (fun e => State.raise_er e) ?_
    | with_reducible refine mk_by (fun e => State.live_er e) ?_
    | with_reducible refine State.modMem_mk ?_ ?_
    | exact fun _ hx => hx
    | exact fun _ hx => foldl_ok hx fun _ _ hm => wordSet_ok _ _ _ _ hm
    | exact fun _ hx => burstWrite_ok _ _ _ hx
    | exact fun _ hx => wordSet_ok _ _ _ _ hx
    | exact fun _ hx => ite_ok (foldl_ok hx fun _ _ hm => cellSet_ok _ _ hm) hx
    | exact fun _ _ => rfl
    | with_reducible refine ite_mk ?_ ?_
    | with_reducible refine mk_fst (by assumption) ?_
    | dsimp only
    | split

theorem State.poisonAdd_mk {u : State} {stripe : Nat} (h : memOk u = true) : memOk (State.poisonAdd u stripe) = true := by
  unfold State.poisonAdd
  repeat' first
    | with_reducible assumption
    | with_reducible refine State.modMem_mk ?_ ?_
    | exact fun _ hx => hx
    | exact fun _ hx => foldl_ok hx fun _ _ hm => wordSet_ok _ _ _ _ hm
    | exact fun _ hx => burstWrite_ok _ _ _ hx
    | exact fun _ hx => wordSet_ok _ _ _ _ hx
    | exact fun _ hx => ite_ok (foldl_ok hx fun _ _ hm => cellSet_ok _ _ hm) hx
    | exact fun _ _ => rfl
    | with_reducible refine mk_by (fun e => State.raise_er e) ?_
    | with_reducible refine mk_by (fun e => State.puts_er e) ?_
    | with_reducible refine mk_by (fun e => State.poisonRefresh_er e) ?_
    | with_reducible refine ite_mk ?_ ?_
    | with_reducible refine mk_fst (by assumption) ?_
    | dsimp only
    | split

theorem State.poisonDrop_mk {u : State} {stripe : Nat} (h : memOk u = true) : memOk (State.poisonDrop u stripe) = true := by
  unfold State.poisonDrop
  repeat' first
    | with_reducible assumption
    | with_reducible refine State.modMem_mk ?_ ?_
    | exact fun _ hx => hx
    | exact fun _ hx => foldl_ok hx fun _ _ hm => wordSet_ok _ _ _ _ hm
    | exact fun _ hx => burstWrite_ok _ _ _ hx
    | exact fun _ hx => wordSet_ok _ _ _ _ hx
    | exact fun _ hx => ite_ok (foldl_ok hx fun _ _ hm => cellSet_ok _ _ hm) hx
    | exact fun _ _ => rfl
    | with_reducible refine mk_by (fun e => State.poisonRefresh_er e) ?_
    | with_reducible refine ite_mk ?_ ?_
    | with_reducible refine mk_fst (by assumption) ?_
    | dsimp only
    | split

theorem State.applyHits_mk {u : State} {stripe : Nat} {hits : List MemHit} (h : memOk u = true) : memOk (State.applyHits u stripe hits) = true := by
  unfold State.applyHits
  repeat' first
    | with_reducible assumption
    | with_reducible refine State.modMem_mk ?_ ?_
    | exact fun _ hx => hx
    | exact fun _ hx => foldl_ok hx fun _ _ hm => wordSet_ok _ _ _ _ hm
    | exact fun _ hx => burstWrite_ok _ _ _ hx
    | exact fun _ hx => wordSet_ok _ _ _ _ hx
    | exact fun _ hx => ite_ok (foldl_ok hx fun _ _ hm => cellSet_ok _ _ hm) hx
    | exact fun _ _ => rfl
    | with_reducible refine foldl_mk ?_ fun _ _ _ => ?_
    | with_reducible refine foldl_fst_mk ?_ fun _ _ _ => ?_

theorem State.countWord_mk {u : State} {c : Nat} {w : Nat} {syn : Nat} {p : Bool} {o : Light} (h : memOk u = true) : memOk (State.countWord u c w syn p o) = true := by
  unfold State.countWord
  repeat' first
    | with_reducible assumption
    | with_reducible refine mk_by (fun e => State.bump_er e) ?_
    | with_reducible refine mk_by (fun e => State.puts_er e) ?_
    | with_reducible refine mk_by (fun e => State.raise_er e) ?_
    | with_reducible refine State.modMem_mk ?_ ?_
    | exact fun _ hx => hx
    | exact fun _ hx => foldl_ok hx fun _ _ hm => wordSet_ok _ _ _ _ hm
    | exact fun _ hx => burstWrite_ok _ _ _ hx
    | exact fun _ hx => wordSet_ok _ _ _ _ hx
    | exact fun _ hx => ite_ok (foldl_ok hx fun _ _ hm => cellSet_ok _ _ hm) hx
    | exact fun _ _ => rfl
    | with_reducible refine State.markFailed_mk ?_
    | with_reducible refine mk_by (fun e => State.setFault_er e) ?_
    | with_reducible refine ite_mk ?_ ?_
    | with_reducible refine mk_fst (by assumption) ?_
    | dsimp only
    | split

theorem State.burstRead_mk {u : State} {stripe : Nat} {p : Nat} (h : memOk u = true) : memOk (State.burstRead u stripe p).1 = true := by
  unfold State.burstRead
  repeat' first
    | with_reducible assumption
    | with_reducible refine State.countWord_mk ?_
    | with_reducible refine State.modMem_mk ?_ ?_
    | exact fun _ hx => hx
    | exact fun _ hx => foldl_ok hx fun _ _ hm => wordSet_ok _ _ _ _ hm
    | exact fun _ hx => burstWrite_ok _ _ _ hx
    | exact fun _ hx => wordSet_ok _ _ _ _ hx
    | exact fun _ hx => ite_ok (foldl_ok hx fun _ _ hm => cellSet_ok _ _ hm) hx
    | exact fun _ _ => rfl
    | with_reducible refine ite_mk ?_ ?_
    | with_reducible refine foldl_mk ?_ fun _ _ _ => ?_
    | with_reducible refine foldl_fst_mk ?_ fun _ _ _ => ?_
    | with_reducible refine ite_fst_mk ?_ ?_
    | with_reducible refine mk_fst (by assumption) ?_
    | dsimp only
    | split

theorem State.burstsRead_mk {u : State} {stripe : Nat} {x0 : List Nat} (h : memOk u = true) : memOk (State.burstsRead u stripe x0).1 = true := by
  induction x0 generalizing u stripe with
  | nil =>
    unfold State.burstsRead
    repeat' first
      | with_reducible assumption
      | with_reducible refine State.burstRead_mk ?_
      | with_reducible refine ite_mk ?_ ?_
      | with_reducible refine ite_fst_mk ?_ ?_
      | with_reducible refine mk_fst (by assumption) ?_
      | dsimp only
      | split
  | cons _ _ ih =>
    unfold State.burstsRead
    repeat' first
      | with_reducible assumption
      | with_reducible refine State.burstRead_mk ?_
      | with_reducible refine ite_mk ?_ ?_
      | with_reducible refine ite_fst_mk ?_ ?_
      | with_reducible refine mk_fst (by assumption) ?_
      | dsimp only
      | split
      | with_reducible refine ih ?_

theorem State.stripeRead_mk {u : State} {stripe : Nat} (h : memOk u = true) : memOk (State.stripeRead u stripe).1 = true := by
  unfold State.stripeRead
  repeat' first
    | with_reducible assumption
    | with_reducible refine State.burstsRead_mk ?_
    | with_reducible refine mk_fst (by assumption) ?_
    | dsimp only
    | split

theorem State.stripeData_mk {u : State} {stripe : Nat} {first : Nat} {count : Nat} (h : memOk u = true) : memOk (State.stripeData u stripe first count).1 = true := by
  unfold State.stripeData
  repeat' first
    | with_reducible assumption
    | with_reducible refine State.stripeRead_mk ?_
    | with_reducible refine State.poisonAdd_mk ?_
    | with_reducible refine State.burstsRead_mk ?_
    | with_reducible refine ite_mk ?_ ?_
    | with_reducible refine ite_fst_mk ?_ ?_
    | with_reducible refine mk_fst (by assumption) ?_
    | dsimp only
    | split

theorem State.stripeMerge_mk {u : State} {stripe : Nat} {merge : List Byte → List Byte} (h : memOk u = true) : memOk (State.stripeMerge u stripe merge) = true := by
  unfold State.stripeMerge
  repeat' first
    | with_reducible assumption
    | with_reducible refine State.stripeStore_mk ?_
    | with_reducible refine State.stripeRead_mk ?_
    | with_reducible refine State.poisonAdd_mk ?_
    | with_reducible refine ite_mk ?_ ?_
    | with_reducible refine mk_fst (by assumption) ?_
    | dsimp only
    | split

theorem State.stripeWrite_mk {u : State} {stripe : Nat} {off : Nat} {data : List Byte} (h : memOk u = true) : memOk (State.stripeWrite u stripe off data) = true := by
  unfold State.stripeWrite
  repeat' first
    | with_reducible assumption
    | with_reducible refine State.stripeStore_mk ?_
    | with_reducible refine State.poisonDrop_mk ?_
    | with_reducible refine State.stripeMerge_mk ?_
    | with_reducible refine ite_mk ?_ ?_
    | with_reducible refine mk_fst (by assumption) ?_
    | dsimp only
    | split

theorem State.winnowVisit_mk {u : State} {stripe : Nat} {rebuilding : Bool} (h : memOk u = true) : memOk (State.winnowVisit u stripe rebuilding) = true := by
  unfold State.winnowVisit
  repeat' first
    | with_reducible assumption
    | with_reducible refine State.stripeRead_mk ?_
    | with_reducible refine State.poisonAdd_mk ?_
    | with_reducible refine State.stripeStore_mk ?_
    | with_reducible refine mk_by (fun e => State.bump_er e) ?_
    | with_reducible refine State.modMem_mk ?_ ?_
    | exact fun _ hx => hx
    | exact fun _ hx => foldl_ok hx fun _ _ hm => wordSet_ok _ _ _ _ hm
    | exact fun _ hx => burstWrite_ok _ _ _ hx
    | exact fun _ hx => wordSet_ok _ _ _ _ hx
    | exact fun _ hx => ite_ok (foldl_ok hx fun _ _ hm => cellSet_ok _ _ hm) hx
    | exact fun _ _ => rfl
    | with_reducible refine ite_mk ?_ ?_
    | with_reducible refine mk_fst (by assumption) ?_
    | dsimp only
    | split

theorem State.memTrained_mk {u : State} {c : Nat} {rdEye : Nat} {wrEye : Nat} {vref : Nat} (h : memOk u = true) : memOk (State.memTrained u c rdEye wrEye vref) = true := by
  unfold State.memTrained
  repeat' first
    | with_reducible assumption
    | with_reducible refine mk_by (fun e => State.puts_er e) ?_
    | with_reducible refine State.modMem_mk ?_ ?_
    | exact fun _ hx => hx
    | exact fun _ hx => foldl_ok hx fun _ _ hm => wordSet_ok _ _ _ _ hm
    | exact fun _ hx => burstWrite_ok _ _ _ hx
    | exact fun _ hx => wordSet_ok _ _ _ _ hx
    | exact fun _ hx => ite_ok (foldl_ok hx fun _ _ hm => cellSet_ok _ _ hm) hx
    | exact fun _ _ => rfl
    | with_reducible refine mk_by (fun e => State.put_er e) ?_
    | with_reducible refine mk_by (fun e => State.memRefresh_er e) ?_
    | with_reducible refine State.markFailed_mk ?_
    | with_reducible refine ite_mk ?_ ?_
    | with_reducible refine mk_fst (by assumption) ?_
    | dsimp only
    | split

theorem State.selftest_mk {u : State} {mismatch : List Nat} {ms : Nat} (h : memOk u = true) : memOk (State.selftest u mismatch ms) = true := by
  unfold State.selftest
  repeat' first
    | with_reducible assumption
    | with_reducible refine forAll_mk ?_ fun _ _ _ => ?_
    | with_reducible refine mk_by (fun e => State.put_er e) ?_
    | with_reducible refine State.markFailed_mk ?_
    | with_reducible refine mk_by (fun e => State.puts_er e) ?_
    | with_reducible refine mk_by (fun e => State.raiseIf_er e) ?_
    | with_reducible refine State.modMem_mk ?_ ?_
    | exact fun _ hx => hx
    | exact fun _ hx => foldl_ok hx fun _ _ hm => wordSet_ok _ _ _ _ hm
    | exact fun _ hx => burstWrite_ok _ _ _ hx
    | exact fun _ hx => wordSet_ok _ _ _ _ hx
    | exact fun _ hx => ite_ok (foldl_ok hx fun _ _ hm => cellSet_ok _ _ hm) hx
    | exact fun _ _ => rfl
    | with_reducible refine mk_by (fun e => State.poisonRefresh_er e) ?_
    | with_reducible refine mk_by (fun e => State.countBins_er e) ?_
    | with_reducible refine ite_mk ?_ ?_
    | with_reducible refine foldl_mk ?_ fun _ _ _ => ?_
    | with_reducible refine foldl_fst_mk ?_ fun _ _ _ => ?_
    | with_reducible refine mk_fst (by assumption) ?_
    | dsimp only
    | split

theorem State.storeRow_mk {u : State} {bins : List Nat} {row : Nat} {pitch : Nat} {data : List Byte} (h : memOk u = true) : memOk (State.storeRow u bins row pitch data) = true := by
  unfold State.storeRow
  repeat' first
    | with_reducible assumption
    | with_reducible refine forAll_mk ?_ fun _ _ _ => ?_
    | with_reducible refine State.stripeWrite_mk ?_
    | with_reducible refine mk_fst (by assumption) ?_
    | dsimp only
    | split

theorem State.binRead_mk {u : State} {bin : Nat} {stripe : Nat} {first : Nat} {count : Nat} (h : memOk u = true) : memOk (State.binRead u bin stripe first count).1 = true := by
  unfold State.binRead
  repeat' first
    | with_reducible assumption
    | with_reducible refine State.stripeData_mk ?_
    | with_reducible refine mk_fst (by assumption) ?_
    | dsimp only
    | split

theorem State.readRow_mk {u : State} {bins : List Nat} {f : SrcFmt} {row : Nat} (h : memOk u = true) : memOk (State.readRow u bins f row).1 = true := by
  unfold State.readRow
  repeat' first
    | with_reducible assumption
    | with_reducible refine State.binRead_mk ?_
    | with_reducible refine foldl_mk ?_ fun _ _ _ => ?_
    | with_reducible refine foldl_fst_mk ?_ fun _ _ _ => ?_
    | with_reducible refine mk_fst (by assumption) ?_
    | dsimp only
    | split

theorem State.readLine_mk {u : State} {b : Buf} {y : Nat} (h : memOk u = true) : memOk (State.readLine u b y).1 = true := by
  unfold State.readLine
  repeat' first
    | with_reducible assumption
    | with_reducible refine State.readRow_mk ?_
    | with_reducible refine mk_fst (by assumption) ?_
    | dsimp only
    | split

theorem State.blendRead_mk {u : State} {b : Buf} {o : Buf} {y : Nat} (h : memOk u = true) : memOk (State.blendRead u b o y).1 = true := by
  unfold State.blendRead
  repeat' first
    | with_reducible assumption
    | with_reducible refine State.readLine_mk ?_
    | with_reducible refine mk_fst (by assumption) ?_
    | dsimp only
    | split

theorem State.bufferLine_mk {u : State} {key : Nat} {b : Buf} {l : FlLine} (h : memOk u = true) : memOk (State.bufferLine u key b l) = true := by
  unfold State.bufferLine
  repeat' first
    | with_reducible assumption
    | with_reducible refine mk_by (fun e => State.setRing_er e) ?_
    | with_reducible refine State.readRow_mk ?_
    | with_reducible refine State.storeRow_mk ?_
    | with_reducible refine ite_mk ?_ ?_
    | with_reducible refine mk_fst (by assumption) ?_
    | dsimp only
    | split

theorem State.siloLine_mk {u : State} {c : Nat} {l : FlLine} (h : memOk u = true) : memOk (State.siloLine u c l) = true := by
  unfold State.siloLine
  repeat' first
    | with_reducible assumption
    | with_reducible refine State.bufferLine_mk ?_
    | with_reducible refine foldl_mk ?_ fun _ _ _ => ?_
    | with_reducible refine foldl_fst_mk ?_ fun _ _ _ => ?_
    | with_reducible refine mk_by (fun e => upd_conv_er e) ?_

theorem State.combineFlush_mk {u : State} {e : Combine} (h : memOk u = true) : memOk (State.combineFlush u e) = true := by
  unfold State.combineFlush
  repeat' first
    | with_reducible assumption
    | with_reducible refine mk_by (fun e => State.modSilo_er e) ?_
    | with_reducible refine State.binRead_mk ?_
    | with_reducible refine State.stripeWrite_mk ?_
    | with_reducible refine State.stripeMerge_mk ?_
    | with_reducible refine ite_mk ?_ ?_
    | with_reducible refine foldl_mk ?_ fun _ _ _ => ?_
    | with_reducible refine foldl_fst_mk ?_ fun _ _ _ => ?_
    | with_reducible refine mk_fst (by assumption) ?_
    | dsimp only
    | split

theorem State.bar2Piece_mk {u : State} {i : Nat} {bin : Nat} {off : Nat} {data : List Byte} {again : Bool} (h : memOk u = true) : memOk (State.bar2Piece u i bin off data again) = true := by
  unfold State.bar2Piece
  repeat' first
    | with_reducible assumption
    | with_reducible refine mk_by (fun e => State.holdWrite_er e) ?_
    | with_reducible refine State.combineFlush_mk ?_
    | with_reducible refine mk_by (fun e => State.modSilo_er e) ?_
    | with_reducible refine ite_mk ?_ ?_
    | with_reducible refine mk_fst (by assumption) ?_
    | dsimp only
    | split

theorem State.bar2Bytes_mk {x0 : Nat} {u : State} {x2 : Nat} {x3 : List Byte} (h : memOk u = true) : memOk (State.bar2Bytes x0 u x2 x3) = true := by
  induction x0 generalizing u x2 x3 with
  | zero =>
    unfold State.bar2Bytes
    repeat' first
      | with_reducible assumption
      | with_reducible refine State.bar2Piece_mk ?_
      | with_reducible refine mk_by (fun e => State.bar2Fault_er e) ?_
      | with_reducible refine mk_by (fun e => State.holdWrite_er e) ?_
      | with_reducible refine ite_mk ?_ ?_
      | with_reducible refine mk_fst (by assumption) ?_
      | dsimp only
      | split
  | succ _ ih =>
    unfold State.bar2Bytes
    repeat' first
      | with_reducible assumption
      | with_reducible refine State.bar2Piece_mk ?_
      | with_reducible refine mk_by (fun e => State.bar2Fault_er e) ?_
      | with_reducible refine mk_by (fun e => State.holdWrite_er e) ?_
      | with_reducible refine ite_mk ?_ ?_
      | with_reducible refine mk_fst (by assumption) ?_
      | dsimp only
      | split
      | with_reducible refine ih ?_

theorem State.doorbell_mk {u : State} {a : Nat} {v : Word} (h : memOk u = true) : memOk (State.doorbell u a v) = true := by
  unfold State.doorbell
  repeat' first
    | with_reducible assumption
    | with_reducible refine State.combineFlush_mk ?_
    | with_reducible refine mk_by (fun e => State.wr_er e) ?_
    | with_reducible refine foldl_mk ?_ fun _ _ _ => ?_
    | with_reducible refine foldl_fst_mk ?_ fun _ _ _ => ?_

theorem State.storedLine_mk {u : State} {g : Nat} {k : Nat} {y : Nat} (h : memOk u = true) : memOk (State.storedLine u g k y).1 = true := by
  unfold State.storedLine
  repeat' first
    | with_reducible assumption
    | with_reducible refine State.readLine_mk ?_
    | with_reducible refine State.blendRead_mk ?_
    | with_reducible refine State.readRow_mk ?_
    | with_reducible refine ite_mk ?_ ?_
    | with_reducible refine ite_fst_mk ?_ ?_
    | with_reducible refine mk_fst (by assumption) ?_
    | dsimp only
    | split

theorem State.substitute_mk {u : State} {g : Nat} {k : Nat} {y : Nat} (h : memOk u = true) : memOk (State.substitute u g k y).1 = true := by
  unfold State.substitute
  repeat' first
    | with_reducible assumption
    | with_reducible refine State.readLine_mk ?_
    | with_reducible refine State.readRow_mk ?_
    | with_reducible refine ite_mk ?_ ?_
    | with_reducible refine ite_fst_mk ?_ ?_
    | with_reducible refine mk_fst (by assumption) ?_
    | dsimp only
    | split

theorem State.damage_mk {u : State} {g : Nat} {k : Nat} {y : Nat} (h : memOk u = true) : memOk (State.damage u g k y) = true := by
  unfold State.damage
  repeat' first
    | with_reducible assumption
    | with_reducible refine State.substitute_mk ?_
    | with_reducible refine mk_by (fun e => State.setLayer_er e) ?_
    | with_reducible refine mk_by (fun e => State.bump_er e) ?_
    | with_reducible refine mk_by (fun e => State.raise_er e) ?_
    | with_reducible refine mk_by (fun e => State.hideLayer_er e) ?_
    | with_reducible refine ite_mk ?_ ?_
    | with_reducible refine mk_fst (by assumption) ?_
    | dsimp only
    | split

theorem State.layerGets_mk {u : State} {g : Nat} {k : Nat} {y : Nat} {w : Option (List Nat)} (h : memOk u = true) : memOk (State.layerGets u g k y w) = true := by
  unfold State.layerGets
  repeat' first
    | with_reducible assumption
    | with_reducible refine State.damage_mk ?_
    | with_reducible refine mk_by (fun e => State.setLayer_er e) ?_
    | with_reducible refine mk_fst (by assumption) ?_
    | dsimp only
    | split

theorem State.cutLine_mk {u : State} {g : Nat} {k : Nat} {l : FlLine} (h : memOk u = true) : memOk (State.cutLine u g k l) = true := by
  unfold State.cutLine
  repeat' first
    | with_reducible assumption
    | with_reducible refine mk_by (fun e => State.setLayer_er e) ?_
    | with_reducible refine State.layerGets_mk ?_
    | with_reducible refine ite_mk ?_ ?_
    | with_reducible refine mk_fst (by assumption) ?_
    | dsimp only
    | split

theorem State.lineIn_mk {u : State} {c : Nat} {l : FlLine} (h : memOk u = true) : memOk (State.lineIn u c l) = true := by
  unfold State.lineIn
  repeat' first
    | with_reducible assumption
    | with_reducible refine State.siloLine_mk ?_
    | with_reducible refine mk_by (fun e => State.setItx_er e) ?_
    | with_reducible refine ite_mk ?_ ?_
    | with_reducible refine foldl_mk ?_ fun _ _ _ => ?_
    | with_reducible refine foldl_fst_mk ?_ fun _ _ _ => ?_
    | with_reducible refine mk_fst (by assumption) ?_
    | dsimp only
    | split
    | with_reducible refine mk_by (fun e => upd_floor_er e) ?_

theorem State.toSheafLine_mk {u : State} {d : Nat} {l : FinLine} {bad : Bool} (h : memOk u = true) : memOk (State.toSheafLine u d l bad) = true := by
  unfold State.toSheafLine
  repeat' first
    | with_reducible assumption
    | with_reducible refine State.cutLine_mk ?_
    | with_reducible refine foldl_mk ?_ fun _ _ _ => ?_
    | with_reducible refine foldl_fst_mk ?_ fun _ _ _ => ?_
    | with_reducible refine mk_by (fun e => upd_floor_er e) ?_

theorem State.storedToSheaf_mk {u : State} {d : Nat} {l : FinLine} {bad : Bool} (h : memOk u = true) : memOk (State.storedToSheaf u d l bad) = true := by
  unfold State.storedToSheaf
  repeat' first
    | with_reducible assumption
    | with_reducible refine State.layerGets_mk ?_
    | with_reducible refine State.storedLine_mk ?_
    | with_reducible refine ite_mk ?_ ?_
    | with_reducible refine foldl_mk ?_ fun _ _ _ => ?_
    | with_reducible refine foldl_fst_mk ?_ fun _ _ _ => ?_
    | with_reducible refine mk_fst (by assumption) ?_
    | dsimp only
    | split

theorem State.toGranaryLine_mk {u : State} {d : Nat} {l : FinLine} {bad : Bool} (h : memOk u = true) : memOk (State.toGranaryLine u d l bad) = true := by
  unfold State.toGranaryLine
  repeat' first
    | with_reducible assumption
    | with_reducible refine State.lineIn_mk ?_
    | with_reducible refine ite_mk ?_ ?_
    | with_reducible refine foldl_mk ?_ fun _ _ _ => ?_
    | with_reducible refine foldl_fst_mk ?_ fun _ _ _ => ?_
    | with_reducible refine mk_fst (by assumption) ?_
    | dsimp only
    | split
    | with_reducible refine mk_by (fun e => upd_floor_er e) ?_

theorem State.spaceRead_mk {x0 : Nat} {u : State} {x2 : Nat} {x3 : Nat} (h : memOk u = true) : memOk (State.spaceRead x0 u x2 x3).1 = true := by
  induction x0 generalizing u x2 x3 with
  | zero =>
    unfold State.spaceRead
    repeat' first
      | with_reducible assumption
      | with_reducible refine State.stripeData_mk ?_
      | with_reducible refine mk_by (fun e => State.raise_er e) ?_
      | with_reducible refine ite_mk ?_ ?_
      | with_reducible refine ite_fst_mk ?_ ?_
      | with_reducible refine mk_fst (by assumption) ?_
      | dsimp only
      | split
  | succ _ ih =>
    unfold State.spaceRead
    repeat' first
      | with_reducible assumption
      | with_reducible refine State.stripeData_mk ?_
      | with_reducible refine mk_by (fun e => State.raise_er e) ?_
      | with_reducible refine ite_mk ?_ ?_
      | with_reducible refine ite_fst_mk ?_ ?_
      | with_reducible refine mk_fst (by assumption) ?_
      | dsimp only
      | split
      | with_reducible refine ih ?_

theorem State.spaceWrite_mk {u : State} {l : List (Nat × Byte)} (h : memOk u = true) : memOk (State.spaceWrite u l) = true := by
  unfold State.spaceWrite
  repeat' first
    | with_reducible assumption
    | with_reducible refine State.stripeMerge_mk ?_
    | with_reducible refine foldl_mk ?_ fun _ _ _ => ?_
    | with_reducible refine foldl_fst_mk ?_ fun _ _ _ => ?_

theorem State.tagBins_mk {u : State} {l : List Nat} (h : memOk u = true) : memOk (State.tagBins u l) = true := by
  unfold State.tagBins
  repeat' first
    | with_reducible assumption
    | with_reducible refine State.stripeWrite_mk ?_
    | with_reducible refine mk_by (fun e => State.tick_er e) ?_
    | with_reducible refine foldl_mk ?_ fun _ _ _ => ?_
    | with_reducible refine foldl_fst_mk ?_ fun _ _ _ => ?_

theorem State.binsTaken_mk {u : State} {domain : Nat} {pulses : Nat} {key : Nat} {v : Nat × List Nat} (h : memOk u = true) : memOk (State.binsTaken u domain pulses key v) = true := by
  unfold State.binsTaken
  repeat' first
    | with_reducible assumption
    | with_reducible refine mk_by (fun e => State.setBins_er e) ?_
    | with_reducible refine mk_by (fun e => State.releaseBins_er e) ?_
    | with_reducible refine mk_by (fun e => State.modSilo_er e) ?_
    | with_reducible refine State.tagBins_mk ?_

theorem State.reBin_mk {u : State} {domain : Nat} {pulses : Nat} {key : Nat} {v : Nat × List Nat} {fresh : Bool} (h : memOk u = true) : memOk (State.reBin u domain pulses key v fresh) = true := by
  unfold State.reBin
  repeat' first
    | with_reducible assumption
    | with_reducible refine State.binsTaken_mk ?_
    | with_reducible refine mk_by (fun e => State.setRing_er e) ?_
    | with_reducible refine mk_by (fun e => State.siloStat_er e) ?_
    | with_reducible refine ite_mk ?_ ?_
    | with_reducible refine mk_fst (by assumption) ?_
    | dsimp only
    | split

theorem State.takeBins_mk {u : State} {fresh : List Nat} (h : memOk u = true) : memOk (State.takeBins u fresh) = true := by
  unfold State.takeBins
  repeat' first
    | with_reducible assumption
    | with_reducible refine mk_by (fun e => State.modSilo_er e) ?_
    | with_reducible refine State.reBin_mk ?_
    | with_reducible refine foldl_mk ?_ fun _ _ _ => ?_
    | with_reducible refine foldl_fst_mk ?_ fun _ _ _ => ?_

theorem State.takeKept_mk {u : State} {domain : Nat} (h : memOk u = true) : memOk (State.takeKept u domain) = true := by
  unfold State.takeKept
  repeat' first
    | with_reducible assumption
    | with_reducible refine mk_by (fun e => State.modSilo_er e) ?_
    | with_reducible refine State.reBin_mk ?_
    | with_reducible refine mk_by (fun e => State.ringAccept_er e) ?_
    | with_reducible refine mk_by (fun e => State.siloStat_er e) ?_
    | with_reducible refine foldl_mk ?_ fun _ _ _ => ?_
    | with_reducible refine foldl_fst_mk ?_ fun _ _ _ => ?_

theorem State.takeOld_mk {u : State} {domain : Nat} {key : Nat} (h : memOk u = true) : memOk (State.takeOld u domain key) = true := by
  unfold State.takeOld
  repeat' first
    | with_reducible assumption
    | with_reducible refine mk_by (fun e => State.modSilo_er e) ?_
    | with_reducible refine State.reBin_mk ?_
    | with_reducible refine mk_fst (by assumption) ?_
    | dsimp only
    | split

theorem State.routeDue_mk {u : State} {t : Nat} {i : Nat} (h : memOk u = true) : memOk (State.routeDue u t i) = true := by
  unfold State.routeDue
  repeat' first
    | with_reducible assumption
    | with_reducible refine mk_by (fun e => State.setRoute_er e) ?_
    | with_reducible refine State.takeOld_mk ?_
    | with_reducible refine mk_by (fun e => State.ringAccept_er e) ?_
    | with_reducible refine mk_by (fun e => State.routeSettle_er e) ?_
    | with_reducible refine mk_by (fun e => State.latencyChange_er e) ?_
    | with_reducible refine mk_by (fun e => State.floorLive_er e) ?_
    | with_reducible refine mk_by (fun e => State.setLayer_er e) ?_
    | with_reducible refine mk_by (fun e => State.puts_er e) ?_
    | with_reducible refine ite_mk ?_ ?_
    | with_reducible refine mk_fst (by assumption) ?_
    | dsimp only
    | split

theorem State.rxSetEnd_mk {u : State} {c : Nat} {a : Nat} {mz : Nat} (h : memOk u = true) : memOk (State.rxSetEnd u c a mz) = true := by
  unfold State.rxSetEnd
  repeat' first
    | with_reducible assumption
    | with_reducible refine mk_by (fun e => State.bump_er e) ?_
    | with_reducible refine mk_by (fun e => State.bumpLost_er e) ?_
    | with_reducible refine State.siloLine_mk ?_
    | with_reducible refine mk_by (fun e => State.ancOffer_er e) ?_
    | with_reducible refine mk_by (fun e => State.rxFrameDone_er e) ?_
    | with_reducible refine mk_by (fun e => State.setIrx_er e) ?_
    | with_reducible refine mk_by (fun e => State.rxFeed_er e) ?_
    | with_reducible refine ite_mk ?_ ?_
    | with_reducible refine foldl_mk ?_ fun _ _ _ => ?_
    | with_reducible refine foldl_fst_mk ?_ fun _ _ _ => ?_
    | with_reducible refine mk_fst (by assumption) ?_
    | dsimp only
    | split

theorem State.rxSets_mk {x0 : Nat} {u : State} {x2 : Nat} (h : memOk u = true) : memOk (State.rxSets x0 u x2) = true := by
  induction x0 generalizing u x2 with
  | zero =>
    unfold State.rxSets
    repeat' first
      | with_reducible assumption
      | with_reducible refine mk_by (fun e => State.start_er e) ?_
      | with_reducible refine State.rxSetEnd_mk ?_
      | with_reducible refine ite_mk ?_ ?_
      | with_reducible refine mk_fst (by assumption) ?_
      | dsimp only
      | split
  | succ _ ih =>
    unfold State.rxSets
    repeat' first
      | with_reducible assumption
      | with_reducible refine mk_by (fun e => State.start_er e) ?_
      | with_reducible refine State.rxSetEnd_mk ?_
      | with_reducible refine ite_mk ?_ ?_
      | with_reducible refine mk_fst (by assumption) ?_
      | dsimp only
      | split
      | with_reducible refine ih ?_

theorem State.rxSetPacket_mk {u : State} {c : Nat} {n : Nat} {marker : Bool} {p : RxPart} (h : memOk u = true) : memOk (State.rxSetPacket u c n marker p) = true := by
  unfold State.rxSetPacket
  repeat' first
    | with_reducible assumption
    | with_reducible refine State.rxSets_mk ?_
    | with_reducible refine mk_by (fun e => State.start_er e) ?_
    | with_reducible refine mk_by (fun e => State.setIrx_er e) ?_
    | with_reducible refine mk_by (fun e => State.rxFeed_er e) ?_
    | with_reducible refine ite_mk ?_ ?_
    | with_reducible refine mk_fst (by assumption) ?_
    | dsimp only
    | split

theorem State.rxPacket_mk {u : State} {c : Nat} {x : Nat} {arrival : Nat} {l : List Byte} (h : memOk u = true) : memOk (State.rxPacket u c x arrival l) = true := by
  unfold State.rxPacket
  repeat' first
    | with_reducible assumption
    | with_reducible refine mk_by (fun e => State.ipCauseAt_er e) ?_
    | with_reducible refine mk_by (fun e => State.legArrival_er e) ?_
    | with_reducible refine mk_by (fun e => State.audLosses_er e) ?_
    | with_reducible refine mk_by (fun e => State.setIrx_er e) ?_
    | with_reducible refine mk_by (fun e => State.rxAudio_er e) ?_
    | with_reducible refine mk_by (fun e => State.rxEntry_er e) ?_
    | with_reducible refine State.rxSetPacket_mk ?_
    | with_reducible refine ite_mk ?_ ?_
    | with_reducible refine mk_fst (by assumption) ?_
    | dsimp only
    | split

theorem State.txLine_mk {u : State} {c : Nat} {y : Nat} (h : memOk u = true) : memOk (State.txLine u c y).1 = true := by
  unfold State.txLine
  repeat' first
    | with_reducible assumption
    | with_reducible refine State.blendRead_mk ?_
    | with_reducible refine State.readLine_mk ?_
    | with_reducible refine mk_by (fun e => State.setItx_er e) ?_
    | with_reducible refine ite_mk ?_ ?_
    | with_reducible refine ite_fst_mk ?_ ?_
    | with_reducible refine mk_fst (by assumption) ?_
    | dsimp only
    | split

theorem State.txBytes_mk {u : State} {c : Nat} {field : Nat} {start : Nat} {n : Nat} (h : memOk u = true) : memOk (State.txBytes u c field start n).1 = true := by
  unfold State.txBytes
  repeat' first
    | with_reducible assumption
    | with_reducible refine State.txLine_mk ?_
    | with_reducible refine foldl_mk ?_ fun _ _ _ => ?_
    | with_reducible refine foldl_fst_mk ?_ fun _ _ _ => ?_

theorem State.ethRoute_mk {u : State} {n : Nat} {ts : Nat} {f : List Byte} (h : memOk u = true) : memOk (State.ethRoute u n ts f) = true := by
  unfold State.ethRoute
  repeat' first
    | with_reducible assumption
    | with_reducible refine mk_by (fun e => State.bump_er e) ?_
    | with_reducible refine State.rxPacket_mk ?_
    | with_reducible refine mk_by (fun e => State.hostQueue_er e) ?_
    | with_reducible refine ite_mk ?_ ?_
    | with_reducible refine mk_fst (by assumption) ?_
    | dsimp only
    | split

theorem State.txTake_mk {u : State} {c : Nat} (h : memOk u = true) : memOk (State.txTake u c) = true := by
  unfold State.txTake
  repeat' first
    | with_reducible assumption
    | with_reducible refine mk_by (fun e => State.takePart_er e) ?_
    | with_reducible refine mk_by (fun e => State.ipTaken_er e) ?_
    | with_reducible refine State.takeBins_mk ?_
    | with_reducible refine mk_by (fun e => State.routeTaken_er e) ?_
    | with_reducible refine mk_by (fun e => State.dropCtxs_er e) ?_
    | with_reducible refine mk_by (fun e => State.dropRings_er e) ?_
    | with_reducible refine mk_by (fun e => State.sumsRefresh_er e) ?_
    | with_reducible refine mk_by (fun e => State.floorLive_er e) ?_
    | with_reducible refine mk_by (fun e => State.groupsDone_er e) ?_
    | with_reducible refine ite_mk ?_ ?_
    | with_reducible refine mk_fst (by assumption) ?_
    | dsimp only
    | split

theorem State.routeBack_mk {u : State} {t : Nat} {i : Nat} {q : State} {bins : List (Nat × (Nat × List Nat))} (h : memOk u = true) : memOk (State.routeBack u t i q bins) = true := by
  unfold State.routeBack
  repeat' first
    | with_reducible assumption
    | with_reducible refine mk_by (fun e => State.giveUp_er e) ?_
    | with_reducible refine mk_by (fun e => State.joinCtx_er e) ?_
    | with_reducible refine mk_by (fun e => State.puts_er e) ?_
    | with_reducible refine mk_by (fun e => State.reserve_er e) ?_
    | with_reducible refine State.takeOld_mk ?_
    | with_reducible refine mk_by (fun e => State.ringAccept_er e) ?_
    | with_reducible refine mk_by (fun e => State.setRoute_er e) ?_
    | with_reducible refine ite_mk ?_ ?_
    | with_reducible refine mk_fst (by assumption) ?_
    | dsimp only
    | split

theorem State.recheckRoute_mk {u : State} {t : Nat} {i : Nat} (h : memOk u = true) : memOk (State.recheckRoute u t i) = true := by
  unfold State.recheckRoute
  repeat' first
    | with_reducible assumption
    | with_reducible refine mk_by (fun e => State.suspend_er e) ?_
    | with_reducible refine State.routeBack_mk ?_
    | with_reducible refine mk_by (fun e => State.routeEvent_er e) ?_
    | with_reducible refine ite_mk ?_ ?_
    | with_reducible refine mk_fst (by assumption) ?_
    | dsimp only
    | split

theorem State.recheckAll_mk {u : State} {d : Nat} (h : memOk u = true) : memOk (State.recheckAll u d) = true := by
  unfold State.recheckAll
  repeat' first
    | with_reducible assumption
    | with_reducible refine State.recheckRoute_mk ?_
    | with_reducible refine ite_mk ?_ ?_
    | with_reducible refine foldl_mk ?_ fun _ _ _ => ?_
    | with_reducible refine foldl_fst_mk ?_ fun _ _ _ => ?_
    | with_reducible refine mk_fst (by assumption) ?_
    | dsimp only
    | split

theorem State.restoreTry_mk {u : State} {bySilo : Bool} {p : Nat × Nat} (h : memOk u = true) : memOk (State.restoreTry u bySilo p) = true := by
  unfold State.restoreTry
  repeat' first
    | with_reducible assumption
    | with_reducible refine mk_by (fun e => State.planned_er e) ?_
    | with_reducible refine mk_by (fun e => State.put_er e) ?_
    | with_reducible refine mk_by (fun e => State.setRoute_er e) ?_
    | with_reducible refine State.routeBack_mk ?_
    | with_reducible refine mk_by (fun e => State.siloEvent_er e) ?_
    | with_reducible refine mk_by (fun e => State.routeEvent_er e) ?_
    | with_reducible refine ite_mk ?_ ?_
    | with_reducible refine mk_fst (by assumption) ?_
    | dsimp only
    | split

theorem State.restoreShed_mk {u : State} {d : Nat} (h : memOk u = true) : memOk (State.restoreShed u d) = true := by
  unfold State.restoreShed
  repeat' first
    | with_reducible assumption
    | with_reducible refine State.restoreTry_mk ?_
    | with_reducible refine ite_mk ?_ ?_
    | with_reducible refine foldl_mk ?_ fun _ _ _ => ?_
    | with_reducible refine foldl_fst_mk ?_ fun _ _ _ => ?_
    | with_reducible refine mk_fst (by assumption) ?_
    | dsimp only
    | split

theorem State.takePulse_mk {u : State} {d : Nat} (h : memOk u = true) : memOk (State.takePulse u d) = true := by
  unfold State.takePulse
  repeat' first
    | with_reducible assumption
    | with_reducible refine mk_by (fun e => State.surfaceAnew_er e) ?_
    | with_reducible refine mk_by (fun e => State.takePart_er e) ?_
    | with_reducible refine mk_by (fun e => State.ipTaken_er e) ?_
    | with_reducible refine mk_by (fun e => State.storesTaken_er e) ?_
    | with_reducible refine State.takeBins_mk ?_
    | with_reducible refine State.takeKept_mk ?_
    | with_reducible refine mk_by (fun e => State.capturesTaken_er e) ?_
    | with_reducible refine mk_by (fun e => State.routeTaken_er e) ?_
    | with_reducible refine mk_by (fun e => State.freezeTaken_er e) ?_
    | with_reducible refine mk_by (fun e => State.ringAccept_er e) ?_
    | with_reducible refine mk_by (fun e => State.siloStat_er e) ?_
    | with_reducible refine mk_by (fun e => State.composerTake_er e) ?_
    | with_reducible refine mk_by (fun e => State.asrcSettle_er e) ?_
    | with_reducible refine mk_by (fun e => State.audTaken_er e) ?_
    | with_reducible refine State.routeDue_mk ?_
    | with_reducible refine mk_by (fun e => State.dropCtxs_er e) ?_
    | with_reducible refine mk_by (fun e => State.dropRings_er e) ?_
    | with_reducible refine mk_by (fun e => State.layerStats_er e) ?_
    | with_reducible refine ite_mk ?_ ?_
    | with_reducible refine foldl_mk ?_ fun _ _ _ => ?_
    | with_reducible refine foldl_fst_mk ?_ fun _ _ _ => ?_
    | with_reducible refine mk_fst (by assumption) ?_
    | dsimp only
    | split

theorem State.releasePulse_mk {u : State} {d : Nat} (h : memOk u = true) : memOk (State.releasePulse u d) = true := by
  unfold State.releasePulse
  repeat' first
    | with_reducible assumption
    | with_reducible refine mk_by (fun e => State.modSilo_er e) ?_
    | with_reducible refine State.tagBins_mk ?_
    | with_reducible refine mk_by (fun e => State.freeCtx_er e) ?_
    | with_reducible refine mk_by (fun e => State.setCtx_er e) ?_
    | with_reducible refine ite_mk ?_ ?_
    | with_reducible refine foldl_mk ?_ fun _ _ _ => ?_
    | with_reducible refine foldl_fst_mk ?_ fun _ _ _ => ?_
    | with_reducible refine mk_fst (by assumption) ?_
    | dsimp only
    | split

theorem State.framePulse_mk {u : State} {d : Nat} {fromPoint : Int} (h : memOk u = true) : memOk (State.framePulse u d fromPoint) = true := by
  unfold State.framePulse
  repeat' first
    | with_reducible assumption
    | with_reducible refine forAll_mk ?_ fun _ _ _ => ?_
    | with_reducible refine mk_by (fun e => State.put_er e) ?_
    | with_reducible refine mk_by (fun e => State.fenceConfirm_er e) ?_
    | with_reducible refine mk_by (fun e => State.heldByRoute_er e) ?_
    | with_reducible refine mk_by (fun e => State.cancelTake_er e) ?_
    | with_reducible refine mk_by (fun e => State.setTd_er e) ?_
    | with_reducible refine State.takePulse_mk ?_
    | with_reducible refine State.releasePulse_mk ?_
    | with_reducible refine mk_by (fun e => State.clipRoll_er e) ?_
    | with_reducible refine mk_by (fun e => State.pulseAlign_er e) ?_
    | with_reducible refine mk_by (fun e => State.groupsDone_er e) ?_
    | with_reducible refine mk_by (fun e => State.domainStop_er e) ?_
    | with_reducible refine mk_by (fun e => State.sumsRefresh_er e) ?_
    | with_reducible refine mk_by (fun e => State.floorLive_er e) ?_
    | with_reducible refine ite_mk ?_ ?_
    | with_reducible refine foldl_mk ?_ fun _ _ _ => ?_
    | with_reducible refine foldl_fst_mk ?_ fun _ _ _ => ?_
    | with_reducible refine mk_fst (by assumption) ?_
    | dsimp only
    | split

theorem State.memRun_mk {u : State} (h : memOk u = true) : memOk (State.memRun u) = true := by
  unfold State.memRun
  repeat' first
    | with_reducible assumption
    | with_reducible refine mk_by (fun e => State.puts_er e) ?_
    | with_reducible refine forAll_mk ?_ fun _ _ _ => ?_
    | with_reducible refine State.modMem_mk ?_ ?_
    | exact fun _ hx => hx
    | exact fun _ hx => foldl_ok hx fun _ _ hm => wordSet_ok _ _ _ _ hm
    | exact fun _ hx => burstWrite_ok _ _ _ hx
    | exact fun _ hx => wordSet_ok _ _ _ _ hx
    | exact fun _ hx => ite_ok (foldl_ok hx fun _ _ hm => cellSet_ok _ _ hm) hx
    | exact fun _ _ => rfl
    | with_reducible refine mk_by (fun e => State.put_er e) ?_
    | with_reducible refine mk_by (fun e => State.memRefresh_er e) ?_
    | with_reducible refine mk_by (fun e => upd_silo_er e) ?_

theorem State.blockStart_mk {u : State} {base : Nat} (h : memOk u = true) : memOk (State.blockStart u base) = true := by
  unfold State.blockStart
  repeat' first
    | with_reducible assumption
    | with_reducible refine State.memRun_mk ?_
    | with_reducible refine mk_by (fun e => State.puts_er e) ?_
    | with_reducible refine ite_mk ?_ ?_
    | with_reducible refine mk_fst (by assumption) ?_
    | dsimp only
    | split

theorem State.blockRun_mk {u : State} {base : Nat} (h : memOk u = true) : memOk (State.blockRun u base) = true := by
  unfold State.blockRun
  repeat' first
    | with_reducible assumption
    | with_reducible refine mk_by (fun e => State.put_er e) ?_
    | with_reducible refine State.blockStart_mk ?_
    | with_reducible refine ite_mk ?_ ?_
    | with_reducible refine mk_fst (by assumption) ?_
    | dsimp only
    | split

theorem State.blockStops_mk {u : State} {kind : Nat} {base : Nat} (h : memOk u = true) : memOk (State.blockStops u kind base) = true := by
  unfold State.blockStops
  repeat' first
    | with_reducible assumption
    | with_reducible refine mk_by (fun e => State.outStop_er e) ?_
    | with_reducible refine mk_by (fun e => State.puts_er e) ?_
    | with_reducible refine mk_by (fun e => State.afterStop_er e) ?_
    | with_reducible refine State.blockStart_mk ?_
    | with_reducible refine ite_mk ?_ ?_
    | with_reducible refine mk_fst (by assumption) ?_
    | dsimp only
    | split

theorem State.setRun_mk {u : State} {kind : Nat} {base : Nat} (h : memOk u = true) : memOk (State.setRun u kind base) = true := by
  unfold State.setRun
  repeat' first
    | with_reducible assumption
    | with_reducible refine State.blockRun_mk ?_
    | with_reducible refine mk_by (fun e => State.outRun_er e) ?_
    | with_reducible refine ite_mk ?_ ?_
    | with_reducible refine mk_fst (by assumption) ?_
    | dsimp only
    | split

theorem State.logWrite_mk {u : State} {r : List Byte} (h : memOk u = true) : memOk (State.logWrite u r) = true := by
  unfold State.logWrite
  refine ite_mk h (ite_mk (mk_by (fun e => State.bridgeRaise_er e) (mk_by (fun e => State.bump_er e) h)) ?_)
  dsimp only
  generalize hl : List.map _ _ = l
  have k : memOk (u.spaceWrite l) = true := State.spaceWrite_mk h
  generalize u.spaceWrite l = v at *
  exact mk_by (fun e => upd_mg_er e) (mk_by (fun e => State.bump_er e) (mk_by (fun e => State.put_er e) k))

theorem State.dmaRead_mk {u : State} {a : Nat} {host : List Byte} {off : Nat} (h : memOk u = true) : memOk (State.dmaRead u a host off).1 = true := by
  unfold State.dmaRead
  repeat' first
    | with_reducible assumption
    | with_reducible refine State.spaceRead_mk ?_
    | with_reducible refine mk_fst (by assumption) ?_
    | dsimp only
    | split

theorem State.dmaWrite_mk {u : State} {a : Nat} {l : List Byte} (h : memOk u = true) : memOk (State.dmaWrite u a l) = true := by
  unfold State.dmaWrite
  repeat' first
    | with_reducible assumption
    | with_reducible refine State.spaceWrite_mk ?_
    | with_reducible refine mk_by (fun e => State.sramWrite_er e) ?_
    | with_reducible refine mk_by (fun e => State.emit_er e) ?_
    | with_reducible refine mk_fst (by assumption) ?_
    | dsimp only
    | split

theorem State.dmaTake_mk {u : State} {host : List Byte} {pos : Nat} (h : memOk u = true) : memOk (State.dmaTake u host pos).1 = true := by
  unfold State.dmaTake
  repeat' first
    | with_reducible assumption
    | with_reducible refine State.dmaRead_mk ?_
    | with_reducible refine mk_by (fun e => dmaMask_er e) ?_

theorem State.dmaGive_mk {u : State} {pos : Nat} {x : Option (List Byte)} (h : memOk u = true) : memOk (State.dmaGive u pos x).1 = true := by
  cases x with
  | none => exact h
  | some l =>
    unfold State.dmaGive
    dsimp only
    cases hb : u.dmaMay (u.dmaDst + pos) true
    · rw [cond_false]; exact h
    · rw [cond_true]; exact State.dmaWrite_mk (mk_by (fun e => State.tick_er e) h)

theorem dmaPass_mk {pos : Nat} {r : State × Option (List Byte)} (h : memOk r.1 = true) : memOk (dmaPass pos r).1 = true :=
  State.dmaGive_mk h

theorem State.dmaMove_mk {u : State} {host : List Byte} {pos : Nat} (h : memOk u = true) : memOk (State.dmaMove u host pos).1 = true := by
  unfold State.dmaMove
  cases hb : u.dmaMay (u.dmaSrc + pos) false
  · rw [cond_false]; exact h
  · rw [cond_true]; exact dmaPass_mk (State.dmaTake_mk h)

theorem dmaDoneAt_mk {pos : Nat} {r : State × Nat} (h : memOk r.1 = true) : memOk (dmaDoneAt pos r).1 = true := by
  cases r; exact h

theorem dmaNext_mk {host : List Byte} {q : State × Nat × Nat} (h : memOk q.1 = true) : memOk (dmaNext host q).1 = true := by
  unfold dmaNext
  cases hb : q.2.2 == 0
  · rw [cond_false]; exact h
  · rw [cond_true]; exact dmaDoneAt_mk (State.dmaMove_mk h)

theorem State.dmaCopy_mk {u : State} {n : Nat} {host : List Byte} (h : memOk u = true) : memOk (State.dmaCopy u n host).1 = true := by
  unfold State.dmaCopy
  generalize List.range n = l
  suffices this : ∀ q : State × Nat × Nat, memOk q.1 = true → memOk (l.foldl (fun q _ => dmaNext host q) q).1 = true from this _ h
  induction l with
  | nil => exact fun _ h => h
  | cons _ _ ih => exact fun _ h => ih _ (dmaNext_mk h)

theorem State.dmaDone_mk {u : State} {e : DmaEnd} (h : memOk u = true) : memOk (State.dmaDone u e).1 = true := by
  unfold State.dmaDone
  repeat' first
    | with_reducible assumption
    | with_reducible refine State.dmaCopy_mk ?_
    | with_reducible refine ite_mk ?_ ?_
    | with_reducible refine ite_fst_mk ?_ ?_
    | with_reducible refine mk_fst (by assumption) ?_
    | dsimp only
    | split

theorem execChannelFailCause_mk {u t : State} {c : Fin 12} {reason : Fin 8} (h : memOk u = true) (e : execChannelFailCause c reason u = .next t) : memOk t = true := by
  unfold execChannelFailCause at e
  dsimp only at e
  refine next_mk e ?_
  repeat' first
    | with_reducible assumption
    | with_reducible refine State.markFailed_mk ?_
    | with_reducible refine ite_mk ?_ ?_
    | with_reducible refine mk_fst (by assumption) ?_
    | dsimp only
    | split

theorem execErasureEntry_mk {u t : State} {c : Fin 12} (h : memOk u = true) (e : execErasureEntry c u = .next t) : memOk t = true := by
  unfold execErasureEntry at e
  refine next_mk e ?_
  repeat' first
    | with_reducible assumption
    | with_reducible refine State.modMem_mk ?_ ?_
    | exact fun _ hx => hx
    | exact fun _ hx => foldl_ok hx fun _ _ hm => wordSet_ok _ _ _ _ hm
    | exact fun _ hx => burstWrite_ok _ _ _ hx
    | exact fun _ hx => wordSet_ok _ _ _ _ hx
    | exact fun _ hx => ite_ok (foldl_ok hx fun _ _ hm => cellSet_ok _ _ hm) hx
    | exact fun _ _ => rfl
    | with_reducible refine mk_by (fun e => State.raise_er e) ?_
    | with_reducible refine mk_by (fun e => State.memRefresh_er e) ?_
    | with_reducible refine mk_by (fun e => State.shedMemory_er e) ?_
    | with_reducible refine ite_mk ?_ ?_
    | with_reducible refine mk_fst (by assumption) ?_
    | dsimp only
    | split

theorem execCeWindowEnd_mk {u t : State} {c : Fin 12} (h : memOk u = true) (e : execCeWindowEnd c u = .next t) : memOk t = true := by
  unfold execCeWindowEnd at e
  refine next_mk e ?_
  repeat' first
    | with_reducible assumption
    | with_reducible refine State.modMem_mk ?_ ?_
    | exact fun _ hx => hx
    | exact fun _ hx => foldl_ok hx fun _ _ hm => wordSet_ok _ _ _ _ hm
    | exact fun _ hx => burstWrite_ok _ _ _ hx
    | exact fun _ hx => wordSet_ok _ _ _ _ hx
    | exact fun _ hx => ite_ok (foldl_ok hx fun _ _ hm => cellSet_ok _ _ hm) hx
    | exact fun _ _ => rfl

theorem execMcFail_mk {u t : State} {c : Fin 12} (h : memOk u = true) (e : execMcFail c u = .next t) : memOk t = true := by
  unfold execMcFail at e
  refine next_mk e ?_
  repeat' first
    | with_reducible assumption
    | with_reducible refine State.hostWrite_mk ?_ ?_
    | with_reducible refine State.markFailed_mk ?_

theorem execMcRestore_mk {u t : State} {c : Fin 12} (h : memOk u = true) (e : execMcRestore c u = .next t) : memOk t = true := by
  unfold execMcRestore at e
  refine next_mk e ?_
  repeat' first
    | with_reducible assumption
    | with_reducible refine State.hostWrite_mk ?_ ?_
    | with_reducible refine State.modMem_mk ?_ ?_
    | exact fun _ hx => hx
    | exact fun _ hx => foldl_ok hx fun _ _ hm => wordSet_ok _ _ _ _ hm
    | exact fun _ hx => burstWrite_ok _ _ _ hx
    | exact fun _ hx => wordSet_ok _ _ _ _ hx
    | exact fun _ hx => ite_ok (foldl_ok hx fun _ _ hm => cellSet_ok _ _ hm) hx
    | exact fun _ _ => rfl
    | with_reducible refine ite_mk ?_ ?_
    | with_reducible refine mk_fst (by assumption) ?_
    | dsimp only
    | split

theorem execMemoryRead_mk {u t : State} {y0 : MemReader} {stripe : Nat} {first : Fin 11} {count : Fin 11} {hits : List MemHit} (h : memOk u = true) (e : execMemoryRead y0 stripe first count hits u = .next t) : memOk t = true := by
  unfold execMemoryRead at e
  refine next_mk e ?_
  repeat' first
    | with_reducible assumption
    | with_reducible refine State.applyHits_mk ?_
    | with_reducible refine State.stripeData_mk ?_
    | with_reducible refine mk_by (fun e => State.raiseIf_er e) ?_
    | with_reducible refine mk_by (fun e => State.emit_er e) ?_
    | with_reducible refine ite_mk ?_ ?_
    | with_reducible refine mk_fst (by assumption) ?_
    | dsimp only
    | split

theorem execMemoryWrite_mk {u t : State} {stripe : Nat} {offset : Fin 640} {data : List Byte} (h : memOk u = true) (e : execMemoryWrite stripe offset data u = .next t) : memOk t = true := by
  unfold execMemoryWrite at e
  refine next_mk e ?_
  repeat' first
    | with_reducible assumption
    | with_reducible refine State.stripeWrite_mk ?_
    | with_reducible refine ite_mk ?_ ?_
    | with_reducible refine mk_fst (by assumption) ?_
    | dsimp only
    | split

theorem execWinnowStripe_mk {u t : State} {hits : List MemHit} {behind : Bool} (h : memOk u = true) (e : execWinnowStripe hits behind u = .next t) : memOk t = true := by
  unfold execWinnowStripe at e
  refine next_mk e ?_
  repeat' first
    | with_reducible assumption
    | with_reducible refine mk_by (fun e => State.raiseIf_er e) ?_
    | with_reducible refine State.applyHits_mk ?_
    | with_reducible refine State.winnowVisit_mk ?_
    | with_reducible refine State.modMem_mk ?_ ?_
    | exact fun _ hx => hx
    | exact fun _ hx => foldl_ok hx fun _ _ hm => wordSet_ok _ _ _ _ hm
    | exact fun _ hx => burstWrite_ok _ _ _ hx
    | exact fun _ hx => wordSet_ok _ _ _ _ hx
    | exact fun _ hx => ite_ok (foldl_ok hx fun _ _ hm => cellSet_ok _ _ hm) hx
    | exact fun _ _ => rfl
    | with_reducible refine mk_by (fun e => State.put_er e) ?_
    | with_reducible refine mk_by (fun e => State.raise_er e) ?_
    | with_reducible refine ite_mk ?_ ?_
    | with_reducible refine mk_fst (by assumption) ?_
    | dsimp only
    | split

theorem execRebuildDone_mk {u t : State}  (h : memOk u = true) (e : execRebuildDone u = .next t) : memOk t = true := by
  unfold execRebuildDone at e
  refine next_mk e ?_
  repeat' first
    | with_reducible assumption
    | with_reducible refine mk_by (fun e => State.put_er e) ?_
    | with_reducible refine mk_by (fun e => State.memRefresh_er e) ?_
    | with_reducible refine State.modMem_mk ?_ ?_
    | exact fun _ hx => hx
    | exact fun _ hx => foldl_ok hx fun _ _ hm => wordSet_ok _ _ _ _ hm
    | exact fun _ hx => burstWrite_ok _ _ _ hx
    | exact fun _ hx => wordSet_ok _ _ _ _ hx
    | exact fun _ hx => ite_ok (foldl_ok hx fun _ _ hm => cellSet_ok _ _ hm) hx
    | exact fun _ _ => rfl
    | with_reducible refine ite_mk ?_ ?_
    | with_reducible refine mk_fst (by assumption) ?_
    | dsimp only
    | split

theorem execMemTrainingDone_mk {u t : State} {c : Fin 12} {rdEye : Fin 256} {wrEye : Fin 256} {vref : Fin 64} (h : memOk u = true) (e : execMemTrainingDone c rdEye wrEye vref u = .next t) : memOk t = true := by
  unfold execMemTrainingDone at e
  refine next_mk e ?_
  repeat' first
    | with_reducible assumption
    | with_reducible refine State.memTrained_mk ?_

theorem execSelftestDone_mk {u t : State} {mismatch : List Nat} {ms : Nat} (h : memOk u = true) (e : execSelftestDone mismatch ms u = .next t) : memOk t = true := by
  unfold execSelftestDone at e
  refine next_mk e ?_
  repeat' first
    | with_reducible assumption
    | with_reducible refine State.selftest_mk ?_

theorem execMcRawUnlock_mk {u t : State} {c : Fin 12} {key : Word} (h : memOk u = true) (e : execMcRawUnlock c key u = .next t) : memOk t = true := by
  unfold execMcRawUnlock at e
  refine next_mk e ?_
  repeat' first
    | with_reducible assumption
    | with_reducible refine State.hostWrite_mk ?_ ?_
    | with_reducible refine State.modMem_mk ?_ ?_
    | exact fun _ hx => hx
    | exact fun _ hx => foldl_ok hx fun _ _ hm => wordSet_ok _ _ _ _ hm
    | exact fun _ hx => burstWrite_ok _ _ _ hx
    | exact fun _ hx => wordSet_ok _ _ _ _ hx
    | exact fun _ hx => ite_ok (foldl_ok hx fun _ _ hm => cellSet_ok _ _ hm) hx
    | exact fun _ _ => rfl
    | with_reducible refine ite_mk ?_ ?_
    | with_reducible refine mk_fst (by assumption) ?_
    | dsimp only
    | split

theorem execMcRawGo_mk {u t : State} {c : Fin 12} {write : Bool} (h : memOk u = true) (e : execMcRawGo c write u = .next t) : memOk t = true := by
  unfold execMcRawGo at e
  dsimp only at e
  refine next_mk e ?_
  repeat' first
    | with_reducible assumption
    | with_reducible refine State.hostWrite_mk ?_ ?_
    | with_reducible refine mk_by (fun e => State.put_er e) ?_
    | with_reducible refine State.modMem_mk ?_ ?_
    | exact fun _ hx => hx
    | exact fun _ hx => foldl_ok hx fun _ _ hm => wordSet_ok _ _ _ _ hm
    | exact fun _ hx => burstWrite_ok _ _ _ hx
    | exact fun _ hx => wordSet_ok _ _ _ _ hx
    | exact fun _ hx => ite_ok (foldl_ok hx fun _ _ hm => cellSet_ok _ _ hm) hx
    | exact fun _ _ => rfl
    | with_reducible refine mk_by (fun e => State.puts_er e) ?_
    | with_reducible refine ite_mk ?_ ?_
    | with_reducible refine mk_fst (by assumption) ?_
    | dsimp only
    | split

theorem execRawModeExpiry_mk {u t : State} {c : Fin 12} (h : memOk u = true) (e : execRawModeExpiry c u = .next t) : memOk t = true := by
  unfold execRawModeExpiry at e
  refine next_mk e ?_
  repeat' first
    | with_reducible assumption
    | with_reducible refine State.modMem_mk ?_ ?_
    | exact fun _ hx => hx
    | exact fun _ hx => foldl_ok hx fun _ _ hm => wordSet_ok _ _ _ _ hm
    | exact fun _ hx => burstWrite_ok _ _ _ hx
    | exact fun _ hx => wordSet_ok _ _ _ _ hx
    | exact fun _ hx => ite_ok (foldl_ok hx fun _ _ hm => cellSet_ok _ _ hm) hx
    | exact fun _ _ => rfl

theorem execMemQueueUe_mk {u t : State} {y0 : QueueUe} (h : memOk u = true) (e : execMemQueueUe y0 u = .next t) : memOk t = true := by
  unfold execMemQueueUe at e
  refine next_mk e ?_
  repeat' first
    | with_reducible assumption
    | with_reducible refine mk_by (fun e => State.setFault_er e) ?_
    | with_reducible refine State.markFailed_mk ?_
    | with_reducible refine State.modMem_mk ?_ ?_
    | exact fun _ hx => hx
    | exact fun _ hx => foldl_ok hx fun _ _ hm => wordSet_ok _ _ _ _ hm
    | exact fun _ hx => burstWrite_ok _ _ _ hx
    | exact fun _ hx => wordSet_ok _ _ _ _ hx
    | exact fun _ hx => ite_ok (foldl_ok hx fun _ _ hm => cellSet_ok _ _ hm) hx
    | exact fun _ _ => rfl
    | with_reducible refine mk_by (fun e => State.wr_er e) ?_
    | with_reducible refine mk_by (fun e => State.put_er e) ?_
    | with_reducible refine mk_by (fun e => State.poisonRefresh_er e) ?_
    | with_reducible refine ite_mk ?_ ?_
    | with_reducible refine foldl_mk ?_ fun _ _ _ => ?_
    | with_reducible refine foldl_fst_mk ?_ fun _ _ _ => ?_
    | with_reducible refine mk_fst (by assumption) ?_
    | dsimp only
    | split

theorem execBar2Write_mk {u t : State} {offset : BitVec 32} {data : List Byte} (h : memOk u = true) (e : execBar2Write offset data u = .next t) : memOk t = true := by
  unfold execBar2Write at e
  refine next_mk e ?_
  repeat' first
    | with_reducible assumption
    | with_reducible refine State.bar2Bytes_mk ?_

theorem execBar2Read_mk {u t : State} {offset : BitVec 32} (h : memOk u = true) (e : execBar2Read offset u = .next t) : memOk t = true := by
  unfold execBar2Read at e
  dsimp only at e
  refine next_mk e ?_
  repeat' first
    | with_reducible assumption
    | with_reducible refine State.combineFlush_mk ?_
    | with_reducible refine State.binRead_mk ?_
    | with_reducible refine mk_by (fun e => State.answer_er e) ?_
    | with_reducible refine mk_by (fun e => State.raise_er e) ?_
    | with_reducible refine mk_by (fun e => State.emit_er e) ?_
    | with_reducible refine ite_mk ?_ ?_
    | with_reducible refine mk_fst (by assumption) ?_
    | dsimp only
    | split

theorem execCombineTimeout_mk {u t : State} {bin : Fin 0x40000} {stripe : Fin 3276} (h : memOk u = true) (e : execCombineTimeout bin stripe u = .next t) : memOk t = true := by
  unfold execCombineTimeout at e
  refine next_mk e ?_
  repeat' first
    | with_reducible assumption
    | with_reducible refine State.combineFlush_mk ?_
    | with_reducible refine mk_by (fun e => State.holdWrite_er e) ?_
    | with_reducible refine ite_mk ?_ ?_
    | with_reducible refine mk_fst (by assumption) ?_
    | dsimp only
    | split

theorem execMeterWindow_mk {u t : State} {store : Fin 512} (h : memOk u = true) (e : execMeterWindow store u = .next t) : memOk t = true := by
  unfold execMeterWindow at e
  dsimp only at e
  refine next_mk e ?_
  repeat' first
    | with_reducible assumption
    | with_reducible refine mk_by (fun e => State.modSilo_er e) ?_
    | with_reducible refine mk_by (fun e => State.holdWrite_er e) ?_
    | with_reducible refine mk_by (fun e => State.bar2Fault_er e) ?_
    | with_reducible refine State.doorbell_mk ?_
    | with_reducible refine State.combineFlush_mk ?_
    | with_reducible refine State.bar2Piece_mk ?_
    | with_reducible refine mk_by (fun e => State.live_er e) ?_
    | with_reducible refine ite_mk ?_ ?_
    | with_reducible refine foldl_mk ?_ fun _ _ _ => ?_
    | with_reducible refine foldl_fst_mk ?_ fun _ _ _ => ?_
    | with_reducible refine mk_fst (by assumption) ?_
    | dsimp only
    | split

theorem execComposerUe_mk {u t : State} {g : Fin 96} {y1 : CompUe} (h : memOk u = true) (e : execComposerUe g y1 u = .next t) : memOk t = true := by
  unfold execComposerUe at e
  dsimp only at e
  refine next_mk e ?_
  repeat' first
    | with_reducible assumption
    | with_reducible refine mk_by (fun e => State.setFault_er e) ?_
    | with_reducible refine State.damage_mk ?_
    | with_reducible refine mk_by (fun e => State.cause_er e) ?_
    | with_reducible refine mk_by (fun e => State.raise_er e) ?_
    | with_reducible refine mk_by (fun e => State.live_er e) ?_
    | with_reducible refine mk_by (fun e => State.setComp_er e) ?_
    | with_reducible refine ite_mk ?_ ?_
    | with_reducible refine mk_fst (by assumption) ?_
    | dsimp only
    | split

theorem execFinanoLine_mk {u t : State} {sheaf : Fin 8} {toSheaf : Bool} {l : FinLine} {ue : Bool} (h : memOk u = true) (e : execFinanoLine sheaf toSheaf l ue u = .next t) : memOk t = true := by
  unfold execFinanoLine at e
  dsimp only at e
  refine next_mk e ?_
  repeat' first
    | with_reducible assumption
    | with_reducible refine State.toGranaryLine_mk ?_
    | with_reducible refine State.storedToSheaf_mk ?_
    | with_reducible refine State.toSheafLine_mk ?_
    | with_reducible refine ite_mk ?_ ?_
    | with_reducible refine mk_fst (by assumption) ?_
    | dsimp only
    | split
    | with_reducible refine mk_by (fun e => upd_floor_er e) ?_

theorem execFenceDoorbell_mk {u t : State} {g : Fin 96} {k : Bool} {v : Word} (h : memOk u = true) (e : execFenceDoorbell g k v u = .next t) : memOk t = true := by
  unfold execFenceDoorbell at e
  dsimp only at e
  refine next_mk e ?_
  repeat' first
    | with_reducible assumption
    | with_reducible refine State.hostWrite_mk ?_ ?_
    | with_reducible refine State.doorbell_mk ?_
    | with_reducible refine mk_by (fun e => State.holdWrite_er e) ?_
    | with_reducible refine ite_mk ?_ ?_
    | with_reducible refine mk_fst (by assumption) ?_
    | dsimp only
    | split

theorem execEthFrameReceived_mk {u t : State} {n : Fin 4} {f : EthFrame} (h : memOk u = true) (e : execEthFrameReceived n f u = .next t) : memOk t = true := by
  unfold execEthFrameReceived at e
  dsimp only at e
  refine next_mk e ?_
  repeat' first
    | with_reducible assumption
    | with_reducible refine mk_by (fun e => State.bump_er e) ?_
    | with_reducible refine mk_by (fun e => State.ipCause_er e) ?_
    | with_reducible refine mk_by (fun e => State.msReceive_er e) ?_
    | with_reducible refine State.ethRoute_mk ?_
    | with_reducible refine mk_by (fun e => State.hostQueue_er e) ?_
    | with_reducible refine ite_mk ?_ ?_
    | with_reducible refine mk_fst (by assumption) ?_
    | dsimp only
    | split

theorem execRxFrameTimeout_mk {u t : State} {c : Fin 1024} (h : memOk u = true) (e : execRxFrameTimeout c u = .next t) : memOk t = true := by
  unfold execRxFrameTimeout at e
  dsimp only at e
  refine next_mk e ?_
  repeat' first
    | with_reducible assumption
    | with_reducible refine State.rxSets_mk ?_
    | with_reducible refine mk_by (fun e => State.start_er e) ?_
    | with_reducible refine State.rxSetEnd_mk ?_
    | with_reducible refine ite_mk ?_ ?_
    | with_reducible refine mk_fst (by assumption) ?_
    | dsimp only
    | split

theorem execTxFrameStart_mk {u t : State} {c : Fin 1024} {k : Nat} {dev : Int} (h : memOk u = true) (e : execTxFrameStart c k dev u = .next t) : memOk t = true := by
  unfold execTxFrameStart at e
  dsimp only at e
  refine next_mk e ?_
  repeat' first
    | with_reducible assumption
    | with_reducible refine State.txTake_mk ?_
    | with_reducible refine State.routeDue_mk ?_
    | with_reducible refine mk_by (fun e => State.txFrame_er e) ?_
    | with_reducible refine ite_mk ?_ ?_
    | with_reducible refine mk_fst (by assumption) ?_
    | dsimp only
    | split

theorem execTxPacketSend_mk {u t : State} {c : Fin 1024} {lateA lateB : Nat} (h : memOk u = true) (e : execTxPacketSend c lateA lateB u = .next t) : memOk t = true := by
  unfold execTxPacketSend at e
  dsimp only at e
  refine next_mk e ?_
  repeat' first
    | with_reducible assumption
    | with_reducible refine State.txBytes_mk ?_
    | with_reducible refine mk_by (fun e => State.rtpSend_er e) ?_
    | with_reducible refine mk_by (fun e => State.setItx_er e) ?_
    | with_reducible refine mk_by (fun e => State.readersDone_er e) ?_
    | with_reducible refine mk_by (fun e => State.bump_er e) ?_
    | with_reducible refine mk_by (fun e => State.ipCauseAt_er e) ?_
    | with_reducible refine ite_mk ?_ ?_
    | with_reducible refine mk_fst (by assumption) ?_
    | dsimp only
    | split

theorem execTakeCutoff_mk {u t : State} {domain : Fin 8} (h : memOk u = true) (e : execTakeCutoff domain u = .next t) : memOk t = true := by
  unfold execTakeCutoff at e
  dsimp only at e
  refine next_mk e ?_
  repeat' first
    | with_reducible assumption
    | with_reducible refine forAll_mk ?_ fun _ _ _ => ?_
    | with_reducible refine mk_by (fun e => State.cutGroup_er e) ?_
    | with_reducible refine mk_by (fun e => State.pathDue_er e) ?_
    | with_reducible refine State.restoreShed_mk ?_
    | with_reducible refine State.recheckAll_mk ?_
    | with_reducible refine mk_by (fun e => State.keepTry_er e) ?_
    | with_reducible refine mk_by (fun e => State.setTd_er e) ?_
    | with_reducible refine mk_by (fun e => State.sumsRefresh_er e) ?_
    | with_reducible refine mk_by (fun e => State.floorLive_er e) ?_
    | with_reducible refine ite_mk ?_ ?_
    | with_reducible refine foldl_mk ?_ fun _ _ _ => ?_
    | with_reducible refine foldl_fst_mk ?_ fun _ _ _ => ?_
    | with_reducible refine mk_fst (by assumption) ?_
    | dsimp only
    | split

theorem execRingFrameComplete_mk {u t : State} {r : RingId} {cut : Bool} (h : memOk u = true) (e : execRingFrameComplete r cut u = .next t) : memOk t = true := by
  unfold execRingFrameComplete at e
  dsimp only at e
  refine next_mk e ?_
  repeat' first
    | with_reducible assumption
    | with_reducible refine mk_by (fun e => State.ctxComplete_er e) ?_
    | with_reducible refine mk_by (fun e => State.ringComplete_er e) ?_
    | with_reducible refine State.recheckRoute_mk ?_
    | with_reducible refine mk_by (fun e => State.sumsRefresh_er e) ?_
    | with_reducible refine mk_by (fun e => State.floorLive_er e) ?_
    | with_reducible refine ite_mk ?_ ?_
    | with_reducible refine foldl_mk ?_ fun _ _ _ => ?_
    | with_reducible refine foldl_fst_mk ?_ fun _ _ _ => ?_
    | with_reducible refine mk_fst (by assumption) ?_
    | dsimp only
    | split

theorem execDomainFramePulse_mk {u t : State} {domain : Fin 8} {fromPoint : Int} (h : memOk u = true) (e : execDomainFramePulse domain fromPoint u = .next t) : memOk t = true := by
  unfold execDomainFramePulse at e
  refine next_mk e ?_
  repeat' first
    | with_reducible assumption
    | with_reducible refine State.framePulse_mk ?_
    | with_reducible refine ite_mk ?_ ?_
    | with_reducible refine mk_fst (by assumption) ?_
    | dsimp only
    | split

theorem execDomainStart_mk {u t : State} {d : Fin 8} (h : memOk u = true) (e : execDomainStart d u = .next t) : memOk t = true := by
  unfold execDomainStart at e
  refine next_mk e ?_
  repeat' first
    | with_reducible assumption
    | with_reducible refine State.framePulse_mk ?_
    | with_reducible refine ite_mk ?_ ?_
    | with_reducible refine mk_fst (by assumption) ?_
    | dsimp only
    | split

theorem execTakeApply_mk {u t : State} {g : Fin 96} (h : memOk u = true) (e : execTakeApply g u = .next t) : memOk t = true := by
  unfold execTakeApply at e
  dsimp only at e
  refine next_mk e ?_
  repeat' first
    | with_reducible assumption
    | with_reducible refine mk_by (fun e => State.composerFrame_er e) ?_
    | with_reducible refine mk_by (fun e => State.takePart_er e) ?_
    | with_reducible refine mk_by (fun e => State.audTaken_er e) ?_
    | with_reducible refine State.routeDue_mk ?_
    | with_reducible refine mk_by (fun e => State.selectReaders_er e) ?_
    | with_reducible refine mk_by (fun e => State.layerStats_er e) ?_
    | with_reducible refine mk_by (fun e => State.groupsDone_er e) ?_
    | with_reducible refine ite_mk ?_ ?_
    | with_reducible refine foldl_mk ?_ fun _ _ _ => ?_
    | with_reducible refine foldl_fst_mk ?_ fun _ _ _ => ?_
    | with_reducible refine mk_fst (by assumption) ?_
    | dsimp only
    | split

theorem execBlockStopped_mk {u t : State} {b : BlockAddr} (h : memOk u = true) (e : execBlockStopped b u = .next t) : memOk t = true := by
  unfold execBlockStopped at e
  refine next_mk e ?_
  repeat' first
    | with_reducible assumption
    | with_reducible refine State.blockStops_mk ?_
    | with_reducible refine ite_mk ?_ ?_
    | with_reducible refine mk_fst (by assumption) ?_
    | dsimp only
    | split

theorem execCtrlRunSet_mk {u t : State} {b : BlockAddr} (h : memOk u = true) (e : execCtrlRunSet b u = .next t) : memOk t = true := by
  unfold execCtrlRunSet at e
  refine next_mk e ?_
  repeat' first
    | with_reducible assumption
    | with_reducible refine State.hostWrite_mk ?_ ?_
    | with_reducible refine State.setRun_mk ?_

theorem execYumenLinkFrame_mk {u t : State} {crcOk : Bool} (h : memOk u = true) (e : execYumenLinkFrame crcOk u = .next t) : memOk t = true := by
  unfold execYumenLinkFrame at e
  refine next_mk e ?_
  repeat' first
    | with_reducible assumption
    | with_reducible refine mk_by (fun e => State.modYm_er e) ?_
    | with_reducible refine mk_by (fun e => State.frameBad_er e) ?_
    | with_reducible refine mk_by (fun e => State.frameSeen_er e) ?_
    | with_reducible refine mk_by (fun e => State.showBytes_er e) ?_
    | with_reducible refine State.logWrite_mk ?_
    | with_reducible refine ite_mk ?_ ?_
    | with_reducible refine mk_fst (by assumption) ?_
    | dsimp only
    | split

theorem execYfForward_mk {u t : State}  (h : memOk u = true) (e : execYfForward u = .next t) : memOk t = true := by
  unfold execYfForward at e
  dsimp only at e
  refine next_mk e ?_
  repeat' first
    | with_reducible assumption
    | with_reducible refine mk_by (fun e => State.yfRefresh_er e) ?_
    | with_reducible refine State.spaceRead_mk ?_
    | with_reducible refine mk_by (fun e => State.emit_er e) ?_
    | with_reducible refine mk_by (fun e => State.put_er e) ?_
    | with_reducible refine ite_mk ?_ ?_
    | with_reducible refine mk_fst (by assumption) ?_
    | dsimp only
    | split
    | with_reducible refine mk_by (fun e => upd_mg_er e) ?_

theorem execDmaJobEnd_mk {u t : State} {y0 : DmaEnd} (h : memOk u = true) (e : execDmaJobEnd y0 u = .next t) : memOk t = true := by
  unfold execDmaJobEnd at e
  refine next_mk e ?_
  repeat' first
    | with_reducible assumption
    | with_reducible refine State.dmaDone_mk ?_
    | with_reducible refine mk_by (fun e => State.puts_er e) ?_
    | with_reducible refine mk_by (fun e => State.raise_er e) ?_
    | with_reducible refine ite_mk ?_ ?_
    | with_reducible refine mk_fst (by assumption) ?_
    | dsimp only
    | split

theorem execDmaAbort_mk {u t : State} {y0 : DmaEnd} (h : memOk u = true) (e : execDmaAbort y0 u = .next t) : memOk t = true := by
  unfold execDmaAbort at e
  refine next_mk e ?_
  repeat' first
    | with_reducible assumption
    | with_reducible refine State.hostWrite_mk ?_ ?_
    | with_reducible refine State.dmaCopy_mk ?_
    | with_reducible refine mk_by (fun e => State.busReset_er e) ?_
    | with_reducible refine mk_by (fun e => State.puts_er e) ?_
    | with_reducible refine mk_by (fun e => State.raise_er e) ?_
    | with_reducible refine ite_mk ?_ ?_
    | with_reducible refine mk_fst (by assumption) ?_
    | dsimp only
    | split

/-- Where an operation answers a state, that state's memory contents keep the canonical form. -/
def OptMem (o : Option State) : Prop := ∀ t, o = some t → memOk t = true

theorem optMem_of {o : Option State} (h : ∀ t, o = some t → memOk t = true) : OptMem o := h

theorem optMem_none : OptMem none := fun _ h => nomatch h

theorem optMem_some {t : State} (h : memOk t = true) : OptMem (some t) := fun _ e => by
  injection e with e
  exact e ▸ h

theorem optMem_ite {c : Prop} [Decidable c] {a b : Option State} (ha : OptMem a) (hb : OptMem b) : OptMem (if c then a else b) := by
  split <;> assumption

theorem mk_frame {k : Nat} {s t : State} (e : erase k t = erase k s) (h : memOk s = true) (hk : within k 67076095 = true := by decide) :
    memOk t = true := mk_of (erase_mono hk e) h

theorem State.took_mk {u w : State} {o : Host.Outcome State Fault Refusal} (hx : ∀ t, memOk w = true → o = .next t → memOk t = true)
    (hu : memOk u = true) (hw : memOk w = true) : memOk (State.took u o) = true := by
  unfold State.took
  split
  · exact hx _ hw rfl
  · exact hu

theorem State.headerWrite_mk {u t : State} {a : Nat} {v : Word} (e : State.headerWrite u a v = some t) (h : memOk u = true) : memOk t = true := by
  suffices g : OptMem (State.headerWrite u a v) from g t e
  clear e t
  unfold State.headerWrite
  dsimp only
  repeat' first
    | with_reducible exact optMem_none
    | with_reducible assumption
    | with_reducible refine optMem_ite ?_ ?_
    | with_reducible refine optMem_some ?_
    | with_reducible refine State.took_mk (fun _ g h => mk_frame (execSoftReset_frame h) g) ?_ ?_
    | with_reducible refine State.took_mk (fun _ g h => mk_frame (execStopModeWrite_frame h) g) ?_ ?_
    | with_reducible refine State.took_mk (fun _ g h => execCtrlRunSet_mk g h) ?_ ?_
    | with_reducible refine State.took_mk (fun _ g h => mk_frame (execCtrlRunClear_frame h) g) ?_ ?_
    | with_reducible refine State.took_mk (fun _ g h => mk_frame (execEvStickyClear_frame h) g) ?_ ?_
    | with_reducible refine State.took_mk (fun _ g h => mk_frame (execEvForce_frame h) g) ?_ ?_
    | with_reducible refine State.took_mk (fun _ g h => mk_frame (execCommitArm_frame h) g) ?_ ?_
    | with_reducible refine State.took_mk (fun _ g h => mk_frame (execCommitGroupWrite_frame h) g) ?_ ?_
    | with_reducible refine mk_by (fun e => State.tick_er e) ?_
    | with_reducible refine mk_by (fun e => State.regWrite_er e) ?_
    | with_reducible refine ite_mk ?_ ?_
    | split

theorem State.sheafWrite_mk {u t : State} {a : Nat} {v : Word} (e : State.sheafWrite u a v = some t) (h : memOk u = true) : memOk t = true := by
  suffices g : OptMem (State.sheafWrite u a v) from g t e
  clear e t
  unfold State.sheafWrite
  dsimp only
  repeat' first
    | with_reducible exact optMem_none
    | with_reducible assumption
    | with_reducible refine optMem_ite ?_ ?_
    | with_reducible refine optMem_some ?_
    | with_reducible refine State.took_mk (fun _ g h => mk_frame (execInOverrideWrite_frame h) g) ?_ ?_
    | with_reducible refine State.took_mk (fun _ g h => mk_frame (execCoefRestore_frame h) g) ?_ ?_
    | with_reducible refine State.took_mk (fun _ g h => execFenceDoorbell_mk g h) ?_ ?_
    | with_reducible refine State.took_mk (fun _ g h => mk_frame (execCoefWrite_frame h) g) ?_ ?_
    | with_reducible refine State.took_mk (fun _ g h => mk_frame (execLutWrite_frame h) g) ?_ ?_
    | with_reducible refine mk_by (fun e => State.tick_er e) ?_
    | with_reducible refine mk_by (fun e => State.regWrite_er e) ?_
    | with_reducible refine ite_mk ?_ ?_
    | split

theorem State.mernakWrite_mk {u t : State} {y : Bool} {a : Nat} {v : Word} (e : State.mernakWrite u y a v = some t) (h : memOk u = true) : memOk t = true := by
  suffices g : OptMem (State.mernakWrite u y a v) from g t e
  clear e t
  unfold State.mernakWrite
  dsimp only
  repeat' first
    | with_reducible exact optMem_none
    | with_reducible assumption
    | with_reducible refine optMem_ite ?_ ?_
    | with_reducible refine optMem_some ?_
    | with_reducible refine State.took_mk (fun _ g h => mk_frame (execMgWdtKick_frame h) g) ?_ ?_
    | with_reducible refine State.took_mk (fun _ g h => mk_frame (execDebugEnabled_frame h) g) ?_ ?_
    | with_reducible refine State.took_mk (fun _ g h => mk_frame (execUpdStart_frame h) g) ?_ ?_
    | with_reducible refine State.took_mk (fun _ g h => mk_frame (execUpdAbort_frame h) g) ?_ ?_
    | with_reducible refine State.took_mk (fun _ g h => mk_frame (execUpdBlockReady_frame h) g) ?_ ?_
    | with_reducible refine State.took_mk (fun _ g h => execDmaAbort_mk g h) ?_ ?_
    | with_reducible refine State.took_mk (fun _ g h => mk_frame (execDmaGo_frame h) g) ?_ ?_
    | with_reducible refine State.took_mk (fun _ g h => mk_frame (execCalRead_frame h) g) ?_ ?_
    | with_reducible refine State.took_mk (fun _ g h => mk_frame (execCalWrite_frame h) g) ?_ ?_
    | with_reducible refine State.took_mk (fun _ g h => mk_frame (execCalUnlock_frame h) g) ?_ ?_
    | with_reducible refine mk_by (fun e => State.tick_er e) ?_
    | with_reducible refine mk_by (fun e => State.regWrite_er e) ?_
    | with_reducible refine ite_mk ?_ ?_
    | split

theorem State.memWrite_mk {u t : State} {a : Nat} {v : Word} (e : State.memWrite u a v = some t) (h : memOk u = true) : memOk t = true := by
  suffices g : OptMem (State.memWrite u a v) from g t e
  clear e t
  unfold State.memWrite
  dsimp only
  repeat' first
    | with_reducible exact optMem_none
    | with_reducible assumption
    | with_reducible refine optMem_ite ?_ ?_
    | with_reducible refine optMem_some ?_
    | with_reducible refine State.took_mk (fun _ g h => execMcFail_mk g h) ?_ ?_
    | with_reducible refine State.took_mk (fun _ g h => execMcRestore_mk g h) ?_ ?_
    | with_reducible refine State.took_mk (fun _ g h => execMcRawGo_mk g h) ?_ ?_
    | with_reducible refine State.took_mk (fun _ g h => execMcRawUnlock_mk g h) ?_ ?_
    | with_reducible refine mk_by (fun e => State.tick_er e) ?_
    | with_reducible refine mk_by (fun e => State.regWrite_er e) ?_
    | with_reducible refine ite_mk ?_ ?_
    | split

theorem State.commandWrite_mk {u t : State} {y a : Nat} {v : Word} (e : State.commandWrite u y a v = some t) (h : memOk u = true) : memOk t = true := by
  suffices g : OptMem (State.commandWrite u y a v) from g t e
  clear e t
  unfold State.commandWrite
  dsimp only
  repeat' first
    | with_reducible exact optMem_none
    | with_reducible assumption
    | with_reducible refine optMem_ite ?_ ?_
    | with_reducible refine optMem_some ?_
    | with_reducible refine mk_by (fun e => State.tick_er e) ?_
    | with_reducible refine mk_by (fun e => State.regWrite_er e) ?_
    | with_reducible refine ite_mk ?_ ?_
    | with_reducible exact optMem_of fun _ e => State.headerWrite_mk e h
    | with_reducible exact State.headerWrite_mk (by assumption) h
    | with_reducible exact optMem_of fun _ e => State.sheafWrite_mk e h
    | with_reducible exact State.sheafWrite_mk (by assumption) h
    | with_reducible exact optMem_of fun _ e => mk_by (fun g => State.storeWrite_er e g) h
    | with_reducible exact mk_by (fun g => State.storeWrite_er (by assumption) g) h
    | with_reducible exact optMem_of fun _ e => State.mernakWrite_mk e h
    | with_reducible exact State.mernakWrite_mk (by assumption) h
    | with_reducible exact optMem_of fun _ e => mk_by (fun g => State.coreWrite_er e g) h
    | with_reducible exact mk_by (fun g => State.coreWrite_er (by assumption) g) h
    | with_reducible exact optMem_of fun _ e => mk_by (fun g => State.ipWrite_er e g) h
    | with_reducible exact mk_by (fun g => State.ipWrite_er (by assumption) g) h
    | with_reducible exact optMem_of fun _ e => State.memWrite_mk e h
    | with_reducible exact State.memWrite_mk (by assumption) h
    | split

theorem State.wordWrite_mk {u : State} {mz : Nat} {a : Nat} {v : Word} (h : memOk u = true) : memOk (State.wordWrite u mz a v) = true := by
  unfold State.wordWrite
  repeat' first
    | with_reducible assumption
    | with_reducible refine State.hostWrite_mk ?_ ?_
    | with_reducible refine State.commandWrite_mk (by assumption) ?_
    | with_reducible refine mk_by (fun e => State.shadowStore_er e) ?_
    | with_reducible refine mk_by (fun e => State.regWrite_er e) ?_
    | with_reducible refine mk_by (fun e => State.structWrite_er e) ?_
    | with_reducible refine mk_fst (by assumption) ?_
    | dsimp only
    | split

theorem State.fabricWrite_mk {u : State} {mz : Nat} {a : Nat} {v : Word} (h : memOk u = true) : memOk (State.fabricWrite u mz a v) = true := by
  unfold State.fabricWrite
  repeat' first
    | with_reducible assumption
    | with_reducible refine mk_by (fun e => State.emit_er e) ?_
    | with_reducible refine State.wordWrite_mk ?_

theorem State.t0Write_mk {u : State} {r : BusReq} (h : memOk u = true) : memOk (State.t0Write u r) = true := by
  unfold State.t0Write
  repeat' first
    | with_reducible assumption
    | with_reducible refine State.fabricWrite_mk ?_
    | with_reducible refine mk_by (fun e => State.bump_er e) ?_
    | with_reducible refine ite_mk ?_ ?_
    | with_reducible refine foldl_mk ?_ fun _ _ _ => ?_
    | with_reducible refine foldl_fst_mk ?_ fun _ _ _ => ?_
    | with_reducible refine mk_fst (by assumption) ?_
    | dsimp only
    | split

theorem State.t2Write_mk {u : State} {r : BusReq} (h : memOk u = true) : memOk (State.t2Write u r) = true := by
  unfold State.t2Write
  repeat' first
    | with_reducible assumption
    | with_reducible refine mk_by (fun e => State.pageWrite_er e) ?_
    | with_reducible refine State.wordWrite_mk ?_
    | with_reducible refine ite_mk ?_ ?_
    | with_reducible refine foldl_mk ?_ fun _ _ _ => ?_
    | with_reducible refine foldl_fst_mk ?_ fun _ _ _ => ?_
    | with_reducible refine mk_fst (by assumption) ?_
    | dsimp only
    | split

theorem State.m2Write_mk {u : State} {l : List (Nat × Byte)} (h : memOk u = true) : memOk (State.m2Write u l) = true := by
  unfold State.m2Write
  repeat' first
    | with_reducible assumption
    | with_reducible refine State.bar2Bytes_mk ?_
    | with_reducible refine mk_by (fun e => State.bar2Fault_er e) ?_
    | with_reducible refine ite_mk ?_ ?_
    | with_reducible refine foldl_mk ?_ fun _ _ _ => ?_
    | with_reducible refine foldl_fst_mk ?_ fun _ _ _ => ?_
    | with_reducible refine mk_fst (by assumption) ?_
    | dsimp only
    | split

theorem State.m2Read_mk {u : State} {a : Nat} {n : Nat} (h : memOk u = true) : memOk (State.m2Read u a n).1 = true := by
  unfold State.m2Read
  repeat' first
    | with_reducible assumption
    | with_reducible refine State.combineFlush_mk ?_
    | with_reducible refine State.spaceRead_mk ?_
    | with_reducible refine ite_mk ?_ ?_
    | with_reducible refine foldl_mk ?_ fun _ _ _ => ?_
    | with_reducible refine foldl_fst_mk ?_ fun _ _ _ => ?_
    | with_reducible refine ite_fst_mk ?_ ?_
    | with_reducible refine mk_fst (by assumption) ?_
    | dsimp only
    | split

theorem State.t1Write_mk {u : State} {r : BusReq} {l : List (Nat × Byte)} (h : memOk u = true) : memOk (State.t1Write u r l) = true := by
  unfold State.t1Write
  repeat' first
    | with_reducible assumption
    | with_reducible refine State.m2Write_mk ?_
    | with_reducible refine State.spaceWrite_mk ?_
    | with_reducible refine ite_mk ?_ ?_
    | with_reducible refine mk_fst (by assumption) ?_
    | dsimp only
    | split

theorem State.t1Read_mk {u : State} {r : BusReq} {a : Nat} {n : Nat} (h : memOk u = true) : memOk (State.t1Read u r a n).1 = true := by
  unfold State.t1Read
  repeat' first
    | with_reducible assumption
    | with_reducible refine State.m2Read_mk ?_
    | with_reducible refine State.spaceRead_mk ?_
    | with_reducible refine ite_mk ?_ ?_
    | with_reducible refine ite_fst_mk ?_ ?_
    | with_reducible refine mk_fst (by assumption) ?_
    | dsimp only
    | split

theorem State.busApply_mk {u : State} {x : BusTx} (h : memOk u = true) : memOk (State.busApply u x).1 = true := by
  unfold State.busApply
  repeat' first
    | with_reducible assumption
    | with_reducible refine State.t0Write_mk ?_
    | with_reducible refine mk_by (fun e => State.wordsRead_er e) ?_
    | with_reducible refine State.t1Write_mk ?_
    | with_reducible refine State.t1Read_mk ?_
    | with_reducible refine State.t2Write_mk ?_
    | with_reducible refine mk_by (fun e => State.t2Read_er e) ?_
    | with_reducible refine mk_by (fun e => State.sramWrite_er e) ?_
    | with_reducible refine mk_by (fun e => State.emit_er e) ?_
    | with_reducible refine mk_by (fun e => t1Reply_er e) ?_
    | with_reducible refine foldl_mk ?_ fun _ _ _ => ?_
    | with_reducible refine foldl_fst_mk ?_ fun _ _ _ => ?_
    | with_reducible refine mk_fst (by assumption) ?_
    | dsimp only
    | split

theorem State.flushOne_mk {u : State} {t : Nat} (h : memOk u = true) : memOk (State.flushOne u t) = true := by
  unfold State.flushOne
  repeat' first
    | with_reducible assumption
    | with_reducible refine State.busApply_mk ?_
    | with_reducible refine mk_by (fun e => State.modBus_er e) ?_
    | with_reducible refine mk_fst (by assumption) ?_
    | dsimp only
    | split

theorem State.busFlush_mk {u : State} {t : Nat} (h : memOk u = true) : memOk (State.busFlush u t) = true := by
  unfold State.busFlush
  repeat' first
    | with_reducible assumption
    | with_reducible refine State.flushOne_mk ?_
    | with_reducible refine ite_mk ?_ ?_
    | with_reducible refine mk_fst (by assumption) ?_
    | dsimp only
    | split

theorem State.busReach_mk {u : State} {t : Fin 9} {mz : Fin 8} {id : Fin 32} (h : memOk u = true) : memOk (State.busReach u t mz id) = true := by
  unfold State.busReach
  repeat' first
    | with_reducible assumption
    | with_reducible refine State.busFlush_mk ?_
    | with_reducible refine ite_mk ?_ ?_
    | with_reducible refine mk_fst (by assumption) ?_
    | dsimp only
    | split

theorem State.porst_mk {u : State} {cold : Bool} : memOk (State.porst u cold) = true := by
  have e : memOk (State.reset.keepRegs u cold) = true := mk_by (fun e => State.keepRegs_er e) rfl
  exact e

theorem State.startHardware_mk {u : State} {b : Boot} (h : memOk u = true) : memOk (State.startHardware u b) = true := by
  unfold State.startHardware
  repeat' first
    | with_reducible assumption
    | with_reducible refine mk_by (fun e => State.modTc_er e) ?_
    | with_reducible refine mk_by (fun e => State.raise_er e) ?_
    | with_reducible refine mk_by (fun e => State.tcRefresh_er e) ?_
    | with_reducible refine State.modMem_mk ?_ ?_
    | exact fun _ hx => hx
    | exact fun _ hx => foldl_ok hx fun _ _ hm => wordSet_ok _ _ _ _ hm
    | exact fun _ hx => burstWrite_ok _ _ _ hx
    | exact fun _ hx => wordSet_ok _ _ _ _ hx
    | exact fun _ hx => ite_ok (foldl_ok hx fun _ _ hm => cellSet_ok _ _ hm) hx
    | exact fun _ _ => rfl
    | with_reducible refine mk_by (fun e => State.put_er e) ?_
    | with_reducible refine mk_by (fun e => State.live_er e) ?_
    | with_reducible refine mk_by (fun e => State.flashStart_er e) ?_
    | with_reducible refine mk_by (fun e => State.ksStart_er e) ?_
    | with_reducible refine mk_by (fun e => State.extend_er e) ?_

theorem State.startDies_mk {u : State} {b : Boot} (h : memOk u = true) : memOk (State.startDies u b) = true := by
  unfold State.startDies
  repeat' first
    | with_reducible assumption
    | with_reducible refine forAll_mk ?_ fun _ _ _ => ?_
    | with_reducible refine mk_by (fun e => State.bringUp_er e) ?_
    | with_reducible refine State.blockRun_mk ?_
    | with_reducible refine State.memTrained_mk ?_
    | with_reducible refine State.selftest_mk ?_
    | with_reducible refine ite_mk ?_ ?_
    | with_reducible refine mk_fst (by assumption) ?_
    | dsimp only
    | split
    | with_reducible refine mk_by (fun e => upd_pwr_er e) ?_

theorem State.startFirmware_mk {u : State} {b : Boot} (h : memOk u = true) : memOk (State.startFirmware u b) = true := by
  unfold State.startFirmware
  repeat' first
    | with_reducible assumption
    | with_reducible refine mk_by (fun e => State.loadCal_er e) ?_
    | with_reducible refine State.startDies_mk ?_
    | with_reducible refine mk_by (fun e => State.startDone_er e) ?_

theorem State.start_mk {u : State} {b : Boot} (h : memOk u = true) : memOk (State.start u b) = true := by
  unfold State.start
  repeat' first
    | with_reducible assumption
    | with_reducible refine State.startHardware_mk ?_
    | with_reducible refine mk_by (fun e => State.bootSel_er e) ?_
    | with_reducible refine mk_by (fun e => State.runImage_er e) ?_
    | with_reducible refine State.startFirmware_mk ?_
    | with_reducible refine mk_by (fun e => State.recovery_er e) ?_
    | with_reducible refine ite_mk ?_ ?_
    | with_reducible refine mk_fst (by assumption) ?_
    | dsimp only
    | split
    | with_reducible refine mk_by (fun e => upd_pwr_er e) ?_

theorem execTargetArbitration_mk {u t : State} {y0 : Fin 9} (h : memOk u = true) (e : execTargetArbitration y0 u = .next t) : memOk t = true := by
  unfold execTargetArbitration at e
  try dsimp only at e
  repeat' (first | refine next_mk e ?_ | split at e)
  repeat' first
    | with_reducible assumption
    | with_reducible refine State.busFlush_mk ?_
    | with_reducible refine mk_by (fun e => State.busLose_er e) ?_
    | with_reducible refine mk_by (fun e => State.modBus_er e) ?_
    | with_reducible refine mk_by (fun e => State.puts_er e) ?_
    | with_reducible refine mk_by (fun e => State.busMove_er e) ?_
    | with_reducible refine ite_mk ?_ ?_
    | with_reducible refine foldl_mk ?_ fun _ _ _ => ?_
    | with_reducible refine foldl_fst_mk ?_ fun _ _ _ => ?_
    | with_reducible refine mk_fst (by assumption) ?_
    | dsimp only
    | split

theorem execBusResponse_mk {u t : State} {y0 : Fin 9} {y1 : Fin 8} {id : Fin 32} {resp : Fin 4} {data : List (BitVec 128)} (h : memOk u = true) (e : execBusResponse y0 y1 id resp data u = .next t) : memOk t = true := by
  unfold execBusResponse at e
  refine next_mk e ?_
  repeat' first
    | with_reducible assumption
    | with_reducible refine State.busReach_mk ?_
    | with_reducible refine mk_by (fun e => State.busRespond_er e) ?_

theorem execBmFault_mk {u t : State} {y0 : BmUe} (h : memOk u = true) (e : execBmFault y0 u = .next t) : memOk t = true := by
  unfold execBmFault at e
  dsimp only at e
  refine next_mk e ?_
  repeat' first
    | with_reducible assumption
    | with_reducible refine mk_by (fun e => State.setFault_er e) ?_
    | with_reducible refine mk_by (fun e => State.raise_er e) ?_
    | with_reducible refine mk_by (fun e => State.modBus_er e) ?_
    | with_reducible refine mk_by (fun e => State.busMove_er e) ?_
    | with_reducible refine State.busFlush_mk ?_
    | with_reducible refine ite_mk ?_ ?_
    | with_reducible refine mk_fst (by assumption) ?_
    | dsimp only
    | split

theorem execPorstAssert_mk {u t : State}  (h : memOk u = true) (e : execPorstAssert u = .next t) : memOk t = true := by
  unfold execPorstAssert at e
  refine next_mk e ?_
  repeat' first
    | with_reducible assumption
    | with_reducible refine State.porst_mk

theorem execPowerGoodReset_mk {u t : State}  (h : memOk u = true) (e : execPowerGoodReset u = .next t) : memOk t = true := by
  unfold execPowerGoodReset at e
  refine next_mk e ?_
  repeat' first
    | with_reducible assumption
    | with_reducible refine State.porst_mk

theorem execColdStart_mk {u t : State} {b : Boot} (h : memOk u = true) (e : execColdStart b u = .next t) : memOk t = true := by
  unfold execColdStart at e
  refine next_mk e ?_
  repeat' first
    | with_reducible assumption
    | with_reducible refine State.start_mk ?_
    | with_reducible refine ite_mk ?_ ?_
    | with_reducible refine mk_fst (by assumption) ?_
    | dsimp only
    | split

theorem execUpdComplete_mk {u t : State} {y0 : UpdEnd} {host : List Byte} (h : memOk u = true) (e : execUpdComplete y0 host u = .next t) : memOk t = true := by
  unfold execUpdComplete at e
  dsimp only at e
  refine next_mk e ?_
  repeat' first
    | with_reducible assumption
    | with_reducible refine mk_by (fun e => State.updEnd_er e) ?_
    | with_reducible refine State.porst_mk
    | with_reducible refine ite_mk ?_ ?_
    | with_reducible refine mk_fst (by assumption) ?_
    | dsimp only
    | split

end Sys2Proof.Machine
end

