-- ==== Sys2Proof/Laws/Parts.lean ====
section
/-! SUPPORT. The updates of one part of the state beside the registers: what each leaves alone, and how its table reads back. -/

set_option Elab.async false

namespace Sys2Proof.Machine

/-! modAud -/

@[simp] theorem State.modAud_regs (s : State) (f : Aud → Aud) : (s.modAud f).regs = s.regs := rfl
@[simp] theorem State.modAud_eff (s : State) (f : Aud → Aud) : (s.modAud f).eff = s.eff := rfl
@[simp] theorem State.modAud_tags (s : State) (f : Aud → Aud) : (s.modAud f).tags = s.tags := rfl
@[simp] theorem State.modAud_grps (s : State) (f : Aud → Aud) : (s.modAud f).grps = s.grps := rfl
@[simp] theorem State.modAud_irq (s : State) (f : Aud → Aud) : (s.modAud f).irq = s.irq := rfl
@[simp] theorem State.modAud_sdiRx (s : State) (f : Aud → Aud) : (s.modAud f).sdiRx = s.sdiRx := rfl
@[simp] theorem State.modAud_sdiTx (s : State) (f : Aud → Aud) : (s.modAud f).sdiTx = s.sdiTx := rfl
@[simp] theorem State.modAud_tc (s : State) (f : Aud → Aud) : (s.modAud f).tc = s.tc := rfl
@[simp] theorem State.modAud_tds (s : State) (f : Aud → Aud) : (s.modAud f).tds = s.tds := rfl
@[simp] theorem State.modAud_floor (s : State) (f : Aud → Aud) : (s.modAud f).floor = s.floor := rfl
@[simp] theorem State.modAud_silo (s : State) (f : Aud → Aud) : (s.modAud f).silo = s.silo := rfl
@[simp] theorem State.modAud_comps (s : State) (f : Aud → Aud) : (s.modAud f).comps = s.comps := rfl
@[simp] theorem State.modAud_conv (s : State) (f : Aud → Aud) : (s.modAud f).conv = s.conv := rfl
@[simp] theorem State.modAud_ip (s : State) (f : Aud → Aud) : (s.modAud f).ip = s.ip := rfl
@[simp] theorem State.modAud_mem (s : State) (f : Aud → Aud) : (s.modAud f).mem = s.mem := rfl
@[simp] theorem State.modAud_bus (s : State) (f : Aud → Aud) : (s.modAud f).bus = s.bus := rfl
@[simp] theorem State.modAud_ks (s : State) (f : Aud → Aud) : (s.modAud f).ks = s.ks := rfl
@[simp] theorem State.modAud_nv (s : State) (f : Aud → Aud) : (s.modAud f).nv = s.nv := rfl
@[simp] theorem State.modAud_ym (s : State) (f : Aud → Aud) : (s.modAud f).ym = s.ym := rfl
@[simp] theorem State.modAud_mg (s : State) (f : Aud → Aud) : (s.modAud f).mg = s.mg := rfl
@[simp] theorem State.modAud_pwr (s : State) (f : Aud → Aud) : (s.modAud f).pwr = s.pwr := rfl
@[simp] theorem State.modAud_readData (s : State) (f : Aud → Aud) : (s.modAud f).readData = s.readData := rfl
@[simp] theorem State.modAud_out (s : State) (f : Aud → Aud) : (s.modAud f).out = s.out := rfl
@[simp] theorem State.modAud_freeCtr (s : State) (f : Aud → Aud) : (s.modAud f).freeCtr = s.freeCtr := rfl
@[simp] theorem State.modAud_pending (s : State) (f : Aud → Aud) : (s.modAud f).pending = s.pending := rfl
@[simp] theorem State.modAud_aud (s : State) (f : Aud → Aud) : (s.modAud f).aud = f s.aud := rfl
@[simp] theorem State.rd_modAud (s : State) (f : Aud → Aud) (a : Nat) : (s.modAud f).rd a = s.rd a := rfl
@[simp] theorem State.get_modAud (s : State) (f : Aud → Aud) (b : Nat) (h : Fld) : (s.modAud f).get b h = s.get b h := rfl
@[simp] theorem State.is_modAud (s : State) (f : Aud → Aud) (b : Nat) (h : Fld) : (s.modAud f).is b h = s.is b h := rfl

/-! modNv -/

@[simp] theorem State.modNv_regs (s : State) (f : Nv → Nv) : (s.modNv f).regs = s.regs := rfl
@[simp] theorem State.modNv_eff (s : State) (f : Nv → Nv) : (s.modNv f).eff = s.eff := rfl
@[simp] theorem State.modNv_tags (s : State) (f : Nv → Nv) : (s.modNv f).tags = s.tags := rfl
@[simp] theorem State.modNv_grps (s : State) (f : Nv → Nv) : (s.modNv f).grps = s.grps := rfl
@[simp] theorem State.modNv_irq (s : State) (f : Nv → Nv) : (s.modNv f).irq = s.irq := rfl
@[simp] theorem State.modNv_sdiRx (s : State) (f : Nv → Nv) : (s.modNv f).sdiRx = s.sdiRx := rfl
@[simp] theorem State.modNv_sdiTx (s : State) (f : Nv → Nv) : (s.modNv f).sdiTx = s.sdiTx := rfl
@[simp] theorem State.modNv_tc (s : State) (f : Nv → Nv) : (s.modNv f).tc = s.tc := rfl
@[simp] theorem State.modNv_tds (s : State) (f : Nv → Nv) : (s.modNv f).tds = s.tds := rfl
@[simp] theorem State.modNv_floor (s : State) (f : Nv → Nv) : (s.modNv f).floor = s.floor := rfl
@[simp] theorem State.modNv_silo (s : State) (f : Nv → Nv) : (s.modNv f).silo = s.silo := rfl
@[simp] theorem State.modNv_comps (s : State) (f : Nv → Nv) : (s.modNv f).comps = s.comps := rfl
@[simp] theorem State.modNv_conv (s : State) (f : Nv → Nv) : (s.modNv f).conv = s.conv := rfl
@[simp] theorem State.modNv_aud (s : State) (f : Nv → Nv) : (s.modNv f).aud = s.aud := rfl
@[simp] theorem State.modNv_ip (s : State) (f : Nv → Nv) : (s.modNv f).ip = s.ip := rfl
@[simp] theorem State.modNv_mem (s : State) (f : Nv → Nv) : (s.modNv f).mem = s.mem := rfl
@[simp] theorem State.modNv_bus (s : State) (f : Nv → Nv) : (s.modNv f).bus = s.bus := rfl
@[simp] theorem State.modNv_ks (s : State) (f : Nv → Nv) : (s.modNv f).ks = s.ks := rfl
@[simp] theorem State.modNv_ym (s : State) (f : Nv → Nv) : (s.modNv f).ym = s.ym := rfl
@[simp] theorem State.modNv_mg (s : State) (f : Nv → Nv) : (s.modNv f).mg = s.mg := rfl
@[simp] theorem State.modNv_pwr (s : State) (f : Nv → Nv) : (s.modNv f).pwr = s.pwr := rfl
@[simp] theorem State.modNv_readData (s : State) (f : Nv → Nv) : (s.modNv f).readData = s.readData := rfl
@[simp] theorem State.modNv_out (s : State) (f : Nv → Nv) : (s.modNv f).out = s.out := rfl
@[simp] theorem State.modNv_freeCtr (s : State) (f : Nv → Nv) : (s.modNv f).freeCtr = s.freeCtr := rfl
@[simp] theorem State.modNv_pending (s : State) (f : Nv → Nv) : (s.modNv f).pending = s.pending := rfl
@[simp] theorem State.modNv_nv (s : State) (f : Nv → Nv) : (s.modNv f).nv = f s.nv := rfl
@[simp] theorem State.rd_modNv (s : State) (f : Nv → Nv) (a : Nat) : (s.modNv f).rd a = s.rd a := rfl
@[simp] theorem State.get_modNv (s : State) (f : Nv → Nv) (b : Nat) (h : Fld) : (s.modNv f).get b h = s.get b h := rfl
@[simp] theorem State.is_modNv (s : State) (f : Nv → Nv) (b : Nat) (h : Fld) : (s.modNv f).is b h = s.is b h := rfl

/-! modKs -/

@[simp] theorem State.modKs_regs (s : State) (f : Ks → Ks) : (s.modKs f).regs = s.regs := rfl
@[simp] theorem State.modKs_eff (s : State) (f : Ks → Ks) : (s.modKs f).eff = s.eff := rfl
@[simp] theorem State.modKs_tags (s : State) (f : Ks → Ks) : (s.modKs f).tags = s.tags := rfl
@[simp] theorem State.modKs_grps (s : State) (f : Ks → Ks) : (s.modKs f).grps = s.grps := rfl
@[simp] theorem State.modKs_irq (s : State) (f : Ks → Ks) : (s.modKs f).irq = s.irq := rfl
@[simp] theorem State.modKs_sdiRx (s : State) (f : Ks → Ks) : (s.modKs f).sdiRx = s.sdiRx := rfl
@[simp] theorem State.modKs_sdiTx (s : State) (f : Ks → Ks) : (s.modKs f).sdiTx = s.sdiTx := rfl
@[simp] theorem State.modKs_tc (s : State) (f : Ks → Ks) : (s.modKs f).tc = s.tc := rfl
@[simp] theorem State.modKs_tds (s : State) (f : Ks → Ks) : (s.modKs f).tds = s.tds := rfl
@[simp] theorem State.modKs_floor (s : State) (f : Ks → Ks) : (s.modKs f).floor = s.floor := rfl
@[simp] theorem State.modKs_silo (s : State) (f : Ks → Ks) : (s.modKs f).silo = s.silo := rfl
@[simp] theorem State.modKs_comps (s : State) (f : Ks → Ks) : (s.modKs f).comps = s.comps := rfl
@[simp] theorem State.modKs_conv (s : State) (f : Ks → Ks) : (s.modKs f).conv = s.conv := rfl
@[simp] theorem State.modKs_aud (s : State) (f : Ks → Ks) : (s.modKs f).aud = s.aud := rfl
@[simp] theorem State.modKs_ip (s : State) (f : Ks → Ks) : (s.modKs f).ip = s.ip := rfl
@[simp] theorem State.modKs_mem (s : State) (f : Ks → Ks) : (s.modKs f).mem = s.mem := rfl
@[simp] theorem State.modKs_bus (s : State) (f : Ks → Ks) : (s.modKs f).bus = s.bus := rfl
@[simp] theorem State.modKs_nv (s : State) (f : Ks → Ks) : (s.modKs f).nv = s.nv := rfl
@[simp] theorem State.modKs_ym (s : State) (f : Ks → Ks) : (s.modKs f).ym = s.ym := rfl
@[simp] theorem State.modKs_mg (s : State) (f : Ks → Ks) : (s.modKs f).mg = s.mg := rfl
@[simp] theorem State.modKs_pwr (s : State) (f : Ks → Ks) : (s.modKs f).pwr = s.pwr := rfl
@[simp] theorem State.modKs_readData (s : State) (f : Ks → Ks) : (s.modKs f).readData = s.readData := rfl
@[simp] theorem State.modKs_out (s : State) (f : Ks → Ks) : (s.modKs f).out = s.out := rfl
@[simp] theorem State.modKs_freeCtr (s : State) (f : Ks → Ks) : (s.modKs f).freeCtr = s.freeCtr := rfl
@[simp] theorem State.modKs_pending (s : State) (f : Ks → Ks) : (s.modKs f).pending = s.pending := rfl
@[simp] theorem State.modKs_ks (s : State) (f : Ks → Ks) : (s.modKs f).ks = f s.ks := rfl
@[simp] theorem State.rd_modKs (s : State) (f : Ks → Ks) (a : Nat) : (s.modKs f).rd a = s.rd a := rfl
@[simp] theorem State.get_modKs (s : State) (f : Ks → Ks) (b : Nat) (h : Fld) : (s.modKs f).get b h = s.get b h := rfl
@[simp] theorem State.is_modKs (s : State) (f : Ks → Ks) (b : Nat) (h : Fld) : (s.modKs f).is b h = s.is b h := rfl

/-! modIp -/

@[simp] theorem State.modIp_regs (s : State) (f : Ip → Ip) : (s.modIp f).regs = s.regs := rfl
@[simp] theorem State.modIp_eff (s : State) (f : Ip → Ip) : (s.modIp f).eff = s.eff := rfl
@[simp] theorem State.modIp_tags (s : State) (f : Ip → Ip) : (s.modIp f).tags = s.tags := rfl
@[simp] theorem State.modIp_grps (s : State) (f : Ip → Ip) : (s.modIp f).grps = s.grps := rfl
@[simp] theorem State.modIp_irq (s : State) (f : Ip → Ip) : (s.modIp f).irq = s.irq := rfl
@[simp] theorem State.modIp_sdiRx (s : State) (f : Ip → Ip) : (s.modIp f).sdiRx = s.sdiRx := rfl
@[simp] theorem State.modIp_sdiTx (s : State) (f : Ip → Ip) : (s.modIp f).sdiTx = s.sdiTx := rfl
@[simp] theorem State.modIp_tc (s : State) (f : Ip → Ip) : (s.modIp f).tc = s.tc := rfl
@[simp] theorem State.modIp_tds (s : State) (f : Ip → Ip) : (s.modIp f).tds = s.tds := rfl
@[simp] theorem State.modIp_floor (s : State) (f : Ip → Ip) : (s.modIp f).floor = s.floor := rfl
@[simp] theorem State.modIp_silo (s : State) (f : Ip → Ip) : (s.modIp f).silo = s.silo := rfl
@[simp] theorem State.modIp_comps (s : State) (f : Ip → Ip) : (s.modIp f).comps = s.comps := rfl
@[simp] theorem State.modIp_conv (s : State) (f : Ip → Ip) : (s.modIp f).conv = s.conv := rfl
@[simp] theorem State.modIp_aud (s : State) (f : Ip → Ip) : (s.modIp f).aud = s.aud := rfl
@[simp] theorem State.modIp_mem (s : State) (f : Ip → Ip) : (s.modIp f).mem = s.mem := rfl
@[simp] theorem State.modIp_bus (s : State) (f : Ip → Ip) : (s.modIp f).bus = s.bus := rfl
@[simp] theorem State.modIp_ks (s : State) (f : Ip → Ip) : (s.modIp f).ks = s.ks := rfl
@[simp] theorem State.modIp_nv (s : State) (f : Ip → Ip) : (s.modIp f).nv = s.nv := rfl
@[simp] theorem State.modIp_ym (s : State) (f : Ip → Ip) : (s.modIp f).ym = s.ym := rfl
@[simp] theorem State.modIp_mg (s : State) (f : Ip → Ip) : (s.modIp f).mg = s.mg := rfl
@[simp] theorem State.modIp_pwr (s : State) (f : Ip → Ip) : (s.modIp f).pwr = s.pwr := rfl
@[simp] theorem State.modIp_readData (s : State) (f : Ip → Ip) : (s.modIp f).readData = s.readData := rfl
@[simp] theorem State.modIp_out (s : State) (f : Ip → Ip) : (s.modIp f).out = s.out := rfl
@[simp] theorem State.modIp_freeCtr (s : State) (f : Ip → Ip) : (s.modIp f).freeCtr = s.freeCtr := rfl
@[simp] theorem State.modIp_pending (s : State) (f : Ip → Ip) : (s.modIp f).pending = s.pending := rfl
@[simp] theorem State.modIp_ip (s : State) (f : Ip → Ip) : (s.modIp f).ip = f s.ip := rfl
@[simp] theorem State.rd_modIp (s : State) (f : Ip → Ip) (a : Nat) : (s.modIp f).rd a = s.rd a := rfl
@[simp] theorem State.get_modIp (s : State) (f : Ip → Ip) (b : Nat) (h : Fld) : (s.modIp f).get b h = s.get b h := rfl
@[simp] theorem State.is_modIp (s : State) (f : Ip → Ip) (b : Nat) (h : Fld) : (s.modIp f).is b h = s.is b h := rfl

/-! modBus -/

@[simp] theorem State.modBus_regs (s : State) (f : Bus → Bus) : (s.modBus f).regs = s.regs := rfl
@[simp] theorem State.modBus_eff (s : State) (f : Bus → Bus) : (s.modBus f).eff = s.eff := rfl
@[simp] theorem State.modBus_tags (s : State) (f : Bus → Bus) : (s.modBus f).tags = s.tags := rfl
@[simp] theorem State.modBus_grps (s : State) (f : Bus → Bus) : (s.modBus f).grps = s.grps := rfl
@[simp] theorem State.modBus_irq (s : State) (f : Bus → Bus) : (s.modBus f).irq = s.irq := rfl
@[simp] theorem State.modBus_sdiRx (s : State) (f : Bus → Bus) : (s.modBus f).sdiRx = s.sdiRx := rfl
@[simp] theorem State.modBus_sdiTx (s : State) (f : Bus → Bus) : (s.modBus f).sdiTx = s.sdiTx := rfl
@[simp] theorem State.modBus_tc (s : State) (f : Bus → Bus) : (s.modBus f).tc = s.tc := rfl
@[simp] theorem State.modBus_tds (s : State) (f : Bus → Bus) : (s.modBus f).tds = s.tds := rfl
@[simp] theorem State.modBus_floor (s : State) (f : Bus → Bus) : (s.modBus f).floor = s.floor := rfl
@[simp] theorem State.modBus_silo (s : State) (f : Bus → Bus) : (s.modBus f).silo = s.silo := rfl
@[simp] theorem State.modBus_comps (s : State) (f : Bus → Bus) : (s.modBus f).comps = s.comps := rfl
@[simp] theorem State.modBus_conv (s : State) (f : Bus → Bus) : (s.modBus f).conv = s.conv := rfl
@[simp] theorem State.modBus_aud (s : State) (f : Bus → Bus) : (s.modBus f).aud = s.aud := rfl
@[simp] theorem State.modBus_ip (s : State) (f : Bus → Bus) : (s.modBus f).ip = s.ip := rfl
@[simp] theorem State.modBus_mem (s : State) (f : Bus → Bus) : (s.modBus f).mem = s.mem := rfl
@[simp] theorem State.modBus_ks (s : State) (f : Bus → Bus) : (s.modBus f).ks = s.ks := rfl
@[simp] theorem State.modBus_nv (s : State) (f : Bus → Bus) : (s.modBus f).nv = s.nv := rfl
@[simp] theorem State.modBus_ym (s : State) (f : Bus → Bus) : (s.modBus f).ym = s.ym := rfl
@[simp] theorem State.modBus_mg (s : State) (f : Bus → Bus) : (s.modBus f).mg = s.mg := rfl
@[simp] theorem State.modBus_pwr (s : State) (f : Bus → Bus) : (s.modBus f).pwr = s.pwr := rfl
@[simp] theorem State.modBus_readData (s : State) (f : Bus → Bus) : (s.modBus f).readData = s.readData := rfl
@[simp] theorem State.modBus_out (s : State) (f : Bus → Bus) : (s.modBus f).out = s.out := rfl
@[simp] theorem State.modBus_freeCtr (s : State) (f : Bus → Bus) : (s.modBus f).freeCtr = s.freeCtr := rfl
@[simp] theorem State.modBus_pending (s : State) (f : Bus → Bus) : (s.modBus f).pending = s.pending := rfl
@[simp] theorem State.modBus_bus (s : State) (f : Bus → Bus) : (s.modBus f).bus = f s.bus := rfl
@[simp] theorem State.rd_modBus (s : State) (f : Bus → Bus) (a : Nat) : (s.modBus f).rd a = s.rd a := rfl
@[simp] theorem State.get_modBus (s : State) (f : Bus → Bus) (b : Nat) (h : Fld) : (s.modBus f).get b h = s.get b h := rfl
@[simp] theorem State.is_modBus (s : State) (f : Bus → Bus) (b : Nat) (h : Fld) : (s.modBus f).is b h = s.is b h := rfl

/-! modMem -/

@[simp] theorem State.modMem_regs (s : State) (f : Mem → Mem) : (s.modMem f).regs = s.regs := rfl
@[simp] theorem State.modMem_eff (s : State) (f : Mem → Mem) : (s.modMem f).eff = s.eff := rfl
@[simp] theorem State.modMem_tags (s : State) (f : Mem → Mem) : (s.modMem f).tags = s.tags := rfl
@[simp] theorem State.modMem_grps (s : State) (f : Mem → Mem) : (s.modMem f).grps = s.grps := rfl
@[simp] theorem State.modMem_irq (s : State) (f : Mem → Mem) : (s.modMem f).irq = s.irq := rfl
@[simp] theorem State.modMem_sdiRx (s : State) (f : Mem → Mem) : (s.modMem f).sdiRx = s.sdiRx := rfl
@[simp] theorem State.modMem_sdiTx (s : State) (f : Mem → Mem) : (s.modMem f).sdiTx = s.sdiTx := rfl
@[simp] theorem State.modMem_tc (s : State) (f : Mem → Mem) : (s.modMem f).tc = s.tc := rfl
@[simp] theorem State.modMem_tds (s : State) (f : Mem → Mem) : (s.modMem f).tds = s.tds := rfl
@[simp] theorem State.modMem_floor (s : State) (f : Mem → Mem) : (s.modMem f).floor = s.floor := rfl
@[simp] theorem State.modMem_silo (s : State) (f : Mem → Mem) : (s.modMem f).silo = s.silo := rfl
@[simp] theorem State.modMem_comps (s : State) (f : Mem → Mem) : (s.modMem f).comps = s.comps := rfl
@[simp] theorem State.modMem_conv (s : State) (f : Mem → Mem) : (s.modMem f).conv = s.conv := rfl
@[simp] theorem State.modMem_aud (s : State) (f : Mem → Mem) : (s.modMem f).aud = s.aud := rfl
@[simp] theorem State.modMem_ip (s : State) (f : Mem → Mem) : (s.modMem f).ip = s.ip := rfl
@[simp] theorem State.modMem_bus (s : State) (f : Mem → Mem) : (s.modMem f).bus = s.bus := rfl
@[simp] theorem State.modMem_ks (s : State) (f : Mem → Mem) : (s.modMem f).ks = s.ks := rfl
@[simp] theorem State.modMem_nv (s : State) (f : Mem → Mem) : (s.modMem f).nv = s.nv := rfl
@[simp] theorem State.modMem_ym (s : State) (f : Mem → Mem) : (s.modMem f).ym = s.ym := rfl
@[simp] theorem State.modMem_mg (s : State) (f : Mem → Mem) : (s.modMem f).mg = s.mg := rfl
@[simp] theorem State.modMem_pwr (s : State) (f : Mem → Mem) : (s.modMem f).pwr = s.pwr := rfl
@[simp] theorem State.modMem_readData (s : State) (f : Mem → Mem) : (s.modMem f).readData = s.readData := rfl
@[simp] theorem State.modMem_out (s : State) (f : Mem → Mem) : (s.modMem f).out = s.out := rfl
@[simp] theorem State.modMem_freeCtr (s : State) (f : Mem → Mem) : (s.modMem f).freeCtr = s.freeCtr := rfl
@[simp] theorem State.modMem_pending (s : State) (f : Mem → Mem) : (s.modMem f).pending = s.pending := rfl
@[simp] theorem State.modMem_mem (s : State) (f : Mem → Mem) : (s.modMem f).mem = f s.mem := rfl
@[simp] theorem State.rd_modMem (s : State) (f : Mem → Mem) (a : Nat) : (s.modMem f).rd a = s.rd a := rfl
@[simp] theorem State.get_modMem (s : State) (f : Mem → Mem) (b : Nat) (h : Fld) : (s.modMem f).get b h = s.get b h := rfl
@[simp] theorem State.is_modMem (s : State) (f : Mem → Mem) (b : Nat) (h : Fld) : (s.modMem f).is b h = s.is b h := rfl

/-! modMg -/

@[simp] theorem State.modMg_regs (s : State) (f : Mg → Mg) : (s.modMg f).regs = s.regs := rfl
@[simp] theorem State.modMg_eff (s : State) (f : Mg → Mg) : (s.modMg f).eff = s.eff := rfl
@[simp] theorem State.modMg_tags (s : State) (f : Mg → Mg) : (s.modMg f).tags = s.tags := rfl
@[simp] theorem State.modMg_grps (s : State) (f : Mg → Mg) : (s.modMg f).grps = s.grps := rfl
@[simp] theorem State.modMg_irq (s : State) (f : Mg → Mg) : (s.modMg f).irq = s.irq := rfl
@[simp] theorem State.modMg_sdiRx (s : State) (f : Mg → Mg) : (s.modMg f).sdiRx = s.sdiRx := rfl
@[simp] theorem State.modMg_sdiTx (s : State) (f : Mg → Mg) : (s.modMg f).sdiTx = s.sdiTx := rfl
@[simp] theorem State.modMg_tc (s : State) (f : Mg → Mg) : (s.modMg f).tc = s.tc := rfl
@[simp] theorem State.modMg_tds (s : State) (f : Mg → Mg) : (s.modMg f).tds = s.tds := rfl
@[simp] theorem State.modMg_floor (s : State) (f : Mg → Mg) : (s.modMg f).floor = s.floor := rfl
@[simp] theorem State.modMg_silo (s : State) (f : Mg → Mg) : (s.modMg f).silo = s.silo := rfl
@[simp] theorem State.modMg_comps (s : State) (f : Mg → Mg) : (s.modMg f).comps = s.comps := rfl
@[simp] theorem State.modMg_conv (s : State) (f : Mg → Mg) : (s.modMg f).conv = s.conv := rfl
@[simp] theorem State.modMg_aud (s : State) (f : Mg → Mg) : (s.modMg f).aud = s.aud := rfl
@[simp] theorem State.modMg_ip (s : State) (f : Mg → Mg) : (s.modMg f).ip = s.ip := rfl
@[simp] theorem State.modMg_mem (s : State) (f : Mg → Mg) : (s.modMg f).mem = s.mem := rfl
@[simp] theorem State.modMg_bus (s : State) (f : Mg → Mg) : (s.modMg f).bus = s.bus := rfl
@[simp] theorem State.modMg_ks (s : State) (f : Mg → Mg) : (s.modMg f).ks = s.ks := rfl
@[simp] theorem State.modMg_nv (s : State) (f : Mg → Mg) : (s.modMg f).nv = s.nv := rfl
@[simp] theorem State.modMg_ym (s : State) (f : Mg → Mg) : (s.modMg f).ym = s.ym := rfl
@[simp] theorem State.modMg_pwr (s : State) (f : Mg → Mg) : (s.modMg f).pwr = s.pwr := rfl
@[simp] theorem State.modMg_readData (s : State) (f : Mg → Mg) : (s.modMg f).readData = s.readData := rfl
@[simp] theorem State.modMg_out (s : State) (f : Mg → Mg) : (s.modMg f).out = s.out := rfl
@[simp] theorem State.modMg_freeCtr (s : State) (f : Mg → Mg) : (s.modMg f).freeCtr = s.freeCtr := rfl
@[simp] theorem State.modMg_pending (s : State) (f : Mg → Mg) : (s.modMg f).pending = s.pending := rfl
@[simp] theorem State.modMg_mg (s : State) (f : Mg → Mg) : (s.modMg f).mg = f s.mg := rfl
@[simp] theorem State.rd_modMg (s : State) (f : Mg → Mg) (a : Nat) : (s.modMg f).rd a = s.rd a := rfl
@[simp] theorem State.get_modMg (s : State) (f : Mg → Mg) (b : Nat) (h : Fld) : (s.modMg f).get b h = s.get b h := rfl
@[simp] theorem State.is_modMg (s : State) (f : Mg → Mg) (b : Nat) (h : Fld) : (s.modMg f).is b h = s.is b h := rfl

/-! modSilo -/

@[simp] theorem State.modSilo_regs (s : State) (f : Silo → Silo) : (s.modSilo f).regs = s.regs := rfl
@[simp] theorem State.modSilo_eff (s : State) (f : Silo → Silo) : (s.modSilo f).eff = s.eff := rfl
@[simp] theorem State.modSilo_tags (s : State) (f : Silo → Silo) : (s.modSilo f).tags = s.tags := rfl
@[simp] theorem State.modSilo_grps (s : State) (f : Silo → Silo) : (s.modSilo f).grps = s.grps := rfl
@[simp] theorem State.modSilo_irq (s : State) (f : Silo → Silo) : (s.modSilo f).irq = s.irq := rfl
@[simp] theorem State.modSilo_sdiRx (s : State) (f : Silo → Silo) : (s.modSilo f).sdiRx = s.sdiRx := rfl
@[simp] theorem State.modSilo_sdiTx (s : State) (f : Silo → Silo) : (s.modSilo f).sdiTx = s.sdiTx := rfl
@[simp] theorem State.modSilo_tc (s : State) (f : Silo → Silo) : (s.modSilo f).tc = s.tc := rfl
@[simp] theorem State.modSilo_tds (s : State) (f : Silo → Silo) : (s.modSilo f).tds = s.tds := rfl
@[simp] theorem State.modSilo_floor (s : State) (f : Silo → Silo) : (s.modSilo f).floor = s.floor := rfl
@[simp] theorem State.modSilo_comps (s : State) (f : Silo → Silo) : (s.modSilo f).comps = s.comps := rfl
@[simp] theorem State.modSilo_conv (s : State) (f : Silo → Silo) : (s.modSilo f).conv = s.conv := rfl
@[simp] theorem State.modSilo_aud (s : State) (f : Silo → Silo) : (s.modSilo f).aud = s.aud := rfl
@[simp] theorem State.modSilo_ip (s : State) (f : Silo → Silo) : (s.modSilo f).ip = s.ip := rfl
@[simp] theorem State.modSilo_mem (s : State) (f : Silo → Silo) : (s.modSilo f).mem = s.mem := rfl
@[simp] theorem State.modSilo_bus (s : State) (f : Silo → Silo) : (s.modSilo f).bus = s.bus := rfl
@[simp] theorem State.modSilo_ks (s : State) (f : Silo → Silo) : (s.modSilo f).ks = s.ks := rfl
@[simp] theorem State.modSilo_nv (s : State) (f : Silo → Silo) : (s.modSilo f).nv = s.nv := rfl
@[simp] theorem State.modSilo_ym (s : State) (f : Silo → Silo) : (s.modSilo f).ym = s.ym := rfl
@[simp] theorem State.modSilo_mg (s : State) (f : Silo → Silo) : (s.modSilo f).mg = s.mg := rfl
@[simp] theorem State.modSilo_pwr (s : State) (f : Silo → Silo) : (s.modSilo f).pwr = s.pwr := rfl
@[simp] theorem State.modSilo_readData (s : State) (f : Silo → Silo) : (s.modSilo f).readData = s.readData := rfl
@[simp] theorem State.modSilo_out (s : State) (f : Silo → Silo) : (s.modSilo f).out = s.out := rfl
@[simp] theorem State.modSilo_freeCtr (s : State) (f : Silo → Silo) : (s.modSilo f).freeCtr = s.freeCtr := rfl
@[simp] theorem State.modSilo_pending (s : State) (f : Silo → Silo) : (s.modSilo f).pending = s.pending := rfl
@[simp] theorem State.modSilo_silo (s : State) (f : Silo → Silo) : (s.modSilo f).silo = f s.silo := rfl
@[simp] theorem State.rd_modSilo (s : State) (f : Silo → Silo) (a : Nat) : (s.modSilo f).rd a = s.rd a := rfl
@[simp] theorem State.get_modSilo (s : State) (f : Silo → Silo) (b : Nat) (h : Fld) : (s.modSilo f).get b h = s.get b h := rfl
@[simp] theorem State.is_modSilo (s : State) (f : Silo → Silo) (b : Nat) (h : Fld) : (s.modSilo f).is b h = s.is b h := rfl

/-! modTc -/

@[simp] theorem State.modTc_regs (s : State) (f : Tc → Tc) : (s.modTc f).regs = s.regs := rfl
@[simp] theorem State.modTc_eff (s : State) (f : Tc → Tc) : (s.modTc f).eff = s.eff := rfl
@[simp] theorem State.modTc_tags (s : State) (f : Tc → Tc) : (s.modTc f).tags = s.tags := rfl
@[simp] theorem State.modTc_grps (s : State) (f : Tc → Tc) : (s.modTc f).grps = s.grps := rfl
@[simp] theorem State.modTc_irq (s : State) (f : Tc → Tc) : (s.modTc f).irq = s.irq := rfl
@[simp] theorem State.modTc_sdiRx (s : State) (f : Tc → Tc) : (s.modTc f).sdiRx = s.sdiRx := rfl
@[simp] theorem State.modTc_sdiTx (s : State) (f : Tc → Tc) : (s.modTc f).sdiTx = s.sdiTx := rfl
@[simp] theorem State.modTc_tds (s : State) (f : Tc → Tc) : (s.modTc f).tds = s.tds := rfl
@[simp] theorem State.modTc_floor (s : State) (f : Tc → Tc) : (s.modTc f).floor = s.floor := rfl
@[simp] theorem State.modTc_silo (s : State) (f : Tc → Tc) : (s.modTc f).silo = s.silo := rfl
@[simp] theorem State.modTc_comps (s : State) (f : Tc → Tc) : (s.modTc f).comps = s.comps := rfl
@[simp] theorem State.modTc_conv (s : State) (f : Tc → Tc) : (s.modTc f).conv = s.conv := rfl
@[simp] theorem State.modTc_aud (s : State) (f : Tc → Tc) : (s.modTc f).aud = s.aud := rfl
@[simp] theorem State.modTc_ip (s : State) (f : Tc → Tc) : (s.modTc f).ip = s.ip := rfl
@[simp] theorem State.modTc_mem (s : State) (f : Tc → Tc) : (s.modTc f).mem = s.mem := rfl
@[simp] theorem State.modTc_bus (s : State) (f : Tc → Tc) : (s.modTc f).bus = s.bus := rfl
@[simp] theorem State.modTc_ks (s : State) (f : Tc → Tc) : (s.modTc f).ks = s.ks := rfl
@[simp] theorem State.modTc_nv (s : State) (f : Tc → Tc) : (s.modTc f).nv = s.nv := rfl
@[simp] theorem State.modTc_ym (s : State) (f : Tc → Tc) : (s.modTc f).ym = s.ym := rfl
@[simp] theorem State.modTc_mg (s : State) (f : Tc → Tc) : (s.modTc f).mg = s.mg := rfl
@[simp] theorem State.modTc_pwr (s : State) (f : Tc → Tc) : (s.modTc f).pwr = s.pwr := rfl
@[simp] theorem State.modTc_readData (s : State) (f : Tc → Tc) : (s.modTc f).readData = s.readData := rfl
@[simp] theorem State.modTc_out (s : State) (f : Tc → Tc) : (s.modTc f).out = s.out := rfl
@[simp] theorem State.modTc_freeCtr (s : State) (f : Tc → Tc) : (s.modTc f).freeCtr = s.freeCtr := rfl
@[simp] theorem State.modTc_pending (s : State) (f : Tc → Tc) : (s.modTc f).pending = s.pending := rfl
@[simp] theorem State.modTc_tc (s : State) (f : Tc → Tc) : (s.modTc f).tc = f s.tc := rfl
@[simp] theorem State.rd_modTc (s : State) (f : Tc → Tc) (a : Nat) : (s.modTc f).rd a = s.rd a := rfl
@[simp] theorem State.get_modTc (s : State) (f : Tc → Tc) (b : Nat) (h : Fld) : (s.modTc f).get b h = s.get b h := rfl
@[simp] theorem State.is_modTc (s : State) (f : Tc → Tc) (b : Nat) (h : Fld) : (s.modTc f).is b h = s.is b h := rfl

/-! modYm -/

@[simp] theorem State.modYm_regs (s : State) (f : Ym → Ym) : (s.modYm f).regs = s.regs := rfl
@[simp] theorem State.modYm_eff (s : State) (f : Ym → Ym) : (s.modYm f).eff = s.eff := rfl
@[simp] theorem State.modYm_tags (s : State) (f : Ym → Ym) : (s.modYm f).tags = s.tags := rfl
@[simp] theorem State.modYm_grps (s : State) (f : Ym → Ym) : (s.modYm f).grps = s.grps := rfl
@[simp] theorem State.modYm_irq (s : State) (f : Ym → Ym) : (s.modYm f).irq = s.irq := rfl
@[simp] theorem State.modYm_sdiRx (s : State) (f : Ym → Ym) : (s.modYm f).sdiRx = s.sdiRx := rfl
@[simp] theorem State.modYm_sdiTx (s : State) (f : Ym → Ym) : (s.modYm f).sdiTx = s.sdiTx := rfl
@[simp] theorem State.modYm_tc (s : State) (f : Ym → Ym) : (s.modYm f).tc = s.tc := rfl
@[simp] theorem State.modYm_tds (s : State) (f : Ym → Ym) : (s.modYm f).tds = s.tds := rfl
@[simp] theorem State.modYm_floor (s : State) (f : Ym → Ym) : (s.modYm f).floor = s.floor := rfl
@[simp] theorem State.modYm_silo (s : State) (f : Ym → Ym) : (s.modYm f).silo = s.silo := rfl
@[simp] theorem State.modYm_comps (s : State) (f : Ym → Ym) : (s.modYm f).comps = s.comps := rfl
@[simp] theorem State.modYm_conv (s : State) (f : Ym → Ym) : (s.modYm f).conv = s.conv := rfl
@[simp] theorem State.modYm_aud (s : State) (f : Ym → Ym) : (s.modYm f).aud = s.aud := rfl
@[simp] theorem State.modYm_ip (s : State) (f : Ym → Ym) : (s.modYm f).ip = s.ip := rfl
@[simp] theorem State.modYm_mem (s : State) (f : Ym → Ym) : (s.modYm f).mem = s.mem := rfl
@[simp] theorem State.modYm_bus (s : State) (f : Ym → Ym) : (s.modYm f).bus = s.bus := rfl
@[simp] theorem State.modYm_ks (s : State) (f : Ym → Ym) : (s.modYm f).ks = s.ks := rfl
@[simp] theorem State.modYm_nv (s : State) (f : Ym → Ym) : (s.modYm f).nv = s.nv := rfl
@[simp] theorem State.modYm_mg (s : State) (f : Ym → Ym) : (s.modYm f).mg = s.mg := rfl
@[simp] theorem State.modYm_pwr (s : State) (f : Ym → Ym) : (s.modYm f).pwr = s.pwr := rfl
@[simp] theorem State.modYm_readData (s : State) (f : Ym → Ym) : (s.modYm f).readData = s.readData := rfl
@[simp] theorem State.modYm_out (s : State) (f : Ym → Ym) : (s.modYm f).out = s.out := rfl
@[simp] theorem State.modYm_freeCtr (s : State) (f : Ym → Ym) : (s.modYm f).freeCtr = s.freeCtr := rfl
@[simp] theorem State.modYm_pending (s : State) (f : Ym → Ym) : (s.modYm f).pending = s.pending := rfl
@[simp] theorem State.modYm_ym (s : State) (f : Ym → Ym) : (s.modYm f).ym = f s.ym := rfl
@[simp] theorem State.rd_modYm (s : State) (f : Ym → Ym) (a : Nat) : (s.modYm f).rd a = s.rd a := rfl
@[simp] theorem State.get_modYm (s : State) (f : Ym → Ym) (b : Nat) (h : Fld) : (s.modYm f).get b h = s.get b h := rfl
@[simp] theorem State.is_modYm (s : State) (f : Ym → Ym) (b : Nat) (h : Fld) : (s.modYm f).is b h = s.is b h := rfl

/-! setTd -/

@[simp] theorem State.setTd_regs (s : State) (d : Nat) (x : Td) : (s.setTd d x).regs = s.regs := rfl
@[simp] theorem State.setTd_eff (s : State) (d : Nat) (x : Td) : (s.setTd d x).eff = s.eff := rfl
@[simp] theorem State.setTd_tags (s : State) (d : Nat) (x : Td) : (s.setTd d x).tags = s.tags := rfl
@[simp] theorem State.setTd_grps (s : State) (d : Nat) (x : Td) : (s.setTd d x).grps = s.grps := rfl
@[simp] theorem State.setTd_irq (s : State) (d : Nat) (x : Td) : (s.setTd d x).irq = s.irq := rfl
@[simp] theorem State.setTd_sdiRx (s : State) (d : Nat) (x : Td) : (s.setTd d x).sdiRx = s.sdiRx := rfl
@[simp] theorem State.setTd_sdiTx (s : State) (d : Nat) (x : Td) : (s.setTd d x).sdiTx = s.sdiTx := rfl
@[simp] theorem State.setTd_tc (s : State) (d : Nat) (x : Td) : (s.setTd d x).tc = s.tc := rfl
@[simp] theorem State.setTd_floor (s : State) (d : Nat) (x : Td) : (s.setTd d x).floor = s.floor := rfl
@[simp] theorem State.setTd_silo (s : State) (d : Nat) (x : Td) : (s.setTd d x).silo = s.silo := rfl
@[simp] theorem State.setTd_comps (s : State) (d : Nat) (x : Td) : (s.setTd d x).comps = s.comps := rfl
@[simp] theorem State.setTd_conv (s : State) (d : Nat) (x : Td) : (s.setTd d x).conv = s.conv := rfl
@[simp] theorem State.setTd_aud (s : State) (d : Nat) (x : Td) : (s.setTd d x).aud = s.aud := rfl
@[simp] theorem State.setTd_ip (s : State) (d : Nat) (x : Td) : (s.setTd d x).ip = s.ip := rfl
@[simp] theorem State.setTd_mem (s : State) (d : Nat) (x : Td) : (s.setTd d x).mem = s.mem := rfl
@[simp] theorem State.setTd_bus (s : State) (d : Nat) (x : Td) : (s.setTd d x).bus = s.bus := rfl
@[simp] theorem State.setTd_ks (s : State) (d : Nat) (x : Td) : (s.setTd d x).ks = s.ks := rfl
@[simp] theorem State.setTd_nv (s : State) (d : Nat) (x : Td) : (s.setTd d x).nv = s.nv := rfl
@[simp] theorem State.setTd_ym (s : State) (d : Nat) (x : Td) : (s.setTd d x).ym = s.ym := rfl
@[simp] theorem State.setTd_mg (s : State) (d : Nat) (x : Td) : (s.setTd d x).mg = s.mg := rfl
@[simp] theorem State.setTd_pwr (s : State) (d : Nat) (x : Td) : (s.setTd d x).pwr = s.pwr := rfl
@[simp] theorem State.setTd_readData (s : State) (d : Nat) (x : Td) : (s.setTd d x).readData = s.readData := rfl
@[simp] theorem State.setTd_out (s : State) (d : Nat) (x : Td) : (s.setTd d x).out = s.out := rfl
@[simp] theorem State.setTd_freeCtr (s : State) (d : Nat) (x : Td) : (s.setTd d x).freeCtr = s.freeCtr := rfl
@[simp] theorem State.setTd_pending (s : State) (d : Nat) (x : Td) : (s.setTd d x).pending = s.pending := rfl
@[simp] theorem State.rd_setTd (s : State) (d : Nat) (x : Td) (a : Nat) : (s.setTd d x).rd a = s.rd a := rfl
@[simp] theorem State.get_setTd (s : State) (d : Nat) (x : Td) (b : Nat) (h : Fld) : (s.setTd d x).get b h = s.get b h := rfl
@[simp] theorem State.is_setTd (s : State) (d : Nat) (x : Td) (b : Nat) (h : Fld) : (s.setTd d x).is b h = s.is b h := rfl

/-! setRx -/

@[simp] theorem State.setRx_regs (s : State) (g : Nat) (x : Rx) : (s.setRx g x).regs = s.regs := rfl
@[simp] theorem State.setRx_eff (s : State) (g : Nat) (x : Rx) : (s.setRx g x).eff = s.eff := rfl
@[simp] theorem State.setRx_tags (s : State) (g : Nat) (x : Rx) : (s.setRx g x).tags = s.tags := rfl
@[simp] theorem State.setRx_grps (s : State) (g : Nat) (x : Rx) : (s.setRx g x).grps = s.grps := rfl
@[simp] theorem State.setRx_irq (s : State) (g : Nat) (x : Rx) : (s.setRx g x).irq = s.irq := rfl
@[simp] theorem State.setRx_sdiTx (s : State) (g : Nat) (x : Rx) : (s.setRx g x).sdiTx = s.sdiTx := rfl
@[simp] theorem State.setRx_tc (s : State) (g : Nat) (x : Rx) : (s.setRx g x).tc = s.tc := rfl
@[simp] theorem State.setRx_tds (s : State) (g : Nat) (x : Rx) : (s.setRx g x).tds = s.tds := rfl
@[simp] theorem State.setRx_floor (s : State) (g : Nat) (x : Rx) : (s.setRx g x).floor = s.floor := rfl
@[simp] theorem State.setRx_silo (s : State) (g : Nat) (x : Rx) : (s.setRx g x).silo = s.silo := rfl
@[simp] theorem State.setRx_comps (s : State) (g : Nat) (x : Rx) : (s.setRx g x).comps = s.comps := rfl
@[simp] theorem State.setRx_conv (s : State) (g : Nat) (x : Rx) : (s.setRx g x).conv = s.conv := rfl
@[simp] theorem State.setRx_aud (s : State) (g : Nat) (x : Rx) : (s.setRx g x).aud = s.aud := rfl
@[simp] theorem State.setRx_ip (s : State) (g : Nat) (x : Rx) : (s.setRx g x).ip = s.ip := rfl
@[simp] theorem State.setRx_mem (s : State) (g : Nat) (x : Rx) : (s.setRx g x).mem = s.mem := rfl
@[simp] theorem State.setRx_bus (s : State) (g : Nat) (x : Rx) : (s.setRx g x).bus = s.bus := rfl
@[simp] theorem State.setRx_ks (s : State) (g : Nat) (x : Rx) : (s.setRx g x).ks = s.ks := rfl
@[simp] theorem State.setRx_nv (s : State) (g : Nat) (x : Rx) : (s.setRx g x).nv = s.nv := rfl
@[simp] theorem State.setRx_ym (s : State) (g : Nat) (x : Rx) : (s.setRx g x).ym = s.ym := rfl
@[simp] theorem State.setRx_mg (s : State) (g : Nat) (x : Rx) : (s.setRx g x).mg = s.mg := rfl
@[simp] theorem State.setRx_pwr (s : State) (g : Nat) (x : Rx) : (s.setRx g x).pwr = s.pwr := rfl
@[simp] theorem State.setRx_readData (s : State) (g : Nat) (x : Rx) : (s.setRx g x).readData = s.readData := rfl
@[simp] theorem State.setRx_out (s : State) (g : Nat) (x : Rx) : (s.setRx g x).out = s.out := rfl
@[simp] theorem State.setRx_freeCtr (s : State) (g : Nat) (x : Rx) : (s.setRx g x).freeCtr = s.freeCtr := rfl
@[simp] theorem State.setRx_pending (s : State) (g : Nat) (x : Rx) : (s.setRx g x).pending = s.pending := rfl
@[simp] theorem State.rd_setRx (s : State) (g : Nat) (x : Rx) (a : Nat) : (s.setRx g x).rd a = s.rd a := rfl
@[simp] theorem State.get_setRx (s : State) (g : Nat) (x : Rx) (b : Nat) (h : Fld) : (s.setRx g x).get b h = s.get b h := rfl
@[simp] theorem State.is_setRx (s : State) (g : Nat) (x : Rx) (b : Nat) (h : Fld) : (s.setRx g x).is b h = s.is b h := rfl

/-! setTx -/

@[simp] theorem State.setTx_regs (s : State) (g : Nat) (x : Tx) : (s.setTx g x).regs = s.regs := rfl
@[simp] theorem State.setTx_eff (s : State) (g : Nat) (x : Tx) : (s.setTx g x).eff = s.eff := rfl
@[simp] theorem State.setTx_tags (s : State) (g : Nat) (x : Tx) : (s.setTx g x).tags = s.tags := rfl
@[simp] theorem State.setTx_grps (s : State) (g : Nat) (x : Tx) : (s.setTx g x).grps = s.grps := rfl
@[simp] theorem State.setTx_irq (s : State) (g : Nat) (x : Tx) : (s.setTx g x).irq = s.irq := rfl
@[simp] theorem State.setTx_sdiRx (s : State) (g : Nat) (x : Tx) : (s.setTx g x).sdiRx = s.sdiRx := rfl
@[simp] theorem State.setTx_tc (s : State) (g : Nat) (x : Tx) : (s.setTx g x).tc = s.tc := rfl
@[simp] theorem State.setTx_tds (s : State) (g : Nat) (x : Tx) : (s.setTx g x).tds = s.tds := rfl
@[simp] theorem State.setTx_floor (s : State) (g : Nat) (x : Tx) : (s.setTx g x).floor = s.floor := rfl
@[simp] theorem State.setTx_silo (s : State) (g : Nat) (x : Tx) : (s.setTx g x).silo = s.silo := rfl
@[simp] theorem State.setTx_comps (s : State) (g : Nat) (x : Tx) : (s.setTx g x).comps = s.comps := rfl
@[simp] theorem State.setTx_conv (s : State) (g : Nat) (x : Tx) : (s.setTx g x).conv = s.conv := rfl
@[simp] theorem State.setTx_aud (s : State) (g : Nat) (x : Tx) : (s.setTx g x).aud = s.aud := rfl
@[simp] theorem State.setTx_ip (s : State) (g : Nat) (x : Tx) : (s.setTx g x).ip = s.ip := rfl
@[simp] theorem State.setTx_mem (s : State) (g : Nat) (x : Tx) : (s.setTx g x).mem = s.mem := rfl
@[simp] theorem State.setTx_bus (s : State) (g : Nat) (x : Tx) : (s.setTx g x).bus = s.bus := rfl
@[simp] theorem State.setTx_ks (s : State) (g : Nat) (x : Tx) : (s.setTx g x).ks = s.ks := rfl
@[simp] theorem State.setTx_nv (s : State) (g : Nat) (x : Tx) : (s.setTx g x).nv = s.nv := rfl
@[simp] theorem State.setTx_ym (s : State) (g : Nat) (x : Tx) : (s.setTx g x).ym = s.ym := rfl
@[simp] theorem State.setTx_mg (s : State) (g : Nat) (x : Tx) : (s.setTx g x).mg = s.mg := rfl
@[simp] theorem State.setTx_pwr (s : State) (g : Nat) (x : Tx) : (s.setTx g x).pwr = s.pwr := rfl
@[simp] theorem State.setTx_readData (s : State) (g : Nat) (x : Tx) : (s.setTx g x).readData = s.readData := rfl
@[simp] theorem State.setTx_out (s : State) (g : Nat) (x : Tx) : (s.setTx g x).out = s.out := rfl
@[simp] theorem State.setTx_freeCtr (s : State) (g : Nat) (x : Tx) : (s.setTx g x).freeCtr = s.freeCtr := rfl
@[simp] theorem State.setTx_pending (s : State) (g : Nat) (x : Tx) : (s.setTx g x).pending = s.pending := rfl
@[simp] theorem State.rd_setTx (s : State) (g : Nat) (x : Tx) (a : Nat) : (s.setTx g x).rd a = s.rd a := rfl
@[simp] theorem State.get_setTx (s : State) (g : Nat) (x : Tx) (b : Nat) (h : Fld) : (s.setTx g x).get b h = s.get b h := rfl
@[simp] theorem State.is_setTx (s : State) (g : Nat) (x : Tx) (b : Nat) (h : Fld) : (s.setTx g x).is b h = s.is b h := rfl

/-! setComp -/

@[simp] theorem State.setComp_regs (s : State) (g : Nat) (x : Comp) : (s.setComp g x).regs = s.regs := rfl
@[simp] theorem State.setComp_eff (s : State) (g : Nat) (x : Comp) : (s.setComp g x).eff = s.eff := rfl
@[simp] theorem State.setComp_tags (s : State) (g : Nat) (x : Comp) : (s.setComp g x).tags = s.tags := rfl
@[simp] theorem State.setComp_grps (s : State) (g : Nat) (x : Comp) : (s.setComp g x).grps = s.grps := rfl
@[simp] theorem State.setComp_irq (s : State) (g : Nat) (x : Comp) : (s.setComp g x).irq = s.irq := rfl
@[simp] theorem State.setComp_sdiRx (s : State) (g : Nat) (x : Comp) : (s.setComp g x).sdiRx = s.sdiRx := rfl
@[simp] theorem State.setComp_sdiTx (s : State) (g : Nat) (x : Comp) : (s.setComp g x).sdiTx = s.sdiTx := rfl
@[simp] theorem State.setComp_tc (s : State) (g : Nat) (x : Comp) : (s.setComp g x).tc = s.tc := rfl
@[simp] theorem State.setComp_tds (s : State) (g : Nat) (x : Comp) : (s.setComp g x).tds = s.tds := rfl
@[simp] theorem State.setComp_floor (s : State) (g : Nat) (x : Comp) : (s.setComp g x).floor = s.floor := rfl
@[simp] theorem State.setComp_silo (s : State) (g : Nat) (x : Comp) : (s.setComp g x).silo = s.silo := rfl
@[simp] theorem State.setComp_conv (s : State) (g : Nat) (x : Comp) : (s.setComp g x).conv = s.conv := rfl
@[simp] theorem State.setComp_aud (s : State) (g : Nat) (x : Comp) : (s.setComp g x).aud = s.aud := rfl
@[simp] theorem State.setComp_ip (s : State) (g : Nat) (x : Comp) : (s.setComp g x).ip = s.ip := rfl
@[simp] theorem State.setComp_mem (s : State) (g : Nat) (x : Comp) : (s.setComp g x).mem = s.mem := rfl
@[simp] theorem State.setComp_bus (s : State) (g : Nat) (x : Comp) : (s.setComp g x).bus = s.bus := rfl
@[simp] theorem State.setComp_ks (s : State) (g : Nat) (x : Comp) : (s.setComp g x).ks = s.ks := rfl
@[simp] theorem State.setComp_nv (s : State) (g : Nat) (x : Comp) : (s.setComp g x).nv = s.nv := rfl
@[simp] theorem State.setComp_ym (s : State) (g : Nat) (x : Comp) : (s.setComp g x).ym = s.ym := rfl
@[simp] theorem State.setComp_mg (s : State) (g : Nat) (x : Comp) : (s.setComp g x).mg = s.mg := rfl
@[simp] theorem State.setComp_pwr (s : State) (g : Nat) (x : Comp) : (s.setComp g x).pwr = s.pwr := rfl
@[simp] theorem State.setComp_readData (s : State) (g : Nat) (x : Comp) : (s.setComp g x).readData = s.readData := rfl
@[simp] theorem State.setComp_out (s : State) (g : Nat) (x : Comp) : (s.setComp g x).out = s.out := rfl
@[simp] theorem State.setComp_freeCtr (s : State) (g : Nat) (x : Comp) : (s.setComp g x).freeCtr = s.freeCtr := rfl
@[simp] theorem State.setComp_pending (s : State) (g : Nat) (x : Comp) : (s.setComp g x).pending = s.pending := rfl
@[simp] theorem State.rd_setComp (s : State) (g : Nat) (x : Comp) (a : Nat) : (s.setComp g x).rd a = s.rd a := rfl
@[simp] theorem State.get_setComp (s : State) (g : Nat) (x : Comp) (b : Nat) (h : Fld) : (s.setComp g x).get b h = s.get b h := rfl
@[simp] theorem State.is_setComp (s : State) (g : Nat) (x : Comp) (b : Nat) (h : Fld) : (s.setComp g x).is b h = s.is b h := rfl

/-! setLayer -/

@[simp] theorem State.setLayer_regs (s : State) (g k : Nat) (x : LayerSt) : (s.setLayer g k x).regs = s.regs := rfl
@[simp] theorem State.setLayer_eff (s : State) (g k : Nat) (x : LayerSt) : (s.setLayer g k x).eff = s.eff := rfl
@[simp] theorem State.setLayer_tags (s : State) (g k : Nat) (x : LayerSt) : (s.setLayer g k x).tags = s.tags := rfl
@[simp] theorem State.setLayer_grps (s : State) (g k : Nat) (x : LayerSt) : (s.setLayer g k x).grps = s.grps := rfl
@[simp] theorem State.setLayer_irq (s : State) (g k : Nat) (x : LayerSt) : (s.setLayer g k x).irq = s.irq := rfl
@[simp] theorem State.setLayer_sdiRx (s : State) (g k : Nat) (x : LayerSt) : (s.setLayer g k x).sdiRx = s.sdiRx := rfl
@[simp] theorem State.setLayer_sdiTx (s : State) (g k : Nat) (x : LayerSt) : (s.setLayer g k x).sdiTx = s.sdiTx := rfl
@[simp] theorem State.setLayer_tc (s : State) (g k : Nat) (x : LayerSt) : (s.setLayer g k x).tc = s.tc := rfl
@[simp] theorem State.setLayer_tds (s : State) (g k : Nat) (x : LayerSt) : (s.setLayer g k x).tds = s.tds := rfl
@[simp] theorem State.setLayer_floor (s : State) (g k : Nat) (x : LayerSt) : (s.setLayer g k x).floor = s.floor := rfl
@[simp] theorem State.setLayer_silo (s : State) (g k : Nat) (x : LayerSt) : (s.setLayer g k x).silo = s.silo := rfl
@[simp] theorem State.setLayer_conv (s : State) (g k : Nat) (x : LayerSt) : (s.setLayer g k x).conv = s.conv := rfl
@[simp] theorem State.setLayer_aud (s : State) (g k : Nat) (x : LayerSt) : (s.setLayer g k x).aud = s.aud := rfl
@[simp] theorem State.setLayer_ip (s : State) (g k : Nat) (x : LayerSt) : (s.setLayer g k x).ip = s.ip := rfl
@[simp] theorem State.setLayer_mem (s : State) (g k : Nat) (x : LayerSt) : (s.setLayer g k x).mem = s.mem := rfl
@[simp] theorem State.setLayer_bus (s : State) (g k : Nat) (x : LayerSt) : (s.setLayer g k x).bus = s.bus := rfl
@[simp] theorem State.setLayer_ks (s : State) (g k : Nat) (x : LayerSt) : (s.setLayer g k x).ks = s.ks := rfl
@[simp] theorem State.setLayer_nv (s : State) (g k : Nat) (x : LayerSt) : (s.setLayer g k x).nv = s.nv := rfl
@[simp] theorem State.setLayer_ym (s : State) (g k : Nat) (x : LayerSt) : (s.setLayer g k x).ym = s.ym := rfl
@[simp] theorem State.setLayer_mg (s : State) (g k : Nat) (x : LayerSt) : (s.setLayer g k x).mg = s.mg := rfl
@[simp] theorem State.setLayer_pwr (s : State) (g k : Nat) (x : LayerSt) : (s.setLayer g k x).pwr = s.pwr := rfl
@[simp] theorem State.setLayer_readData (s : State) (g k : Nat) (x : LayerSt) : (s.setLayer g k x).readData = s.readData := rfl
@[simp] theorem State.setLayer_out (s : State) (g k : Nat) (x : LayerSt) : (s.setLayer g k x).out = s.out := rfl
@[simp] theorem State.setLayer_freeCtr (s : State) (g k : Nat) (x : LayerSt) : (s.setLayer g k x).freeCtr = s.freeCtr := rfl
@[simp] theorem State.setLayer_pending (s : State) (g k : Nat) (x : LayerSt) : (s.setLayer g k x).pending = s.pending := rfl
@[simp] theorem State.rd_setLayer (s : State) (g k : Nat) (x : LayerSt) (a : Nat) : (s.setLayer g k x).rd a = s.rd a := rfl
@[simp] theorem State.get_setLayer (s : State) (g k : Nat) (x : LayerSt) (b : Nat) (h : Fld) : (s.setLayer g k x).get b h = s.get b h := rfl
@[simp] theorem State.is_setLayer (s : State) (g k : Nat) (x : LayerSt) (b : Nat) (h : Fld) : (s.setLayer g k x).is b h = s.is b h := rfl

/-! setCtx -/

@[simp] theorem State.setCtx_regs (s : State) (e c : Nat) (x : Ctx) : (s.setCtx e c x).regs = s.regs := rfl
@[simp] theorem State.setCtx_eff (s : State) (e c : Nat) (x : Ctx) : (s.setCtx e c x).eff = s.eff := rfl
@[simp] theorem State.setCtx_tags (s : State) (e c : Nat) (x : Ctx) : (s.setCtx e c x).tags = s.tags := rfl
@[simp] theorem State.setCtx_grps (s : State) (e c : Nat) (x : Ctx) : (s.setCtx e c x).grps = s.grps := rfl
@[simp] theorem State.setCtx_irq (s : State) (e c : Nat) (x : Ctx) : (s.setCtx e c x).irq = s.irq := rfl
@[simp] theorem State.setCtx_sdiRx (s : State) (e c : Nat) (x : Ctx) : (s.setCtx e c x).sdiRx = s.sdiRx := rfl
@[simp] theorem State.setCtx_sdiTx (s : State) (e c : Nat) (x : Ctx) : (s.setCtx e c x).sdiTx = s.sdiTx := rfl
@[simp] theorem State.setCtx_tc (s : State) (e c : Nat) (x : Ctx) : (s.setCtx e c x).tc = s.tc := rfl
@[simp] theorem State.setCtx_tds (s : State) (e c : Nat) (x : Ctx) : (s.setCtx e c x).tds = s.tds := rfl
@[simp] theorem State.setCtx_floor (s : State) (e c : Nat) (x : Ctx) : (s.setCtx e c x).floor = s.floor := rfl
@[simp] theorem State.setCtx_silo (s : State) (e c : Nat) (x : Ctx) : (s.setCtx e c x).silo = s.silo := rfl
@[simp] theorem State.setCtx_comps (s : State) (e c : Nat) (x : Ctx) : (s.setCtx e c x).comps = s.comps := rfl
@[simp] theorem State.setCtx_aud (s : State) (e c : Nat) (x : Ctx) : (s.setCtx e c x).aud = s.aud := rfl
@[simp] theorem State.setCtx_ip (s : State) (e c : Nat) (x : Ctx) : (s.setCtx e c x).ip = s.ip := rfl
@[simp] theorem State.setCtx_mem (s : State) (e c : Nat) (x : Ctx) : (s.setCtx e c x).mem = s.mem := rfl
@[simp] theorem State.setCtx_bus (s : State) (e c : Nat) (x : Ctx) : (s.setCtx e c x).bus = s.bus := rfl
@[simp] theorem State.setCtx_ks (s : State) (e c : Nat) (x : Ctx) : (s.setCtx e c x).ks = s.ks := rfl
@[simp] theorem State.setCtx_nv (s : State) (e c : Nat) (x : Ctx) : (s.setCtx e c x).nv = s.nv := rfl
@[simp] theorem State.setCtx_ym (s : State) (e c : Nat) (x : Ctx) : (s.setCtx e c x).ym = s.ym := rfl
@[simp] theorem State.setCtx_mg (s : State) (e c : Nat) (x : Ctx) : (s.setCtx e c x).mg = s.mg := rfl
@[simp] theorem State.setCtx_pwr (s : State) (e c : Nat) (x : Ctx) : (s.setCtx e c x).pwr = s.pwr := rfl
@[simp] theorem State.setCtx_readData (s : State) (e c : Nat) (x : Ctx) : (s.setCtx e c x).readData = s.readData := rfl
@[simp] theorem State.setCtx_out (s : State) (e c : Nat) (x : Ctx) : (s.setCtx e c x).out = s.out := rfl
@[simp] theorem State.setCtx_freeCtr (s : State) (e c : Nat) (x : Ctx) : (s.setCtx e c x).freeCtr = s.freeCtr := rfl
@[simp] theorem State.setCtx_pending (s : State) (e c : Nat) (x : Ctx) : (s.setCtx e c x).pending = s.pending := rfl
@[simp] theorem State.rd_setCtx (s : State) (e c : Nat) (x : Ctx) (a : Nat) : (s.setCtx e c x).rd a = s.rd a := rfl
@[simp] theorem State.get_setCtx (s : State) (e c : Nat) (x : Ctx) (b : Nat) (h : Fld) : (s.setCtx e c x).get b h = s.get b h := rfl
@[simp] theorem State.is_setCtx (s : State) (e c : Nat) (x : Ctx) (b : Nat) (h : Fld) : (s.setCtx e c x).is b h = s.is b h := rfl

/-! setRoute -/

@[simp] theorem State.setRoute_regs (s : State) (t i : Nat) (x : RouteX) : (s.setRoute t i x).regs = s.regs := rfl
@[simp] theorem State.setRoute_eff (s : State) (t i : Nat) (x : RouteX) : (s.setRoute t i x).eff = s.eff := rfl
@[simp] theorem State.setRoute_tags (s : State) (t i : Nat) (x : RouteX) : (s.setRoute t i x).tags = s.tags := rfl
@[simp] theorem State.setRoute_grps (s : State) (t i : Nat) (x : RouteX) : (s.setRoute t i x).grps = s.grps := rfl
@[simp] theorem State.setRoute_irq (s : State) (t i : Nat) (x : RouteX) : (s.setRoute t i x).irq = s.irq := rfl
@[simp] theorem State.setRoute_sdiRx (s : State) (t i : Nat) (x : RouteX) : (s.setRoute t i x).sdiRx = s.sdiRx := rfl
@[simp] theorem State.setRoute_sdiTx (s : State) (t i : Nat) (x : RouteX) : (s.setRoute t i x).sdiTx = s.sdiTx := rfl
@[simp] theorem State.setRoute_tc (s : State) (t i : Nat) (x : RouteX) : (s.setRoute t i x).tc = s.tc := rfl
@[simp] theorem State.setRoute_tds (s : State) (t i : Nat) (x : RouteX) : (s.setRoute t i x).tds = s.tds := rfl
@[simp] theorem State.setRoute_silo (s : State) (t i : Nat) (x : RouteX) : (s.setRoute t i x).silo = s.silo := rfl
@[simp] theorem State.setRoute_comps (s : State) (t i : Nat) (x : RouteX) : (s.setRoute t i x).comps = s.comps := rfl
@[simp] theorem State.setRoute_conv (s : State) (t i : Nat) (x : RouteX) : (s.setRoute t i x).conv = s.conv := rfl
@[simp] theorem State.setRoute_aud (s : State) (t i : Nat) (x : RouteX) : (s.setRoute t i x).aud = s.aud := rfl
@[simp] theorem State.setRoute_ip (s : State) (t i : Nat) (x : RouteX) : (s.setRoute t i x).ip = s.ip := rfl
@[simp] theorem State.setRoute_mem (s : State) (t i : Nat) (x : RouteX) : (s.setRoute t i x).mem = s.mem := rfl
@[simp] theorem State.setRoute_bus (s : State) (t i : Nat) (x : RouteX) : (s.setRoute t i x).bus = s.bus := rfl
@[simp] theorem State.setRoute_ks (s : State) (t i : Nat) (x : RouteX) : (s.setRoute t i x).ks = s.ks := rfl
@[simp] theorem State.setRoute_nv (s : State) (t i : Nat) (x : RouteX) : (s.setRoute t i x).nv = s.nv := rfl
@[simp] theorem State.setRoute_ym (s : State) (t i : Nat) (x : RouteX) : (s.setRoute t i x).ym = s.ym := rfl
@[simp] theorem State.setRoute_mg (s : State) (t i : Nat) (x : RouteX) : (s.setRoute t i x).mg = s.mg := rfl
@[simp] theorem State.setRoute_pwr (s : State) (t i : Nat) (x : RouteX) : (s.setRoute t i x).pwr = s.pwr := rfl
@[simp] theorem State.setRoute_readData (s : State) (t i : Nat) (x : RouteX) : (s.setRoute t i x).readData = s.readData := rfl
@[simp] theorem State.setRoute_out (s : State) (t i : Nat) (x : RouteX) : (s.setRoute t i x).out = s.out := rfl
@[simp] theorem State.setRoute_freeCtr (s : State) (t i : Nat) (x : RouteX) : (s.setRoute t i x).freeCtr = s.freeCtr := rfl
@[simp] theorem State.setRoute_pending (s : State) (t i : Nat) (x : RouteX) : (s.setRoute t i x).pending = s.pending := rfl
@[simp] theorem State.rd_setRoute (s : State) (t i : Nat) (x : RouteX) (a : Nat) : (s.setRoute t i x).rd a = s.rd a := rfl
@[simp] theorem State.get_setRoute (s : State) (t i : Nat) (x : RouteX) (b : Nat) (h : Fld) : (s.setRoute t i x).get b h = s.get b h := rfl
@[simp] theorem State.is_setRoute (s : State) (t i : Nat) (x : RouteX) (b : Nat) (h : Fld) : (s.setRoute t i x).is b h = s.is b h := rfl

/-! setRing -/

@[simp] theorem State.setRing_regs (s : State) (k : Nat) (x : Ring) : (s.setRing k x).regs = s.regs := rfl
@[simp] theorem State.setRing_eff (s : State) (k : Nat) (x : Ring) : (s.setRing k x).eff = s.eff := rfl
@[simp] theorem State.setRing_tags (s : State) (k : Nat) (x : Ring) : (s.setRing k x).tags = s.tags := rfl
@[simp] theorem State.setRing_grps (s : State) (k : Nat) (x : Ring) : (s.setRing k x).grps = s.grps := rfl
@[simp] theorem State.setRing_irq (s : State) (k : Nat) (x : Ring) : (s.setRing k x).irq = s.irq := rfl
@[simp] theorem State.setRing_sdiRx (s : State) (k : Nat) (x : Ring) : (s.setRing k x).sdiRx = s.sdiRx := rfl
@[simp] theorem State.setRing_sdiTx (s : State) (k : Nat) (x : Ring) : (s.setRing k x).sdiTx = s.sdiTx := rfl
@[simp] theorem State.setRing_tc (s : State) (k : Nat) (x : Ring) : (s.setRing k x).tc = s.tc := rfl
@[simp] theorem State.setRing_tds (s : State) (k : Nat) (x : Ring) : (s.setRing k x).tds = s.tds := rfl
@[simp] theorem State.setRing_floor (s : State) (k : Nat) (x : Ring) : (s.setRing k x).floor = s.floor := rfl
@[simp] theorem State.setRing_comps (s : State) (k : Nat) (x : Ring) : (s.setRing k x).comps = s.comps := rfl
@[simp] theorem State.setRing_conv (s : State) (k : Nat) (x : Ring) : (s.setRing k x).conv = s.conv := rfl
@[simp] theorem State.setRing_aud (s : State) (k : Nat) (x : Ring) : (s.setRing k x).aud = s.aud := rfl
@[simp] theorem State.setRing_ip (s : State) (k : Nat) (x : Ring) : (s.setRing k x).ip = s.ip := rfl
@[simp] theorem State.setRing_mem (s : State) (k : Nat) (x : Ring) : (s.setRing k x).mem = s.mem := rfl
@[simp] theorem State.setRing_bus (s : State) (k : Nat) (x : Ring) : (s.setRing k x).bus = s.bus := rfl
@[simp] theorem State.setRing_ks (s : State) (k : Nat) (x : Ring) : (s.setRing k x).ks = s.ks := rfl
@[simp] theorem State.setRing_nv (s : State) (k : Nat) (x : Ring) : (s.setRing k x).nv = s.nv := rfl
@[simp] theorem State.setRing_ym (s : State) (k : Nat) (x : Ring) : (s.setRing k x).ym = s.ym := rfl
@[simp] theorem State.setRing_mg (s : State) (k : Nat) (x : Ring) : (s.setRing k x).mg = s.mg := rfl
@[simp] theorem State.setRing_pwr (s : State) (k : Nat) (x : Ring) : (s.setRing k x).pwr = s.pwr := rfl
@[simp] theorem State.setRing_readData (s : State) (k : Nat) (x : Ring) : (s.setRing k x).readData = s.readData := rfl
@[simp] theorem State.setRing_out (s : State) (k : Nat) (x : Ring) : (s.setRing k x).out = s.out := rfl
@[simp] theorem State.setRing_freeCtr (s : State) (k : Nat) (x : Ring) : (s.setRing k x).freeCtr = s.freeCtr := rfl
@[simp] theorem State.setRing_pending (s : State) (k : Nat) (x : Ring) : (s.setRing k x).pending = s.pending := rfl
@[simp] theorem State.rd_setRing (s : State) (k : Nat) (x : Ring) (a : Nat) : (s.setRing k x).rd a = s.rd a := rfl
@[simp] theorem State.get_setRing (s : State) (k : Nat) (x : Ring) (b : Nat) (h : Fld) : (s.setRing k x).get b h = s.get b h := rfl
@[simp] theorem State.is_setRing (s : State) (k : Nat) (x : Ring) (b : Nat) (h : Fld) : (s.setRing k x).is b h = s.is b h := rfl

/-! setReader -/

@[simp] theorem State.setReader_regs (s : State) (d c : Nat) (x : Reader) : (s.setReader d c x).regs = s.regs := rfl
@[simp] theorem State.setReader_eff (s : State) (d c : Nat) (x : Reader) : (s.setReader d c x).eff = s.eff := rfl
@[simp] theorem State.setReader_tags (s : State) (d c : Nat) (x : Reader) : (s.setReader d c x).tags = s.tags := rfl
@[simp] theorem State.setReader_grps (s : State) (d c : Nat) (x : Reader) : (s.setReader d c x).grps = s.grps := rfl
@[simp] theorem State.setReader_irq (s : State) (d c : Nat) (x : Reader) : (s.setReader d c x).irq = s.irq := rfl
@[simp] theorem State.setReader_sdiRx (s : State) (d c : Nat) (x : Reader) : (s.setReader d c x).sdiRx = s.sdiRx := rfl
@[simp] theorem State.setReader_sdiTx (s : State) (d c : Nat) (x : Reader) : (s.setReader d c x).sdiTx = s.sdiTx := rfl
@[simp] theorem State.setReader_tc (s : State) (d c : Nat) (x : Reader) : (s.setReader d c x).tc = s.tc := rfl
@[simp] theorem State.setReader_tds (s : State) (d c : Nat) (x : Reader) : (s.setReader d c x).tds = s.tds := rfl
@[simp] theorem State.setReader_floor (s : State) (d c : Nat) (x : Reader) : (s.setReader d c x).floor = s.floor := rfl
@[simp] theorem State.setReader_comps (s : State) (d c : Nat) (x : Reader) : (s.setReader d c x).comps = s.comps := rfl
@[simp] theorem State.setReader_conv (s : State) (d c : Nat) (x : Reader) : (s.setReader d c x).conv = s.conv := rfl
@[simp] theorem State.setReader_aud (s : State) (d c : Nat) (x : Reader) : (s.setReader d c x).aud = s.aud := rfl
@[simp] theorem State.setReader_ip (s : State) (d c : Nat) (x : Reader) : (s.setReader d c x).ip = s.ip := rfl
@[simp] theorem State.setReader_mem (s : State) (d c : Nat) (x : Reader) : (s.setReader d c x).mem = s.mem := rfl
@[simp] theorem State.setReader_bus (s : State) (d c : Nat) (x : Reader) : (s.setReader d c x).bus = s.bus := rfl
@[simp] theorem State.setReader_ks (s : State) (d c : Nat) (x : Reader) : (s.setReader d c x).ks = s.ks := rfl
@[simp] theorem State.setReader_nv (s : State) (d c : Nat) (x : Reader) : (s.setReader d c x).nv = s.nv := rfl
@[simp] theorem State.setReader_ym (s : State) (d c : Nat) (x : Reader) : (s.setReader d c x).ym = s.ym := rfl
@[simp] theorem State.setReader_mg (s : State) (d c : Nat) (x : Reader) : (s.setReader d c x).mg = s.mg := rfl
@[simp] theorem State.setReader_pwr (s : State) (d c : Nat) (x : Reader) : (s.setReader d c x).pwr = s.pwr := rfl
@[simp] theorem State.setReader_readData (s : State) (d c : Nat) (x : Reader) : (s.setReader d c x).readData = s.readData := rfl
@[simp] theorem State.setReader_out (s : State) (d c : Nat) (x : Reader) : (s.setReader d c x).out = s.out := rfl
@[simp] theorem State.setReader_freeCtr (s : State) (d c : Nat) (x : Reader) : (s.setReader d c x).freeCtr = s.freeCtr := rfl
@[simp] theorem State.setReader_pending (s : State) (d c : Nat) (x : Reader) : (s.setReader d c x).pending = s.pending := rfl
@[simp] theorem State.rd_setReader (s : State) (d c : Nat) (x : Reader) (a : Nat) : (s.setReader d c x).rd a = s.rd a := rfl
@[simp] theorem State.get_setReader (s : State) (d c : Nat) (x : Reader) (b : Nat) (h : Fld) : (s.setReader d c x).get b h = s.get b h := rfl
@[simp] theorem State.is_setReader (s : State) (d c : Nat) (x : Reader) (b : Nat) (h : Fld) : (s.setReader d c x).is b h = s.is b h := rfl

/-! setBins -/

@[simp] theorem State.setBins_regs (s : State) (k : Nat) (v : Nat × List Nat) : (s.setBins k v).regs = s.regs := rfl
@[simp] theorem State.setBins_eff (s : State) (k : Nat) (v : Nat × List Nat) : (s.setBins k v).eff = s.eff := rfl
@[simp] theorem State.setBins_tags (s : State) (k : Nat) (v : Nat × List Nat) : (s.setBins k v).tags = s.tags := rfl
@[simp] theorem State.setBins_grps (s : State) (k : Nat) (v : Nat × List Nat) : (s.setBins k v).grps = s.grps := rfl
@[simp] theorem State.setBins_irq (s : State) (k : Nat) (v : Nat × List Nat) : (s.setBins k v).irq = s.irq := rfl
@[simp] theorem State.setBins_sdiRx (s : State) (k : Nat) (v : Nat × List Nat) : (s.setBins k v).sdiRx = s.sdiRx := rfl
@[simp] theorem State.setBins_sdiTx (s : State) (k : Nat) (v : Nat × List Nat) : (s.setBins k v).sdiTx = s.sdiTx := rfl
@[simp] theorem State.setBins_tc (s : State) (k : Nat) (v : Nat × List Nat) : (s.setBins k v).tc = s.tc := rfl
@[simp] theorem State.setBins_tds (s : State) (k : Nat) (v : Nat × List Nat) : (s.setBins k v).tds = s.tds := rfl
@[simp] theorem State.setBins_floor (s : State) (k : Nat) (v : Nat × List Nat) : (s.setBins k v).floor = s.floor := rfl
@[simp] theorem State.setBins_comps (s : State) (k : Nat) (v : Nat × List Nat) : (s.setBins k v).comps = s.comps := rfl
@[simp] theorem State.setBins_conv (s : State) (k : Nat) (v : Nat × List Nat) : (s.setBins k v).conv = s.conv := rfl
@[simp] theorem State.setBins_aud (s : State) (k : Nat) (v : Nat × List Nat) : (s.setBins k v).aud = s.aud := rfl
@[simp] theorem State.setBins_ip (s : State) (k : Nat) (v : Nat × List Nat) : (s.setBins k v).ip = s.ip := rfl
@[simp] theorem State.setBins_mem (s : State) (k : Nat) (v : Nat × List Nat) : (s.setBins k v).mem = s.mem := rfl
@[simp] theorem State.setBins_bus (s : State) (k : Nat) (v : Nat × List Nat) : (s.setBins k v).bus = s.bus := rfl
@[simp] theorem State.setBins_ks (s : State) (k : Nat) (v : Nat × List Nat) : (s.setBins k v).ks = s.ks := rfl
@[simp] theorem State.setBins_nv (s : State) (k : Nat) (v : Nat × List Nat) : (s.setBins k v).nv = s.nv := rfl
@[simp] theorem State.setBins_ym (s : State) (k : Nat) (v : Nat × List Nat) : (s.setBins k v).ym = s.ym := rfl
@[simp] theorem State.setBins_mg (s : State) (k : Nat) (v : Nat × List Nat) : (s.setBins k v).mg = s.mg := rfl
@[simp] theorem State.setBins_pwr (s : State) (k : Nat) (v : Nat × List Nat) : (s.setBins k v).pwr = s.pwr := rfl
@[simp] theorem State.setBins_readData (s : State) (k : Nat) (v : Nat × List Nat) : (s.setBins k v).readData = s.readData := rfl
@[simp] theorem State.setBins_out (s : State) (k : Nat) (v : Nat × List Nat) : (s.setBins k v).out = s.out := rfl
@[simp] theorem State.setBins_freeCtr (s : State) (k : Nat) (v : Nat × List Nat) : (s.setBins k v).freeCtr = s.freeCtr := rfl
@[simp] theorem State.setBins_pending (s : State) (k : Nat) (v : Nat × List Nat) : (s.setBins k v).pending = s.pending := rfl
@[simp] theorem State.rd_setBins (s : State) (k : Nat) (v : Nat × List Nat) (a : Nat) : (s.setBins k v).rd a = s.rd a := rfl
@[simp] theorem State.get_setBins (s : State) (k : Nat) (v : Nat × List Nat) (b : Nat) (h : Fld) : (s.setBins k v).get b h = s.get b h := rfl
@[simp] theorem State.is_setBins (s : State) (k : Nat) (v : Nat × List Nat) (b : Nat) (h : Fld) : (s.setBins k v).is b h = s.is b h := rfl

/-! setDest -/

@[simp] theorem State.setDest_regs (s : State) (d : Nat) (x : DestSt) : (s.setDest d x).regs = s.regs := rfl
@[simp] theorem State.setDest_eff (s : State) (d : Nat) (x : DestSt) : (s.setDest d x).eff = s.eff := rfl
@[simp] theorem State.setDest_tags (s : State) (d : Nat) (x : DestSt) : (s.setDest d x).tags = s.tags := rfl
@[simp] theorem State.setDest_grps (s : State) (d : Nat) (x : DestSt) : (s.setDest d x).grps = s.grps := rfl
@[simp] theorem State.setDest_irq (s : State) (d : Nat) (x : DestSt) : (s.setDest d x).irq = s.irq := rfl
@[simp] theorem State.setDest_sdiRx (s : State) (d : Nat) (x : DestSt) : (s.setDest d x).sdiRx = s.sdiRx := rfl
@[simp] theorem State.setDest_sdiTx (s : State) (d : Nat) (x : DestSt) : (s.setDest d x).sdiTx = s.sdiTx := rfl
@[simp] theorem State.setDest_tc (s : State) (d : Nat) (x : DestSt) : (s.setDest d x).tc = s.tc := rfl
@[simp] theorem State.setDest_tds (s : State) (d : Nat) (x : DestSt) : (s.setDest d x).tds = s.tds := rfl
@[simp] theorem State.setDest_floor (s : State) (d : Nat) (x : DestSt) : (s.setDest d x).floor = s.floor := rfl
@[simp] theorem State.setDest_silo (s : State) (d : Nat) (x : DestSt) : (s.setDest d x).silo = s.silo := rfl
@[simp] theorem State.setDest_comps (s : State) (d : Nat) (x : DestSt) : (s.setDest d x).comps = s.comps := rfl
@[simp] theorem State.setDest_conv (s : State) (d : Nat) (x : DestSt) : (s.setDest d x).conv = s.conv := rfl
@[simp] theorem State.setDest_ip (s : State) (d : Nat) (x : DestSt) : (s.setDest d x).ip = s.ip := rfl
@[simp] theorem State.setDest_mem (s : State) (d : Nat) (x : DestSt) : (s.setDest d x).mem = s.mem := rfl
@[simp] theorem State.setDest_bus (s : State) (d : Nat) (x : DestSt) : (s.setDest d x).bus = s.bus := rfl
@[simp] theorem State.setDest_ks (s : State) (d : Nat) (x : DestSt) : (s.setDest d x).ks = s.ks := rfl
@[simp] theorem State.setDest_nv (s : State) (d : Nat) (x : DestSt) : (s.setDest d x).nv = s.nv := rfl
@[simp] theorem State.setDest_ym (s : State) (d : Nat) (x : DestSt) : (s.setDest d x).ym = s.ym := rfl
@[simp] theorem State.setDest_mg (s : State) (d : Nat) (x : DestSt) : (s.setDest d x).mg = s.mg := rfl
@[simp] theorem State.setDest_pwr (s : State) (d : Nat) (x : DestSt) : (s.setDest d x).pwr = s.pwr := rfl
@[simp] theorem State.setDest_readData (s : State) (d : Nat) (x : DestSt) : (s.setDest d x).readData = s.readData := rfl
@[simp] theorem State.setDest_out (s : State) (d : Nat) (x : DestSt) : (s.setDest d x).out = s.out := rfl
@[simp] theorem State.setDest_freeCtr (s : State) (d : Nat) (x : DestSt) : (s.setDest d x).freeCtr = s.freeCtr := rfl
@[simp] theorem State.setDest_pending (s : State) (d : Nat) (x : DestSt) : (s.setDest d x).pending = s.pending := rfl
@[simp] theorem State.rd_setDest (s : State) (d : Nat) (x : DestSt) (a : Nat) : (s.setDest d x).rd a = s.rd a := rfl
@[simp] theorem State.get_setDest (s : State) (d : Nat) (x : DestSt) (b : Nat) (h : Fld) : (s.setDest d x).get b h = s.get b h := rfl
@[simp] theorem State.is_setDest (s : State) (d : Nat) (x : DestSt) (b : Nat) (h : Fld) : (s.setDest d x).is b h = s.is b h := rfl

/-! setActx -/

@[simp] theorem State.setActx_regs (s : State) (n : Nat) (x : ACtx) : (s.setActx n x).regs = s.regs := rfl
@[simp] theorem State.setActx_eff (s : State) (n : Nat) (x : ACtx) : (s.setActx n x).eff = s.eff := rfl
@[simp] theorem State.setActx_tags (s : State) (n : Nat) (x : ACtx) : (s.setActx n x).tags = s.tags := rfl
@[simp] theorem State.setActx_grps (s : State) (n : Nat) (x : ACtx) : (s.setActx n x).grps = s.grps := rfl
@[simp] theorem State.setActx_irq (s : State) (n : Nat) (x : ACtx) : (s.setActx n x).irq = s.irq := rfl
@[simp] theorem State.setActx_sdiRx (s : State) (n : Nat) (x : ACtx) : (s.setActx n x).sdiRx = s.sdiRx := rfl
@[simp] theorem State.setActx_sdiTx (s : State) (n : Nat) (x : ACtx) : (s.setActx n x).sdiTx = s.sdiTx := rfl
@[simp] theorem State.setActx_tc (s : State) (n : Nat) (x : ACtx) : (s.setActx n x).tc = s.tc := rfl
@[simp] theorem State.setActx_tds (s : State) (n : Nat) (x : ACtx) : (s.setActx n x).tds = s.tds := rfl
@[simp] theorem State.setActx_floor (s : State) (n : Nat) (x : ACtx) : (s.setActx n x).floor = s.floor := rfl
@[simp] theorem State.setActx_silo (s : State) (n : Nat) (x : ACtx) : (s.setActx n x).silo = s.silo := rfl
@[simp] theorem State.setActx_comps (s : State) (n : Nat) (x : ACtx) : (s.setActx n x).comps = s.comps := rfl
@[simp] theorem State.setActx_conv (s : State) (n : Nat) (x : ACtx) : (s.setActx n x).conv = s.conv := rfl
@[simp] theorem State.setActx_ip (s : State) (n : Nat) (x : ACtx) : (s.setActx n x).ip = s.ip := rfl
@[simp] theorem State.setActx_mem (s : State) (n : Nat) (x : ACtx) : (s.setActx n x).mem = s.mem := rfl
@[simp] theorem State.setActx_bus (s : State) (n : Nat) (x : ACtx) : (s.setActx n x).bus = s.bus := rfl
@[simp] theorem State.setActx_ks (s : State) (n : Nat) (x : ACtx) : (s.setActx n x).ks = s.ks := rfl
@[simp] theorem State.setActx_nv (s : State) (n : Nat) (x : ACtx) : (s.setActx n x).nv = s.nv := rfl
@[simp] theorem State.setActx_ym (s : State) (n : Nat) (x : ACtx) : (s.setActx n x).ym = s.ym := rfl
@[simp] theorem State.setActx_mg (s : State) (n : Nat) (x : ACtx) : (s.setActx n x).mg = s.mg := rfl
@[simp] theorem State.setActx_pwr (s : State) (n : Nat) (x : ACtx) : (s.setActx n x).pwr = s.pwr := rfl
@[simp] theorem State.setActx_readData (s : State) (n : Nat) (x : ACtx) : (s.setActx n x).readData = s.readData := rfl
@[simp] theorem State.setActx_out (s : State) (n : Nat) (x : ACtx) : (s.setActx n x).out = s.out := rfl
@[simp] theorem State.setActx_freeCtr (s : State) (n : Nat) (x : ACtx) : (s.setActx n x).freeCtr = s.freeCtr := rfl
@[simp] theorem State.setActx_pending (s : State) (n : Nat) (x : ACtx) : (s.setActx n x).pending = s.pending := rfl
@[simp] theorem State.rd_setActx (s : State) (n : Nat) (x : ACtx) (a : Nat) : (s.setActx n x).rd a = s.rd a := rfl
@[simp] theorem State.get_setActx (s : State) (n : Nat) (x : ACtx) (b : Nat) (h : Fld) : (s.setActx n x).get b h = s.get b h := rfl
@[simp] theorem State.is_setActx (s : State) (n : Nat) (x : ACtx) (b : Nat) (h : Fld) : (s.setActx n x).is b h = s.is b h := rfl

/-! setDeemb -/

@[simp] theorem State.setDeemb_regs (s : State) (g : Nat) (x : Deemb) : (s.setDeemb g x).regs = s.regs := rfl
@[simp] theorem State.setDeemb_eff (s : State) (g : Nat) (x : Deemb) : (s.setDeemb g x).eff = s.eff := rfl
@[simp] theorem State.setDeemb_tags (s : State) (g : Nat) (x : Deemb) : (s.setDeemb g x).tags = s.tags := rfl
@[simp] theorem State.setDeemb_grps (s : State) (g : Nat) (x : Deemb) : (s.setDeemb g x).grps = s.grps := rfl
@[simp] theorem State.setDeemb_irq (s : State) (g : Nat) (x : Deemb) : (s.setDeemb g x).irq = s.irq := rfl
@[simp] theorem State.setDeemb_sdiRx (s : State) (g : Nat) (x : Deemb) : (s.setDeemb g x).sdiRx = s.sdiRx := rfl
@[simp] theorem State.setDeemb_sdiTx (s : State) (g : Nat) (x : Deemb) : (s.setDeemb g x).sdiTx = s.sdiTx := rfl
@[simp] theorem State.setDeemb_tc (s : State) (g : Nat) (x : Deemb) : (s.setDeemb g x).tc = s.tc := rfl
@[simp] theorem State.setDeemb_tds (s : State) (g : Nat) (x : Deemb) : (s.setDeemb g x).tds = s.tds := rfl
@[simp] theorem State.setDeemb_floor (s : State) (g : Nat) (x : Deemb) : (s.setDeemb g x).floor = s.floor := rfl
@[simp] theorem State.setDeemb_silo (s : State) (g : Nat) (x : Deemb) : (s.setDeemb g x).silo = s.silo := rfl
@[simp] theorem State.setDeemb_comps (s : State) (g : Nat) (x : Deemb) : (s.setDeemb g x).comps = s.comps := rfl
@[simp] theorem State.setDeemb_conv (s : State) (g : Nat) (x : Deemb) : (s.setDeemb g x).conv = s.conv := rfl
@[simp] theorem State.setDeemb_ip (s : State) (g : Nat) (x : Deemb) : (s.setDeemb g x).ip = s.ip := rfl
@[simp] theorem State.setDeemb_mem (s : State) (g : Nat) (x : Deemb) : (s.setDeemb g x).mem = s.mem := rfl
@[simp] theorem State.setDeemb_bus (s : State) (g : Nat) (x : Deemb) : (s.setDeemb g x).bus = s.bus := rfl
@[simp] theorem State.setDeemb_ks (s : State) (g : Nat) (x : Deemb) : (s.setDeemb g x).ks = s.ks := rfl
@[simp] theorem State.setDeemb_nv (s : State) (g : Nat) (x : Deemb) : (s.setDeemb g x).nv = s.nv := rfl
@[simp] theorem State.setDeemb_ym (s : State) (g : Nat) (x : Deemb) : (s.setDeemb g x).ym = s.ym := rfl
@[simp] theorem State.setDeemb_mg (s : State) (g : Nat) (x : Deemb) : (s.setDeemb g x).mg = s.mg := rfl
@[simp] theorem State.setDeemb_pwr (s : State) (g : Nat) (x : Deemb) : (s.setDeemb g x).pwr = s.pwr := rfl
@[simp] theorem State.setDeemb_readData (s : State) (g : Nat) (x : Deemb) : (s.setDeemb g x).readData = s.readData := rfl
@[simp] theorem State.setDeemb_out (s : State) (g : Nat) (x : Deemb) : (s.setDeemb g x).out = s.out := rfl
@[simp] theorem State.setDeemb_freeCtr (s : State) (g : Nat) (x : Deemb) : (s.setDeemb g x).freeCtr = s.freeCtr := rfl
@[simp] theorem State.setDeemb_pending (s : State) (g : Nat) (x : Deemb) : (s.setDeemb g x).pending = s.pending := rfl
@[simp] theorem State.rd_setDeemb (s : State) (g : Nat) (x : Deemb) (a : Nat) : (s.setDeemb g x).rd a = s.rd a := rfl
@[simp] theorem State.get_setDeemb (s : State) (g : Nat) (x : Deemb) (b : Nat) (h : Fld) : (s.setDeemb g x).get b h = s.get b h := rfl
@[simp] theorem State.is_setDeemb (s : State) (g : Nat) (x : Deemb) (b : Nat) (h : Fld) : (s.setDeemb g x).is b h = s.is b h := rfl

/-! setPtp -/

@[simp] theorem State.setPtp_regs (s : State) (n : Nat) (x : Ptp) : (s.setPtp n x).regs = s.regs := rfl
@[simp] theorem State.setPtp_eff (s : State) (n : Nat) (x : Ptp) : (s.setPtp n x).eff = s.eff := rfl
@[simp] theorem State.setPtp_tags (s : State) (n : Nat) (x : Ptp) : (s.setPtp n x).tags = s.tags := rfl
@[simp] theorem State.setPtp_grps (s : State) (n : Nat) (x : Ptp) : (s.setPtp n x).grps = s.grps := rfl
@[simp] theorem State.setPtp_irq (s : State) (n : Nat) (x : Ptp) : (s.setPtp n x).irq = s.irq := rfl
@[simp] theorem State.setPtp_sdiRx (s : State) (n : Nat) (x : Ptp) : (s.setPtp n x).sdiRx = s.sdiRx := rfl
@[simp] theorem State.setPtp_sdiTx (s : State) (n : Nat) (x : Ptp) : (s.setPtp n x).sdiTx = s.sdiTx := rfl
@[simp] theorem State.setPtp_tc (s : State) (n : Nat) (x : Ptp) : (s.setPtp n x).tc = s.tc := rfl
@[simp] theorem State.setPtp_tds (s : State) (n : Nat) (x : Ptp) : (s.setPtp n x).tds = s.tds := rfl
@[simp] theorem State.setPtp_floor (s : State) (n : Nat) (x : Ptp) : (s.setPtp n x).floor = s.floor := rfl
@[simp] theorem State.setPtp_silo (s : State) (n : Nat) (x : Ptp) : (s.setPtp n x).silo = s.silo := rfl
@[simp] theorem State.setPtp_comps (s : State) (n : Nat) (x : Ptp) : (s.setPtp n x).comps = s.comps := rfl
@[simp] theorem State.setPtp_conv (s : State) (n : Nat) (x : Ptp) : (s.setPtp n x).conv = s.conv := rfl
@[simp] theorem State.setPtp_aud (s : State) (n : Nat) (x : Ptp) : (s.setPtp n x).aud = s.aud := rfl
@[simp] theorem State.setPtp_mem (s : State) (n : Nat) (x : Ptp) : (s.setPtp n x).mem = s.mem := rfl
@[simp] theorem State.setPtp_bus (s : State) (n : Nat) (x : Ptp) : (s.setPtp n x).bus = s.bus := rfl
@[simp] theorem State.setPtp_ks (s : State) (n : Nat) (x : Ptp) : (s.setPtp n x).ks = s.ks := rfl
@[simp] theorem State.setPtp_nv (s : State) (n : Nat) (x : Ptp) : (s.setPtp n x).nv = s.nv := rfl
@[simp] theorem State.setPtp_ym (s : State) (n : Nat) (x : Ptp) : (s.setPtp n x).ym = s.ym := rfl
@[simp] theorem State.setPtp_mg (s : State) (n : Nat) (x : Ptp) : (s.setPtp n x).mg = s.mg := rfl
@[simp] theorem State.setPtp_pwr (s : State) (n : Nat) (x : Ptp) : (s.setPtp n x).pwr = s.pwr := rfl
@[simp] theorem State.setPtp_readData (s : State) (n : Nat) (x : Ptp) : (s.setPtp n x).readData = s.readData := rfl
@[simp] theorem State.setPtp_out (s : State) (n : Nat) (x : Ptp) : (s.setPtp n x).out = s.out := rfl
@[simp] theorem State.setPtp_freeCtr (s : State) (n : Nat) (x : Ptp) : (s.setPtp n x).freeCtr = s.freeCtr := rfl
@[simp] theorem State.setPtp_pending (s : State) (n : Nat) (x : Ptp) : (s.setPtp n x).pending = s.pending := rfl
@[simp] theorem State.rd_setPtp (s : State) (n : Nat) (x : Ptp) (a : Nat) : (s.setPtp n x).rd a = s.rd a := rfl
@[simp] theorem State.get_setPtp (s : State) (n : Nat) (x : Ptp) (b : Nat) (h : Fld) : (s.setPtp n x).get b h = s.get b h := rfl
@[simp] theorem State.is_setPtp (s : State) (n : Nat) (x : Ptp) (b : Nat) (h : Fld) : (s.setPtp n x).is b h = s.is b h := rfl

/-! setIrx -/

@[simp] theorem State.setIrx_regs (s : State) (c : Nat) (x : IpRx) : (s.setIrx c x).regs = s.regs := rfl
@[simp] theorem State.setIrx_eff (s : State) (c : Nat) (x : IpRx) : (s.setIrx c x).eff = s.eff := rfl
@[simp] theorem State.setIrx_tags (s : State) (c : Nat) (x : IpRx) : (s.setIrx c x).tags = s.tags := rfl
@[simp] theorem State.setIrx_grps (s : State) (c : Nat) (x : IpRx) : (s.setIrx c x).grps = s.grps := rfl
@[simp] theorem State.setIrx_irq (s : State) (c : Nat) (x : IpRx) : (s.setIrx c x).irq = s.irq := rfl
@[simp] theorem State.setIrx_sdiRx (s : State) (c : Nat) (x : IpRx) : (s.setIrx c x).sdiRx = s.sdiRx := rfl
@[simp] theorem State.setIrx_sdiTx (s : State) (c : Nat) (x : IpRx) : (s.setIrx c x).sdiTx = s.sdiTx := rfl
@[simp] theorem State.setIrx_tc (s : State) (c : Nat) (x : IpRx) : (s.setIrx c x).tc = s.tc := rfl
@[simp] theorem State.setIrx_tds (s : State) (c : Nat) (x : IpRx) : (s.setIrx c x).tds = s.tds := rfl
@[simp] theorem State.setIrx_floor (s : State) (c : Nat) (x : IpRx) : (s.setIrx c x).floor = s.floor := rfl
@[simp] theorem State.setIrx_silo (s : State) (c : Nat) (x : IpRx) : (s.setIrx c x).silo = s.silo := rfl
@[simp] theorem State.setIrx_comps (s : State) (c : Nat) (x : IpRx) : (s.setIrx c x).comps = s.comps := rfl
@[simp] theorem State.setIrx_conv (s : State) (c : Nat) (x : IpRx) : (s.setIrx c x).conv = s.conv := rfl
@[simp] theorem State.setIrx_aud (s : State) (c : Nat) (x : IpRx) : (s.setIrx c x).aud = s.aud := rfl
@[simp] theorem State.setIrx_mem (s : State) (c : Nat) (x : IpRx) : (s.setIrx c x).mem = s.mem := rfl
@[simp] theorem State.setIrx_bus (s : State) (c : Nat) (x : IpRx) : (s.setIrx c x).bus = s.bus := rfl
@[simp] theorem State.setIrx_ks (s : State) (c : Nat) (x : IpRx) : (s.setIrx c x).ks = s.ks := rfl
@[simp] theorem State.setIrx_nv (s : State) (c : Nat) (x : IpRx) : (s.setIrx c x).nv = s.nv := rfl
@[simp] theorem State.setIrx_ym (s : State) (c : Nat) (x : IpRx) : (s.setIrx c x).ym = s.ym := rfl
@[simp] theorem State.setIrx_mg (s : State) (c : Nat) (x : IpRx) : (s.setIrx c x).mg = s.mg := rfl
@[simp] theorem State.setIrx_pwr (s : State) (c : Nat) (x : IpRx) : (s.setIrx c x).pwr = s.pwr := rfl
@[simp] theorem State.setIrx_readData (s : State) (c : Nat) (x : IpRx) : (s.setIrx c x).readData = s.readData := rfl
@[simp] theorem State.setIrx_out (s : State) (c : Nat) (x : IpRx) : (s.setIrx c x).out = s.out := rfl
@[simp] theorem State.setIrx_freeCtr (s : State) (c : Nat) (x : IpRx) : (s.setIrx c x).freeCtr = s.freeCtr := rfl
@[simp] theorem State.setIrx_pending (s : State) (c : Nat) (x : IpRx) : (s.setIrx c x).pending = s.pending := rfl
@[simp] theorem State.rd_setIrx (s : State) (c : Nat) (x : IpRx) (a : Nat) : (s.setIrx c x).rd a = s.rd a := rfl
@[simp] theorem State.get_setIrx (s : State) (c : Nat) (x : IpRx) (b : Nat) (h : Fld) : (s.setIrx c x).get b h = s.get b h := rfl
@[simp] theorem State.is_setIrx (s : State) (c : Nat) (x : IpRx) (b : Nat) (h : Fld) : (s.setIrx c x).is b h = s.is b h := rfl

/-! setItx -/

@[simp] theorem State.setItx_regs (s : State) (c : Nat) (x : IpTx) : (s.setItx c x).regs = s.regs := rfl
@[simp] theorem State.setItx_eff (s : State) (c : Nat) (x : IpTx) : (s.setItx c x).eff = s.eff := rfl
@[simp] theorem State.setItx_tags (s : State) (c : Nat) (x : IpTx) : (s.setItx c x).tags = s.tags := rfl
@[simp] theorem State.setItx_grps (s : State) (c : Nat) (x : IpTx) : (s.setItx c x).grps = s.grps := rfl
@[simp] theorem State.setItx_irq (s : State) (c : Nat) (x : IpTx) : (s.setItx c x).irq = s.irq := rfl
@[simp] theorem State.setItx_sdiRx (s : State) (c : Nat) (x : IpTx) : (s.setItx c x).sdiRx = s.sdiRx := rfl
@[simp] theorem State.setItx_sdiTx (s : State) (c : Nat) (x : IpTx) : (s.setItx c x).sdiTx = s.sdiTx := rfl
@[simp] theorem State.setItx_tc (s : State) (c : Nat) (x : IpTx) : (s.setItx c x).tc = s.tc := rfl
@[simp] theorem State.setItx_tds (s : State) (c : Nat) (x : IpTx) : (s.setItx c x).tds = s.tds := rfl
@[simp] theorem State.setItx_floor (s : State) (c : Nat) (x : IpTx) : (s.setItx c x).floor = s.floor := rfl
@[simp] theorem State.setItx_silo (s : State) (c : Nat) (x : IpTx) : (s.setItx c x).silo = s.silo := rfl
@[simp] theorem State.setItx_comps (s : State) (c : Nat) (x : IpTx) : (s.setItx c x).comps = s.comps := rfl
@[simp] theorem State.setItx_conv (s : State) (c : Nat) (x : IpTx) : (s.setItx c x).conv = s.conv := rfl
@[simp] theorem State.setItx_aud (s : State) (c : Nat) (x : IpTx) : (s.setItx c x).aud = s.aud := rfl
@[simp] theorem State.setItx_mem (s : State) (c : Nat) (x : IpTx) : (s.setItx c x).mem = s.mem := rfl
@[simp] theorem State.setItx_bus (s : State) (c : Nat) (x : IpTx) : (s.setItx c x).bus = s.bus := rfl
@[simp] theorem State.setItx_ks (s : State) (c : Nat) (x : IpTx) : (s.setItx c x).ks = s.ks := rfl
@[simp] theorem State.setItx_nv (s : State) (c : Nat) (x : IpTx) : (s.setItx c x).nv = s.nv := rfl
@[simp] theorem State.setItx_ym (s : State) (c : Nat) (x : IpTx) : (s.setItx c x).ym = s.ym := rfl
@[simp] theorem State.setItx_mg (s : State) (c : Nat) (x : IpTx) : (s.setItx c x).mg = s.mg := rfl
@[simp] theorem State.setItx_pwr (s : State) (c : Nat) (x : IpTx) : (s.setItx c x).pwr = s.pwr := rfl
@[simp] theorem State.setItx_readData (s : State) (c : Nat) (x : IpTx) : (s.setItx c x).readData = s.readData := rfl
@[simp] theorem State.setItx_out (s : State) (c : Nat) (x : IpTx) : (s.setItx c x).out = s.out := rfl
@[simp] theorem State.setItx_freeCtr (s : State) (c : Nat) (x : IpTx) : (s.setItx c x).freeCtr = s.freeCtr := rfl
@[simp] theorem State.setItx_pending (s : State) (c : Nat) (x : IpTx) : (s.setItx c x).pending = s.pending := rfl
@[simp] theorem State.rd_setItx (s : State) (c : Nat) (x : IpTx) (a : Nat) : (s.setItx c x).rd a = s.rd a := rfl
@[simp] theorem State.get_setItx (s : State) (c : Nat) (x : IpTx) (b : Nat) (h : Fld) : (s.setItx c x).get b h = s.get b h := rfl
@[simp] theorem State.is_setItx (s : State) (c : Nat) (x : IpTx) (b : Nat) (h : Fld) : (s.setItx c x).is b h = s.is b h := rfl

@[simp] theorem State.rd_setGrp (s : State) (n : Nat) (g : Grp) (a : Nat) : (s.setGrp n g).rd a = s.rd a := rfl
@[simp] theorem State.get_setGrp (s : State) (n : Nat) (g : Grp) (b : Nat) (h : Fld) : (s.setGrp n g).get b h = s.get b h := rfl
@[simp] theorem State.is_setGrp (s : State) (n : Nat) (g : Grp) (b : Nat) (h : Fld) : (s.setGrp n g).is b h = s.is b h := rfl

@[simp] theorem State.rd_setTag (s : State) (b n : Nat) (a : Nat) : (s.setTag b n).rd a = s.rd a := rfl
@[simp] theorem State.get_setTag (s : State) (b n : Nat) (b : Nat) (h : Fld) : (s.setTag b n).get b h = s.get b h := rfl
@[simp] theorem State.is_setTag (s : State) (b n : Nat) (b : Nat) (h : Fld) : (s.setTag b n).is b h = s.is b h := rfl

@[simp] theorem State.rd_emit (s : State) (m : OutMsg) (a : Nat) : (s.emit m).rd a = s.rd a := rfl
@[simp] theorem State.get_emit (s : State) (m : OutMsg) (b : Nat) (h : Fld) : (s.emit m).get b h = s.get b h := rfl
@[simp] theorem State.is_emit (s : State) (m : OutMsg) (b : Nat) (h : Fld) : (s.emit m).is b h = s.is b h := rfl

@[simp] theorem State.rd_answer (s : State) (v : Word) (a : Nat) : (s.answer v).rd a = s.rd a := rfl
@[simp] theorem State.get_answer (s : State) (v : Word) (b : Nat) (h : Fld) : (s.answer v).get b h = s.get b h := rfl
@[simp] theorem State.is_answer (s : State) (v : Word) (b : Nat) (h : Fld) : (s.answer v).is b h = s.is b h := rfl

@[simp] theorem State.rd_tick (s : State)  (a : Nat) : (s.tick ).rd a = s.rd a := rfl
@[simp] theorem State.get_tick (s : State)  (b : Nat) (h : Fld) : (s.tick ).get b h = s.get b h := rfl
@[simp] theorem State.is_tick (s : State)  (b : Nat) (h : Fld) : (s.tick ).is b h = s.is b h := rfl

/-! Reading back. -/

@[simp] theorem State.td_setTd_same (s : State) (d : Nat) (x : Td) : (s.setTd d x).td d = x := tget_tset_same ..
theorem State.td_setTd_ne (s : State) (d : Nat) (x : Td) {e : Nat} (h : e ≠ d) : (s.setTd d x).td e = s.td e := tget_tset_ne _ _ h
@[simp] theorem State.rx_setRx_same (s : State) (d : Nat) (x : Rx) : (s.setRx d x).rx d = x := tget_tset_same ..
theorem State.rx_setRx_ne (s : State) (d : Nat) (x : Rx) {e : Nat} (h : e ≠ d) : (s.setRx d x).rx e = s.rx e := tget_tset_ne _ _ h
@[simp] theorem State.tx_setTx_same (s : State) (d : Nat) (x : Tx) : (s.setTx d x).tx d = x := tget_tset_same ..
theorem State.tx_setTx_ne (s : State) (d : Nat) (x : Tx) {e : Nat} (h : e ≠ d) : (s.setTx d x).tx e = s.tx e := tget_tset_ne _ _ h
@[simp] theorem State.comp_setComp_same (s : State) (d : Nat) (x : Comp) : (s.setComp d x).comp d = x := tget_tset_same ..
theorem State.comp_setComp_ne (s : State) (d : Nat) (x : Comp) {e : Nat} (h : e ≠ d) : (s.setComp d x).comp e = s.comp e := tget_tset_ne _ _ h
@[simp] theorem State.ring_setRing_same (s : State) (d : Nat) (x : Ring) : (s.setRing d x).ring d = x := tget_tset_same ..
theorem State.ring_setRing_ne (s : State) (d : Nat) (x : Ring) {e : Nat} (h : e ≠ d) : (s.setRing d x).ring e = s.ring e := tget_tset_ne _ _ h
@[simp] theorem State.dest_setDest_same (s : State) (d : Nat) (x : DestSt) : (s.setDest d x).dest d = x := tget_tset_same ..
theorem State.dest_setDest_ne (s : State) (d : Nat) (x : DestSt) {e : Nat} (h : e ≠ d) : (s.setDest d x).dest e = s.dest e := tget_tset_ne _ _ h
@[simp] theorem State.actx_setActx_same (s : State) (d : Nat) (x : ACtx) : (s.setActx d x).actx d = x := tget_tset_same ..
theorem State.actx_setActx_ne (s : State) (d : Nat) (x : ACtx) {e : Nat} (h : e ≠ d) : (s.setActx d x).actx e = s.actx e := tget_tset_ne _ _ h
@[simp] theorem State.deemb_setDeemb_same (s : State) (d : Nat) (x : Deemb) : (s.setDeemb d x).deemb d = x := tget_tset_same ..
theorem State.deemb_setDeemb_ne (s : State) (d : Nat) (x : Deemb) {e : Nat} (h : e ≠ d) : (s.setDeemb d x).deemb e = s.deemb e := tget_tset_ne _ _ h
@[simp] theorem State.ptp_setPtp_same (s : State) (d : Nat) (x : Ptp) : (s.setPtp d x).ptp d = x := tget_tset_same ..
theorem State.ptp_setPtp_ne (s : State) (d : Nat) (x : Ptp) {e : Nat} (h : e ≠ d) : (s.setPtp d x).ptp e = s.ptp e := tget_tset_ne _ _ h
@[simp] theorem State.irx_setIrx_same (s : State) (d : Nat) (x : IpRx) : (s.setIrx d x).irx d = x := tget_tset_same ..
theorem State.irx_setIrx_ne (s : State) (d : Nat) (x : IpRx) {e : Nat} (h : e ≠ d) : (s.setIrx d x).irx e = s.irx e := tget_tset_ne _ _ h
@[simp] theorem State.itx_setItx_same (s : State) (d : Nat) (x : IpTx) : (s.setItx d x).itx d = x := tget_tset_same ..
theorem State.itx_setItx_ne (s : State) (d : Nat) (x : IpTx) {e : Nat} (h : e ≠ d) : (s.setItx d x).itx e = s.itx e := tget_tset_ne _ _ h
@[simp] theorem State.route_setRoute_same (s : State) (t i : Nat) (x : RouteX) : (s.setRoute t i x).route t i = x := tget_tset_same ..
@[simp] theorem State.reader_setReader_same (s : State) (t i : Nat) (x : Reader) : (s.setReader t i x).reader t i = x := tget_tset_same ..
@[simp] theorem State.ctx_setCtx_same (s : State) (e c : Nat) (x : Ctx) : (s.setCtx e c x).ctx e c = x := tget_tset_same ..

end Sys2Proof.Machine
end

