-- ==== Sys2Proof/Laws/Refresh.lean ====
section
/-! SUPPORT. Which registers the operations that recompute derived registers leave alone: every register of another page. -/

set_option Elab.async false

namespace Sys2Proof.Machine

theorem State.rd_live_ne (s : State) {a b : Nat} (k : Nat) (c : Bool) (h : a ≠ b + 0x1C) : (s.live b k c).rd a = s.rd a :=
  s.rd_put_ne _ _ h

/-- The sums change registers of the Floor, of the Silo and of Winnow only. -/
theorem State.rd_sumsRefresh (s : State) {a : Nat} (h : pageOf a ≠ 0x040 ∧ pageOf a ≠ 0x080 ∧ pageOf a ≠ 0x0D0) :
    s.sumsRefresh.rd a = s.rd a := by
  obtain ⟨h1, h2, h3⟩ := h
  have n (b : Nat) (e : pageOf b = 0x040 ∨ pageOf b = 0x080 ∨ pageOf b = 0x0D0) : a ≠ b := by
    rintro rfl; rcases e with e | e | e <;> contradiction
  unfold State.sumsRefresh
  dsimp only
  rw [State.rd_live_ne _ _ _ (n _ (by decide)), State.rd_raiseIf_ne _ _ _ (n _ (by decide)), State.rd_put_ne _ _ _ (n _ (by decide)),
    State.rd_put_ne _ _ _ (n _ (by decide)), State.rd_live_ne _ _ _ (n _ (by decide)), State.rd_raiseIf_ne _ _ _ (n _ (by decide)),
    State.rd_forAll fun k hk u => State.rd_put_ne _ _ _ (n _ ?_), State.rd_put_ne _ _ _ (n _ (by decide)),
    State.rd_live_ne _ _ _ (n _ (by decide)), State.rd_raiseIf_ne _ _ _ (n _ (by decide)), State.rd_put_ne _ _ _ (n _ (by decide)),
    State.rd_put_ne _ _ _ (n _ (by decide)), State.rd_forAll fun k hk u => ?_]
  · unfold State.wnRate
    exact State.rd_put_ne _ _ _ (n _ (by decide))
  · have := List.mem_range.1 hk
    rw [State.rd_put_ne _ _ _ (n _ (.inl (by unfold pageOf; simp only [flB, gPage]; omega))),
      State.rd_put_ne _ _ _ (n _ (.inl (by unfold pageOf; simp only [flB, gPage]; omega)))]
  · have := List.mem_range.1 hk
    exact .inr (.inl (by unfold pageOf; simp only [siloB, gPage]; omega))

theorem State.rd_floorLive (s : State) {a : Nat} (h : a ≠ flB + 0x1C) : s.floorLive.rd a = s.rd a := by
  unfold State.floorLive
  dsimp only
  rw [State.rd_live_ne _ _ _ h, State.rd_live_ne _ _ _ h, State.rd_live_ne _ _ _ h]

/-- The timing core's derived registers are in its own pages. -/
theorem State.rd_tcRefresh (s : State) {a : Nat} (h : pageOf a ≠ 0x020 ∧ pageOf a ≠ 0x021 ∧ pageOf a ≠ 0x022) :
    s.tcRefresh.rd a = s.rd a := by
  obtain ⟨h1, h2, h3⟩ := h
  have n (b : Nat) (e : pageOf b = 0x020 ∨ pageOf b = 0x021 ∨ pageOf b = 0x022) : a ≠ b := by
    rintro rfl; rcases e with e | e | e <;> contradiction
  have ite_rd (c : Prop) [Decidable c] (x y : State) (hx : x.rd a = y.rd a) : (if c then x else y).rd a = y.rd a := by
    split
    · exact hx
    · rfl
  have ite_rd' (c : Prop) [Decidable c] (x y : State) (hx : y.rd a = x.rd a) : (if c then x else y).rd a = x.rd a := by
    split
    · rfl
    · exact hx
  unfold State.tcRefresh
  dsimp only
  rw [State.rd_forAll fun d hd u => State.rd_put_ne _ _ _ (n _ ?_), State.rd_forAll fun c hc u => State.rd_put_ne _ _ _ (n _ ?_),
    ite_rd' _ _ _ (State.rd_live_ne _ _ _ (n _ (by decide))), State.rd_live_ne _ _ _ (n _ (by decide)),
    State.rd_live_ne _ _ _ (n _ (by decide)), State.rd_live_ne _ _ _ (n _ (by decide)), State.rd_put_ne _ _ _ (n _ (by decide)),
    State.rd_put_ne _ _ _ (n _ (by decide))]
  · have := List.mem_range.1 hc
    exact .inr (.inl (by unfold pageOf; simp only [candB, gPage]; omega))
  · have := List.mem_range.1 hd
    exact .inr (.inr (by unfold pageOf; simp only [tdB, gPage]; omega))

/-- The limit of the Silo's sum changes registers of the Floor, of the Silo and of Winnow only. -/
theorem State.rd_limitRefresh (s : State) {a : Nat} (h : pageOf a ≠ 0x040 ∧ pageOf a ≠ 0x080 ∧ pageOf a ≠ 0x0D0) :
    s.limitRefresh.rd a = s.rd a := by
  have n (b : Nat) (e : pageOf b = 0x080) : a ≠ b := by rintro rfl; exact h.2.1 e
  unfold State.limitRefresh
  dsimp only
  rw [State.rd_sumsRefresh _ h, State.rd_live_ne _ _ _ (n _ (by decide)), State.rd_raiseIf_ne _ _ _ (n _ (by decide))]
  refine State.rd_puts_ne s _ fun p hp => ?_
  simp only [List.mem_cons, List.not_mem_nil, or_false] at hp
  rcases hp with rfl | rfl <;> exact n _ (by dsimp only; decide)

end Sys2Proof.Machine
end

