-- ==== Sys2Proof/Laws/Registers.lean ====
section
/-! SUPPORT. Host accesses and events: what the named operations of Machine/Registers.lean and Machine/Writes.lean can do. -/

set_option Elab.async false

namespace Sys2Proof.Machine

theorem State.hostWrite_eq {s t : State} {d : Nat} (h7 : d ≠ 7) (hp : s.present d = true) : s.hostWrite d t = t := by
  unfold State.hostWrite
  rw [if_neg h7, if_pos hp]

theorem regAddr_die (a : RegAddr) : dieOf (regAddr a) = a.die.val := by
  unfold regAddr dieOf addrOf
  have := a.page.isLt
  have := a.word.isLt
  have := a.die.isLt
  omega

theorem regAddr_page (a : RegAddr) : pageOf (regAddr a) = a.page.val := by
  unfold regAddr pageOf addrOf
  have := a.page.isLt
  have := a.word.isLt
  have := a.die.isLt
  omega

/-- A block starts at the first word of a page. -/
theorem blockBase_page (a : Nat) : blockBase a % 0x1000 = 0 := by
  unfold blockBase addrOf
  dsimp only
  omega

theorem blkAddr_page (b : BlockAddr) : blkAddr b % 0x1000 = 0 := blockBase_page _

theorem clampReg_sheaf {a : Nat} {w : Word} (h : dieOf a ≠ 0) : clampReg a w = w := by
  unfold clampReg
  dsimp only
  rw [if_pos h]

theorem State.shadowStore_row {x : Nat} {v : Word} {r : Row} {s : State} (hr : rowOf x = some r) (hw : r.rws ≠ 0) :
    s.shadowStore x v = s.shadowPut x v r.rws := by
  unfold State.shadowStore
  rw [hr]
  exact if_neg hw

/-- Everything that a shadow write does outside its own tag. -/
theorem State.shadowPut_spec (x : Nat) (v : Word) (m : Nat) (s : State) : (s.shadowPut x v m).eff = s.eff ∧
    OnlyRegs [x, blockBase x + F.COMMIT_STAT_PENDING.off] s (s.shadowPut x v m) ∧
    (x ≠ blockBase x + F.COMMIT_STAT_PENDING.off → (s.shadowPut x v m).rd x = clampReg x (mergeWord (s.rd x) v m)) ∧
    (∀ y, y ≠ x → (s.shadowPut x v m).tagOf y = s.tagOf y) := by
  unfold State.shadowPut State.pendingRefresh
  refine ⟨by simp only [State.put_eff, State.setTag_eff, State.wr_eff], ?_, ?_, ?_⟩
  · exact (((OnlyRegs.refl _ s).wr (by simp)).of_regs (t := (s.wr _ _).setTag _ _) rfl).put (by simp)
  · intro h
    rw [State.rd_put_ne _ _ _ h]
    exact s.rd_wr_same ..
  · intro y hy
    exact State.tagOf_setTag_ne (s.wr _ _) hy

/-- A write of a plain register of an input or output. -/
theorem State.regWrite_plain {m1 : Bool} {a : Nat} {v : Word} {r : Row} {s : State} (hd : dieOf a ≠ 0) (hp : pageOf a < 0x300)
    (hr : rowOf a = some r) (hw : ¬ (r.rw = 0 ∧ r.w1c = 0 ∧ r.m1 = 0)) : s.regWrite m1 a v = s.directPut m1 a r v := by
  unfold State.regWrite
  dsimp only
  rw [hr]
  dsimp only
  rw [if_neg (fun h => hd h.1), if_neg (fun h => hd h.1), if_neg (fun h => hd h.1), if_neg (fun h => hd h.1), if_neg hw,
    if_neg (fun h => hd h.1), if_neg (fun h => absurd h.2.1 (by omega))]

theorem State.afterWrite_plain {a : Nat} {old : Word} {s : State} (hb : a ≠ blockBase a + 0x14) (hd : dieOf a ≠ 0)
    (hp : pageOf a < 0x400) : s.afterWrite a old = s := by
  unfold State.afterWrite
  dsimp only
  rw [if_neg hb, if_neg hd, if_neg (fun h => absurd h.1 (by omega))]

/-- A structural write of the memory configuration while the memory subsystem is stopped. -/
theorem State.structWrite_plain {x : Nat} {v : Word} {r : Row} {s : State} (hr : rowOf x = some r) (hw : r.rwx ≠ 0)
    (hb : bondMask x = 0) (hk : runKind (blockBase x) = 4) (hs : s.structStopped x = true) :
    s.structWrite x v = s.wr x (mergeWord (s.rd x) v r.rwx) := by
  unfold State.structWrite
  dsimp only
  rw [hr]
  dsimp only
  rw [if_neg hw, hb, hs, hk]
  simp only [State.afterStruct, ne_eq, not_true_eq_false, false_and, if_false, decide_false, Bool.false_and, Bool.not_true,
    Bool.or_false, Bool.false_eq_true]

/-- The global events of a block's bits are below 1,024. -/
theorem gev_lt {b k e : Nat} (hk : k < 32) (h : gev b k = some e) : e < 1024 := by
  have hd : dieOf b < 8 := Nat.mod_lt _ (by decide)
  unfold gev at h
  dsimp only at h
  generalize dieOf b = d at hd h
  generalize pageOf b = p at h
  have some_lt (n : Nat) (hn : n < 1024) (h : some n = some e) : e < 1024 := by injection h with h; omega
  have ite_lt (c : Prop) [Decidable c] (x y : Option Nat) (hx : c → x = some e → e < 1024) (hy : ¬ c → y = some e → e < 1024)
      (h : (if c then x else y) = some e) : e < 1024 := by
    by_cases hc : c
    · exact hx hc (by rwa [if_pos hc] at h)
    · exact hy hc (by rwa [if_neg hc] at h)
  revert h
  repeat' first
    | with_reducible refine ite_lt _ _ _ (fun _ => ?_) (fun _ => ?_)
    | (with_reducible refine some_lt _ ?_; (try split) <;> omega)
    | (intro h; cases h)

theorem mem_dedupN {l : List Nat} {x : Nat} (h : x ∈ dedupN l) : x ∈ l := by
  induction l with
  | nil => exact h
  | cons a l ih =>
    unfold dedupN at h
    rcases List.mem_cons.1 h with rfl | h
    · exact List.mem_cons_self
    · exact List.mem_cons_of_mem _ (ih (List.mem_filter.1 h).1)

theorem blockEvs_lt {b m e : Nat} (h : e ∈ blockEvs b m) : e < 1024 := by
  obtain ⟨k, hk, hg⟩ := List.mem_filterMap.1 (mem_dedupN h)
  split at hg
  · exact gev_lt (List.mem_range.1 hk) hg
  · cases hg

theorem State.rd_foldl {α : Type} {l : List α} {f : State → α → State} {a : Nat} {s : State}
    (h : ∀ x ∈ l, ∀ u : State, (f u x).rd a = u.rd a) : (l.foldl f s).rd a = s.rd a := by
  induction l generalizing s with
  | nil => rfl
  | cons x l ih => exact (ih fun y hy => h y (List.mem_cons_of_mem _ hy)).trans (h x List.mem_cons_self s)

/-- EV_STICKY of any block but the controller keeps its value when the controller takes up events. -/
theorem State.rd_refreshBlock_sticky {s : State} {b c m : Nat} (hb : b % 0x1000 = 0) (h : b ≠ evcB) :
    (s.refreshBlock c m).rd (b + 0x10) = s.rd (b + 0x10) := by
  unfold State.refreshBlock
  rw [State.rd_refreshVecs, State.rd_foldl]
  · intro e he u
    have := blockEvs_lt he
    refine State.rd_setEvg_ne _ _ ?_
    simp only [evcB, gPage]
    omega
  · simp only [List.mem_cons, List.not_mem_nil, or_false, not_or, evcB, gPage] at h ⊢
    refine ⟨?_, ?_, ?_, ?_, ?_, ?_⟩ <;> omega

end Sys2Proof.Machine
end

