-- ==== Sys2Proof/WellFormed.lean ====
section
/-! DEFINITION. Well-formed commands: the bounds of operands that their types do not say. A meaning given an operand
outside them does nothing, or takes what the bounds leave of it. -/

namespace Sys2Proof

/-- Entries of a route table (R160): 0 layer, 1 IP transmit, 2 store. -/
def tableSize (t : Nat) : Nat := if t = 0 then 384 else if t = 1 then 1024 else 512

/-- A slot that a Sheaf can occupy (R3). -/
def isSheafSlot (n : Nat) : Bool := 1 ≤ n && n ≤ 6

/-- The source rings that exist (R192): of SDI inputs and of IP receive contexts. -/
def RingId.wf : RingId → Bool
  | .source c => c.val < 0x60 || 0x100 ≤ c.val
  | .store _ => true

/-- A transaction carries 1 to 16 beats, and a write all of its beats (R401). -/
def BusReq.wf (r : BusReq) : Bool := 1 ≤ r.len.val && r.len.val ≤ 16 && (!r.write || r.beats.length == r.len.val)

/-- The operands of a command lie within the bounds the spec gives them. -/
def Instr.wf : Instr → Bool
  | .routeCfgWrite t i _ => i.val < tableSize t.val
  | .routeFallback t i | .routeReturn t i => i.val < tableSize t.val
  | .routeSourceResume t i => i.val < tableSize t.val
  | .finanoLine n _ _ _ | .finanoLinkFail n _ _ _ | .linkMove n _ | .finanoLinkTest n _ _ _ | .finanoLinkRestore n _ _
  | .sheafBringup n _ | .sheafDown n => isSheafSlot n.val
  | .ringFrameStart r _ | .ringFrameComplete r _ => r.wf
  | .bar2Write _ d => 1 ≤ d.length
  | .selectEvaluation m => m.length == 16
  | .disagreeDetect a b => a.val < b.val
  | .memoryRead _ _ first count _ => 1 ≤ count.val && first.val + count.val ≤ 10
  | .memoryWrite _ off d => 1 ≤ d.length && off.val + d.length ≤ 640
  | .busTransaction r => r.wf
  | .yumenSecond m _ _ => m.length == 4
  | .optTransferDone _ (some d) => d.length ≤ 128
  | .audioPacketReceived _ (.data _ _ _ l) => l.length % 4 == 0
  | .measExtend d _ => d.length == 48
  | _ => true

end Sys2Proof
end

