-- ==== Sys2Proof/Tests/Slice0.lean ====
section
/-! SUPPORT. Tests of the model's own: an ill-formed term for each bound of WellFormed, states that meet the hypotheses of the
statements, and single commands with the values the spec gives. -/

set_option Elab.async false

open Sys2Proof Sys2Proof.Machine

namespace Sys2Proof.Tests

/-! Small states: the part up and running, and what each group of statements needs beside it. -/

/-- The part started, with every Sheaf up. -/
def live : State := { State.reset with pwr := ⟨false, false, 0x7E, true, true⟩ }
/-- Input 0 running. -/
def rxLive : State := live.put (inB 0) F.STAT_STOPPED 0
/-- Input 0 locked and delivering. -/
def rxLock : State := (rxLive.put (inB 0) F.IN_STAT_STATE 3).setRx 0 { Rx.idle with link := true, delivering := true }
/-- Four bonded inputs in a state. -/
def quadRx (st k : Nat) : State :=
  [0, 1, 2, 3].foldl (fun u p => ((u.put (inB p) F.STAT_STOPPED 0).put (inB p) F.IN_STAT_STATE st).setRx p
    { Rx.idle with link := true, together := k }) (live.put (inB 0) F.IN_CFG_BOND 1)
/-- Candidate 0 qualified. -/
def cand1 : State := { live with tc := { live.tc with active := 1, qualified := 1 } }
/-- The timing core started. -/
def tcRun : State := { live with tc := { live.tc with started := true } }
/-- A context in the last converter slot. -/
def slot71 : State := live.put (ctxA 7 1) F.CTX_STAT_STATE 1
/-- A complete picture of an entry instant. -/
def cvPic (i : Nat) (t : Int) : CvPic := ⟨i, t, 0, 0, 0, true, true, [], [], []⟩
/-- That context with pictures. -/
def cvSlot (l : List CvPic) : State := slot71.setCtx 7 1 { Ctx.empty with pics := l }
/-- A media port with its link up. -/
def portLive (n : Nat) : State := live.puts (ipB n 0) [(F.STAT_STOPPED, 0), (F.PORT_STAT_LINK, 1)]
/-- A receive context enabled with a type. -/
def rxOn (c t : Nat) : State := live.effWr (rxA c) (BitVec.ofNat 32 (2 ^ 31 + t))
/-- A transmit context enabled with a type. -/
def txOn (c t : Nat) : State := live.effWr (txA c) (BitVec.ofNat 32 (2 ^ 31 + t))
/-- An Announce data set. -/
def ann : Announce := ⟨7, 0, 0, 0, 0, 0, 0, 7, 1⟩
/-- PTP enabled on port 3. -/
def ptpLive : State := (portLive 3).puts (ipB 3 1) [(F.PTP_CFG_EN, 1), (F.PTP_CFG_DOMAIN, 127)]
/-- Port 3 follows a master. -/
def ptpSlave : State := ptpLive.puts (ipB 3 1) [(F.PTP_STAT_STATE, 2), (F.PARENT_LO_ID, 7), (F.PARENT_PORT_NUMBER, 1)]
/-- Every channel in service. -/
def memLive : State :=
  (List.range 12).foldl (fun u c => u.put (mcB c) F.MC_STAT_STATE 2)
    ((live.put siloB F.SILO_BINS_TOTAL_COUNT 1).put (mcB 0) F.MEM_STAT_INIT_DONE 1)
/-- A read of SRAM. -/
def breq : BusReq := ⟨0, 31, false, 0x5000000, 1, [], 0, false⟩
/-- That read in the matrix. -/
def btx (t st : Nat) : BusTx := ⟨breq, t, st, 0, 0, 0, [], false⟩
/-- The flash ready. -/
def nvLive : State := live.puts nvB [(F.NV_STAT_READY, 1), (F.NV_STAT_INHIBIT, 0)]
/-- Its counters settled. -/
def nvCnt : State := { nvLive with nv := { nvLive.nv with active := some 0 } }
/-- Yumen measuring. -/
def ymLive : State := { live with ym := { live.ym with powered := true, measuring := true } }
/-- An update through the window. -/
def updLive : State :=
  { live.put mgB F.UPD_STAT_STATE 2 with mg := { live.mg with updWin := true, updKey := some 0, updHeader := List.replicate 11 0 ++ [1] } }
/-- A store about to write. -/
def ringLive : State :=
  ((((rxLock.effWr (routeA 2 511) 0x80000000).effWr (storeA 511) 2).setBins 0x7FF (0, [5])).setRing 0x7FF
    { Ring.empty with bufs := [Buf.empty], capture := some 0 })
/-- A store being written, whose source delivers or not. -/
def ringSt (d : Bool) : State := live.setRing 0x7FF { Ring.empty with bufs := [{ Buf.empty with st := 1 }], delivering := d }
/-- The same with every buffer held. -/
def ringFull : State :=
  ringLive.setRing 0x7FF { Ring.empty with bufs := [{ Buf.empty with st := 1, readers := [0] }], capture := some 0 }
/-- A layer whose source is lost. -/
def hideLive : State :=
  (((((live.effWr (routeA 0 0) 0x80000600).effWr (storeA 0) 1).put (routeStatA 0 0) F.ROUTE_STAT_PATH 2).put siloB
    F.SILO_CFG_LOSS_MODE 1).setRing 0x600 { Ring.empty with bufs := [{ Buf.empty with st := 2, seq := 1 }] }).setReader 0 0x600
      { Reader.empty with repeats := 25 }
/-- A surface with one bin. -/
def surfLive : State := ((live.effWr (storeA 0) 3).effWr (storeA 0 + 8) 1).setBins 0x600 (0, [0])
/-- An audio route that follows an empty ledger. -/
def audHeld : State :=
  (((live.effWr (rsA 16383) 0x80000000).effWr (rtA 16383) 0x20000).effWr (destA 0) 0x1000).wr (gPage 0x045) 0xFFFFFFFF
/-- A key-update message. -/
def updMsg : List Byte :=
  magicKu ++ [0x01, 3, 0, 0] ++ State.reset.deviceId ++ List.replicate 358 0
/-- That message in the command window. -/
def updKey : State := (nvLive.ksSetBytes 0x400 (updMsg ++ [0, 0])).setAttr 0 (2 ^ atValid)
/-- One record in flash. -/
def recLive : State :=
  ((nvLive.put nvB F.REC_KEY_KEY 0x100).prog 0 (secMagic ++ leBytes 4 1 ++ leBytes 4 ssOpen ++ leBytes 4 0)).prog 16
    (GRec.bytes ⟨0x100, 0, 0xF8, [1]⟩)
/-- One full record sector. -/
def fullLive : State := nvLive.prog 0 (secMagic ++ leBytes 4 1 ++ leBytes 4 ssFull)

/-! The hypotheses of each statement hold of some state and operands together. -/

theorem test_wit_StructuralWriteWhileRunning :
    ∃ (a : RegAddr) (r : Row) (s : State), a.die ≠ 7 ∧ s.present a.die.val = true ∧ s.present 0 = true ∧ rowOf
      (regAddr a) = some r ∧ r.rwx ≠ 0 ∧ s.structStopped (regAddr a) = false :=
  ⟨⟨1,0x100,0x10⟩, (rowOf (regAddr ⟨1,0x100,0x10⟩)).getD ⟨0, 0, 0, 0, 0, 0, 0, 0, 0, 0⟩, live.put (inB 0)
     F.STAT_STOPPED 0, by decide +kernel⟩

theorem test_wit_GroupWriteWhileArmed :
    (∃ (b : BlockAddr) (s : State), b.die ≠ 7 ∧ s.present b.die.val = true ∧ usesCommit (blkAddr b) = true ∧
      s.memberOfArmed (blkAddr b) = true) ∧
    (∃ (b : BlockAddr) (s : State), b.die ≠ 7 ∧ s.present b.die.val = true ∧ usesCommit (blkAddr b) = true ∧
      s.memberOfArmed (blkAddr b) = true) :=
  ⟨⟨⟨1,0x300⟩, (live.put (cgB 63) F.CG_STAT_STATE 1).setTag (compB 0 + 0x40) 63, by decide +kernel⟩,
   ⟨⟨1,0x300⟩, (live.put (cgB 63) F.CG_STAT_STATE 1).setTag (compB 0 + 0x40) 63, by decide +kernel⟩⟩

theorem test_wit_AbsentDieAccesses :
    (∃ (a : RegAddr) (s : State), s.present 0 = true ∧ s.present a.die.val = false ∧ s.populated a.die.val = false) ∧
    (∃ (a : RegAddr) (s : State), s.present 0 = true ∧ s.present a.die.val = false ∧ s.populated a.die.val = false ∧
      a.die ≠ 7) ∧
    (∃ (s : State), s.present 0 = true ∧ s.present 7 = true) ∧
    (∃ (a : RegAddr) (b : BlockAddr) (s : State), a.die ≠ 7 ∧ s.present a.die.val = false ∧ b.die ≠ 7 ∧ s.present
      b.die.val = false) :=
  ⟨⟨⟨6,0x100,0⟩, live.put 0 F.DIE_PRESENT_MAP 0x81, by decide +kernel⟩,
   ⟨⟨6,0x100,0⟩, live.put 0 F.DIE_PRESENT_MAP 0x81, by decide +kernel⟩,
   ⟨live, by decide +kernel⟩,
   ⟨⟨1,0x100,2⟩, ⟨6,0x300⟩, live.put 0 F.DIE_PRESENT_MAP 0x81, by decide +kernel⟩⟩

theorem test_wit_HostRegisterAccesses :
    (∃ (a : RegAddr) (r : Row) (s : State), 1 ≤ a.die.val ∧ a.die.val ≤ 6 ∧ s.present a.die.val = true ∧ 0x100 ≤
      a.page.val ∧ a.page.val < 0x300 ∧ rowOf (regAddr a) = some r ∧ (r.rw ≠ 0 ∨ r.w1c ≠ 0) ∧ regAddr a ≠ blockBase
      (regAddr a) + 0x14) ∧
    (∃ (b : BlockAddr) (s : State), s.present b.die.val = true) ∧
    (∃ (a : RegAddr) (r : Row) (s : State), a.die ≠ 7 ∧ s.present a.die.val = true ∧ rowOf (regAddr a) = some r ∧
      r.rws ≠ 0) ∧
    (∃ (a : RegAddr) (r : Row) (s : State), a.die ≠ 7 ∧ s.present a.die.val = true ∧ rowOf (regAddr a) = some r ∧
      r.rwx ≠ 0 ∧ bondMask (regAddr a) = 0 ∧ runKind (blockBase (regAddr a)) = 4 ∧ s.structStopped (regAddr a) = true) :=
  ⟨⟨⟨6,0x10F,0x15⟩, (rowOf (regAddr ⟨6,0x10F,0x15⟩)).getD ⟨0, 0, 0, 0, 0, 0, 0, 0, 0, 0⟩, live, by decide +kernel⟩,
   ⟨⟨1,0x100⟩, live, by decide +kernel⟩,
   ⟨⟨1,0x300,0x11⟩, (rowOf (regAddr ⟨1,0x300,0x11⟩)).getD ⟨0, 0, 0, 0, 0, 0, 0, 0, 0, 0⟩, live, by decide +kernel⟩,
   ⟨⟨0,0xC0,0x40⟩, (rowOf (regAddr ⟨0,0xC0,0x40⟩)).getD ⟨0, 0, 0, 0, 0, 0, 0, 0, 0, 0⟩, live, by decide +kernel⟩⟩

theorem test_wit_EventCommands :
    (∃ (b : BlockAddr) (s : State), b.die ≠ 7 ∧ s.present b.die.val = true ∧ blkAddr b ≠ evcB) ∧
    (∃ (b : BlockAddr) (bits : Word) (k : Nat) (s : State), b.die ≠ 7 ∧ s.present b.die.val = true ∧ k < 32 ∧
      bits.toNat.testBit k = true ∧ (evMaskOf (blkAddr b)).testBit k = true) ∧
    (∃ (die : Fin 8) (e : Nat) (rest : List (Nat × Nat)) (s : State), takeEvent die.val s.irq.inFlight = some (e,
      rest) ∧ e < 512) :=
  ⟨⟨⟨1,0x100⟩, live, by decide +kernel⟩,
   ⟨⟨1,0x100⟩, 1, 0, live, by decide +kernel⟩,
   ⟨1, 511, [], { live with irq := { live.irq with inFlight := [(1, 511)] } }, by decide +kernel⟩⟩

theorem test_wit_MessageSignalledInterrupts :
    (∃ (v : Fin 64) (s : State), bitN s.pending64 v.val = true ∧ s.msixBlocked v.val = false ∧ bitN s.irq.held v.val =
      false) ∧
    (∃ (v : Fin 64) (s : State), bitN s.irq.held v.val = true ∧ bitN s.irq.delayed v.val = true ∧ bitN s.pending64
      v.val = true ∧ s.msixBlocked v.val = false) ∧
    (∃ (v : Fin 64) (s : State), bitN s.irq.delayed v.val = false) :=
  ⟨⟨63, ({ live with irq := { live.irq with msixEnable := true } }.put evcB F.VEC_PEND_HI_BITS (2 ^ 31)).wr (gPage
     0x011 + 16 * 63 + 12) 0, by decide +kernel⟩,
   ⟨0, ({ live with irq := { live.irq with msixEnable := true, held := 1, delayed := 1 } }.put evcB F.VEC_PEND_LO_BITS
     1).wr (gPage 0x011 + 12) 0, by decide +kernel⟩,
   ⟨63, live, by decide +kernel⟩⟩

theorem test_wit_GroupArming :
    (∃ (b : BlockAddr) (s : State), b.die ≠ 7 ∧ s.present b.die.val = true ∧ usesCommit (blkAddr b) = true ∧
      s.memberOfArmed (blkAddr b) = false) ∧
    (∃ (b : BlockAddr) (s : State), b.die ≠ 7 ∧ s.present b.die.val = true ∧ usesCommit (blkAddr b) = true ∧
      s.memberOfArmed (blkAddr b) = true) ∧
    (∃ (b : BlockAddr) (n : Fin 64) (s : State), b.die ≠ 7 ∧ s.present b.die.val = true ∧ usesCommit (blkAddr b) =
      true ∧ s.memberOfArmed (blkAddr b) = false ∧ s.get (cgB n) F.CG_STAT_STATE = 0 ∧ s.is (tdB (s.get (cgB n)
      F.CG_CFG_DOMAIN)) F.TD_STAT_STOPPED = false) ∧
    (∃ (n : Fin 64) (s : State), s.get (cgB n) F.CG_STAT_STATE = 0 ∧ s.is (tdB (s.get (cgB n) F.CG_CFG_DOMAIN))
      F.TD_STAT_STOPPED = false) ∧
    (∃ (n : Fin 64) (s : State), s.get (cgB n) F.CG_STAT_STATE ≠ 0) ∧
    (∃ (n : Fin 64) (s : State), s.present 0 = true ∧ (s.get (cgB n) F.CG_STAT_STATE = 1 ∨ s.get (cgB n)
      F.CG_STAT_STATE = 3)) ∧
    (∃ (n : Fin 64) (s : State), s.get (cgB n) F.CG_STAT_STATE ≠ 1 ∧ s.get (cgB n) F.CG_STAT_STATE ≠ 3) ∧
    (∃ (n : Fin 64) (s : State), s.get (cgB n) F.CG_STAT_STATE = 0) ∧
    (∃ (n : Fin 64) (s : State), s.get (cgB n) F.CG_STAT_STATE ≠ 0) :=
  ⟨⟨⟨1,0x300⟩, live, by decide +kernel⟩,
   ⟨⟨1,0x300⟩, (live.put (cgB 63) F.CG_STAT_STATE 1).setTag (compB 0 + 0x40) 63, by decide +kernel⟩,
   ⟨⟨1,0x300⟩, 63, live, by decide +kernel⟩,
   ⟨63, live, by decide +kernel⟩,
   ⟨63, live.put (cgB 63) F.CG_STAT_STATE 4, by decide +kernel⟩,
   ⟨0, live.put (cgB 0) F.CG_STAT_STATE 3, by decide +kernel⟩,
   ⟨0, live.put (cgB 0) F.CG_STAT_STATE 2, by decide +kernel⟩,
   ⟨63, live, by decide +kernel⟩,
   ⟨63, live.put (cgB 63) F.CG_STAT_STATE 1, by decide +kernel⟩⟩

theorem test_wit_Takes :
    (∃ (d : Fin 8) (s : State), s.is (tdB d) F.TD_STAT_STOPPED = false ∧ (s.td d).cutPassed = false) ∧
    (∃ (d : Fin 8) (s : State), (s.is (tdB d) F.TD_STAT_STOPPED = true ∨ (s.td d).cutPassed = true)) ∧
    (∃ (n : Fin 64) (die : Fin 8) (s : State), s.get (cgB n) F.CG_STAT_STATE = 2 ∧ s.present die = true) ∧
    (∃ (n : Fin 64) (die : Fin 8) (s : State), (s.get (cgB n) F.CG_STAT_STATE ≠ 2 ∨ s.present die = false)) ∧
    (∃ (d : Fin 8) (s : State), s.is (tdB d) F.TD_STAT_STOPPED = false) ∧
    (∃ (d : Fin 8) (s : State), s.is (tdB d) F.TD_STAT_STOPPED = true) ∧
    (∃ (d : Fin 8) (s : State), s.is (tdB d) F.TD_STAT_STOPPED = false ∧ (s.td d).starting = true) ∧
    (∃ (g : Fin 96) (s : State), s.present (g / 16 + 1) = true ∧ s.outMember g = false) :=
  ⟨⟨7, live, by decide +kernel⟩,
   ⟨7, live.setTd 7 { Td.reset with cutPassed := true }, by decide +kernel⟩,
   ⟨63, 6, live.put (cgB 63) F.CG_STAT_STATE 2, by decide +kernel⟩,
   ⟨63, 0, live.put (cgB 63) F.CG_STAT_STATE 3, by decide +kernel⟩,
   ⟨0, live, by decide +kernel⟩,
   ⟨0, live.put (tdB 0) F.TD_STAT_STOPPED 1, by decide +kernel⟩,
   ⟨7, live, by decide +kernel⟩,
   ⟨95, live, by decide +kernel⟩⟩

theorem test_wit_RunAndStop :
    (∃ (b : BlockAddr) (s : State), b.die ≠ 7 ∧ s.present b.die = true ∧ runKind (blkAddr b) = 1 ∧ s.inMember
      (portOfRun (blkAddr b)) = false) ∧
    (∃ (b : BlockAddr) (s : State), b.die ≠ 7 ∧ s.present b.die = true ∧ runKind (blkAddr b) = 3) ∧
    (∃ (b : BlockAddr) (s : State), b.die ≠ 7 ∧ s.present b.die = true ∧ runKind (blkAddr b) = 2 ∧ s.outMember
      (portOfRun (blkAddr b)) = false) ∧
    (∃ (b : BlockAddr) (s : State), b.die ≠ 7 ∧ s.present b.die = true ∧ runKind (blkAddr b) = 4 ∧ s.memMayStop =
      true) ∧
    (∃ (b : BlockAddr) (s : State), b.die ≠ 7 ∧ s.present b.die = true ∧ runKind (blkAddr b) = 4 ∧ s.memMayStop =
      false) ∧
    (∃ (b : BlockAddr) (s : State), b.die ≠ 7 ∧ s.present b.die = true ∧ (runKind (blkAddr b) = 3 ∨ (runKind (blkAddr
      b) = 1 ∧ s.inMember (portOfRun (blkAddr b)) = false)) ∧ s.is (blkAddr b) F.STAT_STOPPED = true) ∧
    (∃ (b : BlockAddr) (s : State), b.die ≠ 7 ∧ s.present b.die = true ∧ (runKind (blkAddr b) = 3 ∨ runKind (blkAddr
      b) = 4 ∨ (runKind (blkAddr b) = 1 ∧ s.inMember (portOfRun (blkAddr b)) = false)) ∧ s.is (blkAddr b)
      F.STAT_STOPPED = false) ∧
    (∃ (b : BlockAddr) (s : State), b.die ≠ 7 ∧ s.present b.die = true ∧ runKind (blkAddr b) = 2 ∧ s.outMember
      (portOfRun (blkAddr b)) = false ∧ s.is (outB (portOfRun (blkAddr b))) F.STAT_STOPPED = true ∧ s.outCfgOk
      (portOfRun (blkAddr b)) = true) ∧
    (∃ (b : BlockAddr) (s : State), blkAddr b = mcB 0 ∧ s.present 0 = true ∧ s.is (mcB 0) F.STAT_BUSY = true ∧ s.is
      (mcB 0) F.STAT_STOPPED = false ∧ s.is (mcB 0) F.CTRL_RUN = false) ∧
    (∃ (b : BlockAddr) (s : State), s.present (dieOf (blkAddr b)) = true ∧ runKind (blkAddr b) = 2 ∧ s.is (blkAddr b)
      F.STAT_BUSY = true ∧ s.is (blkAddr b) F.STAT_STOPPED = false) ∧
    (∃ (g : Fin 96) (s : State), s.present (g / 16 + 1) = true ∧ s.outMember g = false ∧ (s.tx g).starting = true ∧
      (s.tx g).finishing = false ∧ s.is (outB g) F.STAT_STOPPED = true ∧ s.outCfgOk g = true) ∧
    (∃ (g : Fin 96) (s : State), s.present (g / 16 + 1) = true) :=
  ⟨⟨⟨6,0x10F⟩, live, by decide +kernel⟩,
   ⟨⟨0,0x130⟩, live, by decide +kernel⟩,
   ⟨⟨1,0x200⟩, live, by decide +kernel⟩,
   ⟨⟨0,0xC0⟩, (List.range 8).foldl (fun u d => u.put (tdB d) F.TD_STAT_STOPPED 1) live, by decide +kernel⟩,
   ⟨⟨0,0xC0⟩, live, by decide +kernel⟩,
   ⟨⟨1,0x101⟩, live, by decide +kernel⟩,
   ⟨⟨1,0x101⟩, live.put (inB 1) F.STAT_STOPPED 0, by decide +kernel⟩,
   ⟨⟨1,0x200⟩, (live.puts (outB 0) [(F.OUT_CFG_FMT, 7), (F.OUT_CFG_FRATE, 5)]).put (tdB 0) F.TD_CFG_FAMILY 2,
     by decide +kernel⟩,
   ⟨⟨0,0xC0⟩, live.puts (mcB 0) [(F.STAT_BUSY, 1), (F.STAT_STOPPED, 0), (F.CTRL_RUN, 0)], by decide +kernel⟩,
   ⟨⟨6,0x20F⟩, live.puts (outB 95) [(F.STAT_BUSY, 1), (F.STAT_STOPPED, 0)], by decide +kernel⟩,
   ⟨0, ((live.puts (outB 0) [(F.OUT_CFG_FMT, 7), (F.OUT_CFG_FRATE, 5)]).put (tdB 0) F.TD_CFG_FAMILY 2).setTx 0
     { Tx.idle with starting := true }, by decide +kernel⟩,
   ⟨95, live, by decide +kernel⟩⟩

theorem test_wit_ResetAndSlack :
    (∃ (b : BlockAddr) (s : State), b.die ≠ 7 ∧ s.present b.die = true ∧ hasReset (blkAddr b) = true ∧ s.stopped
      (blkAddr b) = true ∧ blkAddr b ≠ evcB) ∧
    (∃ (b : BlockAddr) (s : State), b.die ≠ 7 ∧ s.present b.die = true ∧ hasReset (blkAddr b) = true ∧ s.stopped
      (blkAddr b) = false) ∧
    (∃ (m : SlackMon) (s : State), s.slackHas m = true) ∧
    (∃ (m : SlackMon) (s : State), s.slackHas m = true) :=
  ⟨⟨⟨1,0x100⟩, live, by decide +kernel⟩,
   ⟨⟨1,0x100⟩, live.put (inB 0) F.STAT_STOPPED 0, by decide +kernel⟩,
   ⟨.finano 6 true, live, by decide +kernel⟩,
   ⟨.granary 25, live, by decide +kernel⟩⟩

theorem test_wit_SdiReceiverLock :
    (∃ (g : Fin 96) (s : State), s.rxUp g = true ∧ s.get (inB g) F.IN_STAT_STATE ≠ 0) ∧
    (∃ (g : Fin 96) (s : State), s.get (inB g) F.IN_STAT_STATE = 0) ∧
    (∃ (g : Fin 96) (s : State), s.rxUp g = true ∧ s.get (inB g) F.IN_STAT_STATE = 0) ∧
    (∃ (g : Fin 96) (c : Fin 6) (s : State), s.rxUp g = true ∧ s.get (inB g) F.IN_STAT_STATE = 1 ∧ s.searches g c =
      true) ∧
    (∃ (g : Fin 96) (c : Fin 6) (s : State), s.searches g c = false) ∧
    (∃ (g : Fin 96) (s : State), s.rxUp g = true ∧ s.get (inB g) F.IN_STAT_STATE = 1) ∧
    (∃ (g : Fin 96) (s : State), s.rxUp g = true ∧ 2 ≤ s.get (inB g) F.IN_STAT_STATE) ∧
    (∃ (g : Fin 96) (s : State), s.rxUp g = true ∧ (s.rx g).link = true) ∧
    (∃ (g : Fin 96) (s : State), s.rxUp g = true ∧ 2 ≤ s.get (inB g) F.IN_STAT_STATE) ∧
    (∃ (g : Fin 96) (s : State), s.get (inB g) F.IN_STAT_STATE < 2) ∧
    (∃ (g : Fin 96) (s : State), s.rxUp g = true ∧ s.get (inB g) F.IN_STAT_STATE = 2 ∧ (s.rx g).link = false ∧ 2 ≤
      (s.rx g).same ∧ (s.rx g).found ≠ 0) ∧
    (∃ (q : Fin 24) (s : State), s.rxUp (4 * q) = true ∧ s.inBonded (4 * q) = true ∧ (s.rx (4 * q)).group = false ∧
      s.linksAgree (4 * q) = true ∧ 2 ≤ (s.rx (4 * q)).together ∧ s.get (inB (4 * q)) F.IN_QUAD_SKEW_NS ≤ 4000) ∧
    (∃ (q : Fin 24) (s : State), s.rxUp (4 * q) = true ∧ s.inBonded (4 * q) = true ∧ (s.rx (4 * q)).group = false ∧
      s.linksAgree (4 * q) = true ∧ 2 ≤ (s.rx (4 * q)).together ∧ 4000 < s.get (inB (4 * q)) F.IN_QUAD_SKEW_NS) ∧
    (∃ (g : Fin 96) (s : State), s.rxUp g = true) :=
  ⟨⟨0, rxLive.put (inB 0) F.IN_STAT_STATE 1, by decide +kernel⟩,
   ⟨95, live, by decide +kernel⟩,
   ⟨0, rxLive, by decide +kernel⟩,
   ⟨0, 5, rxLive.put (inB 0) F.IN_STAT_STATE 1, by decide +kernel⟩,
   ⟨0, 0, rxLive, by decide +kernel⟩,
   ⟨0, rxLive.put (inB 0) F.IN_STAT_STATE 1, by decide +kernel⟩,
   ⟨0, rxLive.put (inB 0) F.IN_STAT_STATE 2, by decide +kernel⟩,
   ⟨0, rxLock, by decide +kernel⟩,
   ⟨0, rxLive.put (inB 0) F.IN_STAT_STATE 2, by decide +kernel⟩,
   ⟨95, live, by decide +kernel⟩,
   ⟨0, (rxLive.put (inB 0) F.IN_STAT_STATE 2).setRx 0 { Rx.idle with same := 2, found := 1 }, by decide +kernel⟩,
   ⟨0, (quadRx 3 2).put (inB 0) F.IN_QUAD_SKEW_NS 4000, by decide +kernel⟩,
   ⟨0, (quadRx 3 2).put (inB 0) F.IN_QUAD_SKEW_NS 4001, by decide +kernel⟩,
   ⟨0, rxLive, by decide +kernel⟩⟩

theorem test_wit_SdiLinesAndOutputs :
    (∃ (g : Fin 96) (l : RxLine) (y : Nat) (s : State), s.rxUp g = true ∧ 2 ≤ s.get (inB g) F.IN_STAT_STATE ∧ (s.rx
      g).link = true ∧ l.active = some y ∧ s.inBonded g = false ∧ (s.rx g).delivering = true ∧ l.crcErr = false ∧
      l.edhErr = false ∧ l.trsErr = 0) ∧
    (∃ (g : Fin 96) (s : State), s.rxUp g = true ∧ 2 ≤ s.get (inB g) F.IN_STAT_STATE ∧ s.get (inB g) F.IN_STAT_RATE ≠
      1) ∧
    (∃ (g : Fin 96) (s : State), s.rxUp g = true ∧ s.inBonded g = false ∧ (s.rx g).delivering = true) ∧
    (∃ (g : Fin 96) (p : AncPkt) (s : State), s.rxUp g = true ∧ s.inBonded g = false ∧ (s.rx g).delivering = true ∧
      ancIsAudio p = false ∧ ancIsPid p = false ∧ (ancIsEdh p && s.get (inB g) F.IN_STAT_RATE == 1) = false ∧ ancIsRqp
      p = false ∧ s.is (inB g) F.IN_ANC_CFG_ANC_EN = true ∧ (s.rx g).anc.length < 128 ∧ (s.rx g).ancBytes +
      ancPktBytes p ≤ 16384) ∧
    (∃ (g : Fin 96) (p : AncPkt) (s : State), s.rxUp g = true ∧ s.inBonded g = false ∧ (s.rx g).delivering = true ∧
      ancIsAudio p = false ∧ ancIsPid p = false ∧ (ancIsEdh p && s.get (inB g) F.IN_STAT_RATE == 1) = false ∧ ancIsRqp
      p = false ∧ s.is (inB g) F.IN_ANC_CFG_ANC_EN = true ∧ (128 ≤ (s.rx g).anc.length ∨ 16384 < (s.rx g).ancBytes +
      ancPktBytes p)) ∧
    (∃ (g : Fin 96) (s : State), s.present (g / 16 + 1) = true ∧ s.outMember g = false ∧ s.get (outB g)
      F.OUT_STAT_STATE = 2) ∧
    (∃ (g : Fin 96) (s : State), s.present (g / 16 + 1) = true ∧ s.outMember g = false ∧ s.get (outB g)
      F.OUT_STAT_STATE = 1 ∧ (s.tx g).finishing = true ∧ (s.tx g).toBlack = false) ∧
    (∃ (g : Fin 96) (s : State), s.get (outB g) F.OUT_STAT_STATE = 0 ∧ (s.tx g).toBlack = false) ∧
    (∃ (g : Fin 96) (line : Nat) (s : State), s.present (g / 16 + 1) = true ∧ s.outMember g = false ∧ s.sendsQuad g =
      false ∧ s.get (outB g) F.OUT_STAT_STATE = 1 ∧ line < (activeOf (fldGet (s.sentCfg g) 0 8)).2) ∧
    (∃ (g : Fin 96) (line : Nat) (s : State), s.present (g / 16 + 1) = true ∧ s.outMember g = false ∧ s.sendsQuad g =
      false ∧ s.get (outB g) F.OUT_STAT_STATE = 2 ∧ line < (activeOf (fldGet (s.sentCfg g) 0 8)).2 ∧ s.get (compB g)
      F.COMP_CFG_WB_MODE = 0) ∧
    (∃ (g : Fin 96) (line : Nat) (s u : State), s.present (g / 16 + 1) = true ∧ s.outMember g = false ∧ s.sendsQuad g
      = false ∧ s.get (outB g) F.OUT_STAT_STATE = 2 ∧ line < (activeOf (fldGet (s.sentCfg g) 0 8)).2 ∧ s.get (compB g)
      F.COMP_CFG_WB_MODE = 0 ∧ u = s.puts (outB g) [(F.OUT_POS_LINE, frameLineOf (fldGet (s.sentCfg g) 0 8) line),
      (F.OUT_POS_SAMPLE, 0)] ∧ u.linesReady g line = true) ∧
    (∃ (g : Fin 96) (s : State), s.present (g / 16 + 1) = true) :=
  ⟨⟨0, ⟨42, some 0, false, false, 0, true, []⟩, 0, rxLock, by decide +kernel⟩,
   ⟨0, rxLock, by decide +kernel⟩,
   ⟨0, rxLock, by decide +kernel⟩,
   ⟨0, ⟨0x60, 0x60, false, 9, true, []⟩, rxLock.put (inB 0) F.IN_ANC_CFG_ANC_EN 1, by decide +kernel⟩,
   ⟨0, ⟨0x60, 0x60, false, 9, true, []⟩, (rxLock.put (inB 0) F.IN_ANC_CFG_ANC_EN 1).setRx 0
     { rxLock.rx 0 with ancBytes := 16384 }, by decide +kernel⟩,
   ⟨95, live.put (outB 95) F.OUT_STAT_STATE 2, by decide +kernel⟩,
   ⟨0, (live.put (outB 0) F.OUT_STAT_STATE 1).setTx 0 { Tx.idle with finishing := true }, by decide +kernel⟩,
   ⟨0, live, by decide +kernel⟩,
   ⟨0, 0, live.put (outB 0) F.OUT_STAT_STATE 1, by decide +kernel⟩,
   ⟨0, 1079, live.puts (outB 0) [(F.OUT_STAT_STATE, 2), (F.OUT_CFG_FMT, 6)], by decide +kernel⟩,
   ⟨0, 0, live.puts (outB 0) [(F.OUT_STAT_STATE, 2), (F.OUT_CFG_FMT, 6)], (live.puts (outB 0) [(F.OUT_STAT_STATE, 2),
     (F.OUT_CFG_FMT, 6)]).puts (outB 0) [(F.OUT_POS_LINE, frameLineOf 6 0), (F.OUT_POS_SAMPLE, 0)], by decide +kernel⟩,
   ⟨95, live, by decide +kernel⟩⟩

theorem test_wit_TimingCandidates :
    (∃ (c : Fin 16) (s : State), s.candActive c = false ∧ s.candSrcOk c = true) ∧
    (∃ (c : Fin 16) (s : State), s.candActive c = true) ∧
    (∃ (c : Fin 16) (m : CandMeas) (s : State), s.candActive c = true ∧ s.candQualified c = false ∧ s.candFit c m =
      true) ∧
    (∃ (c : Fin 16) (ppb : Int) (s : State), s.candQualified c = true ∧ (1000 * s.get (candB c) F.CAND_LIMIT_FREQ_WIN
      : Int) < (ppb + roundDivI s.steer 1000).natAbs) ∧
    (∃ (c : Fin 16) (ns : Nat) (s : State), s.candQualified c = true ∧ s.get (candB c) F.CAND_LIMIT_JIT_LIMIT < ns) ∧
    (∃ (c : Fin 16) (s : State), s.candQualified c = true ∧ s.get (candB c) F.CAND_STAT_QL = 15) ∧
    (∃ (c : Fin 16) (s : State), s.candWaiting c = true) ∧
    (∃ (s : State), s.tc.selHold = 1) ∧
    (∃ (c : Fin 4) (s : State), s.is (candB (12 + c)) F.CAND_STAT_QL_FROM_MSG = true) ∧
    (∃ (s : State), s.tc.started = false) ∧
    (∃ (s : State), s.tc.started = true) ∧
    (∃ (s : State), s.tc.started = true ∧ s.get tcB F.TC_CFG_MODE = 1 ∧ s.candQualified (s.get tcB
      F.TC_CFG_FORCE_CAND) = true ∧ s.sel ≠ some (s.get tcB F.TC_CFG_FORCE_CAND)) ∧
    (∃ (s : State), s.tc.started = true ∧ s.get tcB F.TC_CFG_MODE = 3) ∧
    (∃ (a b : Fin 16) (s : State), a < b ∧ s.candQualified a = true ∧ s.candQualified b = true ∧ s.candRank a =
      s.candRank b ∧ s.get tcB F.TC_DISAGREE_THRESH_PPB < (s.geti (candB a) F.CAND_ABS_PPB - s.geti (candB b)
      F.CAND_ABS_PPB).natAbs) :=
  ⟨⟨15, rxLive.puts (inB 0) [(F.IN_STAT_STATE, 3)], by decide +kernel⟩,
   ⟨15, { live with tc := { live.tc with active := 0x8000 } }, by decide +kernel⟩,
   ⟨4, ⟨0, 0, 0⟩, { live.put (candB 4) F.CAND_STAT_QL 14 with tc := { live.tc with active := 0x10 } },
     by decide +kernel⟩,
   ⟨0, -1000000000, cand1, by decide +kernel⟩,
   ⟨0, 65536, cand1, by decide +kernel⟩,
   ⟨0, cand1.put (candB 0) F.CAND_STAT_QL 15, by decide +kernel⟩,
   ⟨0, { live with tc := { live.tc with waiting := 1 } }, by decide +kernel⟩,
   ⟨{ live with tc := { live.tc with selHold := 1 } }, by decide +kernel⟩,
   ⟨3, live.put (candB 15) F.CAND_STAT_QL_FROM_MSG 1, by decide +kernel⟩,
   ⟨live, by decide +kernel⟩,
   ⟨tcRun, by decide +kernel⟩,
   ⟨{ tcRun.puts tcB [(F.TC_CFG_MODE, 1), (F.TC_CFG_FORCE_CAND, 15)] with tc := { tcRun.tc with qualified := 0x8000 }
     }, by decide +kernel⟩,
   ⟨tcRun.put tcB F.TC_CFG_MODE 3, by decide +kernel⟩,
   ⟨0, 1, ({ live with tc := { live.tc with qualified := 3 } }.put (candB 0) F.CAND_CFG_PRIORITY 0).put (candB 1)
     F.CAND_CFG_PRIORITY 0 |>.puti (candB 0) F.CAND_ABS_PPB 100000, by decide +kernel⟩⟩

theorem test_wit_TimingLoop :
    (∃ (s : State), s.tc.started = true) ∧
    (∃ (s : State), s.get tcB F.TC_STAT_LOOP = 1 ∧ s.errSmall = true) ∧
    (∃ (s : State), s.is tcB F.TC_STAT_PULLING = true ∧ s.errSmall = true) ∧
    (∃ (s : State), s.get tcB F.TC_STAT_LOOP = 2 ∧ s.get tcB F.TC_BW_TRACK_BW * 4096 < s.tc.bw / 2) ∧
    (∃ (s : State), s.get tcB F.TC_STAT_LOOP = 2 ∧ s.tc.bw / 2 ≤ s.get tcB F.TC_BW_TRACK_BW * 4096) ∧
    (∃ (s : State), s.get tcB F.TC_STAT_LOOP = 3) ∧
    (∃ (s : State), s.get tcB F.TC_STAT_REF_STATE = 2) ∧
    (∃ (s : State), s.get tcB F.TC_STAT_LOOP = 3 ∧ s.is tcB F.TC_CFG_LEARN = true ∧ s.tc.hist ≠ []) :=
  ⟨⟨tcRun, by decide +kernel⟩,
   ⟨tcRun.put tcB F.TC_STAT_LOOP 1, by decide +kernel⟩,
   ⟨tcRun.put tcB F.TC_STAT_PULLING 1, by decide +kernel⟩,
   ⟨{ tcRun.puts tcB [(F.TC_STAT_LOOP, 2), (F.TC_BW_TRACK_BW, 1)] with tc := { tcRun.tc with bw := 409600 } },
     by decide +kernel⟩,
   ⟨{ tcRun.puts tcB [(F.TC_STAT_LOOP, 2), (F.TC_BW_TRACK_BW, 1)] with tc := { tcRun.tc with bw := 8192 } },
     by decide +kernel⟩,
   ⟨tcRun.put tcB F.TC_STAT_LOOP 3, by decide +kernel⟩,
   ⟨tcRun.put tcB F.TC_STAT_REF_STATE 2, by decide +kernel⟩,
   ⟨{ tcRun.puts tcB [(F.TC_STAT_LOOP, 3), (F.TC_CFG_LEARN, 1)] with tc := { tcRun.tc with hist := [(0, 0)] } },
     by decide +kernel⟩⟩

theorem test_wit_TimeAndDomains :
    (∃ (v : Nat) (ns : Fin 1000000) (s : State), s.present 0 = true ∧ s.tc.tsSet = some v ∧ s.ppsSelected = false ∧
      (s.tc.now + ns.val) % 10 ^ 9 = 0) ∧
    (∃ (v : Nat) (s : State), s.present 0 = true ∧ s.tc.tsSet = some v ∧ s.ppsSelected = true) ∧
    (∃ (v : Nat) (s : State), s.tc.tsSet = some v ∧ s.ppsSelected = false ∧ 0 < s.tc.now % 10 ^ 9 ∧ s.tc.now % 10 ^ 9
      ≤ 10 ^ 9 - 10 ^ 6) ∧
    (∃ (s : State), s.tc.tsSet = none) ∧
    (∃ (d : Fin 8) (s : State), s.is (tdB d) F.TD_STAT_STOPPED = true ∧ s.tdCfgOk d = true) ∧
    (∃ (d : Fin 8) (s : State), s.is (tdB d) F.TD_STAT_STOPPED = true ∧ s.tdCfgOk d = false) ∧
    (∃ (d : Fin 8) (s : State), s.is (tdB d) F.TD_STAT_STOPPED = false) ∧
    (∃ (d : Fin 8) (s : State), s.is (tdB d) F.TD_STAT_STOPPED = false ∧ s.is (tdB d) F.TD_STAT_PULLING = false ∧ s.is
      (tdB d) F.TD_STAT_JUMP_PENDING = false ∧ (s.td d).jumped = false) ∧
    (∃ (d : Fin 8) (s : State), s.is (tdB d) F.TD_STAT_STOPPED = false ∧ s.is (tdB d) F.TD_STAT_PULLING = false ∧ s.is
      (tdB d) F.TD_STAT_JUMP_PENDING = false ∧ (s.td d).jumped = false ∧ s.get (tdB d) F.TD_JUMP_FRAME_VALUE = 0) ∧
    (∃ (d : Fin 8) (s : State), (s.is (tdB d) F.TD_STAT_STOPPED = true ∨ s.is (tdB d) F.TD_STAT_PULLING = true ∨ s.is
      (tdB d) F.TD_STAT_JUMP_PENDING = true)) ∧
    (∃ (d : Fin 8) (s : State), s.is (tdB d) F.TD_STAT_PULLING = true ∧ (s.td d).mis.natAbs < 1000000) ∧
    (∃ (d : Fin 8) (s : State), s.is (tdB d) F.TD_STAT_JUMP_PENDING = true ∧ s.get (tdB d) F.TD_FRAME_COUNT = (s.td
      d).jumpFrame) :=
  ⟨⟨0, 0, { live with tc := { live.tc with tsSet := some 0 } }, by decide +kernel⟩,
   ⟨0, { live.puts tcB [(F.TC_STAT_SEL_VALID, 1), (F.TC_STAT_SELECTED, 4)] with tc := { live.tc with tsSet := some 0 }
     }, by decide +kernel⟩,
   ⟨0, { live with tc := { live.tc with tsSet := some 0, now := 1 } }, by decide +kernel⟩,
   ⟨live, by decide +kernel⟩,
   ⟨7, live.puts (tdB 7) [(F.TD_STAT_STOPPED, 1), (F.TD_CFG_FRATE, 5), (F.TD_CFG_FAMILY, 2), (F.TD_CFG_FMT, 6)],
     by decide +kernel⟩,
   ⟨7, live.puts (tdB 7) [(F.TD_STAT_STOPPED, 1), (F.TD_CFG_FRATE, 11)], by decide +kernel⟩,
   ⟨7, live, by decide +kernel⟩,
   ⟨0, live, by decide +kernel⟩,
   ⟨0, live.put (tdB 0) F.TD_JUMP_FRAME_VALUE 0, by decide +kernel⟩,
   ⟨0, live.put (tdB 0) F.TD_STAT_JUMP_PENDING 1, by decide +kernel⟩,
   ⟨0, live.put (tdB 0) F.TD_STAT_PULLING 1, by decide +kernel⟩,
   ⟨0, live.put (tdB 0) F.TD_STAT_JUMP_PENDING 1, by decide +kernel⟩⟩

theorem test_wit_FloorRoutes :
    (∃ (table : Fin 3) (entry : Fin 1024) (s : State), s.present 0 = true ∧ entry.val < routeN table) ∧
    (∃ (table : Fin 3) (entry : Fin 1024), routeN table ≤ entry.val) ∧
    (∃ (table : Fin 2) (entry : Fin 1024) (s : State), entry.val < routeN table ∧ (s.route table entry).due = 1 ∧
      s.get (routeStatA table entry) F.ROUTE_STAT_PATH = 1) ∧
    (∃ (table : Fin 2) (entry : Fin 1024) (s : State), entry.val < routeN table ∧ (s.route table entry).due = 2 ∧ s.is
      (routeStatA table entry) F.ROUTE_STAT_FALLBACK = true) ∧
    (∃ (s : State), s.present 0 = true) ∧
    (∃ (table : Fin 3) (entry : Fin 1024) (s : State), entry.val < routeN table ∧ s.effIs (routeA table entry)
      F.ROUTE_CFG_EN = true ∧ (s.route table entry).lost = true ∧ s.srcDelivers (s.routeSrc table entry) = true ∧
      s.srcEpoch (s.routeSrc table entry) = (s.route table entry).epoch ∧ s.is (routeStatA table entry)
      F.ROUTE_STAT_SUSPENDED = false ∧ s.is (routeStatA table entry) F.ROUTE_STAT_SHED = false) ∧
    (∃ (table : Fin 3) (entry : Fin 1024) (s : State), (s.route table entry).lost = false) :=
  ⟨⟨1, 1023, live, by decide +kernel⟩,
   ⟨0, 384, by decide +kernel⟩,
   ⟨0, 383, (live.put (routeStatA 0 383) F.ROUTE_STAT_PATH 1).setRoute 0 383 { RouteX.idle with due := 1 },
     by decide +kernel⟩,
   ⟨1, 1023, (live.put (routeStatA 1 1023) F.ROUTE_STAT_FALLBACK 1).setRoute 1 1023 { RouteX.idle with due := 2 },
     by decide +kernel⟩,
   ⟨live, by decide +kernel⟩,
   ⟨0, 383, ((live.effWr (routeA 0 383) 0x80000600).effWr (storeA 0) 3).setRoute 0 383
     { RouteX.idle with lost := true }, by decide +kernel⟩,
   ⟨2, 511, live, by decide +kernel⟩⟩

theorem test_wit_FinanoLinks :
    (∃ (sheaf : Fin 8) (dir : Bool) (link : Fin 2) (s : State), s.sheafUp sheaf = true ∧ s.is flB (linkBit sheaf dir
      link) = true) ∧
    (∃ (sheaf : Fin 8) (dir : Bool) (link : Fin 2) (s : State), s.is flB (linkBit sheaf dir link) = false) ∧
    (∃ (sheaf : Fin 8) (dir : Bool) (s : State), s.sheafUp sheaf = true ∧ s.oneLink sheaf dir = true ∧ tget false
      s.floor.moved (dirKey sheaf dir) = false) ∧
    (∃ (sheaf : Fin 8) (dir : Bool) (s : State), (tget false s.floor.moved (dirKey sheaf dir) = true ∨ s.oneLink sheaf
      dir = false)) ∧
    (∃ (sheaf : Fin 8) (dir : Bool) (link : Fin 2) (s : State), s.sheafUp sheaf = true ∧ s.is flB (linkBit sheaf dir
      link) = false) ∧
    (∃ (sheaf : Fin 8) (dir : Bool) (link : Fin 2) (s : State), s.sheafUp sheaf = true ∧ s.is flB (linkBit sheaf dir
      link) = false ∧ tget false s.floor.tested (linkKey sheaf dir link) = true) ∧
    (∃ (sheaf : Fin 8) (dir : Bool) (link : Fin 2) (s : State), tget false s.floor.tested (linkKey sheaf dir link) =
      false) :=
  ⟨⟨6, true, 1, live, by decide +kernel⟩,
   ⟨6, true, 1, live.put flB (linkBit 6 true 1) 0, by decide +kernel⟩,
   ⟨1, false, live.put flB (linkBit 1 false 0) 0, by decide +kernel⟩,
   ⟨1, false, live, by decide +kernel⟩,
   ⟨1, false, 0, live.put flB (linkBit 1 false 0) 0, by decide +kernel⟩,
   ⟨1, false, 0, { live.put flB (linkBit 1 false 0) 0 with
     floor := { live.floor with tested := [(linkKey 1 false 0, true)] } }, by decide +kernel⟩,
   ⟨1, false, 0, live, by decide +kernel⟩⟩

theorem test_wit_SiloFrames :
    (∃ (r : RingId) (e : Int) (i : Nat) (s : State), (s.ctxStart (ringKey r) e).ringWrites (ringKey r) = true ∧
      (((s.ctxStart (ringKey r) e).ring (ringKey r)).cutShort ((s.ctxStart (ringKey r) e).ringSrc (ringKey r))).choose
      = some i) ∧
    (∃ (r : RingId) (e : Int) (s : State), (s.ctxStart (ringKey r) e).ringWrites (ringKey r) = true ∧ (((s.ctxStart
      (ringKey r) e).ring (ringKey r)).cutShort ((s.ctxStart (ringKey r) e).ringSrc (ringKey r))).choose = none) ∧
    (∃ (r : RingId) (e : Int) (s : State), (s.ctxStart (ringKey r) e).ringWrites (ringKey r) = false) ∧
    (∃ (r : RingId) (b : Buf) (s : State), (s.ring (ringKey r)).writing = some b) ∧
    (∃ (r : RingId) (b : Buf) (s : State), (s.ring (ringKey r)).writing = some b ∧ ((s.ring (ringKey r)).delivering =
      true ∨ b.src = s.ringSrc (ringKey r)) ∧ s.enabled 2 = []) ∧
    (∃ (g : Fin 96) (k : Fin 4) (r : Nat) (s : State), s.is siloB F.SILO_CFG_LOSS_MODE = true ∧ s.lossRepeats g (4 * g
      + k) = some r ∧ max 1 (s.get siloB F.SILO_CFG_LOSS_FRAMES) ≤ r ∧ s.srcDelivers (s.routeSrc 0 (4 * g + k)) =
      false ∧ tget false s.silo.hidden (4 * g + k) = false) ∧
    (∃ (g : Fin 96) (k : Fin 4) (s : State), (s.is siloB F.SILO_CFG_LOSS_MODE = false ∨ s.srcDelivers (s.routeSrc 0 (4
      * g + k)) = true)) :=
  ⟨⟨.store 511, 0, 0, ringLive, by decide +kernel⟩,
   ⟨.store 511, 0, ringFull, by decide +kernel⟩,
   ⟨.store 511, 0, live, by decide +kernel⟩,
   ⟨.store 511, { Buf.empty with st := 1 }, ringSt false, by decide +kernel⟩,
   ⟨.store 511, { Buf.empty with st := 1 }, ringSt true, by decide +kernel⟩,
   ⟨0, 0, 25, hideLive, by decide +kernel⟩,
   ⟨0, 0, live.put siloB F.SILO_CFG_LOSS_MODE 0, by decide +kernel⟩⟩

theorem test_wit_MemoryWindow :
    (∃ (offset : BitVec 32) (data : List Byte) (i : Nat) (s : State), data ≠ [] ∧ offset.toNat % 2 ^ 21 < 2096640 ∧
      data.length ≤ 640 - offset.toNat % 2 ^ 21 % 640 ∧ s.silo.held = [] ∧ s.silo.combining = [] ∧ s.surfaceOf (s.get
      siloB F.BAR2_BASE_BIN + offset.toNat / 2 ^ 21) = some i ∧ (combineAdd ⟨s.get siloB F.BAR2_BASE_BIN +
      offset.toNat / 2 ^ 21, offset.toNat % 2 ^ 21 / 640, []⟩ (offset.toNat % 2 ^ 21 % 640) data).bytes.length ≠ 640) ∧
    (∃ (offset : BitVec 32) (data : List Byte) (s : State), data ≠ [] ∧ offset.toNat % 2 ^ 21 < 2096640 ∧ data.length
      ≤ 640 - offset.toNat % 2 ^ 21 % 640 ∧ s.surfaceOf (s.get siloB F.BAR2_BASE_BIN + offset.toNat / 2 ^ 21) = none ∧
      s.silo.held = []) ∧
    (∃ (offset : BitVec 32) (data : List Byte) (s : State), data ≠ [] ∧ offset.toNat % 2 ^ 21 < 2096640 ∧ data.length
      ≤ 640 - offset.toNat % 2 ^ 21 % 640 ∧ s.surfaceOf (s.get siloB F.BAR2_BASE_BIN + offset.toNat / 2 ^ 21) = none ∧
      s.silo.held ≠ []) ∧
    (∃ (offset : BitVec 32), offset.toNat % 2 ^ 21 ≥ 2096640) ∧
    (∃ (offset : BitVec 32) (b : List Byte) (s : State), offset.toNat % 4 = 0 ∧ offset.toNat % 2 ^ 21 < 2096640 ∧ 2 ≤
      (s.binOwner (s.get siloB F.BAR2_BASE_BIN + offset.toNat / 2 ^ 21)).1 ∧ s.silo.combining = [] ∧ (s.binRead (s.get
      siloB F.BAR2_BASE_BIN + offset.toNat / 2 ^ 21) (offset.toNat % 2 ^ 21 / 640) (offset.toNat % 2 ^ 21 % 640 / 64)
      1).2 = some b) ∧
    (∃ (bin : Fin 0x40000) (stripe : Fin 3276) (e : Combine) (s : State), e ∈ s.silo.combining ∧ e.bin = bin ∧
      e.stripe = stripe ∧ s.surfaceOf bin = none) ∧
    (∃ (s : State), s.silo.combining = []) ∧
    (∃ (s : State), s.silo.held = []) :=
  ⟨⟨639, [1], 0, surfLive, by decide +kernel⟩,
   ⟨0x1FFDC0, [1], live, by decide +kernel⟩,
   ⟨0x1FFDBF, [1], { live with silo := { live.silo with held := [(512, 0, [])] } }, by decide +kernel⟩,
   ⟨0x1FFE00, by decide +kernel⟩,
   ⟨636, (surfLive.stripeData 0 9 1).2.getD [], surfLive, by decide +kernel⟩,
   ⟨0x3FFFF, 3275, ⟨0x3FFFF, 3275, []⟩, { live with silo := { live.silo with combining := [⟨0x3FFFF, 3275, []⟩] } },
     by decide +kernel⟩,
   ⟨live, by decide +kernel⟩,
   ⟨live, by decide +kernel⟩⟩

theorem test_wit_ComposerTables :
    (∃ (g : Fin 96) (c : CoefAddr) (p : Nat) (s : State), s.present (g / 16 + 1) = true ∧ s.outMember g = false ∧ ¬
      (c.vertical = true ∧ c.word = 3) ∧ s.coefLocked g c.layer = false ∧ p ∈ s.outGroup g) ∧
    (∃ (g : Fin 96) (c : CoefAddr) (s : State), s.present (g / 16 + 1) = true ∧ s.outMember g = false ∧ ¬ (c.vertical
      = true ∧ c.word = 3) ∧ s.coefLocked g c.layer = true) ∧
    (∃ (g : Fin 96) (s : State), s.present (g / 16 + 1) = true ∧ s.outMember g = true) ∧
    (∃ (g : Fin 96) (s : State), s.present (g / 16 + 1) = true ∧ s.outMember g = false ∧ s.outStopped g = true) ∧
    (∃ (g : Fin 96) (p : Nat) (s : State), s.present (g / 16 + 1) = true ∧ s.outMember g = false ∧ s.get (compB g +
      0x2000) F.LUT_ADDR_BANK ≠ s.effGet (compB g) F.COMP_COLOR_LUT_BANK ∧ s.bankArmed g = false ∧ s.get (compB g +
      0x2000) F.LUT_ADDR_INDEX < lutSize (s.lutTable g) ∧ p ∈ s.outGroup g) ∧
    (∃ (g : Fin 96) (s : State), s.present (g / 16 + 1) = true ∧ s.outMember g = false ∧ (s.get (compB g + 0x2000)
      F.LUT_ADDR_BANK = s.effGet (compB g) F.COMP_COLOR_LUT_BANK ∨ s.bankArmed g = true)) ∧
    (∃ (g : Fin 96) (s : State), s.present (g / 16 + 1) = true ∧ s.get (compB g + 0x2000) F.LUT_ADDR_INDEX < lutSize
      (s.lutTable g)) ∧
    (∃ (g : Fin 96) (u : CompUe) (s : State), s.present (g / 16 + 1) = true ∧ 8 ≤ u.array.val ∧ u.array.val < 10) ∧
    (∃ (g : Fin 96) (u : CompUe) (s : State), s.present (g / 16 + 1) = true ∧ 2 ≤ u.array.val ∧ u.array.val < 8 ∧
      u.array.val % 2 = s.effGet (compB (if s.outMember g = true then g - g % 4 else g)) F.COMP_COLOR_LUT_BANK) :=
  ⟨⟨95, ⟨1, false, 63, 3⟩, 95, live, by decide +kernel⟩,
   ⟨0, ⟨0, true, 63, 2⟩, (live.effWr (layB 0 0) 1).put (outB 0) F.STAT_STOPPED 0, by decide +kernel⟩,
   ⟨1, live.put (outB 0) F.OUT_CFG_BOND 1, by decide +kernel⟩,
   ⟨95, live, by decide +kernel⟩,
   ⟨0, 0, live.put (compB 0 + 0x2000) F.LUT_ADDR_BANK 1, by decide +kernel⟩,
   ⟨0, live, by decide +kernel⟩,
   ⟨95, live, by decide +kernel⟩,
   ⟨0, ⟨9, 511, 0, false⟩, live, by decide +kernel⟩,
   ⟨0, ⟨2, 511, 0, false⟩, live, by decide +kernel⟩⟩

theorem test_wit_FencesAndLines :
    (∃ (g : Fin 96) (s : State), s.present (g / 16 + 1) = true ∧ s.outMember g = false) ∧
    (∃ (g : Fin 96) (s : State), s.outMember g = true) ∧
    (∃ (g : Fin 96) (s : State), s.present (g / 16 + 1) = true ∧ s.silo.held = []) ∧
    (∃ (g : Fin 96) (s : State), s.present (g / 16 + 1) = true ∧ s.silo.held ≠ []) ∧
    (∃ (sheaf : Fin 8) (dir : Bool) (s : State), s.sheafUp sheaf = true ∧ (s.is flB (linkBit sheaf dir 0) = true ∨
      s.is flB (linkBit sheaf dir 1) = true)) ∧
    (∃ (sheaf : Fin 8) (dir : Bool) (s : State), s.is flB (linkBit sheaf dir 0) = false ∧ s.is flB (linkBit sheaf dir
      1) = false) :=
  ⟨⟨95, live, by decide +kernel⟩,
   ⟨1, live.put (outB 0) F.OUT_CFG_BOND 1, by decide +kernel⟩,
   ⟨95, live, by decide +kernel⟩,
   ⟨95, { live with silo := { live.silo with held := [(512, 0, [])] } }, by decide +kernel⟩,
   ⟨6, true, live.put flB (linkBit 6 true 1) 0, by decide +kernel⟩,
   ⟨6, true, (live.put flB (linkBit 6 true 1) 0).put flB (linkBit 6 true 0) 0, by decide +kernel⟩⟩

theorem test_wit_RateConversion :
    (∃ (e : Fin 8) (c : Fin 2) (f : ConvFrame) (v : CvView) (q : Option CvView) (s : State), s.slotUsed e c = true ∧
      s.srcFrozen (s.get (ctxA e c) F.CTX_KEY_SRC) = false ∧ around (f.start - s.get (ctxA e c) F.CTX_DELAY_NS)
      (s.ctxViews e c) = (none, q) ∧ newestView (s.ctxViews e c) = some v) ∧
    (∃ (e : Fin 8) (c : Fin 2) (f : ConvFrame) (v va : CvView) (s : State), s.slotUsed e c = true ∧ s.srcFrozen (s.get
      (ctxA e c) F.CTX_KEY_SRC) = false ∧ around (f.start - s.get (ctxA e c) F.CTX_DELAY_NS) (s.ctxViews e c) = (some
      va, none) ∧ newestView (s.ctxViews e c) = some v) ∧
    (∃ (e : Fin 8) (c : Fin 2) (f : ConvFrame) (q : Option CvView) (s : State), s.slotUsed e c = true ∧ s.srcFrozen
      (s.get (ctxA e c) F.CTX_KEY_SRC) = false ∧ around (f.start - s.get (ctxA e c) F.CTX_DELAY_NS) (s.ctxViews e c) =
      (none, q) ∧ newestView (s.ctxViews e c) = none) ∧
    (∃ (e : Fin 8) (c : Fin 2) (s : State), s.slotUsed e c = true ∧ s.srcFrozen (s.get (ctxA e c) F.CTX_KEY_SRC) =
      true) ∧
    (∃ (e : Fin 8) (c : Fin 2) (f : ConvFrame) (va vb : CvView) (s : State), s.slotUsed e c = true ∧ s.srcFrozen
      (s.get (ctxA e c) F.CTX_KEY_SRC) = false ∧ around (f.start - s.get (ctxA e c) F.CTX_DELAY_NS) (s.ctxViews e c) =
      (some va, some vb) ∧ (s.get (ctxA e c) F.CTX_STAT_STATE ≠ 3 ∨ (s.srcDelivers (s.get (ctxA e c) F.CTX_KEY_SRC) =
      true ∧ va.fresh = true ∧ vb.fresh = true))) ∧
    (∃ (e : Fin 8) (c : Fin 2) (s : State), s.slotUsed e c = true) ∧
    (∃ (e : Fin 8) (c : Fin 2) (s : State), s.slotUsed e c = false) ∧
    (∃ (e : Fin 8) (c : Fin 2) (p : CvPic) (k : Nat) (prev : Option CvPic) (s : State), s.slotUsed e c = true ∧ s.get
      (ctxA e c) F.CTX_KEY_SRCMODE = 1 ∧ s.get (ctxA e c) F.CTX_STAT_CADENCE = 0 ∧ s.cadenceNext e c = some (p, k,
      prev)) ∧
    (∃ (e : Fin 8) (c : Fin 2) (s : State), s.cadenceNext e c = none) ∧
    (∃ (e : Fin 8) (s : State), (s.slotUsed e 0 = true ∨ s.slotUsed e 1 = true)) ∧
    (∃ (e : Fin 8) (s : State), s.slotUsed e 0 = false ∧ s.slotUsed e 1 = false) :=
  ⟨⟨7, 1, ⟨0, 0⟩, ⟨5, true, [(cvPic 0 5, 0)]⟩, some ⟨5, true, [(cvPic 0 5, 0)]⟩, cvSlot [cvPic 0 5],
     by decide +kernel⟩,
   ⟨7, 1, ⟨10, 0⟩, ⟨5, true, [(cvPic 0 5, 0)]⟩, ⟨5, true, [(cvPic 0 5, 0)]⟩, cvSlot [cvPic 0 5], by decide +kernel⟩,
   ⟨7, 1, ⟨0, 0⟩, none, slot71, by decide +kernel⟩,
   ⟨7, 1, slot71.effWr (sringA 0) 8, by decide +kernel⟩,
   ⟨7, 1, ⟨5, 0⟩, ⟨5, true, [(cvPic 0 5, 0)]⟩, ⟨10, true, [(cvPic 1 10, 0)]⟩, cvSlot [cvPic 0 5, cvPic 1 10],
     by decide +kernel⟩,
   ⟨7, 1, slot71, by decide +kernel⟩,
   ⟨7, 1, live, by decide +kernel⟩,
   ⟨7, 1, cvPic 0 5, 0, none, (cvSlot [cvPic 0 5]).put (ctxA 7 1) F.CTX_KEY_SRCMODE 1, by decide +kernel⟩,
   ⟨7, 1, slot71, by decide +kernel⟩,
   ⟨7, slot71, by decide +kernel⟩,
   ⟨7, live, by decide +kernel⟩⟩

theorem test_wit_AudioRouter :
    (∃ (s : State), s.present 0 = true) ∧
    (∃ (k : Fin 96) (ppb : Int) (s : State), s.effGet (asrcB k) F.ASRC_CFG_COUNT ≠ 0 ∧ ppb.natAbs ≤ 1000000) ∧
    (∃ (k : Fin 96) (s : State), s.effGet (asrcB k) F.ASRC_CFG_COUNT ≠ 0) ∧
    (∃ (k : Fin 96) (s : State), s.effGet (asrcB k) F.ASRC_CFG_COUNT = 0) ∧
    (∃ (n : Fin 16384) (s : State), s.audEnabled.contains n = true ∧ s.effIs (rtA n) F.ROUTE_TIME_AUTO = true ∧
      s.followed (s.audDst n) = none) ∧
    (∃ (n : Fin 16384) (p : Nat × Nat) (s : State), s.audEnabled.contains n = true ∧ s.effIs (rtA n) F.ROUTE_TIME_AUTO
      = true ∧ s.followed (s.audDst n) = some p ∧ ((∀ c, s.inUse n = some c → audIsGen c = false)) ∧ s.followedLedger
      p = 0xFFFFFFFF) :=
  ⟨⟨live, by decide +kernel⟩,
   ⟨95, -1000000, live.effWr (asrcB 95 + F.ASRC_CFG_COUNT.off) 0xFFFFFFFF, by decide +kernel⟩,
   ⟨95, live.effWr (asrcB 95 + F.ASRC_CFG_COUNT.off) 0xFFFFFFFF, by decide +kernel⟩,
   ⟨95, live, by decide +kernel⟩,
   ⟨16383, (live.effWr (rsA 16383) 0x80000000).effWr (rtA 16383) 0xFFFFFFFF, by decide +kernel⟩,
   ⟨16383, (0, 0), audHeld, by decide +kernel⟩⟩

theorem test_wit_EmbeddedAudio :
    (∃ (g : Fin 96) (k : Fin 8) (s : State), s.rxUp g = true ∧ s.inBonded g = false ∧ (s.rx g).delivering = true ∧
      k.val < s.inGroups g) ∧
    (∃ (g : Fin 96) (k : Fin 8) (s : State), s.rxUp g = true ∧ s.inBonded g = false ∧ (s.rx g).delivering = true ∧
      k.val < s.inGroups g) ∧
    (∃ (g : Fin 96) (p : AudPkt) (s : State), s.inBonded g = false ∧ s.inGroups g ≤ audGroup p) ∧
    (∃ (g : Fin 96) (s : State), s.rxUp g = false) ∧
    (∃ (g : Fin 96) (s : State), s.rxUp g = true) ∧
    (∃ (s : State), s.is arB F.LIM_CFG_EN = true) ∧
    (∃ (s : State), s.is arB F.LIM_CFG_EN = false) :=
  ⟨⟨0, 0, rxLock, by decide +kernel⟩,
   ⟨0, 0, rxLock, by decide +kernel⟩,
   ⟨0, .control 7 .sync48, rxLock, by decide +kernel⟩,
   ⟨95, State.reset, by decide +kernel⟩,
   ⟨0, rxLive, by decide +kernel⟩,
   ⟨live.put arB F.LIM_CFG_EN 1, by decide +kernel⟩,
   ⟨live.put arB F.LIM_CFG_EN 0, by decide +kernel⟩⟩

theorem test_wit_HostQueuesAndLinks :
    (∃ (s : State), s.present 0 = true) ∧
    (∃ (n : Fin 4) (v : Word) (s : State), s.present 0 = true ∧ s.is (ipB n 15) F.HQT_STAT_BUSY = false ∧ 60 ≤ fldGet
      v 0 12 ∧ fldGet v 0 12 ≤ 2048) ∧
    (∃ (n : Fin 4) (s : State), s.present 0 = true ∧ s.is (ipB n 15) F.HQT_STAT_BUSY = true) ∧
    (∃ (n : Fin 4) (s : State), s.is (ipB n 15) F.HQT_STAT_BUSY = true) ∧
    (∃ (n : Fin 4) (s : State), s.is (ipB n 15) F.HQT_STAT_BUSY = false) ∧
    (∃ (n : Fin 4) (s : State), s.portUp n = false) ∧
    (∃ (n : Fin 4) (f : EthFrame) (s : State), s.portUp n = true ∧ f.fits = false) ∧
    (∃ (n : Fin 4) (f : EthFrame) (s : State), s.portUp n = true ∧ f.fits = true ∧ ((f.fcsOk = false ∨ f.bytes.length
      < 60))) ∧
    (∃ (n : Fin 4) (f : EthFrame) (s : State), s.portUp n = true ∧ f.fits = true ∧ f.fcsOk = true ∧ 60 ≤
      f.bytes.length ∧ f.bytes.length ≤ 2048 ∧ beAt f.bytes 12 2 ≠ 0x8808 ∧ s.is (ipB n 2) F.MS_CFG_EN = false ∧ beAt
      f.bytes 0 6 = s.portMac n ∧ udpOf f.bytes = none ∧ s.forHost n f.bytes = true ∧ sumN ((s.hqr n).map fun p =>
      p.1.length) + f.bytes.length ≤ 32768) ∧
    (∃ (s : State), s.present 0 = true) ∧
    (∃ (n : Fin 4) (w : Nat) (l : List (Nat × Nat)) (s : State), s.i2cQ n = (n.val, w) :: l) ∧
    (∃ (n : Fin 4) (s : State), s.i2cQ n = []) ∧
    (∃ (n : Fin 4) (b : Bool) (s : State), s.is (ipB n 0) F.PORT_STAT_MOD_PRESENT ≠ b) ∧
    (∃ (n : Fin 4) (b : Bool) (s : State), s.is (ipB n 0) F.PORT_STAT_MOD_PRESENT = b) ∧
    (∃ (n : Fin 4) (s : State), s.is (ipB n 0) F.PORT_STAT_LINK = false) ∧
    (∃ (n : Fin 4) (s : State), s.is (ipB n 0) F.PORT_STAT_LINK = true) ∧
    (∃ (n : Fin 4) (s : State), s.is (ipB n 0) F.PORT_STAT_LINK = true ∧ s.candActive (8 + n) = true) ∧
    (∃ (array : Fin 6), array.val < 3) ∧
    (∃ (array : Fin 6), 3 ≤ array.val) :=
  ⟨⟨live, by decide +kernel⟩,
   ⟨3, 2048, live, by decide +kernel⟩,
   ⟨3, live.put (ipB 3 15) F.HQT_STAT_BUSY 1, by decide +kernel⟩,
   ⟨3, live.put (ipB 3 15) F.HQT_STAT_BUSY 1, by decide +kernel⟩,
   ⟨3, live, by decide +kernel⟩,
   ⟨3, live, by decide +kernel⟩,
   ⟨3, ⟨[], true, 0, false⟩, portLive 3, by decide +kernel⟩,
   ⟨3, ⟨List.replicate 59 0, true, 0, true⟩, portLive 3, by decide +kernel⟩,
   ⟨3, ⟨List.replicate 60 0, true, 0, true⟩, (portLive 3).put (ipB 3 0) F.HQ_CFG_RX_EN 1, by decide +kernel⟩,
   ⟨live, by decide +kernel⟩,
   ⟨3, 0, [], { live with ip := { live.ip with i2c := [(1, [(3, 0)])] } }, by decide +kernel⟩,
   ⟨3, live, by decide +kernel⟩,
   ⟨3, true, live, by decide +kernel⟩,
   ⟨3, false, live, by decide +kernel⟩,
   ⟨3, live, by decide +kernel⟩,
   ⟨3, portLive 3, by decide +kernel⟩,
   ⟨3, { portLive 3 with tc := { live.tc with active := 0x800 } }, by decide +kernel⟩,
   ⟨2, by decide +kernel⟩,
   ⟨3, by decide +kernel⟩⟩

theorem test_wit_MediaContexts :
    (∃ (c : Fin 1024) (a m : Nat) (s : State), (s.rxType c = 1 ∨ s.rxType c = 4) ∧ (s.irx c).start = some a ∧ (s.irx
      c).markers = [m] ∧ (s.irx c).held = []) ∧
    (∃ (c : Fin 1024) (s : State), (s.irx c).markers = []) ∧
    (∃ (c : Fin 1024) (s : State), s.rxType c ≠ 0 ∧ s.get (rxA c) F.RX_STAT_STATE = 2) ∧
    (∃ (c : Fin 1024) (s : State), s.get (rxA c) F.RX_STAT_STATE ≠ 2) ∧
    (∃ (c : Fin 1024) (b : Bool) (s : State), s.get (rxA c) F.RX_STAT_STATE = 2 ∧ s.rxType c ≠ 0 ∧ s.rxLegOn c (if b
      then 1 else 0) = true ∧ bitN (s.irx c).lost (if b then 1 else 0) = false) ∧
    (∃ (c : Fin 1024) (s : State), (s.rxType c = 2 ∨ s.rxType c = 3) ∧ s.get (rxA c) F.RX_STAT_STATE = 2) ∧
    (∃ (c : Fin 1024) (s : State), s.partWords (txWord c) = [] ∧ (s.route 1 c).due = 0 ∧ s.txType c = 1) ∧
    (∃ (c : Fin 1024) (s : State), s.partWords (txWord c) = [] ∧ (s.route 1 c).due = 0 ∧ s.txType c ≠ 1) ∧
    (∃ (c : Fin 1024) (s : State), s.txType c = 1 ∧ (s.itx c).what ≠ 2 ∧ (s.itx c).sent < fieldPackets (s.txFmtWord c)
      * fieldsOf (s.txFmtWord c)) ∧
    (∃ (c : Fin 1024) (s : State), (s.txType c ≠ 1 ∨ (s.itx c).what = 2)) ∧
    (∃ (c : Fin 1024) (n : Nat) (s : State), (s.txType c = 2 ∨ s.txType c = 3) ∧ n % audPacket (s.txType c)
      (s.txAudWord c) = 0) ∧
    (∃ (c : Fin 1024) (n : Nat) (s : State), n % audPacket (s.txType c) (s.txAudWord c) ≠ 0) ∧
    (∃ (n : Fin 4) (d : Byte) (a : Announce) (s : State), s.is (ipB n 1) F.PTP_CFG_EN = true ∧ s.portUp n = true ∧
      d.toNat = s.get (ipB n 1) F.PTP_CFG_DOMAIN ∧ s.ptpAccepts n a.sender = true) ∧
    (∃ (n : Fin 4) (d : Byte) (sender port : Nat) (s : State), s.is (ipB n 1) F.PTP_CFG_EN = true ∧ s.portUp n = true
      ∧ d.toNat = s.get (ipB n 1) F.PTP_CFG_DOMAIN ∧ s.ptpAccepts n sender = true ∧ 2 ≤ s.get (ipB n 1)
      F.PTP_STAT_STATE ∧ s.ptpParent n = (sender, port)) ∧
    (∃ (n : Fin 4) (d : Byte) (sender port seq : Nat) (t2 : Int) (s : State), s.is (ipB n 1) F.PTP_CFG_EN = true ∧
      s.portUp n = true ∧ d.toNat = s.get (ipB n 1) F.PTP_CFG_DOMAIN ∧ s.ptpAccepts n sender = true ∧ 2 ≤ s.get (ipB n
      1) F.PTP_STAT_STATE ∧ s.ptpParent n = (sender, port) ∧ (s.ptp n).sync = some (seq, none, t2)) ∧
    (∃ (n : Fin 4) (d : Byte) (sender port seq k : Nat) (t1 t2 t3 : Int) (s : State), s.is (ipB n 1) F.PTP_CFG_EN =
      true ∧ s.portUp n = true ∧ d.toNat = s.get (ipB n 1) F.PTP_CFG_DOMAIN ∧ s.ptpAccepts n sender = true ∧ 2 ≤ s.get
      (ipB n 1) F.PTP_STAT_STATE ∧ s.ptpParent n = (sender, port) ∧ (s.ptp n).req = some (seq, t3) ∧ (s.ptp n).sync =
      some (k, some t1, t2)) ∧
    (∃ (n : Fin 4) (s : State), s.is (ipB n 1) F.PTP_CFG_EN = false) ∧
    (∃ (n : Fin 4) (sender : Nat) (s : State), (s.ptp n).masters.any (fun a => a.sender == sender) = true) ∧
    (∃ (n : Fin 4) (sender : Nat) (s : State), (s.ptp n).masters.any (fun a => a.sender == sender) = false) ∧
    (∃ (n : Fin 4) (s : State), s.is (ipB n 1) F.PTP_CFG_EN = true ∧ 2 ≤ s.get (ipB n 1) F.PTP_STAT_STATE) :=
  ⟨⟨1023, 5, 9, (rxOn 1023 1).setIrx 1023 { IpRx.idle with start := some 5, markers := [9] }, by decide +kernel⟩,
   ⟨1023, live, by decide +kernel⟩,
   ⟨1023, (rxOn 1023 1).put (rxA 1023) F.RX_STAT_STATE 2, by decide +kernel⟩,
   ⟨0, live, by decide +kernel⟩,
   ⟨0, false, (rxOn 0 1).put (rxA 0) F.RX_STAT_STATE 2, by decide +kernel⟩,
   ⟨0, (rxOn 0 3).put (rxA 0) F.RX_STAT_STATE 2, by decide +kernel⟩,
   ⟨1023, txOn 1023 1, by decide +kernel⟩,
   ⟨1023, live, by decide +kernel⟩,
   ⟨1023, ((txOn 1023 1).effWr (txA 1023 + 4) 0x506).setItx 1023 { IpTx.idle with what := 0 }, by decide +kernel⟩,
   ⟨1023, live, by decide +kernel⟩,
   ⟨1023, 0, txOn 1023 3, by decide +kernel⟩,
   ⟨1023, 1, (txOn 1023 2).effWr (txA 1023 + 8) 8, by decide +kernel⟩,
   ⟨3, 127, ann, ptpLive, by decide +kernel⟩,
   ⟨3, 127, 7, 1, ptpSlave, by decide +kernel⟩,
   ⟨3, 127, 7, 1, 9, 0, ptpSlave.setPtp 3 { Ptp.idle with sync := some (9, none, 0) }, by decide +kernel⟩,
   ⟨3, 127, 7, 1, 9, 8, 0, 1, 2, ptpSlave.setPtp 3 { Ptp.idle with sync := some (8, some 0, 1), req := some (9, 2) },
     by decide +kernel⟩,
   ⟨3, live.put (ipB 3 1) F.PTP_CFG_EN 0, by decide +kernel⟩,
   ⟨3, 7, live.setPtp 3 { Ptp.idle with masters := [ann] }, by decide +kernel⟩,
   ⟨3, 7, live, by decide +kernel⟩,
   ⟨3, ptpSlave, by decide +kernel⟩⟩

theorem test_wit_MemoryChannels :
    (∃ (c : Fin 12) (s : State), s.get (mcB c) F.MC_STAT_STATE ≠ 3) ∧
    (∃ (reason : Fin 8), reason ≠ 2 ∧ reason ≠ 3 ∧ reason ≠ 4) ∧
    (∃ (c : Fin 12) (s : State), s.get (mcB c) F.MC_STAT_STATE = 3 ∧ s.chErased c = false) ∧
    (∃ (c : Fin 12) (s : State), (s.get (mcB c) F.MC_STAT_STATE ≠ 3 ∨ s.chErased c = true)) ∧
    (∃ (c : Fin 12) (s : State), s.present 0 = true ∧ s.get (mcB c) F.MC_STAT_STATE ≠ 3) ∧
    (∃ (c : Fin 12) (s : State), s.present 0 = true ∧ s.get (mcB c) F.MC_STAT_STATE = 3) ∧
    (∃ (c : Fin 12) (s : State), s.present 0 = true ∧ s.get (mcB c) F.MC_STAT_STATE = 3 ∧ s.is (mcB 0) F.MEM_STAT_LOST
      = false ∧ s.is wnB F.WN_REBUILD_STAT_ACTIVE = false ∧ s.mem.restoring = 0) ∧
    (∃ (c : Fin 12) (s : State), s.present 0 = true ∧ (s.get (mcB c) F.MC_STAT_STATE ≠ 3 ∨ s.is wnB
      F.WN_REBUILD_STAT_ACTIVE = true)) ∧
    (∃ (s : State), s.is wnB F.WN_REBUILD_STAT_ACTIVE = true ∧ s.stripes ≤ s.mem.rebuildPos ∧ s.get wnB
      F.WN_REBUILD_STAT_CHANNEL < 12) ∧
    (∃ (s : State), (s.is wnB F.WN_REBUILD_STAT_ACTIVE = false ∨ s.mem.rebuildPos < s.stripes)) ∧
    (∃ (c : Fin 12) (rd wr : Fin 256) (s : State), s.get (mcB c) F.MC_STAT_STATE = 1 ∧ bitN s.mem.restoring c = false
      ∧ 13 ≤ rd.val ∧ 13 ≤ wr.val) ∧
    (∃ (c : Fin 12) (rd wr : Fin 256) (s : State), s.get (mcB c) F.MC_STAT_STATE = 1 ∧ bitN s.mem.restoring c = false
      ∧ (rd.val < 13 ∨ wr.val < 13)) ∧
    (∃ (c : Fin 12) (rd wr : Fin 256) (s : State), bitN s.mem.restoring c = true ∧ 13 ≤ rd.val ∧ 13 ≤ wr.val) ∧
    (∃ (c : Fin 12) (s : State), s.get (mcB c) F.MC_STAT_STATE ≠ 1 ∧ bitN s.mem.restoring c = false) ∧
    (∃ (s : State), ((∀ c, c < 12 → 2 ≤ s.get (mcB c) F.MC_STAT_STATE)) ∧ s.is (mcB 0) F.MEM_STAT_INIT_DONE = false ∧
      s.stopped (mcB 0) = false) ∧
    (∃ (s : State), s.is (mcB 0) F.MEM_STAT_INIT_DONE = true) ∧
    (∃ (c : Fin 12) (s : State), (s.get (mcB c) F.MC_STAT_STATE = 2 ∨ s.get (mcB c) F.MC_STAT_STATE = 4)) ∧
    (∃ (c : Fin 12) (s : State), s.get (mcB c) F.MC_STAT_STATE ≠ 2 ∧ s.get (mcB c) F.MC_STAT_STATE ≠ 4) ∧
    (∃ (c : Fin 12) (s : State), s.get (mcB c) F.MC_STAT_STATE ≠ 3) ∧
    (∃ (stripe : Nat) (s : State), stripe < s.stripes) :=
  ⟨⟨11, live, by decide +kernel⟩,
   ⟨5, by decide +kernel⟩,
   ⟨11, live.put (mcB 11) F.MC_STAT_STATE 3, by decide +kernel⟩,
   ⟨11, live, by decide +kernel⟩,
   ⟨11, live, by decide +kernel⟩,
   ⟨11, live.put (mcB 11) F.MC_STAT_STATE 3, by decide +kernel⟩,
   ⟨11, live.put (mcB 11) F.MC_STAT_STATE 3, by decide +kernel⟩,
   ⟨11, live, by decide +kernel⟩,
   ⟨live.puts wnB [(F.WN_REBUILD_STAT_ACTIVE, 1), (F.WN_REBUILD_STAT_CHANNEL, 11)], by decide +kernel⟩,
   ⟨live, by decide +kernel⟩,
   ⟨11, 13, 13, live.put (mcB 11) F.MC_STAT_STATE 1, by decide +kernel⟩,
   ⟨11, 12, 13, live.put (mcB 11) F.MC_STAT_STATE 1, by decide +kernel⟩,
   ⟨11, 13, 13, { live with mem := { live.mem with restoring := 0x800 } }, by decide +kernel⟩,
   ⟨11, live.put (mcB 11) F.MC_STAT_STATE 2, by decide +kernel⟩,
   ⟨memLive.puts (mcB 0) [(F.MEM_STAT_INIT_DONE, 0), (F.STAT_STOPPED, 0)], by decide +kernel⟩,
   ⟨memLive, by decide +kernel⟩,
   ⟨11, live.put (mcB 11) F.MC_STAT_STATE 4, by decide +kernel⟩,
   ⟨11, live.put (mcB 11) F.MC_STAT_STATE 3, by decide +kernel⟩,
   ⟨11, live, by decide +kernel⟩,
   ⟨3276, memLive, by decide +kernel⟩⟩

theorem test_wit_MemoryAccesses :
    (∃ (stripe : Nat) (first count : Fin 11) (s : State), stripe < s.stripes ∧ first.val + count.val ≤ 10) ∧
    (∃ (stripe : Nat) (first count : Fin 11) (s : State), stripe < s.stripes ∧ first.val + count.val ≤ 10 ∧ s.is (mcB
      0) F.MEM_STAT_LOST = true) ∧
    (∃ (stripe : Nat) (s : State), s.stripes ≤ stripe) ∧
    (∃ (stripe : Nat) (o : Fin 640) (d : List Byte) (k : Nat) (s : State), stripe < s.stripes ∧ o.val + d.length ≤ 640
      ∧ d ≠ [] ∧ k / 2048 ≠ stripe) ∧
    (∃ (stripe : Nat) (d : List Byte) (i w : Nat) (s : State), stripe < s.stripes ∧ d.length = 640 ∧ stripe % 3277 ≠
      3276 ∧ i < 10 ∧ w < 8 ∧ s.chWritten (burstChan stripe (i + 2)) = true) ∧
    (∃ (stripe : Nat) (o : Fin 640) (d : List Byte) (s : State), (s.stripes ≤ stripe ∨ 640 < o.val + d.length)) ∧
    (∃ (s : State), s.is (mcB 0) F.MEM_STAT_LOST = false ∧ s.is wnB F.WN_REBUILD_STAT_ACTIVE = false ∧ s.is wnB
      F.WN_CFG_EN = true ∧ s.get wnB F.WN_POS_STRIPE + 1 < s.stripes ∧ s.get wnB F.WN_POS_STRIPE + 1 < 2 ^ 32) ∧
    (∃ (s : State), s.is (mcB 0) F.MEM_STAT_LOST = false ∧ s.is wnB F.WN_REBUILD_STAT_ACTIVE = false ∧ s.is wnB
      F.WN_CFG_EN = true ∧ s.get wnB F.WN_POS_STRIPE + 1 = s.stripes) ∧
    (∃ (s : State), s.is (mcB 0) F.MEM_STAT_LOST = false ∧ s.is wnB F.WN_REBUILD_STAT_ACTIVE = true ∧ s.mem.rebuildPos
      < s.stripes) ∧
    (∃ (s : State), s.is (mcB 0) F.MEM_STAT_LOST = true) ∧
    (∃ (key : Word) (s : State), s.present 0 = true ∧ key = 0xA5C3) ∧
    (∃ (key : Word) (s : State), s.present 0 = true ∧ key ≠ 0xA5C3) ∧
    (∃ (c : Fin 12) (s : State), s.present 0 = true ∧ bitN s.mem.raw c = true ∧ s.get (mcB c) F.MC_STAT_STATE ≠ 3 ∧
      s.get (mcB c) F.MC_RAW_ADDR_WORD < s.memGib * 2 ^ 27) ∧
    (∃ (c : Fin 12) (s : State), s.present 0 = true ∧ bitN s.mem.raw c = true ∧ s.get (mcB c) F.MC_STAT_STATE ≠ 3 ∧
      s.get (mcB c) F.MC_RAW_ADDR_WORD < s.memGib * 2 ^ 27) ∧
    (∃ (c : Fin 12) (s : State), s.present 0 = true ∧ bitN s.mem.raw c = false) :=
  ⟨⟨3276, 9, 1, memLive, by decide +kernel⟩,
   ⟨3276, 0, 10, memLive.put (mcB 0) F.MEM_STAT_LOST 1, by decide +kernel⟩,
   ⟨3277, memLive, by decide +kernel⟩,
   ⟨0, 639, [0], 2048, memLive, by decide +kernel⟩,
   ⟨3275, List.replicate 640 0, 9, 7, memLive, by decide +kernel⟩,
   ⟨3277, 0, [], memLive, by decide +kernel⟩,
   ⟨memLive.put wnB F.WN_CFG_EN 1, by decide +kernel⟩,
   ⟨memLive.puts wnB [(F.WN_CFG_EN, 1), (F.WN_POS_STRIPE, 3276)], by decide +kernel⟩,
   ⟨memLive.put wnB F.WN_REBUILD_STAT_ACTIVE 1, by decide +kernel⟩,
   ⟨memLive.put (mcB 0) F.MEM_STAT_LOST 1, by decide +kernel⟩,
   ⟨0xA5C3, live, by decide +kernel⟩,
   ⟨0xA5C2, live, by decide +kernel⟩,
   ⟨11, { memLive with mem := { memLive.mem with raw := 0x800 } }, by decide +kernel⟩,
   ⟨11, { memLive with mem := { memLive.mem with raw := 0x800 } }, by decide +kernel⟩,
   ⟨11, live, by decide +kernel⟩⟩

theorem test_wit_BusMatrix :
    (∃ (r : BusReq) (s : State), s.bus.txs = [] ∧ s.is (bmM r.master) F.BM_MSTAT_IN_RESET = false ∧ s.busMiss r = none
      ∧ s.bus.broken.contains (s.busTarget r.addr.toNat * 8 + r.master.val) = false) ∧
    (∃ (r : BusReq) (k : Nat) (s : State), s.bus.txs = [] ∧ s.is (bmM r.master) F.BM_MSTAT_IN_RESET = false ∧
      s.busMiss r = some k) ∧
    (∃ (r : BusReq) (s : State), s.is (bmM r.master) F.BM_MSTAT_IN_RESET = true) ∧
    (∃ (t : Fin 9) (x : BusTx) (s : State), s.bus.txs = [x] ∧ x.st = 1 ∧ x.target = t ∧ s.lockedOut t x.req.master =
      false) ∧
    (∃ (s : State), s.bus.txs = []) ∧
    (∃ (t : Fin 9) (m : Fin 8) (id : Fin 32) (code : Fin 4) (x : BusTx) (s : State), s.bus.txs = [x] ∧ x.granted t m
      id = true ∧ x.st = 3 ∧ x.absorb = false ∧ 2 ≤ t.val ∧ code ≠ 1) ∧
    (∃ (s : State), s.bus.txs = []) ∧
    (∃ (t : Fin 9) (s : State), t ≠ 8 ∧ s.is (bmB + 4 * t) F.BM_TSTAT_LOCKED = true) ∧
    (∃ (t : Fin 9) (s : State), s.is (bmB + 4 * t) F.BM_TSTAT_LOCKED = false) ∧
    (∃ (m : Fin 8), m ≠ 4) ∧
    (∃ (m : Fin 8) (id : Fin 32) (x : BusTx) (s : State), s.bus.txs = [x] ∧ x.req.master = m ∧ x.req.id = id ∧ x.st =
      1 ∧ x.absorb = false ∧ m ≠ 2) :=
  ⟨⟨breq, live, by decide +kernel⟩,
   ⟨{ breq with addr := 0xFFFFFFFFFF }, 0, live, by decide +kernel⟩,
   ⟨breq, live.put (bmM 0) F.BM_MSTAT_IN_RESET 1, by decide +kernel⟩,
   ⟨4, btx 4 1, { live with bus := { live.bus with txs := [btx 4 1] } }, by decide +kernel⟩,
   ⟨live, by decide +kernel⟩,
   ⟨4, 0, 31, 0, btx 4 3, { live with bus := { live.bus with txs := [btx 4 3] } }, by decide +kernel⟩,
   ⟨live, by decide +kernel⟩,
   ⟨0, live.put bmB F.BM_TSTAT_LOCKED 1, by decide +kernel⟩,
   ⟨7, live, by decide +kernel⟩,
   ⟨7, by decide +kernel⟩,
   ⟨0, 31, btx 4 1, { live with bus := { live.bus with txs := [btx 4 1] } }, by decide +kernel⟩⟩

theorem test_wit_KeyStoreCommands :
    (∃ (s : State), s.is ksB F.KS_CMD_RES_BUSY = true) ∧
    (∃ (s : State), s.is ksB F.KS_CMD_RES_BUSY = false ∧ s.tampered = true) ∧
    (∃ (s : State), s.is ksB F.KS_CMD_RES_BUSY = false ∧ s.tampered = false ∧ s.ks.rngBad = true) ∧
    (∃ (v : Word) (i p a : Nat) (s : State), s.is ksB F.KS_CMD_RES_BUSY = false ∧ s.tampered = false ∧ s.ks.rngBad =
      false ∧ fldGet v 4 6 = i ∧ fldGet v 10 6 = p ∧ s.get ksB F.CMD_ATTR_WORD = a ∧ i ≠ p ∧ s.slotMay p atKdf = true
      ∧ s.slotValid i = false ∧ s.get ksB F.CMD_LEN_LABEL_LEN ≤ 32 ∧ s.get ksB F.CMD_LEN_CTX_LEN ≤ 64 ∧ badAttr a =
      false ∧ bitN a atBootBound = false) ∧
    (∃ (v : Word) (i : Nat) (s : State), s.is ksB F.KS_CMD_RES_BUSY = false ∧ s.tampered = false ∧ fldGet v 4 6 = i ∧
      bitN (s.slotAttr i) atHasParent = true) ∧
    (∃ (v : Word) (i : Nat) (s : State), s.is ksB F.KS_CMD_RES_BUSY = false ∧ s.tampered = false ∧ fldGet v 4 6 = i ∧
      bitN (s.slotAttr i) atHasParent = false) ∧
    (∃ (v : Word) (i : Nat) (s : State), s.is ksB F.KS_CMD_RES_BUSY = false ∧ fldGet v 4 6 = i ∧ s.slotMay i 4 = true) ∧
    (∃ (s : State), s.is ksB F.KS_CMD_RES_BUSY = false ∧ s.ks.rngBad = false ∧ slice (s.ksBytes 0x400 374) 0 4 ≠
      magicKu) ∧
    (∃ (m : List Byte) (slot : Nat) (s : State), s.is ksB F.KS_CMD_RES_BUSY = false ∧ s.ks.rngBad = false ∧ s.tampered
      = false ∧ s.inhibited = false ∧ s.ksBytes 0x400 374 = m ∧ slice m 0 4 = magicKu ∧ m.getD 4 0 = 0x01 ∧ m.getD 5 0
      = 3 ∧ (m.getD 6 0).toNat = slot ∧ slot < 64 ∧ m.getD 7 0 = 0 ∧ (slice m 121 157).any (· != 0) = false ∧ slice m
      8 8 = s.deviceId ∧ ofBe (slice m 16 4) = s.cntVal 0 ∧ s.cntVal 0 ≠ 0xFFFFFFFF ∧ s.slotValid slot = true ∧
      badAttr (ofBe (slice m 20 4)) = false ∧ bitN (ofBe (slice m 20 4)) atBootBound = false) :=
  ⟨⟨live.put ksB F.KS_CMD_RES_BUSY 1, by decide +kernel⟩,
   ⟨live.put ksB F.KS_STAT_TAMPERED 1, by decide +kernel⟩,
   ⟨{ live with ks := { live.ks with rngBad := true } }, by decide +kernel⟩,
   ⟨0x400, 0, 1, 0, live.setAttr 1 (2 ^ atValid + 2 ^ atKdf), by decide +kernel⟩,
   ⟨0x3F0, 63, live.setAttr 63 (2 ^ atHasParent), by decide +kernel⟩,
   ⟨0x3F0, 63, live, by decide +kernel⟩,
   ⟨0, 0, live.setAttr 0 (2 ^ atValid + 16), by decide +kernel⟩,
   ⟨live, by decide +kernel⟩,
   ⟨updMsg, 0, updKey, by decide +kernel⟩⟩

theorem test_wit_KeyStoreEvents :
    (∃ (d : List Byte) (s : State), d.length = 48 ∧ s.is ksB F.KS_CMD_RES_BUSY = false ∧ s.is ksB F.MEAS_STAGES_FINAL
      = false ∧ s.tampered = false) ∧
    (∃ (s : State), s.is ksB F.KS_CMD_RES_BUSY = true) ∧
    (∃ (s : State), s.is ksB F.KS_CMD_RES_BUSY = false ∧ s.is ksB F.MEAS_STAGES_FINAL = true) ∧
    (∃ (i : Nat) (s : State), s.ks.rngBad = false ∧ i < 64) ∧
    (∃ (s : State), s.ks.rngBad = true) ∧
    (∃ (s : State), s.ks.waiting = none) ∧
    (∃ (v : Word) (s : State), s.ks.waiting = some v) ∧
    (∃ (s : State), s.tampered = false) ∧
    (∃ (cause : Fin 32), cause ≠ 0) ∧
    (∃ (s : State), s.is ksB F.KS_STAT_READY = false ∧ s.tampered = false) ∧
    (∃ (s : State), s.is ksB F.KS_STAT_READY = true) :=
  ⟨⟨List.replicate 48 0, live, by decide +kernel⟩,
   ⟨live.put ksB F.KS_CMD_RES_BUSY 1, by decide +kernel⟩,
   ⟨live.put ksB F.MEAS_STAGES_FINAL 1, by decide +kernel⟩,
   ⟨63, live, by decide +kernel⟩,
   ⟨{ live with ks := { live.ks with rngBad := true } }, by decide +kernel⟩,
   ⟨live, by decide +kernel⟩,
   ⟨0, { live with ks := { live.ks with waiting := some 0 } }, by decide +kernel⟩,
   ⟨live, by decide +kernel⟩,
   ⟨31, by decide +kernel⟩,
   ⟨live, by decide +kernel⟩,
   ⟨live.put ksB F.KS_STAT_READY 1, by decide +kernel⟩⟩

theorem test_wit_FlashRecords :
    (∃ (s : State), s.is nvB F.NV_STAT_READY = false) ∧
    (∃ (m : Fin 8) (c : Fin 256) (s : State), s.is nvB F.NV_STAT_READY = true ∧ s.nv.notice = [(m.val, c.val)]) ∧
    (∃ (m : Fin 8) (v : Word) (key : Nat) (s : State), s.is nvB F.NV_STAT_READY = true ∧ s.nv.notice = [] ∧
      s.nv.gather = none ∧ s.get nvB F.REC_KEY_KEY = key ∧ keyReserved key = false ∧ keyMay m key true = true ∧ fldGet
      v 4 8 ≤ 240 ∧ bitN v.toNat 3 = false ∧ s.get nvB F.REC_SEQ_VALUE ≠ 0xFFFFFFFF ∧ s.liveBytes + recSize (fldGet v
      4 8) ≤ 786432 ∧ s.liveKeys.length < 2048) ∧
    (∃ (m : Fin 8) (v : Word) (key : Nat) (s : State), s.is nvB F.NV_STAT_READY = true ∧ s.nv.notice = [] ∧
      s.nv.gather = none ∧ s.get nvB F.REC_KEY_KEY = key ∧ keyReserved key = false ∧ keyMay m key true = true ∧ bitN
      v.toNat 3 = false ∧ s.get nvB F.REC_SEQ_VALUE ≠ 0xFFFFFFFF) ∧
    (∃ (m : Fin 8) (s : State), s.is nvB F.NV_STAT_READY = true ∧ s.nv.notice = [] ∧ (keyReserved (s.get nvB
      F.REC_KEY_KEY) = true ∨ keyMay m (s.get nvB F.REC_KEY_KEY) true = false)) ∧
    (∃ (m : Fin 8) (l : List GRec) (s : State), s.is nvB F.NV_STAT_READY = true ∧ s.nv.notice = [] ∧ s.inhibited =
      false ∧ s.nv.gather = some (m.val, l)) ∧
    (∃ (m : Fin 8) (l : List GRec) (s : State), s.is nvB F.NV_STAT_READY = true ∧ s.nv.notice = [] ∧ s.inhibited =
      true ∧ s.nv.gather = some (m.val, l)) ∧
    (∃ (m : Fin 8) (l : List GRec) (s : State), s.is nvB F.NV_STAT_READY = true ∧ s.nv.notice = [] ∧ s.nv.gather =
      some (m.val, l)) ∧
    (∃ (s : State), s.is nvB F.NV_STAT_READY = true ∧ s.nv.notice = [] ∧ s.nv.gather = none) ∧
    (∃ (m : Fin 8) (r : GRec) (s : State), s.is nvB F.NV_STAT_READY = true ∧ s.nv.notice = [] ∧ keyReserved (s.get nvB
      F.REC_KEY_KEY) = false ∧ keyMay m (s.get nvB F.REC_KEY_KEY) false = true ∧ (s.resolveKey (s.get nvB
      F.REC_KEY_KEY)).2 = some r ∧ r.data.length ≤ 240) ∧
    (∃ (m : Fin 8) (s : State), s.is nvB F.NV_STAT_READY = true ∧ s.nv.notice = [] ∧ keyReserved (s.get nvB
      F.REC_KEY_KEY) = false ∧ keyMay m (s.get nvB F.REC_KEY_KEY) false = true ∧ (s.resolveKey (s.get nvB
      F.REC_KEY_KEY)).2 = none) ∧
    (∃ (m : Nat) (l : List GRec) (s : State), s.nv.gather = some (m, l)) ∧
    (∃ (s : State), s.nv.gather = none) ∧
    (∃ (s : State), s.is nvB F.NV_STAT_READY = true ∧ s.inhibited = false ∧ s.mustCompact = true) ∧
    (∃ (s : State), (s.is nvB F.NV_STAT_READY = false ∨ s.inhibited = true ∨ s.mustCompact = false)) :=
  ⟨⟨live, by decide +kernel⟩,
   ⟨7, 0x57, { nvLive with nv := { nvLive.nv with notice := [(7, 0x57)] } }, by decide +kernel⟩,
   ⟨7, 0xF00, 0x100, nvLive.put nvB F.REC_KEY_KEY 0x100, by decide +kernel⟩,
   ⟨7, 0, 0x1FF, nvLive.put nvB F.REC_KEY_KEY 0x1FF, by decide +kernel⟩,
   ⟨0, nvLive, by decide +kernel⟩,
   ⟨7, [], { nvLive with nv := { nvLive.nv with gather := some (7, []) } }, by decide +kernel⟩,
   ⟨7, [], { nvLive.put nvB F.NV_STAT_INHIBIT 1 with nv := { nvLive.nv with gather := some (7, []) } },
     by decide +kernel⟩,
   ⟨7, [], { nvLive with nv := { nvLive.nv with gather := some (7, []) } }, by decide +kernel⟩,
   ⟨nvLive, by decide +kernel⟩,
   ⟨7, ⟨0x100, 0, 0xF8, [1]⟩, recLive, by decide +kernel⟩,
   ⟨7, nvLive.put nvB F.REC_KEY_KEY 0x100, by decide +kernel⟩,
   ⟨7, [], { nvLive with nv := { nvLive.nv with gather := some (7, []) } }, by decide +kernel⟩,
   ⟨nvLive, by decide +kernel⟩,
   ⟨fullLive, by decide +kernel⟩,
   ⟨live, by decide +kernel⟩⟩

theorem test_wit_FlashAccesses :
    (∃ (m : Fin 8) (i : Fin 16) (s : State), s.nv.active.isSome = true ∧ cntMay m i = true ∧ s.inhibited = false ∧
      s.cntVal i ≠ 0xFFFFFFFF) ∧
    (∃ (s : State), s.nv.active.isSome = true) ∧
    (∃ (s : State), s.nv.active = none) ∧
    (∃ (m : Fin 8) (v : Word) (s : State), s.nv.notice = [] ∧ rawMay m (fldGet v 0 14 / 256) = true ∧ (s.nv.owner =
      none ∨ s.nv.owner = some m.val) ∧ s.inhibited = false) ∧
    (∃ (m : Fin 8) (v : Word) (s : State), s.nv.notice = [] ∧ rawMay m (fldGet v 0 14 / 256) = true ∧ s.inhibited =
      false) ∧
    (∃ (m : Fin 8) (v : Word) (s : State), s.nv.notice = [] ∧ rawMay m (fldGet v 0 14 / 256) = true ∧ s.nv.owner =
      none ∧ s.inhibited = true) ∧
    (∃ (m : Fin 8) (s : State), s.nv.notice = [] ∧ (s.nv.owner = none ∨ s.nv.owner = some m.val)) ∧
    (∃ (m : Fin 8) (v : Word) (s : State), s.nv.notice = [] ∧ rawMay m (fldGet v 0 14 / 256) = true ∧ (s.nv.owner =
      none ∨ s.nv.owner = some m.val)) ∧
    (∃ (m : Fin 8) (v : Word) (s : State), s.nv.notice = [] ∧ rawMay m (fldGet v 0 14 / 256) = false) ∧
    (∃ (m : Fin 8) (s : State), (s.nv.owner = none ∨ s.nv.owner = some m.val)) ∧
    (∃ (m : Fin 8) (s : State), (s.nv.owner = none ∨ s.nv.owner = some m.val)) ∧
    (∃ (m : Fin 8) (k : Nat) (s : State), s.nv.owner = some k ∧ k ≠ m) ∧
    (∃ (k : Nat) (l : List Nat) (s : State), s.nv.eraseQ = k :: l ∧ s.inhibited = false ∧ 16 ≤ k) ∧
    (∃ (k : Nat) (l : List Nat) (s : State), s.nv.eraseQ = k :: l ∧ s.inhibited = false ∧ k < 16) ∧
    (∃ (s : State), (s.nv.eraseQ = [] ∨ s.inhibited = true)) ∧
    (∃ (s : State), s.is nvB F.NV_CFG_GLEANER_EN = true ∧ s.is nvB F.NV_STAT_READY = true) ∧
    (∃ (s : State), s.is nvB F.NV_CFG_GLEANER_EN = true ∧ s.is nvB F.NV_STAT_READY = true ∧ s.inhibited = true) ∧
    (∃ (s : State), s.is nvB F.NV_CFG_GLEANER_EN = false) ∧
    (∃ (s : State), s.is nvB F.NV_STAT_READY = false) ∧
    (∃ (s : State), s.is nvB F.NV_STAT_READY = true) ∧
    (∃ (s : State), s.inhibited = false) ∧
    (∃ (s : State), s.inhibited = true) ∧
    (∃ (page : Fin 16384), 16 ≤ page.val / 256 ∧ page.val / 256 < 62) ∧
    (∃ (m : Nat) (l : List GRec) (s : State), s.nv.gather = some (m, l)) :=
  ⟨⟨7, 0, nvCnt.prog 0 [0, 0, 0, 0], by decide +kernel⟩,
   ⟨nvCnt, by decide +kernel⟩,
   ⟨live, by decide +kernel⟩,
   ⟨1, 0x3DFF, nvLive, by decide +kernel⟩,
   ⟨1, 0x3DFF, nvLive, by decide +kernel⟩,
   ⟨1, 0x1000, live, by decide +kernel⟩,
   ⟨1, live, by decide +kernel⟩,
   ⟨1, 0x1000, live, by decide +kernel⟩,
   ⟨7, 0x3FFF, live, by decide +kernel⟩,
   ⟨0, live, by decide +kernel⟩,
   ⟨0, live, by decide +kernel⟩,
   ⟨0, 1, { live with nv := { live.nv with owner := some 1 } }, by decide +kernel⟩,
   ⟨16, [], { nvLive with nv := { nvLive.nv with eraseQ := [16] } }, by decide +kernel⟩,
   ⟨15, [], { nvLive with nv := { nvLive.nv with eraseQ := [15] } }, by decide +kernel⟩,
   ⟨live, by decide +kernel⟩,
   ⟨nvLive.put nvB F.NV_CFG_GLEANER_EN 1, by decide +kernel⟩,
   ⟨nvLive.puts nvB [(F.NV_CFG_GLEANER_EN, 1), (F.NV_STAT_INHIBIT, 1)], by decide +kernel⟩,
   ⟨nvLive.put nvB F.NV_CFG_GLEANER_EN 0, by decide +kernel⟩,
   ⟨live, by decide +kernel⟩,
   ⟨nvLive, by decide +kernel⟩,
   ⟨nvLive, by decide +kernel⟩,
   ⟨live, by decide +kernel⟩,
   ⟨0x3DFF, by decide +kernel⟩,
   ⟨7, [], { nvLive with nv := { nvLive.nv with gather := some (7, []) } }, by decide +kernel⟩⟩

theorem test_wit_YumenMeter :
    (∃ (s : State), s.ymOn = true ∧ s.ym.measuring = true) ∧
    (∃ (s : State), s.ymOn = true ∧ s.ym.measuring = true) ∧
    (∃ (s : State), s.tc.started = true ∧ s.populated 7 = true ∧ s.ym.powered = true ∧ s.ym.measuring = true) ∧
    (∃ (s : State), s.tc.started = true ∧ s.populated 7 = true) ∧
    (∃ (s : State), s.tc.started = false) ∧
    (∃ (s : State), s.ymOn = true ∧ bitN s.ym.live 7 = false) ∧
    (∃ (s : State), s.ymOn = true ∧ s.ym.sealOpen = false) ∧
    (∃ (s : State), s.ymOn = true ∧ s.ym.sealOpen = true) ∧
    (∃ (s : State), s.ymOn = false) ∧
    (∃ (s : State), s.ymOn = true) ∧
    (∃ (s : State), s.ymOn = true) ∧
    (∃ (s : State), s.ymOn = true) ∧
    (∃ (q : Word) (i : Fin 4) (en : Bool) (r : Fin 4) (b : BitVec 16) (k : BitVec 48) (v : Fin 900) (c : Instr) (s :
      State), s.ymOn = true ∧ c ∈ [.status false, .identity false, .readS false q, .readQ false q, .setInput false i
      en r b, .setRtc false k, .setQofs false v]) ∧
    (∃ (s : State), s.ymOn = true ∧ s.ym.sealOpen = true ∧ s.ym.nextCals = none) ∧
    (∃ (s : State), s.ymOn = true ∧ s.ym.sealOpen = false) ∧
    (∃ (s : State), s.populated 7 = true) ∧
    (∃ (s : State), s.populated 7 = true ∧ s.ym.powered = false) ∧
    (∃ (s : State), s.ymOn = true) :=
  ⟨⟨ymLive, by decide +kernel⟩,
   ⟨ymLive, by decide +kernel⟩,
   ⟨{ ymLive with tc := { live.tc with started := true } }, by decide +kernel⟩,
   ⟨{ ymLive with tc := { live.tc with started := true } }, by decide +kernel⟩,
   ⟨live, by decide +kernel⟩,
   ⟨ymLive, by decide +kernel⟩,
   ⟨ymLive, by decide +kernel⟩,
   ⟨{ ymLive with ym := { ymLive.ym with sealOpen := true } }, by decide +kernel⟩,
   ⟨live, by decide +kernel⟩,
   ⟨ymLive, by decide +kernel⟩,
   ⟨ymLive, by decide +kernel⟩,
   ⟨ymLive, by decide +kernel⟩,
   ⟨0, 3, true, 3, 0, 0, 0, .status false, ymLive, by decide +kernel⟩,
   ⟨{ ymLive with ym := { ymLive.ym with sealOpen := true } }, by decide +kernel⟩,
   ⟨ymLive, by decide +kernel⟩,
   ⟨live, by decide +kernel⟩,
   ⟨live, by decide +kernel⟩,
   ⟨ymLive, by decide +kernel⟩⟩

theorem test_wit_YumenLink :
    (∃ (r : List Byte) (l : List (Nat × List Byte)) (s : State), s.ym.link = (1, r) :: l ∧ s.pwr.inReset = false) ∧
    (∃ (r : List Byte) (l : List (Nat × List Byte)) (s : State), s.ym.link = (1, r) :: l ∧ s.pwr.inReset = false ∧
      s.mg.logFull = false ∧ s.get bmB F.BM_M6_LEN_BYTES ≠ 0) ∧
    (∃ (p : Nat × List Byte) (l : List (Nat × List Byte)) (s : State), s.ym.link = p :: l ∧ s.pwr.inReset = false) ∧
    (∃ (p : Nat × List Byte) (l : List (Nat × List Byte)) (s : State), s.ym.link = p :: l ∧ s.pwr.inReset = true) ∧
    (∃ (s : State), s.ym.link = []) ∧
    (∃ (s : State), s.ymOn = true ∧ s.pwr.inReset = false) ∧
    (∃ (s : State), s.ymOn = true ∧ s.pwr.inReset = true) ∧
    (∃ (k : Nat) (r : List Byte) (l : List (Nat × List Byte)) (s : State), s.ymOn = true ∧ s.ym.carousel = 0 ∧
      s.ym.sRing = (k, r) :: l) ∧
    (∃ (s : State), s.populated 7 = true ∧ s.pwr.inReset = false ∧ s.is ymB ⟨0x1C, 12, 1⟩ = false) ∧
    (∃ (s : State), s.is ymB ⟨0x1C, 12, 1⟩ = true) ∧
    (∃ (s : State), s.get (gPage 0x233) F.YF_SLOTS_COUNT ≠ 0 ∧ s.pwr.inReset = false ∧ s.logRd ≠ s.get brB
      F.LOG_WR_SLOT ∧ s.get bmB F.BM_M6_LEN_BYTES ≠ 0 ∧ s.yfFull = false) ∧
    (∃ (s : State), s.get (gPage 0x233) F.YF_SLOTS_COUNT = 0) :=
  ⟨⟨[], [], { ymLive with ym := { ymLive.ym with link := [(1, [])] } }, by decide +kernel⟩,
   ⟨[], [], { ymLive.put bmB F.BM_M6_LEN_BYTES 1 with ym := { ymLive.ym with link := [(1, [])] } }, by decide +kernel⟩,
   ⟨(1, []), [], { ymLive with ym := { ymLive.ym with link := [(1, [])] } }, by decide +kernel⟩,
   ⟨(1, []), [], { State.reset with ym := { ymLive.ym with link := [(1, [])] } }, by decide +kernel⟩,
   ⟨ymLive, by decide +kernel⟩,
   ⟨ymLive, by decide +kernel⟩,
   ⟨{ State.reset with ym := ymLive.ym }, by decide +kernel⟩,
   ⟨7, [], [], { ymLive with ym := { ymLive.ym with sRing := [(7, [])] } }, by decide +kernel⟩,
   ⟨live.put ymB ⟨0x1C, 12, 1⟩ 0, by decide +kernel⟩,
   ⟨live.put ymB ⟨0x1C, 12, 1⟩ 1, by decide +kernel⟩,
   ⟨((live.puts (gPage 0x233) [(F.YF_SLOTS_COUNT, 2)]).put bmB F.BM_M6_LEN_BYTES 1).put brB F.LOG_WR_SLOT 1,
     by decide +kernel⟩,
   ⟨live, by decide +kernel⟩⟩

theorem test_wit_MernakControl :
    (∃ (s : State), s.is mgB F.MG_DBG_LOCKED = false ∧ s.debugOn = false) ∧
    (∃ (s : State), (s.is mgB F.MG_DBG_LOCKED = true ∨ s.debugOn = true)) ∧
    (∃ (s : State), s.present 0 = true ∧ s.is mgB F.DMA_STAT_BUSY = false ∧ s.dmaArgsOk = true) ∧
    (∃ (s : State), s.present 0 = true ∧ s.is mgB F.DMA_STAT_BUSY = false ∧ s.dmaArgsOk = false) ∧
    (∃ (s : State), s.present 0 = true ∧ s.is mgB F.DMA_STAT_BUSY = true) ∧
    (∃ (e : DmaEnd) (s : State), s.is mgB F.DMA_STAT_BUSY = true ∧ e.pos < 16 ∧ e.resp ≠ 0) ∧
    (∃ (e : DmaEnd) (a b : Nat) (s : State), s.is mgB F.DMA_STAT_BUSY = true ∧ e.resp = 0 ∧ s.get mgB F.DMA_LEN_BYTES
      = 16 ∧ s.dmaSrc = 0x5000000 + a ∧ s.dmaDst = 0x5000000 + b ∧ a + 16 ≤ 0x40000 ∧ b + 16 ≤ 0x40000) ∧
    (∃ (s : State), s.present 0 = true ∧ s.is mgB F.DMA_STAT_BUSY = true) ∧
    (∃ (s : State), s.present 0 = true ∧ s.is mgB F.DMA_STAT_BUSY = false) ∧
    (∃ (s : State), s.present 0 = true ∧ s.updRuns = false ∧ s.is mgB F.UPD_CFG_SRC = true) ∧
    (∃ (h : List Byte) (s : State), s.present 0 = true ∧ s.updRuns = false ∧ s.is mgB F.UPD_CFG_SRC = false ∧ slice h
      0 4 ≠ magicFw) ∧
    (∃ (s : State), s.present 0 = true ∧ s.updRuns = true) ∧
    (∃ (s : State), s.present 0 = true ∧ s.updRuns = true) ∧
    (∃ (s : State), s.present 0 = true ∧ s.mg.updWin = true ∧ s.get mgB F.UPD_STAT_STATE = 2 ∧ s.mg.updKey.isSome =
      true ∧ s.get mgB F.UPD_STAT_BLOCKS < hdrN s.mg.updHeader + tagBlocks (hdrN s.mg.updHeader)) ∧
    (∃ (s : State), s.mg.updWin = true ∧ s.updRuns = true) ∧
    (∃ (s : State), s.get mgB F.UPD_STAT_STATE = 2 ∧ s.mg.updKey.isSome = true) ∧
    (∃ (s : State), s.get mgB F.UPD_STAT_STATE = 2 ∧ s.mg.updKey.isSome = true ∧ s.mg.updWin = true ∧ hdrN
      s.mg.updHeader + tagBlocks (hdrN s.mg.updHeader) ≤ s.get mgB F.UPD_STAT_BLOCKS ∧ s.is mgB F.MG_STAT_RECOVERY =
      false) ∧
    (∃ (s : State), s.present 0 = true ∧ s.updRuns = false) :=
  ⟨⟨live.put mgB F.MG_DBG_LOCKED 0, by decide +kernel⟩,
   ⟨live.put mgB F.MG_DBG_LOCKED 1, by decide +kernel⟩,
   ⟨live.put mgB F.DMA_LEN_BYTES 16777216, by decide +kernel⟩,
   ⟨live.put mgB F.DMA_LEN_BYTES 15, by decide +kernel⟩,
   ⟨live.put mgB F.DMA_STAT_BUSY 1, by decide +kernel⟩,
   ⟨⟨15, 3, []⟩, live.put mgB F.DMA_STAT_BUSY 1, by decide +kernel⟩,
   ⟨⟨0, 0, []⟩, 0, 0x3FFF0, live.puts mgB [(F.DMA_STAT_BUSY, 1), (F.DMA_LEN_BYTES, 16), (F.DMA_SRC_LO_ADDR,
     0x5000000), (F.DMA_DST_LO_ADDR, 0x503FFF0)], by decide +kernel⟩,
   ⟨live.put mgB F.DMA_STAT_BUSY 1, by decide +kernel⟩,
   ⟨live, by decide +kernel⟩,
   ⟨live.put mgB F.UPD_CFG_SRC 1, by decide +kernel⟩,
   ⟨[], live.put mgB F.UPD_CFG_SRC 0, by decide +kernel⟩,
   ⟨live.put mgB F.UPD_STAT_STATE 2, by decide +kernel⟩,
   ⟨live.put mgB F.UPD_STAT_STATE 1, by decide +kernel⟩,
   ⟨updLive.put mgB F.UPD_STAT_BLOCKS 0, by decide +kernel⟩,
   ⟨updLive, by decide +kernel⟩,
   ⟨updLive, by decide +kernel⟩,
   ⟨updLive.puts mgB [(F.UPD_STAT_BLOCKS, 2), (F.MG_STAT_RECOVERY, 0)], by decide +kernel⟩,
   ⟨live, by decide +kernel⟩⟩

theorem test_wit_HealthAndCalibration :
    (∃ (i : Fin 11) (s : State), s.present (if i.val < 5 then 0 else i.val - 4) = true) ∧
    (∃ (r : Fin 13) (s : State), (r = 0 ∨ 8 ≤ r.val ∨ (r.val ≤ 6 ∧ s.present r = true))) ∧
    (∃ (r : Fin 13) (s : State), 1 ≤ r.val ∧ r.val ≤ 6 ∧ s.present r = false) ∧
    (∃ (d : Fin 7) (s : State), s.present d = true) ∧
    (∃ (d : Fin 7) (s : State), s.present d = true) ∧
    (∃ (d : Fin 7) (s : State), s.present d = false) ∧
    (∃ (s : State), s.mg.logOn = true ∧ s.inhibited = false ∧ s.fBytes (0x100000 + 32 * s.mg.logNext) 32 =
      List.replicate 32 0xFF) ∧
    (∃ (s : State), s.mg.logOn = true ∧ s.inhibited = true ∧ s.mg.logWait.length < 64) ∧
    (∃ (s : State), s.mg.logOn = false) ∧
    (∃ (s : State), s.present 0 = true) ∧
    (∃ (s : State), s.present 0 = true) ∧
    (∃ (v : Word) (s : State), s.present 0 = true ∧ s.mg.calOpen = true ∧ s.inhibited = false ∧ fldGet v 0 8 = 0x11) ∧
    (∃ (s : State), s.present 0 = true) ∧
    (∃ (s : State), s.is tcB F.TC_CFG_LEARN = true ∧ s.inhibited = false) ∧
    (∃ (s : State), (s.is tcB F.TC_CFG_LEARN = false ∨ s.inhibited = true)) :=
  ⟨⟨10, live, by decide +kernel⟩,
   ⟨6, live, by decide +kernel⟩,
   ⟨6, State.reset, by decide +kernel⟩,
   ⟨6, live, by decide +kernel⟩,
   ⟨0, live, by decide +kernel⟩,
   ⟨6, State.reset, by decide +kernel⟩,
   ⟨{ nvLive with mg := { nvLive.mg with logOn := true } }, by decide +kernel⟩,
   ⟨{ live with mg := { live.mg with logOn := true } }, by decide +kernel⟩,
   ⟨live, by decide +kernel⟩,
   ⟨live, by decide +kernel⟩,
   ⟨live, by decide +kernel⟩,
   ⟨0x11, { nvLive with mg := { nvLive.mg with calOpen := true } }, by decide +kernel⟩,
   ⟨live, by decide +kernel⟩,
   ⟨nvLive.put tcB F.TC_CFG_LEARN 1, by decide +kernel⟩,
   ⟨live, by decide +kernel⟩⟩

theorem test_wit_StartupAndSheafs :
    (∃ (s : State), s.pwr.inReset = true) ∧
    (∃ (b : Boot) (s : State), s.pwr.inReset = true ∧ slice b.slotA.header 0 4 ≠ magicFw ∧ slice b.slotB.header 0 4 ≠
      magicFw) ∧
    (∃ (s : State), s.pwr.inReset = false) ∧
    (∃ (d : Fin 8) (pass : Fin 16) (s : State), 1 ≤ d.val ∧ d.val ≤ 6 ∧ s.populated d = true ∧ s.pwr.sheafsOut = true
      ∧ s.present d = false ∧ pass.val % 4 ≠ 0 ∧ pass.val / 4 ≠ 0) ∧
    (∃ (d : Fin 8) (pass : Fin 16) (s : State), 1 ≤ d.val ∧ d.val ≤ 6 ∧ s.populated d = true ∧ s.pwr.sheafsOut = true
      ∧ s.present d = false ∧ (pass.val % 4 = 0 ∨ pass.val / 4 = 0)) ∧
    (∃ (d : Fin 8) (s : State), (s.pwr.sheafsOut = false ∨ s.present d = true)) ∧
    (∃ (d : Fin 8) (s : State), s.sheafUp d = true) ∧
    (∃ (d : Fin 8) (s : State), s.sheafUp d = false) :=
  ⟨⟨State.reset, by decide +kernel⟩,
   ⟨⟨⟨[], false, false⟩, ⟨[], false, false⟩, [], [], 0, 0, [], [], 0⟩, State.reset, by decide +kernel⟩,
   ⟨live, by decide +kernel⟩,
   ⟨6, 5, { live with pwr := { live.pwr with up := 0 } }, by decide +kernel⟩,
   ⟨1, 3, { live with pwr := { live.pwr with up := 0 } }, by decide +kernel⟩,
   ⟨6, live, by decide +kernel⟩,
   ⟨6, live, by decide +kernel⟩,
   ⟨7, live, by decide +kernel⟩⟩

theorem test_wit_MemoryFormKept : memOk State.reset = true := by decide +kernel

/-! An ill-formed term for each bound. -/

theorem test_wf_route : (Instr.routeCfgWrite 0 384 0).wf = false ∧ (Instr.routeCfgWrite 0 383 0).wf = true := by decide
theorem test_wf_fallback : (Instr.routeFallback 0 384).wf = false ∧ (Instr.routeReturn 0 384).wf = false := by decide
theorem test_wf_resume : (Instr.routeSourceResume 2 512).wf = false := by decide
theorem test_wf_sheaf :
    (Instr.linkMove 0 true).wf = false ∧ (Instr.linkMove 7 true).wf = false ∧ (Instr.sheafDown 6).wf = true := by decide
theorem test_wf_links : (Instr.finanoLinkRestore 7 true 0).wf = false ∧ (Instr.sheafBringup 0 15).wf = false := by decide
theorem test_wf_ring :
    (Instr.ringFrameStart (.source 0x60) 0).wf = false ∧ (Instr.ringFrameStart (.source 0x100) 0).wf = true := by decide
theorem test_wf_bar2 : (Instr.bar2Write 0 []).wf = false := by decide
theorem test_wf_select : (Instr.selectEvaluation []).wf = false := by decide
theorem test_wf_disagree : (Instr.disagreeDetect 3 3).wf = false := by decide
theorem test_wf_read : (Instr.memoryRead .control 0 1 10 []).wf = false := by decide
theorem test_wf_write : (Instr.memoryWrite 0 639 [0, 0]).wf = false := by decide
theorem test_wf_bus : (Instr.busTransaction { breq with len := 0 }).wf = false := by decide
theorem test_wf_second : (Instr.yumenSecond [] 0 ⟨0, none⟩).wf = false := by decide
theorem test_wf_optics : (Instr.optTransferDone 0 (some (List.replicate 129 0))).wf = false := by decide +kernel
theorem test_wf_audio : (Instr.audioPacketReceived 0 (.data 0 0 false (List.replicate 3 ⟨0, 0⟩))).wf = false := by decide +kernel
theorem test_wf_extend : (Instr.measExtend [] true).wf = false := by decide

/-! Single commands and functions, with values worked out from the spec's words. -/

/-- The state a command leaves. -/
def after (c : Instr) (s : State) : State := match exec c s with | .next t => t | _ => s

/-- R68: code 0x07 and SRC 1. -/
theorem test_structural_running :
    (after (.structuralWrite ⟨1, 0x100, 0x10⟩ 1) (live.put (inB 0) F.STAT_STOPPED 0)).get (inB 0) F.COMMIT_STAT_RESULT = 7 := by
  decide +kernel
/-- R53. -/
theorem test_group_write : (after (.commitGroupWrite ⟨1, 0x300⟩ 63) live).get (compB 0) F.COMMIT_GROUP = 63 := by decide +kernel
/-- R60: CG_ABORT of an armed group returns it to idle. -/
theorem test_abort : (after (.cgAbort 5) (live.put (cgB 5) F.CG_STAT_STATE 1)).get (cgB 5) F.CG_STAT_STATE = 0 := by
  decide +kernel
/-- R86: loss of the carrier. -/
theorem test_carrier : (after (.carrierLoss 0 none) rxLock).get (inB 0) F.IN_STAT_STATE = 0 := by decide +kernel
/-- R373: data bit 0 stands at position 3, and the word with its check bits has even parity. -/
theorem test_check_bits : checkOf 0 = 0 ∧ checkOf 1 = 0x83 := by decide +kernel
/-- R445: the CRC-32 of the ASCII digits 1 to 9. -/
theorem test_crc32 : crc32 [0x31, 0x32, 0x33, 0x34, 0x35, 0x36, 0x37, 0x38, 0x39] = 0xCBF43926 := by decide +kernel
/-- R175: take lines. -/
theorem test_take_line : takeLine 1 = 10 ∧ takeLine 2 = 6 ∧ takeLine 7 = 7 := by decide
/-- R5: an access to an absent die reads all ones. -/
theorem test_absent : (after (.hostAccessAbsentDie ⟨6, 0x100, 0⟩ .read) (live.put 0 F.DIE_PRESENT_MAP 0x81)).readData = 0xFFFFFFFF := by
  decide +kernel
/-- R10, R500: DIE 7 in bits 31 to 29, SLICE 0x3F from bit 23, ARRAY 1 from bit 9, and the word's index. -/
theorem test_ym_locator : ymLocator 0x3F 1 5 = BitVec.ofNat 32 (7 * 2 ^ 29 + 0x3F * 2 ^ 23 + 2 ^ 9 + 5) := by decide

end Sys2Proof.Tests
end

section
/-! Proofs about the refusal of a direct write (R49) and about the GROUP part of a write of COMMIT (R53). -/

namespace Sys2Proof.Machine

/-! What a refused direct write reports (R49). -/

@[simp] theorem State.get_refuseDirect_result (s : State) (base code : Nat) :
    (s.refuseDirect base code).get base F.COMMIT_STAT_RESULT = code % 2 ^ 8 :=
  (State.get_put_apart _ _ F.COMMIT_STAT_SRC F.COMMIT_STAT_RESULT _).trans (State.get_put_same _ _ _ _)

@[simp] theorem State.get_refuseDirect_src (s : State) (base code : Nat) :
    (s.refuseDirect base code).get base F.COMMIT_STAT_SRC = 1 :=
  State.get_put_same _ _ _ _

/-- The GROUP part of a write of COMMIT to a member of an armed group (R53). -/
theorem State.commitGroup_of_memberOfArmed {s : State} {base : Nat} (n : Nat) (h : s.memberOfArmed base = true) :
    s.commitGroup base n = s.refuseDirect base rcBusy := if_pos h

end Sys2Proof.Machine

namespace Sys2Proof

open Sys2Proof.Machine

/-! What a refused direct write leaves alone. -/

theorem OnlyRegs.refuseDirect {l : List Nat} {s u : State} {base code : Nat} (e : OnlyRegs l s u) (h : base + 0x24 ∈ l) :
    OnlyRegs l s (u.refuseDirect base code) := (e.put h).put h

/-- A field of a register outside the list is as it was. -/
theorem OnlyRegs.get {l : List Nat} {s t : State} (e : OnlyRegs l s t) {base : Nat} {f : Fld} (h : base + f.off ∉ l) :
    t.get base f = s.get base f := congrArg (fldGet · f.lo f.width) (e _ h)

/-! A write of COMMIT that reaches its block. -/

/-- A host write of COMMIT reaches the block: its die answers and is not slot 7, and its header uses COMMIT. -/
structure ReachesCommit (b : BlockAddr) (s : State) : Prop where
  notSlot7 : b.die ≠ 7
  present : s.present b.die.val = true
  uses : usesCommit (blkAddr b) = true

theorem ReachesCommit.exec_commitGroupWrite {b : BlockAddr} {s : State} (r : ReachesCommit b s) (g : Fin 64) :
    exec (.commitGroupWrite b g) s = .next (s.commitGroup (blkAddr b) g) := by
  change execCommitGroupWrite b g s = _
  rw [execCommitGroupWrite, State.hostWrite_eq (Fin.val_ne_of_ne r.notSlot7) r.present, if_pos r.uses]

/-- The ARM bit arms the group that the write names, after the GROUP part has been dealt with (R49). -/
theorem ReachesCommit.exec_commitArm {b : BlockAddr} {s : State} (r : ReachesCommit b s) (g : Fin 64) (us : Nat) :
    exec (.commitArm b g us) s = exec (.cgArm g us) (s.commitGroup (blkAddr b) g) := by
  change execCommitArm b g us s = execCgArm g us _
  rw [execCommitArm, State.hostWrite_eq (Fin.val_ne_of_ne r.notSlot7) r.present, if_pos r.uses, execCgArm]

/-- Settles O4: for a member of an armed group the GROUP part is a refused direct write with GROUP_BUSY, alone or before an arm. -/
theorem groupWriteWhileArmed : Obligations.GroupWriteWhileArmed := by
  unfold Obligations.GroupWriteWhileArmed
  constructor
  · intro b g s h7 hp hu harmed
    have r : ReachesCommit b s := ⟨h7, hp, hu⟩
    have frame : OnlyRegs [blkAddr b + 0x24] s (s.refuseDirect (blkAddr b) rcBusy) :=
      (OnlyRegs.refl _ s).refuseDirect List.mem_cons_self
    refine ⟨s.refuseDirect (blkAddr b) rcBusy, ?_, ?_, ?_, frame.get ?_, frame⟩
    · rw [r.exec_commitGroupWrite, State.commitGroup_of_memberOfArmed _ harmed]
    · exact State.get_refuseDirect_result s _ _
    · exact State.get_refuseDirect_src s _ _
    · simp -- COMMIT stands at 0x20 of the header, COMMIT_STAT at 0x24
  · intro b g us s h7 hp hu harmed
    have r : ReachesCommit b s := ⟨h7, hp, hu⟩
    rw [r.exec_commitArm, State.commitGroup_of_memberOfArmed _ harmed]

end Sys2Proof
end

section
/-! Proofs about all commands at once: each completes, and none reaches a part that `touches` does not give for it. -/

set_option Elab.async false

namespace Sys2Proof

open Sys2Proof.Machine

/-! The masks of `erase` and the lists of `touches`. -/

/-- The bit of a part in the masks of `erase`. -/
def Part.bit (p : Part) : Nat := p.ctorIdx

/-- The mask of a list of parts. -/
def partMask : List Part → Nat
  | [] => 0
  | p :: l => 2 ^ p.bit ||| partMask l

theorem Part.eq_of_bit_eq {p q : Part} (h : p.bit = q.bit) : p = q := by
  rw [← Part.ofNat_ctorIdx p, ← Part.ofNat_ctorIdx q]
  exact congrArg Part.ofNat h

theorem testBit_partMask {p : Part} {l : List Part} (h : p ∉ l) : (partMask l).testBit p.bit = false := by
  induction l with
  | nil => exact Nat.zero_testBit _
  | cons q l ih =>
    have hq : q.bit ≠ p.bit := fun e => h (by rw [Part.eq_of_bit_eq e]; exact List.mem_cons_self)
    rw [partMask, Nat.testBit_or, Nat.testBit_two_pow_of_ne hq, ih fun m => h (List.mem_cons_of_mem _ m), Bool.or_false]

/-- A part outside the mask is in the erased state as it was. -/
theorem Part.same_erase {m : Nat} {p : Part} (h : m.testBit p.bit = false) (s : State) : p.same s (erase m s) := by
  cases p <;> exact if_neg (Bool.eq_false_iff.1 h)

/-- An operation that keeps `erase m` keeps every part outside `m`. -/
theorem Part.same_of_erase {m : Nat} {p : Part} {s t : State} (h : m.testBit p.bit = false) (e : erase m t = erase m s) : p.same s t := by
  have hs := Part.same_erase h s
  have ht := Part.same_erase h t
  rw [e] at ht
  cases p <;> exact ht.symm.trans hs

/-! Every command. -/

/-- The frame of every command: it keeps what is outside the parts that `touches` gives for it. -/
theorem exec_frame {s t : State} : ∀ {i : Instr}, exec i s = .next t →
    erase (partMask (touches i)) t = erase (partMask (touches i)) s
  | .hostAccessAbsentDie .., h => execHostAccessAbsentDie_frame h
  | .hostWriteSlot7 page word v, h => execHostWriteSlot7_frame (y0 := page) (y1 := word) (y2 := v) h
  | .registerWrite .., h => execRegisterWrite_frame h
  | .errLocRead .., h => execErrLocRead_frame h
  | .shadowWrite .., h => execShadowWrite_frame h
  | .structuralWrite .., h => execStructuralWrite_frame h
  | .commitGroupWrite .., h => execCommitGroupWrite_frame h
  | .commitArm .., h => execCommitArm_frame h
  | .cgArm .., h => execCgArm_frame h
  | .cgAbort .., h => execCgAbort_frame h
  | .cgCfgWrite .., h => execCgCfgWrite_frame h
  | .takeCutoff .., h => execTakeCutoff_frame h
  | .takeMessage .., h => execTakeMessage_frame h
  | .domainFramePulse .., h => execDomainFramePulse_frame h
  | .takeApply .., h => execTakeApply_frame h
  | .ctrlRunClear .., h => execCtrlRunClear_frame h
  | .blockStopped .., h => execBlockStopped_frame h
  | .ctrlRunSet .., h => execCtrlRunSet_frame h
  | .outputStart .., h => execOutputStart_frame h
  | .stopModeWrite .., h => execStopModeWrite_frame h
  | .softReset .., h => execSoftReset_frame h
  | .evStickyClear .., h => execEvStickyClear_frame h
  | .evForce .., h => execEvForce_frame h
  | .yumenStickyClear .., h => execYumenStickyClear_frame h
  | .eventMessage .., h => execEventMessage_frame h
  | .msixHoldoffExpiry .., h => execMsixHoldoffExpiry_frame h
  | .vecAck .., h => execVecAck_frame h
  | .msixUnmask .., h => execMsixUnmask_frame h
  | .finanoLine .., h => execFinanoLine_frame h
  | .slackWindowEnd .., h => execSlackWindowEnd_frame h
  | .slackRead .., h => execSlackRead_frame h
  | .carrierLoss .., h => execCarrierLoss_frame h
  | .signalDetect .., h => execSignalDetect_frame h
  | .cdrLock .., h => execCdrLock_frame h
  | .cdrSearchTimeout .., h => execCdrSearchTimeout_frame h
  | .cdrLoss .., h => execCdrLoss_frame h
  | .eavTimeout .., h => execEavTimeout_frame h
  | .sdiRxFrame .., h => execSdiRxFrame_frame h
  | .fmtLock .., h => execFmtLock_frame h
  | .quadGroupLock .., h => execQuadGroupLock_frame h
  | .inOverrideWrite .., h => execInOverrideWrite_frame h
  | .sdiRxLine .., h => execSdiRxLine_frame h
  | .ancPacketReceived .., h => execAncPacketReceived_frame h
  | .rqpAgeExpiry .., h => execRqpAgeExpiry_frame h
  | .outputFrameStart .., h => execOutputFrameStart_frame h
  | .outputLineStart .., h => execOutputLineStart_frame h
  | .driverOpenShort .., h => execDriverOpenShort_frame h
  | .candActive .., h => execCandActive_frame h
  | .candLoss .., h => execCandLoss_frame h
  | .candQualify .., h => execCandQualify_frame h
  | .candDisqualify .., h => execCandDisqualify_frame h
  | .wtrExpiry .., h => execWtrExpiry_frame h
  | .selectHoldExpiry, h => execSelectHoldExpiry_frame h
  | .selectEvaluation .., h => execSelectEvaluation_frame h
  | .loopUpdate .., h => execLoopUpdate_frame h
  | .acquireDone, h => execAcquireDone_frame h
  | .pullComplete, h => execPullComplete_frame h
  | .bandwidthHalving, h => execBandwidthHalving_frame h
  | .historySample, h => execHistorySample_frame h
  | .holdoverPredict, h => execHoldoverPredict_frame h
  | .dcoTableLearn, h => execDcoTableLearn_frame h
  | .disagreeDetect .., h => execDisagreeDetect_frame h
  | .tsSetArm, h => execTsSetArm_frame h
  | .tsSetApply, h => execTsSetApply_frame h
  | .tsSecRead .., h => execTsSecRead_frame h
  | .tdRunWrite .., h => execTdRunWrite_frame h
  | .domainStart .., h => execDomainStart_frame h
  | .tdRealignGo .., h => execTdRealignGo_frame h
  | .realignJump .., h => execRealignJump_frame h
  | .realignSlopeDone .., h => execRealignSlopeDone_frame h
  | .routeCfgWrite .., h => execRouteCfgWrite_frame h
  | .windowMeasure .., h => execWindowMeasure_frame h
  | .routeFallback .., h => execRouteFallback_frame h
  | .routeReturn .., h => execRouteReturn_frame h
  | .flReexamine .., h => execFlReexamine_frame h
  | .routeSourceResume .., h => execRouteSourceResume_frame h
  | .finanoLinkFail _ _ _ why, h => execFinanoLinkFail_frame (y3 := why) h
  | .linkMove .., h => execLinkMove_frame h
  | .finanoLinkTest .., h => execFinanoLinkTest_frame h
  | .finanoLinkRestore .., h => execFinanoLinkRestore_frame h
  | .ringFrameStart .., h => execRingFrameStart_frame h
  | .ringFrameComplete .., h => execRingFrameComplete_frame h
  | .lossHide .., h => execLossHide_frame h
  | .bar2Write .., h => execBar2Write_frame h
  | .bar2Read .., h => execBar2Read_frame h
  | .combineTimeout .., h => execCombineTimeout_frame h
  | .meterWindow .., h => execMeterWindow_frame h
  | .channelFailCause .., h => execChannelFailCause_frame h
  | .erasureEntry .., h => execErasureEntry_frame h
  | .ceWindowEnd .., h => execCeWindowEnd_frame h
  | .mcFail .., h => execMcFail_frame h
  | .mcRestore .., h => execMcRestore_frame h
  | .rebuildDone, h => execRebuildDone_frame h
  | .memoryRead who .., h => execMemoryRead_frame (y0 := who) h
  | .memoryWrite .., h => execMemoryWrite_frame h
  | .winnowStripe .., h => execWinnowStripe_frame h
  | .memRefresh .., h => execMemRefresh_frame h
  | .memTrainingDone .., h => execMemTrainingDone_frame h
  | .selftestDone .., h => execSelftestDone_frame h
  | .mcRawUnlock .., h => execMcRawUnlock_frame h
  | .mcRawGo .., h => execMcRawGo_frame h
  | .memQueueUe .., h => execMemQueueUe_frame h
  | .coefWrite .., h => execCoefWrite_frame h
  | .coefRestore .., h => execCoefRestore_frame h
  | .lutWrite .., h => execLutWrite_frame h
  | .lutRead .., h => execLutRead_frame h
  | .composerUe .., h => execComposerUe_frame h
  | .fenceDeadline .., h => execFenceDeadline_frame h
  | .fenceDoorbell .., h => execFenceDoorbell_frame h
  | .converterFrame .., h => execConverterFrame_frame h
  | .frameLate .., h => execFrameLate_frame h
  | .cadencePicture .., h => execCadencePicture_frame h
  | .engineFault .., h => execEngineFault_frame h
  | .audioSample .., h => execAudioSample_frame h
  | .audioPacketReceived .., h => execAudioPacketReceived_frame h
  | .deembRateMeasure .., h => execDeembRateMeasure_frame h
  | .asrcLock .., h => execAsrcLock_frame h
  | .asrcUnlock .., h => execAsrcUnlock_frame h
  | .audioSwitch .., h => execAudioSwitch_frame h
  | .autoDelayUpdate .., h => execAutoDelayUpdate_frame h
  | .genCfgWrite .., h => execGenCfgWrite_frame h
  | .limiterUpdate, h => execLimiterUpdate_frame h
  | .ethFrameReceived .., h => execEthFrameReceived_frame h
  | .rxFrameTimeout .., h => execRxFrameTimeout_frame h
  | .rxStreamLost .., h => execRxStreamLost_frame h
  | .legTimeout .., h => execLegTimeout_frame h
  | .rxAsyncMeasure .., h => execRxAsyncMeasure_frame h
  | .hqrPop .., h => execHqrPop_frame h
  | .hqtSend .., h => execHqtSend_frame h
  | .hqtSent .., h => execHqtSent_frame h
  | .optTransferStart .., h => execOptTransferStart_frame h
  | .optTransferDone .., h => execOptTransferDone_frame h
  | .modChange .., h => execModChange_frame h
  | .modInt .., h => execModInt_frame h
  | .linkUp .., h => execLinkUp_frame h
  | .linkDown .., h => execLinkDown_frame h
  | .txFrameStart .., h => execTxFrameStart_frame h
  | .txPacketSend .., h => execTxPacketSend_frame h
  | .txAudioPacket .., h => execTxAudioPacket_frame h
  | .ptpMessage .., h => execPtpMessage_frame h
  | .announceTimeout .., h => execAnnounceTimeout_frame h
  | .ipTableUe .., h => execIpTableUe_frame h
  | .busTransaction .., h => execBusTransaction_frame h
  | .targetArbitration .., h => execTargetArbitration_frame h
  | .busResponse .., h => execBusResponse_frame h
  | .lockBroken .., h => execLockBroken_frame h
  | .masterPortReset .., h => execMasterPortReset_frame h
  | .bmFault .., h => execBmFault_frame h
  | .ksDerive .., h => execKsDerive_frame h
  | .ksClear .., h => execKsClear_frame h
  | .ksAttest .., h => execKsAttest_frame h
  | .ksUpdate .., h => execKsUpdate_frame h
  | .measExtend .., h => execMeasExtend_frame h
  | .remask, h => execRemask_frame h
  | .rngFault, h => execRngFault_frame h
  | .rngRecover, h => execRngRecover_frame h
  | .ksFault .., h => execKsFault_frame h
  | .tamper .., h => execTamper_frame h
  | .ksStartup, h => execKsStartup_frame h
  | .recAppend .., h => execRecAppend_frame h
  | .recDelete .., h => execRecDelete_frame h
  | .recCommit .., h => execRecCommit_frame h
  | .recAbort .., h => execRecAbort_frame h
  | .recRead .., h => execRecRead_frame h
  | .gatherTimeout, h => execGatherTimeout_frame h
  | .compaction, h => execCompaction_frame h
  | .cntInc .., h => execCntInc_frame h
  | .rawProgram .., h => execRawProgram_frame h
  | .rawEraseSector .., h => execRawEraseSector_frame h
  | .rawClearBuf .., h => execRawClearBuf_frame h
  | .rawLoad .., h => execRawLoad_frame h
  | .rawBufferWrite .., h => execRawBufferWrite_frame h
  | .gleanerPass .., h => execGleanerPass_frame h
  | .flashPowerUp .., h => execFlashPowerUp_frame h
  | .nvInhibitAssert, h => execNvInhibitAssert_frame h
  | .nvInhibitRelease, h => execNvInhibitRelease_frame h
  | .flashFault .., h => execFlashFault_frame h
  | .yumenSecond .., h => execYumenSecond_frame h
  | .timeOffer .., h => execTimeOffer_frame h
  | .offerMissing, h => execOfferMissing_frame h
  | .sealOpened, h => execSealOpened_frame h
  | .sealClosed, h => execSealClosed_frame h
  | .status .., h => execStatus_frame h
  | .identity .., h => execIdentity_frame h
  | .readS .., h => execReadS_frame h
  | .readQ .., h => execReadQ_frame h
  | .setInput .., h => execSetInput_frame h
  | .setRtc .., h => execSetRtc_frame h
  | .setQofs .., h => execSetQofs_frame h
  | .rtcSupplyLoss, h => execRtcSupplyLoss_frame h
  | .yumenPowerUp .., h => execYumenPowerUp_frame h
  | .yumenLinkFrame .., h => execYumenLinkFrame_frame h
  | .yumenStatusFrame .., h => execYumenStatusFrame_frame h
  | .carouselRecord, h => execCarouselRecord_frame h
  | .yumenLinkTimeout, h => execYumenLinkTimeout_frame h
  | .yfForward, h => execYfForward_frame h
  | .mgWdtKick, h => execMgWdtKick_frame h
  | .watchdog .., h => execWatchdog_frame h
  | .debugEnabled, h => execDebugEnabled_frame h
  | .dmaGo .., h => execDmaGo_frame h
  | .dmaAbort .., h => execDmaAbort_frame h
  | .dmaJobEnd .., h => execDmaJobEnd_frame h
  | .updStart .., h => execUpdStart_frame h
  | .updAbort, h => execUpdAbort_frame h
  | .updBlockReady .., h => execUpdBlockReady_frame h
  | .updBlockTimeout, h => execUpdBlockTimeout_frame h
  | .updComplete .., h => execUpdComplete_frame h
  | .sensorRead .., h => execSensorRead_frame h
  | .railRead .., h => execRailRead_frame h
  | .ageingMeasure .., h => execAgeingMeasure_frame h
  | .ageingDaily .., h => execAgeingDaily_frame h
  | .faultLogWrite .., h => execFaultLogWrite_frame h
  | .calUnlock .., h => execCalUnlock_frame h
  | .calRead .., h => execCalRead_frame h
  | .calWrite .., h => execCalWrite_frame h
  | .calWindowExpiry, h => execCalWindowExpiry_frame h
  | .learnTableSave, h => execLearnTableSave_frame h
  | .porstAssert, h => execPorstAssert_frame h
  | .powerGoodReset, h => execPowerGoodReset_frame h
  | .coldStart .., h => execColdStart_frame h
  | .pcieLinkUp, h => execPcieLinkUp_frame h
  | .sheafBringup .., h => execSheafBringup_frame h
  | .sheafDown .., h => execSheafDown_frame h
  | .yumenPowerLoss, h => execYumenPowerLoss_frame h
  | .rawModeExpiry .., h => execRawModeExpiry_frame h
  | .backgroundErase, h => execBackgroundErase_frame h
  | .delayReq .., h => execDelayReq_frame h

/-- Every command answers a next state. -/
theorem exec_next (i : Instr) (s : State) : ∃ t, exec i s = .next t := by
  cases i
  case targetArbitration =>
    simp only [exec, execTargetArbitration]
    split <;> exact ⟨_, rfl⟩
  all_goals exact ⟨_, rfl⟩

/-- Settles O6: the frame of every command, part by part. -/
theorem commandFrame : Obligations.CommandFrame := by
  unfold Obligations.CommandFrame
  intro i s t h p hp
  exact Part.same_of_erase (testBit_partMask hp) (exec_frame h)

/-- Settles O7: every command answers a next state, and its frame holds of it. -/
theorem everyCommandCompletes : Obligations.EveryCommandCompletes := by
  unfold Obligations.EveryCommandCompletes
  intro i s
  obtain ⟨t, h⟩ := exec_next i s
  exact ⟨t, h, commandFrame i s t h⟩

/-- Settles O5: an empty queue idles, and any other step is a command, which completes. -/
theorem everyCommandRuns : Obligations.EveryCommandRuns := by
  unfold Obligations.EveryCommandRuns
  intro s
  unfold stepsOn step
  cases s.pending with
  | nil => rfl
  | cons c rest =>
    obtain ⟨t, h⟩ := exec_next c { s with pending := rest }
    dsimp only
    rw [h]

/-- Settles O1: by definition a step takes the command in front and runs it on the state with the rest. -/
theorem stepRunsFront : Obligations.StepRunsFront := fun _ _ _ => rfl

/-! The canonical form of the memory contents. -/

theorem memOk_of_mem {s t : State} (h : t.mem = s.mem) (hs : memOk s = true) : memOk t = true := by
  unfold memOk
  rw [h]
  exact hs

/-- Every command keeps the canonical form: those that reach the memory by their own law, the others by their frame. -/
theorem exec_memOk {s t : State} {i : Instr} (hs : memOk s = true) (h : exec i s = .next t) : memOk t = true := by
  cases i
  case channelFailCause => exact execChannelFailCause_mk hs h
  case erasureEntry => exact execErasureEntry_mk hs h
  case ceWindowEnd => exact execCeWindowEnd_mk hs h
  case mcFail => exact execMcFail_mk hs h
  case mcRestore => exact execMcRestore_mk hs h
  case memoryRead who _ _ _ _ => exact execMemoryRead_mk (y0 := who) hs h
  case memoryWrite => exact execMemoryWrite_mk hs h
  case winnowStripe => exact execWinnowStripe_mk hs h
  case rebuildDone => exact execRebuildDone_mk hs h
  case memTrainingDone => exact execMemTrainingDone_mk hs h
  case selftestDone => exact execSelftestDone_mk hs h
  case mcRawUnlock => exact execMcRawUnlock_mk hs h
  case mcRawGo => exact execMcRawGo_mk hs h
  case rawModeExpiry => exact execRawModeExpiry_mk hs h
  case memQueueUe => exact execMemQueueUe_mk hs h
  case bar2Write => exact execBar2Write_mk hs h
  case bar2Read => exact execBar2Read_mk hs h
  case combineTimeout => exact execCombineTimeout_mk hs h
  case meterWindow => exact execMeterWindow_mk hs h
  case composerUe => exact execComposerUe_mk hs h
  case finanoLine => exact execFinanoLine_mk hs h
  case fenceDoorbell => exact execFenceDoorbell_mk hs h
  case ethFrameReceived => exact execEthFrameReceived_mk hs h
  case rxFrameTimeout => exact execRxFrameTimeout_mk hs h
  case txFrameStart => exact execTxFrameStart_mk hs h
  case txPacketSend => exact execTxPacketSend_mk hs h
  case takeCutoff => exact execTakeCutoff_mk hs h
  case ringFrameComplete => exact execRingFrameComplete_mk hs h
  case domainFramePulse => exact execDomainFramePulse_mk hs h
  case domainStart => exact execDomainStart_mk hs h
  case takeApply => exact execTakeApply_mk hs h
  case blockStopped => exact execBlockStopped_mk hs h
  case ctrlRunSet => exact execCtrlRunSet_mk hs h
  case yumenLinkFrame => exact execYumenLinkFrame_mk hs h
  case yfForward => exact execYfForward_mk hs h
  case dmaJobEnd => exact execDmaJobEnd_mk hs h
  case dmaAbort => exact execDmaAbort_mk hs h
  case targetArbitration => exact execTargetArbitration_mk hs h
  case busResponse => exact execBusResponse_mk hs h
  case bmFault => exact execBmFault_mk hs h
  case porstAssert => exact execPorstAssert_mk hs h
  case powerGoodReset => exact execPowerGoodReset_mk hs h
  case coldStart => exact execColdStart_mk hs h
  case updComplete => exact execUpdComplete_mk hs h
  all_goals exact memOk_of_mem (commandFrame _ s t h .mem (by simp [touches])) hs

/-- Settles O9: an idle step changes nothing, and every command keeps the form. -/
theorem memoryFormKept : Obligations.MemoryFormKept := by
  unfold Obligations.MemoryFormKept
  intro s t hs h
  unfold step at h
  cases hq : s.pending with
  | nil =>
    rw [hq] at h
    cases h
    exact hs
  | cons c rest =>
    rw [hq] at h
    exact exec_memOk (s := { s with pending := rest }) hs h

/-- Settles O8: nothing is listed after reset. -/
theorem memoryFormAtReset : Obligations.MemoryFormAtReset := by
  unfold Obligations.MemoryFormAtReset
  decide

end Sys2Proof
end

section
/-! Proofs about host accesses to dies that do not answer, about events and interrupts, and about arming commit groups (chapter 02). -/

set_option Elab.async false

namespace Sys2Proof.Machine

/-- Outcomes of equal next states are equal. -/
theorem next_congr {s t : State} (h : s = t) : (.next s : Host.Outcome State Fault Refusal) = .next t := congrArg _ h

/-! Host accesses to a die that does not answer. -/

/-- An access to an empty slot raises ABSENT_DIE_ACCESS. -/
theorem State.absentAccess_of_unpopulated {s : State} {d : Nat} (h : s.populated d = false) : s.absentAccess d = s.raise evcB 1 := by
  rw [State.absentAccess, h]
  rfl

theorem State.hostWrite_of_absent {s : State} {d : Nat} (h7 : d ≠ 7) (h : s.present d = false) (t : State) :
    s.hostWrite d t = s.absentAccess d := by
  rw [State.hostWrite, if_neg h7, h]
  rfl

theorem State.hostWrite_slot7 {s : State} (h : s.present 7 = true) (t : State) : s.hostWrite 7 t = s.raise evcB 2 := by
  rw [State.hostWrite, if_pos rfl, if_pos h]

/-! The die of a block. -/

/-- A block starts at a page of its own die, none above the page that names it. -/
theorem blockBase_eq_addrOf (a : Nat) : ∃ q, q ≤ pageOf a ∧ blockBase a = addrOf (dieOf a) q 0 := by
  unfold blockBase
  dsimp only
  refine ⟨_, ?_, rfl⟩
  repeat' split
  all_goals omega

theorem dieOf_blockBase (a : Nat) : dieOf (blockBase a) = dieOf a := by
  obtain ⟨q, hq, h⟩ := blockBase_eq_addrOf a
  have hp : pageOf a < 0x800 := Nat.mod_lt _ (by decide)
  have hd : dieOf a < 8 := Nat.mod_lt _ (by decide)
  rw [h]
  simp only [dieOf, addrOf] at hd ⊢
  omega

theorem dieOf_blkAddr (b : BlockAddr) : dieOf (blkAddr b) = b.die.val := by
  have := b.die.isLt
  have := b.page.isLt
  rw [blkAddr, dieOf_blockBase, dieOf, addrOf]
  omega

/-! Sticky bits and the events that the controller takes up. -/

/-- A sticky bit stays set when another event of the block is raised. -/
theorem State.testBit_raiseIf_of_testBit {s : State} {b k : Nat} (c : Bool) (j : Nat) (h : (s.rd (b + 0x10)).toNat.testBit k = true) :
    ((s.raiseIf c b j).rd (b + 0x10)).toNat.testBit k = true := by
  cases c with
  | false => exact h
  | true =>
    change ((s.raise b j).rd (b + 0x10)).toNat.testBit k = true
    rcases s.raise_cases b j with ⟨_, e⟩ | ⟨_, _, e, _⟩
    · rwa [e]
    · have hr : (s.raise b j).rd (b + 0x10) = s.rd (b + 0x10) ||| BitVec.ofNat 32 (2 ^ j) := by rw [e]; exact s.rd_wr_same ..
      rw [hr, BitVec.toNat_or, Nat.testBit_or, h, Bool.true_or]

/-- A raised event's sticky bit is set. -/
theorem State.testBit_raise_same {s : State} {b k : Nat} (hk : k < 32) (h : s.present (dieOf b) = true) :
    ((s.raise b k).rd (b + 0x10)).toNat.testBit k = true := by
  rw [State.rd_raise_same s b k h, BitVec.toNat_or, BitVec.toNat_ofNat, Nat.mod_eq_of_lt (Nat.pow_lt_pow_right (by decide) hk),
    Nat.testBit_or, Nat.testBit_two_pow_self, Bool.or_true]

/-- Raising an event of a block leaves the dies that answer as they are. -/
theorem State.present_raiseIf {s : State} {b : Nat} (hb : b % 0x1000 = 0) (c : Bool) (k d : Nat) :
    (s.raiseIf c b k).present d = s.present d :=
  State.present_congr (State.rd_raiseIf_ne s c k (by omega)) (State.raiseIf_pwr s c b k) d

/-- Every event of a list whose condition holds is sticky in the end. -/
theorem State.testBit_forAll_raiseIf {b k : Nat} (hb : b % 0x1000 = 0) (hk : k < 32) {c : Nat → Bool} (hc : c k = true) :
    ∀ {l : List Nat} {s : State}, s.present (dieOf b) = true → (k ∈ l ∨ (s.rd (b + 0x10)).toNat.testBit k = true) →
      ((s.forAll l fun j u => u.raiseIf (c j) b j).rd (b + 0x10)).toNat.testBit k = true := by
  intro l
  induction l with
  | nil => exact fun {s} _ h => h.resolve_left List.not_mem_nil
  | cons j l ih =>
    intro s hp h
    refine ih ((State.present_raiseIf hb _ _ _).trans hp) ?_
    rcases h with h | h
    · rcases List.mem_cons.1 h with rfl | h
      · right
        have e : s.raiseIf (c k) b k = s.raise b k := by rw [hc]; rfl
        change (((s.raiseIf (c k) b k).rd (b + 0x10)).toNat.testBit k = true)
        rw [e]
        exact State.testBit_raise_same hk hp
      · exact .inl h
    · exact .inr (State.testBit_raiseIf_of_testBit _ j h)

/-- Bringing the vectors up to date leaves the controller's global state and Yumen words alone. -/
theorem State.rd_refreshVecs_evc (s : State) {o : Nat} (h : 0x40 ≤ o ∧ o < 0x380 ∨ 0x390 ≤ o ∧ o < 0x1000) :
    s.refreshVecs.rd (evcB + o) = s.rd (evcB + o) := by
  refine State.rd_refreshVecs s ?_
  simp only [List.mem_cons, List.not_mem_nil, or_false, not_or, evcB, gPage]
  omega

/-- The controller shows the state of an event that it has taken up. -/
theorem State.get_refreshEv (s : State) {e : Nat} (h : e < 512) :
    (s.refreshEv e).get (evcB + 4 * (e / 32)) ⟨0x40, e % 32, 1⟩ = b2n (s.evActive e) := by
  have shown : (s.setEvg e (s.evActive e)).get (evcB + 4 * (e / 32)) ⟨0x40, e % 32, 1⟩ = b2n (s.evActive e) := by
    rw [State.setEvg, State.get_put_same _ _ _ _ (by dsimp only; omega)]
    cases s.evActive e <;> rfl
  refine (State.get_of_rd ?_).trans shown
  have e : evcB + 4 * (e / 32) + 0x40 = evcB + (0x40 + 4 * (e / 32)) := by omega
  rw [e]
  exact State.rd_refreshVecs_evc _ (.inl (by omega))

end Sys2Proof.Machine

namespace Sys2Proof

open Sys2Proof.Machine

/-- A command that answers a state with the property does it. -/
theorem Does.intro {i : Instr} {s t : State} {P : State → Prop} (h : exec i s = .next t) (p : P t) : Does i s P := ⟨t, h, p⟩

theorem OnlyRegs.raise_refl (s : State) (b k : Nat) : OnlyRegs [b + 0x10] s (s.raise b k) :=
  (OnlyRegs.refl _ s).raise List.mem_cons_self

/-- Settles O10: an access to an empty slot raises ABSENT_DIE_ACCESS, one to slot 7 its own event, and every write of a die that does not
answer is the same discarded host write. -/
theorem absentDieAccesses : Obligations.AbsentDieAccesses := by
  unfold Obligations.AbsentDieAccesses
  refine ⟨?_, ?_, ?_, ?_⟩
  · intro a s h0 hp hu
    refine ⟨(s.raise evcB 1).answer 0xFFFFFFFF, ?_, rfl, (Raised.raise h0).keep rfl rfl, (OnlyRegs.raise_refl s evcB 1).of_regs rfl⟩
    rw [← State.absentAccess_of_unpopulated hu]
    change Host.Outcome.next _ = _
    rw [hp]
    rfl
  · intro a v s h0 hp hu h7
    refine ⟨s.raise evcB 1, ?_, Raised.raise h0, OnlyRegs.raise_refl s evcB 1⟩
    rw [← State.absentAccess_of_unpopulated hu, ← State.hostWrite_of_absent (Fin.val_ne_of_ne h7) hp s]
    change Host.Outcome.next _ = _
    rw [hp]
    rfl
  · intro page word v s h0 h7
    exact ⟨s.raise evcB 2, next_congr (State.hostWrite_slot7 h7 s), Raised.raise h0, OnlyRegs.raise_refl s evcB 2⟩
  · intro m1 a b v g us s ha7 ha hb7 hb
    have write (t : State) : s.hostWrite a.die t = s.absentAccess a.die := State.hostWrite_of_absent (Fin.val_ne_of_ne ha7) ha t
    have block (t : State) : s.hostWrite b.die t = s.absentAccess b.die := State.hostWrite_of_absent (Fin.val_ne_of_ne hb7) hb t
    exact ⟨next_congr (write _), next_congr (write _), next_congr (write _), next_congr (block _), next_congr (block _),
      next_congr (block _), next_congr (block _), next_congr (block _), next_congr (block _), next_congr (block _)⟩


/-- Settles O12: clearing and forcing act on EV_STICKY alone, and what follows them leaves it as it is. -/
theorem eventCommands : Obligations.EventCommands := by
  unfold Obligations.EventCommands
  refine ⟨?_, ?_, ?_, ?_⟩
  · intro b bits s h7 hp hb
    refine Does.intro (next_congr (State.hostWrite_eq (Fin.val_ne_of_ne h7) hp)) ?_
    rw [State.rd_refreshBlock_sticky (blkAddr_page b) hb, State.rd_wr_same]
  · intro b bits k s h7 hp hk hbit hmask
    refine Does.intro (next_congr (State.hostWrite_eq (Fin.val_ne_of_ne h7) hp)) ⟨?_, fun a ha => ?_⟩
    · have hc : bitN (bits.toNat &&& evMaskOf (blkAddr b)) k = true := by
        rw [bitN, Nat.testBit_and, hbit, hmask]
        rfl
      refine State.testBit_forAll_raiseIf (blkAddr_page b) hk (c := bitN (bits.toNat &&& evMaskOf (blkAddr b))) hc ?_
        (.inl (List.mem_range.2 hk))
      rwa [dieOf_blkAddr]
    · exact State.rd_forAll fun j _ u => State.rd_raiseIf_ne u _ j (by simpa using ha)
  · intro bits s
    refine Does.intro rfl ?_
    have off (k : Nat) (hk : k ∈ List.range 16) (u : State) (x : Bool) :
        (u.setEvg (496 + k) x).rd (evcB + 0x390) = u.rd (evcB + 0x390) := by
      have := List.mem_range.1 hk
      exact State.rd_setEvg_ne u x (by simp only [evcB, gPage]; omega)
    have kept : s.get evcB F.YUMEN_STICKY_BITS &&& (0xFFFF - bits.toNat) < 2 ^ 16 :=
      Nat.lt_of_le_of_lt Nat.and_le_left (Nat.mod_lt _ (by decide))
    have same := State.get_put_same s evcB F.YUMEN_STICKY_BITS (s.get evcB F.YUMEN_STICKY_BITS &&& (0xFFFF - bits.toNat))
    rw [Nat.mod_eq_of_lt kept] at same
    refine Eq.trans (State.get_of_rd ?_) same
    rw [State.rd_refreshVecs_evc _ (by decide), State.rd_foldl fun k hk u => off k hk u _]
  · intro die e rest s he hlt
    refine Does.intro (t := ({ s with irq := { s.irq with inFlight := rest } } : State).refreshEv e) ?_ ?_
    · change Host.Outcome.next _ = _
      rw [he]
    · exact State.get_refreshEv _ hlt

end Sys2Proof
end

section
/-! Proofs about MSI-X messages (R76, R77). -/

set_option Elab.async false

namespace Sys2Proof.Machine

/-- A property that each step of a fold over a list keeps holds in the end. -/
theorem State.forAll_keeps {P : State → Prop} {f : Nat → State → State} {l : List Nat}
    (h : ∀ i ∈ l, ∀ u t, t = f i u → P u → P t) {s : State} (hs : P s) : P (s.forAll l f) := by
  unfold State.forAll
  induction l generalizing s with
  | nil => exact hs
  | cons i l ih => exact ih (fun j hj => h j (List.mem_cons_of_mem _ hj)) (h i List.mem_cons_self s _ rfl hs)

theorem bitN_setBit_false (x i : Nat) : bitN (setBit x i false) i = false := by
  change (x - (x &&& 2 ^ i)).testBit i = false
  rw [Nat.and_two_pow]
  cases h : x.testBit i with
  | false => simpa using h
  | true =>
    have le : 2 ^ i ≤ x := Nat.ge_two_pow_of_testBit h
    have split := Nat.testBit_two_pow_add_eq (x - 2 ^ i) i
    rw [Nat.add_sub_cancel' le, h] at split
    simpa using split.symm

/-! A vector's message. -/

/-- A request for the message of a vector that is neither blocked nor in a HOLDOFF gap sends it. -/
theorem State.out_msixRequest {s : State} {v : Nat} (hb : s.msixBlocked v = false) (hh : bitN s.irq.held v = false) :
    (s.msixRequest v).out = s.out ++ [.msix v (s.rd (gPage 0x011 + 16 * v)) (s.rd (gPage 0x011 + 16 * v + 4))
      (s.rd (gPage 0x011 + 16 * v + 8))] := by
  rw [State.msixRequest, hb, hh]
  rfl

/-- Releasing a vector changes its PCIe pending bit only. -/
theorem State.rd_msixRelease (s : State) {a v : Nat} (h : a ≠ gPage 0x012 + 4 * (v / 32)) : (s.msixRelease v).rd a = s.rd a := by
  have sent : (s.msixSend v).rd a = s.rd a := State.rd_put_ne _ _ _ h
  unfold State.msixRelease
  split
  · split
    · exact State.rd_setPba_ne _ _ h
    · exact sent
  · rfl

/-- Releasing a vector leaves MSI-X enabled, and its function mask as it is. -/
theorem State.msixRelease_enable (s : State) (v : Nat) :
    (s.msixRelease v).irq.msixEnable = s.irq.msixEnable ∧ (s.msixRelease v).irq.funcMask = s.irq.funcMask := by
  unfold State.msixRelease
  split
  · split <;> exact ⟨rfl, rfl⟩
  · exact ⟨rfl, rfl⟩

theorem State.forAll_msixRelease_enable {s : State} (l : List Nat) (h : s.irq.msixEnable = true ∧ s.irq.funcMask = false) :
    (s.forAll l fun v t => t.msixRelease v).irq.msixEnable = true ∧ (s.forAll l fun v t => t.msixRelease v).irq.funcMask = false := by
  refine State.forAll_keeps (P := fun u => u.irq.msixEnable = true ∧ u.irq.funcMask = false) (fun v _ u t e hu => ?_) h
  obtain ⟨he, hf⟩ := u.msixRelease_enable v
  rw [e, he, hf]
  exact hu

end Sys2Proof.Machine

namespace Sys2Proof

open Sys2Proof.Machine

/-- Settles O13: a request that is neither blocked nor held back sends the message, and a release leaves every mask alone. -/
theorem messageSignalledInterrupts : Obligations.MessageSignalledInterrupts := by
  unfold Obligations.MessageSignalledInterrupts
  refine ⟨?_, ?_, ?_, ?_, ?_⟩
  · intro v s hp hb hh
    exact Does.intro (next_congr (if_pos hp)) (State.out_msixRequest hb hh)
  · intro v s hh hd hp hb
    refine Does.intro (next_congr (if_pos (by rw [hh, hd, hp]; rfl))) ?_
    exact State.out_msixRequest hb (bitN_setBit_false s.irq.held v)
  · intro v s hd
    exact next_congr (if_neg (by rw [hd]; simp))
  · intro v s
    refine Does.intro rfl ?_
    have : v.val < 64 := v.isLt
    exact (State.get_of_rd (State.rd_msixRelease _ (by simp only [gPage]; omega))).trans (State.get_put_same _ _ _ 0)
  · intro s
    exact Does.intro rfl (State.forAll_msixRelease_enable _ ⟨rfl, rfl⟩)

end Sys2Proof
end

section
/-! Proofs about choosing, arming, aborting and configuring commit groups (R53, R59, R60, R65). -/

set_option Elab.async false

namespace Sys2Proof.Machine

/-! The PENDING bits of a group's members. -/

theorem membersOf_page {s : State} {n b : Nat} (h : b ∈ s.membersOf n) : b % 0x1000 = 0 := by
  obtain ⟨p, _, rfl⟩ := List.mem_map.1 (mem_dedupN h)
  exact blockBase_page p.1

/-- Showing which members are pending changes their COMMIT_STAT only. -/
theorem State.rd_pendings (s u : State) {n a : Nat} (h : a % 0x1000 ≠ 0x24) : (u.pendings (s.membersOf n)).rd a = u.rd a :=
  State.rd_foldl fun b hb v => State.rd_put_ne v _ _ (by have := membersOf_page hb; dsimp only; omega)

theorem State.get_pendings (s u : State) {n b : Nat} {f : Fld} (h : (b + f.off) % 0x1000 ≠ 0x24) :
    (u.pendings (s.membersOf n)).get b f = u.get b f := State.get_of_rd (State.rd_pendings s u h)

theorem State.pendings_eq (u : State) (l : List Nat) : ∃ r, u.pendings l = { u with regs := r } := by
  unfold State.pendings
  induction l generalizing u with
  | nil => exact ⟨u.regs, rfl⟩
  | cons b l ih =>
    obtain ⟨r, hr⟩ := ih (u.pendingRefresh b)
    exact ⟨r, hr⟩

/-! Arms and aborts. -/

/-- The registers of an armed group, its token given. -/
def State.armRegs (s : State) (n token : Nat) : State :=
  (s.put seqB F.TOKEN_NEXT_VALUE (if token = 0xFFFF then 1 else token + 1)).puts (cgB n) [(F.CG_STAT_STATE, 1), (F.CG_STAT_TOKEN, token)]

theorem State.get_armRegs_state (s : State) (n token : Nat) : (s.armRegs n token).get (cgB n) F.CG_STAT_STATE = 1 :=
  (State.get_put_apart _ _ _ _ _).trans (State.get_put_same _ _ _ 1)

theorem State.get_armRegs_token (s : State) (n token : Nat) : (s.armRegs n token).get (cgB n) F.CG_STAT_TOKEN = token % 2 ^ 16 :=
  State.get_put_same _ _ _ _

/-- The domains' registers are not among them. -/
theorem State.is_armRegs_td (s : State) {n d : Nat} (token : Nat) (hn : n < 64) (hd : d < 8) :
    (s.armRegs n token).is (tdB d) F.TD_STAT_STOPPED = s.is (tdB d) F.TD_STAT_STOPPED := by
  refine State.is_of_rd ((State.rd_puts_ne _ _ fun p hp => ?_).trans (State.rd_put_ne _ _ _ ?_))
  · simp only [List.mem_cons, List.not_mem_nil, or_false] at hp
    rcases hp with rfl | rfl <;> simp only [tdB, cgB, seqB, gPage] <;> omega
  · simp only [tdB, seqB, gPage]
    omega

/-- The GROUP part of a write of COMMIT to a block that is in no armed group (R53). -/
theorem State.commitGroup_of_notMember {s : State} {base : Nat} (n : Nat) (h : s.memberOfArmed base = false) :
    s.commitGroup base n = s.put base F.COMMIT_GROUP n := if_neg (by rw [h]; exact Bool.false_ne_true)

/-- An arm of an idle group of a domain that runs (R59). -/
theorem State.armGroup_idle {s : State} {n : Nat} (us : Nat) (hn : n < 64) (h0 : s.get (cgB n) F.CG_STAT_STATE = 0)
    (hs : s.is (tdB (s.get (cgB n) F.CG_CFG_DOMAIN)) F.TD_STAT_STOPPED = false) :
    (s.armGroup n us).get (cgB n) F.CG_STAT_STATE = 1 ∧
      (s.armGroup n us).get (cgB n) F.CG_STAT_TOKEN = s.get seqB F.TOKEN_NEXT_VALUE := by
  have hd : s.get (cgB n) F.CG_CFG_DOMAIN < 8 := Nat.mod_lt _ (by decide)
  have ht : s.get seqB F.TOKEN_NEXT_VALUE < 2 ^ 16 := Nat.mod_lt _ (by decide)
  generalize hdom : s.get (cgB n) F.CG_CFG_DOMAIN = d at hs hd
  generalize htok : s.get seqB F.TOKEN_NEXT_VALUE = token at ht
  have armed : ∃ late, s.armGroup n us =
      (((s.armRegs n token).setGrp n Grp.idle).pendings ((s.armRegs n token).membersOf n)).raiseIf late seqB 2 := by
    have run : (((s.armRegs n token).setGrp n Grp.idle).pendings ((s.armRegs n token).membersOf n)).is (tdB d) F.TD_STAT_STOPPED = false := by
      rw [State.is_of_rd (State.rd_pendings _ _ ?_), State.is_setGrp, State.is_armRegs_td s token hn hd, hs]
      simp only [tdB, gPage]
      omega
    unfold State.armGroup
    rw [if_neg (not_not_intro h0), hdom, htok]
    exact ⟨_, if_neg (by rw [← State.armRegs, run]; exact Bool.false_ne_true)⟩
  obtain ⟨late, e⟩ := armed
  have kept (f : Fld) (hf : f.off = 0x108) : (s.armGroup n us).get (cgB n) f = (s.armRegs n token).get (cgB n) f := by
    rw [e, State.get_raiseIf_ne, State.get_pendings, State.get_setGrp]
    · rw [hf]
      simp only [cgB, seqB, gPage]
      omega
    · rw [hf]
      simp only [cgB, seqB, gPage]
      omega
  exact ⟨(kept _ rfl).trans (s.get_armRegs_state n token),
    (kept _ rfl).trans ((s.get_armRegs_token n token).trans (Nat.mod_eq_of_lt ht))⟩

end Sys2Proof.Machine

namespace Sys2Proof

open Sys2Proof.Machine

/-- Settles O14: a header write goes to COMMIT.GROUP or is refused, and an arm of an idle group of a domain that runs takes the token. -/
theorem groupArming : Obligations.GroupArming := by
  unfold Obligations.GroupArming
  refine ⟨?_, ?_, ?_, ?_, ?_, ?_, ?_, ?_, ?_⟩
  · intro b n s h7 hp hu hm
    rw [ReachesCommit.exec_commitGroupWrite ⟨h7, hp, hu⟩, State.commitGroup_of_notMember _ hm]
  · intro b n s h7 hp hu hm
    rw [ReachesCommit.exec_commitGroupWrite ⟨h7, hp, hu⟩, State.commitGroup_of_memberOfArmed _ hm]
  · intro b n us s h7 hp hu hm h0 hs
    have hb := blkAddr_page b
    have hn := n.isLt
    have hd : s.get (cgB n) F.CG_CFG_DOMAIN < 8 := Nat.mod_lt _ (by decide)
    have kept (c : Nat) (f : Fld) (h : (c + f.off) % 0x1000 ≠ 0x20) :
        (s.put (blkAddr b) F.COMMIT_GROUP n.val).get c f = s.get c f :=
      State.get_put_ne s _ _ _ (by dsimp only; omega)
    have keptGrp (f : Fld) (h : f.off = 0x100 ∨ f.off = 0x108) := kept (cgB n) f (by simp only [cgB, seqB, gPage]; omega)
    have keptTd : (s.put (blkAddr b) F.COMMIT_GROUP n.val).is (tdB (s.get (cgB n) F.CG_CFG_DOMAIN)) F.TD_STAT_STOPPED = false := by
      rw [State.is, kept _ _ (by simp only [tdB, gPage]; omega)]
      exact hs
    obtain ⟨state, token⟩ := State.armGroup_idle (s := s.put (blkAddr b) F.COMMIT_GROUP n.val) us hn
      ((keptGrp _ (.inr rfl)).trans h0) (by rw [keptGrp _ (.inl rfl)]; exact keptTd)
    refine Does.intro (t := (s.put (blkAddr b) F.COMMIT_GROUP n.val).armGroup n us) ?_ ⟨state, token.trans (kept _ _ (by decide))⟩
    rw [ReachesCommit.exec_commitArm ⟨h7, hp, hu⟩, State.commitGroup_of_notMember _ hm]
    rfl
  · intro n us s h0 hs
    exact Does.intro rfl (State.armGroup_idle us n.isLt h0 hs)
  · intro n us s h0
    exact next_congr (if_pos h0)
  · intro n s hp hst
    refine Does.intro (next_congr (if_pos hst)) ?_
    have page : cgB n + F.CG_STAT_STATE.off ≠ seqB + 0x10 := by simp only [cgB, seqB, gPage]; omega
    obtain ⟨r, hr⟩ := State.pendings_eq ((s.put (cgB n) F.CG_STAT_STATE 0).setGrp n Grp.idle) (s.membersOf n)
    have sticky : (((s.put (cgB n) F.CG_STAT_STATE 0).setGrp n Grp.idle).pendings (s.membersOf n)).rd (seqB + 0x10) = s.rd (seqB + 0x10) := by
      rw [State.rd_pendings _ _ (by decide), State.rd_setGrp, State.rd_put_ne _ _ _ page.symm]
    have dies (d : Nat) : (((s.put (cgB n) F.CG_STAT_STATE 0).setGrp n Grp.idle).pendings (s.membersOf n)).present d = s.present d := by
      refine State.present_congr ?_ (by rw [hr]; rfl) d
      rw [State.rd_pendings _ _ (by decide), State.rd_setGrp, State.rd_put_ne _ _ _ (by simp only [cgB, seqB, gPage]; omega)]
    refine ⟨?_, ?_, Raised.of ((dies _).trans hp) sticky (by rw [hr]; rfl)⟩
    · rw [State.get_raise_ne _ _ _ page, State.get_pendings _ _ (by simp only [cgB, seqB, gPage]; omega), State.get_setGrp]
      exact State.get_put_same _ _ _ 0
    · rw [State.grp, State.raise_grps, hr]
      exact (s.put (cgB n) F.CG_STAT_STATE 0).grp_setGrp_same n Grp.idle
  · intro n s h1 h3
    exact next_congr (if_neg (by simp [h1, h3]))
  · intro n v s h0
    refine next_congr ((if_neg (not_not_intro h0)).trans ?_)
    simp only [State.puts, fldGet, Nat.pow_zero, Nat.div_one]
    rfl
  · intro n v s h0
    exact next_congr (if_pos h0)

end Sys2Proof
end

section
/-! How the registers of one block read back: a field is changed by a write of that field only. The side conditions compare the offsets
and bits of two fields and are closed by `decide`. -/

set_option Elab.async false

namespace Sys2Proof.Machine

@[simp] theorem State.get_put_off (s : State) (b : Nat) (f g : Fld) (v : Nat) (h : g.off ≠ f.off) : (s.put b f v).get b g = s.get b g :=
  s.get_put_ne f g v (by omega)

@[simp] theorem State.is_put_off (s : State) (b : Nat) (f g : Fld) (v : Nat) (h : g.off ≠ f.off) : (s.put b f v).is b g = s.is b g := by
  rw [State.is, s.get_put_off b f g v h, State.is]

@[simp] theorem State.is_put_same (s : State) (b : Nat) (f : Fld) (v : Nat) (h : f.lo + f.width ≤ 32) : (s.put b f v).is b f = (v % 2 ^ f.width != 0) := by
  rw [State.is, s.get_put_same b f v h]

theorem State.is_put_apart (s : State) (b : Nat) (f g : Fld) (v : Nat)
    (h : f.lo + f.width ≤ g.lo ∧ g.lo + g.width ≤ 32 ∨ g.lo + g.width ≤ f.lo ∧ f.lo + f.width ≤ 32) (e : g.off = f.off) :
    (s.put b f v).is b g = s.is b g := by
  rw [State.is, s.get_put_apart b f g v h e, State.is]

theorem State.is_put_ne (s : State) {b c : Nat} (f g : Fld) (v : Nat) (h : c + g.off ≠ b + f.off) :
    (s.put b f v).is c g = s.is c g := by
  rw [State.is, s.get_put_ne f g v h, State.is]

@[simp] theorem State.get_raise_off (s : State) (b k : Nat) (f : Fld) (h : f.off ≠ 0x10) : (s.raise b k).get b f = s.get b f :=
  s.get_raise_ne f k (by omega)

@[simp] theorem State.is_raise_off (s : State) (b k : Nat) (f : Fld) (h : f.off ≠ 0x10) : (s.raise b k).is b f = s.is b f := by
  rw [State.is, s.get_raise_off b k f h, State.is]

@[simp] theorem State.get_raiseIf_off (s : State) (c : Bool) (b k : Nat) (f : Fld) (h : f.off ≠ 0x10) : (s.raiseIf c b k).get b f = s.get b f :=
  s.get_raiseIf_ne f c k (by omega)

@[simp] theorem State.is_raiseIf_off (s : State) (c : Bool) (b k : Nat) (f : Fld) (h : f.off ≠ 0x10) : (s.raiseIf c b k).is b f = s.is b f := by
  rw [State.is, s.get_raiseIf_off c b k f h, State.is]

@[simp] theorem State.get_live_off (s : State) (b k : Nat) (c : Bool) (f : Fld) (h : f.off ≠ 0x1C) : (s.live b k c).get b f = s.get b f :=
  s.get_put_off b _ f _ h

@[simp] theorem State.is_live_off (s : State) (b k : Nat) (c : Bool) (f : Fld) (h : f.off ≠ 0x1C) : (s.live b k c).is b f = s.is b f :=
  s.is_put_off b _ f _ h

/-- Two fields share no bit: of different registers, or of different bits of one. -/
def Fld.apart (f g : Fld) : Bool :=
  f.off != g.off || (f.lo + f.width ≤ g.lo && g.lo + g.width ≤ 32) || (g.lo + g.width ≤ f.lo && f.lo + f.width ≤ 32)

theorem State.get_put_of_apart (s : State) (b : Nat) (f g : Fld) (v : Nat) (h : f.apart g = true) : (s.put b f v).get b g = s.get b g := by
  simp only [Fld.apart, Bool.or_eq_true, bne_iff_ne, Bool.and_eq_true, decide_eq_true_eq] at h
  by_cases e : g.off = f.off
  · exact s.get_put_apart b f g v (by omega) e
  · exact s.get_put_off b f g v e

theorem State.get_puts_of_apart (s : State) (b : Nat) (l : List (Fld × Nat)) (g : Fld) (h : (l.all fun p => p.1.apart g) = true) :
    (s.puts b l).get b g = s.get b g := by
  induction l generalizing s with
  | nil => rfl
  | cons p l ih =>
    obtain ⟨hp, hl⟩ := Bool.and_eq_true_iff.1 ((List.all_cons (a := p) (l := l)).symm.trans h)
    rw [State.puts_cons, ih _ hl, State.get_put_of_apart _ _ _ _ _ hp]

/-- A field that a list of writes sets before writes of other fields. -/
theorem State.get_puts_first (s : State) (b : Nat) (f : Fld) (v : Nat) (l : List (Fld × Nat)) (hf : f.lo + f.width ≤ 32)
    (h : (l.all fun p => p.1.apart f) = true) : (s.puts b ((f, v) :: l)).get b f = v % 2 ^ f.width := by
  rw [State.puts_cons, State.get_puts_of_apart _ _ _ _ h, State.get_put_same _ _ _ _ hf]

/-- A field that is not the one set first. -/
theorem State.get_puts_next (s : State) (b : Nat) (p : Fld × Nat) (l : List (Fld × Nat)) (g : Fld) {v : Nat}
    (h : ∀ u : State, (u.puts b l).get b g = v) : (s.puts b (p :: l)).get b g = v := h _

end Sys2Proof.Machine
end

section
/-! Proofs about running and stopping inputs, outputs, media ports and the memory (R67, R106 to R108, R370). -/

set_option Elab.async false

namespace Sys2Proof.Machine

/-! The commands that reach a block of a kind. -/

theorem exec_ctrlRunClear {b : BlockAddr} {s : State} {k : Nat} (h7 : b.die ≠ 7) (hp : s.present b.die = true) (hk : runKind (blkAddr b) = k) :
    exec (.ctrlRunClear b) s = .next (s.clearRun k (blkAddr b)) := by
  rw [← hk]
  exact next_congr (State.hostWrite_eq (Fin.val_ne_of_ne h7) hp)

theorem exec_ctrlRunSet {b : BlockAddr} {s : State} {k : Nat} (h7 : b.die ≠ 7) (hp : s.present b.die = true) (hk : runKind (blkAddr b) = k) :
    exec (.ctrlRunSet b) s = .next (s.setRun k (blkAddr b)) := by
  rw [← hk]
  exact next_congr (State.hostWrite_eq (Fin.val_ne_of_ne h7) hp)

theorem exec_blockStopped {b : BlockAddr} {s : State} {k : Nat} (hk : runKind (blkAddr b) = k) (hs : s.stopping k (blkAddr b) = true) :
    exec (.blockStopped b) s = .next (s.blockStops k (blkAddr b)) := by
  rw [← hk] at hs ⊢
  exact next_congr (if_pos hs)

theorem State.tx_of_sdiTx {s t : State} (h : t.sdiTx = s.sdiTx) (g : Nat) : t.tx g = s.tx g := by rw [State.tx, h, State.tx]

/-! What a request to stop or to run does to a block. -/

theorem State.get_requestStop (s : State) (b : Nat) : (s.requestStop b).get b F.CTRL_RUN = 0 ∧
    (s.is b F.STAT_STOPPED = false → (s.requestStop b).get b F.STAT_BUSY = 1) := by
  unfold State.requestStop
  simp (disch := decide) only [State.is_put_off]
  split
  · exact ⟨State.get_put_same _ _ _ 0, fun h => absurd ‹_› (Bool.eq_false_iff.1 h)⟩
  · exact ⟨(State.get_put_off _ _ _ _ _ (by decide)).trans (State.get_put_same _ _ _ 0), fun _ => State.get_put_same _ _ _ 1⟩

theorem OnlyRegs.requestStop (s : State) (b : Nat) : OnlyRegs [b + 8, b + 0xC] s (s.requestStop b) := by
  unfold State.requestStop
  dsimp only
  split
  · exact (OnlyRegs.refl _ s).put (by simp)
  · exact ((OnlyRegs.refl _ s).put (by simp)).put (by simp)

/-- Setting RUN of a stopped block that is no memory channel. -/
theorem State.blockRun_of_stopped {s : State} {b : Nat} (hk : runKind b ≠ 4) (h : s.is b F.STAT_STOPPED = true) :
    s.blockRun b = (s.put b F.CTRL_RUN 1).puts b [(F.STAT_STOPPED, 0), (F.STAT_BUSY, 0)] := by
  unfold State.blockRun State.blockStart
  rw [if_pos (by simpa using h), if_neg hk]

theorem State.blockRun_of_running {s : State} {b : Nat} (h : s.is b F.STAT_STOPPED = false) : s.blockRun b = s.put b F.CTRL_RUN 1 := by
  unfold State.blockRun
  exact if_neg (by simp [h])

/-- An output takes a request to stop. -/
theorem State.outHalt_spec {s : State} {g : Nat} (h : s.outMember g = false) :
    (s.outHalt g).get (outB g) F.CTRL_RUN = 0 ∧ (s.is (outB g) F.STAT_STOPPED = false → (s.outHalt g).get (outB g) F.STAT_BUSY = 1) ∧
      ((s.outHalt g).tx g).starting = false ∧ OnlyRegs [outB g + 8, outB g + 0xC] s (s.outHalt g) := by
  have halt : s.outHalt g = ((s.put (outB g) F.CTRL_RUN 0).setTx g { s.tx g with starting := false }).put (outB g) F.STAT_BUSY
      (b2n (!s.is (outB g) F.STAT_STOPPED)) := by
    unfold State.outHalt
    rw [h]
    simp only [Bool.false_eq_true, if_false, State.is_setTx]
    rw [State.is_put_off _ _ _ _ _ (by decide)]
  rw [halt]
  refine ⟨?_, fun hs => ?_, ?_, ?_⟩
  · rw [State.get_put_off _ _ _ _ _ (by decide), State.get_setTx]
    exact State.get_put_same _ _ _ 0
  · rw [hs]
    exact State.get_put_same _ _ _ 1
  · rw [State.tx_of_sdiTx (State.put_sdiTx _ _ _ _), State.tx_setTx_same]
  · exact (((OnlyRegs.refl _ s).put (by simp)).of_regs (t := State.setTx _ _ _) rfl).put (by simp)

/-! What an output sends, and the end of its stop. -/

/-- An output that sends something else takes the audio groups for the frame that begins. -/
theorem State.tx_outSend_same (s : State) (g st : Nat) :
    (s.outSend g st).tx g = { s.tx g with groups := s.get (audB g) F.EMB_CFG_GROUPS } := by
  have kept : erase 17 (s.outSend g st) = erase 17 ((s.put (outB g) F.OUT_STAT_STATE st).embLatch g) := by
    unfold State.outSend
    exact State.embRefresh_er (erase_foldl rfl fun _ _ => State.puts_er rfl)
  have latched : (s.put (outB g) F.OUT_STAT_STATE st).get (audB g) F.EMB_CFG_GROUPS = s.get (audB g) F.EMB_CFG_GROUPS :=
    State.get_put_ne _ _ _ _ (by simp only [audB, outB, portPage]; omega)
  rw [State.tx_of_sdiTx (Part.same_of_erase (p := .sdiTx) (by decide) kept), State.embLatch, State.tx_setTx_same, latched,
    State.tx_of_sdiTx (State.put_sdiTx _ _ _ _)]

/-- A transmitter after its stop: nothing that its end left open. -/
def Tx.ended (x : Tx) : Prop := x.finishing = false ∧ x.dirty = false ∧ x.toBlack = false

/-- A request to run changes whether the output is to start, and nothing else of its transmitter. -/
theorem State.tx_outRun_same (s : State) (g : Nat) : ∃ v, (s.outRun g).tx g = { s.tx g with starting := v } := by
  unfold State.outRun State.outInvalid State.refuseDirect
  dsimp only
  split
  · exact ⟨(s.tx g).starting, rfl⟩
  · split
    · exact ⟨(s.tx g).starting, State.tx_of_sdiTx (State.put_sdiTx _ _ _ _) g⟩
    · split
      · exact ⟨true, State.tx_setTx_same _ g _⟩
      · refine ⟨false, ?_⟩
        rw [State.tx_of_sdiTx (State.raise_sdiTx _ _ _), State.tx_of_sdiTx (State.put_sdiTx _ _ _ _),
          State.tx_of_sdiTx (State.put_sdiTx _ _ _ _), State.tx_setTx_same]

theorem State.tx_outStop_ended (s : State) (g : Nat) : ((s.outStop g).tx g).ended := by
  unfold State.outStop
  dsimp only
  have sent (u : State) (st : Nat) (h : (u.tx g).ended) : (((u.outSend g st).raise (outB g) 3).tx g).ended := by
    rw [State.tx_of_sdiTx (State.raise_sdiTx _ _ _), State.tx_outSend_same]
    exact h
  have stops (u : State) (c : Bool) (h : (u.tx g).ended) : ((if c then u.sourceStops (0x800 + g) true else u).tx g).ended := by
    cases c with
    | false => exact h
    | true =>
      have kept : erase 5649 (u.sourceStops (0x800 + g) true) = erase 5649 u := State.sourceStops_er rfl
      rw [if_pos rfl, State.tx_of_sdiTx (Part.same_of_erase (p := .sdiTx) (by decide) kept)]
      exact h
  have runs (u : State) (c : Bool) (h : (u.tx g).ended) : ((if c then u.outRun g else u).tx g).ended := by
    cases c with
    | false => exact h
    | true =>
      obtain ⟨v, hv⟩ := u.tx_outRun_same g
      rw [if_pos rfl, hv]
      exact h
  refine runs _ _ (stops _ _ (sent _ _ ?_))
  rw [State.tx_setTx_same]
  exact ⟨rfl, rfl, rfl⟩

/-! The end of the memory's stop. -/

/-- A field that a fold writes at every element of a list. -/
theorem State.get_forAll_put {base : Nat → Nat} {f : Fld} {v i : Nat} (hf : f.lo + f.width ≤ 32) :
    ∀ {l : List Nat} {s : State}, (i ∈ l ∨ s.get (base i) f = v % 2 ^ f.width) →
      (s.forAll l fun j u => u.put (base j) f v).get (base i) f = v % 2 ^ f.width := by
  intro l
  induction l with
  | nil => exact fun h => h.resolve_left List.not_mem_nil
  | cons j l ih =>
    intro s h
    refine ih (s := s.put (base j) f v) ?_
    by_cases hb : base i = base j
    · right
      rw [hb]
      exact State.get_put_same _ _ _ _ hf
    · refine h.imp (fun m => (List.mem_cons.1 m).resolve_left fun e => hb (by rw [e])) fun e => ?_
      rw [State.get_put_ne _ _ _ _ (by omega), e]

/-- The memory stops without RUN: it shows STOPPED, and every channel is idle. -/
def State.memStopped (s : State) : State :=
  (s.puts (mcB 0) [(F.STAT_STOPPED, 1), (F.STAT_BUSY, 0)]).forAll (List.range 12) fun c u => u.put (mcB c) F.MC_STAT_STATE 0

theorem State.get_memStopped (s : State) {f : Fld} (h : f.off < 0x40) :
    s.memStopped.get (mcB 0) f = (s.puts (mcB 0) [(F.STAT_STOPPED, 1), (F.STAT_BUSY, 0)]).get (mcB 0) f := by
  refine State.get_of_rd (State.rd_forAll fun c hc u => State.rd_put_ne _ _ _ ?_)
  have := List.mem_range.1 hc
  simp only [mcB, gPage]
  omega

theorem State.blockStops_memory {s : State} (hr : s.is (mcB 0) F.CTRL_RUN = false) :
    s.blockStops 4 (mcB 0) = s.memStopped ∧ s.memStopped.get (mcB 0) F.STAT_STOPPED = 1 ∧ s.memStopped.get (mcB 0) F.STAT_BUSY = 0 ∧
      ∀ c < 12, s.memStopped.get (mcB c) F.MC_STAT_STATE = 0 := by
  have run : s.memStopped.is (mcB 0) F.CTRL_RUN = false := by
    rw [State.is, State.get_memStopped _ (by decide), ← State.is]
    simpa (disch := decide) using hr
  refine ⟨?_, ?_, ?_, fun c hc => State.get_forAll_put (by decide) (.inl (List.mem_range.2 hc))⟩
  · rw [State.blockStops, if_neg (by decide)]
    exact if_neg (Bool.eq_false_iff.1 run)
  · rw [State.get_memStopped _ (by decide)]
    simp (disch := decide) [State.get_put_same, State.get_put_apart]
  · rw [State.get_memStopped _ (by decide)]
    exact State.get_put_same _ _ _ 0

/-! The start of an output, and its STOP_MODE. -/

/-- The transmitter of an output that starts with a consistent OUT_CFG. -/
def State.txStarted (s : State) (g : Nat) : Tx :=
  { s.tx g with starting := false, ran := some (s.rd (outB g + 0x40)), dirty := false, toBlack := false, lastLine := [] }

/-- An output in its first frame. -/
def State.outStarted (s : State) (g : Nat) : State :=
  (((s.setTx g (s.txStarted g)).puts (outB g) [(F.STAT_STOPPED, 0), (F.STAT_BUSY, 0), (F.OUT_FRAME_COUNT, 0)]).outSend g 2).raise (outB g) 2

theorem State.tx_outStarted (s : State) (g : Nat) :
    (s.outStarted g).tx g = { s.txStarted g with groups := s.get (audB g) F.EMB_CFG_GROUPS } := by
  have groups : ((s.setTx g (s.txStarted g)).puts (outB g) [(F.STAT_STOPPED, 0), (F.STAT_BUSY, 0), (F.OUT_FRAME_COUNT, 0)]).get (audB g)
      F.EMB_CFG_GROUPS = s.get (audB g) F.EMB_CFG_GROUPS := by
    refine State.get_of_rd ((State.rd_puts_ne _ _ fun p hp => ?_).trans (State.rd_setTx ..))
    simp only [List.mem_cons, List.not_mem_nil, or_false] at hp
    rcases hp with rfl | rfl | rfl <;> simp only [audB, outB, portPage] <;> omega
  rw [State.outStarted, State.tx_of_sdiTx (State.raise_sdiTx _ _ _), State.tx_outSend_same, groups,
    State.tx_of_sdiTx (State.puts_sdiTx _ _ _), State.tx_setTx_same]

/-- An output that starts with a consistent OUT_CFG enters its first frame; only its write-back may go on to a new epoch (R245). -/
theorem exec_outputStart {g : Fin 96} {s : State} (hp : s.present (g / 16 + 1) = true) (hm : s.outMember g = false)
    (hst : (s.tx g).starting = true) (hf : (s.tx g).finishing = false) (hs : s.is (outB g) F.STAT_STOPPED = true)
    (hc : s.outCfgOk g = true) : ∃ t, exec (.outputStart g) s = .next t ∧ erase 2049 t = erase 2049 (s.outStarted g) := by
  change ∃ t, execOutputStart g s = .next t ∧ _
  simp only [execOutputStart, hp, hm, hst, hf, hs, hc, Bool.not_true, Bool.or_self, Bool.false_eq_true, if_false, State.outStarted,
    State.txStarted]
  refine ⟨_, rfl, ?_⟩
  split
  · exact erase_ite (State.epochMoves_er (State.setComp_er rfl)) rfl
  · rfl

/-- A write of STOP_MODE changes that field alone of the registers. -/
theorem exec_stopModeWrite {g : Fin 96} (mode : Fin 4) {s : State} (hp : s.present (g / 16 + 1) = true) :
    ∃ t, exec (.stopModeWrite g mode) s = .next t ∧ t.regs = (s.put (outB g) F.CTRL_STOP_MODE mode).regs := by
  refine ⟨_, next_congr (State.hostWrite_eq (by omega) hp), ?_⟩
  dsimp only
  repeat' split
  all_goals rfl

end Sys2Proof.Machine

namespace Sys2Proof

open Sys2Proof.Machine

/-- Settles O16: each request and each end of a stop, by the kind of the block. -/
theorem runAndStop : Obligations.RunAndStop := by
  unfold Obligations.RunAndStop
  refine ⟨?_, ?_, ?_, ?_, ?_, ?_, ?_, ?_, ?_, ?_, ?_, ?_⟩
  · intro b s h7 hp hk hm
    refine Does.intro (t := s.requestStop (blkAddr b)) ((exec_ctrlRunClear h7 hp hk).trans ?_)
      ⟨State.get_requestStop s _, OnlyRegs.requestStop s _⟩
    rw [State.clearRun, hm]
    rfl
  · intro b s h7 hp hk
    exact Does.intro (t := s.requestStop (blkAddr b)) (exec_ctrlRunClear h7 hp hk)
      ⟨State.get_requestStop s _, OnlyRegs.requestStop s _⟩
  · intro b s h7 hp hk hm
    obtain ⟨run, busy, starting, only⟩ := State.outHalt_spec hm
    refine Does.intro (t := s.outHalt (portOfRun (blkAddr b))) ?_ ⟨⟨run, busy⟩, starting, only⟩
    rw [exec_ctrlRunClear h7 hp hk, State.clearRun]
  · intro b s h7 hp hk hm
    refine Does.intro (t := s.requestStop (blkAddr b)) ((exec_ctrlRunClear h7 hp hk).trans ?_)
      ⟨State.get_requestStop s _, OnlyRegs.requestStop s _⟩
    rw [State.clearRun, hm]
    rfl
  · intro b s h7 hp hk hm
    rw [exec_ctrlRunClear h7 hp hk, State.clearRun, hm]
    rfl
  · intro b s h7 hp hk hs
    have run : exec (.ctrlRunSet b) s = .next (s.blockRun (blkAddr b)) := by
      rcases hk with hk | ⟨hk, hm⟩
      · exact exec_ctrlRunSet h7 hp hk
      · rw [exec_ctrlRunSet h7 hp hk, State.setRun, hm]
        rfl
    rw [State.blockRun_of_stopped (by rcases hk with hk | ⟨hk, _⟩ <;> omega) hs] at run
    refine Does.intro run ⟨?_, ?_, State.get_put_same _ _ _ 0, ?_⟩
    · simp (disch := decide) [State.get_put_same]
    · simp (disch := decide) [State.get_put_same, State.get_put_apart]
    · exact ((OnlyRegs.refl _ s).put (by simp)).puts (by simp)
  · intro b s h7 hp hk hs
    rw [← State.blockRun_of_running hs]
    rcases hk with hk | hk | ⟨hk, hm⟩
    · exact exec_ctrlRunSet h7 hp hk
    · exact exec_ctrlRunSet h7 hp hk
    · rw [exec_ctrlRunSet h7 hp hk, State.setRun, hm]
      rfl
  · intro b s h7 hp hk hm hs hc
    rw [exec_ctrlRunSet h7 hp hk, State.setRun, State.outRun, hm, hs, hc]
    rfl
  · intro b s hb hp hbusy hs hr
    have hk : runKind (blkAddr b) = 4 := by rw [hb]; decide
    have hst : s.stopping 4 (blkAddr b) = true := by
      rw [hb, State.stopping, hbusy, hs]
      exact congrArg (· && true && true && true) hp
    obtain ⟨e, stopped, busy, idle⟩ := State.blockStops_memory hr
    exact Does.intro ((exec_blockStopped hk hst).trans (by rw [hb, e])) ⟨stopped, busy, idle⟩
  · intro b s hp hk hb hs
    refine Does.intro (t := s.outStop (portOfRun (blkAddr b))) ((exec_blockStopped hk ?_).trans ?_) (State.tx_outStop_ended s _)
    · rw [State.stopping, hp, hb, hs]
      rfl
    · rw [State.blockStops, if_pos rfl]
  · intro g s hp hm hst hf hs hc
    obtain ⟨t, ht, kept⟩ := exec_outputStart hp hm hst hf hs hc
    refine Does.intro ht ?_
    rw [State.tx_of_sdiTx (Part.same_of_erase (p := .sdiTx) (by decide) kept), State.tx_outStarted]
    rfl
  · intro g mode s hp
    obtain ⟨t, ht, hregs⟩ := exec_stopModeWrite mode hp
    refine Does.intro ht ⟨?_, (((OnlyRegs.refl _ s).put List.mem_cons_self).of_regs hregs)⟩
    rw [State.get_of_regs hregs]
    exact (State.get_put_same _ _ _ _).trans (Nat.mod_eq_of_lt mode.isLt)

end Sys2Proof
end

section
/-! Proofs about received lines and packets and about what an output sends (R93 to R113). -/

set_option Elab.async false

namespace Sys2Proof.Machine

/-! Counters and their events. -/

@[simp] theorem State.get_bump_same (s : State) (b : Nat) (f : Fld) (n : Nat) (h : f.lo + f.width ≤ 32) :
    (s.bump b f n).get b f = min (2 ^ f.width - 1) (s.get b f + n) := by
  have small : min (2 ^ f.width - 1) (s.get b f + n) < 2 ^ f.width :=
    Nat.lt_of_le_of_lt (Nat.min_le_left _ _) (Nat.sub_lt (Nat.two_pow_pos _) Nat.one_pos)
  rw [State.bump, s.get_put_same b f _ h, Nat.mod_eq_of_lt small]

theorem State.rd_bump_ne (s : State) {a b : Nat} (f : Fld) (n : Nat) (h : a ≠ b + f.off) : (s.bump b f n).rd a = s.rd a :=
  s.rd_put_ne f _ h

theorem State.present_of_rd {s t : State} (h : t.rd 0x44 = s.rd 0x44) (g : t.pwr = s.pwr) {d : Nat} (p : s.present d = true) :
    t.present d = true := (State.present_congr h g d).trans p

theorem dieOf_inB (g : Fin 96) : dieOf (inB g) = g / 16 + 1 := by
  simp only [dieOf, inB, portPage]; omega

theorem dieOf_outB (g : Fin 96) : dieOf (outB g) = g / 16 + 1 := by
  simp only [dieOf, outB, portPage]; omega

theorem inB_ne_strap (g : Nat) (k : Nat) : inB g + k ≠ 0x44 := by simp only [inB, portPage]; omega

/-! Received lines. -/

theorem State.rxErrors_of_clean {s : State} {g : Nat} {l : RxLine} (hc : l.crcErr = false) (he : l.edhErr = false) (ht : l.trsErr = 0) :
    s.rxErrors g l = s := by
  simp [State.rxErrors, hc, he, ht]

theorem State.rxErrors_of_crc {s : State} {g : Nat} {l : RxLine} (hc : l.crcErr = true) (he : l.edhErr = false) (ht : l.trsErr = 0)
    (hr : s.get (inB g) F.IN_STAT_RATE ≠ 1) : s.rxErrors g l = (s.bump (inB g) F.IN_ERR_CRC).raise (inB g) 5 := by
  simp [State.rxErrors, hc, he, ht, hr]

/-- The active line of an input that is not bonded is kept and passed on. -/
theorem State.rxPicture_of_single {s : State} {g : Nat} {l : RxLine} {y : Nat} (hb : s.inBonded g = false)
    (hd : (s.rx g).delivering = true) :
    s.rxPicture g l y = ((s.setRx g { s.rx g with
        lastLine := some (y, !l.fits, s.get (inB g) F.IN_STAT_EPOCH, if l.fits then l.payload else []) }).raiseIf (!l.fits) (inB g) 7).pipeLine
      g y (!l.fits) l.payload := by
  have kept : ∀ x, ((s.setRx g x).raiseIf (!l.fits) (inB g) 7).inBonded g = false := fun x => by
    rw [← hb]
    exact State.is_of_rd (State.rd_raiseIf_ne _ _ _ (by simp only [inB, portPage]; omega))
  unfold State.rxPicture
  simp only [hb, hd, Bool.false_eq_true, if_false, if_true, kept]

theorem State.rx_of_sdiRx {s t : State} (h : t.sdiRx = s.sdiRx) (g : Nat) : t.rx g = s.rx g := by rw [State.rx, h, State.rx]

/-- A line passed on to the Floor changes the Floor alone. -/
theorem State.pipeLine_erased (s : State) (g y : Nat) (m : Bool) (l : List Nat) : erase 512 (s.pipeLine g y m l) = erase 512 s :=
  State.pipeLine_er rfl

theorem exec_sdiRxLine_crc {g : Fin 96} {l : RxLine} {s : State} (hu : s.rxUp g = true) (hs : 2 ≤ s.get (inB g) F.IN_STAT_STATE)
    (ha : l.active = none) : exec (.sdiRxLine g l) s = .next (s.rxErrors g l) := by
  change execSdiRxLine g l s = _
  simp only [execSdiRxLine, hu, hs, ha, decide_true, Bool.and_self, if_true]

theorem exec_sdiRxLine_clean {g : Fin 96} {l : RxLine} {s : State} (ha : l.active = none) (hc : l.crcErr = false) (he : l.edhErr = false)
    (ht : l.trsErr = 0) : exec (.sdiRxLine g l) s = .next s := by
  change execSdiRxLine g l s = _
  simp only [execSdiRxLine, ha, State.rxErrors_of_clean hc he ht, ite_self]

theorem exec_sdiRxLine_active {g : Fin 96} {l : RxLine} {y : Nat} {s : State} (hu : s.rxUp g = true) (hs : 2 ≤ s.get (inB g) F.IN_STAT_STATE)
    (hl : (s.rx g).link = true) (ha : l.active = some y) : exec (.sdiRxLine g l) s = .next ((s.rxErrors g l).rxPicture g l y) := by
  change execSdiRxLine g l s = _
  simp only [execSdiRxLine, hu, hs, ha, hl, decide_true, Bool.and_self, if_true]

/-! Received packets. -/

/-- A packet of a delivering input that is not bonded. -/
theorem exec_ancPacketReceived {g : Fin 96} {ok : Bool} {p : AncPkt} {s : State} (hu : s.rxUp g = true) (hb : s.inBonded g = false)
    (hd : (s.rx g).delivering = true) (hr : ancIsRqp p = false) :
    exec (.ancPacketReceived g ok p) s = .next (if !ok then s.raise (inB g) 11
      else if ancIsAudio p || ancIsPid p || (ancIsEdh p && s.get (inB g) F.IN_STAT_RATE == 1) then s
      else if s.is (inB g) F.IN_ANC_CFG_ANC_EN then s.ancQueue g p else s) := by
  change execAncPacketReceived g ok p s = _
  simp only [execAncPacketReceived, hu, hb, hd, hr, Bool.false_eq_true, if_false, Bool.not_false, Bool.true_or, Bool.and_self, Bool.not_true, Bool.false_and]

theorem ancQueue_of_room {g : Nat} {p : AncPkt} {s : State} (hn : (s.rx g).anc.length < 128)
    (hz : (s.rx g).ancBytes + ancPktBytes p ≤ 16384) : s.ancQueue g p =
      s.setRx g { s.rx g with anc := (s.rx g).anc ++ [p], ancBytes := (s.rx g).ancBytes + ancPktBytes p } :=
  if_pos ⟨hn, hz⟩

theorem ancQueue_of_full {g : Nat} {p : AncPkt} {s : State}
    (h : 128 ≤ (s.rx g).anc.length ∨ 16384 < (s.rx g).ancBytes + ancPktBytes p) : s.ancQueue g p = s.raise (inB g) 12 :=
  if_neg (by omega)

/-! The frames of an output. -/

section
variable {g : Fin 96} {t0 : Int} {hanc vanc : Nat} {s : State}

theorem exec_outputFrameStart (hp : s.present (g / 16 + 1) = true) (hm : s.outMember g = false) :
    (s.get (outB g) F.OUT_STAT_STATE = 2 → exec (.outputFrameStart g t0 hanc vanc) s = .next (s.runFrame g t0 hanc vanc)) ∧
    (s.get (outB g) F.OUT_STAT_STATE = 1 → exec (.outputFrameStart g t0 hanc vanc) s = .next (s.blackFrame g)) := by
  refine ⟨fun h => ?_, fun h => ?_⟩ <;> change execOutputFrameStart g t0 hanc vanc s = _ <;>
    simp only [execOutputFrameStart, hp, hm, h, Bool.not_true, Bool.or_self, Bool.false_eq_true, if_false]

theorem exec_outputFrameStart_quiet (hs : s.get (outB g) F.OUT_STAT_STATE = 0) (hb : (s.tx g).toBlack = false) :
    exec (.outputFrameStart g t0 hanc vanc) s = .next s := by
  have quiet : s.quietFrame g = s := by simp [State.quietFrame, hb]
  change execOutputFrameStart g t0 hanc vanc s = _
  simp only [execOutputFrameStart, hs, quiet, ite_self]

end

/-- The ledger of a running output's frame is valid. -/
theorem State.done_runFrame (s : State) (g : Nat) (t0 : Int) (hanc vanc : Nat) :
    tget false (s.runFrame g t0 hanc vanc).floor.done g = true := by
  obtain ⟨u, kept⟩ : ∃ u : State, erase 8193 (s.runFrame g t0 hanc vanc) = erase 8193 (u.ledgers g t0) := by
    unfold State.runFrame
    exact ⟨_, State.rqRefresh_er (erase_foldl rfl fun _ _ => State.clipRoll_er rfl)⟩
  have same : (s.runFrame g t0 hanc vanc).floor = (u.ledgers g t0).floor := Part.same_of_erase (p := .floor) (by decide) kept
  rw [same]
  exact tget_tset_same false _ (g : Nat) true

/-! The lines of an output. -/

theorem prefix_ite_append {α : Type} (c : Prop) [Decidable c] (l m : List α) : l <+: if c then l else l ++ m := by
  split
  · exact List.prefix_rfl
  · exact List.prefix_append l m

theorem State.prefix_foldl {α : Type} {f : State → α → State} (h : ∀ u a, u.out <+: (f u a).out) (l : List α) (s : State) :
    s.out <+: (l.foldl f s).out := by
  induction l generalizing s with
  | nil => exact List.prefix_rfl
  | cons a l ih => exact (h s a).trans (ih _)

/-- The audio of a line follows what has been sent. -/
theorem State.prefix_embLine (s : State) (g n : Nat) (silent : Bool) (late : List Nat) : s.out <+: (s.embLine g n silent late).out := by
  unfold State.embLine
  split
  · exact List.prefix_rfl
  · refine State.prefix_foldl (fun u k => State.prefix_foldl (fun v j => ?_) _ _) _ _
    simp only [apply_ite State.out, State.raise_out, State.bump_out, State.modAud_out, State.emit_out, ite_self]
    exact prefix_ite_append _ _ _

/-- An output that sends single-link lines sends one, and counts it for the next EDH packet. -/
theorem State.sendLine_single {s : State} {g : Nat} (h : s.sendsQuad g = false) (y : Nat) (l : List Nat) :
    (s.sendLine g y l).out = s.out ++ [.sdiLine g (frameLineOf (fldGet (s.sentCfg g) 0 8) y) y l] ∧
      ((s.sendLine g y l).tx g).lastLine = (s.tx g).lastLine := by
  unfold State.sendLine State.edhTake
  simp only [h, Bool.false_eq_true, if_false]
  split
  · exact ⟨rfl, by rw [State.tx_setTx_same]; rfl⟩
  · exact ⟨rfl, rfl⟩

/-- The position that an output shows does not enter into what it sends. -/
theorem State.sentCfg_posLine (s : State) (g n : Nat) :
    (s.puts (outB g) [(F.OUT_POS_LINE, n), (F.OUT_POS_SAMPLE, 0)]).sentCfg g = s.sentCfg g := by
  have off : ∀ k, k < 0x58 → (s.puts (outB g) [(F.OUT_POS_LINE, n), (F.OUT_POS_SAMPLE, 0)]).rd (outB g + k) = s.rd (outB g + k) :=
    fun k hk => State.rd_puts_ne _ _ (by simp [F.OUT_POS_LINE, F.OUT_POS_SAMPLE]; omega)
  have state := State.get_of_rd (f := F.OUT_STAT_STATE) (off 0x44 (by decide))
  rw [State.sentCfg, State.sentCfg, off 0x40 (by decide), state, State.tx_of_sdiTx (State.puts_sdiTx _ _ _)]

theorem State.sendsQuad_posLine (s : State) (g n : Nat) :
    (s.puts (outB g) [(F.OUT_POS_LINE, n), (F.OUT_POS_SAMPLE, 0)]).sendsQuad g = s.sendsQuad g := by
  rw [State.sendsQuad, State.sentCfg_posLine, State.sendsQuad]

theorem State.wbMode_posLine (s : State) (g n : Nat) :
    (s.puts (outB g) [(F.OUT_POS_LINE, n), (F.OUT_POS_SAMPLE, 0)]).get (compB g) F.COMP_CFG_WB_MODE = s.get (compB g) F.COMP_CFG_WB_MODE :=
  State.get_of_rd (State.rd_puts_ne _ _ (by simp [F.OUT_POS_LINE, F.OUT_POS_SAMPLE, compB, outB, portPage]; omega))

/-- A line of a running output without write-back: the line is shown, its audio follows, and the last one ends the frame's
reading. -/
theorem State.runLine_single {s : State} {g line : Nat} {w : Word} {complete : Bool} {late : List Nat} {ready : Bool}
    (hq : s.sendsQuad g = false) (hw : s.get (compB g) F.COMP_CFG_WB_MODE = 0) (hr : (complete && s.linesReady g line) = ready) :
    s.runLine g line w complete late =
      let v := (s.showLines g w ready [(line, if ready then s.composeLine g line else [])]).embLine g
        (frameLineOf (fldGet w 0 8) line) false late
      if line = lastActive (fldGet w 0 8) then v.readersDone g else v := by
  have no1 : decide (0 = 1) = false := by decide
  have no2 : decide (0 = 2) = false := by decide
  unfold State.runLine State.lineSet
  simp only [hq, hw, hr, no1, no2, Bool.false_eq_true, if_false, List.all_cons, List.all_nil, Bool.and_true, List.map_cons, List.map_nil,
    Bool.or_false]

/-- The audio of a line and the end of the reading of a frame: nothing sent is taken back, and the transmitters stay. -/
theorem State.afterLine (v : State) (g n : Nat) (silent : Bool) (late : List Nat) (c : Prop) [Decidable c] :
    v.out <+: (if c then (v.embLine g n silent late).readersDone g else v.embLine g n silent late).out ∧
      (if c then (v.embLine g n silent late).readersDone g else v.embLine g n silent late).sdiTx = v.sdiTx := by
  have tx : (v.embLine g n silent late).sdiTx = v.sdiTx :=
    Part.same_of_erase (p := .sdiTx) (by decide) (State.embLine_er (m := 8396817) rfl)
  have done : erase 1024 ((v.embLine g n silent late).readersDone g) = erase 1024 (v.embLine g n silent late) := State.readersDone_er rfl
  have out := Part.same_of_erase (p := .out) (by decide) done
  split
  · exact ⟨by rw [show (State.readersDone _ g).out = _ from out]; exact v.prefix_embLine .., (Part.same_of_erase (p := .sdiTx) (by decide) done).trans tx⟩
  · exact ⟨v.prefix_embLine .., tx⟩

/-- A line that is not complete: the one before it goes out once more. -/
theorem State.showLines_repeat {s : State} {g : Nat} (hq : s.sendsQuad g = false) (hw : s.get (compB g) F.COMP_CFG_WB_MODE = 0)
    (w : Word) (y : Nat) (l : List Nat) :
    (s.showLines g w false [(y, l)]).out = s.out ++ [.sdiLine g (frameLineOf (fldGet (s.sentCfg g) 0 8) y) y (s.tx g).lastLine] ∧
      ((s.showLines g w false [(y, l)]).tx g).lastLine = (s.tx g).lastLine := by
  have shown : s.showLines g w false [(y, l)] = ((s.sendLine g y (s.tx g).lastLine).bump (outB g) F.OUT_REPEAT_COUNT).raise (outB g) 0 := by
    simp [State.showLines, State.linePort, hq, hw]
  obtain ⟨out, last⟩ := State.sendLine_single hq y (s.tx g).lastLine
  rw [shown, State.raise_out, State.bump_out, State.tx_of_sdiTx ((State.raise_sdiTx _ _ _).trans (State.bump_sdiTx _ _ _ _))]
  exact ⟨out, last⟩

/-- A complete line goes out and is kept. -/
theorem State.showLines_ready {s : State} {g : Nat} (hq : s.sendsQuad g = false) (hw : s.get (compB g) F.COMP_CFG_WB_MODE = 0)
    (w : Word) (y : Nat) (l : List Nat) :
    (s.showLines g w true [(y, l)]).out = s.out ++ [.sdiLine g (frameLineOf (fldGet (s.sentCfg g) 0 8) y) y l] ∧
      ((s.showLines g w true [(y, l)]).tx g).lastLine = l := by
  have shown : s.showLines g w true [(y, l)] = (s.sendLine g y l).setTx g { s.tx g with lastLine := l } := by
    simp [State.showLines, State.linePort, hq, hw]
  rw [shown, State.setTx_out, State.tx_setTx_same]
  exact ⟨(State.sendLine_single hq y l).1, rfl⟩

/-- A line that went out comes first among what a step sends. -/
theorem sent_of_prefix {s u t : State} {x : OutMsg} (h : u.out = s.out ++ [x]) (p : u.out <+: t.out) : ∃ r, t.out = s.out ++ x :: r := by
  obtain ⟨r, hr⟩ := p
  exact ⟨r, by rw [← hr, h, List.append_assoc, List.singleton_append]⟩

/-- A line of a running output without write-back sends what it shows, and keeps the line that it showed. -/
theorem State.runLine_sends {s u : State} {g line : Nat} {w : Word} {complete : Bool} {late : List Nat} {ready : Bool} {x : OutMsg}
    {l : List Nat} (hq : u.sendsQuad g = false) (hw : u.get (compB g) F.COMP_CFG_WB_MODE = 0)
    (hr : (complete && u.linesReady g line) = ready)
    (h : (u.showLines g w ready [(line, if ready then u.composeLine g line else [])]).out = s.out ++ [x] ∧
      ((u.showLines g w ready [(line, if ready then u.composeLine g line else [])]).tx g).lastLine = l) :
    (∃ r, (u.runLine g line w complete late).out = s.out ++ x :: r) ∧ ((u.runLine g line w complete late).tx g).lastLine = l := by
  rw [State.runLine_single hq hw hr]
  obtain ⟨sends, tx⟩ := State.afterLine (u.showLines g w ready [(line, if ready then u.composeLine g line else [])]) g
    (frameLineOf (fldGet w 0 8) line) false late (line = lastActive (fldGet w 0 8))
  exact ⟨sent_of_prefix h.1 sends, (congrArg Tx.lastLine (State.tx_of_sdiTx tx g)).trans h.2⟩

section
variable {g : Fin 96} {line : Nat} {complete : Bool} {late : List (Fin 32)} {s u : State}

/-- An active line of an output that sends: the position is shown, and the line goes out as the output's state has it. -/
theorem exec_outputLineStart (hp : s.present (g / 16 + 1) = true) (hm : s.outMember g = false)
    (hl : line < (activeOf (fldGet (s.sentCfg g) 0 8)).2)
    (hu : u = s.puts (outB g) [(F.OUT_POS_LINE, frameLineOf (fldGet (s.sentCfg g) 0 8) line), (F.OUT_POS_SAMPLE, 0)]) :
    (s.get (outB g) F.OUT_STAT_STATE = 1 → exec (.outputLineStart g line complete late) s = .next
      ((u.sendLine g line (blackLine (s.sentCfg g))).embLine g (frameLineOf (fldGet (s.sentCfg g) 0 8) line) true [])) ∧
    (s.get (outB g) F.OUT_STAT_STATE = 2 → exec (.outputLineStart g line complete late) s = .next
      (u.runLine g line (s.sentCfg g) complete (late.map (·.val)))) := by
  subst hu
  refine ⟨fun h => ?_, fun h => ?_⟩ <;> change execOutputLineStart g line complete late s = _ <;>
    simp only [execOutputLineStart, hp, hm, h, Nat.not_le.2 hl, Bool.not_true, Bool.or_self, Bool.false_eq_true, if_false]

theorem exec_driverOpenShort {g : Fin 96} {faulty : Bool} {s : State} (hp : s.present (g / 16 + 1) = true) :
    exec (.driverOpenShort g faulty) s = .next (((s.setTx g { s.tx g with driverFault := faulty }).raiseIf
      (faulty && !(s.tx g).driverFault) (outB g) 5).live (outB g) 5 faulty) := next_congr (if_pos hp)

end

end Sys2Proof.Machine

namespace Sys2Proof
open Sys2Proof.Machine

/-- Settles O19: lines are counted and passed on by their errors and place, packets by their kind and the room; the line an output sends
comes first among what a line start sends. -/
theorem sdiLinesAndOutputs : Obligations.SdiLinesAndOutputs := by
  unfold Obligations.SdiLinesAndOutputs
  refine ⟨?_, ?_, ?_, ?_, ?_, ?_, ?_, ?_, ?_, ?_, ?_, ?_, ?_⟩
  · intro g line fits data s
    exact exec_sdiRxLine_clean rfl rfl rfl rfl
  · intro g l y s hu hs hl ha hb hd hc he ht
    have run := exec_sdiRxLine_active hu hs hl ha
    rw [State.rxErrors_of_clean hc he ht, State.rxPicture_of_single hb hd] at run
    have kept := State.pipeLine_er (g := g) (y := y) (missing := !l.fits) (words := l.payload) (m := 512) (s := ((s.setRx g { s.rx g with
        lastLine := some (y, !l.fits, s.get (inB g) F.IN_STAT_EPOCH, if l.fits then l.payload else []) }).raiseIf (!l.fits) (inB g) 7)) rfl
    refine Does.intro run ⟨?_, ?_⟩
    · rw [State.rx_of_sdiRx (Part.same_of_erase (p := .sdiRx) (by decide) kept), State.rx_of_sdiRx (State.raiseIf_sdiRx _ _ _ _),
        State.rx_setRx_same]
    · exact (((OnlyRegs.refl _ s).of_regs (State.setRx_regs _ _ _)).raiseIf List.mem_cons_self).of_regs
        (Part.same_of_erase (p := .regs) (by decide) kept)
  · intro g line fits data s hu hs hr
    have run := exec_sdiRxLine_crc (l := ⟨line, none, true, false, 0, fits, data⟩) hu hs rfl
    rw [State.rxErrors_of_crc rfl rfl rfl hr] at run
    refine Does.intro run ⟨?_, Raised.of ?_ ?_ rfl⟩
    · rw [State.get_raise_off _ _ _ _ (by decide), State.get_bump_same _ _ _ _ (by decide)]; rfl
    · rw [dieOf_inB]
      exact State.present_of_rd (State.rd_bump_ne _ _ _ (Ne.symm (inB_ne_strap _ _))) rfl hu
    · exact State.rd_bump_ne _ _ _ (by simp )
  · intro g p s hu hb hd
    change execAncPacketReceived g false p s = _
    simp only [execAncPacketReceived, hu, hb, hd, Bool.false_eq_true, if_false, Bool.not_false, Bool.true_or, Bool.and_self, Bool.not_true,
      if_true]
  · intro g p s hu hb hd ha hp he hr hen hn hz
    rw [exec_ancPacketReceived hu hb hd hr, ha, hp, he, hen, ancQueue_of_room hn hz]
    simp only [Bool.not_true, Bool.or_self, Bool.false_eq_true, if_false, if_true]
  · intro g p s hu hb hd ha hp he hr hen h
    rw [exec_ancPacketReceived hu hb hd hr, ha, hp, he, hen, ancQueue_of_full h]
    simp only [Bool.not_true, Bool.or_self, Bool.false_eq_true, if_false, if_true]
  · intro g t0 hanc vanc s hp hm hs
    exact Does.intro ((exec_outputFrameStart hp hm).1 hs) (State.done_runFrame s g t0 hanc vanc)
  · intro g t0 hanc vanc s hp hm hs hf hb
    exact ((exec_outputFrameStart hp hm).2 hs).trans (next_congr (if_pos (by simp [hf, hb])))
  · intro g t0 hanc vanc s hs hb
    exact exec_outputFrameStart_quiet hs hb
  · intro g line complete late s hp hm hq hs hl
    have quad := (State.sendsQuad_posLine s g (frameLineOf (fldGet (s.sentCfg g) 0 8) line)).trans hq
    have sent := (State.sendLine_single quad line (blackLine (s.sentCfg g))).1
    rw [State.sentCfg_posLine, State.puts_out] at sent
    exact Does.intro ((exec_outputLineStart hp hm hl rfl).1 hs) (sent_of_prefix sent (State.prefix_embLine ..))
  · intro g line late s hp hm hq hs hl hw
    refine Does.intro ((exec_outputLineStart hp hm hl rfl).2 hs) ?_
    have quad := (State.sendsQuad_posLine s g (frameLineOf (fldGet (s.sentCfg g) 0 8) line)).trans hq
    have wb := (State.wbMode_posLine s g (frameLineOf (fldGet (s.sentCfg g) 0 8) line)).trans hw
    have shown := State.showLines_repeat quad wb (s.sentCfg g) line []
    rw [State.sentCfg_posLine, State.puts_out, State.tx_of_sdiTx (State.puts_sdiTx _ _ _)] at shown
    exact State.runLine_sends quad wb (Bool.false_and _) shown
  · intro g line late s u hp hm hq hs hl hw hu hr
    refine Does.intro ((exec_outputLineStart hp hm hl hu).2 hs) ?_
    have quad : u.sendsQuad g = false := by rw [hu, State.sendsQuad_posLine, hq]
    have wb : u.get (compB g) F.COMP_CFG_WB_MODE = 0 := by rw [hu, State.wbMode_posLine, hw]
    have shown := State.showLines_ready quad wb (s.sentCfg g) line (u.composeLine g line)
    have out : u.out = s.out := by rw [hu, State.puts_out]
    have cfg : u.sentCfg g = s.sentCfg g := by rw [hu, State.sentCfg_posLine]
    rw [cfg, out] at shown
    exact State.runLine_sends quad wb (by rw [hr]; rfl) shown
  · intro g faulty s hp
    refine Does.intro (exec_driverOpenShort hp) ⟨?_, ?_⟩
    · rw [State.tx_of_sdiTx ((State.live_sdiTx _ _ _ _).trans (State.raiseIf_sdiTx _ _ _ _)), State.tx_setTx_same]
    · exact (((OnlyRegs.refl _ s).of_regs (State.setTx_regs _ _ _)).raiseIf (by simp)).put (by simp)

end Sys2Proof
end

section
/-! Proofs about the candidates of the timing core and the selection of a reference (R119 to R134). -/

set_option Elab.async false

namespace Sys2Proof.Machine

theorem bitN_setBit (x i : Nat) (b : Bool) : bitN (setBit x i b) i = b := by
  cases b
  · exact bitN_setBit_false x i
  · simp [bitN, setBit, Nat.testBit_or]

/-! Fields of registers that a pass over all candidates or domains leaves. -/

theorem State.get_lt (s : State) (b : Nat) (f : Fld) : s.get b f < 2 ^ f.width := by
  simp only [State.get, fldGet]
  exact Nat.mod_lt _ (Nat.two_pow_pos _)

theorem State.get_forAll {s : State} {l : List Nat} {f : Nat → State → State} {b : Nat} {g : Fld}
    (h : ∀ i ∈ l, ∀ u : State, (f i u).get b g = u.get b g) : (s.forAll l f).get b g = s.get b g :=
  State.forAll_keeps (P := fun u => u.get b g = s.get b g) (fun i hi u t e hu => by rw [e, h i hi u, hu]) rfl

/-- A field is left alone by a write of another register or of other bits of its own. -/
theorem State.get_put_disjoint (s : State) {b c : Nat} (f g : Fld) (v : Nat)
    (h : c + g.off ≠ b + f.off ∨ (f.lo + f.width ≤ g.lo ∧ g.lo + g.width ≤ 32 ∨ g.lo + g.width ≤ f.lo ∧ f.lo + f.width ≤ 32)) :
    (s.put b f v).get c g = s.get c g := by
  by_cases e : c + g.off = b + f.off
  · rcases h with h | h
    · exact absurd e h
    · rw [State.get, State.get, e, State.rd_put_same]
      exact fldGet_fldSet_ne _ _ h
  · exact s.get_put_ne f g v e

/-- Bringing the core's registers up to date leaves every field of its page but the pins, the level sent and the live bits. -/
theorem State.get_tcRefresh_tc (s : State) (f : Fld) (hl : f.off ≠ 0x1C) (hn : f.off < 0x1000)
    (hs : f.off = 0x6C → f.lo + f.width ≤ 11 ∨ 18 ≤ f.lo ∧ f.lo + f.width ≤ 32) : s.tcRefresh.get tcB f = s.get tcB f := by
  have stat (u : State) (g : Fld) (v : Nat) (hg : g.off = 0x6C ∧ 11 ≤ g.lo ∧ g.lo + g.width ≤ 18) :
      (u.put tcB g v).get tcB f = u.get tcB f := u.get_put_disjoint g f v (by omega)
  unfold State.tcRefresh
  dsimp only
  rw [State.get_forAll fun d _ u => u.get_put_ne _ _ _ (by simp only [tcB, tdB, gPage]; omega),
    State.get_forAll fun c _ u => u.get_put_ne _ _ _ (by simp only [tcB, candB, gPage]; omega)]
  simp only [apply_ite (State.get · tcB f), State.get_live_off _ _ _ _ _ hl, ite_self,
    stat _ F.TC_STAT_PINS _ (by decide), stat _ F.TC_STAT_SYS_QL _ (by decide)]

/-- It leaves every field of a candidate but its state. -/
theorem State.get_tcRefresh_cand (s : State) {c : Nat} (hc : c < 16) (f : Fld) (hn : f.off < 64)
    (hs : f.off = 8 → 3 ≤ f.lo ∧ f.lo + f.width ≤ 32) : s.tcRefresh.get (candB c) f = s.get (candB c) f := by
  have core (u : State) (g : Fld) (v : Nat) (hg : g.off < 0x1000) : (u.put tcB g v).get (candB c) f = u.get (candB c) f :=
    u.get_put_ne g f v (by simp only [tcB, candB, gPage]; omega)
  have live (u : State) (k : Nat) (b : Bool) : (u.live tcB k b).get (candB c) f = u.get (candB c) f :=
    core u _ _ (by decide : 0x1C < 0x1000)
  unfold State.tcRefresh
  dsimp only
  rw [State.get_forAll fun d _ u => u.get_put_ne _ _ _ (by simp only [candB, tdB, gPage]; omega),
    State.get_forAll fun d _ u => u.get_put_disjoint _ _ _ (by simp only [candB, gPage]; omega)]
  simp only [apply_ite (State.get · (candB c) f), live, ite_self, core _ F.TC_STAT_PINS _ (by decide), core _ F.TC_STAT_SYS_QL _ (by decide)]

@[simp] theorem State.tc_tcRefresh (s : State) : s.tcRefresh.tc = s.tc :=
  Part.same_of_erase (p := .tc) (by decide) (State.tcRefresh_er (m := 1) rfl)

theorem State.candActive_of_tc {s t : State} (h : t.tc = s.tc) (c : Nat) : t.candActive c = s.candActive c := by
  rw [State.candActive, h, State.candActive]

theorem State.candQualified_of_tc {s t : State} (h : t.tc = s.tc) (c : Nat) : t.candQualified c = s.candQualified c := by
  rw [State.candQualified, h, State.candQualified]

/-- A field of the same register at other bits. -/
theorem State.get_put_apart' (s : State) (b : Nat) (f g : Fld) (v : Nat) (e : g.off = f.off)
    (h : f.lo + f.width ≤ g.lo ∧ g.lo + g.width ≤ 32 ∨ g.lo + g.width ≤ f.lo ∧ f.lo + f.width ≤ 32) : (s.put b f v).get b g = s.get b g :=
  s.get_put_apart b f g v h e

/-! The loss of qualification, and a new level. -/

theorem State.tc_candDown (s : State) (c : Nat) : (s.candDown c).tc =
    if s.candQualified c then { s.tc with qualified := setBit s.tc.qualified c false, waiting := setBit s.tc.waiting c false } else s.tc := by
  unfold State.candDown
  split
  · rw [State.raise_tc, State.cause_tc, State.put_tc]
    rfl
  · rfl

@[simp] theorem State.active_candDown (s : State) (c : Nat) : (s.candDown c).tc.active = s.tc.active := by
  rw [State.tc_candDown]
  split <;> rfl

@[simp] theorem State.candQualified_candDown (s : State) (c : Nat) : (s.candDown c).candQualified c = false := by
  rw [State.candQualified, State.tc_candDown]
  split
  case isTrue => exact bitN_setBit _ c false
  case isFalse h => exact Bool.eq_false_iff.2 h

/-- The registers of the level that a candidate is given. -/
def State.qlRegs (s : State) (c q : Nat) (m : Bool) : State :=
  (((s.put (candB c) F.CAND_STAT_QL q).put (candB c) F.CAND_STAT_QL_FROM_MSG (b2n m)).raiseIf (q != s.get (candB c) F.CAND_STAT_QL) tcB 13)

theorem State.setQl_eq (s : State) (c ql : Nat) (m : Bool) {q : Nat} (hq : (if s.candActive c then ql else 15) = q) : s.setQl c ql m =
    if q = 15 then (s.qlRegs c q (m && s.candActive c)).candDown c else s.qlRegs c q (m && s.candActive c) := by
  rw [← hq]
  rfl

@[simp] theorem State.tc_qlRegs (s : State) (c q : Nat) (m : Bool) : (s.qlRegs c q m).tc = s.tc := by
  rw [State.qlRegs, State.raiseIf_tc, State.put_tc, State.put_tc]

@[simp] theorem State.active_setQl (s : State) (c ql : Nat) (m : Bool) : (s.setQl c ql m).tc.active = s.tc.active := by
  obtain ⟨q, hq⟩ : ∃ q, (if s.candActive c then ql else 15) = q := ⟨_, rfl⟩
  rw [State.setQl_eq s c ql m hq]
  split
  · rw [State.active_candDown, State.tc_qlRegs]
  · rw [State.tc_qlRegs]

@[simp] theorem State.candQualified_setQl_worst (s : State) (c : Nat) (m : Bool) : (s.setQl c 15 m).candQualified c = false := by
  rw [State.setQl_eq s c 15 m (ite_self _), if_pos rfl]
  exact State.candQualified_candDown _ c

@[simp] theorem State.active_requal (s : State) (c : Nat) : (s.requal c).tc.active = s.tc.active := by
  unfold State.requal
  split
  · exact State.active_setQl ..
  · split
    · rfl
    · exact State.active_setQl ..

/-- The registers of a candidate that a loss of qualification leaves. -/
theorem State.get_candDown_cand (s : State) {c : Nat} (f : Fld) (h : f.off ≠ 0x18) (hn : f.off < 64) :
    (s.candDown c).get (candB c) f = s.get (candB c) f := by
  unfold State.candDown
  split
  · rw [State.get_raise_ne _ _ _ (by simp only [tcB, candB, gPage]; omega), State.cause,
      State.get_put_ne _ _ _ _ (by simp only [tcB, candB, gPage]; omega), State.get_put_off _ _ _ _ _ h]
    rfl
  · rfl

theorem State.get_qlRegs_level (s : State) (c q : Nat) (m : Bool) (h : q < 16) : (s.qlRegs c q m).get (candB c) F.CAND_STAT_QL = q := by
  rw [State.qlRegs, State.get_raiseIf_ne _ _ _ _ (by simp only [tcB, candB, gPage]; omega),
    State.get_put_apart _ _ F.CAND_STAT_QL_FROM_MSG F.CAND_STAT_QL, State.get_put_same _ _ F.CAND_STAT_QL]
  exact Nat.mod_eq_of_lt h

theorem State.get_setQl_level (s : State) (c ql : Nat) (m : Bool) (h : ql < 16) :
    (s.setQl c ql m).get (candB c) F.CAND_STAT_QL = if s.candActive c then ql else 15 := by
  generalize hq : (if s.candActive c then ql else 15) = q
  have level := s.get_qlRegs_level c q (m && s.candActive c) (by split at hq <;> omega)
  rw [State.setQl_eq s c ql m hq]
  split
  · rw [State.get_candDown_cand _ F.CAND_STAT_QL (by decide) (by decide), level]
  · exact level

/-! The commands of one candidate. -/

/-- A reason takes a candidate out of the conditions of qualification (R120). -/
def State.unfit (s : State) (c : Nat) : QualLoss → Bool
  | .freq ppb =>
    let win : Int := 1000 * s.get (candB c) F.CAND_LIMIT_FREQ_WIN
    ppb + roundDivI s.steer 1000 < -win || win < ppb + roundDivI s.steer 1000
  | .jitter ns => s.get (candB c) F.CAND_LIMIT_JIT_LIMIT < ns
  | .level => s.get (candB c) F.CAND_STAT_QL == 15

theorem exec_candDisqualify {c : Fin 16} {why : QualLoss} {s : State} (hq : s.candQualified c = true) (hw : s.unfit c why = true) :
    Does (.candDisqualify c why) s fun t => t.candQualified c = false := by
  have lost : (s.candQualified c && s.unfit c why) = true := by rw [hq, hw]; rfl
  have run : exec (.candDisqualify c why) s = .next (s.candDown c).tcRefresh := by
    cases why <;> exact next_congr (if_pos lost)
  exact Does.intro run ((State.candQualified_of_tc (State.tc_tcRefresh _) c).trans (s.candQualified_candDown c))

theorem exec_rqpAgeExpiry {c : Fin 4} {s : State} (h : s.is (candB (12 + c)) F.CAND_STAT_QL_FROM_MSG = true) :
    Does (.rqpAgeExpiry c) s fun t => t.get (candB (12 + c)) F.CAND_STAT_QL =
      if s.candActive (12 + c) = true then s.get (candB (12 + c)) F.CAND_CFG_QL_STATIC else 15 := by
  refine Does.intro (next_congr (if_pos h)) ?_
  rw [State.get_tcRefresh_cand _ (by omega) F.CAND_STAT_QL (by decide) (by decide),
    State.get_setQl_level _ _ _ _ (s.get_lt (candB (12 + c)) F.CAND_CFG_QL_STATIC), State.candActive_of_tc ((State.put_tc _ _ _ _).trans (State.put_tc _ _ _ _))]

section
variable {c : Fin 16} {s : State}

theorem exec_candActive {fam : Option (Fin 5)} {k : Bool} (ha : s.candActive c = false) (hs : s.candSrcOk c = true) :
    ∃ u : State, exec (.candActive c fam k) s = .next (u.requal c).tcRefresh ∧ u.candActive c = true := by
  refine ⟨_, next_congr (if_neg (by simp [ha, hs])), ?_⟩
  rw [State.candActive, State.puts_tc]
  exact bitN_setBit _ _ true

theorem exec_candLoss (ha : s.candActive c = true) : exec (.candLoss c) s = .next (s.candLost c) := next_congr (if_pos ha)

/-- A candidate that is lost is neither active nor qualified. -/
theorem State.candLost_spec (s : State) (c : Nat) : (s.candLost c).candActive c = false ∧ (s.candLost c).candQualified c = false := by
  unfold State.candLost
  refine ⟨?_, ?_⟩
  · rw [State.candActive, State.tc_tcRefresh, State.active_setQl, State.puts_tc]
    exact bitN_setBit _ c false
  · rw [State.candQualified_of_tc (State.tc_tcRefresh _)]
    exact State.candQualified_setQl_worst ..

theorem exec_candQualify {m : CandMeas} (ha : s.candActive c = true) (hq : s.candQualified c = false) (hf : s.candFit c m = true) :
    Does (.candQualify c m) s fun t => t.candQualified c = true ∧ t.candWaiting c = (s.tc.everSel && s.get tcB F.TC_TIMES_WTR_S != 0) := by
  refine Does.intro (next_congr (if_pos (by simp [ha, hq, hf]))) ?_
  rw [State.candQualified, State.candWaiting, State.tc_tcRefresh, State.raise_tc, State.cause_tc, State.put_tc]
  exact ⟨bitN_setBit _ _ true, bitN_setBit _ _ _⟩

theorem exec_wtrExpiry (h : s.candWaiting c = true) : Does (.wtrExpiry c) s fun t => t.candWaiting c = false := by
  refine Does.intro (next_congr (if_pos h)) ?_
  rw [State.candWaiting, State.tc_tcRefresh, State.raise_tc, State.put_tc]
  exact bitN_setBit _ _ false

end

/-! Selection. -/

@[simp] theorem State.tc_puti (s : State) (b : Nat) (f : Fld) (v : Int) : (s.puti b f v).tc = s.tc := by
  rw [State.puti, State.put_tc]

/-- The registers of a switch. -/
def State.switchRegs (s : State) (c : Nat) (phase : Int) : State :=
  let t := s.puts tcB [(F.TC_STAT_REF_STATE, 1), (F.TC_STAT_LOOP, 1), (F.TC_STAT_SELECTED, c), (F.TC_STAT_SEL_VALID, 1),
    (F.TC_STAT_PULLING, 1), (F.TC_STAT_HOLD_SHORT, 0), (F.TC_STAT_SLOPE_LIMITED, 0), (F.TC_STAT_SLEW_LIMITED, 0)]
  ((t.puti tcB F.HELD_OFFSET_NS (roundDivI (reducePhase (s.markPeriod c) phase) 1000)).puti tcB F.PHASE_ERR_NS 0).put (candB c)
    F.CAND_WTR_LEFT 0

/-- A switch before its events: its registers, and the core beside them. -/
def State.switched (s : State) (c : Nat) (phase : Int) : State :=
  ((s.switchRegs c phase).modTc fun x => { x with
    everSel := true
    specLow := s.get tcB F.TC_STAT_REF_STATE == 0 || (s.get tcB F.TC_STAT_REF_STATE == 2 && s.pastLimit)
    held := reducePhase (s.markPeriod c) phase
    errs := [], lastQl := s.get (candB c) F.CAND_STAT_QL
    waiting := setBit x.waiting c false, forcedLost := false }).rebase 20480000 0

theorem State.switchTo_eq (s : State) (c : Nat) (phase : Int) : s.switchTo c phase =
    if s.get tcB F.TC_STAT_REF_STATE = 2 then (((s.switched c phase).raise tcB 0).raise tcB 7).live tcB 7 true
    else (s.switched c phase).raise tcB 0 := rfl

theorem State.tc_switchTo_switched (s : State) (c : Nat) (phase : Int) : (s.switchTo c phase).tc = (s.switched c phase).tc := by
  rw [State.switchTo_eq]
  split
  · rw [State.live_tc, State.raise_tc, State.raise_tc]
  · rw [State.raise_tc]

/-- The core beside its registers after a switch: a selection was made, and the pairs stay. -/
theorem State.tc_switchTo (s : State) (c : Nat) (phase : Int) :
    (s.switchTo c phase).tc.everSel = true ∧ (s.switchTo c phase).tc.pairs = s.tc.pairs := by
  rw [State.tc_switchTo_switched, State.switched, State.rebase, State.modTc_tc, State.modTc_tc, State.switchRegs, State.put_tc, State.tc_puti, State.tc_puti,
    State.puts_tc]
  exact ⟨rfl, rfl⟩

theorem State.pairs_enterHold (s : State) : s.enterHold.tc.pairs = s.tc.pairs := by
  unfold State.enterHold
  dsimp only
  rw [State.live_tc, State.raise_tc]
  simp only [State.modTc, State.tc_puti, State.puts_tc]

theorem State.pairs_enterFree (s : State) : s.enterFree.tc.pairs = s.tc.pairs := by
  unfold State.enterFree
  split
  · rfl
  · rw [State.raise_tc]
    simp only [State.modTc, State.puts_tc]

theorem State.pairs_holdOrFree (s : State) (b : Bool) : (s.holdOrFree b).tc.pairs = s.tc.pairs := by
  unfold State.holdOrFree
  split
  · rfl
  · split
    · exact s.pairs_enterHold
    · rfl

theorem State.pairs_selectAuto (s : State) (ph : Nat → Int) : (s.selectAuto ph).tc.pairs = s.tc.pairs := by
  have switch (u : State) (c : Nat) (x : Int) : (u.switchTo c x).tc.pairs = u.tc.pairs := (u.tc_switchTo c x).2
  unfold State.selectAuto
  dsimp only
  repeat' split
  all_goals simp only [switch, State.raiseIf_tc, State.pairs_holdOrFree]

theorem State.pairs_selectForced (s : State) (ph : Nat → Int) : (s.selectForced ph).tc.pairs = s.tc.pairs := by
  unfold State.selectForced
  dsimp only
  split
  · split
    · rfl
    · exact (s.tc_switchTo ..).2
  · simp only [State.modTc]
    split
    · rw [State.raiseIf_tc, State.raiseIf_tc]
    · rw [State.pairs_enterHold, State.raiseIf_tc, State.raiseIf_tc]

theorem State.pairs_evaluate (s : State) (ph : Nat → Int) : (s.evaluate ph).tc.pairs = s.tc.pairs := by
  unfold State.evaluate
  split
  · exact s.pairs_selectAuto ph
  · exact s.pairs_selectForced ph
  · simp only [State.modTc]
    split
    · rfl
    · exact s.pairs_enterHold
  · exact s.pairs_enterFree

@[simp] theorem State.tc_measured (s : State) (m : List CandMeas) : (s.measured m).tc = s.tc :=
  Part.same_of_erase (p := .tc) (by decide) (State.measured_er (m := 1) rfl)

/-- The measurements of the candidates leave the core's own registers. -/
theorem State.get_measured_tc (s : State) (m : List CandMeas) (f : Fld) (h : f.off < 0x1000) :
    (s.measured m).get tcB f = s.get tcB f := by
  refine State.get_forAll fun c hc u => ?_
  have cand (v : State) (g : Fld) (n : Nat) : (v.put (candB c) g n).get tcB f = v.get tcB f :=
    v.get_put_ne g f n (by simp only [tcB, candB, gPage]; omega)
  split
  · split
    · simp only [State.candMeas, State.puti, cand]
    · rfl
  · rfl

theorem State.sel_of_get {s t : State} (h : ∀ f : Fld, f.off = 0x6C → t.get tcB f = s.get tcB f) : t.sel = s.sel := by
  rw [State.sel, State.sel, State.is, State.is, h F.TC_STAT_SEL_VALID rfl, h F.TC_STAT_SELECTED rfl]

/-- The core beside its registers after an evaluation (R133). -/
def State.evaluatedTc (s : State) (x : Tc) : Tc :=
  { x with
    pairs := x.pairs.filter fun p => s.candQualified (p / 16) && s.candQualified (p % 16) && s.candRank (p / 16) == s.candRank (p % 16)
      && s.get tcB F.TC_DISAGREE_THRESH_PPB
          < (s.geti (candB (p / 16)) F.CAND_ABS_PPB - s.geti (candB (p % 16)) F.CAND_ABS_PPB).natAbs
    lastQl := match s.sel with | some c => s.get (candB c) F.CAND_STAT_QL | none => x.lastQl }

theorem State.evaluated_eq (s : State) : s.evaluated = (s.modTc s.evaluatedTc).tcRefresh := rfl

/-- What an evaluation leaves in the registers and of the core beside them. -/
theorem State.evaluated_spec (s : State) : s.evaluated.tc.everSel = s.tc.everSel ∧ (∀ p ∈ s.evaluated.tc.pairs, p ∈ s.tc.pairs) ∧
    ∀ f : Fld, f.off = 0x6C → f.lo + f.width ≤ 11 → s.evaluated.get tcB f = s.get tcB f := by
  rw [State.evaluated_eq, State.tc_tcRefresh, State.modTc_tc]
  refine ⟨rfl, fun p hp => (List.mem_filter.1 hp).1, fun f ho hw => ?_⟩
  rw [State.get_tcRefresh_tc _ f (by omega) (by omega) fun _ => .inl hw, State.get_modTc]

/-- The reference's state and the selection after a switch. -/
theorem State.get_switched (s : State) (c : Nat) (phase : Int) : (s.switched c phase).get tcB F.TC_STAT_REF_STATE = 1 ∧
    (s.switched c phase).get tcB F.TC_STAT_SELECTED = c % 16 := by
  have cand (u : State) (f : Fld) (hf : f.off = 0x6C) : (u.put (candB c) F.CAND_WTR_LEFT 0).get tcB f = u.get tcB f :=
    u.get_put_ne _ f _ (by simp only [tcB, candB, gPage]; omega)
  have regs : (s.switched c phase).regs = (s.switchRegs c phase).regs := rfl
  rw [State.get_of_regs regs, State.get_of_regs regs, State.switchRegs]
  simp (disch := decide) only [cand, State.puti, State.get_put_off]
  exact ⟨State.get_puts_first _ _ _ _ _ (by decide) rfl, State.get_puts_next _ _ _ _ _ fun _ => State.get_puts_next _ _ _ _ _ fun _ =>
    State.get_puts_first _ _ _ _ _ (by decide) rfl⟩

theorem State.get_switchTo (s : State) (c : Nat) (phase : Int) : (s.switchTo c phase).get tcB F.TC_STAT_REF_STATE = 1 ∧
    (s.switchTo c phase).get tcB F.TC_STAT_SELECTED = c % 16 := by
  rw [State.switchTo_eq]
  split
  · simp (disch := decide) only [State.get_live_off, State.get_raise_off]
    exact s.get_switched c phase
  · simp (disch := decide) only [State.get_raise_off]
    exact s.get_switched c phase

/-- FREE-RUN leaves the reference unselected. -/
theorem State.get_enterFree (s : State) : s.enterFree.get tcB F.TC_STAT_REF_STATE = 0 := by
  unfold State.enterFree
  split
  · assumption
  · rw [State.get_raise_off _ _ _ _ (by decide), State.get_modTc]
    exact State.get_puts_first _ _ _ _ _ (by decide) rfl

theorem mem_pairs (l : List Nat) (k : Nat) : k ∈ if l.contains k then l else l ++ [k] := by
  split
  · rwa [← List.contains_iff_mem]
  · simp

/-- The evaluation of a core that has started. -/
theorem exec_selectEvaluation {m : List CandMeas} {s : State} (h : s.tc.started = true) : ∃ ph : Nat → Int,
    exec (.selectEvaluation m) s = .next ((s.measured m).evaluate ph).evaluated :=
  ⟨_, next_congr (if_neg (by simp [h]))⟩

end Sys2Proof.Machine

namespace Sys2Proof
open Sys2Proof.Machine

/-- Settles O20: each command of a candidate sets its own bit of the core, and an evaluation follows the mode in force. -/
theorem timingCandidates : Obligations.TimingCandidates := by
  unfold Obligations.TimingCandidates
  refine ⟨?_, ?_, ?_, ?_, ?_, ?_, ?_, ?_, ?_, ?_, ?_, ?_, ?_, ?_⟩
  · intro c fam k s ha hs
    obtain ⟨u, run, active⟩ := exec_candActive (fam := fam) (k := k) ha hs
    refine Does.intro run ?_
    rw [State.candActive, State.tc_tcRefresh, State.active_requal]
    exact active
  · exact fun c s ha => Does.intro (exec_candLoss ha) (s.candLost_spec c)
  · exact fun c m s ha hq hf => exec_candQualify ha hq hf
  · intro c ppb s hq hw
    refine exec_candDisqualify hq ?_
    simp only [State.unfit, Bool.or_eq_true, decide_eq_true_eq]
    omega
  · exact fun c ns s hq hw => exec_candDisqualify hq (by simpa [State.unfit] using hw)
  · exact fun c s hq hw => exec_candDisqualify hq (by simpa [State.unfit] using hw)
  · exact fun c s h => exec_wtrExpiry h
  · exact fun s h => next_congr (if_pos h)
  · exact fun c s h => exec_rqpAgeExpiry h
  · exact fun m s h => next_congr (if_pos (by simp [h]))
  · intro m s h
    obtain ⟨ph, run⟩ := exec_selectEvaluation (m := m) h
    refine Does.intro run fun p hp => ?_
    have kept := (State.evaluated_spec _).2.1 p hp
    rwa [State.pairs_evaluate, State.tc_measured] at kept
  · intro m s h hm hq hsel
    obtain ⟨ph, run⟩ := exec_selectEvaluation (m := m) h
    have switch : (s.measured m).evaluate ph =
        (s.measured m).switchTo (s.get tcB F.TC_CFG_FORCE_CAND) (ph (s.get tcB F.TC_CFG_FORCE_CAND)) := by
      have sel := State.sel_of_get fun f hf => s.get_measured_tc m f (by omega)
      rw [State.evaluate, s.get_measured_tc m F.TC_CFG_MODE (by decide), hm]
      simp only [State.selectForced]
      rw [s.get_measured_tc m F.TC_CFG_FORCE_CAND (by decide), if_pos ((State.candQualified_of_tc (s.tc_measured m) _).trans hq), sel, if_neg hsel]
    rw [switch] at run
    obtain ⟨ever, -, regs⟩ := State.evaluated_spec
      ((s.measured m).switchTo (s.get tcB F.TC_CFG_FORCE_CAND) (ph (s.get tcB F.TC_CFG_FORCE_CAND)))
    obtain ⟨state, selected⟩ := (s.measured m).get_switchTo (s.get tcB F.TC_CFG_FORCE_CAND) (ph (s.get tcB F.TC_CFG_FORCE_CAND))
    refine Does.intro run ⟨ever.trans (State.tc_switchTo ..).1, (regs _ rfl (by decide)).trans state, (regs _ rfl (by decide)).trans ?_⟩
    exact selected.trans (Nat.mod_eq_of_lt (s.get_lt tcB F.TC_CFG_FORCE_CAND))
  · intro m s h hm
    obtain ⟨ph, run⟩ := exec_selectEvaluation (m := m) h
    have free : (s.measured m).evaluate ph = (s.measured m).enterFree.modTc fun x => { x with forcedLost := false } := by
      simp only [State.evaluate, s.get_measured_tc m F.TC_CFG_MODE (by decide), hm]
    rw [free] at run
    refine Does.intro run (((State.evaluated_spec _).2.2 _ rfl (by decide)).trans ?_)
    exact (State.get_modTc _ _ _ _).trans (State.get_enterFree _)
  · intro a b s hab ha hb hr hd
    refine Does.intro (next_congr (if_pos (by simpa [hab, ha, hb, hr] using hd))) ?_
    rw [State.tc_tcRefresh, State.raise_tc, State.modTc_tc, State.puts_tc]
    exact mem_pairs s.tc.pairs _

end Sys2Proof
end

section
/-! Proofs about the time scale and the timing domains (R116, R145 to R152). -/

set_option Elab.async false

namespace Sys2Proof.Machine

/-! The time scale. -/

/-- A captured setting that is due becomes the time of day (R116). -/
theorem exec_tsSetApply_due {v : Nat} {s : State} (hv : s.tc.tsSet = some v) (hd : s.setPoint < 10 ^ 6) :
    exec .tsSetApply s = .next (((s.modTc fun x => { x with
      now := onScale ((v * 10 ^ 9 : Nat) - (if s.ppsSelected then s.refAhead else 0) - (s.setPoint : Nat)), tsSet := none }).raise tcB 20).tick) := by
  change execTsSetApply s = _
  simp only [execTsSetApply, hv]
  exact next_congr (if_pos hd)

theorem exec_tsSetApply_early {v : Nat} {s : State} (hv : s.tc.tsSet = some v) (hd : ¬ s.setPoint < 10 ^ 6) :
    exec .tsSetApply s = .next s := by
  change execTsSetApply s = _
  simp only [execTsSetApply, hv]
  exact next_congr (if_neg hd)

/-- What the application of a captured setting leaves: the new time, no setting, and the event. -/
theorem tsSetApply_spec {v : Nat} {s : State} (h0 : s.present 0 = true) (hv : s.tc.tsSet = some v) (hd : s.setPoint < 10 ^ 6) :
    Does .tsSetApply s fun t =>
      t.tc.now = onScale ((v * 10 ^ 9 : Nat) - (if s.ppsSelected then s.refAhead else 0) - (s.setPoint : Nat)) ∧
        t.tc.tsSet = none ∧ Raised s t tcB 20 := by
  refine Does.intro (exec_tsSetApply_due hv hd) ⟨?_, ?_, ?_⟩
  · rw [State.tick_tc, State.raise_tc, State.modTc_tc]
  · rw [State.tick_tc, State.raise_tc, State.modTc_tc]
  · exact Raised.keep (Raised.of (u := State.modTc _ _) h0 rfl rfl) rfl rfl

theorem State.setPoint_of_scale {s : State} (hp : s.ppsSelected = false) : s.setPoint = (10 ^ 9 - s.tc.now % 10 ^ 9) % 10 ^ 9 := by
  rw [State.setPoint, hp]
  exact if_neg Bool.false_ne_true

theorem State.setPoint_of_pps {s : State} (hp : s.ppsSelected = true) : s.setPoint < 10 ^ 6 := by
  rw [State.setPoint, if_pos hp]
  exact Nat.mod_lt _ (by decide)

theorem exec_tsSecRead (ns : Fin 1000000) (s : State) : exec (.tsSecRead ns) s = .next ((s.puts tcB
    [(F.TS_SEC_LO_VALUE, s.timeNow ns / 10 ^ 9 % 2 ^ 48 % 2 ^ 32), (F.TS_SEC_HI_VALUE, s.timeNow ns / 10 ^ 9 % 2 ^ 48 / 2 ^ 32),
      (F.TS_NS_VALUE, s.timeNow ns % 10 ^ 9)]).answer (BitVec.ofNat 32 (s.timeNow ns / 10 ^ 9 % 2 ^ 48))) := rfl

/-! The timing domains. -/

theorem State.td_of_tds {s t : State} (h : t.tds = s.tds) (d : Nat) : t.td d = s.td d := by rw [State.td, h, State.td]

theorem tdB_ne_tcB (d : Nat) {j k : Nat} (h : k < 0x1000) : tdB d + j ≠ tcB + k := by
  simp only [tdB, tcB, gPage]; omega

section
variable {d : Fin 8} {s : State}

theorem exec_tdRunWrite_stopped (h : s.is (tdB d) F.TD_STAT_STOPPED = true) : exec (.tdRunWrite d true) s = .next (s.tdStart d) := by
  change execTdRunWrite d true s = _
  simp only [execTdRunWrite, if_true, h]

theorem exec_tdRunWrite_stop (h : s.is (tdB d) F.TD_STAT_STOPPED = false) : exec (.tdRunWrite d false) s =
    .next ((s.put (tdB d) F.TD_CTRL_RUN 0).setTd d { s.td d with stopping := true }) := by
  change execTdRunWrite d false s = _
  simp only [execTdRunWrite, Bool.false_eq_true, if_false, h]

/-- A stopped domain whose configuration fits starts. -/
theorem State.tdStart_fit (h : s.tdCfgOk d = true) : s.tdStart d = (s.puts (tdB d) [(F.TD_CTRL_RUN, 1), (F.TD_STAT_STOPPED, 0)]).setTd d
    { s.td d with starting := true, stopping := false, cutPassed := false } := if_pos h

theorem State.tdStart_unfit (h : s.tdCfgOk d = false) :
    s.tdStart d = ((s.put (tdB d) F.TD_CTRL_RUN 0).refuseDirect tcB rcFormat).raise seqB 3 := if_neg (by simp [h])

/-- The registers of a domain are none of the core's and none of the sequencer's events. -/
theorem State.get_td_refused (u : State) (f : Fld) (hf : f.off < 0x40) :
    ((u.refuseDirect tcB rcFormat).raise seqB 3).get (tdB d) f = u.get (tdB d) f := by
  rw [State.get_raise_ne _ _ _ (by simp only [tdB, seqB, gPage]; omega), State.refuseDirect, State.get_put_ne _ _ _ _ (tdB_ne_tcB _ (by decide)),
    State.get_put_ne _ _ _ _ (tdB_ne_tcB _ (by decide))]

/-- A realignment that is refused. -/
theorem exec_tdRealignGo_refused {jump : Bool} (h : s.is (tdB d) F.TD_STAT_STOPPED = true ∨ s.is (tdB d) F.TD_STAT_PULLING = true ∨
      s.is (tdB d) F.TD_STAT_JUMP_PENDING = true) : exec (.tdRealignGo d jump) s =
    .next (((s.put (tdB d) F.TD_REALIGN_MODE (b2n jump)).put (tdB d) F.TD_STAT_REALIGN_REFUSED 1).raise tcB 19) := by
  refine next_congr (if_pos ?_)
  rcases h with h | h | h <;> simp [h]

theorem exec_tdRealignGo_pull (hs : s.is (tdB d) F.TD_STAT_STOPPED = false) (hp : s.is (tdB d) F.TD_STAT_PULLING = false)
    (hj : s.is (tdB d) F.TD_STAT_JUMP_PENDING = false) (hx : (s.td d).jumped = false) : exec (.tdRealignGo d false) s =
    .next (((s.put (tdB d) F.TD_REALIGN_MODE 0).put (tdB d) F.TD_STAT_REALIGN_REFUSED 0).put (tdB d) F.TD_STAT_PULLING 1) := by
  change execTdRealignGo d false s = _
  simp only [execTdRealignGo, hs, hp, hj, hx, Bool.or_self, Bool.false_and, Bool.false_eq_true, if_false]
  rfl

theorem exec_tdRealignGo_jump (hs : s.is (tdB d) F.TD_STAT_STOPPED = false) (hp : s.is (tdB d) F.TD_STAT_PULLING = false)
    (hj : s.is (tdB d) F.TD_STAT_JUMP_PENDING = false) (hx : (s.td d).jumped = false) (hn : s.get (tdB d) F.TD_JUMP_FRAME_VALUE = 0) :
    exec (.tdRealignGo d true) s =
    .next ((((s.put (tdB d) F.TD_REALIGN_MODE 1).put (tdB d) F.TD_STAT_REALIGN_REFUSED 0).put (tdB d) F.TD_STAT_JUMP_PENDING 1).setTd d
      { s.td d with jumpFrame := (s.get (tdB d) F.TD_FRAME_COUNT + 1 + b2n (s.td d).cutPassed) % 2 ^ 32, jumpIdle := false }) := by
  change execTdRealignGo d true s = _
  simp only [execTdRealignGo, hs, hp, hj, hx, hn, Bool.or_self, Bool.true_and, bne_self_eq_false, Bool.false_and, Bool.false_eq_true,
    if_false, if_true]
  rfl

theorem exec_realignSlopeDone (hp : s.is (tdB d) F.TD_STAT_PULLING = true) (hm : (s.td d).mis.natAbs < 1000000) :
    exec (.realignSlopeDone d) s =
    .next ((s.puts (tdB d) [(F.TD_STAT_PULLING, 0), (F.TD_STAT_ALIGNED, 1), (F.TD_MISALIGN_NS, 0)]).raise tcB 18) :=
  next_congr (if_pos (by simp [hp, hm]))

theorem exec_realignJump (hp : s.is (tdB d) F.TD_STAT_JUMP_PENDING = true) (hf : s.get (tdB d) F.TD_FRAME_COUNT = (s.td d).jumpFrame) :
    exec (.realignJump d) s = .next (((s.put (tdB d) F.TD_STAT_JUMP_PENDING 0).setTd d { s.td d with jumped := true }).forAll
      (s.outputsOf d) fun g u => if u.get (outB g) F.OUT_STAT_STATE = 3 then u
        else (u.put (outB g) F.OUT_STAT_STATE 0).put (outB g) F.OUT_STAT_RATE 0) :=
  next_congr (if_pos (by simp [hp, hf]))

end

/-- An output that goes quiet leaves the domains' registers. -/
theorem State.get_quietOutputs (l : List Nat) (s : State) (d : Nat) (f : Fld) (hd : tdB d + f.off < 0x800000) :
    (s.forAll l fun g u => if u.get (outB g) F.OUT_STAT_STATE = 3 then u
      else (u.put (outB g) F.OUT_STAT_STATE 0).put (outB g) F.OUT_STAT_RATE 0).get (tdB d) f = s.get (tdB d) f := by
  refine State.get_forAll fun g _ u => ?_
  have apart (v : State) (k : Fld) (n : Nat) : (v.put (outB g) k n).get (tdB d) f = v.get (tdB d) f :=
    v.get_put_ne k f n (by simp only [outB, portPage]; omega)
  split
  · rfl
  · rw [apart, apart]

theorem State.tds_quietOutputs (l : List Nat) (s : State) :
    (s.forAll l fun g u => if u.get (outB g) F.OUT_STAT_STATE = 3 then u
      else (u.put (outB g) F.OUT_STAT_STATE 0).put (outB g) F.OUT_STAT_RATE 0).tds = s.tds := by
  refine Part.same_of_erase (p := .tds) (m := 1) (by decide) (State.forAll_er rfl fun g u => ?_)
  split
  · rfl
  · exact State.put_er (State.put_er rfl)

end Sys2Proof.Machine

namespace Sys2Proof
open Sys2Proof.Machine

/-- Settles O22: a setting applies at its edge, and a domain starts, stops and realigns as its state allows. -/
theorem timeAndDomains : Obligations.TimeAndDomains := by
  unfold Obligations.TimeAndDomains
  refine ⟨?_, ?_, ?_, ?_, ?_, ?_, ?_, ?_, ?_, ?_, ?_, ?_, ?_, ?_⟩
  · exact fun s => rfl
  · intro v ns s h0 hv hp hn
    have point : s.setPoint = ns := by rw [State.setPoint_of_scale hp]; omega
    have apply := tsSetApply_spec h0 hv (by rw [point]; omega)
    rwa [hp, point, if_neg Bool.false_ne_true, Int.sub_zero] at apply
  · intro v s h0 hv hp
    obtain ⟨t, run, now, set, event⟩ := tsSetApply_spec h0 hv (State.setPoint_of_pps hp)
    rw [if_pos hp] at now
    exact Does.intro run ⟨⟨_, State.setPoint_of_pps hp, now⟩, set, event⟩
  · intro v s hv hp h1 h2
    refine exec_tsSetApply_early hv ?_
    rw [State.setPoint_of_scale hp]; omega
  · intro s hv
    change execTsSetApply s = _
    simp only [execTsSetApply, hv]
  · intro ns s
    refine Does.intro (exec_tsSecRead ns s) ⟨rfl, ?_, ?_⟩
    · rw [State.get_of_regs (State.answer_regs _ _)]
      exact (State.get_puts_next _ _ _ _ _ fun _ => State.get_puts_first _ _ _ _ _ (by decide) rfl).trans (Nat.mod_eq_of_lt (b := 2 ^ 16) (by omega))
    · rw [State.get_of_regs (State.answer_regs _ _)]
      exact (State.get_puts_next _ _ _ _ _ fun _ => State.get_puts_next _ _ _ _ _ fun _ =>
        State.get_puts_first _ _ _ _ _ (by decide) rfl).trans (Nat.mod_eq_of_lt (b := 2 ^ 30) (by omega))
  · intro d s hs hc
    have run := exec_tdRunWrite_stopped hs
    rw [State.tdStart_fit hc] at run
    refine Does.intro run ⟨?_, ?_, ?_⟩
    · rw [State.is_setTd, State.puts_cons, State.puts_cons, State.puts_nil, State.is_put_same _ _ _ _ (by decide)]
      rfl
    · rw [State.td_setTd_same]
    · rw [State.td_setTd_same]
  · intro d s hs hc
    have run := exec_tdRunWrite_stopped hs
    rw [State.tdStart_unfit hc] at run
    refine Does.intro run ⟨?_, ?_, ?_⟩
    · rw [State.is, State.get_td_refused _ F.TD_STAT_STOPPED (by decide), State.get_put_off _ _ _ _ _ (by decide)]
      exact hs
    · rw [State.get_td_refused _ F.TD_CTRL_RUN (by decide)]
      exact State.get_put_same _ _ _ _
    · exact State.td_of_tds (State.raise_tds _ _ _) d
  · intro d s hs
    refine Does.intro (exec_tdRunWrite_stop hs) ⟨?_, ?_, fun e he => ?_⟩
    · rw [State.td_setTd_same]
    · rw [State.get_setTd]
      exact State.get_put_same _ _ _ _
    · exact State.td_setTd_ne _ _ _ (Fin.val_ne_of_ne he)
  · intro d s hs hp hj hx
    refine Does.intro (exec_tdRealignGo_pull hs hp hj hx) ⟨State.get_put_same _ _ _ _, ?_⟩
    exact (State.get_put_apart _ _ F.TD_STAT_PULLING F.TD_STAT_REALIGN_REFUSED _).trans (State.get_put_same _ _ _ _)
  · intro d s hs hp hj hx hn
    refine Does.intro (exec_tdRealignGo_jump hs hp hj hx hn) ⟨?_, ?_⟩
    · rw [State.get_setTd]
      exact State.get_put_same _ _ _ _
    · rw [State.td_setTd_same]
  · intro d jump s h
    refine Does.intro (exec_tdRealignGo_refused h) ⟨?_, State.td_of_tds (State.raise_tds _ _ _) d⟩
    rw [State.get_raise_ne _ _ _ (tdB_ne_tcB d (by decide))]
    exact State.get_put_same _ _ _ _
  · intro d s hp hm
    have skip (u : State) (f : Fld) (k : Nat) : (u.raise tcB k).get (tdB d) f = u.get (tdB d) f :=
      u.get_raise_ne f k (tdB_ne_tcB d (by decide))
    refine Does.intro (exec_realignSlopeDone hp hm) ⟨(skip ..).trans ?_, (skip ..).trans ?_, (skip ..).trans ?_⟩
    · exact State.get_puts_first _ _ _ _ _ (by decide) rfl
    · exact State.get_puts_next _ _ _ _ _ fun _ => State.get_puts_first _ _ _ _ _ (by decide) rfl
    · exact State.get_puts_next _ _ _ _ _ fun _ => State.get_puts_next _ _ _ _ _ fun _ => State.get_puts_first _ _ _ _ _ (by decide) rfl
  · intro d s hp hf
    refine Does.intro (exec_realignJump hp hf) ⟨?_, ?_⟩
    · rw [State.td_of_tds (State.tds_quietOutputs _ _), State.td_setTd_same]
    · rw [State.get_quietOutputs _ _ d F.TD_STAT_JUMP_PENDING (by simp only [tdB, gPage]; omega),
        State.get_setTd]
      exact State.get_put_same _ _ _ _

end Sys2Proof
end

section
/-! Proofs about the Finano links (R30, R183, R537). -/

set_option Elab.async false

namespace Sys2Proof.Machine

/-- A property that each step of a fold keeps holds in the end. -/
theorem State.foldl_keeps {α : Type} {P : State → Prop} {f : State → α → State} {l : List α}
    (h : ∀ a ∈ l, ∀ u t, t = f u a → P u → P t) {s : State} (hs : P s) : P (l.foldl f s) := by
  induction l generalizing s with
  | nil => exact hs
  | cons a l ih => exact ih (fun b hb => h b (List.mem_cons_of_mem _ hb)) (h a List.mem_cons_self s _ rfl hs)

/-! The directions whose lines have moved: shedding leaves them. -/

@[simp] theorem State.moved_setRoute (s : State) (t i : Nat) (x : RouteX) : (s.setRoute t i x).floor.moved = s.floor.moved := rfl

@[simp] theorem State.routeEvent_floor (s : State) (t i k : Nat) : (s.routeEvent t i k).floor = s.floor := by
  rw [State.routeEvent, State.puts_floor, State.raise_floor]

theorem State.moved_routesLose (s : State) (c : Nat) (was : Bool) : (s.routesLose c was).floor.moved = s.floor.moved := by
  refine State.foldl_keeps (P := fun u => u.floor.moved = s.floor.moved) (fun p _ u t e hu => ?_) rfl
  split at e
  · rw [e, hu]
  · rw [e, State.routeEvent_floor, State.put_floor, State.moved_setRoute, hu]

theorem State.moved_storeStops (s : State) (i : Nat) : (s.storeStops i).floor.moved = s.floor.moved := by
  unfold State.storeStops
  dsimp only
  split
  · have kept : erase 4097 ((((s.setRing (0x600 + i) { s.ring (0x600 + i) with delivering := false }).routesLose (0x600 + i) true).contextsHold
        (0x600 + i)).siloStat (0x600 + i)) =
        erase 4097 ((s.setRing (0x600 + i) { s.ring (0x600 + i) with delivering := false }).routesLose (0x600 + i) true) :=
      State.siloStat_er (State.contextsHold_er rfl)
    rw [Part.same_of_erase (p := .floor) (by decide) kept, State.moved_routesLose]
    rfl
  · rfl

theorem State.moved_shedRoute (s : State) (t i : Nat) (bySilo : Bool) : (s.shedRoute t i bySilo).floor.moved = s.floor.moved := by
  have leaves (u : State) : (u.routeLeaves t i).floor = u.floor :=
    Part.same_of_erase (p := .floor) (by decide) (State.routeLeaves_er (m := 5121) rfl)
  have silo (u : State) : (u.siloEvent (routeTable t) i 7).floor = u.floor := by
    rw [State.siloEvent, State.puts_floor, State.raise_floor]
  unfold State.shedRoute
  dsimp only
  rw [leaves]
  split
  · rw [State.moved_storeStops]
    split
    · rw [silo]; rfl
    · rw [State.routeEvent_floor]; rfl
  · split
    · rw [silo]; rfl
    · rw [State.routeEvent_floor]; rfl

theorem State.moved_shedFinano (s : State) (sheaf dir : Nat) : (s.shedFinano sheaf dir).floor.moved = s.floor.moved := by
  have after (u : State) : (u.sumsRefresh.floorLive).floor = u.floor :=
    Part.same_of_erase (p := .floor) (by decide) (State.floorLive_er (m := 17) (State.sumsRefresh_er rfl))
  unfold State.shedFinano
  rw [after]
  refine State.foldl_keeps (P := fun u => u.floor.moved = s.floor.moved) (fun p _ u t e hu => ?_) rfl
  split at e
  · rw [e, State.moved_shedRoute, hu]
  · rw [e, hu]

/-! The links. -/

/-- The live bits of the Floor leave every other register, and all beside the registers. -/
theorem State.get_floorLive (s : State) (b : Nat) (f : Fld) (h : b + f.off ≠ flB + 0x1C) : s.floorLive.get b f = s.get b f :=
  State.get_of_rd (State.rd_floorLive s h)

theorem State.floorLive_floor (s : State) : s.floorLive.floor = s.floor :=
  Part.same_of_erase (p := .floor) (by decide) (State.floorLive_er (m := 1) rfl)

theorem linkBit_fits {sheaf : Nat} {dir : Bool} {link : Fin 2} (h : sheaf ≤ 6) :
    (linkBit sheaf dir link).lo + (linkBit sheaf dir link).width ≤ 32 := by
  cases dir <;> simp only [linkBit, b2n] <;> simp <;> omega

/-- The state of a link after its change: its bit, and neither move nor test stand. -/
def State.linkChanged (s : State) (sheaf : Nat) (dir : Bool) (link : Nat) : State :=
  { s with floor := { s.floor with
      moved := tset false s.floor.moved (dirKey sheaf dir) false
      tested := tset false s.floor.tested (linkKey sheaf dir link) false } }

section
variable {sheaf : Fin 8} {dir : Bool} {link : Fin 2} {s : State}

theorem exec_finanoLinkFail {why : LinkFail} (hu : s.sheafUp sheaf = true) (hl : s.is flB (linkBit sheaf dir link) = true) :
    exec (.finanoLinkFail sheaf dir link why) s =
      .next (((s.put flB (linkBit sheaf dir link) 0).raise flB 6).linkChanged sheaf dir link).floorLive :=
  next_congr (if_pos (by simp [hu, hl]))

theorem exec_finanoLinkRestore (hu : s.sheafUp sheaf = true) (hl : s.is flB (linkBit sheaf dir link) = false)
    (ht : tget false s.floor.tested (linkKey sheaf dir link) = true) : exec (.finanoLinkRestore sheaf dir link) s =
      .next ((s.put flB (linkBit sheaf dir link) 1).linkChanged sheaf dir link).floorLive :=
  next_congr (if_pos (by simp [hu, hl, ht]))

theorem exec_linkMove (hu : s.sheafUp sheaf = true) (ho : s.oneLink sheaf dir = true)
    (hm : tget false s.floor.moved (dirKey sheaf dir) = false) : exec (.linkMove sheaf dir) s =
      .next (({ s with floor := { s.floor with moved := tset false s.floor.moved (dirKey sheaf dir) true } }).shedFinano sheaf (b2n (!dir))) :=
  next_congr (if_pos (by simp [hu, ho, hm]))

theorem exec_finanoLinkTest {bad : Nat} (hu : s.sheafUp sheaf = true) (hl : s.is flB (linkBit sheaf dir link) = false) :
    exec (.finanoLinkTest sheaf dir link bad) s = .next { s with floor := { s.floor with
      tested := tset false s.floor.tested (linkKey sheaf dir link) (bad == 0) } } :=
  next_congr (if_pos (by simp [hu, hl]))

/-- A changed link neither stands as moved nor as tested. -/
theorem State.linkChanged_floor (u : State) : tget false (u.linkChanged sheaf dir link).floorLive.floor.moved (dirKey sheaf dir) = false ∧
    tget false (u.linkChanged sheaf dir link).floorLive.floor.tested (linkKey sheaf dir link) = false := by
  rw [State.floorLive_floor]
  exact ⟨tget_tset_same false u.floor.moved _ false, tget_tset_same false u.floor.tested _ false⟩

theorem State.get_linkChanged (u : State) : (u.linkChanged sheaf dir link).floorLive.get flB (linkBit sheaf dir link) =
    u.get flB (linkBit sheaf dir link) :=
  (State.get_floorLive _ _ _ (by simp [linkBit])).trans rfl

theorem sheaf_le_of_up (h : s.sheafUp sheaf = true) : (sheaf : Nat) ≤ 6 := by
  simp only [State.sheafUp, Bool.and_eq_true, decide_eq_true_eq] at h
  exact h.1.2

end

end Sys2Proof.Machine

namespace Sys2Proof
open Sys2Proof.Machine

/-- Settles O24: a link's bit follows its failure and restoration, and its test and its direction's move are kept beside it. -/
theorem finanoLinks : Obligations.FinanoLinks := by
  unfold Obligations.FinanoLinks
  refine ⟨?_, ?_, ?_, ?_, ?_, ?_, ?_⟩
  · intro sheaf dir link why s hu hl
    refine Does.intro (exec_finanoLinkFail hu hl) ⟨?_, State.linkChanged_floor _⟩
    rw [State.get_linkChanged, State.get_raise_off _ _ _ _ (by simp [linkBit])]
    exact State.get_put_same _ _ _ _ (linkBit_fits (sheaf_le_of_up hu))
  · exact fun sheaf dir link why s hl => next_congr (if_neg (by simp [hl]))
  · intro sheaf dir s hu ho hm
    refine Does.intro (exec_linkMove hu ho hm) ?_
    rw [State.moved_shedFinano]
    exact tget_tset_same false s.floor.moved _ true
  · exact fun sheaf dir s h => next_congr (if_neg (by rcases h with h | h <;> simp [h]))
  · intro sheaf dir link bad s hu hl
    exact Does.intro (exec_finanoLinkTest hu hl) ⟨tget_tset_same false s.floor.tested _ _, rfl, rfl⟩
  · intro sheaf dir link s hu hl ht
    refine Does.intro (exec_finanoLinkRestore hu hl ht) ⟨?_, (State.linkChanged_floor _).1⟩
    rw [State.get_linkChanged]
    exact State.get_put_same _ _ _ _ (linkBit_fits (sheaf_le_of_up hu))
  · exact fun sheaf dir link s ht => next_congr (if_neg (by simp [ht]))

end Sys2Proof
end

section
/-! Proofs about route entries, their fallback and return, and the resumption of a source (R161 to R172). -/

set_option Elab.async false

namespace Sys2Proof.Machine

/-! The entries of the route tables. -/

/-- A route entry lies in the Floor's block, behind its first page. -/
theorem routeA_bounds {t i : Nat} (h : i < routeN t) : 0x41000 ≤ routeA t i ∧ routeA t i + 8 ≤ 0x45000 := by
  unfold routeN at h
  unfold routeA
  split
  · rw [if_pos ‹_›] at h; simp only [gPage]; omega
  · rw [if_neg ‹_›] at h
    split
    · rw [if_pos ‹_›] at h; simp only [gPage]; omega
    · rw [if_neg ‹_›] at h; simp only [gPage]; omega

theorem blockBase_routeA {t i : Nat} (h : i < routeN t) : blockBase (routeA t i) = flB := by
  obtain ⟨lo, hi⟩ := routeA_bounds h
  have die : dieOf (routeA t i) = 0 := by simp only [dieOf]; omega
  have page : 0x041 ≤ pageOf (routeA t i) ∧ pageOf (routeA t i) < 0x045 := by simp only [pageOf]; omega
  unfold blockBase
  simp only [die]
  rw [if_pos trivial, if_neg (by omega), if_neg (by omega), if_pos (by omega)]
  rfl

/-- The Floor's own registers are none of a route's. -/
theorem routeStat_ne_flB {t i : Nat} (h : i < routeN t) {k : Nat} (hk : k < 0x1000) : routeStatA t i + 0 ≠ flB + k := by
  obtain ⟨lo, hi⟩ := routeA_bounds h
  simp only [routeStatA, flB, gPage]
  omega

section
variable {t i : Nat} (s : State)

theorem State.get_routeEvent (h : i < routeN t) (u j k : Nat) (f : Fld) (hf : f.off = 0) :
    (s.routeEvent u j k).get (routeStatA t i) f = s.get (routeStatA t i) f := by
  have ne {n : Nat} (hn : n < 0x1000) : routeStatA t i + f.off ≠ flB + n := hf ▸ routeStat_ne_flB h hn
  rw [State.routeEvent, State.puts_cons, State.puts_cons, State.puts_cons, State.puts_nil, State.get_put_ne _ _ _ _ (ne (by decide)),
    State.get_put_ne _ _ _ _ (ne (by decide)), State.get_put_ne _ _ _ _ (ne (by decide)), State.get_raise_ne _ _ _ (ne (by decide))]

theorem State.regs_frameRoll (u j : Nat) : (s.frameRoll u j).regs = s.regs :=
  Part.same_of_erase (p := .regs) (by decide) (State.frameRoll_er (m := 512) rfl)

theorem State.get_latencyChange (h : i < routeN t) (u j : Nat) (f : Fld) (hf : f.off = 0) :
    (s.latencyChange u j).get (routeStatA t i) f = s.get (routeStatA t i) f := by
  unfold State.latencyChange
  split
  · rw [State.get_routeEvent _ h _ _ _ _ hf, State.get_setRoute, State.get_of_regs (State.regs_frameRoll _ _ _)]
  · rfl

/-- A path shown in a route's status. -/
theorem State.get_pathPuts (p b : Nat) : (s.puts (routeStatA t i) [(F.ROUTE_STAT_PATH, p), (F.ROUTE_STAT_FALLBACK, b)]).get (routeStatA t i)
      F.ROUTE_STAT_PATH = p % 4 ∧
    (s.puts (routeStatA t i) [(F.ROUTE_STAT_PATH, p), (F.ROUTE_STAT_FALLBACK, b)]).get (routeStatA t i) F.ROUTE_STAT_FALLBACK = b % 2 :=
  ⟨State.get_puts_first _ _ _ _ _ (by decide) rfl, State.get_puts_next _ _ _ _ _ fun _ => State.get_puts_first _ _ _ _ _ (by decide) rfl⟩

end

/-! Measured windows. -/

theorem State.phases_marginTick (s : State) (t i : Nat) : (s.marginTick t i).floor.phases = s.floor.phases := by
  have refresh : (s.marginRefresh t i).floor = s.floor :=
    Part.same_of_erase (p := .floor) (by decide) (State.marginRefresh_er (m := 1) rfl)
  unfold State.marginTick
  dsimp only
  split
  · change (s.marginRefresh t i).floor.phases = _
    rw [refresh]
  · rw [refresh]

/-- The key under which a window is kept. -/
def windowKey (src : Nat) : Dest → Nat
  | .output g => g * 128 + src
  | .ip c => (128 + c) * 128 + src

theorem exec_windowMeasure_phases (src : Fin 96) (dst : Dest) (a b : Int) (s : State) :
    Does (.windowMeasure src dst a b) s fun t => tget (0, 0) t.floor.phases (windowKey src dst) = (a, b) := by
  obtain ⟨u, l, run, set⟩ : ∃ (u : State) (l : List (Nat × Nat)),
      exec (.windowMeasure src dst a b) s = .next (l.foldl (fun v p => v.marginTick p.1 p.2) u) ∧
        tget (0, 0) u.floor.phases (windowKey src dst) = (a, b) := by
    cases dst <;> exact ⟨_, _, rfl, tget_tset_same _ s.floor.phases _ _⟩
  refine Does.intro run (State.foldl_keeps (P := fun v => tget (0, 0) v.floor.phases (windowKey src dst) = (a, b)) (fun p _ v t e hv => ?_) set)
  rw [e, State.phases_marginTick, hv]

/-! Returns that become due. -/

/-- A route whose return becomes due. -/
def State.returnDue (s : State) (p : Nat × Nat) : State := s.setRoute p.1 p.2 { s.route p.1 p.2 with due := 2 }

theorem State.due_returnDue_keeps {s : State} {p : Nat × Nat} (q : Nat × Nat) (h : (s.route p.1 p.2).due = 2) :
    ((s.returnDue q).route p.1 p.2).due = 2 := by
  by_cases e : p.1 * 4096 + p.2 = q.1 * 4096 + q.2
  · have same : (s.returnDue q).route p.1 p.2 = { s.route q.1 q.2 with due := 2 } :=
      (congrArg (tget RouteX.idle (s.returnDue q).floor.routes) e).trans (tget_tset_same _ s.floor.routes _ _)
    rw [same]
  · have other : (s.returnDue q).route p.1 p.2 = s.route p.1 p.2 := tget_tset_ne s.floor.routes _ e
    rw [other, h]

theorem State.due_returnsDue {l : List (Nat × Nat)} {p : Nat × Nat} (h : p ∈ l) (s : State) :
    ((l.foldl State.returnDue s).route p.1 p.2).due = 2 := by
  induction l generalizing s with
  | nil => exact absurd h List.not_mem_nil
  | cons q l ih =>
    rcases List.mem_cons.1 h with rfl | h
    · refine State.foldl_keeps (l := l) (s := s.returnDue p) (P := fun u => (u.route p.1 p.2).due = 2)
        (fun q _ u t e hu => by rw [e]; exact State.due_returnDue_keeps q hu) ?_
      exact congrArg RouteX.due (State.route_setRoute_same s p.1 p.2 _)
    · exact ih h _

theorem State.regs_returnsDue (l : List (Nat × Nat)) (s : State) : (l.foldl State.returnDue s).regs = s.regs :=
  State.foldl_keeps (P := fun u => u.regs = s.regs) (fun q _ u t e hu => by rw [e]; exact hu) rfl

/-! The commands of a route. -/

/-- What the selection of due returns asks of a route (R169, R204). -/
def State.mayReturn (s : State) (domains : BitVec 8) (p : Nat × Nat) : Bool :=
  p.1 < 2 && s.is (routeStatA p.1 p.2) F.ROUTE_STAT_FALLBACK && bitN domains.toNat (s.dstDomain p.1 p.2) && s.windowOk p.1 p.2
    && s.stays p.1 p.2 && !s.effIs (sringA (s.routeSrc p.1 p.2)) F.SRING_CFG_FREEZE

theorem exec_flReexamine {domains : BitVec 8} {s : State} (h0 : s.present 0 = true) :
    exec (.flReexamine domains) s = .next ((s.allRoutes.filter (s.mayReturn domains)).foldl State.returnDue s) :=
  next_congr (State.hostWrite_eq (by decide) h0)

section
variable {table : Fin 2} {entry : Fin 1024} {s : State}

/-- A route that moves to another path: its status, its marks and the events. -/
def State.movesTo (s : State) (t i path fallback event : Nat) : State :=
  (((s.puts (routeStatA t i) [(F.ROUTE_STAT_PATH, path), (F.ROUTE_STAT_FALLBACK, fallback)]).setRoute t i
    { s.route t i with due := 0, good := 0 }).routeEvent t i event).latencyChange t i

theorem State.get_movesTo {t i : Nat} (h : i < routeN t) (path fallback event : Nat) :
    (s.movesTo t i path fallback event).get (routeStatA t i) F.ROUTE_STAT_PATH = path % 4 ∧
      (s.movesTo t i path fallback event).get (routeStatA t i) F.ROUTE_STAT_FALLBACK = fallback % 2 := by
  have kept (f : Fld) (hf : f.off = 0) : (s.movesTo t i path fallback event).get (routeStatA t i) f =
      (s.puts (routeStatA t i) [(F.ROUTE_STAT_PATH, path), (F.ROUTE_STAT_FALLBACK, fallback)]).get (routeStatA t i) f := by
    rw [State.movesTo, State.get_latencyChange _ h _ _ _ hf, State.get_routeEvent _ h _ _ _ _ hf, State.get_setRoute]
  rw [kept _ rfl, kept _ rfl]
  exact s.get_pathPuts path fallback

theorem exec_routeFallback (hi : (entry : Nat) < routeN table) (hd : (s.route table entry).due = 1)
    (hp : s.get (routeStatA table entry) F.ROUTE_STAT_PATH = 1) : exec (.routeFallback table entry) s =
    .next ((s.movesTo table entry 2 1 0).setRoute table entry { (s.movesTo table entry 2 1 0).route table entry with slip := true }) :=
  next_congr (if_pos (by simp [hi, hd, hp]))

theorem exec_routeReturn (hi : (entry : Nat) < routeN table) (hd : (s.route table entry).due = 2)
    (hp : s.is (routeStatA table entry) F.ROUTE_STAT_FALLBACK = true) : exec (.routeReturn table entry) s =
    .next (s.movesTo table entry 1 0 1) :=
  next_congr (if_pos (by simp [hi, hd, hp]))

end

theorem State.regs_setLayer (s : State) (g k : Nat) (l : LayerSt) : (s.setLayer g k l).regs = s.regs :=
  Part.same_of_erase (p := .regs) (by decide) (State.setLayer_er (m := 2048) rfl)

/-- A route whose source delivers again: what follows its status. -/
def State.resumes (s : State) (t i : Nat) : State :=
  let s := if s.get (routeStatA t i) F.ROUTE_STAT_PATH = 1 ∧ !s.windowOk t i then
      s.puts (routeStatA t i) [(F.ROUTE_STAT_PATH, 2), (F.ROUTE_STAT_FALLBACK, 1)] else s
  if t = 0 then s.setLayer (i / 4) (i % 4) { s.layer (i / 4) (i % 4) with fed := true } else s

theorem State.get_resumes (s : State) (t i : Nat) :
    (s.resumes t i).get (routeStatA t i) F.ROUTE_STAT_SOURCE_OK = s.get (routeStatA t i) F.ROUTE_STAT_SOURCE_OK := by
  unfold State.resumes
  dsimp only
  have path (u : State) (he : u = if s.get (routeStatA t i) F.ROUTE_STAT_PATH = 1 ∧ (!s.windowOk t i) = true then
      s.puts (routeStatA t i) [(F.ROUTE_STAT_PATH, 2), (F.ROUTE_STAT_FALLBACK, 1)] else s) :
      u.get (routeStatA t i) F.ROUTE_STAT_SOURCE_OK = s.get (routeStatA t i) F.ROUTE_STAT_SOURCE_OK := by
    rw [he]
    split
    · exact State.get_puts_of_apart _ _ _ _ rfl
    · rfl
  split
  · exact (State.get_of_regs (State.regs_setLayer _ _ _ _) _ _).trans (path _ rfl)
  · exact path _ rfl

theorem exec_routeSourceResume {table : Fin 3} {entry : Fin 1024} {s : State} (hi : (entry : Nat) < routeN table)
    (he : s.effIs (routeA table entry) F.ROUTE_CFG_EN = true) (hl : (s.route table entry).lost = true)
    (hd : s.srcDelivers (s.routeSrc table entry) = true) (hx : s.srcEpoch (s.routeSrc table entry) = (s.route table entry).epoch)
    (hs : s.is (routeStatA table entry) F.ROUTE_STAT_SUSPENDED = false) (hh : s.is (routeStatA table entry) F.ROUTE_STAT_SHED = false) :
    exec (.routeSourceResume table entry) s =
      .next (((((s.setRoute table entry { s.route table entry with lost := false }).put (routeStatA table entry) F.ROUTE_STAT_SOURCE_OK 1).resumes
        table entry).latencyChange table entry).floorLive) :=
  next_congr (if_pos (by simp [hi, he, hl, hd, hx, hs, hh]))

end Sys2Proof.Machine

namespace Sys2Proof
open Sys2Proof.Machine

/-- Settles O23: a route's status follows the path it takes, and the tables beside it keep windows and marks. -/
theorem floorRoutes : Obligations.FloorRoutes := by
  unfold Obligations.FloorRoutes
  refine ⟨?_, ?_, ?_, ?_, ?_, ?_, ?_, ?_, ?_⟩
  · intro table entry v s h0 hi
    have run : exec (.routeCfgWrite table entry v) s = .next (s.shadowPut (routeA table entry) v (routeMask table)) :=
      next_congr ((if_pos hi).trans (State.hostWrite_eq (by decide) h0))
    obtain ⟨eff, only, word, -⟩ := s.shadowPut_spec (routeA table entry) v (routeMask table)
    rw [blockBase_routeA hi] at only word
    have apart : routeA table entry ≠ flB + F.COMMIT_STAT_PENDING.off := by
      have := (routeA_bounds hi).1
      simp only [flB, gPage]; omega
    exact Does.intro run ⟨eff, word apart, only⟩
  · exact fun table entry v s hi => next_congr (if_neg (by omega))
  · exact fun src g a b s => exec_windowMeasure_phases src (.output g) a b s
  · exact fun src c a b s => exec_windowMeasure_phases src (.ip c) a b s
  · intro table entry s hi hd hp
    obtain ⟨path, fallback⟩ := State.get_movesTo (s := s) hi 2 1 0
    refine Does.intro (exec_routeFallback hi hd hp) ⟨?_, ?_, ?_⟩
    · rw [State.get_setRoute, path]
    · rw [State.get_setRoute, fallback]
    · rw [State.route_setRoute_same]
  · intro table entry s hi hd hp
    exact Does.intro (exec_routeReturn hi hd hp) (State.get_movesTo (s := s) hi 1 0 1)
  · intro domains s h0
    refine Does.intro (exec_flReexamine h0) ⟨State.regs_returnsDue _ _, fun p hp h2 hf hb hw hs hz => ?_⟩
    exact State.due_returnsDue (List.mem_filter.2 ⟨hp, by simp [State.mayReturn, h2, hf, hb, hw, hs, hz]⟩) s
  · intro table entry s hi he hl hd hx hs hh
    refine Does.intro (exec_routeSourceResume hi he hl hd hx hs hh) ?_
    have apart : routeStatA table entry + F.ROUTE_STAT_SOURCE_OK.off ≠ flB + 0x1C := routeStat_ne_flB hi (by decide)
    rw [State.get_floorLive _ _ _ apart, State.get_latencyChange _ hi _ _ _ rfl, State.get_resumes]
    exact State.get_put_same _ _ _ _
  · exact fun table entry s hl => next_congr (if_neg (by simp [hl]))

end Sys2Proof
end

section
/-! Proofs about coefficient tables and LUTs of the composers (R230 to R232, R239 to R241, R246, R248). -/

set_option Elab.async false

namespace Sys2Proof.Machine

/-! Coefficients and their words. -/

theorem sgn_unsgn {x : Int} (h : -2048 ≤ x ∧ x ≤ 2047) : sgn 12 (unsgn 12 x) = x := by
  simp only [sgn, unsgn]
  omega

theorem sgn_range (v : Nat) : -2048 ≤ sgn 12 v ∧ sgn 12 v ≤ 2047 := by
  simp only [sgn]
  omega

theorem unsgn_lt (x : Int) : unsgn 12 x < 4096 := by
  simp only [unsgn]
  omega

theorem clampI_range (x : Int) : -2048 ≤ clampI (-2048) 2047 x ∧ clampI (-2048) 2047 x ≤ 2047 := by
  simp only [clampI]
  omega

theorem length_coefsOf (vertical : Bool) (f : Nat → Word) : (coefsOf vertical f).length = tapsOf vertical := by
  simp [coefsOf]

theorem tapsOf_half (vertical : Bool) : tapsOf vertical = 2 * (tapsOf vertical / 2) ∧ tapsOf vertical / 2 ≤ 4 := by
  cases vertical <;> decide

theorem coefsOf_congr {vertical : Bool} {f g : Nat → Word} (h : ∀ w < tapsOf vertical / 2, f w = g w) :
    coefsOf vertical f = coefsOf vertical g := by
  refine List.map_congr_left fun t ht => ?_
  have tap : t < tapsOf vertical := List.mem_range.1 ht
  have half := (tapsOf_half vertical).1
  rw [h _ (by omega)]

theorem coefsOf_range {vertical : Bool} {f : Nat → Word} {x : Int} (h : x ∈ coefsOf vertical f) : -2048 ≤ x ∧ x ≤ 2047 := by
  obtain ⟨t, -, rfl⟩ := List.mem_map.1 h
  exact sgn_range _

/-- The word that keeps two coefficients. -/
def coefWord (c : List Int) (w : Nat) : Word :=
  BitVec.ofNat 32 (unsgn 12 (c.getD (2 * w) 0) + unsgn 12 (c.getD (2 * w + 1) 0) * 0x10000)

theorem fldGet_coefWord (c : List Int) (t : Nat) : fldGet (coefWord c (t / 2)) (16 * (t % 2)) 12 = unsgn 12 (c.getD t 0) := by
  have lo := unsgn_lt (c.getD (2 * (t / 2)) 0)
  have hi := unsgn_lt (c.getD (2 * (t / 2) + 1) 0)
  rcases Nat.mod_two_eq_zero_or_one t with h | h
  · have even : 2 * (t / 2) = t := by omega
    rw [even] at lo
    simp only [fldGet, coefWord, BitVec.toNat_ofNat, even, h]
    omega
  · have odd : 2 * (t / 2) + 1 = t := by omega
    rw [odd] at hi
    simp only [fldGet, coefWord, BitVec.toNat_ofNat, odd, h]
    omega

/-- Coefficients within 12 bits are read as they were stored. -/
theorem coefsOf_coefWord {vertical : Bool} {c : List Int} (hl : c.length = tapsOf vertical) (hr : ∀ x ∈ c, -2048 ≤ x ∧ x ≤ 2047) :
    coefsOf vertical (coefWord c) = c := by
  refine List.ext_getElem (by rw [length_coefsOf, hl]) fun t h1 h2 => ?_
  simp only [coefsOf, List.getElem_map, List.getElem_range, fldGet_coefWord, List.getD_eq_getElem c 0 h2]
  exact sgn_unsgn (hr _ (List.getElem_mem h2))

theorem length_normalise (vertical : Bool) (phase : Nat) (c : List Int) : (normalise vertical phase c).1.length = c.length := by
  simp only [normalise]
  split
  · rfl
  · exact List.length_set

theorem normalise_range {vertical : Bool} {phase : Nat} {c : List Int} (h : ∀ x ∈ c, -2048 ≤ x ∧ x ≤ 2047) {x : Int}
    (hx : x ∈ (normalise vertical phase c).1) : -2048 ≤ x ∧ x ≤ 2047 := by
  simp only [normalise] at hx
  split at hx
  · exact h x hx
  · rcases List.mem_or_eq_of_mem_set hx with hx | rfl
    · exact h x hx
    · exact clampI_range _

/-! The words of a table. -/

/-- Words that a fold writes at different addresses. -/
theorem State.rd_forAll_wr {a : Nat → Nat} {v : Nat → Word} (ha : ∀ i j, a i = a j → i = j) {l : List Nat} {i : Nat} (h : i ∈ l) (s : State) :
    (s.forAll l fun j u => u.wr (a j) (v j)).rd (a i) = v i := by
  have step (j : Nat) (u : State) (hu : u.rd (a i) = v i ∨ j = i) : (u.wr (a j) (v j)).rd (a i) = v i := by
    by_cases e : j = i
    · rw [e, State.rd_wr_same]
    · rw [State.rd_wr_ne _ _ fun k => e (ha _ _ k).symm]
      exact hu.resolve_right e
  unfold State.forAll
  induction l generalizing s with
  | nil => exact absurd h List.not_mem_nil
  | cons j l ih =>
    by_cases m : i ∈ l
    · exact ih m _
    · have e : j = i := ((List.mem_cons.1 h).resolve_right m).symm
      exact State.foldl_keeps (l := l) (P := fun u => u.rd (a i) = v i) (fun k _ u t et hu => by rw [et]; exact step k u (.inl hu))
        (step j s (.inr e))

theorem State.comp_of_comps {s t : State} (h : t.comps = s.comps) (g : Nat) : t.comp g = s.comp g := by rw [State.comp, h, State.comp]

section
variable (s : State) (p l : Nat) (vertical : Bool) (phase : Nat)

theorem coefA_inj {i j : Nat} (h : coefA p l vertical phase i = coefA p l vertical phase j) : i = j := by
  simp only [coefA] at h; omega

theorem State.rd_coefStore_ne (c : List Int) {a : Nat} (h : ∀ w < 4, a ≠ coefA p l vertical phase w) :
    (s.coefStore p l vertical phase c).rd a = s.rd a :=
  State.rd_forAll fun w hw u => u.rd_wr_ne _ (h w (by
    have := List.mem_range.1 hw
    have := (tapsOf_half vertical).2
    omega))

theorem State.comps_coefStore (c : List Int) : (s.coefStore p l vertical phase c).comps = s.comps :=
  Part.same_of_erase (p := .comps) (m := 1) (by decide) (State.forAll_er rfl fun _ _ => State.wr_er rfl)

/-- The coefficients of a phase after it is stored. -/
theorem State.coefs_coefStore {c : List Int} (hl : c.length = tapsOf vertical) (hr : ∀ x ∈ c, -2048 ≤ x ∧ x ≤ 2047)
    (hb : tget false (s.comp p).badCoef (badKey l vertical phase) = false) :
    (s.coefStore p l vertical phase c).coefs p l vertical phase = c := by
  have words : ∀ w < tapsOf vertical / 2, (s.coefStore p l vertical phase c).rd (coefA p l vertical phase w) = coefWord c w :=
    fun w hw => State.rd_forAll_wr (fun i j => coefA_inj p l vertical phase) (List.mem_range.2 hw) s
  rw [State.coefs, State.comp_of_comps (s.comps_coefStore p l vertical phase c), hb]
  exact (coefsOf_congr words).trans (coefsOf_coefWord hl hr)

theorem State.coefs_congr {s t : State} (hc : t.comp p = s.comp p)
    (hw : ∀ w < 4, t.rd (coefA p l vertical phase w) = s.rd (coefA p l vertical phase w)) :
    t.coefs p l vertical phase = s.coefs p l vertical phase := by
  have words : ∀ w < tapsOf vertical / 2, t.rd (coefA p l vertical phase w) = s.rd (coefA p l vertical phase w) :=
    fun w h => hw w (Nat.lt_of_lt_of_le h (tapsOf_half vertical).2)
  rw [State.coefs, State.coefs, hc, coefsOf_congr words]

theorem State.regs_tableWritten : (s.tableWritten p l vertical).regs = s.regs := State.setComp_regs _ _ _

theorem State.rd_tableWritten (a : Nat) : (s.tableWritten p l vertical).rd a = s.rd a :=
  State.rd_of_regs (s.regs_tableWritten p l vertical) a

/-- A table that is written has no faulty phase. -/
theorem State.badCoef_tableWritten (hp : phase < 64) :
    tget false ((s.tableWritten p l vertical).comp p).badCoef (badKey l vertical phase) = false := by
  rw [State.tableWritten, State.comp_setComp_same]
  have none : ((s.comp p).badCoef.filter fun q => q.1 / 64 != 2 * l + b2n vertical).find? (fun q => q.1 == badKey l vertical phase) = none := by
    refine List.find?_eq_none.2 fun q hq e => ?_
    have other := (List.mem_filter.1 hq).2
    have key : q.1 = badKey l vertical phase := by simpa using e
    have : q.1 / 64 = 2 * l + b2n vertical := by rw [key, badKey]; omega
    simp [this] at other
  simp only [tget, none]

end

/-! A coefficient write in one pipe. -/

/-- The coefficients of a phase with a new word among them (R231). -/
def State.newCoefs (s : State) (p : Nat) (c : CoefAddr) (v : Word) : List Int × Bool :=
  normalise c.vertical c.phase (coefsOf c.vertical fun w =>
    if w = c.word then v &&& 0x0FFF0FFF else s.rd (coefA p c.layer c.vertical c.phase w))

/-- The word written, and its phase stored normalised. -/
def State.coefPhase (s : State) (c : CoefAddr) (v : Word) (p : Nat) : State :=
  ((s.wr (coefA p c.layer c.vertical c.phase c.word) (v &&& 0x0FFF0FFF)).tableWritten p c.layer c.vertical).coefStore p c.layer c.vertical
    c.phase (s.newCoefs p c v).1

/-- A coefficient write in one pipe. -/
def State.coefPut (s : State) (c : CoefAddr) (v : Word) (p : Nat) : State :=
  if (s.newCoefs p c v).2 then ((s.coefPhase c v p).put (compB p)
    (if c.layer.val = 0 then F.COEF_CTRL_NORM_V1 else F.COEF_CTRL_NORM_V2) 1).raise (compB p) 7 else s.coefPhase c v p

theorem State.coefs_written (s : State) (c : CoefAddr) (v : Word) (p : Nat) :
    ((s.wr (coefA p c.layer c.vertical c.phase c.word) (v &&& 0x0FFF0FFF)).tableWritten p c.layer c.vertical).coefs p c.layer c.vertical c.phase =
      coefsOf c.vertical fun w => if w = c.word then v &&& 0x0FFF0FFF else s.rd (coefA p c.layer c.vertical c.phase w) := by
  rw [State.coefs, State.badCoef_tableWritten _ _ _ _ _ c.phase.isLt, if_neg Bool.false_ne_true]
  refine coefsOf_congr fun w _ => ?_
  rw [State.rd_tableWritten]
  split
  · rename_i e
    rw [e, State.rd_wr_same]
  · exact State.rd_wr_ne _ _ fun e => ‹¬w = c.word› (coefA_inj _ _ _ _ e)

section
variable {g : Fin 96} {c : CoefAddr} {v : Word} {s : State}

theorem coefWord_exists (h : ¬ (c.vertical = true ∧ c.word = 3)) : (c.vertical && c.word.val == 3) = false := by
  rw [Bool.eq_false_iff]
  intro k
  obtain ⟨hv, hc⟩ := Bool.and_eq_true_iff.1 k
  exact h ⟨hv, Fin.ext (beq_iff_eq.1 hc)⟩

theorem sheafOf_ne_yumen (g : Fin 96) : (g : Nat) / 16 + 1 ≠ 7 := by omega

theorem exec_coefWrite (hp : s.present (g / 16 + 1) = true) (hm : s.outMember g = false)
    (hw : ¬ (c.vertical = true ∧ c.word = 3)) (hl : s.coefLocked g c.layer = false) :
    exec (.coefWrite g c v) s = .next ((s.outGroup g).foldl (fun u p => u.coefPut c v p) s) := by
  change execCoefWrite g c v s = _
  simp only [execCoefWrite, State.hostWrite_eq (sheafOf_ne_yumen g) hp, hm, coefWord_exists hw, hl, Bool.false_eq_true, if_false,
    State.coefs_written]
  rfl

theorem exec_coefWrite_locked (hp : s.present (g / 16 + 1) = true) (hm : s.outMember g = false)
    (hw : ¬ (c.vertical = true ∧ c.word = 3)) (hl : s.coefLocked g c.layer = true) :
    exec (.coefWrite g c v) s = .next (s.coefRefuse g) := by
  change execCoefWrite g c v s = _
  simp only [execCoefWrite, State.hostWrite_eq (sheafOf_ne_yumen g) hp, hm, coefWord_exists hw, hl, Bool.false_eq_true, if_false, if_true]

theorem exec_coefWrite_member (hp : s.present (g / 16 + 1) = true) (hm : s.outMember g = true) :
    exec (.coefWrite g c v) s = .next (s.raise (compB g) 5) := by
  change execCoefWrite g c v s = _
  simp only [execCoefWrite, State.hostWrite_eq (sheafOf_ne_yumen g) hp, hm, if_true]

end

/-- An address outside the pages of pipe p's composer. -/
def OutsideComp (p a : Nat) : Prop := a < compB p ∨ compB p + 0x4000 ≤ a

theorem coefA_bounds (p : Nat) (l : Fin 2) (vertical : Bool) {phase w : Nat} (hp : phase < 64) (hw : w < 4) :
    compB p + 0x1000 ≤ coefA p l vertical phase w ∧ coefA p l vertical phase w < compB p + 0x2000 := by
  have : b2n vertical ≤ 1 := by cases vertical <;> decide
  simp only [coefA]
  omega

theorem outsideComp_of_ne {p q k : Nat} (h : p ≠ q) (hk : k < 0x4000) : OutsideComp p (compB q + k) := by
  simp only [OutsideComp, compB, portPage]
  omega

theorem outsideComp_coefA {p q : Nat} (h : p ≠ q) (l : Fin 2) (vertical : Bool) {phase w : Nat} (hp : phase < 64) (hw : w < 4) :
    OutsideComp p (coefA q l vertical phase w) := by
  obtain ⟨lo, hi⟩ := coefA_bounds q l vertical hp hw
  have := outsideComp_of_ne (k := coefA q l vertical phase w - compB q) h (by omega)
  rwa [Nat.add_sub_of_le (by omega)] at this

section
variable (s : State) (c : CoefAddr) (v : Word) {p : Nat}

theorem State.comp_coefPhase : (s.coefPhase c v p).comp p =
    ((s.wr (coefA p c.layer c.vertical c.phase c.word) (v &&& 0x0FFF0FFF)).tableWritten p c.layer c.vertical).comp p :=
  State.comp_of_comps (State.comps_coefStore _ _ _ _ _ _) p

/-- A write of the composer's own registers leaves the coefficients. -/
theorem State.coefs_coefNorm (u : State) (f : Fld) (hf : f.off < 0x1000) :
    ((u.put (compB p) f 1).raise (compB p) 7).coefs p c.layer c.vertical c.phase = u.coefs p c.layer c.vertical c.phase := by
  refine State.coefs_congr _ _ _ _ (State.comp_of_comps ((State.raise_comps _ _ _).trans (State.put_comps _ _ _ _)) p) fun w hw => ?_
  have := (coefA_bounds p c.layer c.vertical c.phase.isLt hw).1
  rw [State.rd_raise_ne _ _ (by omega), State.rd_put_ne _ _ _ (by omega)]

theorem State.coefs_coefPut_same : (s.coefPut c v p).coefs p c.layer c.vertical c.phase = (s.newCoefs p c v).1 := by
  have phase : (s.coefPhase c v p).coefs p c.layer c.vertical c.phase = (s.newCoefs p c v).1 := by
    refine State.coefs_coefStore _ _ _ _ _ ?_ (fun x hx => normalise_range (fun y => coefsOf_range) hx)
      (State.badCoef_tableWritten _ _ _ _ _ c.phase.isLt)
    rw [State.newCoefs, length_normalise, length_coefsOf]
  unfold State.coefPut
  split
  · rw [State.coefs_coefNorm _ _ _ (by split <;> decide), phase]
  · exact phase

theorem State.rd_coefPut_ne {a : Nat} (h : OutsideComp p a) : (s.coefPut c v p).rd a = s.rd a := by
  have out : a < compB p ∨ compB p + 0x4000 ≤ a := h
  have away {w : Nat} (hw : w < 4) : a ≠ coefA p c.layer c.vertical c.phase w := by
    have := coefA_bounds p c.layer c.vertical c.phase.isLt hw
    omega
  have phase : (s.coefPhase c v p).rd a = s.rd a := by
    rw [State.coefPhase, State.rd_coefStore_ne _ _ _ _ _ _ fun w hw => away hw, State.rd_tableWritten,
      State.rd_wr_ne _ _ (away c.word.isLt)]
  unfold State.coefPut
  split
  · have small (f : Fld) (hf : f.off < 0x1000) : a ≠ compB p + f.off := by omega
    rw [State.rd_raise_ne _ _ (by omega), State.rd_put_ne _ _ _ (small _ (by split <;> decide)), phase]
  · exact phase

theorem State.comp_coefPut_ne {q : Nat} (h : q ≠ p) : (s.coefPut c v p).comp q = s.comp q := by
  have phase : (s.coefPhase c v p).comp q = s.comp q := by
    rw [State.coefPhase, State.comp_of_comps (State.comps_coefStore _ _ _ _ _ _), State.tableWritten, State.comp_setComp_ne _ _ _ h]
    exact State.comp_of_comps (State.wr_comps _ _ _) q
  unfold State.coefPut
  split
  · rw [State.comp_of_comps ((State.raise_comps _ _ _).trans (State.put_comps _ _ _ _)), phase]
  · exact phase

theorem State.coefs_coefPut_ne {q : Nat} (h : q ≠ p) :
    (s.coefPut c v p).coefs q c.layer c.vertical c.phase = s.coefs q c.layer c.vertical c.phase :=
  State.coefs_congr _ _ _ _ (s.comp_coefPut_ne c v h) fun _ hw =>
    s.rd_coefPut_ne c v (outsideComp_coefA h.symm c.layer c.vertical c.phase.isLt hw)

theorem State.newCoefs_coefPut_ne {q : Nat} (h : q ≠ p) : (s.coefPut c v p).newCoefs q c v = s.newCoefs q c v := by
  have words : ∀ w < tapsOf c.vertical / 2, (if w = c.word then v &&& 0x0FFF0FFF else (s.coefPut c v p).rd (coefA q c.layer c.vertical c.phase w)) =
      if w = c.word then v &&& 0x0FFF0FFF else s.rd (coefA q c.layer c.vertical c.phase w) := fun w hw => by
    rw [s.rd_coefPut_ne c v (outsideComp_coefA h.symm c.layer c.vertical c.phase.isLt (Nat.lt_of_lt_of_le hw (tapsOf_half _).2))]
  rw [State.newCoefs, State.newCoefs, coefsOf_congr words]

/-- The coefficients of each pipe of a group after a write. -/
theorem State.coefs_coefPuts {l : List Nat} (hl : l.Nodup) (hp : p ∈ l) :
    (l.foldl (fun u q => u.coefPut c v q) s).coefs p c.layer c.vertical c.phase = (s.newCoefs p c v).1 := by
  induction l generalizing s with
  | nil => exact absurd hp List.not_mem_nil
  | cons q l ih =>
    obtain ⟨hq, hl⟩ := List.nodup_cons.1 hl
    by_cases e : p = q
    · subst e
      refine State.foldl_keeps (l := l) (s := s.coefPut c v p)
        (P := fun u => u.coefs p c.layer c.vertical c.phase = (s.newCoefs p c v).1) (fun r hr u t et hu => ?_) (s.coefs_coefPut_same c v)
      rw [et, u.coefs_coefPut_ne c v fun k : p = r => hq (k ▸ hr), hu]
    · exact (ih (s.coefPut c v q) hl ((List.mem_cons.1 hp).resolve_left e)).trans (congrArg Prod.fst (s.newCoefs_coefPut_ne c v e))

end

theorem nodup_outGroup (s : State) (g : Nat) : (s.outGroup g).Nodup := by
  unfold State.outGroup
  split
  · simp
  · simp

end Sys2Proof.Machine
end

section
/-! Proofs about restored coefficient tables, LUTs and faults of a composer's memories (R230, R239 to R241, R248). -/

set_option Elab.async false

namespace Sys2Proof.Machine

/-! Restored tables. -/

/-- The reset values of a table's words, before the marks of the table. -/
def State.tableReset (s : State) (g layer : Nat) : State :=
  s.forAll (List.range 512) fun w t => t.wr (compB g + 0x1000 + 0x800 * layer + 4 * w) (resetWord (compB g + 0x1000 + 0x800 * layer + 4 * w))

section
variable (s : State) (g layer : Nat)

theorem State.rd_coefReload (a : Nat) (h : a ≠ compB g + 0x90) : (s.coefReload g layer).rd a = (s.tableReset g layer).rd a := by
  unfold State.coefReload State.tableReset
  dsimp only
  rw [State.rd_put_ne _ _ _ (by split <;> exact h), State.rd_tableWritten, State.rd_tableWritten]

theorem State.rd_tableReset_same {w : Nat} (h : w < 512) : (s.tableReset g layer).rd (compB g + 0x1000 + 0x800 * layer + 4 * w) =
    resetWord (compB g + 0x1000 + 0x800 * layer + 4 * w) :=
  State.rd_forAll_wr (a := fun w => compB g + 0x1000 + 0x800 * layer + 4 * w)
    (v := fun w => resetWord (compB g + 0x1000 + 0x800 * layer + 4 * w)) (fun i j e => by omega) (List.mem_range.2 h) s

theorem State.rd_tableReset_ne {a : Nat} (h : ∀ w < 512, a ≠ compB g + 0x1000 + 0x800 * layer + 4 * w) :
    (s.tableReset g layer).rd a = s.rd a :=
  State.rd_forAll fun w hw u => u.rd_wr_ne _ (h w (List.mem_range.1 hw))

end

/-- The tables of a layer taken to their reset values in one pipe. -/
def State.reloadPut (s : State) (layer p : Nat) : State := (s.coefReload p layer).raise (compB p) 7

section
variable (s : State) {layer p : Nat}

theorem State.rd_reloadPut_same {w : Nat} (hw : w < 512) : (s.reloadPut layer p).rd (compB p + 0x1000 + 0x800 * layer + 4 * w) =
    resetWord (compB p + 0x1000 + 0x800 * layer + 4 * w) := by
  rw [State.reloadPut, State.rd_raise_ne _ _ (by omega), State.rd_coefReload _ _ _ _ (by omega), State.rd_tableReset_same _ _ _ hw]

theorem State.rd_reloadPut_ne (hl : layer < 2) {a : Nat} (h : OutsideComp p a ∨ ∃ l w, l ≠ layer ∧ l < 2 ∧ w < 512 ∧
    a = compB p + 0x1000 + 0x800 * l + 4 * w) : (s.reloadPut layer p).rd a = s.rd a := by
  have away : a ≠ compB p + 0x10 ∧ a ≠ compB p + 0x90 ∧ ∀ w < 512, a ≠ compB p + 0x1000 + 0x800 * layer + 4 * w := by
    rcases h with h | ⟨l, w, hn, hl', hw, rfl⟩
    · have out : a < compB p ∨ compB p + 0x4000 ≤ a := h
      exact ⟨by omega, by omega, fun w hw => by omega⟩
    · exact ⟨by omega, by omega, fun v hv => by omega⟩
  obtain ⟨h1, h2, h3⟩ := away
  rw [State.reloadPut, State.rd_raise_ne _ _ h1, State.rd_coefReload _ _ _ _ h2, State.rd_tableReset_ne _ _ _ h3]

end

/-- Every word of the named layers' tables of a pipe reads its reset value. -/
def State.TablesReset (s : State) (p layer : Nat) : Prop :=
  ∀ w < 512, s.rd (compB p + 0x1000 + 0x800 * layer + 4 * w) = resetWord (compB p + 0x1000 + 0x800 * layer + 4 * w)

theorem State.TablesReset.reloadPut {s : State} {p l : Nat} (h : s.TablesReset p l) (hl : l < 2) {layer : Nat} (hr : layer < 2) (q : Nat) :
    (s.reloadPut layer q).TablesReset p l := by
  intro w hw
  by_cases e : q = p ∧ layer = l
  · obtain ⟨rfl, rfl⟩ := e
    exact s.rd_reloadPut_same hw
  · rw [State.rd_reloadPut_ne _ hr, h w hw]
    by_cases k : q = p
    · exact .inr ⟨l, w, fun m => e ⟨k, m.symm⟩, hl, hw, by rw [k]⟩
    · have := outsideComp_of_ne (p := q) (q := p) (k := 0x1000 + 0x800 * l + 4 * w) k (by omega)
      exact .inl (by simpa only [Nat.add_assoc] using this)

theorem State.tablesReset_reloads {l : List Nat} {p layer : Nat} (h : p ∈ l) (hr : layer < 2) (s : State) :
    (l.foldl (fun u q => u.reloadPut layer q) s).TablesReset p layer := by
  induction l generalizing s with
  | nil => exact absurd h List.not_mem_nil
  | cons q l ih =>
    by_cases m : p ∈ l
    · exact ih m _
    · have e : p = q := (List.mem_cons.1 h).resolve_right m
      subst e
      exact State.foldl_keeps (l := l) (P := fun u => u.TablesReset p layer) (fun r _ u t et hu => et ▸ hu.reloadPut hr hr r)
        fun w hw => s.rd_reloadPut_same hw

/-- An output's own page is none of a composer's. -/
theorem outsideComp_outB (p g k : Nat) (hk : k < 0x1000) : OutsideComp p (outB g + k) := by
  simp only [OutsideComp, compB, outB, portPage]
  omega

/-- The reload of one layer in each pipe of a group, where the layer is named. -/
def State.restoreLayer (s : State) (g layers l : Nat) : State :=
  if !bitN layers l then s
  else if s.coefLocked g l then s.coefRefuse g
  else (s.outGroup g).foldl (fun u p => u.reloadPut l p) s

section
variable {g : Fin 96} {layers : Fin 4} {s : State}

theorem exec_coefRestore (hp : s.present (g / 16 + 1) = true) (hm : s.outMember g = false) :
    exec (.coefRestore g layers) s = .next ((s.restoreLayer g layers 0).restoreLayer g layers 1) := by
  change execCoefRestore g layers s = _
  simp only [execCoefRestore, State.hostWrite_eq (sheafOf_ne_yumen g) hp, hm, Bool.false_eq_true, if_false]
  rfl

end

/-- The reload of a stopped output's tables leaves the output's page. -/
theorem State.rd_restoreLayer {s : State} {g layers l : Nat} (hl : l < 2) (hs : s.outStopped g = true) {k o : Nat} (hk : k < 0x1000) :
    (s.restoreLayer g layers l).rd (outB o + k) = s.rd (outB o + k) := by
  have open' : s.coefLocked g l = false := by simp [State.coefLocked, hs]
  unfold State.restoreLayer
  rw [open', if_neg Bool.false_ne_true]
  split
  · rfl
  · exact State.rd_foldl fun p _ u => u.rd_reloadPut_ne hl (.inl (outsideComp_outB p o k hk))

theorem State.tablesReset_restoreLayer {s : State} {g layers l p : Nat} (hl : l < 2) (hs : s.outStopped g = true)
    (hb : bitN layers l = true) (hp : p ∈ s.outGroup g) : (s.restoreLayer g layers l).TablesReset p l := by
  have open' : s.coefLocked g l = false := by simp [State.coefLocked, hs]
  unfold State.restoreLayer
  rw [hb, open', if_neg (by simp), if_neg Bool.false_ne_true]
  exact State.tablesReset_reloads hp hl s

theorem State.TablesReset.restoreLayer {s : State} {g layers l p k : Nat} (h : s.TablesReset p k) (hk : k < 2) (hl : l < 2)
    (hs : s.outStopped g = true) : (s.restoreLayer g layers l).TablesReset p k := by
  have open' : s.coefLocked g l = false := by simp [State.coefLocked, hs]
  unfold State.restoreLayer
  rw [open', if_neg Bool.false_ne_true]
  split
  · exact h
  · exact State.foldl_keeps (P := fun u => u.TablesReset p k) (fun q _ u t e hu => e ▸ hu.reloadPut hk hl q) h

/-- The output's group and its being stopped, from its page. -/
theorem State.outGroup_congr {s t : State} (h : ∀ o k, k < 0x1000 → t.rd (outB o + k) = s.rd (outB o + k)) (g : Nat) :
    t.outGroup g = s.outGroup g ∧ t.outStopped g = s.outStopped g := by
  have bond : t.outBonded g = s.outBonded g := State.is_of_rd (h _ _ (by decide))
  have stopped : t.outStopped g = s.outStopped g := State.is_of_rd (h _ _ (by decide))
  exact ⟨by rw [State.outGroup, State.outGroup, bond], stopped⟩

/-! LUTs. -/

theorem State.lutEntry_eq_tget (s : State) (g bank table i : Nat) :
    s.lutEntry g bank table i = tget (lutReset table i) (s.comp g).luts (i * 8 + bank * 4 + table) := by
  unfold State.lutEntry tget
  cases (s.comp g).luts.find? fun p => p.1 == i * 8 + bank * 4 + table <;> rfl

/-- The entry of a LUT stored in one pipe. -/
def State.lutPut (s : State) (bank table i : Nat) (e : Nat × Nat × Nat) (p : Nat) : State :=
  s.setComp p { s.comp p with luts := tset (lutReset table i) (s.comp p).luts (i * 8 + bank * 4 + table) e }

section
variable (s : State) (bank table i : Nat) (e : Nat × Nat × Nat)

theorem State.lutEntry_lutPut_same (p : Nat) : (s.lutPut bank table i e p).lutEntry p bank table i = e := by
  rw [State.lutEntry_eq_tget, State.lutPut, State.comp_setComp_same]
  exact tget_tset_same _ _ _ e

theorem State.lutEntry_lutPut_ne {p q : Nat} (h : q ≠ p) : (s.lutPut bank table i e p).lutEntry q bank table i = s.lutEntry q bank table i := by
  rw [State.lutEntry_eq_tget, State.lutEntry_eq_tget, State.lutPut, State.comp_setComp_ne _ _ _ h]

theorem State.lutEntry_lutPuts {l : List Nat} {p : Nat} (h : p ∈ l) :
    (l.foldl (fun u q => u.lutPut bank table i e q) s).lutEntry p bank table i = e := by
  have step (u : State) (q : Nat) (hu : u.lutEntry p bank table i = e ∨ p = q) : (u.lutPut bank table i e q).lutEntry p bank table i = e := by
    by_cases k : p = q
    · rw [k, State.lutEntry_lutPut_same]
    · rw [State.lutEntry_lutPut_ne _ _ _ _ _ k, hu.resolve_right k]
  induction l generalizing s with
  | nil => exact absurd h List.not_mem_nil
  | cons q l ih =>
    by_cases m : p ∈ l
    · exact ih _ m
    · exact State.foldl_keeps (l := l) (P := fun u => u.lutEntry p bank table i = e) (fun r _ u t et hu => et ▸ step u r (.inl hu))
        (step s q (.inr ((List.mem_cons.1 h).resolve_right m)))

theorem State.regs_lutPuts (l : List Nat) : (l.foldl (fun u q => u.lutPut bank table i e q) s).regs = s.regs :=
  State.foldl_keeps (P := fun u => u.regs = s.regs) (fun q _ u t et hu => by rw [et]; exact hu) rfl

end

theorem State.lutInc_regs (s : State) (g : Nat) : OnlyRegs [compB g + 0x2000 + F.LUT_ADDR_INDEX.off] s (s.lutInc g) := by
  unfold State.lutInc
  dsimp only
  split
  · exact (OnlyRegs.refl _ s).put List.mem_cons_self
  · exact OnlyRegs.refl _ s

@[simp] theorem State.lutInc_comps (s : State) (g : Nat) : (s.lutInc g).comps = s.comps := by
  unfold State.lutInc
  dsimp only
  split
  · rfl
  · rfl

@[simp] theorem State.lutInc_readData (s : State) (g : Nat) : (s.lutInc g).readData = s.readData := by
  unfold State.lutInc
  dsimp only
  split
  · rfl
  · rfl

theorem State.lutEntry_of_comps {s t : State} (h : t.comps = s.comps) (g bank table i : Nat) :
    t.lutEntry g bank table i = s.lutEntry g bank table i := by
  rw [State.lutEntry_eq_tget, State.lutEntry_eq_tget, State.comp_of_comps h]

section
variable {g : Fin 96} {v : Word} {s : State}

theorem exec_lutWrite (hp : s.present (g / 16 + 1) = true) (hm : s.outMember g = false)
    (hb : s.get (compB g + 0x2000) F.LUT_ADDR_BANK ≠ s.effGet (compB g) F.COMP_COLOR_LUT_BANK) (ha : s.bankArmed g = false)
    (hi : s.get (compB g + 0x2000) F.LUT_ADDR_INDEX < lutSize (s.lutTable g)) : exec (.lutWrite g v) s =
      .next (((s.outGroup g).foldl (fun u p => u.lutPut (s.get (compB g + 0x2000) F.LUT_ADDR_BANK) (s.lutTable g)
        (s.get (compB g + 0x2000) F.LUT_ADDR_INDEX)
        (s.get (compB g + 0x2000) F.LUT_DATA0_C0, s.get (compB g + 0x2000) F.LUT_DATA0_C1, fldGet v 0 14) p) s).lutInc g) := by
  change execLutWrite g v s = _
  simp only [execLutWrite, State.hostWrite_eq (sheafOf_ne_yumen g) hp, hm, hb, ha, Nat.not_le.2 hi, Bool.false_eq_true, if_false, decide_false, Bool.or_self]
  rfl

theorem exec_lutWrite_refused (hp : s.present (g / 16 + 1) = true) (hm : s.outMember g = false)
    (h : s.get (compB g + 0x2000) F.LUT_ADDR_BANK = s.effGet (compB g) F.COMP_COLOR_LUT_BANK ∨ s.bankArmed g = true) :
    exec (.lutWrite g v) s = .next ((s.raise (compB g) 5).lutInc g) := by
  have cond : (decide (s.get (compB g + 0x2000) F.LUT_ADDR_BANK = s.effGet (compB g) F.COMP_COLOR_LUT_BANK) || s.bankArmed g ||
      decide (lutSize (s.lutTable g) ≤ s.get (compB g + 0x2000) F.LUT_ADDR_INDEX)) = true := by
    rcases h with h | h <;> simp [h]
  change execLutWrite g v s = _
  simp only [execLutWrite, State.hostWrite_eq (sheafOf_ne_yumen g) hp, hm, cond, Bool.false_eq_true, if_false, if_true]

theorem exec_lutRead (hp : s.present (g / 16 + 1) = true) : exec (.lutRead g) s =
    .next ((s.answer (BitVec.ofNat 32 (s.lutAt g).2.2)).lutInc g) := next_congr (if_pos hp)

/-! Faults of a composer's memories. -/

theorem State.effGet_of_eff {s t : State} (h : t.eff = s.eff) (b : Nat) (f : Fld) : t.effGet b f = s.effGet b f := by
  simp only [State.effGet, State.effRd, h]

theorem State.setFault_eff (b array index : Nat) : (s.setFault b array index).eff = s.eff :=
  (State.put_eff _ _ _ _).trans (State.wr_eff _ _ _)

theorem State.setFault_comps (b array index : Nat) : (s.setFault b array index).comps = s.comps :=
  (State.put_comps _ _ _ _).trans (State.wr_comps _ _ _)

/-- A fault's record leaves the output's group and the values in effect. -/
theorem State.outMember_setFault (p array index o : Nat) : (s.setFault (compB p) array index).outMember o = s.outMember o := by
  have bond : (s.setFault (compB p) array index).outBonded o = s.outBonded o := by
    refine State.is_of_rd ((State.rd_put_ne _ _ _ ?_).trans (State.rd_wr_ne _ _ ?_))
    · simp only [compB, outB, portPage]; omega
    · simp only [compB, outB, portPage]; omega
  rw [State.outMember, State.outMember, bond]

theorem exec_composerUe_table {u : CompUe} (hp : s.present (g / 16 + 1) = true) (h8 : 8 ≤ u.array.val) (h10 : u.array.val < 10) :
    ∃ t : State, exec (.composerUe g u) s = .next ((t.setComp g { t.comp g with
      badCoef := tset false (t.comp g).badCoef (badKey (u.array.val - 8) u.vertical (u.unit % 64)) true }).raise (compB g) 6) := by
  refine ⟨s.setFault (compB g) u.array u.index, ?_⟩
  change execComposerUe g u s = _
  simp only [execComposerUe, hp, if_true]
  rw [if_neg (by omega), if_neg (by omega), if_neg (by omega)]

theorem exec_composerUe_lut {u : CompUe} (hp : s.present (g / 16 + 1) = true) (h2 : 2 ≤ u.array.val) (h8 : u.array.val < 8)
    (hb : u.array.val % 2 = s.effGet (compB (if s.outMember g = true then g - g % 4 else g)) F.COMP_COLOR_LUT_BANK) :
    ∃ bit, exec (.composerUe g u) s = .next ((((s.setFault (compB g) u.array u.index).cause (compB g) F.COMP_STAT_LUT_BYPASS bit).raise
      (compB g) 6).live (compB g) 6 true) := by
  have eff (b : Nat) (f : Fld) : (s.setFault (compB g) u.array u.index).effGet b f = s.effGet b f :=
    State.effGet_of_eff (State.setFault_eff _ _ _) b f
  refine ⟨if u.array.val < 4 then 1 else if u.array.val < 6 then 0 else 2, ?_⟩
  change execComposerUe g u s = _
  simp only [execComposerUe, hp, if_true, State.outMember_setFault]
  rw [if_neg (by omega), if_neg (by omega), if_pos h8, eff, if_pos hb]

end

end Sys2Proof.Machine

namespace Sys2Proof
open Sys2Proof.Machine

/-- Settles O27: each pipe of the group takes the coefficients and entries, and a fault marks what it spoiled. -/
theorem composerTables : Obligations.ComposerTables := by
  unfold Obligations.ComposerTables
  refine ⟨?_, ?_, ?_, ?_, ?_, ?_, ?_, ?_, ?_⟩
  · intro g c v p s hp hm hw hl hg
    exact Does.intro (exec_coefWrite hp hm hw hl) (s.coefs_coefPuts c v (nodup_outGroup s g) hg)
  · exact fun g c v s hp hm hw hl => exec_coefWrite_locked hp hm hw hl
  · exact fun g c v s hp hm => exec_coefWrite_member hp hm
  · intro g layers s hp hm hs
    refine Does.intro (exec_coefRestore hp hm) fun p l w hg hl hb hw => ?_
    have page := State.outGroup_congr (fun o k hk => State.rd_restoreLayer (s := s) (g := g) (layers := layers) (l := 0) (by omega) hs hk) g
    rcases (by omega : l = 0 ∨ l = 1) with rfl | rfl
    · have first := State.tablesReset_restoreLayer (by omega) hs hb hg
      exact first.restoreLayer (l := 1) (by omega) (by omega) (page.2.trans hs) w hw
    · exact State.tablesReset_restoreLayer (by omega) (page.2.trans hs) hb (page.1 ▸ hg) w hw
  · intro g v p s hp hm hb ha hi hg
    refine Does.intro (exec_lutWrite hp hm hb ha hi) ⟨?_, ?_⟩
    · rw [State.lutEntry_of_comps (State.lutInc_comps _ _), State.lutEntry_lutPuts _ _ _ _ _ hg]
    · exact fun a h => (State.lutInc_regs _ _ a h).trans (State.rd_of_regs (State.regs_lutPuts _ _ _ _ _ _) a)
  · intro g v s hp hm h
    refine Does.intro (exec_lutWrite_refused hp hm h) ?_
    rw [State.lutInc_comps, State.raise_comps]
  · intro g s hp hi
    refine Does.intro (exec_lutRead hp) ⟨?_, ?_⟩
    · rw [State.lutInc_comps, State.answer_comps]
    · rw [State.lutInc_readData, State.answer_readData, State.lutAt]
      exact congrArg (fun e : Nat × Nat × Nat => BitVec.ofNat 32 e.2.2) (if_pos hi)
  · intro g u s hp h8 h10
    obtain ⟨t, run⟩ := exec_composerUe_table (s := s) hp h8 h10
    refine Does.intro run ?_
    rw [State.comp_of_comps (State.raise_comps _ _ _), State.comp_setComp_same]
    exact tget_tset_same false _ _ true
  · intro g u s hp h2 h8 hb
    obtain ⟨bit, run⟩ := exec_composerUe_lut hp h2 h8 hb
    refine Does.intro run ⟨?_, State.get_put_same _ _ _ _⟩
    rw [State.live_comps, State.raise_comps, State.cause_comps, State.setFault_comps]

end Sys2Proof
end

section
/-! Proofs about the frames, cadence and faults of the rate conversion pool (R262 to R283). -/

set_option Elab.async false

namespace Sys2Proof.Machine

/-! What the parts of a frame leave of a slot. -/

theorem State.ctx_setCtx_ne (s : State) (e c : Nat) (x : Ctx) {e' c' : Nat} (h : 2 * e' + c' ≠ 2 * e + c) :
    (s.setCtx e c x).ctx e' c' = s.ctx e' c' := tget_tset_ne s.conv _ h

theorem State.ctx_of_conv {s t : State} (h : t.conv = s.conv) (e c : Nat) : t.ctx e c = s.ctx e c := by rw [State.ctx, h, State.ctx]

theorem State.get_bump_off (s : State) (b : Nat) (f g : Fld) (n : Nat) (h : g.off ≠ f.off) : (s.bump b f n).get b g = s.get b g :=
  s.get_put_off b f g _ h

/-- The cause and event of an engine leave its slots. -/
theorem State.get_cvCause (s : State) (e k : Nat) (c : Nat) (f : Fld) : (s.cvCause e k).get (ctxA e c) f = s.get (ctxA e c) f := by
  rw [State.cvCause, State.get_raiseIf_ne _ _ _ _ (by simp only [ctxA, cvB, gPage]; omega), State.cause,
    State.get_put_ne _ _ _ _ (by simp only [ctxA, cvB, gPage]; omega)]

@[simp] theorem State.cvCause_conv (s : State) (e k : Nat) : (s.cvCause e k).conv = s.conv := by
  rw [State.cvCause, State.raiseIf_conv, State.cause_conv]

theorem State.convUnhide_same (s : State) (e c : Nat) : (s.convUnhide e c).conv = s.conv ∧ (s.convUnhide e c).regs = s.regs := by
  have kept : erase 1024 (s.convUnhide e c) = erase 1024 s := State.convUnhide_er rfl
  exact ⟨Part.same_of_erase (p := .conv) (by decide) kept, Part.same_of_erase (p := .regs) (by decide) kept⟩

section
variable (s : State) (e c : Nat)

theorem State.get_convCounts (method : Nat) (hit : Bool) (f : Fld) (hf : f.off < 0x18) (hm : F.CTX_STAT_METHOD.apart f = true) :
    (let u := (s.put (ctxA e c) F.CTX_STAT_METHOD method).bump (ctxA e c)
        (if method = 0 then F.CNT_MC_FRAMES else if method = 1 then F.CNT_BLEND_FRAMES else F.CNT_REPEAT_FRAMES)
      if hit then u.cvCause e 2 else u).get (ctxA e c) f = s.get (ctxA e c) f := by
  have counter : (if method = 0 then F.CNT_MC_FRAMES else if method = 1 then F.CNT_BLEND_FRAMES else F.CNT_REPEAT_FRAMES).off ≠ f.off := by
    split
    · exact Nat.ne_of_gt hf
    · split
      · exact Nat.ne_of_gt (Nat.lt_trans hf (by decide))
      · exact Nat.ne_of_gt (Nat.lt_trans hf (by decide))
  dsimp only
  split
  · rw [State.get_cvCause, State.get_bump_off _ _ _ _ _ counter.symm, State.get_put_of_apart _ _ _ _ _ hm]
  · rw [State.get_bump_off _ _ _ _ _ counter.symm, State.get_put_of_apart _ _ _ _ _ hm]

/-- The count of a frame: the slot's marks of the last frame change, its state does not. -/
theorem State.convCount_spec (method : Nat) (once : Bool) :
    ((s.convCount e c method once).ctx e c).out = (s.ctx e c).out ∧ ((s.convCount e c method once).ctx e c).shown = (s.ctx e c).shown ∧
      ((s.convCount e c method once).ctx e c).warm = (s.ctx e c).warm ∧
      (s.convCount e c method once).get (ctxA e c) F.CTX_STAT_STATE = s.get (ctxA e c) F.CTX_STAT_STATE := by
  have slot : (s.convCount e c method once).ctx e c =
      { s.ctx e c with usedMc := if once then (s.ctx e c).usedMc else method == 0, late := false } := State.ctx_setCtx_same _ _ _ _
  rw [slot]
  exact ⟨rfl, rfl, rfl, s.get_convCounts e c method _ _ (by decide) rfl⟩

/-- A slot that repeats a picture. -/
def State.repeatCtx (s : State) (e c : Nat) (v : CvView) : State :=
  let x := s.ctx e c
  let same := x.shown == some v.inst
  let pic := v.rows (s.is (ctxA e c) F.CTX_KEY_SRC_INTERLACED)
  s.setCtx e c { x with
    shown := some v.inst, hold := if same then x.hold + 1 else 0, out := pic, rep := pic, anc := v.ancFor x
    ancOf := v.parts.head?.map (·.1.id) }

theorem State.convRepeat_eq (v : CvView) : s.convRepeat e c v = ((if (s.ctx e c).shown == some v.inst then s.repeatCtx e c v
    else (s.repeatCtx e c v).convUnhide e c).put (ctxA e c) F.CTX_PHASE_PHASE 0).convCount e c 2 false := rfl

/-- A repeat of a picture. -/
theorem State.convRepeat_spec (v : CvView) :
    ((s.convRepeat e c v).ctx e c).out = v.rows (s.is (ctxA e c) F.CTX_KEY_SRC_INTERLACED) ∧
      ((s.convRepeat e c v).ctx e c).shown = some v.inst ∧
      (s.convRepeat e c v).get (ctxA e c) F.CTX_STAT_STATE = s.get (ctxA e c) F.CTX_STAT_STATE := by
  obtain ⟨u, hu⟩ : ∃ u, u = if (s.ctx e c).shown == some v.inst then s.repeatCtx e c v else (s.repeatCtx e c v).convUnhide e c := ⟨_, rfl⟩
  have same : u.conv = (s.repeatCtx e c v).conv ∧ u.regs = (s.repeatCtx e c v).regs := by
    rw [hu]
    split
    · exact ⟨rfl, rfl⟩
    · exact State.convUnhide_same _ _ _
  obtain ⟨conv, regs⟩ := same
  obtain ⟨out, shown, -, state⟩ := (u.put (ctxA e c) F.CTX_PHASE_PHASE 0).convCount_spec e c 2 false
  have slot : (u.put (ctxA e c) F.CTX_PHASE_PHASE 0).ctx e c = (s.repeatCtx e c v).ctx e c :=
    State.ctx_of_conv ((State.put_conv _ _ _ _).trans conv) e c
  rw [State.convRepeat_eq, ← hu, out, shown, state, slot, State.get_put_off _ _ _ _ _ (by decide), State.get_of_regs regs]
  have own : (s.repeatCtx e c v).ctx e c = _ := State.ctx_setCtx_same s e c _
  rw [own]
  exact ⟨rfl, rfl, rfl⟩

/-! A frame between two pictures. -/

theorem State.warm_convLevel (x : Ctx) (raw conf : Nat) : (s.convLevel x raw conf).warm = x.warm := by
  unfold State.convLevel
  simp only [apply_ite Ctx.warm, ite_self]

theorem State.convPair_spec (conf : Nat) (pair : Int × Int) : ((s.convPair e c conf pair).ctx e c).warm = (s.ctx e c).warm ∧
    (s.convPair e c conf pair).get (ctxA e c) F.CTX_STAT_STATE = s.get (ctxA e c) F.CTX_STAT_STATE := by
  unfold State.convPair
  dsimp only
  split
  · exact ⟨rfl, rfl⟩
  · have pairs (b : Nat) : ((s.setCtx e c { s.ctx e c with pair := some pair }).puts (ctxA e c)
        [(F.CTX_STAT_CONF, conf), (F.CTX_STAT_CUT, b)]).get (ctxA e c) F.CTX_STAT_STATE = s.get (ctxA e c) F.CTX_STAT_STATE :=
      (State.get_puts_of_apart _ _ _ _ rfl).trans (State.get_setCtx _ _ _ _ _ _)
    have slot (b : Nat) : ((s.setCtx e c { s.ctx e c with pair := some pair }).puts (ctxA e c)
        [(F.CTX_STAT_CONF, conf), (F.CTX_STAT_CUT, b)]).ctx e c = { s.ctx e c with pair := some pair } :=
      (State.ctx_of_conv (State.puts_conv _ _ _) e c).trans (State.ctx_setCtx_same _ _ _ _)
    split
    · rw [State.get_cvCause, State.get_bump_off _ _ _ _ _ (by decide), pairs,
        State.ctx_of_conv ((State.cvCause_conv _ _ _).trans (State.bump_conv _ _ _ _)), slot]
      exact ⟨rfl, rfl⟩
    · rw [pairs, slot]
      exact ⟨rfl, rfl⟩

/-- A frame built for an instant, up to its count. -/
theorem State.convBuild_shape (tau : Int) (conf : Nat) (va vb : CvView) : ∃ (u : State) (x : Ctx) (ph method : Nat) (once : Bool),
    s.convBuild e c tau conf va vb = (((u.setCtx e c x).convUnhide e c).put (ctxA e c) F.CTX_PHASE_PHASE ph).convCount e c method once ∧
      x.shown = some tau ∧ x.warm = (s.ctx e c).warm ∧ u.get (ctxA e c) F.CTX_STAT_STATE = s.get (ctxA e c) F.CTX_STAT_STATE := by
  unfold State.convBuild
  refine ⟨_, _, _, _, _, rfl, rfl, ?_, ?_⟩
  · dsimp only
    rw [apply_ite Ctx.warm, State.warm_convLevel, ite_self, (State.convPair_spec _ _ _ _ _).1]
  · rw [apply_ite (State.get · (ctxA e c) F.CTX_STAT_STATE), State.get_of_regs (State.tick_regs _), ite_self,
      (State.convPair_spec _ _ _ _ _).2]

theorem State.convBuild_spec (tau : Int) (conf : Nat) (va vb : CvView) :
    ((s.convBuild e c tau conf va vb).ctx e c).shown = some tau ∧ ((s.convBuild e c tau conf va vb).ctx e c).warm = (s.ctx e c).warm ∧
      (s.convBuild e c tau conf va vb).get (ctxA e c) F.CTX_STAT_STATE = s.get (ctxA e c) F.CTX_STAT_STATE := by
  obtain ⟨u, x, ph, method, once, run, hs, hw, hr⟩ := s.convBuild_shape e c tau conf va vb
  obtain ⟨conv, regs⟩ := (u.setCtx e c x).convUnhide_same e c
  obtain ⟨-, shown, warm, state⟩ := (((u.setCtx e c x).convUnhide e c).put (ctxA e c) F.CTX_PHASE_PHASE ph).convCount_spec e c method once
  have slot : (((u.setCtx e c x).convUnhide e c).put (ctxA e c) F.CTX_PHASE_PHASE ph).ctx e c = x :=
    (State.ctx_of_conv ((State.put_conv _ _ _ _).trans conv) e c).trans (State.ctx_setCtx_same _ _ _ _)
  rw [run, shown, warm, state, slot, State.get_put_off _ _ _ _ _ (by decide), State.get_of_regs regs, State.get_setCtx]
  exact ⟨hs, hw, hr⟩

/-- A change of latency leaves the registers behind the Floor's own page. -/
theorem State.rd_latencyChange (t i : Nat) {a : Nat} (h : flB + 0x1000 ≤ a) : (s.latencyChange t i).rd a = s.rd a := by
  have ne {k : Nat} (hk : k < 0x1000) : a ≠ flB + k := by omega
  unfold State.latencyChange
  split
  · rw [State.routeEvent, State.puts_cons, State.puts_cons, State.puts_cons, State.puts_nil, State.rd_put_ne _ _ _ (ne (by decide)),
      State.rd_put_ne _ _ _ (ne (by decide)), State.rd_put_ne _ _ _ (ne (by decide)), State.rd_raise_ne _ _ (ne (by decide)), State.rd_setRoute,
      State.rd_of_regs (State.regs_frameRoll _ _ _)]
  · rfl

/-- The end of a slot's warm-up announces the latency of its routes. -/
def State.warmEnds (s : State) (l : List Nat) : State := l.foldl (fun u r => u.latencyChange (r / 4096) (r % 4096)) s

theorem State.conv_warmEnds (l : List Nat) : (s.warmEnds l).conv = s.conv :=
  Part.same_of_erase (p := .conv) (m := 529) (by decide) (erase_foldl rfl fun _ _ => State.latencyChange_er rfl)

theorem State.get_warmEnds (l : List Nat) (f : Fld) : (s.warmEnds l).get (ctxA e c) f = s.get (ctxA e c) f :=
  State.get_of_rd (State.rd_foldl fun r _ u => u.rd_latencyChange _ _ (by simp only [flB, ctxA, cvB, gPage]; omega))

end

/-! The commands of a slot. -/

/-- A frame's instant. -/
def State.frameInst (s : State) (e c : Nat) (f : ConvFrame) : Int := f.start - s.get (ctxA e c) F.CTX_DELAY_NS

section
variable {e : Fin 8} {c : Fin 2} {f : ConvFrame} {s : State}

theorem exec_converterFrame (h : s.slotUsed e c = true) : exec (.converterFrame e c f) s = .next (s.convFrame e c f) := next_congr (if_pos h)

theorem State.ctxFreeze_of_running (hf : s.srcFrozen (s.get (ctxA e c) F.CTX_KEY_SRC) = false) : s.ctxFreeze e c = s :=
  if_neg (by simp [hf])

/-- No picture lies at or before the instant: the newest again, where there is one. -/
theorem State.convFrame_first {q : Option CvView} {v : CvView} (hf : s.srcFrozen (s.get (ctxA e c) F.CTX_KEY_SRC) = false)
    (ha : around (f.start - s.get (ctxA e c) F.CTX_DELAY_NS) (s.ctxViews e c) = (none, q)) (hv : newestView (s.ctxViews e c) = some v) :
    s.convFrame e c f = s.convRepeat e c v := by
  unfold State.convFrame
  simp only [State.ctxFreeze_of_running hf, ha, hv]

theorem State.convFrame_empty {q : Option CvView} (hf : s.srcFrozen (s.get (ctxA e c) F.CTX_KEY_SRC) = false)
    (ha : around (f.start - s.get (ctxA e c) F.CTX_DELAY_NS) (s.ctxViews e c) = (none, q)) (hv : newestView (s.ctxViews e c) = none) :
    s.convFrame e c f = s := by
  unfold State.convFrame
  simp only [State.ctxFreeze_of_running hf, ha, hv]

theorem State.convFrame_last {va v : CvView} (hf : s.srcFrozen (s.get (ctxA e c) F.CTX_KEY_SRC) = false)
    (ha : around (f.start - s.get (ctxA e c) F.CTX_DELAY_NS) (s.ctxViews e c) = (some va, none)) (hv : newestView (s.ctxViews e c) = some v) :
    s.convFrame e c f = (s.put (ctxA e c) F.CTX_STAT_STATE 3).convRepeat e c v := by
  unfold State.convFrame
  simp only [State.ctxFreeze_of_running hf, ha, hv]

/-- The frame between two pictures, and the end of a warm-up with it. -/
theorem State.convFrame_between {va vb : CvView} (hf : s.srcFrozen (s.get (ctxA e c) F.CTX_KEY_SRC) = false)
    (ha : around (f.start - s.get (ctxA e c) F.CTX_DELAY_NS) (s.ctxViews e c) = (some va, some vb))
    (hh : s.get (ctxA e c) F.CTX_STAT_STATE ≠ 3 ∨ (s.srcDelivers (s.get (ctxA e c) F.CTX_KEY_SRC) = true ∧ va.fresh = true ∧ vb.fresh = true)) :
    ∃ u, u = (s.put (ctxA e c) F.CTX_STAT_STATE 2).convBuild e c (f.start - s.get (ctxA e c) F.CTX_DELAY_NS) f.conf.val va vb ∧
      s.convFrame e c f = if (s.ctx e c).warm then ((u.setCtx e c { u.ctx e c with warm := false }).cvCause e 8).warmEnds (s.ctx e c).routes
        else u := by
  have go : (decide (s.get (ctxA e c) F.CTX_STAT_STATE = 3) && (s.srcFrozen (s.get (ctxA e c) F.CTX_KEY_SRC) ||
      !s.srcDelivers (s.get (ctxA e c) F.CTX_KEY_SRC) || !va.fresh || !vb.fresh)) = false := by
    rcases hh with h | ⟨h1, h2, h3⟩
    · simp [h]
    · simp [hf, h1, h2, h3]
  refine ⟨_, rfl, ?_⟩
  unfold State.convFrame
  simp only [State.ctxFreeze_of_running hf, ha, go, Bool.false_eq_true, if_false]
  rfl

/-- A frozen source: the newest picture again, with state 3. -/
theorem State.convFrame_frozen (hf : s.srcFrozen (s.get (ctxA e c) F.CTX_KEY_SRC) = true) :
    (s.convFrame e c f).get (ctxA e c) F.CTX_STAT_STATE = 3 := by
  have freeze : s.ctxFreeze e c = _ := if_pos hf
  have state : (s.ctxFreeze e c).get (ctxA e c) F.CTX_STAT_STATE = 3 := by
    rw [freeze]
    exact State.get_put_same _ _ _ _
  have still : (s.ctxFreeze e c).srcFrozen (s.get (ctxA e c) F.CTX_KEY_SRC) = true := by
    rw [freeze]
    exact hf
  have again (u : State) (v : CvView) (h : u.get (ctxA e c) F.CTX_STAT_STATE = 3) :
      (u.convRepeat e c v).get (ctxA e c) F.CTX_STAT_STATE = 3 := (u.convRepeat_spec e c v).2.2.trans h
  unfold State.convFrame
  dsimp only
  generalize s.ctxFreeze e c = u at state still
  split
  · rw [if_pos (by simp [state, still])]
    split
    · exact again _ _ state
    · exact state
  · split
    · exact again _ _ state
    · exact state
  · split
    · exact again _ _ (State.get_put_same _ _ _ _)
    · exact State.get_put_same _ _ _ _

theorem exec_frameLate (h : s.slotUsed e c = true) : exec (.frameLate e c) s = .next
    (((s.setCtx e c { s.ctx e c with late := true }).bump (ctxA e c) F.CNT_LATE_FRAMES).cvCause e 6) := next_congr (if_pos h)

end

/-! Cadence. -/

theorem mem_cadences {frate : Nat} {interlaced : Bool} {p : Nat × List Bool} (h : p ∈ cadences frate interlaced) : p.1 = 1 ∨ p.1 = 2 := by
  unfold cadences at h
  split at h
  · split at h
    · exact .inr (by rw [List.mem_singleton.1 h])
    · exact absurd h List.not_mem_nil
  · rcases List.mem_append.1 h with h | h
    · split at h
      · exact .inl (by rw [List.mem_singleton.1 h])
      · exact absurd h List.not_mem_nil
    · split at h
      · exact .inr (by rw [List.mem_singleton.1 h])
      · exact absurd h List.not_mem_nil

theorem State.cadenceSeek_spec (s : State) (e c id : Nat) (r : Bool) {all : List (Nat × List Bool)} (h : ∀ p ∈ all, p.1 = 1 ∨ p.1 = 2) :
    (s.cadenceSeek e c id r all).get (ctxA e c) F.CTX_STAT_CADENCE ≠ 0 ∧ ((s.cadenceSeek e c id r all).ctx e c).pattern = [] ∨
      ((s.cadenceSeek e c id r all).ctx e c).pattern = (r :: (s.ctx e c).pattern).take 75 ∧ (s.cadenceSeek e c id r all).regs = s.regs := by
  unfold State.cadenceSeek
  dsimp only
  split
  case h_1 p hp =>
    refine .inl ⟨?_, ?_⟩
    · rw [State.get_cvCause]
      have code : p.1 % 4 ≠ 0 := by
        rcases h p (List.mem_of_find?_eq_some hp) with k | k <;> rw [k] <;> decide
      exact fun k => code ((State.get_put_same _ _ F.CTX_STAT_CADENCE p.1).symm.trans k)
    · rw [State.ctx_of_conv ((State.cvCause_conv _ _ _).trans (State.put_conv _ _ _ _)), State.ctx_setCtx_same]
  case h_2 =>
    refine .inr ⟨?_, rfl⟩
    rw [State.ctx_setCtx_same]
    rfl

theorem exec_cadencePicture {e : Fin 8} {c : Fin 2} {p : CvPic} {k : Nat} {prev : Option CvPic} {s : State} (hu : s.slotUsed e c = true)
    (hm : s.get (ctxA e c) F.CTX_KEY_SRCMODE = 1) (hc : s.get (ctxA e c) F.CTX_STAT_CADENCE = 0)
    (hn : s.cadenceNext e c = some (p, k, prev)) : exec (.cadencePicture e c p.id k) s =
      .next (s.cadenceSeek e c p.id (s.cadenceRepeat e c p k prev)
        (cadences (s.get (ctxA e c) F.CTX_KEY_SRC_FRATE) (s.is (ctxA e c) F.CTX_KEY_SRC_INTERLACED))) := by
  have unlocked : (cadences (s.get (ctxA e c) F.CTX_KEY_SRC_FRATE) (s.is (ctxA e c) F.CTX_KEY_SRC_INTERLACED)).find? (fun q => q.1 == 0) =
      none := by
    refine List.find?_eq_none.2 fun q hq => ?_
    rcases mem_cadences hq with k | k <;> simp [k]
  change execCadencePicture e c p.id k s = _
  simp only [execCadencePicture, hu, hm, hc, hn, unlocked, beq_self_eq_true, Bool.and_self, if_true, Option.filter_some]

/-! Faults of an engine. -/

/-- The slots of an engine in fault mode repeat. -/
theorem State.out_repeats (s : State) (e : Nat) :
    ((s.forAll [0, 1] fun c t => t.setCtx e c { t.ctx e c with out := (t.ctx e c).rep }).ctx e 0).out = (s.ctx e 0).rep ∧
      ((s.forAll [0, 1] fun c t => t.setCtx e c { t.ctx e c with out := (t.ctx e c).rep }).ctx e 1).out = (s.ctx e 1).rep := by
  obtain ⟨u, hu⟩ : ∃ u, u = s.setCtx e 0 { s.ctx e 0 with out := (s.ctx e 0).rep } := ⟨_, rfl⟩
  have both : (s.forAll [0, 1] fun c t => t.setCtx e c { t.ctx e c with out := (t.ctx e c).rep }) =
      u.setCtx e 1 { u.ctx e 1 with out := (u.ctx e 1).rep } := by rw [hu]; rfl
  have other : u.ctx e 1 = s.ctx e 1 := by rw [hu, State.ctx_setCtx_ne s e 0 _ (e' := e) (c' := 1) (by omega)]
  rw [both, State.ctx_setCtx_same, State.ctx_setCtx_ne u e 1 _ (e' := e) (c' := 0) (by omega), other, hu, State.ctx_setCtx_same]
  exact ⟨rfl, rfl⟩

section
variable {e : Fin 8} {array : Fin 3} {index : Fin 512} {s : State}

/-- The record of a fault leaves every register but the block's FAULT_INFO and STAT. -/
theorem State.get_setFault (u : State) {b d : Nat} (a i : Nat) {f : Fld} (h1 : d + f.off ≠ b + 0x28) (h2 : d + f.off ≠ b + F.STAT_FAULT.off) :
    (u.setFault b a i).get d f = u.get d f :=
  State.get_of_rd ((State.rd_put_ne _ _ _ h2).trans (State.rd_wr_ne _ _ h1))

theorem State.slotUsed_setFault (c : Nat) : (s.setFault (cvB e) array index).slotUsed e c = s.slotUsed e c := by
  rw [State.slotUsed, State.slotUsed, State.get_setFault _ _ _ (by simp only [ctxA, cvB, gPage]; omega) (by simp only [ctxA, cvB, gPage]; omega)]

theorem State.setFault_conv (b array index : Nat) : (s.setFault b array index).conv = s.conv :=
  (State.put_conv _ _ _ _).trans (State.wr_conv _ _ _)

theorem exec_engineFault_used (h : s.slotUsed e 0 = true ∨ s.slotUsed e 1 = true) : ∃ u : State, u.conv = s.conv ∧
    exec (.engineFault e array index) s =
      .next ((u.forAll [0, 1] fun c t => t.setCtx e c { t.ctx e c with out := (t.ctx e c).rep }).cvCause e 7) := by
  refine ⟨_, ?_, next_congr (if_pos ?_)⟩
  · exact (Part.same_of_erase (p := .conv) (by decide) (State.poolRefresh_er (m := 1) rfl)).trans
      ((State.live_conv _ _ _ _).trans ((State.put_conv _ _ _ _).trans (State.setFault_conv _ _ _)))
  · rw [State.slotUsed_setFault, State.slotUsed_setFault]
    rcases h with h | h <;> simp [h]

theorem exec_engineFault_idle (h0 : s.slotUsed e 0 = false) (h1 : s.slotUsed e 1 = false) :
    exec (.engineFault e array index) s = .next ((s.setFault (cvB e) array index).cvCause e 7) := by
  refine next_congr (if_neg ?_)
  rw [State.slotUsed_setFault, State.slotUsed_setFault, h0, h1]
  exact Bool.false_ne_true

end

end Sys2Proof.Machine

namespace Sys2Proof
open Sys2Proof.Machine

/-- Settles O29: a frame is built from the pictures around its instant, and a slot keeps the newest through every loss. -/
theorem rateConversion : Obligations.RateConversion := by
  unfold Obligations.RateConversion
  refine ⟨?_, ?_, ?_, ?_, ?_, ?_, ?_, ?_, ?_, ?_, ?_⟩
  · intro e c f v q s hu hf ha hv
    obtain ⟨out, shown, -⟩ := s.convRepeat_spec e c v
    rw [← State.convFrame_first hf ha hv] at out shown
    exact Does.intro (exec_converterFrame hu) ⟨out, shown⟩
  · intro e c f v va s hu hf ha hv
    obtain ⟨out, shown, state⟩ := (s.put (ctxA e c) F.CTX_STAT_STATE 3).convRepeat_spec e c v
    rw [State.is_put_off _ _ _ _ _ (by decide)] at out
    rw [State.get_put_same _ _ F.CTX_STAT_STATE] at state
    rw [← State.convFrame_last hf ha hv] at out shown state
    exact Does.intro (exec_converterFrame hu) ⟨state, out, shown⟩
  · intro e c f q s hu hf ha hv
    rw [exec_converterFrame hu, State.convFrame_empty hf ha hv]
  · exact fun e c f s hu hf => Does.intro (exec_converterFrame hu) (State.convFrame_frozen hf)
  · intro e c f va vb s hu hf ha hh
    obtain ⟨u, hu', run⟩ := State.convFrame_between hf ha hh
    obtain ⟨shown, warm, state⟩ := (s.put (ctxA e c) F.CTX_STAT_STATE 2).convBuild_spec e c (f.start - s.get (ctxA e c) F.CTX_DELAY_NS)
      f.conf.val va vb
    rw [← hu'] at shown warm state
    rw [State.get_put_same _ _ F.CTX_STAT_STATE] at state
    refine Does.intro (exec_converterFrame hu) ?_
    rw [run]
    split
    case isTrue =>
      rw [State.ctx_of_conv ((State.conv_warmEnds _ _).trans (State.cvCause_conv _ _ _)), State.ctx_setCtx_same, State.get_warmEnds,
        State.get_cvCause, State.get_setCtx]
      exact ⟨shown, rfl, state⟩
    case isFalse cold => exact ⟨shown, warm.trans (Bool.eq_false_iff.2 cold), state⟩
  · intro e c s hu
    refine Does.intro (exec_frameLate hu) ?_
    rw [State.ctx_of_conv ((State.cvCause_conv _ _ _).trans (State.bump_conv _ _ _ _)), State.ctx_setCtx_same]
  · intro e c f i k s hu
    have idle : ¬ s.slotUsed e c = true := by simp [hu]
    refine ⟨next_congr (if_neg idle), next_congr (if_neg idle), next_congr (if_neg (by simp [hu]))⟩
  · intro e c p k prev s hu hm hc hn
    exact Does.intro (exec_cadencePicture hu hm hc hn) (s.cadenceSeek_spec e c p.id _ fun q hq => mem_cadences hq)
  · intro e c i k s hn
    change execCadencePicture e c i k s = _
    simp only [execCadencePicture, hn, Option.filter_none, ite_self]
  · intro e array index s h
    obtain ⟨u, conv, run⟩ := exec_engineFault_used (array := array) (index := index) h
    obtain ⟨out0, out1⟩ := u.out_repeats e
    refine Does.intro run ⟨?_, ?_⟩
    · rw [State.ctx_of_conv (State.cvCause_conv _ _ _), out0, State.ctx_of_conv conv]
    · rw [State.ctx_of_conv (State.cvCause_conv _ _ _), out1, State.ctx_of_conv conv]
  · intro e array index s h0 h1
    refine Does.intro (exec_engineFault_idle h0 h1) ?_
    rw [State.cvCause_conv, State.setFault_conv]

end Sys2Proof
end

section
/-! Proofs about host queues, received frames, optics, links and tables of the media ports (R325 to R329, R357). -/

set_option Elab.async false

namespace Sys2Proof.Machine

theorem exec_same_eff {i : Instr} {s t : State} (run : exec i s = .next t) (h : Part.eff ∉ touches i) : t.eff = s.eff :=
  commandFrame i s t run .eff h

/-! Words of a window. -/

/-- A field that lies in the bits of a mask takes them from the new word. -/
theorem fldGet_mergeWord (old v : Word) {mask n : Nat} (hn : n ≤ 32) (h : ∀ i < n, mask.testBit i = true) :
    fldGet (mergeWord old v mask) 0 n = fldGet v 0 n := by
  simp only [fldGet, Nat.pow_zero, Nat.div_one]
  refine Nat.eq_of_testBit_eq fun i => ?_
  rw [Nat.testBit_mod_two_pow, Nat.testBit_mod_two_pow]
  by_cases hi : i < n
  · have small : i < 32 := by omega
    simp only [BitVec.testBit_toNat, mergeWord, BitVec.getLsbD_or, BitVec.getLsbD_and, BitVec.getLsbD_not, BitVec.getLsbD_ofNat, h i hi,
      small, decide_true, Bool.and_true, Bool.not_true, Bool.and_false, Bool.false_or]
  · simp only [hi, decide_false, Bool.false_and]

@[simp] theorem State.ip_setWindow (s : State) (a k : Nat) (l : List Byte) : (s.setWindow a k l).ip = s.ip :=
  Part.same_of_erase (p := .ip) (by decide) (State.setWindow_er (m := 1) rfl)

theorem State.rd_setWindow_ne (s : State) {a b k : Nat} (l : List Byte) (h : b < a ∨ a + 4 * k ≤ b) : (s.setWindow a k l).rd b = s.rd b :=
  State.rd_forAll fun i hi u => u.rd_wr_ne _ (by have := List.mem_range.1 hi; omega)

theorem State.get_setWindow_below (s : State) {a b k : Nat} (f : Fld) (l : List Byte) (h : b + f.off < a) :
    (s.setWindow a k l).get b f = s.get b f :=
  State.get_of_rd (s.rd_setWindow_ne l (.inl h))

/-! The cause and live registers of a port. -/

theorem State.rd_ipCause_ne (s : State) (n k : Nat) {a : Nat} (h1 : a ≠ ipB n 0 + 0x78) (h2 : a ≠ ipB n 0 + 0x10) :
    (s.ipCause n k).rd a = s.rd a := by
  rw [State.ipCause, State.rd_raiseIf_ne _ _ _ h2, State.cause, State.rd_put_ne _ _ _ h1]

theorem State.get_ipCause_off (s : State) (n k : Nat) (f : Fld) (h1 : f.off ≠ 0x78) (h2 : f.off ≠ 0x10) :
    (s.ipCause n k).get (ipB n 0) f = s.get (ipB n 0) f :=
  State.get_of_rd (s.rd_ipCause_ne n k (by omega) (by omega))

@[simp] theorem State.ip_ipCause (s : State) (n k : Nat) : (s.ipCause n k).ip = s.ip := by
  rw [State.ipCause, State.raiseIf_ip, State.cause_ip]

theorem State.get_ipLive_off (s : State) (n : Nat) (f : Fld) (h : f.off ≠ 0x1C) : (s.ipLive n).get (ipB n 0) f = s.get (ipB n 0) f := by
  unfold State.ipLive
  simp only [State.get_live_off _ _ _ _ _ h]

/-! The host receive queue (R328, R365). -/

theorem State.hqr_of_ip {s t : State} (h : t.ip = s.ip) (n : Nat) : t.hqr n = s.hqr n := by rw [State.hqr, h, State.hqr]

theorem State.hqr_setHqr (s : State) (n : Nat) (l : List (List Byte × Nat)) : (s.setHqr n l).hqr n = l := by
  rw [State.setHqr, State.hqr, State.ip_setWindow, State.puts_ip, State.modIp_ip]
  exact tget_tset_same [] s.ip.hqr n l

/-- The registers of the queue and of the head frame, below its window. -/
abbrev State.hqrRegs (l : List (List Byte × Nat)) : List (Fld × Nat) :=
  [(F.HQR_STAT_LEN, (l.headD ([], 0)).1.length), (F.HQR_STAT_COUNT, min 255 l.length), (F.HQR_TS_NS_VALUE, (l.headD ([], 0)).2 % 10 ^ 9),
    (F.HQR_TS_SEC_VALUE, (l.headD ([], 0)).2 / 10 ^ 9)]

theorem State.count_setHqr (s : State) (n : Nat) (l : List (List Byte × Nat)) :
    (s.setHqr n l).get (ipB n 14) F.HQR_STAT_COUNT = min 255 l.length := by
  rw [State.setHqr, State.get_setWindow_below _ _ _ (by show _ + 0 < _; omega)]
  refine State.get_puts_next _ _ _ _ _ fun u => ?_
  rw [State.get_puts_first u _ _ _ _ (by decide) rfl]
  exact Nat.mod_eq_of_lt (b := 2 ^ 8) (by omega)

/-- Only the queue's own page changes. -/
theorem State.rd_setHqr_ne (s : State) (n : Nat) (l : List (List Byte × Nat)) {a : Nat} (h : a < ipB n 14) : (s.setHqr n l).rd a = s.rd a := by
  refine (State.rd_setWindow_ne _ _ (.inl (Nat.lt_add_right _ h))).trans (State.rd_puts_ne _ _ fun p _ => ?_)
  exact Nat.ne_of_lt (Nat.lt_add_right _ h)

theorem State.hostQueue_of_room {s : State} {n ts : Nat} {f : List Byte} (hf : f.length ≤ 2048)
    (hr : sumN ((s.hqr n).map fun p => p.1.length) + f.length ≤ 32768) : s.hostQueue n ts f = s.setHqr n (s.hqr n ++ [(f, ts)]) :=
  if_neg (by omega)

/-- A good frame that is addressed to the host and holds no UDP packet enters the host receive queue (R327). -/
theorem State.ethRoute_host {s : State} {n ts : Nat} {f : List Byte} (hm : beAt f 0 6 = s.portMac n) (hu : udpOf f = none)
    (hh : s.forHost n f = true) : s.ethRoute n ts f = s.hostQueue n ts f := by
  simp only [State.ethRoute, hm, hu, hh, ne_eq, not_true_eq_false, false_and, Bool.false_eq_true, if_false, if_true]

/-! The commands. -/

section
variable {n : Fin 4} {s : State}

theorem exec_hqrPop (hp : s.present 0 = true) : exec (.hqrPop n) s = .next (s.setHqr n ((s.hqr n).drop 1)) :=
  next_congr (State.hostWrite_eq (by decide) hp)

theorem exec_hqtSend_busy {v : Word} (hp : s.present 0 = true) (hb : s.is (ipB n 15) F.HQT_STAT_BUSY = true) :
    exec (.hqtSend n v) s = .next s :=
  next_congr ((State.hostWrite_eq (by decide) hp).trans (if_pos hb))

/-- The state in which a send reads the window (R329). -/
def State.hqtCtrl (s : State) (n : Nat) (v : Word) : State := s.wr (ipB n 15) (mergeWord (s.rd (ipB n 15)) v 0x7FFFF)

theorem State.len_hqtCtrl (s : State) (n : Nat) (v : Word) : (s.hqtCtrl n v).get (ipB n 15) F.HQT_CTRL_LEN = fldGet v 0 12 := by
  rw [State.get, State.hqtCtrl, Nat.add_zero, State.rd_wr_same]
  exact fldGet_mergeWord _ v (by decide) (by decide)

theorem State.window8_congr {s t : State} {a k : Nat} (h : ∀ b, a ≤ b → t.rd b = s.rd b) : t.window8 a k = s.window8 a k := by
  simp only [State.window8, h _ (Nat.le_add_right a _)]

theorem exec_hqtSend_sends {v : Word} (hp : s.present 0 = true) (hb : s.is (ipB n 15) F.HQT_STAT_BUSY = false)
    (h1 : 60 ≤ fldGet v 0 12) (h2 : fldGet v 0 12 ≤ 2048) : exec (.hqtSend n v) s =
      .next (((s.hqtCtrl n v).puts (ipB n 15) [(F.HQT_STAT_BUSY, 1), (F.HQT_STAT_TS_VALID, 0)]).modIp fun p => { p with
        hqt := tset [] p.hqt n ((s.hqtCtrl n v).window8 (ipB n 15 + 0x800) (fldGet v 0 12)) }) := by
  have len := s.len_hqtCtrl n v
  refine next_congr ((State.hostWrite_eq (by decide) hp).trans ((if_neg (Bool.not_eq_true _ ▸ hb)).trans ?_))
  rw [← len]
  exact if_pos (by rw [← State.hqtCtrl, len]; exact ⟨h1, h2⟩)

theorem exec_hqtSent_idle {ts : Nat} (hb : s.is (ipB n 15) F.HQT_STAT_BUSY = false) : exec (.hqtSent n ts) s = .next s :=
  next_congr (if_neg (Bool.not_eq_true _ ▸ hb))

/-- The window is free again. -/
def State.hqtFreed (s : State) (n : Nat) : State := (s.modIp fun p => { p with hqt := tset [] p.hqt n [] }).put (ipB n 15) F.HQT_STAT_BUSY 0

theorem State.hqtFreed_spec (s : State) (n : Nat) : (s.hqtFreed n).is (ipB n 15) F.HQT_STAT_BUSY = false ∧
    tget [] (s.hqtFreed n).ip.hqt n = [] :=
  ⟨State.is_put_same _ _ _ _ (by decide), by rw [State.hqtFreed, State.put_ip, State.modIp_ip]; exact tget_tset_same [] s.ip.hqt n []⟩

theorem exec_hqtSent_busy {ts : Nat} (hb : s.is (ipB n 15) F.HQT_STAT_BUSY = true) : ∃ (u : State) (c : Bool),
    exec (.hqtSent n ts) s = .next (if c then (u.hqtFreed n).puts (ipB n 15) [(F.HQT_TS_NS_VALUE, ts % 10 ^ 9),
      (F.HQT_TS_SEC_VALUE, ts / 10 ^ 9), (F.HQT_STAT_TS_VALID, 1)] else u.hqtFreed n) :=
  ⟨_, _, next_congr (if_pos hb)⟩

theorem exec_hqtSent_ends {ts : Nat} (hb : s.is (ipB n 15) F.HQT_STAT_BUSY = true) : Does (.hqtSent n ts) s fun t =>
    t.is (ipB n 15) F.HQT_STAT_BUSY = false ∧ tget [] t.ip.hqt n = [] := by
  obtain ⟨u, c, run⟩ := exec_hqtSent_busy (ts := ts) hb
  obtain ⟨busy, frame⟩ := u.hqtFreed_spec n
  refine Does.intro run ?_
  cases c with
  | false => exact ⟨busy, frame⟩
  | true => exact ⟨by rw [if_pos rfl, State.is, State.get_puts_of_apart _ _ _ _ rfl]; exact busy, by rw [if_pos rfl, State.puts_ip]; exact frame⟩

/-! Received frames. -/

variable {f : EthFrame}

theorem exec_ethFrame_down (hu : s.portUp n = false) : exec (.ethFrameReceived n f) s = .next s :=
  next_congr (if_pos (by rw [hu]; rfl))

theorem exec_ethFrame_unfit (hu : s.portUp n = true) (hf : f.fits = false) :
    exec (.ethFrameReceived n f) s = .next ((s.bump (ipB n 0) F.CNT_RX_OVERFLOW_COUNT).ipCause n 22) :=
  next_congr ((if_neg (by rw [hu]; decide)).trans (if_pos (by rw [hf]; rfl)))

theorem exec_ethFrame_bad (hu : s.portUp n = true) (hf : f.fits = true) (hc : f.fcsOk = false ∨ f.bytes.length < 60) :
    exec (.ethFrameReceived n f) s = .next (s.bump (ipB n 0) F.CNT_RX_FCS_COUNT) := by
  refine next_congr ((if_neg (by rw [hu]; decide)).trans ((if_neg (by rw [hf]; decide)).trans (if_pos ?_)))
  simpa only [Bool.or_eq_true, Bool.not_eq_true', decide_eq_true_eq] using hc

theorem exec_ethFrame_good (hu : s.portUp n = true) (hf : f.fits = true) (hc : f.fcsOk = true) (h1 : 60 ≤ f.bytes.length)
    (h2 : f.bytes.length ≤ 2048) (hk : beAt f.bytes 12 2 ≠ 0x8808) (he : s.is (ipB n 2) F.MS_CFG_EN = false) :
    exec (.ethFrameReceived n f) s = .next ((s.bump (ipB n 0) F.CNT_RX_FRAMES_COUNT).ethRoute n f.ts f.bytes) := by
  have en : (s.bump (ipB n 0) F.CNT_RX_FRAMES_COUNT).is (ipB n 2) F.MS_CFG_EN = false :=
    (State.is_of_rd (s.rd_bump_ne _ _ (by simp only [ipB, gPage]; omega))).trans he
  refine next_congr ((if_neg (by rw [hu]; decide)).trans ((if_neg (by rw [hf]; decide)).trans ((if_neg ?_).trans
    ((if_neg ?_).trans (if_neg (Bool.not_eq_true _ ▸ en))))))
  · simpa only [Bool.or_eq_true, Bool.not_eq_true', decide_eq_true_eq, not_or, hc, Bool.true_eq_false, not_false_eq_true, true_and, not_lt] using h1
  · rintro (h | h)
    · exact hk h
    · omega

/-- Counting a frame leaves alone what decides where it goes. -/
theorem State.forHost_counted (b : List Byte) : (s.bump (ipB n 0) F.CNT_RX_FRAMES_COUNT).portMac n = s.portMac n ∧
    (s.bump (ipB n 0) F.CNT_RX_FRAMES_COUNT).forHost n b = s.forHost n b := by
  have mac : (s.bump (ipB n 0) F.CNT_RX_FRAMES_COUNT).portMac n = s.portMac n := by
    rw [State.portMac, s.get_bump_off _ _ F.MAC_LO_BYTES _ (by decide), s.get_bump_off _ _ F.MAC_HI_BYTES _ (by decide), State.portMac]
  refine ⟨mac, ?_⟩
  have group (i : Nat) : (s.bump (ipB n 0) F.CNT_RX_FRAMES_COUNT).get (ipB n 0 + 4 * i) F.HOST_MCAST_GROUP =
      s.get (ipB n 0 + 4 * i) F.HOST_MCAST_GROUP :=
    State.get_of_rd (s.rd_bump_ne _ _ (by show ipB n 0 + 4 * i + 0x90 ≠ ipB n 0 + 0x54; omega))
  have en : (s.bump (ipB n 0) F.CNT_RX_FRAMES_COUNT).is (ipB n 0) F.HQ_CFG_RX_EN = s.is (ipB n 0) F.HQ_CFG_RX_EN :=
    by rw [State.is, s.get_bump_off _ _ F.HQ_CFG_RX_EN _ (by decide), State.is]
  simp only [State.forHost, mac, group, en]

/-! Optics (R325). -/

/-- The transfers of the controller of port n. -/
def State.setI2c (s : State) (n : Nat) (q : List (Nat × Nat)) : State := s.modIp fun p => { p with i2c := tset [] p.i2c (n / 2) q }

theorem State.i2cQ_setI2c (s : State) (n : Nat) (q : List (Nat × Nat)) : (s.setI2c n q).i2cQ n = q :=
  tget_tset_same [] s.ip.i2c (n / 2) q

theorem State.i2cQ_of_ip {s t : State} (h : t.ip = s.ip) (n : Nat) : t.i2cQ n = s.i2cQ n := by rw [State.i2cQ, h, State.i2cQ]

theorem exec_optTransferStart {v : Word} (hp : s.present 0 = true) : exec (.optTransferStart n v) s = .next
    (((s.wr (ipB n 3 + 4) (mergeWord (s.rd (ipB n 3 + 4)) v 0x1FFFF)).put (ipB n 3) F.OPT_STAT_BUSY 1).setI2c n
      (s.i2cQ n ++ [(n.val, (mergeWord (s.rd (ipB n 3 + 4)) v 0x1FFFF).toNat)])) :=
  next_congr (State.hostWrite_eq (by decide) hp)

/-- The state in which a transfer has left its queue. -/
def State.optEnd (s : State) (n : Nat) (q : List (Nat × Nat)) (nack : Bool) : State :=
  (s.setI2c n q).puts (ipB n 3) [(F.OPT_STAT_BUSY, b2n (q.any fun p => p.1 == n)), (F.OPT_STAT_NACK, b2n nack)]

theorem State.optEnd_spec (s : State) (n : Nat) (q : List (Nat × Nat)) (nack : Bool) :
    (s.optEnd n q nack).i2cQ n = q ∧ (s.optEnd n q nack).is (ipB n 3) F.OPT_STAT_NACK = nack := by
  refine ⟨(State.i2cQ_of_ip (State.puts_ip _ _ _) n).trans (s.i2cQ_setI2c n q), ?_⟩
  rw [State.is, State.optEnd, State.get_puts_next _ _ _ _ _ fun u => State.get_puts_first u _ _ _ _ (by decide) rfl]
  cases nack <;> rfl

/-- What a transfer of the controller's window leaves: nothing, a message, or bytes in the window. -/
theorem exec_optTransferDone_cases {r : Option (List Byte)} {w : Nat} {q : List (Nat × Nat)} (h : s.i2cQ n = (n.val, w) :: q) :
    exec (.optTransferDone n r) s = .next ((s.optEnd n q r.isNone).ipCause n 4) ∨
    (∃ m, exec (.optTransferDone n r) s = .next ((s.optEnd n q r.isNone).emit m)) ∨
    ∃ l, exec (.optTransferDone n r) s = .next ((s.optEnd n q r.isNone).setWindow (ipB n 3 + 0x100) 32 l) := by
  change execOptTransferDone n r s = _ ∨ (∃ m, execOptTransferDone n r s = _) ∨ ∃ l, execOptTransferDone n r s = _
  simp only [execOptTransferDone, h, if_true]
  cases r with
  | none => exact .inl rfl
  | some l =>
    by_cases hw : bitN w 16 = true
    · exact .inr (.inl ⟨_, next_congr (if_pos hw)⟩)
    · exact .inr (.inr ⟨_, next_congr (if_neg hw)⟩)

theorem exec_optTransferDone_idle {r : Option (List Byte)} (h : s.i2cQ n = []) : exec (.optTransferDone n r) s = .next s := by
  change execOptTransferDone n r s = _
  simp only [execOptTransferDone, h]

/-! Modules and links (R325, R326). -/

theorem b2n_ne_zero (b : Bool) : (b2n b % 2 ^ 1 != 0) = b := by cases b <;> rfl

theorem State.is_pin (s : State) (f : Fld) (b : Bool) (hw : f.width = 1) (hl : f.lo < 32) :
    (s.put (ipB n 0) f (b2n b)).is (ipB n 0) f = b := by
  rw [State.is_put_same _ _ _ _ (by omega), hw, b2n_ne_zero]

theorem exec_modChange_change {b : Bool} (h : s.is (ipB n 0) F.PORT_STAT_MOD_PRESENT ≠ b) :
    exec (.modChange n b) s = .next ((s.put (ipB n 0) F.PORT_STAT_MOD_PRESENT (b2n b)).ipCause n 2) :=
  next_congr (if_pos (bne_iff_ne.2 h))

theorem exec_modChange_same {b : Bool} (h : s.is (ipB n 0) F.PORT_STAT_MOD_PRESENT = b) : exec (.modChange n b) s = .next s :=
  next_congr (if_neg (by rw [h, bne_self_eq_false]; decide))

theorem exec_linkUp (h : s.is (ipB n 0) F.PORT_STAT_LINK = false) : exec (.linkUp n) s = .next
    (((s.puts (ipB n 0) [(F.PORT_STAT_LINK, 1), (F.PORT_STAT_ALIGNED, 1)]).ipLive n).ipCause n 0) :=
  next_congr (if_neg (Bool.not_eq_true _ ▸ h))

/-- The port's registers after the loss of its link. -/
def State.portDown (s : State) (n : Nat) (aligned : Bool) : State :=
  ((s.puts (ipB n 0) [(F.PORT_STAT_LINK, 0), (F.PORT_STAT_ALIGNED, b2n aligned)]).ipLive n).ipCause n 1

theorem exec_linkDown {b : Bool} (h : s.is (ipB n 0) F.PORT_STAT_LINK = true) : exec (.linkDown n b) s = .next
    (if (s.portDown n b).candActive (8 + n) then (s.portDown n b).candLost (8 + n) else s.portDown n b) :=
  next_congr (if_pos h)

/-- Both bits of a port's link after they are written. -/
theorem State.link_spec (v a : Bool) (k : Nat) :
    (((s.puts (ipB n 0) [(F.PORT_STAT_LINK, b2n v), (F.PORT_STAT_ALIGNED, b2n a)]).ipLive n).ipCause n k).is (ipB n 0) F.PORT_STAT_LINK = v ∧
    (((s.puts (ipB n 0) [(F.PORT_STAT_LINK, b2n v), (F.PORT_STAT_ALIGNED, b2n a)]).ipLive n).ipCause n k).is (ipB n 0) F.PORT_STAT_ALIGNED = a := by
  have keeps (u : State) (f : Fld) (h : f.off = 0x44) : ((u.ipLive n).ipCause n k).get (ipB n 0) f = u.get (ipB n 0) f := by
    rw [State.get_ipCause_off _ _ _ _ (by omega) (by omega), State.get_ipLive_off _ _ _ (by omega)]
  constructor
  · rw [State.is, keeps _ _ rfl, State.get_puts_first _ _ _ _ _ (by decide) rfl, b2n_ne_zero]
  · rw [State.is, keeps _ _ rfl, State.get_puts_next _ _ _ _ _ fun u => State.get_puts_first u _ _ _ _ (by decide) rfl, b2n_ne_zero]

end

/-! Losing a candidate leaves alone the pages behind those of the timing core. -/

theorem State.rd_candDown (s : State) {a c : Nat} (h : gPage 0x023 ≤ a) (hc : c < 16) : (s.candDown c).rd a = s.rd a := by
  have tc (k : Nat) (hk : k < 0x1000) : a ≠ tcB + k := by simp only [gPage, tcB] at h ⊢; omega
  have cand : a ≠ candB c + F.CAND_WTR_LEFT.off := by simp only [gPage, candB] at h ⊢; omega
  unfold State.candDown
  split
  · refine (State.rd_raise_ne _ _ (tc _ (by decide))).trans ((State.rd_put_ne _ _ _ (tc _ (by decide))).trans ?_)
    exact State.rd_put_ne _ _ _ cand
  · rfl

theorem State.rd_setQl (s : State) {a c : Nat} (ql : Nat) (m : Bool) (h : gPage 0x023 ≤ a) (hc : c < 16) : (s.setQl c ql m).rd a = s.rd a := by
  have regs (u : State) (q : Nat) (b : Bool) : (u.qlRegs c q b).rd a = u.rd a := by
    have cand (k : Nat) (hk : k < 64) : a ≠ candB c + k := by simp only [gPage, candB] at h ⊢; omega
    refine (State.rd_raiseIf_ne _ _ _ (by simp only [gPage, tcB] at h ⊢; omega)).trans ?_
    rw [State.rd_put_ne _ _ _ (cand _ (by decide)), State.rd_put_ne _ _ _ (cand _ (by decide))]
  obtain ⟨q, hq⟩ : ∃ q, (if s.candActive c then ql else 15) = q := ⟨_, rfl⟩
  rw [State.setQl_eq s c ql m hq]
  split
  · rw [State.rd_candDown _ h hc, regs]
  · exact regs _ _ _

theorem State.rd_candLost (s : State) {a c : Nat} (h : gPage 0x023 ≤ a) (ht : a < 0x800000) (hc : c < 16) : (s.candLost c).rd a = s.rd a := by
  unfold State.candLost
  rw [State.rd_tcRefresh _ (by simp only [gPage, pageOf] at h ⊢; omega), State.rd_setQl _ _ _ h hc, State.rd_puts_ne]
  · exact State.rd_candDown s h hc
  · intro p hp
    have : p.1.off < 64 := by
      simp only [List.mem_cons, List.not_mem_nil, or_false] at hp
      rcases hp with rfl | rfl | rfl <;> decide
    simp only [gPage, candB] at h ⊢
    omega

/-! Uncorrectable table words (R357). -/

theorem State.entryDead_of_ip {s t : State} (h : t.ip = s.ip) (n a i : Nat) : t.entryDead n a i = s.entryDead n a i := by
  rw [State.entryDead, h, State.entryDead]

/-- An entry is given up. -/
def State.entryGone (s : State) (n a j : Nat) : State := s.modIp fun x => { x with dead := x.dead ++ [deadKey n a j] }

theorem State.entryDead_entryGone (s : State) (n a j : Nat) : (s.entryGone n a j).entryDead n a j = true :=
  List.contains_iff_mem.2 (List.mem_append_right _ (List.mem_singleton_self _))

theorem State.ip_keyedRefresh (s : State) (n c : Nat) : (s.keyedRefresh n c).ip = s.ip :=
  Part.same_of_erase (p := .ip) (m := 1) (by decide) (State.keyedRefresh_er rfl)

theorem State.ip_loadRefresh (s : State) (c : Nat) : (s.loadRefresh c).ip = s.ip :=
  Part.same_of_erase (p := .ip) (m := 1) (by decide) (State.loadRefresh_er rfl)

theorem State.ip_legsRefresh (s : State) (c : Nat) : (s.legsRefresh c).ip = s.ip :=
  Part.same_of_erase (p := .ip) (m := 1) (by decide) (State.legsRefresh_er rfl)

theorem State.ip_sourceStops (s : State) (c : Nat) (was : Bool) : (s.sourceStops c was).ip = s.ip :=
  Part.same_of_erase (p := .ip) (m := 5649) (by decide) (State.sourceStops_er rfl)

/-- A receive context without its entry. -/
def State.rxDown (s : State) (c : Nat) (was : Bool) : State :=
  (((s.puts (rxA c) [(F.RX_STAT_STATE, 0), (F.RX_STAT_ASYNC, 0)]).rxClear c).sourceStops (0x100 + c) was).legsRefresh c

theorem State.entryDead_rxDown (s : State) (c : Nat) (was : Bool) (n a j : Nat) : (s.rxDown c was).entryDead n a j = s.entryDead n a j := by
  have dead : ((s.puts (rxA c) [(F.RX_STAT_STATE, 0), (F.RX_STAT_ASYNC, 0)]).rxClear c).entryDead n a j =
    (s.puts (rxA c) [(F.RX_STAT_STATE, 0), (F.RX_STAT_ASYNC, 0)]).entryDead n a j := rfl
  rw [State.rxDown, State.entryDead_of_ip (State.ip_legsRefresh _ _), State.entryDead_of_ip (State.ip_sourceStops _ _ _), dead,
    State.entryDead_of_ip (State.puts_ip _ _ _)]

section
variable {n : Fin 4} {array : Fin 6} {i : Fin 512} {s : State}

/-- The entry of a table word: 32 channels, 256 contexts of each kind. -/
abbrev ueEntry (array : Fin 6) (i : Fin 512) : Nat := if array.val = 2 then i.val % 32 else i.val % 256

theorem exec_ipTableUe_entry (h : array.val < 3) : ∃ (was : Bool) (c : Nat), exec (.ipTableUe n array i) s = .next
    (if array.val = 2 then ((s.setFault (ipB n 0) array i).entryGone n array (ueEntry array i)).keyedRefresh n (ueEntry array i)
    else if array.val = 1 then (((s.setFault (ipB n 0) array i).entryGone n array (ueEntry array i)).put (txA c) F.TX_STAT_STATE 0).loadRefresh c
    else if s.rxType c != 0 then ((s.setFault (ipB n 0) array i).entryGone n array (ueEntry array i)).rxDown c was
    else (s.setFault (ipB n 0) array i).entryGone n array (ueEntry array i)) :=
  ⟨_, _, next_congr (if_pos h)⟩

theorem exec_ipTableUe_queue (h : 3 ≤ array.val) : exec (.ipTableUe n array i) s = .next
    (if array.val = 5 then (((s.setFault (ipB n 0) array i).ipCause n 22).setHqr n ((((s.setFault (ipB n 0) array i).ipCause n 22).hqr n).drop 1))
    else (s.setFault (ipB n 0) array i).ipCause n 22) :=
  next_congr (if_neg (Nat.not_lt.2 h))

theorem exec_ipTableUe_dead (h : array.val < 3) : Does (.ipTableUe n array i) s fun t => t.entryDead n array (ueEntry array i) = true := by
  obtain ⟨was, c, run⟩ := exec_ipTableUe_entry (n := n) (i := i) (s := s) h
  obtain ⟨j, hj⟩ : ∃ j, ueEntry array i = j := ⟨_, rfl⟩
  rw [hj] at run ⊢
  have dead := (s.setFault (ipB n 0) array i).entryDead_entryGone n array j
  refine Does.intro run ?_
  split
  · rw [State.entryDead_of_ip (State.ip_keyedRefresh _ _ _)]; exact dead
  split
  · rw [State.entryDead_of_ip (State.ip_loadRefresh _ _), State.entryDead_of_ip (State.put_ip _ _ _ _)]; exact dead
  split
  · rw [State.entryDead_rxDown]; exact dead
  · exact dead

theorem exec_ipTableUe_fault (h : 3 ≤ array.val) : Does (.ipTableUe n array i) s fun t => t.is (ipB n 0) F.STAT_FAULT = true := by
  have fault : ((s.setFault (ipB n 0) array i).ipCause n 22).is (ipB n 0) F.STAT_FAULT = true := by
    rw [State.is, State.get_ipCause_off _ _ _ _ (by decide) (by decide)]
    exact State.is_put_same _ _ _ _ (by decide)
  refine Does.intro (exec_ipTableUe_queue h) ?_
  split
  · rw [State.is_of_rd (State.rd_setHqr_ne _ _ _ (by simp only [ipB, gPage]; omega))]
    exact fault
  · exact fault

end

end Sys2Proof.Machine

namespace Sys2Proof
open Sys2Proof.Machine

/-- Settles O32: a queue's frames and registers move together, and a port's pins, transfers and tables give its status. -/
theorem hostQueuesAndLinks : Obligations.HostQueuesAndLinks := by
  unfold Obligations.HostQueuesAndLinks
  refine ⟨?_, ?_, ?_, ?_, ?_, ?_, ?_, ?_, ?_, ?_, ?_, ?_, ?_, ?_, ?_, ?_, ?_, ?_, fun n array i s h => exec_ipTableUe_dead h,
    fun n array i s h => exec_ipTableUe_fault h⟩
  · intro n s hp
    have run := exec_hqrPop (n := n) hp
    refine Does.intro run ⟨s.hqr_setHqr _ _, ?_, exec_same_eff run (by simp [touches])⟩
    rw [State.count_setHqr, List.length_drop]
  · intro n v s hp hb h1 h2
    have run := exec_hqtSend_sends (n := n) hp hb h1 h2
    refine Does.intro run ⟨?_, ?_, exec_same_eff run (by simp [touches])⟩
    · rw [State.is_of_regs (State.modIp_regs _ _), State.is, State.get_puts_first _ _ _ _ _ (by decide) rfl]
      rfl
    · refine (tget_tset_same [] _ _ _).trans (State.window8_congr fun b hb => ?_)
      exact s.rd_wr_ne _ (Nat.ne_of_gt (Nat.lt_of_lt_of_le (Nat.lt_add_of_pos_right (by decide)) hb))
  · exact fun n v s => exec_hqtSend_busy
  · exact fun n ts s => exec_hqtSent_ends
  · exact fun n ts s => exec_hqtSent_idle
  · exact fun n f s => exec_ethFrame_down
  · exact fun n f s => exec_ethFrame_unfit
  · exact fun n f s => exec_ethFrame_bad
  · intro n f s hu hf hc h1 h2 hk he hm hudp hh hr
    obtain ⟨mac, host⟩ := State.forHost_counted (n := n) (s := s) f.bytes
    have queue : (s.bump (ipB n 0) F.CNT_RX_FRAMES_COUNT).hqr n = s.hqr n := State.hqr_of_ip (State.bump_ip _ _ _ _) n
    refine Does.intro (exec_ethFrame_good hu hf hc h1 h2 hk he) ?_
    rw [State.ethRoute_host (hm.trans mac.symm) hudp (host.trans hh), State.hostQueue_of_room h2 (by rw [queue]; exact hr), queue]
    refine ⟨State.hqr_setHqr _ _ _, ?_⟩
    rw [State.get_of_rd (State.rd_setHqr_ne _ _ _ (by simp only [ipB, gPage]; omega)), State.get_bump_same _ _ _ _ (by decide)]
    rfl
  · intro n v s hp
    refine Does.intro (exec_optTransferStart hp) ⟨?_, State.i2cQ_setI2c _ _ _⟩
    rw [State.setI2c, State.is_of_regs (State.modIp_regs _ _)]
    exact State.is_put_same _ _ _ _ (by decide)
  · intro n r w l s h
    obtain ⟨queue, nack⟩ := s.optEnd_spec n l r.isNone
    rcases exec_optTransferDone_cases (r := r) h with run | ⟨m, run⟩ | ⟨b, run⟩
    · refine Does.intro run ⟨(State.i2cQ_of_ip (State.ip_ipCause _ _ _) n).trans queue, ?_⟩
      rw [State.is_of_rd (State.rd_ipCause_ne _ _ _ (by simp only [ipB, gPage]; omega) (by simp only [ipB, gPage]; omega))]
      exact nack
    · exact Does.intro run ⟨queue, nack⟩
    · refine Does.intro run ⟨(State.i2cQ_of_ip (State.ip_setWindow _ _ _ _) n).trans queue, ?_⟩
      rw [State.is, State.get_setWindow_below _ _ _ (by show _ + 8 < _; omega)]
      exact nack
  · exact fun n r s => exec_optTransferDone_idle
  · intro n b s h
    have run := exec_modChange_change h
    refine Does.intro run ⟨?_, exec_same_eff run (by simp [touches])⟩
    rw [State.is, State.get_ipCause_off _ _ _ _ (by decide) (by decide)]
    exact s.is_pin _ b rfl (by decide)
  · exact fun n b s => exec_modChange_same
  · intro n b s
    refine ⟨_, rfl, ?_, exec_same_eff (i := .modInt n b) rfl (by simp [touches])⟩
    have pin := s.is_pin (n := n) F.PORT_STAT_MOD_INT b rfl (by decide)
    split
    · rw [State.is, State.get_ipCause_off _ _ _ _ (by decide) (by decide)]
      exact pin
    · exact pin
  · intro n s h
    have run := exec_linkUp h
    obtain ⟨link, aligned⟩ := s.link_spec (n := n) true true 0
    exact Does.intro run ⟨link, aligned, exec_same_eff run (by simp [touches])⟩
  · intro n b s h
    have run := exec_linkDown (b := b) h
    obtain ⟨link, aligned⟩ := s.link_spec (n := n) false b 1
    have keeps (f : Fld) (hf : f.off = 0x44) :
        ((s.portDown n b).candLost (8 + n)).get (ipB n 0) f = (s.portDown n b).get (ipB n 0) f :=
      State.get_of_rd (State.rd_candLost _ (by simp only [ipB, gPage]; omega) (by rw [hf]; simp only [ipB, gPage]; omega) (by omega))
    refine Does.intro run (and_assoc.1 ⟨?_, exec_same_eff run (by simp [touches])⟩)
    split
    · exact ⟨by rw [State.is, keeps _ rfl]; exact link, by rw [State.is, keeps _ rfl]; exact aligned⟩
    · exact ⟨link, aligned⟩
  · intro n b s h ha
    have tc : (s.portDown n b).tc = s.tc :=
      Part.same_of_erase (p := .tc) (m := 17) (by decide) (State.ipCause_er (State.ipLive_er (State.puts_er rfl)))
    refine Does.intro ((exec_linkDown h).trans (next_congr (if_pos ?_))) (State.candLost_spec _ _)
    rw [State.candActive_of_tc tc]
    exact ha

end Sys2Proof
end

section
/-! Proofs about receive contexts of the media ports (R334, R335, R337, R340). -/

set_option Elab.async false

namespace Sys2Proof.Machine

/-! What a source that stops leaves alone: the pages of the media ports. -/

section
variable (s : State) {a : Nat}

theorem mem_enabled_lt {t i : Nat} (h : i ∈ s.enabled t) : i < routeN t := by
  simp only [State.enabled, State.entries, List.mem_filterMap] at h
  obtain ⟨p, ⟨q, _, hq⟩, hp⟩ := h
  split at hq
  · simp only [Option.some.injEq] at hq
    split at hp
    · simp only [Option.some.injEq] at hp
      subst hp hq
      simp only
      omega
    · cases hp
  · cases hq

theorem mem_allRoutes_lt {p : Nat × Nat} (h : p ∈ s.allRoutes) : p.2 < routeN p.1 := by
  simp only [State.allRoutes, List.mem_flatMap, List.mem_map] at h
  obtain ⟨t, _, i, hi, rfl⟩ := h
  exact mem_enabled_lt s hi

/-- A frame of a source in progress is cut short (R200). -/
def State.cutRing (u : State) (c k : Nat) : State :=
  if (u.ring k).bufs.any (fun b => b.st == 1 && b.src == c) then
    u.setRing k { u.ring k with bufs := (u.ring k).bufs.map fun b => if b.st = 1 ∧ b.src = c then b.clear else b }
  else u

theorem State.rd_cutRing (u : State) (c k a : Nat) : (u.cutRing c k).rd a = u.rd a := by
  unfold State.cutRing
  split <;> rfl

theorem State.sourceStops_eq (c : Nat) (was : Bool) : s.sourceStops c was = (if srcIsStore c
    then (((s.silo.rings.foldl (fun u p => u.cutRing c p.1) s).routesLose c was).contextsHold c).storesLose c
    else ((((s.silo.rings.foldl (fun u p => u.cutRing c p.1) s).routesLose c was).contextsHold c).storesLose c).siloStat c).floorLive := rfl

/-- An address of the media ports' own pages. -/
def ofPorts (a : Nat) : Prop := gPage 0x100 ≤ a ∧ a < gPage 0x140

variable (h : ofPorts a)
include h

theorem ofPorts.ne_flB {k : Nat} (hk : k < 0x1000) : a ≠ flB + k := by
  simp only [ofPorts, gPage] at h
  simp only [flB, gPage]
  omega

theorem State.rd_routeEvent_port (t i k : Nat) : (s.routeEvent t i k).rd a = s.rd a := by
  rw [State.routeEvent, State.puts_cons, State.puts_cons, State.puts_cons, State.puts_nil, State.rd_put_ne _ _ _ (h.ne_flB (by decide)),
    State.rd_put_ne _ _ _ (h.ne_flB (by decide)), State.rd_put_ne _ _ _ (h.ne_flB (by decide)), State.rd_raise_ne _ _ (h.ne_flB (by decide))]

theorem State.rd_routesLose_port (c : Nat) (was : Bool) : (s.routesLose c was).rd a = s.rd a := by
  refine State.rd_foldl fun p hp u => ?_
  have lt := mem_allRoutes_lt s (List.mem_filter.1 hp).1
  have ne : a ≠ routeStatA p.1 p.2 + F.ROUTE_STAT_SOURCE_OK.off := by
    obtain ⟨lo, hi⟩ := routeA_bounds lt
    simp only [ofPorts, gPage] at h
    simp only [routeStatA]
    omega
  split
  · rfl
  · rw [State.rd_routeEvent_port _ h, State.rd_put_ne _ _ _ ne]
    rfl

theorem State.rd_contextsHold_port (c : Nat) : (s.contextsHold c).rd a = s.rd a := by
  refine State.rd_foldl fun p _ u => ?_
  have ne : a ≠ ctxA p.1 p.2 + F.CTX_STAT_STATE.off := by
    simp only [ofPorts, gPage] at h
    simp only [ctxA, cvB, gPage]
    omega
  split
  · rw [State.rd_put_ne _ _ _ ne]
    rfl
  · rfl

theorem State.rd_siloStat_port {key : Nat} (hk : key < 0x1000) : (s.siloStat key).rd a = s.rd a := by
  simp only [ofPorts, gPage] at h
  unfold State.siloStat
  split
  next hs =>
    simp only [srcIsStore, Bool.and_eq_true, decide_eq_true_eq] at hs
    refine State.rd_puts_ne _ _ ?_
    simp only [List.mem_cons, List.not_mem_nil, or_false, forall_eq_or_imp, forall_eq, storeStatA, gPage]
    omega
  · refine State.rd_puts_ne _ _ ?_
    simp only [List.mem_cons, List.not_mem_nil, or_false, forall_eq_or_imp, forall_eq, sringStatA, gPage]
    omega

theorem State.rd_storesLose_port (c : Nat) : (s.storesLose c).rd a = s.rd a := by
  refine State.rd_foldl fun i hi u => ?_
  have lt : i < 512 := mem_enabled_lt s (List.mem_filter.1 hi).1
  simp only [State.storeStops]
  split
  · rw [State.rd_siloStat_port _ h (by omega), State.rd_contextsHold_port _ h, State.rd_routesLose_port _ h]
    rfl
  · rfl

/-- The registers of a context keep their value while its source stops. -/
theorem State.rd_sourceStops_port {c : Nat} (hc : c < 0x1000) (was : Bool) : (s.sourceStops c was).rd a = s.rd a := by
  rw [State.sourceStops_eq, State.rd_floorLive _ (h.ne_flB (by decide))]
  have lost : ((((s.silo.rings.foldl (fun u p => u.cutRing c p.1) s).routesLose c was).contextsHold c).storesLose c).rd a = s.rd a := by
    rw [State.rd_storesLose_port _ h, State.rd_contextsHold_port _ h, State.rd_routesLose_port _ h]
    exact State.rd_foldl fun p _ u => u.rd_cutRing c p.1 a
  split
  · exact lost
  · rw [State.rd_siloStat_port _ h hc]
    exact lost

end

/-! Sets of packets (R334). -/

theorem State.irx_of_ip {s t : State} (h : t.ip = s.ip) (c : Nat) : t.irx c = s.irx c := by rw [State.irx, h, State.irx]

/-- Markers and packets that wait for the sets to come. -/
def IpRx.coming (x : IpRx) : List Nat × List (Nat × RxPart) := (x.markers, x.held)

theorem State.ip_ipCauseAt (s : State) (n k i : Nat) : (s.ipCauseAt n k i).ip = s.ip :=
  Part.same_of_erase (p := .ip) (m := 17) (by decide) (State.ipCauseAt_er rfl)

theorem State.coming_rxFrameDone (s : State) (c : Nat) : ((s.rxFrameDone c).irx c).coming = (s.irx c).coming := by
  have bumped : (s.bump (rxA c) F.RX_FRAMES_COUNT).irx c = s.irx c := State.irx_of_ip (State.bump_ip _ _ _ _) c
  rw [State.rxFrameDone, State.rxStart]
  split
  · rw [bumped]
  · rw [State.irx_of_ip (State.ip_ipCauseAt _ _ _ _), State.irx_of_ip (State.ip_legsRefresh _ _), State.irx_setIrx_same]
    exact (congrArg IpRx.coming bumped : ((s.bump (rxA c) F.RX_FRAMES_COUNT).irx c).coming = _)

/-- The next set opens behind marker m (R334). -/
def State.rxNext (s : State) (c a m : Nat) (last : Bool) : State :=
  let i := s.irx c
  let next := i.markers.filter fun k => m < k
  let mine (n : Nat) : Bool := match next.head? with | some k => decide (n ≤ k) | none => true
  (i.held.filter fun p => mine p.1).foldl (fun u p => u.rxFeed c p.1 p.2) (s.setIrx c { i with
    start := some (m + 1), markers := next, prev := some (a, m), rows := [], whole := []
    gotA := i.gotA.filter fun n => a ≤ n
    gotB := i.gotB.filter fun n => a ≤ n
    held := i.held.filter fun p => !mine p.1
    anc := if last then [] else i.anc })

/-- The losses of the set that ends and of the one before are counted (R339). -/
def State.rxLosses (s : State) (c a m : Nat) : State :=
  let i := s.irx c
  let s := s.bump (rxA c) F.RX_UNRECOV_PACKETS (lacking a m (i.gotA ++ i.gotB))
  match i.prev with
  | some (p, q) =>
    let s := s.bumpLost c 0 (lacking p q i.gotA)
    if s.rxLegOn c 1 then s.bumpLost c 1 (lacking p q i.gotB) else s
  | none => s

theorem State.rxLosses_erased (s : State) (c a m : Nat) : erase 1 (s.rxLosses c a m) = erase 1 s := by
  unfold State.rxLosses
  simp only
  split
  · exact erase_ite (State.bumpLost_er (State.bumpLost_er (State.bump_er rfl))) (State.bumpLost_er (State.bump_er rfl))
  · exact State.bump_er rfl

theorem State.rxSetEnd_eq (s : State) (c a m : Nat) : ∃ (u v : State) (last : Bool),
    s.rxSetEnd c a m = (if last then v.rxFrameDone c else u).rxNext c a m last ∧ u.ip = s.ip ∧ v.ip = s.ip := by
  have losses : erase 37969 (s.rxLosses c a m) = erase 37969 s := erase_mono (by decide) (s.rxLosses_erased c a m)
  refine ⟨_, _, _, rfl, ?_, ?_⟩
  · refine Part.same_of_erase (p := .ip) (m := 37969) (by decide) ?_
    exact erase_ite (erase_foldl losses fun v y => State.siloLine_er rfl) losses
  · refine Part.same_of_erase (p := .ip) (m := 37969) (by decide) ?_
    refine erase_ite (State.ancOffer_er ?_) ?_ <;>
    exact erase_ite (erase_foldl losses fun v y => State.siloLine_er rfl) losses

/-- A set whose marker is the only one, with nothing held for the next. -/
theorem State.rxSetEnd_last {s : State} {c a m : Nat} (hm : (s.irx c).markers = [m]) (hh : (s.irx c).held = []) :
    ((s.rxSetEnd c a m).irx c).start = some (m + 1) ∧ ((s.rxSetEnd c a m).irx c).markers = [] ∧
    ((s.rxSetEnd c a m).irx c).prev = some (a, m) := by
  obtain ⟨u, v, last, e, hu, hv⟩ := s.rxSetEnd_eq c a m
  have coming : ((if last then v.rxFrameDone c else u).irx c).coming = ([m], []) := by
    have before : (s.irx c).coming = ([m], []) := by rw [IpRx.coming, hm, hh]
    split
    · rw [State.coming_rxFrameDone, State.irx_of_ip hv, before]
    · rw [State.irx_of_ip hu, before]
  obtain ⟨w, hw⟩ : ∃ w, (if last then v.rxFrameDone c else u) = w := ⟨_, rfl⟩
  rw [hw] at e coming
  obtain ⟨markers, held⟩ := Prod.mk.inj coming
  rw [e, State.rxNext]
  simp only [markers, held, List.filter_nil, List.foldl_nil, State.irx_setIrx_same, true_and, and_true]
  simp only [List.filter_cons, lt_irrefl, decide_false, List.filter_nil, Bool.false_eq_true, if_false]

/-! The commands. -/

section
variable {c : Fin 1024} {s : State}

theorem rxA_ofPorts (f : Fld) (h : f.off < 64) : ofPorts (rxA c + f.off) := by
  simp only [ofPorts, rxA, ipB, gPage]
  omega

theorem exec_rxFrameTimeout_spec {a m : Nat} (ht : s.rxType c = 1 ∨ s.rxType c = 4) (ha : (s.irx c).start = some a)
    (hm : (s.irx c).markers = [m]) (hh : (s.irx c).held = []) : Does (.rxFrameTimeout c) s fun t =>
      (t.irx c).start = some (m + 1) ∧ (t.irx c).markers = [] ∧ (t.irx c).prev = some (a, m) := by
  have spec := State.rxSetEnd_last (a := a) hm hh
  have run : exec (.rxFrameTimeout c) s = .next (s.rxSetEnd c a m) := by
    refine next_congr ((if_pos ht).trans ?_)
    rw [ha, hm]
    simp only [List.head?_cons, State.rxSets, spec.2.1, spec.1, List.head?_nil]
  exact Does.intro run spec

theorem exec_rxFrameTimeout_none (hm : (s.irx c).markers = []) : exec (.rxFrameTimeout c) s = .next s := by
  refine next_congr (ite_eq_right_iff.2 fun _ => ?_)
  rw [hm]
  cases (s.irx c).start <;> rfl

theorem exec_rxStreamLost (ht : s.rxType c ≠ 0) (hs : s.get (rxA c) F.RX_STAT_STATE = 2) : exec (.rxStreamLost c) s = .next
    (((((s.puts (rxA c) [(F.RX_STAT_STATE, 3), (F.RX_STAT_ASYNC, 0)]).rxClear c).ipCauseAt (c / 256) 6 c).sourceStops (0x100 + c) true).legsRefresh c) :=
  next_congr (if_pos ⟨ht, hs⟩)

theorem exec_legTimeout {b : Bool} (hs : s.get (rxA c) F.RX_STAT_STATE = 2) (ht : s.rxType c ≠ 0)
    (hl : s.rxLegOn c (if b then 1 else 0) = true) (hx : bitN (s.irx c).lost (if b then 1 else 0) = false) :
    exec (.legTimeout c b) s = .next (((s.setIrx c { s.irx c with lost := setBit (s.irx c).lost (if b then 1 else 0) true }).legsRefresh
      c).ipCauseAt (c / 256) 12 c) :=
  next_congr (if_pos ⟨hs, ht, hl, by rw [hx]; rfl⟩)

theorem exec_notReceiving {b : Bool} {ppb : Int} (hs : s.get (rxA c) F.RX_STAT_STATE ≠ 2) :
    exec (.rxStreamLost c) s = .next s ∧ exec (.legTimeout c b) s = .next s ∧ exec (.rxAsyncMeasure c ppb) s = .next s :=
  ⟨next_congr (if_neg fun h => hs h.2), next_congr (if_neg fun h => hs h.1), next_congr (if_neg fun h => hs h.2)⟩

theorem rxA_ne_page {n k : Nat} (f : Fld) (hf : f.off < 64) (hk : k < 0x1000) : rxA c + f.off ≠ ipB n 0 + k := by
  simp only [rxA, ipB, gPage]
  omega

theorem State.get_ipCauseAt_rx (u : State) (n k i : Nat) (f : Fld) (h : f.off < 64) :
    (u.ipCauseAt n k i).get (rxA c) f = u.get (rxA c) f := by
  refine State.get_of_rd ?_
  rw [State.ipCauseAt, State.puts_cons, State.puts_cons, State.puts_nil, State.rd_put_ne _ _ _ (rxA_ne_page f h (by decide)),
    State.rd_put_ne _ _ _ (rxA_ne_page f h (by decide)),
    State.rd_ipCause_ne _ _ _ (rxA_ne_page f h (by decide)) (rxA_ne_page f h (by decide))]

theorem State.get_legsRefresh_rx (u : State) (f : Fld) (h : f.off < 64) (h1 : F.RX_STAT_LEGA_OK.apart f = true)
    (h2 : F.RX_STAT_LEGB_OK.apart f = true) : (u.legsRefresh c).get (rxA c) f = u.get (rxA c) f := by
  have live (v : State) (k : Nat) (b : Bool) : (v.live (ipB (c / 256) 0) k b).get (rxA c) f = v.get (rxA c) f :=
    State.get_of_rd (State.rd_put_ne _ _ _ (rxA_ne_page f h (by show 0x1C < 0x1000; decide)))
  rw [State.legsRefresh, State.ipLive]
  simp only [live]
  exact State.get_puts_of_apart _ _ _ _ (by simp only [List.all_cons, h1, h2]; rfl)

theorem exec_rxStreamLost_spec (ht : s.rxType c ≠ 0) (hs : s.get (rxA c) F.RX_STAT_STATE = 2) : Does (.rxStreamLost c) s fun t =>
    t.get (rxA c) F.RX_STAT_STATE = 3 ∧ t.eff = s.eff := by
  have run := exec_rxStreamLost ht hs
  refine Does.intro run ⟨?_, exec_same_eff run (by simp [touches])⟩
  refine (State.get_legsRefresh_rx _ _ (by decide) rfl rfl).trans ?_
  refine (State.get_of_rd (State.rd_sourceStops_port _ (rxA_ofPorts F.RX_STAT_STATE (by decide)) (by omega) _)).trans ?_
  refine (State.get_ipCauseAt_rx _ _ _ _ _ (by decide)).trans ?_
  have clear (u : State) : (u.rxClear c).get (rxA c) F.RX_STAT_STATE = u.get (rxA c) F.RX_STAT_STATE := rfl
  rw [clear]
  exact State.get_puts_first _ _ _ _ _ (by decide) rfl

theorem exec_legTimeout_spec {b : Bool} (hs : s.get (rxA c) F.RX_STAT_STATE = 2) (ht : s.rxType c ≠ 0)
    (hl : s.rxLegOn c (if b then 1 else 0) = true) (hx : bitN (s.irx c).lost (if b then 1 else 0) = false) :
    Does (.legTimeout c b) s fun t => bitN (t.irx c).lost (if b then 1 else 0) = true ∧ t.eff = s.eff := by
  have run := exec_legTimeout hs ht hl hx
  refine Does.intro run ⟨?_, exec_same_eff run (by simp [touches])⟩
  rw [State.irx_of_ip (State.ip_ipCauseAt _ _ _ _), State.irx_of_ip (State.ip_legsRefresh _ _), State.irx_setIrx_same]
  exact bitN_setBit (s.irx c).lost _ true

/-- The stream leaves the limit of R337. -/
abbrev State.rxAsync (s : State) (ppb : Int) : Bool := decide (100 * max 1 (s.get arB F.AR_CFG_ASYNC_TENTHS_PPM) < ppb.natAbs)

theorem exec_rxAsyncMeasure {ppb : Int} (ht : s.rxType c = 2 ∨ s.rxType c = 3) (hs : s.get (rxA c) F.RX_STAT_STATE = 2) :
    exec (.rxAsyncMeasure c ppb) s = .next (if s.rxAsync ppb && !s.is (rxA c) F.RX_STAT_ASYNC
      then (s.put (rxA c) F.RX_STAT_ASYNC (b2n (s.rxAsync ppb))).ipCauseAt (c / 256) 9 c
      else s.put (rxA c) F.RX_STAT_ASYNC (b2n (s.rxAsync ppb))) :=
  next_congr (if_pos ⟨ht, hs⟩)

theorem exec_rxAsyncMeasure_spec {ppb : Int} (ht : s.rxType c = 2 ∨ s.rxType c = 3) (hs : s.get (rxA c) F.RX_STAT_STATE = 2) :
    Does (.rxAsyncMeasure c ppb) s fun t => t.is (rxA c) F.RX_STAT_ASYNC = s.rxAsync ppb ∧ t.eff = s.eff := by
  have run := exec_rxAsyncMeasure (ppb := ppb) ht hs
  have flag : (s.put (rxA c) F.RX_STAT_ASYNC (b2n (s.rxAsync ppb))).is (rxA c) F.RX_STAT_ASYNC = s.rxAsync ppb := by
    rw [State.is_put_same _ _ _ _ (by decide)]
    exact b2n_ne_zero _
  refine Does.intro run ⟨?_, exec_same_eff run (by simp [touches])⟩
  split
  · rw [State.is, State.get_ipCauseAt_rx _ _ _ _ _ (by decide)]
    exact flag
  · exact flag

end

end Sys2Proof.Machine
end

section
/-! Proofs about transmit contexts of the media ports (R342 to R345). -/

set_option Elab.async false

namespace Sys2Proof.Machine

theorem State.itx_of_ip {s t : State} (h : t.ip = s.ip) (c : Nat) : t.itx c = s.itx c := by rw [State.itx, h, State.itx]

theorem State.txType_of_parts {s t : State} (he : t.eff = s.eff) (hi : t.ip.dead = s.ip.dead) (c : Nat) : t.txType c = s.txType c := by
  have word (a : Nat) : t.effRd a = s.effRd a := by rw [State.effRd, he, State.effRd]
  have en : t.effIs (txA c) F.TX_CFG_EN = s.effIs (txA c) F.TX_CFG_EN := by rw [State.effIs, effGet_of_eff he, State.effIs]
  have dead : t.entryDead (c / 256) 1 (c % 256) = s.entryDead (c / 256) 1 (c % 256) := by rw [State.entryDead, hi, State.entryDead]
  rw [State.txType, en, dead, word, State.txType]

/-! Sending leaves every transmit context alone. -/

theorem State.itx_protect (s : State) (n k : Nat) (f : List Byte) (c : Nat) : (s.protect n k f).1.itx c = s.itx c := by
  have own (u : State) (j : Nat) (a : Assoc) : (u.setAssoc n k j a).itx c = u.itx c := rfl
  have raised (u : State) (g : Fld) (b : Nat) : ((u.put (scB n k) g 1).ipCauseAt n b k).itx c = u.itx c := by
    rw [State.itx_of_ip (State.ip_ipCauseAt _ _ _ _), State.itx_of_ip (State.put_ip _ _ _ _)]
  have pn (u : State) (j : Nat) : (u.pnRefresh n k j).itx c = u.itx c :=
    State.itx_of_ip (Part.same_of_erase (p := .ip) (m := 1) (by decide) (State.pnRefresh_er rfl)) c
  have marked (u : State) (p : Prop) [Decidable p] (g : Fld) (b : Nat) :
      (if p then (u.put (scB n k) g 1).ipCauseAt n b k else u).itx c = u.itx c := by
    split
    · exact raised u g b
    · rfl
  unfold State.protect
  simp only
  split
  · split
    · rfl
    · exact State.itx_of_ip (State.bump_ip _ _ _ _) c
  · simp only
    rw [pn, marked, marked, own]

theorem State.itx_portSend (s : State) (n : Nat) (sc : Option Nat) (f : List Byte) (c : Nat) : (s.portSend n sc f).itx c = s.itx c := by
  have counted (u : State) (g : Fld) : (u.bump (ipB n 0) g).itx c = u.itx c := State.itx_of_ip (State.bump_ip _ _ _ _) c
  unfold State.portSend
  split
  · exact counted _ _
  cases sc with
  | none => exact counted _ _
  | some k =>
    simp only
    have kept := s.itx_protect n k f c
    split
    · exact (counted _ _).trans kept
    · exact kept

theorem State.itx_rtpSend (s : State) (k : Nat) (marker : Bool) (seq ts : Nat) (l : List Byte) (c : Nat) :
    (s.rtpSend k marker seq ts l).itx c = s.itx c := by
  refine State.foldl_keeps (P := fun u => u.itx c = s.itx c) (fun x _ u t e hu => ?_) rfl
  rw [e]
  simp only
  split
  · rw [State.itx_portSend]
    exact (State.itx_of_ip (Part.same_of_erase (p := .ip) (m := 16777216) (by decide) (State.udpFrame_er rfl)) c).trans hu
  · exact hu

/-- Ancillary data of a video context goes out on the contexts linked to it, which are of another type. -/
theorem State.itx_ancSend {s : State} {c : Nat} (ht : s.txType c = 1) (ts ts2 : Nat) (l : List AncPkt) : (s.ancSend c ts ts2 l).itx c = s.itx c := by
  refine State.foldl_keeps (P := fun u => u.itx c = s.itx c) (fun k hk u t e hu => ?_) rfl
  have ne : c ≠ k := by
    rintro rfl
    have four := (Bool.and_eq_true_iff.1 (List.mem_filter.1 hk).2).1
    rw [ht] at four
    cases four
  rw [e]
  refine State.foldl_keeps (P := fun u => u.itx c = s.itx c) (fun q _ v w ew hv => ?_) hu
  rw [ew]
  refine State.foldl_keeps (P := fun u => u.itx c = s.itx c) (fun i _ x y ey hx => ?_) hv
  rw [ey]
  simp only
  split
  · rw [State.itx_setItx_ne _ _ _ ne, State.itx_rtpSend, hx]
  · exact hx

/-! The commands. -/

section
variable {c : Fin 1024} {s : State}

theorem exec_txFrameStart {k : Nat} {d : Int} (hw : s.partWords (txWord c) = []) (hd : (s.route 1 c).due = 0) :
    exec (.txFrameStart c k d) s = .next (if s.txType c = 1 then s.txFrame c k d else s) := by
  have take : s.txTake c = s := if_pos (by rw [hw]; rfl)
  have due : s.routeDue 1 c = s := by
    unfold State.routeDue
    simp only [hd]
  change execTxFrameStart c k d s = _
  simp only [execTxFrameStart, take, due]

end

/-- A frame begins: the context, its status and its ledger (R342, R344). -/
def State.txBegun (w : State) (c : Nat) (x : IpTx) (st was : Nat) (ts part : Int) : State :=
  (if st ≠ 1 ∧ was ≠ st then ((w.setItx c x).put (txA c) F.TX_STAT_STATE st).ipCauseAt (c / 256) 10 c
    else (w.setItx c x).put (txA c) F.TX_STAT_STATE st).txLedgerSet c ts part

/-- Ancillary data goes out with a frame that is shown; otherwise the frames read are let go. -/
def State.txGoes (u : State) (c st : Nat) : State :=
  if st = 1 then
    match u.txAnc c with
    | some (_, l) => u.ancSend c (u.itx c).ts (u.itx c).ts2 l
    | none => u
  else u.readersDone (128 + c)

theorem State.txFrame_eq (s : State) (c k : Nat) (d : Int) : ∃ (x : IpTx) (st was : Nat) (ts part : Int),
    s.txFrame c k d = (((s.frameRoll 1 c).selectReaders [(1, c)]).txBegun c x st was ts part).txGoes c st ∧
    x.sent = 0 ∧ x.seq = (((s.frameRoll 1 c).selectReaders [(1, c)]).itx c).seq :=
  ⟨_, _, _, _, _, rfl, rfl, rfl⟩

/-- What begins a frame, beside its own context. -/
theorem State.txBegun_erased (w : State) (c : Nat) (x : IpTx) (st was : Nat) (ts part : Int) :
    erase 529 (w.txBegun c x st was ts part) = erase 529 (w.setItx c x) :=
  State.txLedgerSet_er (erase_ite (State.ipCauseAt_er (State.put_er rfl)) (State.put_er rfl))

theorem State.itx_txGoes {u : State} {c : Nat} (ht : u.txType c = 1) (st : Nat) : (u.txGoes c st).itx c = u.itx c := by
  unfold State.txGoes
  split
  · split
    · exact State.itx_ancSend ht _ _ _
    · rfl
  · exact State.itx_of_ip (Part.same_of_erase (p := .ip) (m := 1024) (by decide) (State.readersDone_er rfl)) c

theorem State.txFrame_spec {s : State} {c : Nat} (ht : s.txType c = 1) (k : Nat) (d : Int) :
    ((s.txFrame c k d).itx c).sent = 0 ∧ ((s.txFrame c k d).itx c).seq = (s.itx c).seq := by
  obtain ⟨x, st, was, ts, part, e, sent, seq⟩ := s.txFrame_eq c k d
  obtain ⟨w, hw⟩ : ∃ w, (s.frameRoll 1 c).selectReaders [(1, c)] = w := ⟨_, rfl⟩
  have erased : erase 1536 w = erase 1536 s := hw ▸ State.selectReaders_er (State.frameRoll_er rfl)
  have ip : w.ip = s.ip := Part.same_of_erase (p := .ip) (by decide) erased
  have eff : w.eff = s.eff := Part.same_of_erase (p := .eff) (by decide) erased
  rw [hw] at e seq
  have begun := w.txBegun_erased c x st was ts part
  have bip : (w.txBegun c x st was ts part).ip = (w.setItx c x).ip := Part.same_of_erase (p := .ip) (by decide) begun
  have beff : (w.txBegun c x st was ts part).eff = (w.setItx c x).eff := Part.same_of_erase (p := .eff) (by decide) begun
  have type : (w.txBegun c x st was ts part).txType c = 1 := by
    have own : (w.setItx c x).ip.dead = w.ip.dead := rfl
    rw [State.txType_of_parts (beff.trans (w.setItx_eff c x)) ((congrArg Ip.dead bip).trans own), State.txType_of_parts eff (congrArg Ip.dead ip), ht]
  rw [e, State.itx_txGoes type, State.itx_of_ip bip, State.itx_setItx_same]
  exact ⟨sent, seq.trans (congrArg IpTx.seq (State.itx_of_ip ip c))⟩

/-! Packets. -/

section
variable {c : Fin 1024} {s : State}

theorem exec_txPacketSend {na nb : Nat} (ht : s.txType c = 1) (hw : (s.itx c).what ≠ 2)
    (hs : (s.itx c).sent < fieldPackets (s.txFmtWord c) * fieldsOf (s.txFmtWord c)) : ∃ (u : State) (b l : Prop) (_ : Decidable b) (_ : Decidable l),
    exec (.txPacketSend c na nb) s = .next
      (let v := u.setItx c { u.itx c with seq := ((s.itx c).seq + 1) % 2 ^ 32, sent := (s.itx c).sent + 1 }
       let w := if b then v.readersDone (128 + c) else v
       if l then (w.bump (txA c) F.TX_LATE_PACKETS).ipCauseAt (c / 256) 11 c else w) :=
  ⟨_, _, _, _, _, next_congr (if_pos ⟨ht, hw, hs⟩)⟩

theorem exec_txPacketSend_spec {na nb : Nat} (ht : s.txType c = 1) (hw : (s.itx c).what ≠ 2)
    (hs : (s.itx c).sent < fieldPackets (s.txFmtWord c) * fieldsOf (s.txFmtWord c)) : Does (.txPacketSend c na nb) s fun t =>
      (t.itx c).seq = ((s.itx c).seq + 1) % 2 ^ 32 ∧ (t.itx c).sent = (s.itx c).sent + 1 := by
  obtain ⟨u, b, l, _, _, run⟩ := exec_txPacketSend (na := na) (nb := nb) ht hw hs
  refine Does.intro run ?_
  have same (v : State) : (if l then ((if b then v.readersDone (128 + c) else v).bump (txA c) F.TX_LATE_PACKETS).ipCauseAt (c / 256) 11 c
      else if b then v.readersDone (128 + c) else v).itx c = v.itx c :=
    State.itx_of_ip (Part.same_of_erase (p := .ip) (m := 1041) (by decide) (erase_ite (State.ipCauseAt_er (State.bump_er (erase_ite
      (State.readersDone_er rfl) rfl))) (erase_ite (State.readersDone_er rfl) rfl))) c
  simp only [same, State.itx_setItx_same, and_true]

theorem exec_txPacketSend_none {na nb : Nat} (h : s.txType c ≠ 1 ∨ (s.itx c).what = 2) : exec (.txPacketSend c na nb) s = .next s :=
  next_congr (if_neg fun g => h.elim (fun e => e g.1) fun e => g.2.1 e)

theorem exec_txAudioPacket {n : Nat} (ht : s.txType c = 2 ∨ s.txType c = 3) (hn : n % audPacket (s.txType c) (s.txAudWord c) = 0) :
    ∃ u v : State, exec (.txAudioPacket c n) s = .next (v.setItx c { u.itx c with seq := ((u.itx c).seq + 1) % 2 ^ 32 }).rqRefresh ∧
      u.ip = s.ip := by
  refine ⟨_, _, next_congr (if_pos ⟨ht, hn⟩), ?_⟩
  refine Part.same_of_erase (p := .ip) (m := 16777216 + 8192) (by decide) (State.modAud_er (erase_foldl_fst rfl fun q x => ?_))
  exact State.audBytes_er rfl

theorem exec_txAudioPacket_spec {n : Nat} (ht : s.txType c = 2 ∨ s.txType c = 3) (hn : n % audPacket (s.txType c) (s.txAudWord c) = 0) :
    Does (.txAudioPacket c n) s fun t => (t.itx c).seq = ((s.itx c).seq + 1) % 2 ^ 32 := by
  obtain ⟨u, v, run, ip⟩ := exec_txAudioPacket ht hn
  refine Does.intro run ?_
  rw [State.itx_of_ip (Part.same_of_erase (p := .ip) (m := 1) (by decide) (State.rqRefresh_er rfl)), State.itx_setItx_same, State.itx_of_ip ip]

theorem exec_txAudioPacket_none {n : Nat} (hn : n % audPacket (s.txType c) (s.txAudWord c) ≠ 0) : exec (.txAudioPacket c n) s = .next s :=
  next_congr (if_neg fun g => hn g.2)

end

end Sys2Proof.Machine
end

section
/-! Proofs about the PTP instances of the media ports (R348 to R350), and the statement on media contexts. -/

set_option Elab.async false

namespace Sys2Proof.Machine

theorem State.ptp_of_ip {s t : State} (h : t.ip = s.ip) (n : Nat) : t.ptp n = s.ptp n := by rw [State.ptp, h, State.ptp]

theorem State.ip_ptpState (s : State) (n st : Nat) : (s.ptpState n st).ip = s.ip :=
  Part.same_of_erase (p := .ip) (m := 17) (by decide) (State.ptpState_er rfl)

/-- A selection keeps the Announce messages that are in force. -/
theorem State.masters_ptpSelect (s : State) (n : Nat) : ((s.ptpSelect n).ptp n).masters = (s.ptp n).masters := by
  have refreshed (u : State) (l : List (Fld × Nat)) : (((u.puts (candB (8 + n)) l).requal (8 + n)).tcRefresh).ptp n = u.ptp n :=
    State.ptp_of_ip (Part.same_of_erase (p := .ip) (m := 145) (by decide) (State.tcRefresh_er (State.requal_er (State.puts_er rfl)))) n
  unfold State.ptpSelect
  simp only
  split
  · rw [State.ptp_of_ip (State.ip_ptpState _ _ _), State.ptp_of_ip (State.put_ip _ _ _ _), State.ptp_setPtp_same]
  · rw [refreshed]
    split
    · rfl
    · rw [State.ptp_of_ip (State.ip_ptpState _ _ _), State.ptp_of_ip (State.ip_ipCause _ _ _), State.ptp_of_ip (State.puts_ip _ _ _),
        State.ptp_setPtp_same]

/-- What an offset leaves of a PTP clock: all but its mark. -/
def Ptp.exchange (x : Ptp) : Option (Nat × Option Int × Int) × Option (Nat × Int) × Option Int := (x.sync, x.req, x.delay)

theorem State.exchange_ptpOffset (s : State) (n : Nat) : ((s.ptpOffset n).ptp n).exchange = (s.ptp n).exchange := by
  have shown (u : State) (v : Int) : ((u.puti (ipB n 1) F.OFFSET_NS v).ptpState n 3).ptp n = u.ptp n :=
    State.ptp_of_ip (Part.same_of_erase (p := .ip) (m := 17) (by decide) (State.ptpState_er (State.puti_er rfl))) n
  unfold State.ptpOffset
  simp only
  split
  · rw [shown, State.ptp_setPtp_same]
    rfl
  · rfl

/-! The commands. -/

section
variable {n : Fin 4} {s : State} {d : Byte} {sender : Nat}

/-- A message of an accepted sender in the domain of the PTP clock (R348). -/
def State.ptpOn (s : State) (n : Nat) (d : Byte) (sender : Nat) : Prop :=
  s.is (ipB n 1) F.PTP_CFG_EN = true ∧ s.portUp n = true ∧ d.toNat = s.get (ipB n 1) F.PTP_CFG_DOMAIN ∧ s.ptpAccepts n sender = true

theorem State.ptpOn.test (h : s.ptpOn n d sender) : (s.is (ipB n 1) F.PTP_CFG_EN && s.portUp n && d.toNat == s.get (ipB n 1) F.PTP_CFG_DOMAIN &&
    s.ptpAccepts n sender) = true := by
  obtain ⟨en, up, domain, accepts⟩ := h
  rw [en, up, domain, accepts, beq_self_eq_true]
  rfl

/-- The selected master sent it. -/
theorem ptpParent_test {port : Nat} (h2 : 2 ≤ s.get (ipB n 1) F.PTP_STAT_STATE) (hp : s.ptpParent n = (sender, port)) :
    (decide (2 ≤ s.get (ipB n 1) F.PTP_STAT_STATE) && s.ptpParent n == (sender, port)) = true := by
  rw [hp, decide_eq_true h2, beq_self_eq_true]
  rfl

theorem State.ptpOn.testParent {port : Nat} (h : s.ptpOn n d sender) (h2 : 2 ≤ s.get (ipB n 1) F.PTP_STAT_STATE)
    (hp : s.ptpParent n = (sender, port)) : ((s.is (ipB n 1) F.PTP_CFG_EN && s.portUp n && d.toNat == s.get (ipB n 1) F.PTP_CFG_DOMAIN &&
    s.ptpAccepts n sender) && (decide (2 ≤ s.get (ipB n 1) F.PTP_STAT_STATE) && s.ptpParent n == (sender, port))) = true := by
  rw [h.test, ptpParent_test h2 hp]
  rfl

theorem exec_announce {a : Announce} (h : s.ptpOn n d a.sender) : exec (.ptpMessage n (.announce d a)) s = .next
    ((s.setPtp n { s.ptp n with masters := a :: (s.ptp n).masters.filter fun q => !(q.sender == a.sender && q.port == a.port) }).ptpSelect n) :=
  next_congr (if_pos h.test)

theorem exec_sync {port seq : Nat} {two : Bool} {t1 t2 : Int} (h : s.ptpOn n d sender) (h2 : 2 ≤ s.get (ipB n 1) F.PTP_STAT_STATE)
    (hp : s.ptpParent n = (sender, port)) : ∃ u : State, exec (.ptpMessage n (.sync d sender port seq two t1 t2)) s = .next
      (((u.setPtp n { s.ptp n with sync := some (seq, if two then none else some t1, t2) }).put (ipB n 1) F.PTP_STAT_TWO_STEP
        (b2n two)).ptpOffset n) :=
  ⟨_, next_congr (if_pos (h.testParent h2 hp))⟩

theorem exec_followUp {port seq : Nat} {t1 t2 : Int} (h : s.ptpOn n d sender) (h2 : 2 ≤ s.get (ipB n 1) F.PTP_STAT_STATE)
    (hp : s.ptpParent n = (sender, port)) (hs : (s.ptp n).sync = some (seq, none, t2)) :
    exec (.ptpMessage n (.followUp d sender port seq t1)) s = .next ((s.setPtp n { s.ptp n with sync := some (seq, some t1, t2) }).ptpOffset n) := by
  refine next_congr ((if_pos (h.testParent h2 hp)).trans ?_)
  rw [hs]
  exact if_pos rfl

theorem exec_delayResp {port seq k : Nat} {t1 t2 t3 t4 : Int} (h : s.ptpOn n d sender) (h2 : 2 ≤ s.get (ipB n 1) F.PTP_STAT_STATE)
    (hp : s.ptpParent n = (sender, port)) (hr : (s.ptp n).req = some (seq, t3)) (hs : (s.ptp n).sync = some (k, some t1, t2)) :
    exec (.ptpMessage n (.delayResp d sender port seq t4)) s = .next
      (((s.setPtp n { s.ptp n with req := none, delay := some (((t2 - t1) + (t4 - t3)) / 2) }).puti (ipB n 1) F.MEAN_DELAY_NS
        (clampI (-2147483648) 2147483647 (((t2 - t1) + (t4 - t3)) / 2))).ptpOffset n) := by
  refine next_congr ((if_pos (h.testParent h2 hp)).trans ?_)
  simp only [hr, hs, if_true]

theorem exec_ptpMessage_off {m : PtpMsg} (h : s.is (ipB n 1) F.PTP_CFG_EN = false) : exec (.ptpMessage n m) s = .next s := by
  cases m <;> exact next_congr (if_neg (by simp [h]))

theorem exec_delayReq_off {t3 : Int} (h : s.is (ipB n 1) F.PTP_CFG_EN = false) : exec (.delayReq n t3) s = .next s :=
  next_congr (if_neg (by rw [h]; exact Bool.false_ne_true))

theorem exec_delayReq {t3 : Int} (he : s.is (ipB n 1) F.PTP_CFG_EN = true) (h2 : 2 ≤ s.get (ipB n 1) F.PTP_STAT_STATE) : ∃ u : State,
    exec (.delayReq n t3) s = .next (u.setPtp n { s.ptp n with req := some ((s.ptp n).reqSeq, t3), reqSeq := ((s.ptp n).reqSeq + 1) % 65536 }) :=
  ⟨_, next_congr (if_pos (by rw [he, decide_eq_true h2]; rfl))⟩

theorem exec_announceTimeout (h : (s.ptp n).masters.any (fun a => a.sender == sender) = true) : ∃ mine : Bool,
    exec (.announceTimeout n sender) s = .next
      (let u := ((s.setPtp n { s.ptp n with masters := (s.ptp n).masters.filter fun a => a.sender != sender }).bump (ipB n 1)
        F.PTP_CNT_ANN_TIMEOUTS).ptpSelect n
       if mine && u.candActive (8 + n) then u.candLost (8 + n) else u) :=
  ⟨_, next_congr (if_pos h)⟩

theorem exec_announceTimeout_spec (h : (s.ptp n).masters.any (fun a => a.sender == sender) = true) : Does (.announceTimeout n sender) s fun t =>
    (t.ptp n).masters = (s.ptp n).masters.filter fun a => a.sender != sender := by
  obtain ⟨mine, run⟩ := exec_announceTimeout h
  refine Does.intro run ?_
  have lost (u : State) (c : Bool) : ((if c then u.candLost (8 + n) else u).ptp n).masters = (u.ptp n).masters := by
    split
    · rw [State.ptp_of_ip (Part.same_of_erase (p := .ip) (m := 145) (by decide) (State.candLost_er rfl))]
    · rfl
  simp only [lost]
  rw [State.masters_ptpSelect, State.ptp_of_ip (State.bump_ip _ _ _ _), State.ptp_setPtp_same]

end

end Sys2Proof.Machine

namespace Sys2Proof
open Sys2Proof.Machine

/-- Settles O33: each event of a context or PTP clock changes the part of it that the event names. -/
theorem mediaContexts : Obligations.MediaContexts := by
  unfold Obligations.MediaContexts
  refine ⟨?_, ?_, ?_, ?_, ?_, ?_, ?_, ?_, ?_, ?_, ?_, ?_, ?_, ?_, ?_, ?_, ?_, ?_, ?_, ?_⟩
  · exact fun c a m s => exec_rxFrameTimeout_spec
  · exact fun c s => exec_rxFrameTimeout_none
  · exact fun c s => exec_rxStreamLost_spec
  · exact fun c b ppb s => exec_notReceiving
  · exact fun c b s => exec_legTimeout_spec
  · exact fun c ppb s => exec_rxAsyncMeasure_spec
  · intro c k d s hw hd ht
    refine Does.intro (exec_txFrameStart hw hd) ?_
    rw [if_pos ht]
    exact State.txFrame_spec ht k d
  · exact fun c k d s hw hd ht => (exec_txFrameStart hw hd).trans (next_congr (if_neg ht))
  · exact fun c na nb s => exec_txPacketSend_spec
  · exact fun c na nb s => exec_txPacketSend_none
  · exact fun c n s => exec_txAudioPacket_spec
  · exact fun c n s => exec_txAudioPacket_none
  · intro n d a s he hu hd hc
    refine Does.intro (exec_announce ⟨he, hu, hd, hc⟩) ?_
    rw [State.masters_ptpSelect, State.ptp_setPtp_same]
    exact List.mem_cons_self
  · intro n d sender port seq two t1 t2 s he hu hd hc h2 hp
    obtain ⟨u, run⟩ := exec_sync ⟨he, hu, hd, hc⟩ h2 hp
    refine Does.intro run ?_
    refine (congrArg Prod.fst (State.exchange_ptpOffset _ n)).trans ?_
    rw [State.ptp_of_ip (State.put_ip _ _ _ _), State.ptp_setPtp_same]
    rfl
  · intro n d sender port seq t1 t2 s he hu hd hc h2 hp hs
    refine Does.intro (exec_followUp ⟨he, hu, hd, hc⟩ h2 hp hs) ?_
    refine (congrArg Prod.fst (State.exchange_ptpOffset _ n)).trans ?_
    rw [State.ptp_setPtp_same]
    rfl
  · intro n d sender port seq k t1 t2 t3 t4 s he hu hd hc h2 hp hr hs
    have ip (u : State) (v : Int) : (u.puti (ipB n 1) F.MEAN_DELAY_NS v).ip = u.ip :=
      Part.same_of_erase (p := .ip) (m := 1) (by decide) (State.puti_er rfl)
    refine Does.intro (exec_delayResp ⟨he, hu, hd, hc⟩ h2 hp hr hs) ?_
    have kept := State.exchange_ptpOffset ((s.setPtp n { s.ptp n with req := none, delay := some (((t2 - t1) + (t4 - t3)) / 2) }).puti
      (ipB n 1) F.MEAN_DELAY_NS (clampI (-2147483648) 2147483647 (((t2 - t1) + (t4 - t3)) / 2))) n
    rw [State.ptp_of_ip (ip _ _), State.ptp_setPtp_same] at kept
    obtain ⟨_, rest⟩ := Prod.mk.inj kept
    obtain ⟨req, delay⟩ := Prod.mk.inj rest
    exact ⟨delay, req⟩
  · exact fun n m t3 s h => ⟨exec_ptpMessage_off h, exec_delayReq_off h⟩
  · exact fun n sender s => exec_announceTimeout_spec
  · exact fun n sender s h => next_congr (if_neg (by rw [h]; exact Bool.false_ne_true))
  · intro n t3 s he h2
    obtain ⟨u, run⟩ := exec_delayReq (t3 := t3) he h2
    exact Does.intro run (by rw [State.ptp_setPtp_same]; exact ⟨rfl, rfl⟩)

end Sys2Proof
end

section
/-! Proofs about the channels of the memory: failure, training, restoration, rebuild and the self-test (R370 to R395). -/

set_option Elab.async false

namespace Sys2Proof.Machine

/-! What the sums and the memory's status leave alone. -/

/-- Of Winnow's page the sums change the rate in effect only. -/
theorem State.rd_sumsRefresh_winnow (s : State) {k : Nat} (hk : k < 0x1000) (h : k ≠ F.WN_RATE_EFF_STRIPES.off) :
    s.sumsRefresh.rd (wnB + k) = s.rd (wnB + k) := by
  have floor (j : Nat) (hj : j < 0x1000) : wnB + k ≠ flB + j := by simp only [wnB, flB, gPage]; omega
  have silo (j : Nat) (hj : j < 0x1000) : wnB + k ≠ siloB + j := by simp only [wnB, siloB, gPage]; omega
  unfold State.sumsRefresh
  dsimp only
  rw [State.rd_live_ne _ _ _ (silo _ (by decide)), State.rd_raiseIf_ne _ _ _ (silo _ (by decide)), State.rd_put_ne _ _ _ (silo _ (by decide)),
    State.rd_put_ne _ _ _ (silo _ (by decide)), State.rd_live_ne _ _ _ (silo _ (by decide)), State.rd_raiseIf_ne _ _ _ (silo _ (by decide)),
    State.rd_forAll fun i hi u => State.rd_put_ne _ _ _ ?_, State.rd_put_ne _ _ _ (silo _ (by decide)),
    State.rd_live_ne _ _ _ (floor _ (by decide)), State.rd_raiseIf_ne _ _ _ (floor _ (by decide)), State.rd_put_ne _ _ _ (floor _ (by decide)),
    State.rd_put_ne _ _ _ (floor _ (by decide)), State.rd_forAll fun i hi u => ?_]
  · rw [State.wnRate]
    exact State.rd_put_ne _ _ _ (by omega)
  · have := List.mem_range.1 hi
    rw [State.rd_put_ne _ _ _ (by simp only [wnB, flB, gPage]; omega), State.rd_put_ne _ _ _ (by simp only [wnB, flB, gPage]; omega)]
  · have := List.mem_range.1 hi
    simp only [wnB, siloB, gPage]; omega

/-- A register of a memory channel or of Winnow that no refresh writes. -/
def memKept (a : Nat) : Prop := (∃ c < 12, ∃ k < 0x100, k ≠ 0x1C ∧ k ≠ 0x10 ∧ a = mcB c + k) ∨
  ∃ k < 0x100, k ≠ 0x1C ∧ k ≠ 0x10 ∧ k ≠ F.WN_RATE_EFF_STRIPES.off ∧ a = wnB + k

theorem State.rd_sumsRefresh_kept (s : State) {a : Nat} (h : memKept a) : s.sumsRefresh.rd a = s.rd a := by
  rcases h with ⟨c, hc, k, hk, -, -, rfl⟩ | ⟨k, hk, -, -, h, rfl⟩
  · refine State.rd_sumsRefresh _ ?_
    simp only [pageOf, mcB, gPage]
    omega
  · exact State.rd_sumsRefresh_winnow _ (by omega) h

/-- The registers of the limit, and the events and sums that follow. -/
theorem State.limitRefresh_eq (s : State) : ∃ (limit failed : Nat) (x : Silo) (change failing : Bool), s.limitRefresh =
    ((((s.puts siloB [(F.SILO_LIMIT_MBPS, limit), (F.SILO_LIMIT_FAILED, failed)]).modSilo fun _ => x).raiseIf change siloB 9).live
      siloB 9 failing).sumsRefresh :=
  ⟨_, _, _, _, _, rfl⟩

theorem State.rd_limitRefresh_kept (s : State) {a : Nat} (h : memKept a) : s.limitRefresh.rd a = s.rd a := by
  have silo (j : Nat) (hj : j < 0x1000) : a ≠ siloB + j := by
    rcases h with ⟨c, hc, k, hk, -, -, rfl⟩ | ⟨k, hk, -, -, h, rfl⟩ <;> simp only [mcB, wnB, siloB, gPage] <;> omega
  obtain ⟨limit, failed, x, change, failing, e⟩ := s.limitRefresh_eq
  rw [e, State.rd_sumsRefresh_kept _ h, State.rd_live_ne _ _ _ (silo _ (by decide)), State.rd_raiseIf_ne _ _ _ (silo _ (by decide)),
    State.rd_modSilo, State.puts_cons, State.puts_cons, State.puts_nil, State.rd_put_ne _ _ _ (silo _ (by decide)),
    State.rd_put_ne _ _ _ (silo _ (by decide))]

theorem memKept.ne_channel {a c k : Nat} (h : memKept a) (hk : k = 0x1C ∨ k = 0x10 ∨ 0x100 ≤ k ∧ k < 0x1000) : a ≠ mcB c + k := by
  rcases h with ⟨d, hd, j, hj, h1, h2, rfl⟩ | ⟨j, hj, h1, h2, -, rfl⟩ <;> simp only [mcB, wnB, gPage] <;> omega

theorem memKept.ne_winnow {a k : Nat} (h : memKept a) (hk : k = 0x1C ∨ k = 0x10) : a ≠ wnB + k := by
  rcases h with ⟨d, hd, j, hj, h1, h2, rfl⟩ | ⟨j, hj, h1, h2, -, rfl⟩ <;> simp only [mcB, wnB, gPage] <;> omega

theorem State.rd_memRefresh_kept (s : State) {a : Nat} (h : memKept a) : s.memRefresh.rd a = s.rd a := by
  unfold State.memRefresh
  dsimp only
  rw [State.rd_limitRefresh_kept _ h,
    State.rd_forAll fun c _ u => State.rd_live_ne _ _ _ (h.ne_channel (.inl rfl)),
    State.rd_live_ne _ _ _ (h.ne_winnow (.inl rfl)), State.rd_live_ne _ _ _ (h.ne_winnow (.inl rfl)),
    State.rd_raiseIf_ne _ _ _ (h.ne_winnow (.inr rfl))]
  refine State.rd_puts_ne s _ ?_
  simp only [List.forall_mem_cons]
  exact ⟨h.ne_channel (.inr (.inr (by decide))), h.ne_channel (.inr (.inr (by decide))), h.ne_channel (.inr (.inr (by decide))), fun _ h => absurd h List.not_mem_nil⟩

theorem memKept_channel {c : Nat} (f : Fld) (hc : c < 12) (h : f.off < 0x100) (h1 : f.off ≠ 0x1C) (h2 : f.off ≠ 0x10) : memKept (mcB c + f.off) :=
  .inl ⟨c, hc, f.off, h, h1, h2, rfl⟩

theorem memKept_rebuild : memKept (wnB + 0x74) := .inr ⟨0x74, by decide, by decide, by decide, by decide, rfl⟩

theorem State.mem_memRefresh (s : State) : s.memRefresh.mem = s.mem :=
  Part.same_of_erase (p := .mem) (m := 1041) (by decide) (State.memRefresh_er rfl)

/-! A channel that fails (R382). -/

/-- A channel is marked failed after the rebuild in progress has ended. -/
theorem State.markFailed_eq {s : State} {c : Nat} (h : s.get (mcB c) F.MC_STAT_STATE ≠ 3) (reason : Nat) : ∃ u : State, s.markFailed c reason =
    (((u.puts (mcB c) [(F.MC_STAT_STATE, 3), (F.MC_STAT_REASON, reason)]).raise (mcB c) 1).live (mcB c) 1 true).modMem
      fun x => { x with restoring := setBit x.restoring c false } :=
  ⟨_, if_neg h⟩

theorem State.get_markFailed {s : State} {c : Nat} (h : s.get (mcB c) F.MC_STAT_STATE ≠ 3) {reason : Nat} (hr : reason < 8) :
    (s.markFailed c reason).get (mcB c) F.MC_STAT_STATE = 3 ∧ (s.markFailed c reason).get (mcB c) F.MC_STAT_REASON = reason := by
  obtain ⟨u, e⟩ := State.markFailed_eq h reason
  have kept (v : State) (f : Fld) (hf : f.off = 0x44) : ((((v.raise (mcB c) 1).live (mcB c) 1 true).modMem
      fun x => { x with restoring := setBit x.restoring c false }).get (mcB c) f) = v.get (mcB c) f := by
    rw [State.get_modMem, State.get_live_off _ _ _ _ _ (by omega), State.get_raise_off _ _ _ _ (by omega)]
  rw [e, kept _ _ rfl, kept _ _ rfl]
  refine ⟨State.get_puts_first _ _ _ _ _ (by decide) rfl, ?_⟩
  rw [State.get_puts_next _ _ _ _ _ fun u => State.get_puts_first u _ _ _ _ (by decide) rfl]
  exact Nat.mod_eq_of_lt (b := 2 ^ 4) (by omega)

theorem State.markFailed_failed {s : State} {c : Nat} (h : s.get (mcB c) F.MC_STAT_STATE = 3) (reason : Nat) : s.markFailed c reason = s := if_pos h

section
variable {c : Fin 12} {s : State}

theorem exec_fails {i : Instr} {reason : Nat} (run : exec i s = .next (s.markFailed c reason)) (hr : reason < 8)
    (hs : s.get (mcB c) F.MC_STAT_STATE ≠ 3) :
    Does i s fun t => t.get (mcB c) F.MC_STAT_STATE = 3 ∧ t.get (mcB c) F.MC_STAT_REASON = reason :=
  Does.intro run (State.get_markFailed hs hr)

theorem exec_channelFailCause_other {reason : Fin 8} (h2 : reason ≠ 2) (h3 : reason ≠ 3) (h4 : reason ≠ 4) :
    exec (.channelFailCause c reason) s = .next s := by
  refine next_congr (if_neg ?_)
  split
  case h_1 e => exact absurd (Fin.ext e) h2
  case h_2 e => exact absurd (Fin.ext e) h3
  case h_3 e => exact absurd (Fin.ext e) h4
  case h_4 => exact Bool.false_ne_true

theorem exec_erasureEntry (h : s.get (mcB c) F.MC_STAT_STATE = 3) (he : s.chErased c = false) : ∃ b : Bool,
    exec (.erasureEntry c) s = .next
      (let u := ((s.modMem fun x => { x with erased := setBit x.erased c true }).raise wnB 4).memRefresh
       if b then u.shedMemory else u) :=
  ⟨_, next_congr (if_pos (by rw [h, he]; rfl))⟩

theorem exec_erasureEntry_none (h : s.get (mcB c) F.MC_STAT_STATE ≠ 3 ∨ s.chErased c = true) : exec (.erasureEntry c) s = .next s := by
  refine next_congr (if_neg ?_)
  rcases h with h | h
  · simp [h]
  · simp [h]

theorem State.chErased_of_mem {s t : State} (h : t.mem = s.mem) (k : Nat) : t.chErased k = s.chErased k := by
  rw [State.chErased, h, State.chErased]

theorem exec_erasureEntry_spec (h : s.get (mcB c) F.MC_STAT_STATE = 3) (he : s.chErased c = false) :
    Does (.erasureEntry c) s fun t => t.chErased c = true := by
  obtain ⟨b, run⟩ := exec_erasureEntry h he
  have entered : (((s.modMem fun x => { x with erased := setBit x.erased c true }).raise wnB 4).memRefresh).chErased c = true := by
    rw [State.chErased_of_mem (State.mem_memRefresh _), State.chErased_of_mem (State.raise_mem _ _ _)]
    exact bitN_setBit s.mem.erased c true
  refine Does.intro run ?_
  dsimp only
  split
  · exact (State.chErased_of_mem (Part.same_of_erase (p := .mem) (m := 5649) (by decide) (State.shedMemory_er rfl)) _).trans entered
  · exact entered

/-! Training, restoration and rebuild (R372, R384). -/

/-- The state in which a channel's training has ended. -/
def State.trainEnd (s : State) (c rd wr vref : Nat) : State :=
  (s.puts (mcB c) [(F.MC_TRAIN_RD_EYE, rd), (F.MC_TRAIN_WR_EYE, wr), (F.MC_TRAIN_VREF, vref)]).modMem fun x => { x with
    restoring := setBit x.restoring c false, ceWin := tset 0 x.ceWin c 0, ueWin := tset 0 x.ueWin c 0 }

variable {rd wr : Fin 256} {v : Fin 64}

theorem exec_memTrained_start (h : s.get (mcB c) F.MC_STAT_STATE = 1) (hr : bitN s.mem.restoring c = false) :
    exec (.memTrainingDone c rd wr v) s = .next (if rd.val < 13 || wr.val < 13 then (s.trainEnd c rd wr v).markFailed c 1
      else (s.trainEnd c rd wr v).put (mcB c) F.MC_STAT_STATE 2) :=
  next_congr ((if_pos (by rw [h]; rfl)).trans (if_neg (by rw [hr]; exact Bool.false_ne_true)))

theorem exec_memTrained_restored (hr : bitN s.mem.restoring c = true) (h1 : 13 ≤ rd.val) (h2 : 13 ≤ wr.val) :
    exec (.memTrainingDone c rd wr v) s = .next
      ((((s.trainEnd c rd wr v).put (mcB c) F.MC_STAT_STATE 4).puts wnB [(F.WN_REBUILD_STAT_CHANNEL, c), (F.WN_REBUILD_STAT_ACTIVE, 1)]
        |>.modMem fun x => { x with rebuildPos := 0, erased := setBit x.erased c true }).memRefresh) :=
  next_congr ((if_pos (by rw [hr]; exact Bool.or_true _)).trans ((if_pos hr).trans (if_neg (by simp [h1, h2]))))

theorem exec_memTrained_none (h : s.get (mcB c) F.MC_STAT_STATE ≠ 1) (hr : bitN s.mem.restoring c = false) :
    exec (.memTrainingDone c rd wr v) s = .next s :=
  next_congr (if_neg (by simp [h, hr]))

theorem State.get_trainEnd (s : State) (c rd wr vref : Nat) (f : Fld) (h : f.off = 0x44) : (s.trainEnd c rd wr vref).get (mcB c) f = s.get (mcB c) f := by
  rw [State.trainEnd, State.get_modMem, State.puts_cons, State.puts_cons, State.puts_cons, State.puts_nil]
  rw [State.get_put_off _ _ _ _ _ (by rw [h]; decide), State.get_put_off _ _ _ _ _ (by rw [h]; decide), State.get_put_off _ _ _ _ _ (by rw [h]; decide)]

/-- The eyes and the reference of the training. -/
theorem State.get_trainEnd_eyes : (s.trainEnd c rd wr v).get (mcB c) F.MC_TRAIN_RD_EYE = rd ∧
    (s.trainEnd c rd wr v).get (mcB c) F.MC_TRAIN_WR_EYE = wr ∧ (s.trainEnd c rd wr v).get (mcB c) F.MC_TRAIN_VREF = v := by
  refine ⟨?_, ?_, ?_⟩ <;> rw [State.trainEnd, State.get_modMem]
  · rw [State.get_puts_first _ _ _ _ _ (by decide) rfl]
    exact Nat.mod_eq_of_lt (b := 2 ^ 8) (by omega)
  · rw [State.get_puts_next _ _ _ _ _ fun u => State.get_puts_first u _ _ _ _ (by decide) rfl]
    exact Nat.mod_eq_of_lt (b := 2 ^ 8) (by omega)
  · rw [State.get_puts_next _ _ _ _ _ fun u => State.get_puts_next u _ _ _ _ fun w => State.get_puts_first w _ _ _ _ (by decide) rfl]
    exact Nat.mod_eq_of_lt (b := 2 ^ 6) (by omega)

theorem exec_memTrained_good (h : s.get (mcB c) F.MC_STAT_STATE = 1) (hr : bitN s.mem.restoring c = false) (h1 : 13 ≤ rd.val) (h2 : 13 ≤ wr.val) :
    Does (.memTrainingDone c rd wr v) s fun t => t.get (mcB c) F.MC_STAT_STATE = 2 ∧
      t.get (mcB c) F.MC_TRAIN_RD_EYE = rd ∧ t.get (mcB c) F.MC_TRAIN_WR_EYE = wr ∧ t.get (mcB c) F.MC_TRAIN_VREF = v := by
  obtain ⟨re, we, ref⟩ := s.get_trainEnd_eyes (c := c) (rd := rd) (wr := wr) (v := v)
  refine Does.intro ((exec_memTrained_start h hr).trans (next_congr (if_neg (by simp [h1, h2])))) ⟨?_, ?_, ?_, ?_⟩
  · exact State.get_put_same _ _ _ _ (by decide)
  · rw [State.get_put_off _ _ _ _ _ (by decide), re]
  · rw [State.get_put_off _ _ _ _ _ (by decide), we]
  · rw [State.get_put_off _ _ _ _ _ (by decide), ref]

theorem exec_memTrained_bad (h : s.get (mcB c) F.MC_STAT_STATE = 1) (hr : bitN s.mem.restoring c = false) (hb : rd.val < 13 ∨ wr.val < 13) :
    Does (.memTrainingDone c rd wr v) s fun t => t.get (mcB c) F.MC_STAT_STATE = 3 ∧ t.get (mcB c) F.MC_STAT_REASON = 1 := by
  refine Does.intro ((exec_memTrained_start h hr).trans (next_congr (if_pos (by simpa using hb)))) (State.get_markFailed ?_ (by decide))
  rw [State.get_trainEnd _ _ _ _ _ _ rfl, h]
  decide

theorem exec_memTrained_rebuilds (hr : bitN s.mem.restoring c = true) (h1 : 13 ≤ rd.val) (h2 : 13 ≤ wr.val) :
    Does (.memTrainingDone c rd wr v) s fun t => t.get (mcB c) F.MC_STAT_STATE = 4 ∧ t.is wnB F.WN_REBUILD_STAT_ACTIVE = true ∧
      t.get wnB F.WN_REBUILD_STAT_CHANNEL = c ∧ t.mem.rebuildPos = 0 ∧ t.chErased c = true := by
  have rebuild (u : State) (f : Fld) (hf : f.off = 0x74) : u.memRefresh.get wnB f = u.get wnB f :=
    State.get_of_rd (State.rd_memRefresh_kept _ (hf ▸ memKept_rebuild))
  refine Does.intro (exec_memTrained_restored hr h1 h2) ⟨?_, ?_, ?_, ?_, ?_⟩
  · rw [State.get_of_rd (State.rd_memRefresh_kept _ (memKept_channel F.MC_STAT_STATE c.isLt (by decide) (by decide) (by decide))),
      State.get_modMem, State.get_of_rd (State.rd_puts_ne _ _ ?_)]
    · exact State.get_put_same _ _ _ _ (by decide)
    · simp only [List.forall_mem_cons, mcB, wnB, gPage]
      exact ⟨by omega, by omega, fun _ h => absurd h List.not_mem_nil⟩
  · rw [State.is, rebuild _ _ rfl, State.get_modMem, State.get_puts_next _ _ _ _ _ fun u => State.get_puts_first u _ _ _ _ (by decide) rfl]
    rfl
  · rw [rebuild _ _ rfl, State.get_modMem, State.get_puts_first _ _ _ _ _ (by decide) rfl]
    exact Nat.mod_eq_of_lt (b := 2 ^ 4) (by omega)
  · rw [State.mem_memRefresh]
    rfl
  · rw [State.chErased_of_mem (State.mem_memRefresh _)]
    exact bitN_setBit _ c true

end

/-! The end of a rebuild. -/

section
variable {s : State}

theorem exec_rebuildDone (ha : s.is wnB F.WN_REBUILD_STAT_ACTIVE = true) (hp : s.stripes ≤ s.mem.rebuildPos) : exec .rebuildDone s = .next
    ((((s.put (mcB (s.get wnB F.WN_REBUILD_STAT_CHANNEL)) F.MC_STAT_STATE 2).put wnB F.WN_REBUILD_STAT_ACTIVE 0).modMem fun x => { x with
      erased := setBit x.erased (s.get wnB F.WN_REBUILD_STAT_CHANNEL) false
      ceWin := tset 0 x.ceWin (s.get wnB F.WN_REBUILD_STAT_CHANNEL) 0
      ueWin := tset 0 x.ueWin (s.get wnB F.WN_REBUILD_STAT_CHANNEL) 0 }).memRefresh) :=
  next_congr (if_pos (by rw [ha, decide_eq_true hp]; rfl))

theorem exec_rebuildDone_none (h : s.is wnB F.WN_REBUILD_STAT_ACTIVE = false ∨ s.mem.rebuildPos < s.stripes) :
    exec .rebuildDone s = .next s := by
  refine next_congr (if_neg ?_)
  rcases h with h | h <;> simp [h]

theorem exec_rebuildDone_spec (ha : s.is wnB F.WN_REBUILD_STAT_ACTIVE = true) (hp : s.stripes ≤ s.mem.rebuildPos)
    (hc : s.get wnB F.WN_REBUILD_STAT_CHANNEL < 12) : Does .rebuildDone s fun t =>
      t.get (mcB (s.get wnB F.WN_REBUILD_STAT_CHANNEL)) F.MC_STAT_STATE = 2 ∧ t.is wnB F.WN_REBUILD_STAT_ACTIVE = false ∧
      t.chErased (s.get wnB F.WN_REBUILD_STAT_CHANNEL) = false := by
  have run := exec_rebuildDone ha hp
  obtain ⟨c, e⟩ : ∃ c, s.get wnB F.WN_REBUILD_STAT_CHANNEL = c := ⟨_, rfl⟩
  rw [e] at run hc ⊢
  refine Does.intro run ⟨?_, ?_, ?_⟩
  · rw [State.get_of_rd (State.rd_memRefresh_kept _ (memKept_channel F.MC_STAT_STATE hc (by decide) (by decide) (by decide))),
      State.get_modMem, State.get_put_ne _ _ _ _ (by simp only [mcB, wnB, gPage]; omega)]
    exact State.get_put_same _ _ _ _ (by decide)
  · rw [State.is, State.get_of_rd (State.rd_memRefresh_kept _ memKept_rebuild), State.get_modMem, State.get_put_same _ _ _ _ (by decide)]
    rfl
  · rw [State.chErased_of_mem (State.mem_memRefresh _)]
    exact bitN_setBit _ c false

/-! The self-test. -/

/-- The registers of a self-test's result, after the channels' own. -/
theorem State.selftest_eq (l : List Nat) (ms : Nat) (hr : ∀ c, c < 12 → 2 ≤ s.get (mcB c) F.MC_STAT_STATE)
    (hi : s.is (mcB 0) F.MEM_STAT_INIT_DONE = false) (hs : s.stopped (mcB 0) = false) : ∃ (u : State) (failed ran time cap : Nat) (bad : Bool),
    s.selftest l ms = ((((u.puts (mcB 0) [(F.ST_RESULT_FAILED, failed), (F.ST_RESULT_RAN, ran), (F.ST_TIME_MS, time), (F.MEM_STAT_INIT_DONE, 1),
      (F.MEM_CAP_GIB, cap)]).raiseIf bad wnB 6).modMem fun x => { x with cells := [], poison := [], cold := false }).poisonRefresh).countBins := by
  refine ⟨_, _, _, _, _, _, if_pos ?_⟩
  rw [hi, hs, List.all_eq_true.2 fun c hc => decide_eq_true (hr c (List.mem_range.1 hc))]
  rfl

theorem State.selftest_done (l : List Nat) (ms : Nat) (h : s.is (mcB 0) F.MEM_STAT_INIT_DONE = true) : s.selftest l ms = s :=
  if_neg (by rw [h]; simp)

theorem State.mem_selftestEnd (u : State) : u.poisonRefresh.countBins.mem = u.mem :=
  Part.same_of_erase (p := .mem) (m := 17) (by decide) (State.countBins_er (State.poisonRefresh_er rfl))

/-- The poison table's registers and the bins are of other pages. -/
theorem State.rd_selftestEnd (u : State) {k : Nat} (hk : k < 0x1000) : u.poisonRefresh.countBins.rd (mcB 0 + k) = u.rd (mcB 0 + k) := by
  have silo (j : Nat) (hj : j < 0x1000) : mcB 0 + k ≠ siloB + j := by simp only [mcB, siloB, gPage]; omega
  have winnow (j : Nat) (hj : j < 0x1000) : mcB 0 + k ≠ wnB + j := by simp only [mcB, wnB, gPage]; omega
  rw [State.countBins, State.rd_sumsRefresh _ (by simp only [pageOf, mcB, gPage]; omega), State.rd_put_ne _ _ _ (silo _ (by decide)),
    State.rd_put_ne _ _ _ (silo _ (by decide)), State.poisonRefresh, State.rd_live_ne _ _ _ (winnow _ (by decide)),
    State.rd_raiseIf_ne _ _ _ (winnow _ (by decide))]
  refine State.rd_puts_ne _ _ ?_
  simp only [List.forall_mem_cons]
  exact ⟨winnow _ (by decide), winnow _ (by decide), fun _ h => absurd h List.not_mem_nil⟩

theorem State.selftest_spec (l : List Nat) (ms : Nat) (hr : ∀ c, c < 12 → 2 ≤ s.get (mcB c) F.MC_STAT_STATE)
    (hi : s.is (mcB 0) F.MEM_STAT_INIT_DONE = false) (hs : s.stopped (mcB 0) = false) : (s.selftest l ms).is (mcB 0) F.MEM_STAT_INIT_DONE = true ∧
      (s.selftest l ms).mem.cells = [] ∧ (s.selftest l ms).mem.poison = [] ∧ (s.selftest l ms).mem.cold = false := by
  obtain ⟨u, failed, ran, time, cap, bad, e⟩ := State.selftest_eq l ms hr hi hs
  rw [e, State.mem_selftestEnd]
  refine ⟨?_, rfl, rfl, rfl⟩
  rw [State.is_of_rd (State.rd_selftestEnd _ (k := 0x108) (by decide)), State.is_modMem, State.is,
    State.get_of_rd (State.rd_raiseIf_ne _ _ _ (by decide)), State.get_puts_next _ _ _ _ _ fun u => State.get_puts_next u _ _ _ _ fun u => State.get_puts_next u _ _ _ _ fun u =>
    State.get_puts_first u _ _ _ _ (by decide) rfl]
  rfl

/-! Uncorrectable queue words (R390). -/

theorem exec_memQueue_readData (c : Fin 12) (i : Fin 512) : exec (.memQueueUe (.readData c i)) s =
    .next ((s.setFault (mcB c) 2 i).modMem fun x => { x with badBurst := setBit x.badBurst c true }) := rfl

theorem exec_memQueue_writeData {c : Fin 12} {i : Fin 512} {stripe : Nat} (h : stripe < s.stripes) : exec (.memQueueUe (.writeData c i stripe)) s =
    .next ((s.setFault (mcB c) 3 i).modMem fun x => { x with
      cells := (List.range 8).foldl (fun m w => cellSet m (cellKey c (8 * stripe + w) 8) (0x5A ^^^ 0x7F)) x.cells }) := by
  change execMemQueueUe (.writeData c i stripe) s = _
  simp only [execMemQueueUe, if_pos h]

theorem cellGet_cellSet (m : List Host.Cell) (a : Nat) (v : Byte) (k : Nat) : cellGet (cellSet m a v) k = if k = a then v else cellGet m k := by
  split
  next h => exact h ▸ tget_tset_same (memDefault a) m a v
  next h =>
    rw [cellGet, cellSet, tget_tset_ne _ _ h]
    rfl

/-- One value stored at many keys. -/
theorem cellGet_spoiled (l : List Nat) (f : Nat → Nat) (v : Byte) (m : List Host.Cell) (k : Nat) :
    cellGet (l.foldl (fun m w => cellSet m (f w) v) m) k = if ∃ w ∈ l, k = f w then v else cellGet m k := by
  induction l generalizing m with
  | nil => simp
  | cons w l ih =>
    rw [List.foldl_cons, ih, cellGet_cellSet]
    by_cases here : k = f w
    · simp [here]
    · simp [here]

theorem State.setFault_mem (s : State) (b a i : Nat) : (s.setFault b a i).mem = s.mem :=
  Part.same_of_erase (p := .mem) (m := 1) (by decide) (State.setFault_er rfl)

theorem State.is_setFault (s : State) (b a i : Nat) : (s.setFault b a i).is b F.STAT_FAULT = true := State.is_put_same _ _ _ _ (by decide)

theorem exec_memQueue_writeData_spec (c : Fin 12) (i : Fin 512) {stripe : Nat} (h : stripe < s.stripes) :
    Does (.memQueueUe (.writeData c i stripe)) s fun t => t.is (mcB c) F.STAT_FAULT = true ∧
      (∀ w, w < 8 → cellGet t.mem.cells (cellKey c (8 * stripe + w) 8) = 0x5A ^^^ 0x7F) ∧
      ∀ k, (∀ w, w < 8 → k ≠ cellKey c (8 * stripe + w) 8) → cellGet t.mem.cells k = cellGet s.mem.cells k := by
  refine Does.intro (exec_memQueue_writeData h) ⟨(State.is_modMem _ _ _ _).trans (s.is_setFault _ _ _), ?_, ?_⟩
  · intro w hw
    exact (cellGet_spoiled _ _ _ _ _).trans (if_pos ⟨w, List.mem_range.2 hw, rfl⟩)
  · intro k hk
    refine (cellGet_spoiled _ _ _ _ _).trans ((if_neg ?_).trans (by rw [State.setFault_mem]))
    rintro ⟨w, hw, e⟩
    exact hk w (List.mem_range.1 hw) e

end

end Sys2Proof.Machine

namespace Sys2Proof
open Sys2Proof.Machine

/-- Settles O34: each event moves a channel's state as its rule says, and the status that follows leaves that state alone. -/
theorem memoryChannels : Obligations.MemoryChannels := by
  unfold Obligations.MemoryChannels
  refine ⟨?_, ?_, ?_, ?_, ?_, ?_, ?_, ?_, ?_, ?_, ?_, ?_, ?_, ?_, ?_, ?_, ?_, ?_, ?_, ?_, ?_, ?_, ?_⟩
  · exact fun c s hs => ⟨exec_fails (next_congr (if_pos rfl)) (by decide) hs,
      fun h => exec_fails (next_congr (if_pos (decide_eq_true h))) (by decide) hs,
      fun h => exec_fails (next_congr (if_pos (decide_eq_true h))) (by decide) hs⟩
  · exact fun c reason s => exec_channelFailCause_other
  · exact fun c s => exec_erasureEntry_spec
  · exact fun c s => exec_erasureEntry_none
  · exact fun c s => ⟨_, rfl, tget_tset_same 0 s.mem.ceWin c 0, tget_tset_same 0 s.mem.ueWin c 0, rfl, rfl⟩
  · exact fun c s hp hs => exec_fails (next_congr (State.hostWrite_eq (by decide) hp)) (by decide) hs
  · exact fun c s hp hs => next_congr ((State.hostWrite_eq (by decide) hp).trans (State.markFailed_failed hs 5))
  · intro c s hp hs hl hr h0
    refine Does.intro (next_congr ((State.hostWrite_eq (by decide) hp).trans (if_pos (by rw [hs, hl, hr, h0]; rfl)))) ⟨?_, rfl, rfl⟩
    exact bitN_setBit s.mem.restoring c true
  · intro c s hp h
    refine next_congr ((State.hostWrite_eq (by decide) hp).trans (if_neg ?_))
    rcases h with h | h <;> simp [h]
  · exact fun s => exec_rebuildDone_spec
  · exact fun s => exec_rebuildDone_none
  · exact fun c rd wr v s => exec_memTrained_good
  · exact fun c rd wr v s => exec_memTrained_bad
  · exact fun c rd wr v s => exec_memTrained_rebuilds
  · exact fun c rd wr v s => exec_memTrained_none
  · exact fun l ms s hr hi hs => Does.intro rfl (State.selftest_spec l ms hr hi hs)
  · exact fun l ms s h => next_congr (State.selftest_done l ms h)
  · exact fun c r s h => Does.intro (next_congr (if_pos h)) ⟨rfl, rfl, rfl⟩
  · exact fun c r s h2 h4 => next_congr (if_neg (not_or.2 ⟨h2, h4⟩))
  · intro c i s h
    have kept : (s.setFault (mcB c) 1 i).get (mcB c) F.MC_STAT_STATE = s.get (mcB c) F.MC_STAT_STATE :=
      s.get_setFault _ _ (by simp) (by simp)
    exact Does.intro rfl (State.get_markFailed (by rw [kept]; exact h) (by decide))
  · intro c i s
    refine Does.intro (exec_memQueue_readData c i) ⟨bitN_setBit _ c true, (State.is_modMem _ _ _ _).trans (s.is_setFault _ _ _), ?_⟩
    exact (congrArg Mem.cells (s.setFault_mem (mcB c) 2 i) : (s.setFault (mcB c) 2 i).mem.cells = _)
  · exact fun c i stripe s => exec_memQueue_writeData_spec c i
  · intro e s
    have kept (u : State) : u.poisonRefresh.mem = u.mem := Part.same_of_erase (p := .mem) (m := 17) (by decide) (State.poisonRefresh_er rfl)
    refine Does.intro rfl ?_
    rw [kept]
    exact ⟨rfl, rfl⟩

end Sys2Proof
end

section
/-! Proofs about the control bus matrix (R401 to R416): what the settling of the matrix keeps. -/

set_option Elab.async false

namespace Sys2Proof.Machine

/-! Facts that every step of the matrix keeps. -/

/-- The registers of the records of decode misses and errors, with their counters. -/
def busRecord (k : Nat) : Prop := 0x100 ≤ k ∧ k ≤ 0x114 ∨ 0x11C ≤ k ∧ k ≤ 0x120

/-- A fact about the state that answers, acceptances and refreshes keep. -/
structure BusStable (P : State → Prop) : Prop where
  record : ∀ u f v, busRecord f.off → P u → P (u.put bmB f v)
  event : ∀ u k, P u → P (u.raise bmB k)
  unlock : ∀ u t, t ≤ 8 → P u → P (u.put (bmB + 4 * t) F.BM_TSTAT_LOCKED 0)
  emits : ∀ u m, P u → P (u.emit m)
  refresh : ∀ u, P u → P u.busRefresh
  drops : ∀ u i, P u → P (u.modBus fun b => { b with txs := dropAt b.txs i })
  accepts : ∀ u i x, x ∈ u.bus.txs → P u → P (u.modBus fun b => { b with txs := b.txs.set i { x with st := 1 } })
  blocks : ∀ u v, P u → P (u.modBus fun b => { b with blocked := v })
  breaks : ∀ u (l : List Nat → List Nat), P u → P (u.modBus fun b => { b with broken := l b.broken })

section
variable {P : State → Prop} (stable : BusStable P)
include stable

theorem BusStable.eventIf (u : State) (c : Bool) (k : Nat) (h : P u) : P (u.raiseIf c bmB k) := by
  cases c with
  | false => exact h
  | true => exact stable.event u k h

theorem BusStable.counts (u : State) (f : Fld) (hf : busRecord f.off) (h : P u) : P (u.bump bmB f) := stable.record u f _ hf h

theorem BusStable.records (u : State) (l : List (Fld × Nat)) (hl : ∀ p ∈ l, busRecord p.1.off) (h : P u) : P (u.puts bmB l) := by
  induction l generalizing u with
  | nil => exact h
  | cons p l ih =>
    exact ih _ (fun q hq => hl q (List.mem_cons_of_mem _ hq)) (stable.record u p.1 p.2 (hl p List.mem_cons_self) h)

theorem BusStable.answers (u : State) (x : BusTx) (resp : Nat) (data : List (BitVec 128)) (h : P u) : P (u.busAnswer x resp data) := by
  have ite (c : Prop) [Decidable c] (a b : State) (ha : P a) (hb : P b) : P (if c then a else b) := by split <;> assumption
  have unlocks (v : State) (t : Nat) (c : Bool) (hv : P v) : P (if (c && decide (t < 8)) = true then v.put (bmB + 4 * t) F.BM_TSTAT_LOCKED 0 else v) := by
    split
    next hc => exact stable.unlock v t (by have := of_decide_eq_true (Bool.and_eq_true_iff.1 hc).2; omega) hv
    · exact hv
  unfold State.busAnswer
  dsimp only
  have records : ∀ p ∈ [(F.BM_ERR_INFO_MASTER, x.req.master.val), (F.BM_ERR_INFO_ID, x.req.id.val), (F.BM_ERR_INFO_TARGET, x.target),
      (F.BM_ERR_INFO_RESP, resp), (F.BM_ERR_ADDR_LO_ADDR, x.req.addr.toNat % 2 ^ 32), (F.BM_ERR_ADDR_HI_ADDR, x.req.addr.toNat / 2 ^ 32)],
      busRecord p.1.off := by
    simp [busRecord]
  have counted := stable.counts _ F.BM_CNT_ERR_COUNT (by simp [busRecord]) (stable.records u _ records h)
  have noted := stable.eventIf _ (resp == 1) 2 (ite (resp = 1 ∨ resp = 3) _ _ counted h)
  have freed (c : Bool) := unlocks _ x.target c noted
  exact ite _ _ _ (freed _) (ite _ _ _ (stable.emits _ _ (stable.emits _ _ (freed _))) (stable.emits _ _ (freed _)))

theorem BusStable.misses (u : State) (x : BusTx) (reason : Nat) (h : P u) : P (u.busT8 x reason) := by
  refine stable.answers _ _ _ _ (stable.event _ _ (stable.counts _ F.BM_CNT_DEC_COUNT (by simp [busRecord]) (stable.records _ _ ?_ h)))
  simp [busRecord]

theorem BusStable.acceptance {s t : State} (e : s.busAccept = some t) (h : P s) : P t := by
  unfold State.busAccept at e
  dsimp only at e
  split at e
  · cases e
  next i x found =>
    have present : x ∈ s.bus.txs := (List.of_mem_zip (List.mem_of_find?_eq_some found)).2
    have dropped := stable.drops s i h
    simp only [Option.some.injEq] at e
    rw [← e]
    split
    · exact stable.misses _ _ _ dropped
    · split
      · refine stable.answers _ _ _ _ ?_
        split
        · exact dropped
        · exact stable.breaks _ _ dropped
      · exact stable.accepts s i x present h

theorem BusStable.settles (n : Nat) (s : State) (h : P s) : P (State.busSettle n s) := by
  induction n generalizing s with
  | zero => exact stable.refresh s h
  | succ n ih =>
    unfold State.busSettle
    dsimp only
    split
    next i x _ => exact ih _ (stable.answers _ _ _ _ (stable.drops s i h))
    · split
      next t e => exact ih _ (stable.acceptance e (stable.blocks s _ h))
      · exact stable.refresh _ (stable.blocks s _ h)

theorem BusStable.moves (s : State) (l : List (Nat × Nat)) (h : P s) : P (s.busMove l) :=
  stable.eventIf _ _ _ (stable.settles _ s h)

theorem BusStable.breaksWaiting (n : Nat) (s : State) (t m : Nat) (h : P s) : P (State.breakWaiting n s t m) := by
  induction n generalizing s with
  | zero => exact h
  | succ n ih =>
    unfold State.breakWaiting
    split
    · exact h
    next i x _ =>
      have answered := stable.answers _ x 3 [] (stable.drops s i h)
      dsimp only
      split
      · exact ih _ answered
      · exact stable.breaks _ _ answered

end

/-! What is stable. -/

/-- A fact about the registers that the matrix's own writes keep. -/
theorem BusStable.of_regs {P : State → Prop} (regs : ∀ u v : State, v.regs = u.regs → P u → P v)
    (record : ∀ u f v, busRecord f.off → P u → P (u.put bmB f v)) (event : ∀ u k, P u → P (u.raise bmB k))
    (unlock : ∀ u t, t ≤ 8 → P u → P (u.put (bmB + 4 * t) F.BM_TSTAT_LOCKED 0)) (refresh : ∀ u, P u → P u.busRefresh) : BusStable P where
  record := record
  event := event
  unlock := unlock
  emits u _ := regs u _ rfl
  refresh := refresh
  drops u _ := regs u _ rfl
  accepts u _ _ _ := regs u _ rfl
  blocks u _ := regs u _ rfl
  breaks u _ := regs u _ rfl

/-- A word that neither answers nor refreshes write. -/
theorem busStable_word {k : Nat} (hk : k = 0xC ∨ k = 0x118) (w : Word) : BusStable fun u => u.rd (bmB + k) = w := by
  refine BusStable.of_regs (fun u v e h => ?_) (fun u f v hf h => ?_) (fun u j h => ?_) (fun u t ht h => ?_) (fun u h => ?_)
  · rwa [State.rd_of_regs e]
  · rwa [State.rd_put_ne _ _ _ (by unfold busRecord at hf; omega)]
  · rwa [State.rd_raise_ne _ _ (by omega)]
  · rwa [State.rd_put_ne _ _ _ (by show _ ≠ bmB + 4 * t + 0xD0; omega)]
  · refine Eq.trans ?_ h
    unfold State.busRefresh
    dsimp only
    rw [State.rd_live_ne _ _ _ (by omega)]
    refine State.rd_forAll fun m hm v => State.rd_puts_ne _ _ ?_
    have := List.mem_range.1 hm
    simp only [List.forall_mem_cons, bmM]
    exact ⟨by omega, by omega, by omega, by omega, fun _ h => absurd h List.not_mem_nil⟩

/-- A target's lock that is released. -/
theorem busStable_unlocked (t : Nat) (ht : t ≤ 8) : BusStable fun u => u.is (bmB + 4 * t) F.BM_TSTAT_LOCKED = false := by
  refine BusStable.of_regs (fun u v e h => ?_) (fun u f v hf h => ?_) (fun u j h => ?_) (fun u r hr h => ?_) (fun u h => ?_)
  · rwa [State.is_of_regs e]
  · rwa [State.is_put_ne _ _ _ _ (by unfold busRecord at hf; show bmB + 4 * t + 0xD0 ≠ _; omega)]
  · rwa [State.is_of_rd (State.rd_raise_ne _ _ (by show bmB + 4 * t + 0xD0 ≠ _; omega))]
  · by_cases e : r = t
    · rw [e, State.is_put_same _ _ _ _ (by decide)]
      rfl
    · rwa [State.is_put_ne _ _ _ _ (by show bmB + 4 * t + 0xD0 ≠ bmB + 4 * r + 0xD0; omega)]
  · refine (State.is_of_rd ?_).trans h
    unfold State.busRefresh
    dsimp only
    rw [State.rd_live_ne _ _ _ (by show bmB + 4 * t + 0xD0 ≠ _; omega)]
    refine State.rd_forAll fun m hm v => State.rd_puts_ne _ _ ?_
    have := List.mem_range.1 hm
    simp only [List.forall_mem_cons, bmM]
    exact ⟨by omega, by omega, by omega, by omega, fun _ h => absurd h List.not_mem_nil⟩

/-- The reset of a master's port. -/
theorem busStable_inReset (m : Nat) (hm : m < 8) (held : Bool) : BusStable fun u => u.is (bmM m) F.BM_MSTAT_IN_RESET = held := by
  refine BusStable.of_regs (fun u v e h => ?_) (fun u f v hf h => ?_) (fun u j h => ?_) (fun u r hr h => ?_) (fun u h => ?_)
  · rwa [State.is_of_regs e]
  · rwa [State.is_put_ne _ _ _ _ (by unfold busRecord at hf; show bmB + 4 * m + 0x60 ≠ _; omega)]
  · rwa [State.is_of_rd (State.rd_raise_ne _ _ (by show bmB + 4 * m + 0x60 ≠ _; omega))]
  · rwa [State.is_put_ne _ _ _ _ (by show bmB + 4 * m + 0x60 ≠ bmB + 4 * r + 0xD0; omega)]
  · refine Eq.trans ?_ h
    unfold State.busRefresh
    dsimp only
    rw [State.is_of_rd (State.rd_live_ne _ _ _ (by show bmB + 4 * m + 0x60 ≠ _; omega))]
    refine congrArg (· != 0) (State.get_forAll fun k hk v => ?_)
    by_cases e : k = m
    · rw [e]
      exact State.get_puts_of_apart _ _ _ _ rfl
    · have := List.mem_range.1 hk
      refine State.get_of_rd (State.rd_puts_ne _ _ ?_)
      simp only [List.forall_mem_cons, bmM]
      exact ⟨by omega, by omega, by omega, by omega, fun _ h => absurd h List.not_mem_nil⟩

theorem State.busRefresh_same (u : State) : u.busRefresh.bus = u.bus ∧ u.busRefresh.out = u.out :=
  have e : erase 1 u.busRefresh = erase 1 u := State.busRefresh_er rfl
  ⟨Part.same_of_erase (p := .bus) (by decide) e, Part.same_of_erase (p := .out) (by decide) e⟩

/-- Every transaction of a master's named identifiers is absorbed. -/
def BusTx.absorbed (m : Fin 8) (ids : Nat) (x : BusTx) : Prop := x.req.master = m → bitN ids x.req.id = true → x.absorb = true

theorem busStable_absorbed (m : Fin 8) (ids : Nat) : BusStable fun u => ∀ x ∈ u.bus.txs, x.absorbed m ids where
  record u f v _ h := by rwa [State.put_bus]
  event u k h := by rwa [State.raise_bus]
  unlock u t _ h := by rwa [State.put_bus]
  emits u m h := h
  refresh u h := by rwa [u.busRefresh_same.1]
  drops u i h x hx := h x ((List.mem_append.1 hx).elim List.mem_of_mem_take List.mem_of_mem_drop)
  accepts u i x hx h y hy := by
    rcases List.mem_or_eq_of_mem_set hy with old | rfl
    · exact h y old
    · exact h x hx
  blocks u v h := h
  breaks u l h := h

end Sys2Proof.Machine
end

section
/-! Proofs about the control bus matrix (R401 to R416): the commands, and the statement on the matrix. -/

set_option Elab.async false

namespace Sys2Proof.Machine

/-! A matrix in which nothing stalls and nothing has failed. -/

/-- No transaction waits at a port, and none has failed in a queue. -/
def Bus.quiet (b : Bus) : Prop := ∀ x ∈ b.txs, x.st ≠ 0 ∧ x.st ≠ 4

theorem mem_of_zip_find {l : List BusTx} {q : Nat × BusTx → Bool} {i : Nat} {x : BusTx}
    (h : ((List.range l.length).zip l).find? q = some (i, x)) : x ∈ l ∧ q (i, x) = true :=
  ⟨(List.of_mem_zip (List.mem_of_find?_eq_some h)).2, List.find?_some h⟩

section
variable {s : State}

theorem State.busAccept_none (h : ∀ x ∈ s.bus.txs, x.st ≠ 0) : s.busAccept = none := by
  unfold State.busAccept
  dsimp only
  split
  · rfl
  next i x found =>
    obtain ⟨hx, hq⟩ := mem_of_zip_find found
    exact absurd (eq_of_beq (Bool.and_eq_true_iff.1 hq).1) (h x hx)

/-- The ports that no transaction blocks any more. -/
def State.busFreed (s : State) : Nat :=
  (List.range 8).foldl (fun b m => if s.bus.txs.all fun y => y.req.master.val != m || y.st == 0 then setBit b m false else b) s.bus.blocked

def State.busUnblock (s : State) : State := s.modBus fun b => { b with blocked := s.busFreed }

/-- Without failed transactions a step of settling is an acceptance. -/
theorem State.busSettle_sound (n : Nat) (h : ∀ x ∈ s.bus.txs, x.st ≠ 4) : State.busSettle (n + 1) s =
    match s.busUnblock.busAccept with
    | some t => State.busSettle n t
    | none => s.busUnblock.busRefresh := by
  rw [State.busSettle]
  dsimp only
  split
  next i x found =>
    obtain ⟨hx, hq⟩ := mem_of_zip_find found
    exact absurd (eq_of_beq (Bool.and_eq_true_iff.1 hq).1) (h x hx)
  · rfl

theorem State.busSettle_quiet (n : Nat) (h : s.bus.quiet) : (State.busSettle n s).bus.txs = s.bus.txs ∧ (State.busSettle n s).out = s.out := by
  cases n with
  | zero => exact ⟨congrArg Bus.txs s.busRefresh_same.1, s.busRefresh_same.2⟩
  | succ n =>
    rw [State.busSettle_sound n fun x hx => (h x hx).2, State.busAccept_none (s := s.busUnblock) fun x hx => (h x hx).1]
    exact ⟨(congrArg Bus.txs s.busUnblock.busRefresh_same.1 : s.busUnblock.busRefresh.bus.txs = _), s.busUnblock.busRefresh_same.2⟩

theorem State.busMove_same (l : List (Nat × Nat)) : (s.busMove l).bus.txs = (State.busGo s).bus.txs ∧ (s.busMove l).out = (State.busGo s).out :=
  ⟨congrArg Bus.txs (State.raiseIf_bus _ _ _ _), State.raiseIf_out _ _ _ _⟩

theorem State.busMove_quiet (h : s.bus.quiet) (l : List (Nat × Nat)) : (s.busMove l).bus.txs = s.bus.txs ∧ (s.busMove l).out = s.out := by
  rw [(State.busMove_same l).1, (State.busMove_same l).2]
  exact State.busSettle_quiet _ h

theorem Bus.quiet_empty {b : Bus} (h : b.txs = []) : b.quiet := by
  intro x hx
  rw [h] at hx
  cases hx

theorem Bus.quiet_single {b : Bus} {x : BusTx} (h : b.txs = [x]) (h0 : x.st ≠ 0) (h4 : x.st ≠ 4) : b.quiet := by
  intro y hy
  rw [h, List.mem_singleton] at hy
  exact hy ▸ ⟨h0, h4⟩

/-! One transaction at its port. -/

theorem State.outMax_pos (m : Nat) : 0 < s.outMax m := by
  unfold State.outMax
  dsimp only
  split <;> omega

theorem State.busPortFree_single {x : BusTx} (h : s.bus.txs = [x]) (h0 : x.st = 0) (hb : bitN s.bus.blocked x.req.master = false) :
    s.busPortFree 0 x = true := by
  have none : s.busOutstanding x.req.master = 0 := by simp [State.busOutstanding, h, h0]
  have room := s.outMax_pos x.req.master
  simp [State.busPortFree, h, h0, hb, none, room]

/-- A port's only transaction, where the port is not blocked. -/
theorem State.busAccept_single {x : BusTx} (h : s.bus.txs = [x]) (h0 : x.st = 0) (hb : bitN s.bus.blocked x.req.master = false) :
    s.busAccept = some (match s.busMiss x.req with
      | some reason => (s.modBus fun b => { b with txs := dropAt b.txs 0 }).busT8 { x with target := 8 } reason
      | none =>
        if s.bus.broken.contains (x.target * 8 + x.req.master.val) then
          (if BusReq.locked x.req then s.modBus fun b => { b with txs := dropAt b.txs 0 } else
            (s.modBus fun b => { b with txs := dropAt b.txs 0 }).modBus fun b =>
              { b with broken := b.broken.filter (· != x.target * 8 + x.req.master.val) }).busAnswer x 3 []
        else s.modBus fun b => { b with txs := b.txs.set 0 { x with st := 1 } }) := by
  have first : ((List.range s.bus.txs.length).zip s.bus.txs).find? (fun p => p.2.st == 0 && s.busPortFree p.1 p.2) = some (0, x) := by
    simp [h, h0, State.busPortFree_single h h0 hb]
  unfold State.busAccept
  dsimp only
  rw [first] <;> rfl

theorem bitN_setBit_below (x : Nat) {i k : Nat} (h : i < k) : bitN (setBit x k false) i = bitN x i := by
  change (x - (x &&& 2 ^ k)).testBit i = x.testBit i
  rw [Nat.and_two_pow]
  cases hx : x.testBit k with
  | false => simp
  | true =>
    have sum := Nat.testBit_two_pow_add_gt h (x - 2 ^ k)
    rw [Nat.add_sub_cancel' (Nat.ge_two_pow_of_testBit hx)] at sum
    simpa using sum.symm

theorem bitN_clearAll (x n : Nat) {m : Nat} (h : m < n) : bitN ((List.range n).foldl (fun b k => setBit b k false) x) m = false := by
  induction n with
  | zero => exact absurd h (Nat.not_lt_zero m)
  | succ n ih =>
    rw [List.range_succ, List.foldl_append, List.foldl_cons, List.foldl_nil]
    rcases Nat.lt_succ_iff_lt_or_eq.1 h with below | rfl
    · rw [bitN_setBit_below _ below, ih below]
    · exact bitN_setBit_false _ m

/-- A port with a transaction that stalls only is not blocked. -/
theorem State.bitN_busFreed {x : BusTx} (h : s.bus.txs = [x]) (h0 : x.st = 0) : bitN s.busFreed x.req.master = false := by
  have all (m : Nat) : (s.bus.txs.all fun y => y.req.master.val != m || y.st == 0) = true := by simp [h, h0]
  simp only [State.busFreed, all, if_true]
  exact bitN_clearAll _ _ x.req.master.isLt

theorem State.busMiss_of_regs {s t : State} (h : t.regs = s.regs) (r : BusReq) : t.busMiss r = s.busMiss r := by
  have target (a : Nat) : t.busTarget a = s.busTarget a := by rw [State.busTarget, State.t1Len, State.get_of_regs h, State.busTarget, State.t1Len]
  have may (m k a n : Nat) (w : Bool) : t.busMay m k a n w = s.busMay m k a n w := by
    rw [State.busMay, State.debugOn, State.get_of_regs h, State.get_of_regs h, State.is_of_regs h, State.busMay, State.debugOn]
  rw [State.busMiss, target, may, State.busMiss]

/-- The matrix with its only transaction at its port. -/
theorem State.busGo_single {x : BusTx} (h : s.bus.txs = [x]) (h0 : x.st = 0) : s.busGo = State.busSettle 3 (match s.busMiss x.req with
      | some reason => (s.busUnblock.modBus fun b => { b with txs := dropAt b.txs 0 }).busT8 { x with target := 8 } reason
      | none =>
        if s.bus.broken.contains (x.target * 8 + x.req.master.val) then
          (if BusReq.locked x.req then s.busUnblock.modBus fun b => { b with txs := dropAt b.txs 0 } else
            (s.busUnblock.modBus fun b => { b with txs := dropAt b.txs 0 }).modBus fun b =>
              { b with broken := b.broken.filter (· != x.target * 8 + x.req.master.val) }).busAnswer x 3 []
        else s.busUnblock.modBus fun b => { b with txs := b.txs.set 0 { x with st := 1 } }) := by
  have sound : ∀ y ∈ s.bus.txs, y.st ≠ 4 := by simp [h, h0]
  have free : bitN s.busUnblock.bus.blocked x.req.master = false := State.bitN_busFreed h h0
  rw [State.busGo, h]
  change State.busSettle (3 + 1) s = _
  rw [State.busSettle_sound 3 sound, State.busAccept_single (s := s.busUnblock) h h0 free, State.busMiss_of_regs (t := s.busUnblock) (s := s) rfl]
  rfl

/-- A transaction that reaches its target waits there. -/
theorem State.busMove_waits {x : BusTx} (h : s.bus.txs = [x]) (h0 : x.st = 0) (hm : s.busMiss x.req = none)
    (hb : s.bus.broken.contains (x.target * 8 + x.req.master.val) = false) (l : List (Nat × Nat)) :
    (s.busMove l).bus.txs = [{ x with st := 1 }] ∧ (s.busMove l).out = s.out := by
  obtain ⟨txs, out⟩ := State.busMove_same (s := s) l
  have waits : (s.busUnblock.modBus fun b => { b with txs := b.txs.set 0 { x with st := 1 } }).bus.txs = [{ x with st := 1 }] := by
    change s.bus.txs.set 0 _ = _
    rw [h]
    rfl
  obtain ⟨txs', out'⟩ := State.busSettle_quiet 3 (Bus.quiet_single waits Nat.one_ne_zero (by simp))
  rw [txs, out, State.busGo_single h h0, hm, hb, if_neg Bool.false_ne_true]
  exact ⟨txs'.trans waits, out'⟩

end

/-! Answers. -/

/-- The record of an error. -/
def State.busErr (u : State) (x : BusTx) (resp : Nat) : State :=
  (if resp = 1 ∨ resp = 3 then
      (u.puts bmB [(F.BM_ERR_INFO_MASTER, x.req.master.val), (F.BM_ERR_INFO_ID, x.req.id.val), (F.BM_ERR_INFO_TARGET, x.target),
        (F.BM_ERR_INFO_RESP, resp), (F.BM_ERR_ADDR_LO_ADDR, x.req.addr.toNat % 2 ^ 32), (F.BM_ERR_ADDR_HI_ADDR, x.req.addr.toNat / 2 ^ 32)]).bump
        bmB F.BM_CNT_ERR_COUNT
    else u).raiseIf (resp == 1) bmB 2

theorem State.busErr_same (u : State) (x : BusTx) (resp : Nat) : (u.busErr x resp).bus = u.bus ∧ (u.busErr x resp).out = u.out := by
  rw [State.busErr, State.raiseIf_bus, State.raiseIf_out]
  split
  · exact ⟨(State.bump_bus _ _ _ _).trans (State.puts_bus _ _ _), (State.bump_out _ _ _ _).trans (State.puts_out _ _ _)⟩
  · exact ⟨rfl, rfl⟩

/-- The response ends its master's locked sequence at the target. -/
def State.busEnds (v : State) (x : BusTx) (resp : Nat) : Bool :=
  !BusReq.locked x.req && resp != 3 && v.is (bmB + 4 * x.target) F.BM_TSTAT_LOCKED &&
    v.get (bmB + 4 * x.target) F.BM_TSTAT_LOCK_OWNER == x.req.master.val && decide (x.target < 8)

/-- The target's lock is released with the response that ends a locked sequence. -/
def State.busRelease (v : State) (x : BusTx) (resp : Nat) : State :=
  if v.busEnds x resp then v.put (bmB + 4 * x.target) F.BM_TSTAT_LOCKED 0 else v

theorem State.busRelease_same (v : State) (x : BusTx) (resp : Nat) : (v.busRelease x resp).bus = v.bus ∧ (v.busRelease x resp).out = v.out := by
  unfold State.busRelease
  split
  · exact ⟨State.put_bus _ _ _ _, State.put_out _ _ _ _⟩
  · exact ⟨rfl, rfl⟩

/-- What a response carries to its master. -/
abbrev BusTx.response (x : BusTx) (resp : Nat) (data : List (BitVec 128)) : OutMsg :=
  .busResp x.req.master x.req.id resp (if resp = 0 then data else if x.req.write then [] else List.replicate x.req.len 0)

theorem State.busAnswer_def (u : State) (x : BusTx) (resp : Nat) (data : List (BitVec 128)) : u.busAnswer x resp data =
    if x.absorb then (u.busErr x resp).busRelease x resp
    else if resp = 1 ∧ x.req.master.val = 2 ∧ !x.req.write then (((u.busErr x resp).busRelease x resp).emit (x.response resp data)).emit .busError
    else ((u.busErr x resp).busRelease x resp).emit (x.response resp data) := rfl

/-- An answer that is delivered: its record, the lock it releases, and the response. -/
theorem State.busAnswer_eq (u : State) {x : BusTx} {resp : Nat} (data : List (BitVec 128)) (ha : x.absorb = false)
    (hm : resp = 1 → x.req.master.val ≠ 2) : u.busAnswer x resp data = ((u.busErr x resp).busRelease x resp).emit (x.response resp data) := by
  rw [State.busAnswer_def, if_neg (by rw [ha]; exact Bool.false_ne_true), if_neg fun g => hm g.1 g.2.1]

/-- An answer leaves the matrix's transactions and reaches its master once. -/
theorem State.busAnswer_spec (u : State) {x : BusTx} {resp : Nat} (data : List (BitVec 128)) (ha : x.absorb = false)
    (hm : resp = 1 → x.req.master.val ≠ 2) : (u.busAnswer x resp data).bus = u.bus ∧
    (u.busAnswer x resp data).out = u.out ++ [x.response resp data] := by
  obtain ⟨bus, out⟩ := u.busErr_same x resp
  obtain ⟨bus', out'⟩ := (u.busErr x resp).busRelease_same x resp
  rw [State.busAnswer_eq u data ha hm]
  exact ⟨bus'.trans bus, congrArg (· ++ _) (out'.trans out)⟩

/-- The record of a decode miss. -/
def State.busMissed (u : State) (x : BusTx) (reason : Nat) : State :=
  ((u.puts bmB [(F.BM_DEC_INFO_MASTER, x.req.master.val), (F.BM_DEC_INFO_ID, x.req.id.val), (F.BM_DEC_INFO_WRITE, b2n x.req.write),
    (F.BM_DEC_INFO_REASON, reason), (F.BM_DEC_ADDR_LO_ADDR, x.req.addr.toNat % 2 ^ 32), (F.BM_DEC_ADDR_HI_ADDR, x.req.addr.toNat / 2 ^ 32)]).bump
    bmB F.BM_CNT_DEC_COUNT).raise bmB (if reason = 1 then 1 else 0)

theorem State.busT8_eq (u : State) (x : BusTx) (reason : Nat) : u.busT8 x reason = (u.busMissed x reason).busAnswer x 2 [] := rfl

/-- A decode miss leaves the transactions and is answered with response 2. -/
theorem State.busT8_spec (u : State) {x : BusTx} (reason : Nat) (ha : x.absorb = false) : (u.busT8 x reason).bus = u.bus ∧
    (u.busT8 x reason).out = u.out ++ [x.response 2 []] := by
  have same : (u.busMissed x reason).bus = u.bus ∧ (u.busMissed x reason).out = u.out := by
    rw [State.busMissed, State.raise_bus, State.raise_out, State.bump_bus, State.bump_out, State.puts_bus, State.puts_out]
    exact ⟨rfl, rfl⟩
  obtain ⟨bus, out⟩ := State.busAnswer_spec (u.busMissed x reason) (x := x) (resp := 2) [] ha (absurd · (by simp))
  rw [State.busT8_eq]
  exact ⟨bus.trans same.1, out.trans (congrArg (· ++ _) same.2)⟩

/-- A transaction that misses is answered at once. -/
theorem State.busMove_misses {s : State} {x : BusTx} {reason : Nat} (h : s.bus.txs = [x]) (h0 : x.st = 0) (ha : x.absorb = false)
    (hm : s.busMiss x.req = some reason) (l : List (Nat × Nat)) : (s.busMove l).bus.txs = [] ∧
    (s.busMove l).out = s.out ++ [x.response 2 []] := by
  obtain ⟨txs, out⟩ := State.busMove_same (s := s) l
  obtain ⟨bus, answer⟩ := (s.busUnblock.modBus fun b => { b with txs := dropAt b.txs 0 }).busT8_spec (x := { x with target := 8 }) reason ha
  have empty : ((s.busUnblock.modBus fun b => { b with txs := dropAt b.txs 0 }).busT8 { x with target := 8 } reason).bus.txs = [] := by
    rw [bus]
    change dropAt s.bus.txs 0 = []
    rw [h]
    rfl
  obtain ⟨txs', out'⟩ := State.busSettle_quiet 3 (Bus.quiet_empty empty)
  rw [txs, out, State.busGo_single h h0, hm]
  exact ⟨txs'.trans empty, out'.trans answer⟩

/-! The commands. -/

section
variable {s : State}

/-- A transaction at its port. -/
def State.issued (s : State) (r : BusReq) : BusTx :=
  ⟨r, s.busTarget r.addr.toNat, 0, 0, if r.master.val = 3 then r.qos.val else s.get (bmM r.master) F.BM_MCFG_QOS, 0, [], false⟩

def State.busIssue (s : State) (r : BusReq) : State := s.modBus fun b => { b with txs := b.txs ++ [s.issued r] }

theorem exec_busTransaction {r : BusReq} (hr : s.is (bmM r.master) F.BM_MSTAT_IN_RESET = false) :
    exec (.busTransaction r) s = .next ((s.busIssue r).busMove s.quarStalls) :=
  next_congr (if_neg (by rw [hr]; exact Bool.false_ne_true))

theorem State.txs_busIssue {r : BusReq} (h : s.bus.txs = []) : (s.busIssue r).bus.txs = [s.issued r] := by
  rw [State.busIssue, State.modBus_bus, h]
  rfl

theorem State.busMiss_busIssue (r q : BusReq) : (s.busIssue r).busMiss q = s.busMiss q := State.busMiss_of_regs (State.modBus_regs _ _) q

theorem exec_busTransaction_waits {r : BusReq} (h : s.bus.txs = []) (hr : s.is (bmM r.master) F.BM_MSTAT_IN_RESET = false)
    (hm : s.busMiss r = none) (hb : s.bus.broken.contains (s.busTarget r.addr.toNat * 8 + r.master.val) = false) :
    Does (.busTransaction r) s fun t => t.bus.txs = [{ s.issued r with st := 1 }] ∧ t.out = s.out :=
  Does.intro (exec_busTransaction hr) (State.busMove_waits (State.txs_busIssue h) rfl ((State.busMiss_busIssue r _).trans hm) hb _)

theorem exec_busTransaction_misses {r : BusReq} {k : Nat} (h : s.bus.txs = []) (hr : s.is (bmM r.master) F.BM_MSTAT_IN_RESET = false)
    (hm : s.busMiss r = some k) : Does (.busTransaction r) s fun t => t.bus.txs = [] ∧ t.out = s.out ++ [(s.issued r).response 2 []] :=
  Does.intro (exec_busTransaction hr) (State.busMove_misses (State.txs_busIssue h) rfl rfl ((State.busMiss_busIssue r _).trans hm) _)

theorem State.flushOne_none (h : ∀ x ∈ s.bus.txs, x.st ≠ 2) (t : Nat) : s.flushOne t = s := by
  unfold State.flushOne
  split
  next i x found =>
    obtain ⟨hx, hq⟩ := mem_of_zip_find found
    exact absurd (eq_of_beq (Bool.and_eq_true_iff.1 hq).1) (h x hx)
  · rfl

theorem State.busFlush_none (h : ∀ x ∈ s.bus.txs, x.st ≠ 2) (t : Nat) : s.busFlush t = s := by
  unfold State.busFlush
  rw [State.flushOne_none h, State.flushOne_none h, State.flushOne_none h]
  exact ite_self s

variable {t : Fin 9} {m : Fin 8} {id : Fin 32} {code : Fin 4} {d : List (BitVec 128)} {x : BusTx}

/-- The grant of the transaction at a position, before the matrix moves on (R407 to R410). -/
def State.busGrant (s : State) (t : Fin 9) (i : Nat) (x : BusTx) : State :=
  let waiting := ((List.range s.bus.txs.length).zip s.bus.txs).filter fun p => p.2.st == 1 && p.2.target == t.val
  let parked := waiting.length == 1 && s.get (bmB + 4 * t.val) F.BM_TCFG_PARK == x.req.master.val && x.losses == 0
  let lost := (waiting.filter fun p => p.1 != i && !s.lockedOut t.val p.2.req.master.val).foldl (fun u p => u.busLose p.1 p.2) s
  let won := lost.modBus fun b => { b with
    txs := b.txs.set i { x with st := 2 }, ptr := if parked then b.ptr else tset 7 b.ptr t.val x.req.master.val }
  if BusReq.locked x.req ∧ t.val ≠ 8 then
    won.puts (bmB + 4 * t.val) [(F.BM_TSTAT_LOCKED, 1), (F.BM_TSTAT_LOCK_OWNER, x.req.master.val)] else won

theorem exec_targetArbitration_winner {i : Nat} (hf : s.busFlush t = s) (hw : busWinner (tget 7 s.bus.ptr t.val)
    (((List.range s.bus.txs.length).zip s.bus.txs).filter fun p => s.busReady t.val p.1 p.2) = some (i, x)) :
    exec (.targetArbitration t) s = .next ((s.busGrant t i x).busMove (s.busGrant t i x).quarStalls) := by
  change execTargetArbitration t s = _
  unfold execTargetArbitration
  dsimp only
  rw [hf, hw]
  rfl

/-- The grant of a matrix's only transaction. -/
theorem State.busGrant_single (h : s.bus.txs = [x]) : (s.busGrant t 0 x).bus.txs = [{ x with st := 2 }] ∧ (s.busGrant t 0 x).out = s.out := by
  have none : ((((List.range s.bus.txs.length).zip s.bus.txs).filter fun p => p.2.st == 1 && p.2.target == t.val).filter
      fun p => p.1 != 0 && !s.lockedOut t.val p.2.req.master.val) = [] := by
    refine List.filter_eq_nil_iff.2 fun p hp => ?_
    have first := (List.of_mem_zip (List.mem_filter.1 hp).1).1
    rw [h, List.length_singleton, List.mem_range] at first
    simp [Nat.lt_one_iff.1 first]
  have set : s.bus.txs.set 0 { x with st := 2 } = [{ x with st := 2 }] := by rw [h]; rfl
  unfold State.busGrant
  dsimp only
  rw [none, List.foldl_nil]
  split
  · exact ⟨(congrArg Bus.txs (State.puts_bus _ _ _)).trans set, State.puts_out _ _ _⟩
  · exact ⟨set, rfl⟩

theorem exec_targetArbitration_single (h : s.bus.txs = [x]) (h1 : x.st = 1) (ht : x.target = t) (hl : s.lockedOut t x.req.master = false) :
    Does (.targetArbitration t) s fun u => u.bus.txs = [{ x with st := 2 }] ∧ u.out = s.out := by
  have flush : s.busFlush t = s := State.busFlush_none (by simp [h, h1]) t
  have ready : s.busReady t 0 x = true := by simp [State.busReady, h, h1, ht, hl]
  have winner : busWinner (tget 7 s.bus.ptr t.val) (((List.range s.bus.txs.length).zip s.bus.txs).filter fun p => s.busReady t.val p.1 p.2) =
      some (0, x) := by
    simp [h, ready, busWinner]
  obtain ⟨txs, out⟩ := State.busGrant_single (t := t) h
  obtain ⟨txs', out'⟩ := State.busMove_quiet (Bus.quiet_single txs (by simp) (by simp)) (s.busGrant t 0 x).quarStalls
  exact Does.intro (exec_targetArbitration_winner flush winner) ⟨txs'.trans txs, out'.trans out⟩

theorem exec_targetArbitration_empty (h : s.bus.txs = []) : exec (.targetArbitration t) s = .next s := by
  have flush : s.busFlush t = s := State.busFlush_none (by simp [h]) t
  change execTargetArbitration t s = _
  simp only [execTargetArbitration, flush, h, List.length_nil, List.range_zero, List.zip_nil_right, List.filter_nil, busWinner, List.foldl_nil]

theorem granted_parts (hg : x.granted t m id = true) : x.req.master = m ∧ x.req.id = id := by
  simp only [BusTx.granted, Bool.and_eq_true, beq_iff_eq] at hg
  obtain ⟨⟨⟨_, hm⟩, hi⟩, _⟩ := hg
  exact ⟨hm, hi⟩

theorem exec_busResponse_single (h : s.bus.txs = [x]) (hg : x.granted t m id = true) (h3 : x.st = 3) (ht : 2 ≤ t.val)
    (hc : code ≠ 1) : exec (.busResponse t m id code d) s = .next
      (((s.modBus fun b => { b with txs := dropAt b.txs 0 }).busAnswer x 0 (x.reply t d)).busMove s.quarStalls) := by
  have reach : s.busReach t m id = s := by simp [State.busReach, h, hg, h3]
  have first : ((List.range s.bus.txs.length).zip s.bus.txs).find? (fun p => p.2.granted t m id) = some (0, x) := by simp [h, hg]
  have resp : (if t.val = 0 ∨ t.val = 1 then x.resp else if code.val = 1 then 1 else 0) = 0 := by
    rw [if_neg (by omega), if_neg fun e : code.val = 1 => hc (Fin.ext e)]
  change Host.Outcome.next ((s.busReach t m id).busRespond s.quarStalls t m id code.val d) = _
  rw [reach, State.busRespond, first]
  exact congrArg (fun k => Host.Outcome.next (((s.modBus fun b => { b with txs := dropAt b.txs 0 }).busAnswer x k (x.reply t d)).busMove
    s.quarStalls)) resp

theorem exec_busResponse_spec (h : s.bus.txs = [x]) (hg : x.granted t m id = true) (h3 : x.st = 3) (ha : x.absorb = false) (ht : 2 ≤ t.val)
    (hc : code ≠ 1) : Does (.busResponse t m id code d) s fun u => u.bus.txs = [] ∧ u.out = s.out ++ [.busResp m id 0 (x.reply t d)] := by
  obtain ⟨hm, hi⟩ := granted_parts hg
  obtain ⟨bus, out⟩ := (s.modBus fun b => { b with txs := dropAt b.txs 0 }).busAnswer_spec (x := x) (resp := 0) (x.reply t d) ha
    (absurd · (by simp))
  have empty : ((s.modBus fun b => { b with txs := dropAt b.txs 0 }).busAnswer x 0 (x.reply t d)).bus.txs = [] := by
    rw [bus]
    change dropAt s.bus.txs 0 = []
    rw [h]
    rfl
  obtain ⟨txs', out'⟩ := State.busMove_quiet (Bus.quiet_empty empty) s.quarStalls
  refine Does.intro (exec_busResponse_single h hg h3 ht hc) ⟨txs'.trans empty, out'.trans (out.trans ?_)⟩
  rw [BusTx.response, hm, hi]
  rfl

theorem exec_busResponse_empty (h : s.bus.txs = []) : exec (.busResponse t m id code d) s = .next s := by
  have reach : s.busReach t m id = s := by simp [State.busReach, h]
  change Host.Outcome.next ((s.busReach t m id).busRespond s.quarStalls t m id code.val d) = _
  rw [reach, State.busRespond, h]
  rfl

/-! Locks. -/

theorem exec_lockBroken (ht : t ≠ 8) (hl : s.is (bmB + 4 * t) F.BM_TSTAT_LOCKED = true) : ∃ n : Nat, exec (.lockBroken t) s = .next
    ((((State.breakWaiting n ((s.put (bmB + 4 * t) F.BM_TSTAT_LOCKED 0).modBus fun x => { x with
        broken := x.broken ++ [t.val * 8 + s.get (bmB + 4 * t) F.BM_TSTAT_LOCK_OWNER] }) t (s.get (bmB + 4 * t) F.BM_TSTAT_LOCK_OWNER)).puts bmB
      [(F.BM_LOCK_INFO_MASTER, s.get (bmB + 4 * t) F.BM_TSTAT_LOCK_OWNER), (F.BM_LOCK_INFO_TARGET, t.val)]).raise bmB 3).busMove s.quarStalls) := by
  refine ⟨_, next_congr (if_pos ?_)⟩
  rw [hl, Bool.true_and]
  simpa [Fin.ext_iff] using ht

theorem exec_lockBroken_free (hl : s.is (bmB + 4 * t) F.BM_TSTAT_LOCKED = false) : exec (.lockBroken t) s = .next s :=
  next_congr (if_neg (by rw [hl]; simp))

theorem exec_lockBroken_spec (ht : t ≠ 8) (hl : s.is (bmB + 4 * t) F.BM_TSTAT_LOCKED = true) : Does (.lockBroken t) s fun u =>
    u.is (bmB + 4 * t) F.BM_TSTAT_LOCKED = false ∧ u.get bmB F.BM_LOCK_INFO_MASTER = s.get (bmB + 4 * t) F.BM_TSTAT_LOCK_OWNER ∧
    u.get bmB F.BM_LOCK_INFO_TARGET = t := by
  obtain ⟨n, run⟩ := exec_lockBroken ht hl
  obtain ⟨m, hm⟩ : ∃ m, s.get (bmB + 4 * t) F.BM_TSTAT_LOCK_OWNER = m := ⟨_, rfl⟩
  have small : m < 8 := hm ▸ s.get_lt _ _
  have free := busStable_unlocked t (by omega)
  rw [hm] at run ⊢
  obtain ⟨v, hv⟩ : ∃ v, State.breakWaiting n ((s.put (bmB + 4 * t) F.BM_TSTAT_LOCKED 0).modBus fun x => { x with
        broken := x.broken ++ [t.val * 8 + m] }) t m = v := ⟨_, rfl⟩
  have freed : v.is (bmB + 4 * t) F.BM_TSTAT_LOCKED = false := by
    rw [← hv]
    exact free.breaksWaiting _ _ _ _ (State.is_put_same _ _ _ _ (by decide))
  rw [hv] at run
  have info : ((v.puts bmB [(F.BM_LOCK_INFO_MASTER, m), (F.BM_LOCK_INFO_TARGET, t.val)]).raise bmB 3).is (bmB + 4 * t) F.BM_TSTAT_LOCKED = false := by
    refine free.event _ _ ((State.is_of_rd (State.rd_puts_ne _ _ ?_)).trans freed)
    simp only [List.forall_mem_cons]
    exact ⟨by show bmB + 4 * t.val + 0xD0 ≠ bmB + 0x118; omega, by show bmB + 4 * t.val + 0xD0 ≠ bmB + 0x118; omega,
      fun _ h => absurd h List.not_mem_nil⟩
  have kept (u : State) (f : Fld) (hf : f.off = 0x118) : (u.busMove s.quarStalls).get bmB f = u.get bmB f :=
    State.get_of_rd (hf ▸ (busStable_word (k := 0x118) (.inr rfl) _).moves u _ rfl)
  refine Does.intro run ⟨free.moves _ _ info, ?_, ?_⟩
  · rw [kept _ _ rfl, State.get_raise_off _ _ _ _ (by decide), State.get_puts_first _ _ _ _ _ (by decide) rfl]
    exact Nat.mod_eq_of_lt (b := 2 ^ 3) small
  · rw [kept _ _ rfl, State.get_raise_off _ _ _ _ (by decide),
      State.get_puts_next _ _ _ _ _ fun u => State.get_puts_first u _ _ _ _ (by decide) rfl]
    exact Nat.mod_eq_of_lt (b := 2 ^ 4) (by omega)

end

/-! Resets of master ports (R413, R414). -/

/-- A transaction of the reset's identifiers that is not absorbed yet. -/
def BusTx.mine (m ids : Nat) (x : BusTx) : Bool := x.req.master.val == m && bitN ids x.req.id.val && !x.absorb

/-- Transactions of the reset that are not granted go, the granted ones are cut. -/
def State.busCut (s : State) (m ids : Nat) (cut : BusTx → BusTx) : State := (s.modBus fun b => { b with
  txs := (b.txs.filter fun x => !(x.mine m ids && (x.st == 0 || x.st == 1 || x.st == 4))).map fun x => if x.mine m ids then cut x else x }).tick

/-- The locks of a master are released. -/
def State.busUnlock (w : State) (m : Nat) : State :=
  (w.modBus fun b => { b with broken := b.broken.filter fun k => k % 8 != m }).forAll (List.range 9) fun t u =>
    if u.is (bmB + 4 * t) F.BM_TSTAT_LOCKED && u.get (bmB + 4 * t) F.BM_TSTAT_LOCK_OWNER == m
    then u.put (bmB + 4 * t) F.BM_TSTAT_LOCKED 0 else u

theorem State.busReset_eq (s : State) (m ids : Nat) (l : List (Nat × Nat)) : ∃ (cut : BusTx → BusTx) (hit : Bool),
    s.busReset m ids l = ((if ids % 2 ^ 28 = 0 then s.busCut m ids cut else (s.busCut m ids cut).busUnlock m).raiseIf hit bmB 4).busGo ∧
      ∀ x, (cut x).req.master = x.req.master ∧ (cut x).req.id = x.req.id ∧ (cut x).absorb = true := by
  refine ⟨_, _, rfl, fun x => ?_⟩
  dsimp only
  split <;> exact ⟨rfl, rfl, rfl⟩

theorem BusStable.unlocks {P : State → Prop} (stable : BusStable P) (w : State) (m : Nat) (h : P w) : P (w.busUnlock m) := by
  refine State.forAll_keeps (fun t ht u v e hu => ?_) (stable.breaks w (fun l => l.filter fun k => k % 8 != m) h)
  rw [e]
  split
  · exact stable.unlock u t (Nat.lt_succ_iff.1 (List.mem_range.1 ht)) hu
  · exact hu

theorem BusStable.resets {P : State → Prop} (stable : BusStable P) {s : State} {m ids : Nat} {l : List (Nat × Nat)} {cut : BusTx → BusTx} {hit : Bool}
    (e : s.busReset m ids l = ((if ids % 2 ^ 28 = 0 then s.busCut m ids cut else (s.busCut m ids cut).busUnlock m).raiseIf hit bmB 4).busGo)
    (h : P (s.busCut m ids cut)) : P (s.busReset m ids l) := by
  rw [e]
  refine stable.settles _ _ (stable.eventIf _ _ _ ?_)
  split
  · exact h
  · exact stable.unlocks _ _ h

theorem busReset_spec (s : State) (m : Fin 8) (ids : Nat) (held : Bool) (l : List (Nat × Nat)) (h : s.is (bmM m) F.BM_MSTAT_IN_RESET = held) :
    (s.busReset m ids l).is (bmM m) F.BM_MSTAT_IN_RESET = held ∧ ∀ x ∈ (s.busReset m ids l).bus.txs, x.absorbed m ids := by
  obtain ⟨cut, hit, e, parts⟩ := s.busReset_eq m ids l
  refine ⟨(busStable_inReset m m.isLt held).resets e h, (busStable_absorbed m ids).resets e fun y hy => ?_⟩
  obtain ⟨x, _, rfl⟩ := List.mem_map.1 hy
  obtain ⟨master, id, absorb⟩ := parts x
  split
  · exact fun _ _ => absorb
  next other =>
    intro hm hid
    by_contra no
    exact other (by simp [BusTx.mine, hm, hid, no])

/-! Faults (R416). -/

/-- A matrix whose only transaction has failed in a queue. -/
theorem State.busMove_failed {s : State} {x : BusTx} (h : s.bus.txs = [x]) (h4 : x.st = 4) (ha : x.absorb = false) (hm : x.req.master.val ≠ 2)
    (l : List (Nat × Nat)) : (s.busMove l).bus.txs = [] ∧ (s.busMove l).out = s.out ++ [x.response 1 []] := by
  have first : State.busGo s = State.busSettle 3 ((s.modBus fun b => { b with txs := dropAt b.txs 0 }).busAnswer x 1 []) := by
    rw [State.busGo, h]
    change State.busSettle (3 + 1) s = _
    rw [State.busSettle]
    simp [h, h4]
  obtain ⟨txs, out⟩ := State.busMove_same (s := s) l
  obtain ⟨bus, answer⟩ := (s.modBus fun b => { b with txs := dropAt b.txs 0 }).busAnswer_spec (x := x) (resp := 1) [] ha fun _ => hm
  have empty : ((s.modBus fun b => { b with txs := dropAt b.txs 0 }).busAnswer x 1 []).bus.txs = [] := by
    rw [bus]
    change dropAt s.bus.txs 0 = []
    rw [h]
    rfl
  obtain ⟨txs', out'⟩ := State.busSettle_quiet 3 (Bus.quiet_empty empty)
  rw [txs, out, first]
  exact ⟨txs'.trans empty, out'.trans answer⟩

/-- The fault's record and its event. -/
def State.bmFaulted (s : State) (array i : Nat) : State := (s.setFault bmB array i).raise bmB 7

theorem State.bmFaulted_same (s : State) (array i : Nat) : (s.bmFaulted array i).bus = s.bus ∧ (s.bmFaulted array i).out = s.out :=
  have e : erase 17 (s.bmFaulted array i) = erase 17 s := State.raise_er (State.setFault_er rfl)
  ⟨Part.same_of_erase (p := .bus) (by decide) e, Part.same_of_erase (p := .out) (by decide) e⟩

/-- The fault stays shown. -/
theorem State.fault_busMove {u s : State} {array i : Nat} (h : u.regs = (s.bmFaulted array i).regs) (l : List (Nat × Nat)) :
    (u.busMove l).is bmB F.STAT_FAULT = true := by
  have kept : (u.busMove l).rd (bmB + 0xC) = u.rd (bmB + 0xC) := (busStable_word (.inl rfl) _).moves u l rfl
  rw [State.is_of_rd kept, State.is_of_regs h, State.bmFaulted, State.is_raise_off _ _ _ _ (by decide)]
  exact State.is_setFault _ _ _ _

section
variable {m : Fin 8} {id : Fin 32} {i : Fin 512} {x : BusTx} {s : State}

theorem exec_bmFault_request (h : s.bus.txs = [x]) (hm : x.req.master = m) (hi : x.req.id = id) (h1 : x.st = 1) :
    exec (.bmFault (.request m id i)) s = .next (((s.bmFaulted 0 i).modBus fun b => { b with txs := b.txs.set 0 { x with st := 4 } }).busMove
      s.quarStalls) := by
  have hit : ((List.range s.bus.txs.length).zip s.bus.txs).find? (fun p => p.2.req.master == m && p.2.req.id == id && p.2.st == 1) = some (0, x) := by
    simp [h, hm, hi, h1]
  change execBmFault (.request m id i) s = _
  unfold execBmFault
  dsimp only
  rw [hit]
  rfl

theorem exec_bmFault_request_spec (h : s.bus.txs = [x]) (hm : x.req.master = m) (hi : x.req.id = id) (h1 : x.st = 1) (ha : x.absorb = false)
    (h2 : m ≠ 2) : Does (.bmFault (.request m id i)) s fun t => t.bus.txs = [] ∧ t.is bmB F.STAT_FAULT = true ∧
      t.out = s.out ++ [.busResp m id 1 (if x.req.write then [] else List.replicate x.req.len 0)] := by
  obtain ⟨bus, out⟩ := s.bmFaulted_same 0 i
  have failed : ((s.bmFaulted 0 i).modBus fun b => { b with txs := b.txs.set 0 { x with st := 4 } }).bus.txs = [{ x with st := 4 }] := by
    rw [State.modBus_bus, bus, h]
    rfl
  obtain ⟨txs', out'⟩ := State.busMove_failed failed rfl ha (by rw [hm]; exact fun e => h2 (Fin.ext e)) s.quarStalls
  refine Does.intro (exec_bmFault_request h hm hi h1) ⟨txs', State.fault_busMove (State.modBus_regs _ _) _, out'.trans ?_⟩
  rw [State.modBus_out, out, ← hm, ← hi]
  rfl

theorem exec_bmFault_idTable : exec (.bmFault (.idTable m i)) s = .next
    (((s.bmFaulted 2 i).modBus fun b => { b with blocked := setBit b.blocked m true }).busMove s.quarStalls) := rfl

end

end Sys2Proof.Machine

namespace Sys2Proof
open Sys2Proof.Machine

/-- Settles O36: the matrix moves its only transaction on, and settling it keeps locks, resets, absorbed transactions and faults. -/
theorem busMatrix : Obligations.BusMatrix := by
  unfold Obligations.BusMatrix
  refine ⟨?_, ?_, ?_, ?_, ?_, ?_, ?_, ?_, ?_, ?_, ?_, ?_⟩
  · exact fun r s => exec_busTransaction_waits
  · exact fun r k s => exec_busTransaction_misses
  · exact fun r s hr => next_congr (if_pos hr)
  · exact fun t x s => exec_targetArbitration_single
  · exact fun t s => exec_targetArbitration_empty
  · exact fun t m id code d x s => exec_busResponse_spec
  · exact fun t m id code d s => exec_busResponse_empty
  · exact fun t s => exec_lockBroken_spec
  · exact fun t s => exec_lockBroken_free
  · intro m ids held l s h4
    have reset : (s.put (bmM m) F.BM_MSTAT_IN_RESET (b2n held)).is (bmM m) F.BM_MSTAT_IN_RESET = held := by
      rw [State.is_put_same _ _ _ _ (by decide)]
      exact b2n_ne_zero held
    exact Does.intro (next_congr (if_neg fun g => h4 (Fin.ext g.1))) (busReset_spec _ m ids.toNat held l reset)
  · exact fun m id i x s => exec_bmFault_request_spec
  · exact fun m i s => Does.intro exec_bmFault_idTable (State.fault_busMove (State.modBus_regs _ _) _)

end Sys2Proof
end

section
/-! Proofs about the embedded flash (R441 to R466): the registers that commits, compaction, the counters and the Gleaner write, and the
facts that these operations keep. -/

set_option Elab.async false

namespace Sys2Proof.Machine

/-- The fields of the controller's page that its own operations set. -/
def nvShown : List Fld :=
  [F.REC_SPACE_ERASED, F.REC_SPACE_LIVE_KIB, F.REC_SPACE_KEYS, F.GATHER_USED_BYTES, F.NV_STAT_GATHER_OPEN, F.NV_STAT_GATHER_OWNER,
    F.NV_STAT_COMPACTING, F.RAW_RES_OWNED, F.RAW_RES_OWNER, F.RAW_DATA_BYTES, F.SECT_WEAR_MAX_ERASES, F.REC_SEQ_VALUE, F.REC_CMT_VALUE,
    F.GLEAN_STAT_REWRITTEN, F.GLEAN_STAT_RAW_WEAK, F.FLASH_LAST_PAGE, F.FLASH_LAST_KIND]

/-- A fact about the state that the flash controller's own operations keep. -/
structure NvStable (P : State → Prop) : Prop where
  stores : ∀ u f, P u → P (u.modNv f)
  sets : ∀ u f v, f ∈ nvShown → P u → P (u.put nvB f v)
  event : ∀ u k, P u → P (u.raise nvB k)
  shows : ∀ u k b, P u → P (u.live nvB k b)
  counts : ∀ u, P u → P u.cntRefresh

section
variable {P : State → Prop} (stable : NvStable P) {s : State}
include stable

theorem NvStable.eventIf (c : Bool) (k : Nat) (h : P s) : P (s.raiseIf c nvB k) := by
  cases c with
  | false => exact h
  | true => exact stable.event s k h

theorem NvStable.setsAll (l : List (Fld × Nat)) (hl : (l.all fun p => nvShown.contains p.1) = true) (h : P s) : P (s.puts nvB l) := by
  induction l generalizing s with
  | nil => exact h
  | cons p l ih =>
    obtain ⟨hp, hl⟩ := Bool.and_eq_true_iff.1 (List.all_cons.symm.trans hl)
    exact ih hl (stable.sets s p.1 p.2 (List.contains_iff_mem.1 hp) h)

theorem NvStable.programs (a : Nat) (l : List Byte) (h : P s) : P (s.prog a l) := stable.stores s _ h

theorem NvStable.programsWord (a v : Nat) (h : P s) : P (s.progWord a v) := stable.programs _ _ h

theorem NvStable.marks (k v : Nat) (h : P s) : P (s.setSecState k v) := stable.programsWord _ _ h

theorem NvStable.retires (r : FRec) (h : P s) : P (s.retire r) := stable.programs _ _ h

theorem NvStable.erasesRaw (k : Nat) (h : P s) : P (s.eraseRaw k) := stable.stores s _ h

theorem NvStable.retiring (l : List FRec) (h : P s) : P (l.foldl (fun u r => u.retire r) s) :=
  State.foldl_keeps (fun _ _ _ _ e hu => e ▸ stable.retires _ hu) h

theorem NvStable.refreshes (h : P s) : P s.nvRefresh :=
  stable.shows _ _ _ (stable.eventIf _ _ (stable.setsAll _ rfl h))

theorem NvStable.erases (k : Nat) (h : P s) : P (s.eraseRec k) :=
  stable.sets _ _ _ (by decide) (stable.programs _ _ (stable.erasesRaw _ h))

theorem NvStable.opens {t : State} (e : s.openSector = some t) (h : P s) : P t := by
  have erased : P (match s.erasedSecs, s.nv.eraseQ.find? (· < 16) with
    | [], some k => (s.eraseRec k).modNv fun x => { x with eraseQ := x.eraseQ.filter (· != k) }
    | _, _ => s) := by
    split
    · exact stable.stores _ _ (stable.erases _ h)
    · exact h
  unfold State.openSector at e
  dsimp only at e
  split at e
  · cases e
  · cases e
    exact stable.stores _ _ (stable.marks _ _ (stable.programsWord _ _ erased))

theorem NvStable.closes (h : P s) : P s.closeSector := by
  unfold State.closeSector
  split
  · exact stable.stores _ _ (stable.marks _ _ h)
  · exact h

theorem NvStable.room {l : List GRec} {t : State} (e : s.roomFor l = some t) (h : P s) : P t := by
  unfold State.roomFor at e
  split at e
  · split at e
    · cases e
      exact h
    · exact stable.opens e (stable.closes h)
  · exact stable.opens e h

theorem NvStable.writes (l : List GRec) (h : P s) : P (s.writeCommit l) := by
  unfold State.writeCommit
  dsimp only
  refine stable.retiring _ ?_
  have programmed := State.foldl_keeps (l := (placeRecs s.recPtr none (l ++ [s.marker l])).1) (f := fun u p => u.prog p.1 p.2.bytes)
    (fun _ _ _ _ e hu => e ▸ stable.programs _ _ hu) h
  have numbered (f : Nv → Nv) (v : Nat) := stable.sets _ F.REC_CMT_VALUE v (by decide) (stable.stores _ f programmed)
  split
  · exact stable.stores _ _ (stable.marks _ _ (numbered _ _))
  · exact numbered _ _

theorem NvStable.commits {n : Nat} {l m : List GRec} {t : State} (e : State.ownCommits n s l m = some t) (h : P s) : P t := by
  induction n generalizing s l m with
  | zero => cases e; exact h
  | succ n ih =>
    cases m with
    | nil =>
      unfold State.ownCommits at e
      split at e
      · cases e
        exact h
      · obtain ⟨u, hu, rfl⟩ := Option.map_eq_some_iff.1 e
        exact stable.writes l (stable.room hu h)
    | cons r m =>
      unfold State.ownCommits at e
      split at e
      · exact ih e h
      · split at e
        · cases e
        next u hu => exact ih e (stable.writes l (stable.room hu h))

theorem NvStable.compactsSector (k : Nat) (h : P s) : P (s.compactSec k) := by
  unfold State.compactSec
  dsimp only
  have closed : P (if s.nv.ptr.map (· / 65536) = some k then s.closeSector else s) := by
    split
    · exact stable.closes h
    · exact h
  have source := stable.marks k ssSource closed
  split
  next t e => exact stable.erases k (stable.marks _ _ (stable.commits e source))
  · exact source

theorem NvStable.compacts (h : P s) : P s.compact := by
  unfold State.compact
  split
  · exact stable.compactsSector _ h
  · split
    · exact h
    · exact stable.compactsSector _ h

theorem NvStable.compactsIf (c : Bool) (h : P s) : P (if c = true then s.compact else s) := by
  split
  · exact stable.compacts h
  · exact h

theorem NvStable.commitsRecs (l : List GRec) (h : P s) : P (s.commitRecs l) := by
  have compacted := stable.compactsIf s.mustCompact h
  unfold State.commitRecs
  dsimp only
  split
  next t e => exact stable.refreshes (stable.writes l (stable.room e compacted))
  · exact stable.refreshes compacted

theorem NvStable.seals (l : List GRec) (h : P s) : P (s.sealCommit l) := by
  have compacted := stable.compactsIf s.mustCompact h
  unfold State.sealCommit
  dsimp only
  split
  · exact h
  · split
    next t e => exact stable.refreshes (stable.commits e compacted)
    · exact stable.refreshes compacted

theorem NvStable.numbers (k : Nat) (c : Bool) (d : List Byte) (h : P s) : P (s.critPair k c d).1 := by
  unfold State.critPair
  dsimp only
  split
  · exact h
  · exact stable.sets _ _ _ (by decide) h

theorem NvStable.resolves (k : Nat) (h : P s) : P (s.resolveKey k).1 := by
  unfold State.resolveKey
  dsimp only
  have resolved (c : Bool) (l : List FRec) (u : State) (hu : P u) :
      P (if c = true then u else l.foldl (fun u r => u.retire r) (u.raise nvB 0)) := by
    split
    · exact hu
    · exact stable.retiring _ (stable.event _ _ hu)
  have doubled (c : Bool) (l : List GRec) (r : FRec) (u : State) (hu : P u) : P (if c = true then (u.commitRecs l).retire r else u) := by
    split
    · exact stable.retires _ (stable.commitsRecs _ hu)
    · exact hu
  split
  · exact stable.eventIf _ _ h
  · dsimp only
    refine doubled _ _ _ _ ?_
    refine resolved _ _ _ ?_
    exact stable.eventIf _ _ h

theorem NvStable.activates (k f : Nat) (b : Nat → Nat) (h : P s) : P (s.makeActive k f b) := by
  unfold State.makeActive
  refine stable.stores _ _ (stable.programsWord _ _
    (State.forAll_keeps (fun i _ u t e hu => ?_) (stable.programsWord _ _ (stable.programsWord _ _ h))))
  rw [e]
  exact stable.programsWord _ _ (stable.programsWord _ _ hu)

theorem NvStable.folds (h : P s) : P s.fold := by
  unfold State.fold
  split
  · exact h
  · exact stable.stores _ _ (stable.programsWord _ _ (stable.activates _ _ _ (stable.stores _ _ (stable.erasesRaw _ h))))

theorem NvStable.steps (i : Nat) (h : P s) : P (s.cntStep i) := by
  have folded (c : Bool) : P (if c = true then s.fold else s) := by
    split
    · exact stable.folds h
    · exact h
  unfold State.cntStep
  split
  · exact h
  · dsimp only
    split
    · exact stable.counts _ (stable.programsWord _ _ (folded _))
    · exact folded _

theorem NvStable.repairs (w : Weak) (h : P s) : P (s.weakItem w) := by
  cases w with
  | record a =>
    show P (match s.liveRecs.find? fun r => r.addr == a.val with
      | some r => ((s.commitRecs [r.body]).retire r).bump nvB F.GLEAN_STAT_REWRITTEN
      | none => s)
    split
    · exact stable.sets _ _ _ (by decide) (stable.retires _ (stable.commitsRecs _ h))
    · exact h
  | cell i c =>
    show P (match s.nv.active with
      | some k => (s.progWord (stripA k i.val + 64 + 4 * c.val) 0).cntRefresh
      | none => s)
    split
    · exact stable.counts _ (stable.programsWord _ _ h)
    · exact h
  | strip i => exact stable.counts _ (stable.folds h)
  | sector k =>
    show P (if s.recSectors.contains k.val then s.compactSec k.val else s)
    split
    · exact stable.compactsSector _ h
    · exact h
  | page p =>
    show P (if 16 ≤ p.val / 256 ∧ p.val / 256 < 62 then
      (s.bump nvB F.GLEAN_STAT_RAW_WEAK).puts nvB [(F.FLASH_LAST_PAGE, p.val), (F.FLASH_LAST_KIND, 2)] else s)
    split
    · exact stable.setsAll _ rfl (stable.sets _ _ _ (by decide) h)
    · exact h

theorem NvStable.gleans (l : List Weak) (h : P s) : P (s.glean l) := by
  unfold State.glean
  refine stable.refreshes (stable.stores _ _ (State.foldl_keeps (fun w _ u t e hu => ?_) (stable.eventIf _ _ h)))
  rw [e]
  exact stable.repairs w hu

theorem NvStable.settlesCounters (h : P s) : P s.settleCounters := by
  unfold State.settleCounters
  refine stable.counts _ ?_
  have checked (u : State) (hu : P u) : P (match u.nv.active with
      | some k => if (List.range 16).all (u.baseOk k) then u
        else (u.puts nvB [(F.FLASH_LAST_PAGE, 256 * k), (F.FLASH_LAST_KIND, 3)]).raise nvB 7
      | none => u) := by
    split
    · split
      · exact hu
      · exact stable.event _ _ (stable.setsAll _ rfl hu)
    · exact hu
  refine checked _ ?_
  split
  · exact stable.stores _ _ (stable.stores _ _ (stable.programsWord _ _ h))
  · refine stable.stores _ _ ?_
    split
    · exact h
    · exact stable.stores _ _ (stable.programsWord _ _ h)
  · refine stable.stores _ _ ?_
    split
    · exact h
    · exact stable.stores _ _ (stable.programsWord _ _ h)
  · split
    · exact h
    · exact stable.activates _ _ _ (stable.erasesRaw _ h)

theorem NvStable.indexes (h : P s) : P s.indexRecords := by
  unfold State.indexRecords
  refine stable.setsAll _ rfl (stable.stores _ _ (State.foldl_keeps (fun k _ u t e hu => e ▸ stable.resolves k hu) ?_))
  split
  · exact h
  · exact stable.retiring _ h

end

/-! What is stable. -/

theorem rd_cntRefresh (s : State) {a : Nat} (hv : ∀ i, i < 16 → a ≠ nvB + 0x90 + 4 * i) (hs : a ≠ nvB + 0xD0) (hl : a ≠ nvB + 0x1C)
    (hc : a ≠ ksB + 0x60) (hk : a ≠ ksB + 0x1C) : s.cntRefresh.rd a = s.rd a := by
  unfold State.cntRefresh
  dsimp only
  rw [State.rd_live_ne _ _ _ hk, State.rd_put_ne _ _ _ hc, State.rd_live_ne _ _ _ hl, State.rd_put_ne _ _ _ hs]
  exact State.rd_forAll fun i hi u => State.rd_wr_ne _ _ (hv i (List.mem_range.1 hi))

/-- A field of the controller's page that its operations do not set. -/
theorem nvStable_field (g : Fld) (n : Nat) (apart : (nvShown.all fun f => f.apart g) = true) (low : g.off < 0x90)
    (sticky : g.off ≠ 0x10) (live : g.off ≠ 0x1C) : NvStable fun u => u.get nvB g = n where
  stores _ _ h := h
  sets u f v hf h := (u.get_put_of_apart nvB f g v (List.all_eq_true.1 apart f hf)).trans h
  event u k h := (u.get_raise_off nvB k g sticky).trans h
  shows u k b h := (u.get_live_off nvB k b g live).trans h
  counts u h := (State.get_of_rd (rd_cntRefresh u (fun i _ => by omega) (by omega) (by omega) (by simp only [nvB, ksB, gPage]; omega)
    (by simp only [nvB, ksB, gPage]; omega))).trans h

theorem nvStable_flag (g : Fld) (b : Bool) (apart : (nvShown.all fun f => f.apart g) = true) (low : g.off < 0x90)
    (sticky : g.off ≠ 0x10) (live : g.off ≠ 0x1C) : NvStable fun u => u.is nvB g = b := by
  have same (u v : State) (e : v.get nvB g = u.get nvB g) (h : u.is nvB g = b) : v.is nvB g = b := by
    rw [← h]
    exact congrArg (· != 0) e
  have kept (u : State) := nvStable_field g (u.get nvB g) apart low sticky live
  exact ⟨fun _ _ h => h, fun u f v hf => same u _ ((kept u).sets u f v hf rfl), fun u k => same u _ ((kept u).event u k rfl),
    fun u k c => same u _ ((kept u).shows u k c rfl), fun u => same u _ ((kept u).counts u rfl)⟩

/-- A word of another page, apart from the counter that the key store shows. -/
theorem nvStable_word (a : Nat) (w : Word) (other : a < nvB ∨ nvB + 0x1000 ≤ a) (hc : a ≠ ksB + 0x60) (hl : a ≠ ksB + 0x1C) :
    NvStable fun u => u.rd a = w where
  stores _ _ h := h
  sets u f v hf h := by
    have small : f.off < 0x1000 := of_decide_eq_true (List.all_eq_true.1 (by decide : (nvShown.all fun f => decide (f.off < 0x1000)) = true) f hf)
    exact (u.rd_put_ne f v (by omega)).trans h
  event u k h := (u.rd_raise_ne k (by omega)).trans h
  shows u k b h := (u.rd_live_ne k b (by omega)).trans h
  counts u h := (rd_cntRefresh u (fun i hi => by omega) (by omega) (by omega) hc hl).trans h

end Sys2Proof.Machine
end

section
/-! Proofs about the embedded flash (R441 to R466): the record commands, and the statement on records, commits and compaction. -/

set_option Elab.async false

namespace Sys2Proof.Machine

/-! Bytes and numbers. -/

@[simp] theorem length_leBytes (n v : Nat) : (leBytes n v).length = n := by
  induction n generalizing v with
  | zero => rfl
  | succ n ih => rw [leBytes, List.length_cons, ih]

@[simp] theorem length_slice (l : List Byte) (o n : Nat) : (slice l o n).length = n := by
  have := List.length_take_le n (l.drop o)
  simp only [slice, List.length_append, List.length_replicate]
  omega

theorem ofLe_leBytes (n v : Nat) : ofLe (leBytes n v) = v % 256 ^ n := by
  induction n generalizing v with
  | zero => exact (Nat.mod_one v).symm
  | succ n ih => rw [leBytes, ofLe, ih, BitVec.toNat_ofNat, pow_succ' 256 n, Nat.mod_mul (x := v) (a := 256)]

theorem leBytes_ofLe (l : List Byte) : leBytes l.length (ofLe l) = l := by
  induction l with
  | nil => rfl
  | cons b l ih =>
    have h : b.toNat < 256 := b.isLt
    have hd : (b.toNat + 256 * ofLe l) / 256 = ofLe l := by omega
    rw [List.length_cons, leBytes, ofLe, hd, ih]
    congr 1
    apply BitVec.eq_of_toNat_eq
    rw [BitVec.toNat_ofNat]
    omega

theorem ofLe_lt (l : List Byte) : ofLe l < 256 ^ l.length := by
  induction l with
  | nil => exact Nat.one_pos
  | cons b l ih =>
    have h : b.toNat < 256 := b.isLt
    rw [List.length_cons, Nat.pow_succ', ofLe]
    omega

/-- The word that four bytes of a list make gives these bytes back. -/
theorem leBytes_sliceWord (l : List Byte) (o : Nat) : leBytes 4 (BitVec.ofNat 32 (ofLe (slice l o 4))).toNat = slice l o 4 := by
  have h := ofLe_lt (slice l o 4)
  rw [length_slice] at h
  rw [BitVec.toNat_ofNat, Nat.mod_eq_of_lt (b := 2 ^ 32) h]
  have same := leBytes_ofLe (slice l o 4)
  rwa [length_slice] at same

theorem slice_eq_take (l : List Byte) {o n : Nat} (h : o + n ≤ l.length) : slice l o n = (l.drop o).take n := by
  have hl : ((l.drop o).take n).length = n := by rw [List.length_take, List.length_drop]; omega
  simp only [slice, hl, Nat.sub_self, List.replicate_zero, List.append_nil]

/-- Words of a list, one after the other, are the list. -/
theorem flatMap_slices (l : List Byte) (n : Nat) (h : 4 * n ≤ l.length) :
    (List.range n).flatMap (fun i => slice l (4 * i) 4) = l.take (4 * n) := by
  induction n with
  | zero => rfl
  | succ n ih =>
    rw [List.range_succ, List.flatMap_append, ih (by omega), List.flatMap_cons, List.flatMap_nil, List.append_nil,
      slice_eq_take l (by omega), show 4 * (n + 1) = 4 * n + 4 from by omega, List.take_add]

theorem four_ceilDiv (n : Nat) : n ≤ 4 * ceilDiv n 4 ∧ 4 * ceilDiv n 4 < n + 4 := by
  unfold ceilDiv
  omega

/-! What the contents of the array and of the buffers alone decide. -/

section
variable {s t : State} (h : t.nv = s.nv)
include h

theorem State.fByte_of_nv (a : Nat) : t.fByte a = s.fByte a := by rw [State.fByte, State.fByte, h]

theorem State.fBytes_of_nv (a n : Nat) : t.fBytes a n = s.fBytes a n := by simp only [State.fBytes, State.fByte_of_nv h]

theorem State.fWord_of_nv (a : Nat) : t.fWord a = s.fWord a := by rw [State.fWord, State.fWord, State.fBytes_of_nv h]

theorem State.secState_of_nv (k : Nat) : t.secState k = s.secState k := by
  rw [State.secState, State.secState, State.secOk, State.secOk, State.fBytes_of_nv h, State.fWord_of_nv h]

theorem State.pageRecs_of_nv (page n o : Nat) : t.pageRecs page n o = s.pageRecs page n o := by
  induction n generalizing o with
  | zero => rfl
  | succ n ih => simp only [State.pageRecs, State.fByte_of_nv h, State.fBytes_of_nv h, State.fWord_of_nv h, ih]

theorem State.allRecs_of_nv : t.allRecs = s.allRecs := by
  have seq : t.secSeq = s.secSeq := funext fun k => State.fWord_of_nv h _
  have sectors : t.recSectors = s.recSectors := by simp only [State.recSectors, State.secState_of_nv h, seq]
  have recs (k : Nat) : t.sectorRecs k = s.sectorRecs k := by
    simp only [State.sectorRecs, State.fByte_of_nv h, State.pageRecs_of_nv h]
  rw [State.allRecs, State.allRecs, sectors]
  exact congrArg (fun f => s.recSectors.flatMap f) (funext recs)

theorem State.liveRecs_of_nv : t.liveRecs = s.liveRecs := by rw [State.liveRecs, State.liveRecs, State.allRecs_of_nv h]

theorem State.liveBytes_of_nv : t.liveBytes = s.liveBytes := by rw [State.liveBytes, State.liveBytes, State.liveRecs_of_nv h]

theorem State.liveKeys_of_nv : t.liveKeys = s.liveKeys := by rw [State.liveKeys, State.liveKeys, State.liveRecs_of_nv h]

end

/-- The newest version of a key with a right CRC, unless it is a deletion (R451). -/
def newestRec (l : List FRec) (k : Nat) : Option GRec :=
  let good := (l.filter fun r => r.body.key == k).filter (·.ok)
  (good.filter fun r => r.body.seq == newestSeq good).getLast?.bind fun last => if last.body.tomb then none else some last.body

theorem State.resolveKey_snd (s : State) (k : Nat) : (s.resolveKey k).2 = newestRec s.liveRecs k := by
  unfold State.resolveKey newestRec
  dsimp only
  split
  next e => rw [e, Option.bind_none]
  next last e => rw [e, Option.bind_some]

theorem State.resolveKey_snd_of_nv {s t : State} (h : t.nv = s.nv) (k : Nat) : (t.resolveKey k).2 = (s.resolveKey k).2 := by
  rw [State.resolveKey_snd, State.resolveKey_snd, State.liveRecs_of_nv h]

/-! The refresh and the result of a command. -/

/-- The fields that the refresh sets. -/
def nvRefreshed : List Fld :=
  [F.REC_SPACE_ERASED, F.REC_SPACE_LIVE_KIB, F.REC_SPACE_KEYS, F.GATHER_USED_BYTES, F.NV_STAT_GATHER_OPEN, F.NV_STAT_GATHER_OWNER,
    F.NV_STAT_COMPACTING, F.RAW_RES_OWNED, F.RAW_RES_OWNER, F.RAW_DATA_BYTES]

section
variable (s : State)

@[simp] theorem State.nvRefresh_nv : s.nvRefresh.nv = s.nv := by
  simp only [State.nvRefresh, State.live_nv, State.raiseIf_nv, State.puts_nv]

@[simp] theorem State.get_nvRefresh (g : Fld) (h : (nvRefreshed.all fun f => f.apart g) = true) (sticky : g.off ≠ 0x10) (live : g.off ≠ 0x1C) :
    s.nvRefresh.get nvB g = s.get nvB g := by
  unfold State.nvRefresh
  dsimp only
  rw [State.get_live_off _ _ _ _ _ live, State.get_raiseIf_off _ _ _ _ _ sticky]
  exact State.get_puts_of_apart _ _ _ _ h

theorem State.is_nvRefresh (g : Fld) (h : (nvRefreshed.all fun f => f.apart g) = true) (sticky : g.off ≠ 0x10) (live : g.off ≠ 0x1C) :
    s.nvRefresh.is nvB g = s.is nvB g := congrArg (· != 0) (s.get_nvRefresh g h sticky live)

/-- The refresh writes no register of a window or a number. -/
theorem State.rd_nvRefresh {a : Nat} (h : nvB + 0x80 ≤ a) : s.nvRefresh.rd a = s.rd a := by
  unfold State.nvRefresh
  dsimp only
  rw [State.rd_live_ne _ _ _ (by omega), State.rd_raiseIf_ne _ _ _ (by omega)]
  refine State.rd_puts_ne _ _ fun p hp => ?_
  have low : p.1.off < 0x80 := by
    revert p
    simp only [List.forall_mem_cons]
    decide
  omega

@[simp] theorem State.recRes_nv (c : Nat) : (s.recRes c).nv = s.nv := by rw [State.recRes, State.nvRefresh_nv, State.puts_nv]

@[simp] theorem State.get_recRes_code (c : Nat) : (s.recRes c).get nvB F.REC_RES_CODE = c % 2 ^ 8 := by
  rw [State.recRes, State.get_nvRefresh _ _ rfl (by decide) (by decide)]
  exact State.get_puts_first _ _ _ _ _ (by decide) rfl

theorem State.get_recRes (c : Nat) (g : Fld) (h : (nvRefreshed.all fun f => f.apart g) = true) (sticky : g.off ≠ 0x10) (live : g.off ≠ 0x1C)
    (res : ([F.REC_RES_CODE, F.REC_RES_DONE, F.REC_RES_BUSY].all fun f => f.apart g) = true) :
    (s.recRes c).get nvB g = s.get nvB g := by
  rw [State.recRes, State.get_nvRefresh _ _ h sticky live]
  exact State.get_puts_of_apart _ _ _ _ res

theorem State.rd_recRes (c : Nat) {a : Nat} (h : nvB + 0x80 ≤ a) : (s.recRes c).rd a = s.rd a := by
  rw [State.recRes, State.rd_nvRefresh _ h]
  refine State.rd_puts_ne _ _ ?_
  simp only [List.forall_mem_cons]
  exact ⟨by omega, by omega, by omega, fun _ h => absurd h List.not_mem_nil⟩

/-! A record command. -/

/-- The fields of a record command are stored. -/
def State.recFields (s : State) (op : Nat) (v : Word) : State :=
  s.puts nvB [(F.REC_CMD_OP, op), (F.REC_CMD_CRIT, fldGet v 3 1), (F.REC_CMD_LEN, fldGet v 4 8)]

/-- A record command has been accepted. -/
def State.recStarted (s : State) (op : Nat) (v : Word) : State := (s.recFields op v).puts nvB [(F.REC_RES_DONE, 0), (F.REC_RES_LEN, 0)]

theorem State.recStarted_nv (op : Nat) (v : Word) : (s.recStarted op v).nv = s.nv := by
  rw [State.recStarted, State.puts_nv, State.recFields, State.puts_nv]

theorem State.rd_recStarted (op : Nat) (v : Word) {a : Nat} (h : a ≠ nvB + 0x50) (g : a ≠ nvB + 0x58) : (s.recStarted op v).rd a = s.rd a := by
  rw [State.recStarted, State.recFields, State.rd_puts_ne, State.rd_puts_ne]
  · simp only [List.forall_mem_cons]
    exact ⟨h, h, h, fun _ h => absurd h List.not_mem_nil⟩
  · simp only [List.forall_mem_cons]
    exact ⟨g, g, fun _ h => absurd h List.not_mem_nil⟩

theorem State.get_recStarted (op : Nat) (v : Word) (f : Fld) (h : f.off ≠ 0x50 ∧ f.off ≠ 0x58) : (s.recStarted op v).get nvB f = s.get nvB f :=
  State.get_of_rd (s.rd_recStarted op v (by omega) (by omega))

theorem State.is_recFields (op : Nat) (v : Word) (f : Fld) (h : f.off ≠ 0x50) : (s.recFields op v).is nvB f = s.is nvB f :=
  State.is_of_rd (State.rd_puts_ne _ _ (by
    simp only [List.forall_mem_cons]
    exact ⟨by omega, by omega, by omega, fun _ h => absurd h List.not_mem_nil⟩))

variable {s}

theorem State.recCommand_early (m op : Nat) (v : Word) (f : State → State) (ready : s.is nvB F.NV_STAT_READY = false) :
    s.recCommand m op v f = s.recFields op v := by
  have early : (s.recFields op v).is nvB F.NV_STAT_READY = false := (s.is_recFields op v _ (by decide)).trans ready
  unfold State.recCommand
  dsimp only
  exact if_pos (by rw [Bool.not_eq_true']; exact early)

theorem State.recCommand_ready (m op : Nat) (v : Word) (f : State → State) (ready : s.is nvB F.NV_STAT_READY = true) :
    s.recCommand m op v f = match s.nv.notice.find? fun p => p.1 == m with
      | some p => ((s.recStarted op v).modNv fun x => { x with notice := x.notice.filter fun q => q.1 != m }).recRes p.2
      | none => f (s.recStarted op v) := by
  have late : ¬ (!(s.recFields op v).is nvB F.NV_STAT_READY) = true := by
    rw [s.is_recFields op v _ (by decide), ready]
    exact Bool.false_ne_true
  rw [← s.recStarted_nv op v]
  exact if_neg late

theorem State.recCommand_run (m op : Nat) (v : Word) (f : State → State) (ready : s.is nvB F.NV_STAT_READY = true) (none : s.nv.notice = []) :
    s.recCommand m op v f = f (s.recStarted op v) := by
  rw [State.recCommand_ready m op v f ready, none]
  rfl

theorem State.recCommand_notice (m op : Nat) (v : Word) (f : State → State) {c : Nat} (ready : s.is nvB F.NV_STAT_READY = true)
    (one : s.nv.notice = [(m, c)]) :
    s.recCommand m op v f = ((s.recStarted op v).modNv fun x => { x with notice := [] }).recRes c := by
  have left : (s.recStarted op v).modNv (fun x => { x with notice := x.notice.filter fun q => q.1 != m }) =
      (s.recStarted op v).modNv fun x => { x with notice := [] } := by
    have : (s.recStarted op v).nv.notice.filter (fun q => q.1 != m) = [] := by
      rw [s.recStarted_nv, one]
      simp
    simp only [State.modNv, this]
  have found : s.nv.notice.find? (fun p => p.1 == m) = some (m, c) := by rw [one]; simp
  rw [State.recCommand_ready m op v f ready, found]
  exact congrArg (State.recRes · c) left

end

end Sys2Proof.Machine
end

section
/-! Proofs about the embedded flash (R447 to R452): the record commands, and the statement on records, commits and compaction. -/

set_option Elab.async false

namespace Sys2Proof.Machine

/-! Where a record is placed. -/

/-- Where a record that is no copy is placed: it crosses no page. -/
def recPlace (o z : Nat) : Nat := if o % 256 + z ≤ 256 then o else (o / 256 + 1) * 256

theorem placeRecs_end (o : Nat) (first : Option (Nat × Nat × Nat)) (r : GRec) (l : List GRec) (hc : r.copy = false) :
    (placeRecs o first (r :: l)).2 = (placeRecs (recPlace o (recSize r.data.length) + recSize r.data.length)
      (some (recPlace o (recSize r.data.length), r.key, r.seq)) l).2 := by
  cases first with
  | none => rfl
  | some p => simp only [placeRecs, hc, Bool.false_and, Bool.false_eq_true, if_false, recPlace]

/-- A record that is no copy and fits a page ends at most one page further on. -/
theorem recPlace_end {o z : Nat} (hz : 0 < z ∧ z ≤ 256) : o < recPlace o z + z ∧ (recPlace o z + z - 1) / 256 ≤ o / 256 + 1 := by
  unfold recPlace
  split <;> omega

theorem placeRecs_two (o : Nat) (r m : GRec) (hr : r.copy = false) (hm : m.copy = false) (zr : recSize r.data.length ≤ 256)
    (zm : recSize m.data.length ≤ 256) : o < (placeRecs o none [r, m]).2 ∧ ((placeRecs o none [r, m]).2 - 1) / 256 ≤ o / 256 + 3 := by
  have first := recPlace_end (o := o) (z := recSize r.data.length) ⟨by unfold recSize; omega, zr⟩
  rw [placeRecs_end _ _ _ _ hr, placeRecs_end _ _ _ _ hm, placeRecs]
  generalize recPlace o (recSize r.data.length) + recSize r.data.length = p at first ⊢
  have second := recPlace_end (o := p) (z := recSize m.data.length) ⟨by unfold recSize; omega, zm⟩
  omega

theorem recSize_le {n : Nat} (h : n ≤ 240) : recSize n ≤ 256 := by
  have := four_ceilDiv n
  unfold recSize
  unfold ceilDiv at *
  omega

section
variable {s u : State} {m : Fin 8} {v : Word}

theorem State.commitPages_one (s : State) (p : Nat) (r : GRec) (hr : r.copy = false) (hn : r.data.length ≤ 240) :
    ¬ 16 < s.commitPages p [r] := by
  have marked : (s.marker [r]).data.length = 8 := by
    simp [State.marker]
  have h := placeRecs_two p r (s.marker [r]) hr (by show bitN 0xF8 1 = false; decide) (recSize_le hn) (by rw [marked]; decide)
  show ¬ 16 < ((placeRecs p none [r, s.marker [r]]).2 - 1) / 256 - p / 256 + 1
  omega

/-! The commands. -/

/-- The state with one more version in an empty gather buffer. -/
def State.gathered (s : State) (m key : Nat) (tomb : Bool) (data : List Byte) : State :=
  (s.modNv fun x => { x with gather := some (m, [⟨key, s.get nvB F.REC_SEQ_VALUE, recFlags false false tomb, data⟩]) }).put nvB F.REC_SEQ_VALUE
    (s.get nvB F.REC_SEQ_VALUE + 1)

theorem recFlags_copy (tomb : Bool) : bitN (recFlags false false tomb) 1 = false := by cases tomb <;> decide

/-- The first version in an empty buffer, for which there is room. -/
theorem State.gatherAdd_first (m key : Nat) (tomb : Bool) (data : List Byte) (none : s.nv.gather = none)
    (number : s.get nvB F.REC_SEQ_VALUE ≠ 0xFFFFFFFF) (short : data.length ≤ 240)
    (room : tomb = false → s.liveBytes + recSize data.length ≤ 786432 ∧ s.liveKeys.length < 2048) :
    s.gatherAdd m key false tomb data = (s.gathered m key tomb data).recRes fcOk := by
  have pages := s.commitPages_one s.recPtr ⟨key, s.get nvB F.REC_SEQ_VALUE, recFlags false false tomb, data⟩ (recFlags_copy tomb) short
  have fits : ¬ (s.get nvB F.REC_SEQ_VALUE = 0xFFFFFFFF ∨ ((!tomb) && (decide (786432 < s.liveBytes + 0 + 1 * recSize data.length) ||
      (((!tomb) && !(s.liveKeys.contains key || ([] : List GRec).any fun r => r.key == key)) && decide (2048 ≤ s.liveKeys.length + (dedupN []).length)))) = true) := by
    rintro (e | e)
    · exact number e
    · cases tomb with
      | true => exact Bool.false_ne_true e
      | false =>
        obtain ⟨bytes, keys⟩ := room rfl
        have empty : (dedupN []).length = 0 := rfl
        simp only [Bool.not_false, Bool.true_and, Bool.or_eq_true, Bool.and_eq_true, decide_eq_true_eq] at e
        omega
  unfold State.gatherAdd
  simp only [none]
  rw [if_neg Bool.false_ne_true]
  refine (if_neg ?_).trans ((if_neg pages).trans rfl)
  simpa using fits

/-- The window shows a list's first bytes once its words are written. -/
theorem State.length_recData (s : State) (n : Nat) : (s.recData n).length = n := by
  have room := (four_ceilDiv n).1
  have words : ((List.range (ceilDiv n 4)).flatMap fun i => leBytes 4 (s.rd (nvB + 0x100 + 4 * i)).toNat).length = 4 * ceilDiv n 4 := by
    simp [List.length_flatMap, List.map_const', Nat.mul_comm]
  rw [State.recData, List.length_take, words]
  omega

theorem State.recData_of_rd {s t : State} (h : ∀ a, nvB + 0x100 ≤ a → t.rd a = s.rd a) (n : Nat) : t.recData n = s.recData n := by
  have (i : Nat) : t.rd (nvB + 0x100 + 4 * i) = s.rd (nvB + 0x100 + 4 * i) := h _ (by omega)
  simp only [State.recData, this]

theorem State.recData_recStarted (op n : Nat) : (s.recStarted op v).recData n = s.recData n :=
  State.recData_of_rd (fun a h => s.rd_recStarted op v (by omega) (by omega)) n

theorem State.inhibited_recStarted (op : Nat) : (s.recStarted op v).inhibited = s.inhibited :=
  congrArg (· != 0) (s.get_recStarted op v F.NV_STAT_INHIBIT (by decide))

theorem exec_recAppend (s : State) : exec (.recAppend m v) s = .next (s.recCommand m.val 1 v fun t =>
    if 240 < fldGet v 4 8 || keyReserved (s.get nvB F.REC_KEY_KEY) then t.recRes fcBadArg
    else if !keyMay m.val (s.get nvB F.REC_KEY_KEY) true then t.recRes fcDenied
    else t.gatherAdd m.val (s.get nvB F.REC_KEY_KEY) (bitN v.toNat 3) false (t.recData (fldGet v 4 8))) := rfl

theorem exec_recDelete (s : State) : exec (.recDelete m v) s = .next (s.recCommand m.val 2 v fun t =>
    if keyReserved (s.get nvB F.REC_KEY_KEY) then t.recRes fcBadArg
    else if !keyMay m.val (s.get nvB F.REC_KEY_KEY) true then t.recRes fcDenied
    else t.gatherAdd m.val (s.get nvB F.REC_KEY_KEY) (bitN v.toNat 3) true []) := rfl

/-- Before the store is ready a record command only leaves its fields. -/
theorem does_recCommand_early {c : Instr} {op : Nat} {f : State → State} (run : exec c s = .next (s.recCommand m.val op v f))
    (ready : s.is nvB F.NV_STAT_READY = false) : Does c s fun t => t.nv = s.nv := by
  refine Does.intro run ?_
  rw [State.recCommand_early _ _ _ _ ready, State.recFields, State.puts_nv]

/-- A version gathered first: its number, and the buffer that holds it. -/
theorem does_gathered {c : Instr} {op key : Nat} {tomb : Bool} {data : List Byte}
    (run : exec c s = .next (((s.recStarted op v).gathered m.val key tomb data).recRes fcOk)) (number : s.get nvB F.REC_SEQ_VALUE ≠ 0xFFFFFFFF) :
    Does c s fun t => t.get nvB F.REC_RES_CODE = 0 ∧ t.get nvB F.REC_SEQ_VALUE = s.get nvB F.REC_SEQ_VALUE + 1 ∧
      t.nv = { s.nv with gather := some (m.val, [⟨key, s.get nvB F.REC_SEQ_VALUE, recFlags false false tomb, data⟩]) } := by
  have seq := s.get_recStarted op v F.REC_SEQ_VALUE (by decide)
  have small := State.get_lt s nvB F.REC_SEQ_VALUE
  refine Does.intro run ⟨State.get_recRes_code _ _, ?_, ?_⟩
  · rw [State.get_recRes _ _ _ rfl (by decide) (by decide) rfl, State.gathered, State.get_put_same _ _ _ _ (by decide), seq]
    exact Nat.mod_eq_of_lt (b := 2 ^ 32) (by simp only [F.REC_SEQ_VALUE] at small number ⊢; omega)
  · rw [State.recRes_nv, State.gathered, State.put_nv, seq, State.modNv_nv, s.recStarted_nv op v]

theorem exec_recAppend_gathered (ready : s.is nvB F.NV_STAT_READY = true) (notice : s.nv.notice = []) (none : s.nv.gather = none)
    (free : keyReserved (s.get nvB F.REC_KEY_KEY) = false) (may : keyMay m (s.get nvB F.REC_KEY_KEY) true = true) (short : fldGet v 4 8 ≤ 240)
    (crit : bitN v.toNat 3 = false) (number : s.get nvB F.REC_SEQ_VALUE ≠ 0xFFFFFFFF)
    (room : s.liveBytes + recSize (fldGet v 4 8) ≤ 786432) (keys : s.liveKeys.length < 2048) :
    exec (.recAppend m v) s = .next
      (((s.recStarted 1 v).gathered m.val (s.get nvB F.REC_KEY_KEY) false (s.recData (fldGet v 4 8))).recRes fcOk) := by
  have nv := s.recStarted_nv 1 v
  have refused : ¬ (decide (240 < fldGet v 4 8) || keyReserved (s.get nvB F.REC_KEY_KEY)) = true := by
    rw [free, Bool.or_false, decide_eq_true_eq]
    omega
  rw [exec_recAppend, State.recCommand_run _ _ _ _ ready notice, if_neg refused, may, if_neg (by decide), crit,
    State.gatherAdd_first _ _ _ _ (by rw [nv]; exact none) (by rwa [s.get_recStarted _ _ _ (by decide)])
      (by rwa [State.length_recData]) (fun _ => by rw [State.liveBytes_of_nv nv, State.liveKeys_of_nv nv, State.length_recData]; exact ⟨room, keys⟩),
    State.recData_recStarted]

theorem exec_recDelete_gathered (ready : s.is nvB F.NV_STAT_READY = true) (notice : s.nv.notice = []) (none : s.nv.gather = none)
    (free : keyReserved (s.get nvB F.REC_KEY_KEY) = false) (may : keyMay m (s.get nvB F.REC_KEY_KEY) true = true)
    (crit : bitN v.toNat 3 = false) (number : s.get nvB F.REC_SEQ_VALUE ≠ 0xFFFFFFFF) :
    exec (.recDelete m v) s = .next (((s.recStarted 2 v).gathered m.val (s.get nvB F.REC_KEY_KEY) true []).recRes fcOk) := by
  rw [exec_recDelete, State.recCommand_run _ _ _ _ ready notice, free, if_neg Bool.false_ne_true, may, if_neg (by decide), crit,
    State.gatherAdd_first _ _ _ _ (by rw [s.recStarted_nv]; exact none) (by rwa [s.get_recStarted _ _ _ (by decide)])
      (Nat.zero_le _) (fun e => absurd e (by decide))]

/-- A result that changes nothing but itself. -/
theorem does_recRes {c : Instr} {op code : Nat} (run : exec c s = .next ((s.recStarted op v).recRes code)) (small : code < 256) :
    Does c s fun t => t.get nvB F.REC_RES_CODE = code ∧ t.nv = s.nv :=
  Does.intro run ⟨(State.get_recRes_code _ _).trans (Nat.mod_eq_of_lt (b := 2 ^ 8) small), (State.recRes_nv _ _).trans (s.recStarted_nv _ _)⟩

theorem does_recDelete_refused (ready : s.is nvB F.NV_STAT_READY = true) (notice : s.nv.notice = [])
    (refused : keyReserved (s.get nvB F.REC_KEY_KEY) = true ∨ keyMay m (s.get nvB F.REC_KEY_KEY) true = false) :
    Does (.recDelete m v) s fun t => t.nv = s.nv ∧ t.get nvB F.REC_RES_CODE = if keyReserved (s.get nvB F.REC_KEY_KEY) then 0x55 else 0x51 := by
  have run := (exec_recDelete s (m := m) (v := v)).trans (congrArg _ (State.recCommand_run _ _ _ _ ready notice))
  cases free : keyReserved (s.get nvB F.REC_KEY_KEY) with
  | true =>
    rw [free, if_pos rfl] at run
    obtain ⟨t, e, code, nv⟩ := does_recRes run (by decide)
    exact ⟨t, e, nv, code⟩
  | false =>
    have denied := refused.resolve_left (by rw [free]; decide)
    rw [free, if_neg Bool.false_ne_true, denied, if_pos Bool.not_false] at run
    obtain ⟨t, e, code, nv⟩ := does_recRes run (by decide)
    exact ⟨t, e, nv, code⟩

/-! Commit, abort and read. -/

theorem exec_recCommit (s : State) : exec (.recCommit m v) s = .next (s.recCommand m.val 3 v fun t =>
    match t.gatherOwn m.val with
    | .error c => t.recRes c
    | .ok l => if t.inhibited then t.recRes fcInhibited else ((t.commitRecs l).modNv fun x => { x with gather := none }).recRes fcOk) := rfl

theorem exec_recAbort (s : State) : exec (.recAbort m v) s = .next (s.recCommand m.val 4 v fun t =>
    match t.gatherOwn m.val with
    | .error c => t.recRes c
    | .ok _ => (t.modNv fun x => { x with gather := none }).recRes fcOk) := rfl

theorem State.gatherOwn_mine {l : List GRec} (own : s.nv.gather = some (m.val, l)) : s.gatherOwn m.val = .ok l := by
  rw [State.gatherOwn, own]
  exact if_pos rfl

theorem State.gatherOwn_none (none : s.nv.gather = none) : s.gatherOwn m.val = .error fcNoGather := by
  rw [State.gatherOwn, none]

theorem State.gatherOwn_recStarted (op : Nat) : (s.recStarted op v).gatherOwn m.val = s.gatherOwn m.val := by
  rw [State.gatherOwn, State.gatherOwn, State.recStarted_nv]

section
variable (ready : s.is nvB F.NV_STAT_READY = true) (notice : s.nv.notice = [])
include ready notice

theorem exec_recCommit_own {l : List GRec} (own : s.nv.gather = some (m.val, l)) : exec (.recCommit m v) s = .next
    (if s.inhibited then (s.recStarted 3 v).recRes fcInhibited
      else (((s.recStarted 3 v).commitRecs l).modNv fun x => { x with gather := none }).recRes fcOk) := by
  rw [exec_recCommit, State.recCommand_run _ _ _ _ ready notice, State.gatherOwn_recStarted, State.gatherOwn_mine own,
    State.inhibited_recStarted]

theorem does_recCommit {l : List GRec} (writes : s.inhibited = false) (own : s.nv.gather = some (m.val, l)) :
    Does (.recCommit m v) s fun t => t.get nvB F.REC_RES_CODE = 0 ∧ t.nv.gather = none := by
  have run := exec_recCommit_own (v := v) ready notice own
  rw [writes, if_neg Bool.false_ne_true] at run
  exact Does.intro run ⟨State.get_recRes_code _ _, by rw [State.recRes_nv, State.modNv_nv]⟩

theorem does_recCommit_inhibited {l : List GRec} (writes : s.inhibited = true) (own : s.nv.gather = some (m.val, l)) :
    Does (.recCommit m v) s fun t => t.get nvB F.REC_RES_CODE = 0x48 ∧ t.nv = s.nv := by
  have run := exec_recCommit_own (v := v) ready notice own
  rw [writes, if_pos rfl] at run
  exact does_recRes run (by decide)

theorem does_recAbort {l : List GRec} (own : s.nv.gather = some (m.val, l)) :
    Does (.recAbort m v) s fun t => t.get nvB F.REC_RES_CODE = 0 ∧ t.nv = { s.nv with gather := none } := by
  have run := exec_recAbort (v := v) (m := m) s
  rw [State.recCommand_run _ _ _ _ ready notice, State.gatherOwn_recStarted, State.gatherOwn_mine own] at run
  exact Does.intro run ⟨State.get_recRes_code _ _, by rw [State.recRes_nv, State.modNv_nv, State.recStarted_nv]⟩

theorem does_withoutGather (none : s.nv.gather = none) :
    (Does (.recCommit m v) s fun t => t.get nvB F.REC_RES_CODE = 0x58 ∧ t.nv = s.nv) ∧
    (Does (.recAbort m v) s fun t => t.get nvB F.REC_RES_CODE = 0x58 ∧ t.nv = s.nv) := by
  have commit := exec_recCommit (v := v) (m := m) s
  have abort := exec_recAbort (v := v) (m := m) s
  rw [State.recCommand_run _ _ _ _ ready notice, State.gatherOwn_recStarted, State.gatherOwn_none none] at commit abort
  exact ⟨does_recRes commit (by decide), does_recRes abort (by decide)⟩

/-- What a read finds under a key is shown. -/
def State.recShown (s : State) (r : GRec) : State :=
  (s.forAll (List.range 60) fun i t => t.wr (nvB + 0x100 + 4 * i)
    (BitVec.ofNat 32 (ofLe (slice (r.data ++ List.replicate (240 - r.data.length) 0) (4 * i) 4)))).puts nvB
      [(F.REC_RES_LEN, r.data.length), (F.REC_RSEQ_VALUE, r.seq)]

theorem exec_recRead (free : keyReserved (s.get nvB F.REC_KEY_KEY) = false) (may : keyMay m (s.get nvB F.REC_KEY_KEY) false = true) :
    exec (.recRead m v) s = .next (match (s.resolveKey (s.get nvB F.REC_KEY_KEY)).2 with
      | none => ((s.recStarted 5 v).resolveKey (s.get nvB F.REC_KEY_KEY)).1.recRes fcNotFound
      | some r => (((s.recStarted 5 v).resolveKey (s.get nvB F.REC_KEY_KEY)).1.recShown r).recRes fcOk) := by
  have run : exec (.recRead m v) s = .next (s.recCommand m.val 5 v fun t =>
      if keyReserved (s.get nvB F.REC_KEY_KEY) then t.recRes fcBadArg
      else if !keyMay m.val (s.get nvB F.REC_KEY_KEY) false then t.recRes fcDenied
      else match (t.resolveKey (s.get nvB F.REC_KEY_KEY)).2 with
        | none => (t.resolveKey (s.get nvB F.REC_KEY_KEY)).1.recRes fcNotFound
        | some r => ((t.resolveKey (s.get nvB F.REC_KEY_KEY)).1.recShown r).recRes fcOk) := rfl
  rw [run, State.recCommand_run _ _ _ _ ready notice, free, if_neg Bool.false_ne_true, may, if_neg (by decide),
    State.resolveKey_snd_of_nv (s.recStarted_nv 5 v)]

end

/-- The words written to the window read back. -/
theorem rd_forAll_words (s : State) (b : Nat) (d : List Byte) (n i : Nat) (h : i < n) :
    (s.forAll (List.range n) fun i t => t.wr (b + 4 * i) (BitVec.ofNat 32 (ofLe (slice d (4 * i) 4)))).rd (b + 4 * i) =
      BitVec.ofNat 32 (ofLe (slice d (4 * i) 4)) := by
  induction n with
  | zero => omega
  | succ n ih =>
    have last : s.forAll (List.range (n + 1)) (fun i t => t.wr (b + 4 * i) (BitVec.ofNat 32 (ofLe (slice d (4 * i) 4)))) =
        (s.forAll (List.range n) fun i t => t.wr (b + 4 * i) (BitVec.ofNat 32 (ofLe (slice d (4 * i) 4)))).wr (b + 4 * n)
          (BitVec.ofNat 32 (ofLe (slice d (4 * n) 4))) := by
      simp only [State.forAll, List.range_succ, List.foldl_append, List.foldl_cons, List.foldl_nil]
    rw [last]
    by_cases e : i = n
    · rw [e, State.rd_wr_same]
    · rw [State.rd_wr_ne _ _ (by omega), ih (by omega)]

theorem recData_recShown (s : State) (r : GRec) (short : r.data.length ≤ 240) : (s.recShown r).recData r.data.length = r.data := by
  have len : (r.data ++ List.replicate (240 - r.data.length) 0).length = 240 := by
    rw [List.length_append, List.length_replicate]
    omega
  have words (i : Nat) (hi : i < 60) : leBytes 4 ((s.recShown r).rd (nvB + 0x100 + 4 * i)).toNat =
      slice (r.data ++ List.replicate (240 - r.data.length) 0) (4 * i) 4 := by
    rw [State.recShown, State.rd_puts_ne, rd_forAll_words _ _ _ _ _ hi, leBytes_sliceWord]
    simp only [List.forall_mem_cons]
    exact ⟨by show _ ≠ nvB + 0x58; omega, by show _ ≠ nvB + 0x5C; omega, fun _ h => absurd h List.not_mem_nil⟩
  have room := four_ceilDiv r.data.length
  have enough : ceilDiv r.data.length 4 ≤ 60 := by
    unfold ceilDiv
    omega
  have all : (List.range (ceilDiv r.data.length 4)).flatMap (fun i => leBytes 4 ((s.recShown r).rd (nvB + 0x100 + 4 * i)).toNat) =
      (List.range (ceilDiv r.data.length 4)).flatMap fun i => slice (r.data ++ List.replicate (240 - r.data.length) 0) (4 * i) 4 := by
    simp only [List.flatMap_def]
    exact congrArg List.flatten (List.map_congr_left fun i hi => words i (by have := List.mem_range.1 hi; omega))
  rw [State.recData, all, flatMap_slices _ _ (by omega), List.take_take, Nat.min_eq_left room.1, List.take_left]

theorem does_recRead {r : GRec} (run : exec (.recRead m v) s = .next ((u.recShown r).recRes fcOk)) (short : r.data.length ≤ 240) :
    Does (.recRead m v) s fun t => t.get nvB F.REC_RES_CODE = 0 ∧ t.get nvB F.REC_RES_LEN = r.data.length ∧
      t.recData r.data.length = r.data := by
  refine Does.intro run ⟨State.get_recRes_code _ _, ?_, ?_⟩
  · rw [State.get_recRes _ _ _ rfl (by decide) (by decide) rfl]
    refine (State.get_puts_first _ _ _ _ _ (by decide) rfl).trans (Nat.mod_eq_of_lt (b := 2 ^ 8) ?_)
    omega
  · rw [State.recData_of_rd (fun a h => State.rd_recRes _ _ (by omega)), recData_recShown _ _ short]

theorem does_gatherTimeout {k : Nat} {l : List GRec} (own : s.nv.gather = some (k, l)) :
    Does .gatherTimeout s fun t => t.nv = { s.nv with gather := none, notice := s.nv.notice ++ [(k, 0x59)] } := by
  have run : exec .gatherTimeout s = .next (match s.nv.gather with
    | none => s
    | some (k, _) => (s.modNv fun x => { x with gather := none, notice := x.notice ++ [(k, fcAborted)] }).nvRefresh) := rfl
  rw [own] at run
  exact Does.intro run (by rw [State.nvRefresh_nv, State.modNv_nv])

end

end Sys2Proof.Machine

namespace Sys2Proof
open Sys2Proof.Machine

/-- Settles O39: each command runs its rule on the state whose command fields are stored, and the refresh leaves the controller's
contents; what a key resolves to depends on the contents only. -/
theorem flashRecords : Obligations.FlashRecords := by
  refine ⟨fun m v s ready => ⟨does_recCommand_early (exec_recAppend s) ready, does_recCommand_early (exec_recDelete s) ready,
      does_recCommand_early (exec_recCommit s) ready, does_recCommand_early (exec_recAbort s) ready, does_recCommand_early rfl ready⟩,
    fun m v c s ready one => ?_,
    fun m v key s ready notice none hkey free may short crit number room keys => ?_,
    fun m v key s ready notice none hkey free may crit number => ?_,
    fun m v s ready notice refused => does_recDelete_refused ready notice refused,
    fun m v l s ready notice writes own => does_recCommit ready notice writes own,
    fun m v l s ready notice writes own => does_recCommit_inhibited ready notice writes own,
    fun m v l s ready notice own => does_recAbort ready notice own,
    fun m v s ready notice none => does_withoutGather ready notice none,
    fun m v r s ready notice free may found short => ?_, fun m v s ready notice free may found => ?_,
    fun k l s own => does_gatherTimeout own, fun s none => ?_, fun s ready writes full => ?_, fun s idle => ?_⟩
  · have run := (exec_recAppend (m := m) (v := v) s).trans (congrArg _ (State.recCommand_notice _ _ _ _ ready one))
    exact Does.intro run ⟨(State.get_recRes_code _ _).trans (Nat.mod_eq_of_lt (b := 2 ^ 8) c.isLt),
      by rw [State.recRes_nv, State.modNv_nv, State.recStarted_nv]⟩
  · subst hkey
    exact does_gathered (exec_recAppend_gathered ready notice none free may short crit number room keys) number
  · subst hkey
    exact does_gathered (exec_recDelete_gathered ready notice none free may crit number) number
  · have run := exec_recRead (v := v) ready notice free may
    rw [found] at run
    exact does_recRead run short
  · have run := exec_recRead (v := v) ready notice free may
    rw [found] at run
    exact Does.intro run (State.get_recRes_code _ _)
  · show Host.Outcome.next _ = _
    rw [none]
  · show Host.Outcome.next (if (s.is nvB F.NV_STAT_READY && !s.inhibited && s.mustCompact) = true then _ else _) = _
    rw [ready, writes, full]
    exact congrArg _ (if_pos (by decide))
  · show Host.Outcome.next (if (s.is nvB F.NV_STAT_READY && !s.inhibited && s.mustCompact) = true then _ else _) = _
    refine congrArg _ (if_neg ?_)
    rcases idle with h | h | h <;> simp [h]

end Sys2Proof
end

section
/-! Proofs about the embedded flash (R441, R455 to R460): the bytes of the array, and the wear-spread counters. -/

set_option Elab.async false

namespace Sys2Proof.Machine

/-! The array. -/

theorem tget_flashProg (m : List Host.Cell) (a x : Nat) (l : List Byte) :
    tget 0xFF (flashProg m a l) x = if a ≤ x ∧ x < a + l.length then tget 0xFF m x &&& l.getD (x - a) 0 else tget 0xFF m x := by
  induction l generalizing m a with
  | nil => exact (if_neg (by simp)).symm
  | cons b l ih =>
    rw [flashProg, ih]
    by_cases e : x = a
    · subst e
      rw [if_neg (by omega), tget_tset_same, if_pos (by simp), Nat.sub_self]
      rfl
    · rw [tget_tset_ne _ _ e]
      by_cases h : a ≤ x ∧ x < a + (b :: l).length
      · obtain ⟨k, hk⟩ : ∃ k, x - a = k + 1 := ⟨x - a - 1, by omega⟩
        rw [List.length_cons] at h
        rw [if_pos (by omega), if_pos (by rw [List.length_cons]; omega), hk, show x - (a + 1) = k from by omega]
        rfl
      · rw [List.length_cons] at h
        rw [if_neg (by omega), if_neg (by rw [List.length_cons]; omega)]

theorem tget_erased (m : List Host.Cell) (k x : Nat) :
    tget 0xFF (m.filter fun p => p.1 / 65536 != k) x = if x / 65536 = k then 0xFF else tget 0xFF m x := by
  induction m with
  | nil => exact (ite_self _).symm
  | cons p m ih =>
    by_cases hp : p.1 / 65536 = k
    · rw [List.filter_cons_of_neg (by simp [hp]), ih]
      by_cases hx : x / 65536 = k
      · rw [if_pos hx, if_pos hx]
      · have other : (p.1 == x) = false := by
          rw [beq_eq_false_iff_ne]
          rintro rfl
          exact hx hp
        rw [if_neg hx, if_neg hx, tget, tget, List.find?_cons, other]
    · rw [List.filter_cons_of_pos (by simp [hp])]
      by_cases e : p.1 = x
      · subst e
        rw [if_neg hp, tget, tget, List.find?_cons, List.find?_cons]
        simp
      · have other : (p.1 == x) = false := beq_eq_false_iff_ne.2 e
        simp only [tget, List.find?_cons, other] at ih ⊢
        exact ih

section
variable (s : State)

theorem State.fByte_prog (a x : Nat) (l : List Byte) :
    (s.prog a l).fByte x = if a ≤ x ∧ x < a + l.length then s.fByte x &&& l.getD (x - a) 0 else s.fByte x := tget_flashProg ..

theorem State.fByte_eraseRaw (k x : Nat) : (s.eraseRaw k).fByte x = if x / 65536 = k then 0xFF else s.fByte x := tget_erased ..

/-- Bytes that a program does not reach. -/
theorem State.fBytes_prog_off {a b n : Nat} (l : List Byte) (h : b + n ≤ a ∨ a + l.length ≤ b) : (s.prog a l).fBytes b n = s.fBytes b n := by
  unfold State.fBytes
  refine List.map_congr_left fun i hi => ?_
  have := List.mem_range.1 hi
  rw [State.fByte_prog, if_neg (by omega)]

theorem State.fBytes_eraseRaw_off {k a n : Nat} (h : ∀ i, i < n → (a + i) / 65536 ≠ k) : (s.eraseRaw k).fBytes a n = s.fBytes a n := by
  unfold State.fBytes
  refine List.map_congr_left fun i hi => ?_
  rw [State.fByte_eraseRaw, if_neg (h i (List.mem_range.1 hi))]

/-- Bytes that are erased. -/
def State.blank (s : State) (a n : Nat) : Prop := ∀ i, i < n → s.fByte (a + i) = 0xFF

theorem State.blank_eraseRaw {k a n : Nat} (h : ∀ i, i < n → (a + i) / 65536 = k) : (s.eraseRaw k).blank a n :=
  fun i hi => by rw [State.fByte_eraseRaw, if_pos (h i hi)]

theorem State.blank_prog_off {a b n : Nat} {l : List Byte} (h : b + n ≤ a ∨ a + l.length ≤ b) (blank : s.blank b n) : (s.prog a l).blank b n :=
  fun i hi => by rw [State.fByte_prog, if_neg (by omega), blank i hi]

/-- Blank bytes take what is programmed. -/
theorem State.fBytes_prog_blank {a : Nat} {l : List Byte} (h : s.blank a l.length) : (s.prog a l).fBytes a l.length = l := by
  refine List.ext_getElem (by simp [State.fBytes]) fun i hi hl => ?_
  have new : (s.prog a l).fByte (a + i) = l[i] := by
    rw [State.fByte_prog, if_pos (by omega), h i hl, Nat.add_sub_cancel_left, List.getD_eq_getElem _ _ hl]
    exact BitVec.allOnes_and
  simpa [State.fBytes] using new

/-! Words. -/

theorem State.fWord_blank {a : Nat} (h : s.blank a 4) : s.fWord a = 0xFFFFFFFF := by
  have bytes : s.fBytes a 4 = List.replicate 4 0xFF :=
    List.eq_replicate_of_mem fun b hb => by
      obtain ⟨i, hi, rfl⟩ := List.mem_map.1 hb
      exact h i (List.mem_range.1 hi)
  rw [State.fWord, bytes]
  decide

theorem State.fWord_progWord_off {a b : Nat} (v : Nat) (h : b + 4 ≤ a ∨ a + 4 ≤ b) : (s.progWord a v).fWord b = s.fWord b := by
  rw [State.fWord, State.progWord, State.fBytes_prog_off _ _ (by rw [length_leBytes]; omega), State.fWord]

theorem State.fWord_progWord_blank {a v : Nat} (blank : s.blank a 4) (hv : v < 2 ^ 32) : (s.progWord a v).fWord a = v := by
  have bytes := s.fBytes_prog_blank (a := a) (l := leBytes 4 v) (by rwa [length_leBytes])
  rw [length_leBytes] at bytes
  rw [State.fWord, State.progWord, bytes, ofLe_leBytes]
  exact Nat.mod_eq_of_lt hv

/-- A word programmed to zero. -/
theorem State.fWord_progWord_zero (a : Nat) : (s.progWord a 0).fWord a = 0 := by
  have bytes : (s.progWord a 0).fBytes a 4 = List.replicate 4 0 := by
    refine List.eq_replicate_of_mem fun b hb => ?_
    obtain ⟨i, hi, rfl⟩ := List.mem_map.1 hb
    have small := List.mem_range.1 hi
    have zero : (leBytes 4 0).getD i 0 = 0 := by
      rw [show leBytes 4 0 = List.replicate 4 0 from by decide, List.getD_replicate _ small]
    rw [State.progWord, State.fByte_prog, if_pos (by rw [length_leBytes]; omega), Nat.add_sub_cancel_left, zero]
    exact BitVec.and_zero
  rw [State.fWord, bytes]
  decide

theorem State.fWord_of_flash {s t : State} (h : t.nv.flash = s.nv.flash) (a : Nat) : t.fWord a = s.fWord a := by
  simp only [State.fWord, State.fBytes, State.fByte, h]

theorem State.fWord_modNv_active (k : Option Nat) (a : Nat) : (s.modNv fun x => { x with active := k }).fWord a = s.fWord a :=
  State.fWord_of_flash rfl a

theorem State.fWord_modNv_eraseQ (q : List Nat → List Nat) (a : Nat) :
    (s.modNv fun x => { x with eraseQ := q x.eraseQ }).fWord a = s.fWord a := State.fWord_of_flash rfl a

/-! Counters (R455 to R458). -/

end

theorem State.cntIn_le (s : State) (k i : Nat) : s.cntIn k i ≤ 0xFFFFFFFF := by
  unfold State.cntIn
  split
  · exact Nat.min_le_left _ _
  · exact Nat.le_refl _

section
variable {s t : State} {k i : Nat}

/-- A counter depends on the words of its strip. -/
theorem State.cntIn_of_words (base : t.fWord (stripA k i) = s.fWord (stripA k i)) (neg : t.fWord (stripA k i + 4) = s.fWord (stripA k i + 4))
    (cells : ∀ c, c < 1008 → t.fWord (stripA k i + 64 + 4 * c) = s.fWord (stripA k i + 64 + 4 * c)) : t.cntIn k i = s.cntIn k i := by
  have same : t.cells k i = s.cells k i := by
    unfold State.cells
    exact congrArg List.length (List.filter_congr fun c hc => by rw [cells c (List.mem_range.1 hc)])
  have ok : t.baseOk k i = s.baseOk k i := by rw [State.baseOk, State.baseOk, base, neg]
  rw [State.cntIn, State.cntIn, ok, base, same]

/-- A strip just started counts nothing over its base. -/
theorem State.cntIn_started {v : Nat} (hv : v ≤ 0xFFFFFFFF) (base : s.fWord (stripA k i) = v) (neg : s.fWord (stripA k i + 4) = 0xFFFFFFFF - v)
    (cells : ∀ c, c < 1008 → s.fWord (stripA k i + 64 + 4 * c) = 0xFFFFFFFF) : s.cntIn k i = v := by
  have none : s.cells k i = 0 := by
    unfold State.cells
    rw [List.length_eq_zero_iff, List.filter_eq_nil_iff]
    intro c hc
    rw [cells c (List.mem_range.1 hc)]
    decide
  have ok : s.baseOk k i = true := by
    rw [State.baseOk, base, neg, beq_iff_eq]
    omega
  rw [State.cntIn, ok, if_pos rfl, base, none]
  omega

/-- One more element passes a filter. -/
theorem length_filter_range_set (p : Nat → Bool) (c n : Nat) (hc : p c = false) :
    ((List.range n).filter fun x => p x || x == c).length = ((List.range n).filter p).length + b2n (decide (c < n)) := by
  induction n with
  | zero => rfl
  | succ n ih =>
    rw [List.range_succ, List.filter_append, List.filter_append, List.length_append, List.length_append, ih]
    by_cases e : n = c
    · subst e
      simp [hc, b2n]
    · have : (c < n + 1) = (c < n) := propext ⟨fun h => by omega, fun h => by omega⟩
      simp only [this, List.filter_cons, List.filter_nil, beq_eq_false_iff_ne.2 e, Bool.or_false]
      omega

/-- A cell that is programmed adds one to its strip's counter. -/
theorem State.cntIn_cell {c : Nat} (hc : c < 1008) (open' : s.fWord (stripA k i + 64 + 4 * c) ≠ 0) (low : s.cntIn k i ≠ 0xFFFFFFFF) :
    (s.progWord (stripA k i + 64 + 4 * c) 0).cntIn k i = s.cntIn k i + 1 := by
  have base := s.fWord_progWord_off (a := stripA k i + 64 + 4 * c) (b := stripA k i) 0 (by omega)
  have neg := s.fWord_progWord_off (a := stripA k i + 64 + 4 * c) (b := stripA k i + 4) 0 (by omega)
  have cells : (s.progWord (stripA k i + 64 + 4 * c) 0).cells k i = s.cells k i + 1 := by
    have one := length_filter_range_set (fun x => s.fWord (stripA k i + 64 + 4 * x) == 0) c 1008 (beq_eq_false_iff_ne.2 open')
    rw [decide_eq_true hc] at one
    refine (congrArg List.length (List.filter_congr fun x hx => ?_)).trans one
    by_cases e : x = c
    · rw [e, State.fWord_progWord_zero]
      simp
    · rw [State.fWord_progWord_off _ _ (by omega), beq_eq_false_iff_ne.2 e, Bool.or_false]
  have ok : (s.progWord (stripA k i + 64 + 4 * c) 0).baseOk k i = s.baseOk k i := by rw [State.baseOk, State.baseOk, base, neg]
  unfold State.cntIn at low ⊢
  rw [ok, base, cells]
  split at low
  next h =>
    rw [if_pos h, if_pos h]
    omega
  · exact absurd rfl low

/-- The other counters of the sector keep their values. -/
theorem State.cntIn_cell_ne {c j : Nat} (hc : c < 1008) (hj : j ≠ i) : (s.progWord (stripA k i + 64 + 4 * c) 0).cntIn k j = s.cntIn k j := by
  refine State.cntIn_of_words (s.fWord_progWord_off _ ?_) (s.fWord_progWord_off _ ?_) fun d hd => s.fWord_progWord_off _ ?_ <;>
    simp only [stripA] <;> omega

end

/-! The fold (R458). -/

/-- The bases of a sector's first counters are programmed. -/
def State.programBases (s : State) (j : Nat) (base : Nat → Nat) (n : Nat) : State :=
  s.forAll (List.range n) fun i t => (t.progWord (stripA j i) (base i)).progWord (stripA j i + 4) (0xFFFFFFFF - base i)

theorem State.programBases_succ (s : State) (j : Nat) (base : Nat → Nat) (n : Nat) :
    s.programBases j base (n + 1) =
      ((s.programBases j base n).progWord (stripA j n) (base n)).progWord (stripA j n + 4) (0xFFFFFFFF - base n) := by
  simp only [State.programBases, State.forAll, List.range_succ, List.foldl_append, List.foldl_cons, List.foldl_nil]

section
variable {s : State} {j n : Nat} {base : Nat → Nat}

theorem State.blank_progWord_off {a b n v : Nat} (h : b + n ≤ a ∨ a + 4 ≤ b) (blank : s.blank b n) : (s.progWord a v).blank b n :=
  s.blank_prog_off (by rwa [length_leBytes]) blank

/-- What is blank outside the bases stays blank. -/
theorem State.blank_programBases {a w : Nat} (h : ∀ i, i < n → a + w ≤ stripA j i ∨ stripA j i + 8 ≤ a) (blank : s.blank a w) :
    (s.programBases j base n).blank a w := by
  induction n with
  | zero => exact blank
  | succ n ih =>
    have off := h n (Nat.lt_succ_self n)
    have kept := ih fun i hi => h i (Nat.lt_succ_of_lt hi)
    rw [State.programBases_succ]
    generalize stripA j n = x at off
    exact State.blank_progWord_off (by omega) (State.blank_progWord_off (by omega) kept)

theorem State.fWord_programBases {i : Nat} (hb : ∀ i, base i ≤ 0xFFFFFFFF) (hi : i < n) (blank : ∀ i, i < n → s.blank (stripA j i) 8) :
    (s.programBases j base n).fWord (stripA j i) = base i ∧ (s.programBases j base n).fWord (stripA j i + 4) = 0xFFFFFFFF - base i := by
  induction n with
  | zero => omega
  | succ n ih =>
    rw [State.programBases_succ]
    by_cases e : i = n
    · subst e
      have free : (s.programBases j base i).blank (stripA j i) 8 :=
        State.blank_programBases (fun k hk => by simp only [stripA, secA]; omega) (blank i hi)
      have low : (s.programBases j base i).blank (stripA j i) 4 := fun k hk => free k (by omega)
      have high : (s.programBases j base i).blank (stripA j i + 4) 4 := fun k hk => by
        rw [Nat.add_assoc]
        exact free (4 + k) (by omega)
      have := hb i
      constructor
      · rw [State.fWord_progWord_off _ _ (by omega), State.fWord_progWord_blank _ low (by omega)]
      · exact State.fWord_progWord_blank _ (State.blank_progWord_off (by omega) high) (by omega)
    · have apart : stripA j i + 8 ≤ stripA j n := by simp only [stripA, secA]; omega
      obtain ⟨first, second⟩ := ih (by omega) fun k hk => blank k (by omega)
      rw [State.fWord_progWord_off _ _ (by omega), State.fWord_progWord_off _ _ (by omega), State.fWord_progWord_off _ _ (by omega),
        State.fWord_progWord_off _ _ (by omega)]
      exact ⟨first, second⟩

/-- A sector made active on blank flash holds the bases, with no cell programmed. -/
theorem State.cntIn_makeActive {f i : Nat} (hb : ∀ i, base i ≤ 0xFFFFFFFF) (hi : i < 16) (blank : s.blank (secA j) 65536) :
    (s.makeActive j f base).cntIn j i = base i ∧
      ∀ c, c < 1008 → (s.makeActive j f base).fWord (stripA j i + 64 + 4 * c) = 0xFFFFFFFF := by
  have shape : s.makeActive j f base = ((((s.progWord (stripA j 0 + 12) 0xFFFF0000).progWord (stripA j 0 + 8) f).programBases j base 16).progWord
      (stripA j 0 + 12) 0xFF000000).modNv fun x => { x with active := some j } := rfl
  have within {d w : Nat} (hw : d + w ≤ 65536) : s.blank (secA j + d) w := fun k hk => by
    rw [Nat.add_assoc]
    exact blank _ (by omega)
  have headed {d w : Nat} (h : d + w ≤ 8 ∨ 16 ≤ d) (hw : d + w ≤ 65536) :
      ((s.progWord (stripA j 0 + 12) 0xFFFF0000).progWord (stripA j 0 + 8) f).blank (secA j + d) w := by
    refine State.blank_progWord_off ?_ (State.blank_progWord_off ?_ (within hw)) <;> simp only [stripA] <;> generalize secA j = q <;> omega
  obtain ⟨first, second⟩ := State.fWord_programBases (n := 16) hb hi fun k hk => headed (d := 4096 * k) (by omega) (by omega)
  have cells (c : Nat) (hc : c < 1008) : (s.makeActive j f base).fWord (stripA j i + 64 + 4 * c) = 0xFFFFFFFF := by
    have free := headed (d := 4096 * i + 64 + 4 * c) (w := 4) (by omega) (by omega)
    have place : secA j + (4096 * i + 64 + 4 * c) = stripA j i + 64 + 4 * c := by
      simp only [stripA]
      generalize secA j = q
      omega
    rw [place] at free
    rw [shape, State.fWord_modNv_active]
    refine State.fWord_blank _ (State.blank_progWord_off ?_ (State.blank_programBases (fun k hk => ?_) free)) <;>
      simp only [stripA] <;> generalize secA j = q <;> omega
  refine ⟨State.cntIn_started (hb i) ?_ ?_ cells, cells⟩
  · rw [shape, State.fWord_modNv_active, State.fWord_progWord_off _ _ (by simp only [stripA]; generalize secA j = q; omega)]
    exact first
  · rw [shape, State.fWord_modNv_active, State.fWord_progWord_off _ _ (by simp only [stripA]; generalize secA j = q; omega)]
    exact second

end

end Sys2Proof.Machine
end

section
/-! Proofs about the embedded flash (R453 to R466): counters, raw pages, the Gleaner, power-up, the inhibit and faults, and the statement on
the accesses of the flash. -/

set_option Elab.async false

namespace Sys2Proof.Machine

/-! Counters. -/

section
variable {s t : State} {k i : Nat}

theorem State.cntVal_active (active : s.nv.active = some k) (i : Nat) : s.cntVal i = s.cntIn k i := by rw [State.cntVal, active]

theorem State.cntVal_le (s : State) (i : Nat) : s.cntVal i ≤ 0xFFFFFFFF := by
  cases active : s.nv.active with
  | none => rw [State.cntVal, active]; exact Nat.zero_le _
  | some k => rw [State.cntVal_active active]; exact State.cntIn_le ..

theorem State.cntVal_of_nv (h : t.nv = s.nv) (i : Nat) : t.cntVal i = s.cntVal i := by
  have word (a : Nat) : t.fWord a = s.fWord a := State.fWord_of_nv h a
  rw [State.cntVal, State.cntVal, h]
  cases s.nv.active with
  | none => rfl
  | some k => exact State.cntIn_of_words (word _) (word _) fun c _ => word _

theorem otherSec_ne (k : Nat) : otherSec k ≠ k := by
  unfold otherSec
  split <;> omega

/-- The values that a fold carries over. -/
def State.cntBase (s : State) (i : Nat) : Nat := ((List.range 16).map s.cntVal).getD i 0

theorem State.cntBase_of_lt (s : State) (h : i < 16) : s.cntBase i = s.cntVal i := by
  rw [State.cntBase, List.getD_eq_getElem _ _ (by simpa using h)]
  simp

theorem State.cntBase_le (s : State) (i : Nat) : s.cntBase i ≤ 0xFFFFFFFF := by
  by_cases h : i < 16
  · rw [s.cntBase_of_lt h]
    exact s.cntVal_le i
  · rw [State.cntBase, List.getD_eq_default _ _ (by simp; omega)]
    exact Nat.zero_le _

/-- The other counter sector has been erased for a fold. -/
def State.foldErased (s : State) (j : Nat) : State := (s.eraseRaw j).modNv fun x => { x with eraseQ := x.eraseQ.filter (· != j) }

theorem State.fold_eq (active : s.nv.active = some k) : ∃ f q, s.fold =
    (((s.foldErased (otherSec k)).makeActive (otherSec k) f s.cntBase).progWord (stripA k 0 + 12) 0).modNv fun x => { x with eraseQ := x.eraseQ ++ q } := by
  unfold State.fold
  rw [active]
  exact ⟨_, _, rfl⟩

/-- A fold moves every counter to the other sector, with blank cells. -/
theorem State.cntIn_fold (active : s.nv.active = some k) (hi : i < 16) : s.fold.nv.active = some (otherSec k) ∧
    s.fold.cntIn (otherSec k) i = s.cntVal i ∧ ∀ c, c < 1008 → s.fold.fWord (stripA (otherSec k) i + 64 + 4 * c) = 0xFFFFFFFF := by
  obtain ⟨f, q, shape⟩ := State.fold_eq active
  have other := otherSec_ne k
  generalize otherSec k = j at shape other ⊢
  have blank : (s.foldErased j).blank (secA j) 65536 := fun d hd => by
    rw [show (s.foldErased j).fByte (secA j + d) = (s.eraseRaw j).fByte (secA j + d) from rfl, State.fByte_eraseRaw,
      if_pos (by simp only [secA]; omega)]
  obtain ⟨value, cells⟩ := State.cntIn_makeActive (f := f) s.cntBase_le hi blank
  have word {d : Nat} (hd : d + 4 ≤ 65536) : s.fold.fWord (secA j + d) = ((s.foldErased j).makeActive j f s.cntBase).fWord (secA j + d) := by
    rw [shape, State.fWord_modNv_eraseQ _ fun l => l ++ q, State.fWord_progWord_off]
    simp only [stripA, secA]
    omega
  have strip (d : Nat) (hd : d + 4 ≤ 4096) :
      s.fold.fWord (stripA j i + d) = ((s.foldErased j).makeActive j f s.cntBase).fWord (stripA j i + d) := by
    have := word (d := 4096 * i + d) (by omega)
    rwa [← Nat.add_assoc] at this
  have base := strip 0 (by omega)
  rw [Nat.add_zero] at base
  have same (c : Nat) (hc : c < 1008) := strip (64 + 4 * c) (by omega)
  simp only [← Nat.add_assoc] at same
  refine ⟨by rw [shape]; rfl, ?_, fun c hc => (same c hc).trans (cells c hc)⟩
  exact ((State.cntIn_of_words base (strip 4 (by omega)) same).trans value).trans (s.cntBase_of_lt hi)

/-- The first cell of a strip that is not programmed. -/
def State.openCell (s : State) (k i : Nat) : Option Nat := (List.range 1008).find? fun c => s.fWord (stripA k i + 64 + 4 * c) != 0

theorem State.openCell_some {c : Nat} (h : s.openCell k i = some c) : c < 1008 ∧ s.fWord (stripA k i + 64 + 4 * c) ≠ 0 := by
  unfold State.openCell at h
  exact ⟨List.mem_range.1 (List.mem_of_find?_eq_some h), by simpa using List.find?_some h⟩

theorem State.cntStep_cell {c : Nat} (active : s.nv.active = some k) (open' : s.openCell k i = some c) :
    s.cntStep i = (s.progWord (stripA k i + 64 + 4 * c) 0).cntRefresh := by
  unfold State.openCell at open'
  unfold State.cntStep
  rw [active]
  simp only [open', Option.isNone_some, Bool.false_eq_true, if_false, active, Option.getD_some]

theorem State.cntStep_fold {j c : Nat} (active : s.nv.active = some k) (used : s.openCell k i = none) (other : s.fold.nv.active = some j)
    (open' : s.fold.openCell j i = some c) : s.cntStep i = (s.fold.progWord (stripA j i + 64 + 4 * c) 0).cntRefresh := by
  unfold State.openCell at used open'
  unfold State.cntStep
  rw [active]
  simp only [used, Option.isNone_none, if_true, other, Option.getD_some, open']

theorem State.cntRefresh_nv (s : State) : s.cntRefresh.nv = s.nv := by
  have shown (l : List Nat) (f : Nat → Nat) : ∀ u : State, (u.forAll l fun i t => t.wr (nvB + 0x90 + 4 * i) (BitVec.ofNat 32 (f i))).nv = u.nv :=
    fun u => State.forAll_keeps (P := fun t => t.nv = u.nv) (fun i _ v t e h => by rw [e, State.wr_nv, h]) rfl
  unfold State.cntRefresh
  dsimp only
  rw [State.live_nv, State.put_nv, State.live_nv, State.put_nv, shown]

/-- A cell of the sector in use is programmed: one counter goes up by one. -/
theorem State.cntVal_cell {c : Nat} (active : s.nv.active = some k) (open' : s.openCell k i = some c) (low : s.cntVal i ≠ 0xFFFFFFFF) :
    (s.progWord (stripA k i + 64 + 4 * c) 0).cntRefresh.cntVal i = s.cntVal i + 1 ∧
      ∀ j, j ≠ i → (s.progWord (stripA k i + 64 + 4 * c) 0).cntRefresh.cntVal j = s.cntVal j := by
  obtain ⟨hc, word⟩ := State.openCell_some open'
  have still : (s.progWord (stripA k i + 64 + 4 * c) 0).nv.active = some k := active
  rw [State.cntVal_active active] at low
  constructor
  · rw [State.cntVal_of_nv (State.cntRefresh_nv _), State.cntVal_active still, State.cntVal_active active]
    exact State.cntIn_cell hc word low
  · intro j hj
    rw [State.cntVal_of_nv (State.cntRefresh_nv _), State.cntVal_active still, State.cntVal_active active]
    exact State.cntIn_cell_ne hc hj

/-- An increment adds one to its counter and leaves the others, with a fold where the strip is used up. -/
theorem State.cntVal_cntStep (active : s.nv.active.isSome = true) (hi : i < 16) (low : s.cntVal i ≠ 0xFFFFFFFF) :
    (s.cntStep i).cntVal i = s.cntVal i + 1 ∧ ∀ j, j < 16 → j ≠ i → (s.cntStep i).cntVal j = s.cntVal j := by
  obtain ⟨k, active⟩ := Option.isSome_iff_exists.1 active
  cases open' : s.openCell k i with
  | some c =>
    rw [State.cntStep_cell active open']
    obtain ⟨up, others⟩ := State.cntVal_cell active open' low
    exact ⟨up, fun j _ hj => others j hj⟩
  | none =>
    have folded (j : Nat) (hj : j < 16) : s.fold.cntVal j = s.cntVal j := by
      obtain ⟨other, value, -⟩ := State.cntIn_fold active hj
      rw [State.cntVal_active other, value]
    obtain ⟨other, -, blank⟩ := State.cntIn_fold active hi
    cases fresh : s.fold.openCell (otherSec k) i with
    | none =>
      unfold State.openCell at fresh
      have := List.find?_eq_none.1 fresh 0 (by simp)
      rw [blank 0 (by decide)] at this
      exact absurd rfl this
    | some c =>
      rw [State.cntStep_fold active open' other fresh]
      obtain ⟨up, others⟩ := State.cntVal_cell other fresh (by rwa [folded i hi])
      exact ⟨up.trans (congrArg (· + 1) (folded i hi)), fun j hj hne => (others j hne).trans (folded j hj)⟩

end

end Sys2Proof.Machine
end

section
/-! Proofs about the embedded flash and the key store (R426, R463): the facts that the flush of the key store's records keeps. -/

set_option Elab.async false

namespace Sys2Proof.Machine

/-- A fact about the state that the flush of the key store's records keeps. -/
structure FlushStable (P : State → Prop) : Prop extends NvStable P where
  marks : ∀ u b l, P u → P (u.modKs fun x => { x with tamperDue := b, due := l })
  history : ∀ u v, P u → P (u.put ksB F.KS_TAMPER_HISTORY v)
  ticks : ∀ u, P u → P u.tick

theorem FlushStable.flushes {P : State → Prop} (stable : FlushStable P) {s : State} (h : P s) : P s.ksFlush := by
  have nv := stable.toNvStable
  have tampered (c : Prop) [Decidable c] (k : Nat) (d : List Byte) (b : Bool) (q : List Nat) :
      P (if c then (((s.tick.critPair k false d).1.sealCommit (s.tick.critPair k false d).2).modKs fun x =>
        { x with tamperDue := b, due := q }).put ksB F.KS_TAMPER_HISTORY 1 else s) := by
    split
    · exact stable.history _ _ (stable.marks _ _ _ (nv.seals _ (nv.numbers _ _ _ (stable.ticks _ h))))
    · exact h
  have records (live : List Nat) (due : List Nat) (p : State × List GRec) (hp : P p.1) :
      P (due.foldl (fun (p : State × List GRec) i =>
        let a := p.1.slotAttr i
        let key := 0x100 + i
        if bitN a atValid && !bitN a atVolatile then
          let d := p.1.slotRecord i
          let q := d.1.critPair key false d.2
          (q.1, p.2 ++ q.2)
        else if live.contains key then
          let q := p.1.critPair key true []
          (q.1, p.2 ++ q.2)
        else p) p).1 := by
    induction due generalizing p with
    | nil => exact hp
    | cons i due ih =>
      refine ih _ ?_
      dsimp only
      split
      · exact nv.numbers _ _ _ (stable.ticks _ hp)
      · split
        · exact nv.numbers _ _ _ hp
        · exact hp
  unfold State.ksFlush
  split
  · exact h
  · exact stable.marks _ _ _ (nv.seals _ (records _ _ _ (tampered _ _ _ _ _)))

/-- A fact about the registers that no write of the flash controller or of the key store's records touches. -/
theorem NvStable.flush {P : State → Prop} (nv : NvStable P) (regs : ∀ u v : State, v.regs = u.regs → P u → P v)
    (history : ∀ u v, P u → P (u.put ksB F.KS_TAMPER_HISTORY v)) : FlushStable P :=
  { nv with
    marks := fun u _ _ => regs u _ (State.modKs_regs _ _)
    history := history
    ticks := fun u => regs u _ (State.tick_regs _) }

end Sys2Proof.Machine
end

section
/-! Proofs about the embedded flash (R453 to R466): raw pages, the Gleaner, power-up, the inhibit and faults, and the statement on the
accesses of the flash. -/

set_option Elab.async false

namespace Sys2Proof.Machine

section
variable {s : State} {m : Fin 8} {v : Word} {i : Fin 16}

/-! CNT_INC. -/

/-- The result of an increment. -/
def State.cntRes (s : State) (c : Nat) : State := s.puts nvB [(F.CNT_RES_CODE, c), (F.CNT_RES_DONE, 1)]

theorem State.cntRes_nv (s : State) (c : Nat) : (s.cntRes c).nv = s.nv := by rw [State.cntRes, State.puts_nv]

theorem State.get_cntRes_code (s : State) (c : Nat) : (s.cntRes c).get nvB F.CNT_RES_CODE = c % 2 ^ 8 :=
  State.get_puts_first _ _ _ _ _ (by decide) rfl

/-- The counter of an increment is noted. -/
def State.cntNamed (s : State) (i : Nat) : State := s.put nvB F.CNT_CMD_INDEX i

theorem State.cntNamed_nv (i : Nat) : (s.cntNamed i).nv = s.nv := State.put_nv ..

theorem State.inhibited_cntNamed (i : Nat) : (s.cntNamed i).inhibited = s.inhibited := State.is_put_off _ _ _ _ _ (by decide)

theorem exec_cntInc (s : State) : exec (.cntInc m i) s = .next (if s.nv.active.isNone then s.cntNamed i
    else if !cntMay m i then (s.cntNamed i).cntRes fcDenied
    else if s.inhibited then (s.cntNamed i).cntRes fcInhibited
    else if s.cntVal i = 0xFFFFFFFF then (((s.cntNamed i).raise nvB 2).cntRes fcSaturated).raiseIf (i.val == 0) ksB 5
    else ((s.cntNamed i).cntStep i).cntRes fcOk) := by
  have run : exec (.cntInc m i) s = .next (if (s.cntNamed i).nv.active.isNone then s.cntNamed i
    else if !cntMay m i then (s.cntNamed i).cntRes fcDenied
    else if (s.cntNamed i).inhibited then (s.cntNamed i).cntRes fcInhibited
    else if (s.cntNamed i).cntVal i = 0xFFFFFFFF then (((s.cntNamed i).raise nvB 2).cntRes fcSaturated).raiseIf (i.val == 0) ksB 5
    else ((s.cntNamed i).cntStep i).cntRes fcOk) := rfl
  rwa [State.cntNamed_nv, State.inhibited_cntNamed, State.cntVal_of_nv (State.cntNamed_nv _)] at run

theorem does_cntInc (active : s.nv.active.isSome = true) (may : cntMay m i = true) (writes : s.inhibited = false)
    (low : s.cntVal i ≠ 0xFFFFFFFF) : Does (.cntInc m i) s fun t => t.cntVal i = s.cntVal i + 1 ∧ t.get nvB F.CNT_RES_CODE = 0 ∧
      ∀ j : Fin 16, j ≠ i → t.cntVal j = s.cntVal j := by
  have run := exec_cntInc (m := m) (i := i) s
  rw [← Option.not_isSome, active, may, writes, if_neg (by decide), if_neg (by decide), if_neg Bool.false_ne_true, if_neg low] at run
  have named := State.cntNamed_nv (s := s) i
  obtain ⟨up, others⟩ := State.cntVal_cntStep (s := s.cntNamed i) (i := i) (by rwa [named]) i.isLt (by rwa [State.cntVal_of_nv named])
  refine Does.intro run ⟨?_, State.get_cntRes_code _ _, fun j hj => ?_⟩
  · rw [State.cntVal_of_nv (State.cntRes_nv _ _), up, State.cntVal_of_nv named]
  · rw [State.cntVal_of_nv (State.cntRes_nv _ _), others j j.isLt (fun e => hj (Fin.ext e)), State.cntVal_of_nv named]

theorem does_cntInc_denied (active : s.nv.active.isSome = true) (may : cntMay m i = false) :
    Does (.cntInc m i) s fun t => t.get nvB F.CNT_RES_CODE = 0x51 ∧ t.nv = s.nv := by
  have run := exec_cntInc (m := m) (i := i) s
  rw [← Option.not_isSome, active, may, if_neg (by decide), if_pos (by decide)] at run
  exact Does.intro run ⟨State.get_cntRes_code _ _, (State.cntRes_nv _ _).trans (State.cntNamed_nv _)⟩

theorem does_cntInc_inhibited (active : s.nv.active.isSome = true) (may : cntMay m i = true) (waits : s.inhibited = true) :
    Does (.cntInc m i) s fun t => t.get nvB F.CNT_RES_CODE = 0x48 ∧ t.nv = s.nv := by
  have run := exec_cntInc (m := m) (i := i) s
  rw [← Option.not_isSome, active, may, waits, if_neg (by decide), if_neg (by decide), if_pos rfl] at run
  exact Does.intro run ⟨State.get_cntRes_code _ _, (State.cntRes_nv _ _).trans (State.cntNamed_nv _)⟩

theorem does_cntInc_saturated (active : s.nv.active.isSome = true) (may : cntMay m i = true) (writes : s.inhibited = false)
    (full : s.cntVal i = 0xFFFFFFFF) : Does (.cntInc m i) s fun t => t.get nvB F.CNT_RES_CODE = 0x56 ∧ t.nv = s.nv := by
  have run := exec_cntInc (m := m) (i := i) s
  rw [← Option.not_isSome, active, may, writes, if_neg (by decide), if_neg (by decide), if_neg Bool.false_ne_true, if_pos full] at run
  refine Does.intro run ⟨?_, ?_⟩
  · rw [State.get_raiseIf_ne _ _ _ _ (by simp only [nvB, ksB, gPage]; decide)]
    exact State.get_cntRes_code _ _
  · rw [State.raiseIf_nv, State.cntRes_nv, State.raise_nv, State.cntNamed_nv]

/-! Raw commands. -/

/-- The fields of a raw command are stored. -/
def State.rawStarted (s : State) (op : Nat) (v : Word) : State :=
  s.puts nvB [(F.RAW_CTRL_PAGE, fldGet v 0 14), (F.RAW_CTRL_OP, op), (F.RAW_RES_DONE, 0)]

theorem State.rawStarted_nv (op : Nat) : (s.rawStarted op v).nv = s.nv := State.puts_nv ..

theorem State.inhibited_rawStarted (op : Nat) : (s.rawStarted op v).inhibited = s.inhibited :=
  congrArg (· != 0) (State.get_puts_of_apart _ _ _ _ rfl)

@[simp] theorem State.rawRes_nv (s : State) (c : Nat) : (s.rawRes c).nv = s.nv := by rw [State.rawRes, State.nvRefresh_nv, State.puts_nv]

@[simp] theorem State.get_rawRes_code (s : State) (c : Nat) : (s.rawRes c).get nvB F.RAW_RES_CODE = c % 2 ^ 8 := by
  rw [State.rawRes, State.get_nvRefresh _ _ rfl (by decide) (by decide)]
  exact State.get_puts_first _ _ _ _ _ (by decide) rfl

/-- The page buffer is another master's. -/
def State.rawForeign (s : State) (m : Nat) : Bool := match s.nv.owner with | some o => o != m | none => false

theorem State.rawForeign_mine (own : s.nv.owner = none ∨ s.nv.owner = some m.val) : s.rawForeign m = false := by
  unfold State.rawForeign
  rcases own with h | h <;> simp [h]

theorem State.rawCommand_eq (k op : Nat) (owned : Bool) (f : State → Nat → State) (notice : s.nv.notice = []) :
    s.rawCommand k op v owned f =
      if ((op != 3 && !rawMay k (fldGet v 0 14 / 256)) || (owned && s.rawForeign k)) = true then ((s.rawStarted op v).raise nvB 6).rawRes fcDenied
      else f (s.rawStarted op v) (fldGet v 0 14) := by
  have run : s.rawCommand k op v owned f = match (s.rawStarted op v).nv.notice.find? fun p => p.1 == k + 8 with
      | some p => ((s.rawStarted op v).modNv fun x => { x with notice := x.notice.filter fun q => q.1 != k + 8 }).rawRes p.2
      | none => if ((op != 3 && !rawMay k (fldGet v 0 14 / 256)) || (owned && (s.rawStarted op v).rawForeign k)) = true then
            ((s.rawStarted op v).raise nvB 6).rawRes fcDenied
          else f (s.rawStarted op v) (fldGet v 0 14) := rfl
  rw [run, State.rawForeign, State.rawStarted_nv, notice]
  rfl

theorem State.rawCommand_run (k op : Nat) (owned : Bool) (f : State → Nat → State) (notice : s.nv.notice = [])
    (may : op = 3 ∨ rawMay k (fldGet v 0 14 / 256) = true) (own : owned = false ∨ s.rawForeign k = false) :
    s.rawCommand k op v owned f = f (s.rawStarted op v) (fldGet v 0 14) := by
  rw [State.rawCommand_eq _ _ _ _ notice, if_neg]
  rcases may with h | h <;> rcases own with g | g <;> simp [h, g]

theorem does_rawRefused {c : Instr} {k op : Nat} {owned : Bool} {f : State → Nat → State} (run : exec c s = .next (s.rawCommand k op v owned f))
    (hop : op ≠ 3) (notice : s.nv.notice = []) (may : rawMay k (fldGet v 0 14 / 256) = false) :
    Does c s fun t => t.get nvB F.RAW_RES_CODE = 0x51 ∧ t.nv = s.nv := by
  rw [State.rawCommand_eq _ _ _ _ notice, if_pos (by simp [hop, may])] at run
  refine Does.intro run ⟨State.get_rawRes_code _ _, ?_⟩
  rw [State.rawRes_nv, State.raise_nv, State.rawStarted_nv]

theorem exec_rawProgram (s : State) : exec (.rawProgram m v) s = .next (s.rawCommand m 1 v true fun t page =>
    if t.inhibited then t.rawRes fcInhibited
    else ((t.prog (256 * page) t.nv.buf).modNv fun x => { x with buf := emptyBuf, owner := none }).rawRes fcOk) := rfl

theorem exec_rawEraseSector (s : State) : exec (.rawEraseSector m v) s = .next (s.rawCommand m 2 v false fun t page =>
    if t.inhibited then t.rawRes fcInhibited else (t.eraseRaw (page / 256)).rawRes fcOk) := rfl

theorem exec_rawClearBuf (s : State) : exec (.rawClearBuf m v) s = .next (s.rawCommand m 3 v true fun t _ =>
    (t.modNv fun x => { x with buf := emptyBuf, owner := none }).rawRes fcOk) := rfl

theorem exec_rawLoad (s : State) : exec (.rawLoad m v) s = .next (s.rawCommand m 4 v true fun t page =>
    (t.modNv fun x => { x with buf := t.fBytes (256 * page) 256, owner := some m.val }).rawRes fcOk) := rfl

section
variable (notice : s.nv.notice = [])
include notice

theorem does_rawProgram (may : rawMay m (fldGet v 0 14 / 256) = true) (own : s.nv.owner = none ∨ s.nv.owner = some m.val) (writes : s.inhibited = false) :
    Does (.rawProgram m v) s fun t => t.get nvB F.RAW_RES_CODE = 0 ∧
      t.nv = { s.nv with flash := flashProg s.nv.flash (256 * fldGet v 0 14) s.nv.buf, buf := emptyBuf, owner := none } := by
  have run := exec_rawProgram (m := m) (v := v) s
  rw [State.rawCommand_run _ _ _ _ notice (.inr may) (.inr (State.rawForeign_mine own)), State.inhibited_rawStarted, writes,
    if_neg Bool.false_ne_true] at run
  exact Does.intro run ⟨State.get_rawRes_code _ _, by rw [State.rawRes_nv, State.modNv_nv, State.prog, State.modNv_nv, State.rawStarted_nv]⟩

theorem does_rawErase (may : rawMay m (fldGet v 0 14 / 256) = true) (writes : s.inhibited = false) :
    Does (.rawEraseSector m v) s fun t => t.get nvB F.RAW_RES_CODE = 0 ∧
      t.nv = { s.nv with flash := s.nv.flash.filter fun p => p.1 / 65536 != fldGet v 0 14 / 256 } := by
  have run := exec_rawEraseSector (m := m) (v := v) s
  rw [State.rawCommand_run _ _ _ _ notice (.inr may) (.inl rfl), State.inhibited_rawStarted, writes, if_neg Bool.false_ne_true] at run
  exact Does.intro run ⟨State.get_rawRes_code _ _, by rw [State.rawRes_nv, State.eraseRaw, State.modNv_nv, State.rawStarted_nv]⟩

theorem does_rawInhibited (may : rawMay m (fldGet v 0 14 / 256) = true) (own : s.nv.owner = none) (waits : s.inhibited = true) :
    (Does (.rawProgram m v) s fun t => t.get nvB F.RAW_RES_CODE = 0x48 ∧ t.nv = s.nv) ∧
    (Does (.rawEraseSector m v) s fun t => t.get nvB F.RAW_RES_CODE = 0x48 ∧ t.nv = s.nv) := by
  have program := exec_rawProgram (m := m) (v := v) s
  have erase := exec_rawEraseSector (m := m) (v := v) s
  rw [State.rawCommand_run _ _ _ _ notice (.inr may) (.inr (State.rawForeign_mine (.inl own))), State.inhibited_rawStarted, waits, if_pos rfl] at program
  rw [State.rawCommand_run _ _ _ _ notice (.inr may) (.inl rfl), State.inhibited_rawStarted, waits, if_pos rfl] at erase
  exact ⟨Does.intro program ⟨State.get_rawRes_code _ _, (State.rawRes_nv _ _).trans (State.rawStarted_nv _)⟩,
    Does.intro erase ⟨State.get_rawRes_code _ _, (State.rawRes_nv _ _).trans (State.rawStarted_nv _)⟩⟩

theorem does_rawClearBuf (own : s.nv.owner = none ∨ s.nv.owner = some m.val) :
    Does (.rawClearBuf m v) s fun t => t.get nvB F.RAW_RES_CODE = 0 ∧ t.nv = { s.nv with buf := emptyBuf, owner := none } := by
  have run := exec_rawClearBuf (m := m) (v := v) s
  rw [State.rawCommand_run _ _ _ _ notice (.inl rfl) (.inr (State.rawForeign_mine own))] at run
  exact Does.intro run ⟨State.get_rawRes_code _ _, by rw [State.rawRes_nv, State.modNv_nv, State.rawStarted_nv]⟩

theorem does_rawLoad (may : rawMay m (fldGet v 0 14 / 256) = true) (own : s.nv.owner = none ∨ s.nv.owner = some m.val) :
    Does (.rawLoad m v) s fun t => t.get nvB F.RAW_RES_CODE = 0 ∧
      t.nv = { s.nv with buf := s.fBytes (256 * fldGet v 0 14) 256, owner := some m.val } := by
  have run := exec_rawLoad (m := m) (v := v) s
  rw [State.rawCommand_run _ _ _ _ notice (.inr may) (.inr (State.rawForeign_mine own))] at run
  exact Does.intro run ⟨State.get_rawRes_code _ _, by
    rw [State.rawRes_nv, State.modNv_nv, State.fBytes_of_nv (State.rawStarted_nv _), State.rawStarted_nv]⟩

end

end

end Sys2Proof.Machine
end

section
/-! Proofs about the embedded flash (R454, R458, R461 to R466): the statement on the accesses of the flash. -/

set_option Elab.async false

namespace Sys2Proof.Machine

theorem State.setFault_nv (s : State) (b a i : Nat) : (s.setFault b a i).nv = s.nv := (State.put_nv _ _ _ _).trans (State.wr_nv _ _ _)

section
variable {s : State} {m : Fin 8}

/-! The page buffer. -/

/-- Bytes enter the page buffer. -/
def State.bufFilled (s : State) (m off : Nat) (l : List Byte) : State :=
  (s.modNv fun x => { x with buf := bufWrite x.buf off l, owner := some m }).nvRefresh

theorem State.bufFilled_nv (s : State) (m off : Nat) (l : List Byte) :
    (s.bufFilled m off l).nv = { s.nv with buf := bufWrite s.nv.buf off l, owner := some m } := by
  rw [State.bufFilled, State.nvRefresh_nv, State.modNv_nv]

/-- The buffer is another master's. -/
def State.bufForeign (s : State) (m : Nat) : Bool := s.nv.owner.isSome && s.nv.owner != some m

theorem State.bufForeign_mine (own : s.nv.owner = none ∨ s.nv.owner = some m.val) : s.bufForeign m = false := by
  unfold State.bufForeign
  rcases own with h | h <;> simp [h]

theorem exec_rawBufferWrite_data (v : Word) (s : State) : exec (.rawBufferWrite m (.data v)) s = .next
    (if s.bufForeign m then ((s.put nvB F.RAW_PTR_PTR ((s.get nvB F.RAW_PTR_PTR + 4) % 256)).raise nvB 6).nvRefresh
      else (s.put nvB F.RAW_PTR_PTR ((s.get nvB F.RAW_PTR_PTR + 4) % 256)).bufFilled m (s.get nvB F.RAW_PTR_PTR) (leBytes 4 v.toNat)) := rfl

theorem exec_rawBufferWrite_window (o : Fin 0x3E0000) (l : List Byte) (s : State) : exec (.rawBufferWrite m (.window o l)) s = .next
    (if s.bufForeign m then (s.raise nvB 6).nvRefresh else s.bufFilled m o l) := rfl

theorem does_rawBufferWrite_data {v : Word} (own : s.nv.owner = none ∨ s.nv.owner = some m.val) :
    Does (.rawBufferWrite m (.data v)) s fun t => t.get nvB F.RAW_PTR_PTR = (s.get nvB F.RAW_PTR_PTR + 4) % 256 ∧
      t.nv = { s.nv with buf := bufWrite s.nv.buf (s.get nvB F.RAW_PTR_PTR) (leBytes 4 v.toNat), owner := some m.val } := by
  have run := exec_rawBufferWrite_data (m := m) v s
  rw [State.bufForeign_mine own, if_neg Bool.false_ne_true] at run
  refine Does.intro run ⟨?_, ?_⟩
  · rw [State.bufFilled, State.get_nvRefresh _ _ rfl (by decide) (by decide), State.get_modNv, State.get_put_same _ _ _ _ (by decide)]
    exact Nat.mod_mod _ _
  · rw [State.bufFilled_nv, State.put_nv]

theorem does_rawBufferWrite_window {o : Fin 0x3E0000} {l : List Byte} (own : s.nv.owner = none ∨ s.nv.owner = some m.val) :
    Does (.rawBufferWrite m (.window o l)) s fun t => t.nv = { s.nv with buf := bufWrite s.nv.buf o l, owner := some m.val } := by
  have run := exec_rawBufferWrite_window (m := m) o l s
  rw [State.bufForeign_mine own, if_neg Bool.false_ne_true] at run
  exact Does.intro run (State.bufFilled_nv _ _ _ _)

theorem does_rawBufferWrite_foreign {w : BufWrite} {k : Nat} (own : s.nv.owner = some k) (hk : k ≠ m) :
    Does (.rawBufferWrite m w) s fun t => t.nv = s.nv := by
  have foreign : s.bufForeign m = true := by
    rw [State.bufForeign, own]
    simp [hk]
  cases w with
  | data v =>
    refine Does.intro ((exec_rawBufferWrite_data (m := m) v s).trans (congrArg _ (if_pos foreign))) ?_
    rw [State.nvRefresh_nv, State.raise_nv, State.put_nv]
  | window o l =>
    refine Does.intro ((exec_rawBufferWrite_window (m := m) o l s).trans (congrArg _ (if_pos foreign))) ?_
    rw [State.nvRefresh_nv, State.raise_nv]

/-! Background erase. -/

theorem exec_backgroundErase {k : Nat} {l : List Nat} (queue : s.nv.eraseQ = k :: l) (writes : s.inhibited = false) :
    exec .backgroundErase s = .next
      (((if k < 16 then s.eraseRec k else s.eraseRaw k).modNv fun x => { x with eraseQ := l }).nvRefresh) := by
  show Host.Outcome.next _ = _
  rw [queue]
  exact congrArg _ (if_neg (by rw [writes]; decide))

/-- An erased record sector shows its header: its magic value, and that it is erased (R446). -/
theorem State.secState_eraseRec (s : State) (k : Nat) : (s.eraseRec k).secState k = ssErased := by
  have shape : ∃ n v, s.eraseRec k =
      ((s.eraseRaw k).prog (secA k) (secMagic ++ leBytes 4 n ++ leBytes 4 ssErased)).put nvB F.SECT_WEAR_MAX_ERASES v := ⟨_, _, rfl⟩
  obtain ⟨n, v, shape⟩ := shape
  have len : (secMagic ++ leBytes 4 n ++ leBytes 4 ssErased).length = 12 := by simp [secMagic]
  have blank : (s.eraseRaw k).blank (secA k) 12 := State.blank_eraseRaw s (by simp only [secA]; omega)
  have header : (s.eraseRec k).fBytes (secA k) 12 = secMagic ++ leBytes 4 n ++ leBytes 4 ssErased := by
    rw [shape, State.fBytes_of_nv (State.put_nv _ _ _ _), ← len]
    exact State.fBytes_prog_blank _ (by rwa [len])
  have split (a b : Nat) : (s.eraseRec k).fBytes (secA k) (a + b) = (s.eraseRec k).fBytes (secA k) a ++ (s.eraseRec k).fBytes (secA k + a) b := by
    simp only [State.fBytes, List.range_add, List.map_append, List.map_map, Nat.add_assoc, Function.comp_def]
  have parts := header
  rw [show (12 : Nat) = 4 + 8 from rfl, split] at parts
  obtain ⟨magic, -⟩ := List.append_inj (parts.trans (List.append_assoc _ _ _)) (by simp [State.fBytes, secMagic])
  rw [show (12 : Nat) = 8 + 4 from rfl, split] at header
  obtain ⟨-, state⟩ := List.append_inj header (by simp [State.fBytes, secMagic])
  rw [State.secState, State.secOk, magic, if_pos (by decide), State.fWord, state, ofLe_leBytes]
  decide

theorem does_backgroundErase_raw {k : Nat} {l : List Nat} (queue : s.nv.eraseQ = k :: l) (writes : s.inhibited = false) (hk : 16 ≤ k) :
    Does .backgroundErase s fun t => t.nv = { s.nv with flash := s.nv.flash.filter (fun p => p.1 / 65536 != k), eraseQ := l } := by
  have run := exec_backgroundErase queue writes
  rw [if_neg (by omega)] at run
  exact Does.intro run (by rw [State.nvRefresh_nv, State.modNv_nv, State.eraseRaw, State.modNv_nv])

theorem does_backgroundErase_rec {k : Nat} {l : List Nat} (queue : s.nv.eraseQ = k :: l) (writes : s.inhibited = false) (hk : k < 16) :
    Does .backgroundErase s fun t => t.nv.eraseQ = l ∧ t.secState k = ssErased := by
  have run := exec_backgroundErase queue writes
  rw [if_pos hk] at run
  refine Does.intro run ⟨by rw [State.nvRefresh_nv, State.modNv_nv], ?_⟩
  rw [State.secState_of_nv (State.nvRefresh_nv _)]
  have word (a : Nat) : ((s.eraseRec k).modNv fun x => { x with eraseQ := l }).fWord a = (s.eraseRec k).fWord a :=
    State.fWord_modNv_eraseQ _ (fun _ => l) a
  rw [← s.secState_eraseRec k, State.secState, State.secState, word]
  rfl

/-! The Gleaner. -/

/-- The counts of a pass are started. -/
def State.gleanStarted (s : State) : State :=
  s.puts nvB [(F.GLEAN_STAT_REWRITTEN, 0), (F.GLEAN_STAT_RAW_WEAK, 0), (F.GLEAN_NEXT_MINUTES, 1440)]

theorem exec_gleanerPass (l : List Weak) (s : State) : exec (.gleanerPass l) s = .next
    (if s.is nvB F.NV_CFG_GLEANER_EN && s.is nvB F.NV_STAT_READY then s.gleanStarted.glean l else s) := rfl

theorem exec_gleanerPass_on (l : List Weak) (on : s.is nvB F.NV_CFG_GLEANER_EN = true) (ready : s.is nvB F.NV_STAT_READY = true) :
    exec (.gleanerPass l) s = .next (s.gleanStarted.glean l) := by
  rw [exec_gleanerPass, on, ready]
  rfl

/-- A pass that found nothing only refreshes. -/
theorem State.glean_nil (s : State) : s.glean [] = (s.modNv fun x => { x with weakQ := x.weakQ ++ [] }).nvRefresh := by
  unfold State.glean
  dsimp only
  rw [List.filter_nil, List.filter_nil, ite_self]
  rfl

theorem does_gleanerPass_nil (on : s.is nvB F.NV_CFG_GLEANER_EN = true) (ready : s.is nvB F.NV_STAT_READY = true) :
    Does (.gleanerPass []) s fun t => t.get nvB F.GLEAN_STAT_REWRITTEN = 0 ∧ t.get nvB F.GLEAN_STAT_RAW_WEAK = 0 ∧
      t.get nvB F.GLEAN_NEXT_MINUTES = 1440 ∧ t.nv = s.nv := by
  have run := exec_gleanerPass_on [] on ready
  rw [State.glean_nil] at run
  refine Does.intro run ⟨?_, ?_, ?_, ?_⟩
  · rw [State.get_nvRefresh _ _ rfl (by decide) (by decide), State.get_modNv]
    exact State.get_puts_first _ _ _ _ _ (by decide) rfl
  · rw [State.get_nvRefresh _ _ rfl (by decide) (by decide), State.get_modNv]
    exact State.get_puts_next _ _ _ _ _ fun u => State.get_puts_first _ _ _ _ _ (by decide) rfl
  · rw [State.get_nvRefresh _ _ rfl (by decide) (by decide), State.get_modNv]
    exact State.get_puts_next _ _ _ _ _ fun u => State.get_puts_next _ _ _ _ _ fun w => State.get_puts_first _ _ _ _ _ (by decide) rfl
  · rw [State.nvRefresh_nv, State.modNv_nv, State.gleanStarted, State.puts_nv, List.append_nil]

/-- While writes are inhibited an item that needs one waits. -/
theorem State.glean_waits (s : State) (a : Fin 0x100000) (waits : s.inhibited = true) :
    s.glean [.record a] = ((s.raise nvB 4).modNv fun x => { x with weakQ := x.weakQ ++ [.record a] }).nvRefresh := by
  have still : (s.raiseIf (!([Weak.record a]).isEmpty) nvB 4).inhibited = true := (State.is_raiseIf_off _ _ _ _ _ (by decide)).trans waits
  unfold State.glean
  dsimp only
  rw [still, if_pos rfl, if_pos rfl]
  rfl

theorem does_gleanerPass_waits {a : Fin 0x100000} (on : s.is nvB F.NV_CFG_GLEANER_EN = true) (ready : s.is nvB F.NV_STAT_READY = true)
    (waits : s.inhibited = true) : Does (.gleanerPass [.record a]) s fun t => t.nv = { s.nv with weakQ := s.nv.weakQ ++ [.record a] } := by
  have still : s.gleanStarted.inhibited = true := (congrArg (· != 0) (State.get_puts_of_apart _ _ _ _ rfl)).trans waits
  have run := exec_gleanerPass_on [.record a] on ready
  rw [State.glean_waits _ _ still] at run
  exact Does.intro run (by rw [State.nvRefresh_nv, State.modNv_nv, State.raise_nv, State.gleanStarted, State.puts_nv])

/-! Power-up and the inhibit. -/

theorem is_flashStart (s : State) (l : List Weak) : (s.flashStart l).is nvB F.NV_STAT_READY = true := by
  have stable := nvStable_flag F.NV_STAT_READY true rfl (by decide) (by decide) (by decide)
  exact stable.gleans l (stable.setsAll _ rfl (State.is_put_same _ _ _ _ (by decide)))

theorem flushStable_inhibit : FlushStable fun u => u.is nvB F.NV_STAT_INHIBIT = false :=
  (nvStable_flag F.NV_STAT_INHIBIT false rfl (by decide) (by decide) (by decide)).flush
    (fun _ _ e h => (State.is_of_regs e _ _).trans h) fun _ _ h => (State.is_put_ne _ _ _ _ (by decide)).trans h

theorem inhibited_inhibitEnd (s : State) : s.inhibitEnd.inhibited = false := by
  have stable := flushStable_inhibit.toNvStable
  have released : ((s.put nvB F.NV_STAT_INHIBIT 0).live nvB 3 false).is nvB F.NV_STAT_INHIBIT = false :=
    stable.shows _ _ _ (State.is_put_same _ _ _ _ (by decide))
  unfold State.inhibitEnd
  dsimp only
  split
  · refine stable.gleans _ (stable.stores _ _ ?_)
    split
    · exact stable.settlesCounters released
    · exact released
  · exact released

/-- What Mernak held back does not inhibit writes again. -/
theorem inhibited_mernakFlush (h : s.inhibited = false) : s.mernakFlush.inhibited = false := by
  have stable := flushStable_inhibit.toNvStable
  have committed (u : State) (k : Nat) (d : List Byte) (hu : u.inhibited = false) : (u.mernakCommit k d).inhibited = false := by
    unfold State.mernakCommit
    dsimp only
    split
    · exact hu
    · exact stable.commitsRecs _ (stable.sets _ _ _ (by decide) hu)
  have selected (u : State) (k : Nat) (hu : u.inhibited = false) : (u.selectSlot k).inhibited = false := by
    unfold State.selectSlot
    split
    · exact hu
    · exact committed _ _ _ hu
  have refreshed (u : State) (hu : u.inhibited = false) : u.logRefresh.inhibited = false := by
    have page (a : Nat) (ha : nvB + 0x44 ≠ gPage 0x233 + a) : u.logRefresh.rd (nvB + 0x44) = u.rd (nvB + 0x44) := by
      unfold State.logRefresh
      dsimp only
      rw [State.rd_put_ne _ _ _ (by decide)]
      exact State.rd_forAll fun i hi w => State.rd_wr_ne _ _ (by simp only [nvB, gPage]; omega)
    exact (State.is_of_rd (page 0 (by decide))).trans hu
  have programmed (u : State) (e : List Byte) (hu : u.inhibited = false) : (u.logProgram e).inhibited = false := by
    unfold State.logProgram
    dsimp only
    refine refreshed _ ?_
    split
    · exact hu
    · exact hu
  unfold State.mernakFlush
  dsimp only
  refine State.foldl_keeps (P := fun u => u.inhibited = false) (fun e _ u t he hu => by rw [he]; exact programmed u e hu) ?_
  split
  · exact selected _ _ h
  · exact h

theorem does_nvInhibitAssert (free : s.inhibited = false) :
    Does .nvInhibitAssert s fun t => t.inhibited = true ∧ t.get nvB ⟨0x1C, 3, 1⟩ = 1 ∧ t.nv = s.nv := by
  have run : exec .nvInhibitAssert s = .next (if s.inhibited then s else ((s.put nvB F.NV_STAT_INHIBIT 1).raise nvB 3).live nvB 3 true) := rfl
  rw [free, if_neg Bool.false_ne_true] at run
  refine Does.intro run ⟨?_, State.get_put_same _ _ _ _ (by decide), ?_⟩
  · refine (State.is_live_off _ _ _ _ _ (by decide)).trans ((State.is_raise_off _ _ _ _ (by decide)).trans (State.is_put_same _ _ _ _ (by decide)))
  · rw [State.live_nv, State.raise_nv, State.put_nv]

/-! Faults. -/

/-- An uncorrectable array word has been recorded. -/
def State.arrayFault (s : State) (page : Nat) (e : Bool) : State :=
  ((s.raise nvB 7).setFault nvB 0 (page % 512)).puts nvB [(F.FLASH_LAST_PAGE, page), (F.FLASH_LAST_KIND, b2n e)]

theorem is_setFault_puts (s : State) (a i : Nat) (l : List (Fld × Nat)) (h : (l.all fun p => p.1.apart F.STAT_FAULT) = true) :
    ((s.setFault nvB a i).puts nvB l).is nvB F.STAT_FAULT = true := by
  rw [State.is, State.get_puts_of_apart _ _ _ _ h]
  exact State.is_setFault s nvB a i

theorem does_flashFault_array {page : Fin 16384} {e : Bool} (low : 16 ≤ page.val / 256) (high : page.val / 256 < 62) :
    Does (.flashFault (.array page e)) s fun t => t.get nvB F.RAW_RES_CODE = 0x57 ∧ t.get nvB F.FLASH_LAST_PAGE = page ∧
      t.is nvB F.STAT_FAULT = true ∧ t.nv = s.nv := by
  have run : exec (.flashFault (.array page e)) s = .next ((s.arrayFault page e).rawRes fcFlashFault) := by
    refine congrArg Host.Outcome.next ((if_neg ?_).trans (if_neg ?_))
    · show ¬ page.val / 256 < 16
      omega
    · show ¬ 62 ≤ page.val / 256
      omega
  have shown (g : Fld) (h : (nvRefreshed.all fun f => f.apart g) = true) (sticky : g.off ≠ 0x10) (live : g.off ≠ 0x1C)
      (res : ([F.RAW_RES_CODE, F.RAW_RES_DONE, F.RAW_RES_BUSY].all fun f => f.apart g) = true) :
      ((s.arrayFault page e).rawRes fcFlashFault).get nvB g = (s.arrayFault page e).get nvB g := by
    rw [State.rawRes, State.get_nvRefresh _ _ h sticky live]
    exact State.get_puts_of_apart _ _ _ _ res
  refine Does.intro run ⟨State.get_rawRes_code _ _, ?_, ?_, ?_⟩
  · rw [shown _ rfl (by decide) (by decide) rfl]
    exact (State.get_puts_first _ _ _ _ _ (by decide) rfl).trans (Nat.mod_eq_of_lt (b := 2 ^ 14) page.isLt)
  · rw [State.is, shown _ rfl (by decide) (by decide) rfl]
    exact is_setFault_puts _ _ _ _ rfl
  · rw [State.rawRes_nv, State.arrayFault, State.puts_nv, State.setFault_nv, State.raise_nv]

theorem does_flashFault_gather {w : Fin 512} {k : Nat} {l : List GRec} (own : s.nv.gather = some (k, l)) :
    Does (.flashFault (.gather w)) s fun t => t.is nvB F.STAT_FAULT = true ∧
      t.nv = { s.nv with gather := none, notice := s.nv.notice ++ [(k, 0x57)] } := by
  have nv : ((s.raise nvB 7).setFault nvB 1 w).nv = s.nv := by rw [State.setFault_nv, State.raise_nv]
  have run : exec (.flashFault (.gather w)) s = .next ((((s.raise nvB 7).setFault nvB 1 w).modNv fun x =>
      { x with gather := none, notice := x.notice ++ [(k, fcFlashFault)] }).nvRefresh) := by
    show Host.Outcome.next (match ((s.raise nvB 7).setFault nvB 1 w).nv.gather with | some (m, _) => _ | none => _) = _
    rw [nv, own]
  refine Does.intro run ⟨?_, by rw [State.nvRefresh_nv, State.modNv_nv, nv]⟩
  rw [State.is_nvRefresh _ _ rfl (by decide) (by decide), State.is_modNv]
  exact State.is_setFault _ _ _ _

theorem does_flashFault_pageBuffer {w : Fin 512} : Does (.flashFault (.pageBuffer w)) s fun t =>
    t.is nvB F.STAT_FAULT = true ∧ t.nv.buf = emptyBuf ∧ t.nv.owner = none ∧ t.nv.flash = s.nv.flash := by
  have nv : ((s.raise nvB 7).setFault nvB 2 w).nv = s.nv := by rw [State.setFault_nv, State.raise_nv]
  obtain ⟨note, run⟩ : ∃ note, exec (.flashFault (.pageBuffer w)) s = .next ((((s.raise nvB 7).setFault nvB 2 w).modNv fun x =>
      { x with buf := emptyBuf, owner := none, notice := x.notice ++ note }).nvRefresh) := ⟨_, rfl⟩
  refine Does.intro run ⟨?_, ?_⟩
  · rw [State.is_nvRefresh _ _ rfl (by decide) (by decide), State.is_modNv]
    exact State.is_setFault _ _ _ _
  · rw [State.nvRefresh_nv, State.modNv_nv, nv]
    exact ⟨rfl, rfl, rfl⟩

theorem does_flashFault_index {w : Fin 512} : Does (.flashFault (.index w)) s fun t => t.is nvB F.STAT_FAULT = true := by
  have stable := nvStable_flag F.STAT_FAULT true rfl (by decide) (by decide) (by decide)
  exact Does.intro rfl (stable.refreshes (stable.indexes (State.is_setFault _ _ _ _)))

end

end Sys2Proof.Machine

namespace Sys2Proof
open Sys2Proof.Machine

/-- Settles O40: an increment programs one cell, with a fold where the strip is used up; the other accesses change what their rules name,
and the refresh leaves the controller's contents. -/
theorem flashAccesses : Obligations.FlashAccesses := by
  refine ⟨fun m i s active may writes low => does_cntInc active may writes low,
    fun m i s active => ⟨does_cntInc_denied active, does_cntInc_inhibited active, does_cntInc_saturated active⟩,
    fun m i s unsettled => ?_,
    fun m v s notice may own writes => does_rawProgram notice may own writes,
    fun m v s notice may writes => does_rawErase notice may writes,
    fun m v s notice may own waits => does_rawInhibited notice may own waits,
    fun m v s notice own => does_rawClearBuf notice own,
    fun m v s notice may own => does_rawLoad notice may own,
    fun m v s notice may => ⟨does_rawRefused (exec_rawProgram s) (by decide) notice may,
      does_rawRefused (exec_rawEraseSector s) (by decide) notice may, does_rawRefused (exec_rawLoad s) (by decide) notice may⟩,
    fun m v s own => does_rawBufferWrite_data own, fun m o l s own => does_rawBufferWrite_window own,
    fun m w k s own hk => does_rawBufferWrite_foreign own hk,
    fun k l s queue writes hk => does_backgroundErase_raw queue writes hk,
    fun k l s queue writes hk => does_backgroundErase_rec queue writes hk, fun s idle => ?_,
    fun s on ready => does_gleanerPass_nil on ready, fun a s on ready waits => does_gleanerPass_waits on ready waits,
    fun l s off => ?_, fun l s down => ?_, fun l s up => congrArg Host.Outcome.next (if_pos up),
    fun s free => does_nvInhibitAssert free, fun s waits => ?_, fun s => ⟨fun waits => ?_, fun free => ?_⟩,
    fun page e s low high => does_flashFault_array low high, fun w k l s own => does_flashFault_gather own,
    fun w s => does_flashFault_pageBuffer, fun w s => does_flashFault_index⟩
  · rw [exec_cntInc, unsettled]
    rfl
  · show Host.Outcome.next _ = _
    rcases idle with h | h
    · rw [h]
    · cases s.nv.eraseQ with
      | nil => rfl
      | cons k l => exact congrArg _ (if_pos h)
  · rw [exec_gleanerPass, off]
    rfl
  · exact Does.intro (congrArg Host.Outcome.next (if_neg (by rw [down]; decide))) (is_flashStart s l)
  · refine Does.intro (congrArg Host.Outcome.next (if_pos waits)) (inhibited_mernakFlush ?_)
    exact flushStable_inhibit.flushes (inhibited_inhibitEnd s)
  · exact congrArg Host.Outcome.next (if_pos waits)
  · exact congrArg Host.Outcome.next (if_neg (by rw [free]; decide))

end Sys2Proof
end

section
/-! Proofs about the Yumen meter (R480 to R500): its seconds, offers, seal, calibration commands and power, and the statement on the
meter. -/

set_option Elab.async false

namespace Sys2Proof.Machine

/-! What events and the fall of METRO_OK leave. -/

section
variable (y z : Ym) (k : Nat)

@[simp] theorem Ym.event_sSeq : (y.event k).sSeq = y.sSeq := rfl
@[simp] theorem Ym.event_sRing : (y.event k).sRing = y.sRing := rfl
@[simp] theorem Ym.event_rtc : (y.event k).rtc = y.rtc := rfl
@[simp] theorem Ym.event_nextRtc : (y.event k).nextRtc = y.nextRtc := rfl
@[simp] theorem Ym.event_offer : (y.event k).offer = y.offer := rfl
@[simp] theorem Ym.event_signOk : (y.event k).signOk = y.signOk := rfl
@[simp] theorem Ym.event_locator : (y.event k).locator = y.locator := rfl
@[simp] theorem Ym.event_rtcValid : (y.event k).rtcValid = y.rtcValid := rfl
@[simp] theorem Ym.event_sealOpen : (y.event k).sealOpen = y.sealOpen := rfl
@[simp] theorem Ym.event_seals : (y.event k).seals = y.seals := rfl

@[simp] theorem Ym.settle_sSeq : (y.settle z).sSeq = y.sSeq := by unfold Ym.settle; split <;> rfl
@[simp] theorem Ym.settle_sRing : (y.settle z).sRing = y.sRing := by unfold Ym.settle; split <;> rfl
@[simp] theorem Ym.settle_rtc : (y.settle z).rtc = y.rtc := by unfold Ym.settle; split <;> rfl
@[simp] theorem Ym.settle_nextRtc : (y.settle z).nextRtc = y.nextRtc := by unfold Ym.settle; split <;> rfl
@[simp] theorem Ym.settle_offer : (y.settle z).offer = y.offer := by unfold Ym.settle; split <;> rfl
@[simp] theorem Ym.settle_signOk : (y.settle z).signOk = y.signOk := by unfold Ym.settle; split <;> rfl
@[simp] theorem Ym.settle_locator : (y.settle z).locator = y.locator := by unfold Ym.settle; split <;> rfl
@[simp] theorem Ym.settle_rtcValid : (y.settle z).rtcValid = y.rtcValid := by unfold Ym.settle; split <;> rfl
@[simp] theorem Ym.settle_sealOpen : (y.settle z).sealOpen = y.sealOpen := by unfold Ym.settle; split <;> rfl
@[simp] theorem Ym.settle_seals : (y.settle z).seals = y.seals := by unfold Ym.settle; split <;> rfl

theorem bitN_or_event (x k : Nat) : bitN (x ||| 2 ^ k) k = true := by
  show (x ||| 2 ^ k).testBit k = true
  rw [Nat.testBit_or, Nat.testBit_two_pow_self, Bool.or_true]

theorem Ym.event_raised : bitN (y.event k).events k = true := bitN_or_event _ _

/-- An event that has been raised stays through the fall of METRO_OK. -/
theorem Ym.settle_raised (h : bitN y.events k = true) : bitN (y.settle z).events k = true := by
  unfold Ym.settle
  split
  · show (y.events ||| 2 ^ 11).testBit k = true
    rw [Nat.testBit_or]
    exact Bool.or_eq_true_iff.2 (.inl h)
  · exact h

end

/-! A second. -/

section
variable (y : Ym) (m : List YmMeas) (temp : Int) (fails free : Nat)

theorem Ym.second_sSeq : (y.second m temp fails free).sSeq = y.sSeq + 1 := by
  simp only [Ym.second, apply_ite Ym.sSeq, Ym.event_sSeq, ite_self]

theorem Ym.second_rtc : (y.second m temp fails free).rtc = y.rtc := by
  simp only [Ym.second, apply_ite Ym.rtc, Ym.event_rtc, ite_self]

theorem Ym.second_nextRtc : (y.second m temp fails free).nextRtc = y.nextRtc := by
  simp only [Ym.second, apply_ite Ym.nextRtc, Ym.event_nextRtc, ite_self]

theorem Ym.second_offer : (y.second m temp fails free).offer = none := rfl

theorem Ym.second_signOk : (y.second m temp fails free).signOk = (fails != 2) := rfl

/-- The newest record stays in its ring. -/
theorem ringKeep_head (sectors seq : Nat) (r : List Byte) (l : List (Nat × List Byte)) (h : 2 ≤ sectors) :
    (ringKeep sectors seq ((seq, r) :: l)).head? = some (seq, r) := by
  have kept : (seq / 256 + 2 - sectors) * 256 ≤ seq := by omega
  rw [ringKeep, List.filter_cons_of_pos (by simpa using kept), List.head?_cons]

theorem Ym.second_head : ((y.second m temp fails free).sRing.head?.map fun p => p.1) = some y.sSeq := by
  obtain ⟨z, r, hz, shape⟩ : ∃ z : Ym, ∃ r, z.sSeq = y.sSeq ∧ (y.second m temp fails free).sRing = ringKeep 16 z.sSeq ((z.sSeq, r) :: z.sRing) := by
    refine ⟨_, _, ?_, rfl⟩
    simp only [apply_ite Ym.sSeq, Ym.event_sSeq, ite_self]
  rw [shape, ringKeep_head _ _ _ _ (by decide), Option.map_some, hz]

theorem Ym.boundary_sSeq : (y.boundary fails free).sSeq = y.sSeq := by
  simp only [Ym.boundary, Ym.quarter, apply_ite Ym.sSeq, Ym.event_sSeq, ite_self]

theorem Ym.boundary_sRing : (y.boundary fails free).sRing = y.sRing := by
  simp only [Ym.boundary, Ym.quarter, apply_ite Ym.sRing, Ym.event_sRing, ite_self]

theorem Ym.boundary_offer : (y.boundary fails free).offer = y.offer := by
  simp only [Ym.boundary, Ym.quarter, apply_ite Ym.offer, Ym.event_offer, ite_self]

theorem Ym.boundary_signOk : (y.boundary fails free).signOk = y.signOk := by
  simp only [Ym.boundary, Ym.quarter, apply_ite Ym.signOk, Ym.event_signOk, ite_self]

theorem Ym.boundary_locator : (y.boundary fails free).locator = y.locator := by
  simp only [Ym.boundary, Ym.quarter, apply_ite Ym.locator, Ym.event_locator, ite_self]

theorem Ym.boundary_rtc : (y.boundary fails free).rtc = match y.nextRtc with | some r => r | none => y.rtc + 1 := rfl

end

section
variable {s : State} {m : List YmMeas} {temp : Int} {f : YmFaults}

/-- What a second makes of the meter. -/
def Ym.tocked (y : Ym) (m : List YmMeas) (temp : Int) (f : YmFaults) (free : Nat) : Ym :=
  (((y.second m temp f.signs.val free).located y f.word).boundary f.signs.val free).settle y

theorem exec_yumenSecond (on : s.ymOn = true) (measuring : s.ym.measuring = true) : ∃ free,
    exec (.yumenSecond m temp f) s = .next (s.modYm fun y => y.tocked m temp f free).tick :=
  ⟨_, congrArg Host.Outcome.next (if_pos (by rw [on, measuring]; rfl))⟩

theorem Ym.tocked_locator (y : Ym) (free : Nat) : (y.tocked m temp f free).locator =
    ((y.second m temp f.signs.val free).located y f.word).locator := by
  rw [Ym.tocked, Ym.settle_locator, Ym.boundary_locator]

theorem does_yumenSecond (on : s.ymOn = true) (measuring : s.ym.measuring = true) : Does (.yumenSecond m temp f) s fun t =>
    t.ym.sSeq = s.ym.sSeq + 1 ∧ (t.ym.sRing.head?.map fun p => p.1) = some s.ym.sSeq ∧
    t.ym.rtc = (match s.ym.nextRtc with | some r => r | none => s.ym.rtc + 1) ∧ t.ym.offer = none ∧ t.ym.signOk = (f.signs != 2) := by
  obtain ⟨free, run⟩ := exec_yumenSecond (m := m) (temp := temp) (f := f) on measuring
  refine Does.intro run ?_
  show (s.ym.tocked m temp f free).sSeq = _ ∧ ((s.ym.tocked m temp f free).sRing.head?.map fun p => p.1) = _ ∧
    (s.ym.tocked m temp f free).rtc = _ ∧ (s.ym.tocked m temp f free).offer = _ ∧ (s.ym.tocked m temp f free).signOk = _
  refine ⟨?_, ?_, ?_, ?_, ?_⟩
  · rw [Ym.tocked, Ym.settle_sSeq, Ym.boundary_sSeq]
    exact s.ym.second_sSeq m temp f.signs.val free
  · rw [Ym.tocked, Ym.settle_sRing, Ym.boundary_sRing]
    exact s.ym.second_head m temp f.signs.val free
  · rw [Ym.tocked, Ym.settle_rtc, Ym.boundary_rtc]
    show (match (s.ym.second m temp f.signs.val free).nextRtc with | some r => r | none => (s.ym.second m temp f.signs.val free).rtc + 1) = _
    rw [Ym.second_nextRtc, Ym.second_rtc]
  · rw [Ym.tocked, Ym.settle_offer, Ym.boundary_offer]
    exact s.ym.second_offer m temp f.signs.val free
  · rw [Ym.tocked, Ym.settle_signOk, Ym.boundary_signOk]
    have same (a : Fin 3) : (a.val != 2) = (a != 2) := by
      revert a
      decide
    exact (s.ym.second_signOk m temp f.signs.val free).trans (same f.signs)

theorem does_yumenSecond_word {g : Fin 3} {u : YmUe} {w : Word} (on : s.ymOn = true) (measuring : s.ym.measuring = true)
    (place : ∀ y z : Ym, (y.located z (some u)).locator = w) : Does (.yumenSecond m temp ⟨g, some u⟩) s fun t => t.ym.locator = w := by
  obtain ⟨free, run⟩ := exec_yumenSecond (m := m) (temp := temp) (f := ⟨g, some u⟩) on measuring
  exact Does.intro run ((Ym.tocked_locator _ _).trans (place _ _))

/-! Offers. -/

theorem exec_timeOffer (a : Fin 1000000) (g : Bool) (s : State) : exec (.timeOffer a g) s = .next
    (if !s.tc.started || !s.populated 7 then s
    else if s.ym.powered && s.ym.measuring && !g then
      (s.emit (.offer s.offerMsg.1)).modYm fun y => { y with
        offer := some (s.offerMsg.2.1, if a.val < 500000 then (a.val : Int) else (a.val : Int) - 1000000, s.offerMsg.2.2)
        live := setBit y.live 7 false }
    else s.emit (.offer s.offerMsg.1)) := rfl

theorem does_timeOffer {a : Fin 1000000} (started : s.tc.started = true) (there : s.populated 7 = true) (powered : s.ym.powered = true)
    (measuring : s.ym.measuring = true) : Does (.timeOffer a false) s fun t => t.out = s.out ++ [.offer s.offerMsg.1] ∧ t.regs = s.regs ∧
      t.ym.offer = some (s.offerMsg.2.1, if a.val < 500000 then (a.val : Int) else (a.val : Int) - 1000000, s.offerMsg.2.2) := by
  have run := exec_timeOffer a false s
  rw [started, there, powered, measuring, if_neg (by decide), if_pos (by decide)] at run
  exact Does.intro run ⟨State.emit_out s _, State.emit_regs s (.offer s.offerMsg.1), rfl⟩

theorem does_timeOffer_garbled {a : Fin 1000000} (started : s.tc.started = true) (there : s.populated 7 = true) :
    Does (.timeOffer a true) s fun t => t.out = s.out ++ [.offer s.offerMsg.1] ∧ t.ym = s.ym := by
  have run := exec_timeOffer a true s
  rw [started, there, if_neg (by decide), Bool.not_true, Bool.and_false, if_neg Bool.false_ne_true] at run
  exact Does.intro run ⟨State.emit_out _ _, State.emit_ym _ _⟩

/-! The seal. -/

theorem does_offerMissing (on : s.ymOn = true) (held : bitN s.ym.live 7 = false) :
    Does .offerMissing s fun t => bitN t.ym.live 7 = true ∧ bitN t.ym.events 7 = true ∧ t.regs = s.regs :=
  Does.intro (congrArg Host.Outcome.next (if_pos (by rw [on, held]; rfl))) ⟨bitN_setBit s.ym.live 7 true, bitN_or_event s.ym.events 7, State.modYm_regs _ _⟩

theorem does_sealOpened (on : s.ymOn = true) (closed : s.ym.sealOpen = false) : Does .sealOpened s fun t => t.ym.sealOpen = true ∧
    t.ym.seals = min 0xFFFF (s.ym.seals + 1) ∧ bitN t.ym.events 0 = true ∧ t.regs = s.regs := by
  refine Does.intro (congrArg Host.Outcome.next (if_pos (by rw [on, closed]; rfl))) ⟨?_, ?_, ?_, State.modYm_regs _ _⟩
  · exact Ym.settle_sealOpen _ _
  · exact Ym.settle_seals _ _
  · exact Ym.settle_raised _ _ _ (Ym.event_raised _ _)

theorem does_sealClosed (on : s.ymOn = true) (opened : s.ym.sealOpen = true) : Does .sealClosed s fun t => t.ym.sealOpen = false ∧
    t.ym.seals = s.ym.seals ∧ bitN t.ym.events 1 = true ∧ t.regs = s.regs :=
  Does.intro (congrArg Host.Outcome.next (if_pos (by rw [on, opened]; rfl))) ⟨rfl, rfl, bitN_or_event s.ym.events 1, State.modYm_regs _ _⟩

/-! Commands of METRO_CAL. -/

theorem State.metroCommand_good (on : s.ymOn = true) (f : State → State) : s.metroCommand true f = f s := by
  rw [State.metroCommand, on]
  rfl

theorem State.metroCommand_bad (on : s.ymOn = true) (f : State → State) : s.metroCommand false f = s.metroRefuse := by
  rw [State.metroCommand, on]
  rfl

theorem State.metroRefuse_ym (s : State) : s.metroRefuse.ym = s.ym := rfl

theorem State.metroRefuse_regs (s : State) : s.metroRefuse.regs = s.regs := rfl

/-- A refusal leaves the meter and the registers, and answers a code without data. -/
theorem does_metroRefuse {c : Instr} (run : exec c s = .next s.metroRefuse) :
    Does c s fun t => t.ym = s.ym ∧ t.regs = s.regs ∧ ∃ n, t.out = s.out ++ [.metro n []] :=
  Does.intro run ⟨s.metroRefuse_ym, s.metroRefuse_regs, _, rfl⟩

theorem does_emit {c : Instr} {o : OutMsg} (run : exec c s = .next (s.emit o)) : Does c s fun t => t.ym = s.ym ∧ t.out = s.out ++ [o] :=
  Does.intro run ⟨State.emit_ym _ _, State.emit_out _ _⟩

theorem does_status (on : s.ymOn = true) :
    Does (.status true) s fun t => t.ym = s.ym ∧ t.out = s.out ++ [.metro 0x01 (s.ym.words.flatMap fun w => beBytes 4 w)] :=
  does_emit (congrArg Host.Outcome.next (State.metroCommand_good on fun t => t.emit (.metro 0x01 (t.ym.words.flatMap fun w => beBytes 4 w))))

theorem does_identity (on : s.ymOn = true) : Does (.identity true) s fun t => t.ym = s.ym ∧
    t.out = s.out ++ [.metro 0x02 (beBytes 8 Config.ymIdentity.toNat ++ Config.ymPublicKey ++ Config.ymCertificate)] :=
  does_emit (congrArg Host.Outcome.next (State.metroCommand_good on fun t =>
    t.emit (.metro 0x02 (beBytes 8 Config.ymIdentity.toNat ++ Config.ymPublicKey ++ Config.ymCertificate))))

section
variable {c : Instr} {op : Nat} {l : List (Nat × List Byte)} {q : Word}

/-- A record that is held is sent. -/
theorem does_readRecord {p : Nat × List Byte} (run : exec c s = .next (s.readRecord op l q.toNat))
    (held : l.find? (fun r => r.1 == q.toNat) = some p) : Does c s fun t => t.ym = s.ym ∧ t.out = s.out ++ [.metro op p.2] := by
  rw [State.readRecord, held] at run
  exact does_emit run

theorem does_readRecord_none (run : exec c s = .next (s.readRecord op l q.toNat)) (lost : l.find? (fun r => r.1 == q.toNat) = none) :
    Does c s fun t => t.ym = s.ym ∧ ∃ n, t.out = s.out ++ [.metro n []] := by
  rw [State.readRecord, lost] at run
  obtain ⟨t, e, ym, -, out⟩ := does_metroRefuse run
  exact ⟨t, e, ym, out⟩

end

theorem exec_readS (on : s.ymOn = true) (q : Word) : exec (.readS true q) s = .next (s.readRecord 0x03 s.ym.sRing q.toNat) :=
  congrArg Host.Outcome.next (State.metroCommand_good on fun t => t.readRecord 0x03 t.ym.sRing q.toNat)

theorem exec_readQ (on : s.ymOn = true) (q : Word) : exec (.readQ true q) s = .next (s.readRecord 0x04 s.ym.qRing q.toNat) :=
  congrArg Host.Outcome.next (State.metroCommand_good on fun t => t.readRecord 0x04 t.ym.qRing q.toNat)

/-- A command with a bad code is refused. -/
theorem exec_badCode {c : Instr} {q : Word} {i r : Fin 4} {en : Bool} {b : BitVec 16} {k : BitVec 48} {v : Fin 900} (on : s.ymOn = true)
    (h : c ∈ [.status false, .identity false, .readS false q, .readQ false q, .setInput false i en r b, .setRtc false k, .setQofs false v]) :
    exec c s = .next s.metroRefuse := by
  have refused (f : State → State) : Host.Outcome.next (s.metroCommand false f) = (.next s.metroRefuse : Host.Outcome State Fault Refusal) :=
    congrArg Host.Outcome.next (State.metroCommand_bad on f)
  simp only [List.mem_cons, List.not_mem_nil, or_false] at h
  rcases h with rfl | rfl | rfl | rfl | rfl | rfl | rfl <;> exact refused _

/-! Calibration. -/

/-- A calibration change has been accepted. -/
def State.calTaken (s : State) (op : Nat) (f : List YmCal × Nat → List YmCal × Nat) : State :=
  (s.modYm fun y => ({ y with
    audit := min 0xFFFFFFFF (y.audit + 1), nextCals := some (f (y.nextCals.getD (y.cals, y.qofs))) } : Ym).event 2).emit (.metro op [])

theorem State.calChange_open (opened : s.ym.sealOpen = true) (op : Nat) (f : List YmCal × Nat → List YmCal × Nat) :
    s.calChange op f = s.calTaken op f := by
  rw [State.calChange, opened]
  rfl

theorem State.calChange_sealed (closed : s.ym.sealOpen = false) (op : Nat) (f : List YmCal × Nat → List YmCal × Nat) :
    s.calChange op f = s.metroRefuse := by
  rw [State.calChange, closed]
  rfl

section
variable {i r : Fin 4} {en : Bool} {b : BitVec 16} {v : Fin 900} {k : BitVec 48}

theorem exec_setInput (on : s.ymOn = true) : exec (.setInput true i en r b) s =
    .next (s.calChange 0x10 fun p => (p.1.set i.val ⟨en, r.val, b.toNat⟩, p.2)) :=
  congrArg Host.Outcome.next (State.metroCommand_good on _)

theorem exec_setQofs (on : s.ymOn = true) : exec (.setQofs true v) s = .next (s.calChange 0x12 fun p => (p.1, v.val)) :=
  congrArg Host.Outcome.next (State.metroCommand_good on _)

theorem exec_setRtc (on : s.ymOn = true) : exec (.setRtc true k) s = .next
    (if s.ym.sealOpen then (s.calChange 0x11 id).modYm fun y => { y with nextRtc := some k.toNat } else s.calChange 0x11 id) :=
  congrArg Host.Outcome.next (State.metroCommand_good on fun t =>
    if t.ym.sealOpen then (t.calChange 0x11 id).modYm fun y => { y with nextRtc := some k.toNat } else t.calChange 0x11 id)

theorem calTaken_nextCals (none : s.ym.nextCals = none) (op : Nat) (f : List YmCal × Nat → List YmCal × Nat) :
    (s.calTaken op f).ym.nextCals = some (f (s.ym.cals, s.ym.qofs)) := by
  show some (f (s.ym.nextCals.getD (s.ym.cals, s.ym.qofs))) = _
  rw [none, Option.getD_none]

theorem does_calibrate (on : s.ymOn = true) (opened : s.ym.sealOpen = true) (none : s.ym.nextCals = none) :
    (Does (.setInput true i en r b) s fun t => t.ym.audit = min 0xFFFFFFFF (s.ym.audit + 1) ∧ t.ym.cals = s.ym.cals ∧
      t.ym.nextCals = some (s.ym.cals.set i ⟨en, r, b.toNat⟩, s.ym.qofs)) ∧
    (Does (.setQofs true v) s fun t => t.ym.audit = min 0xFFFFFFFF (s.ym.audit + 1) ∧ t.ym.qofs = s.ym.qofs ∧
      t.ym.nextCals = some (s.ym.cals, v.val)) ∧
    (Does (.setRtc true k) s fun t => t.ym.audit = min 0xFFFFFFFF (s.ym.audit + 1) ∧ t.ym.rtc = s.ym.rtc ∧ t.ym.nextRtc = some k.toNat) := by
  have clock := exec_setRtc (k := k) on
  rw [if_pos opened, State.calChange_open opened] at clock
  exact ⟨Does.intro ((exec_setInput on).trans (congrArg _ (State.calChange_open opened _ _))) ⟨rfl, rfl, calTaken_nextCals none _ _⟩,
    Does.intro ((exec_setQofs on).trans (congrArg _ (State.calChange_open opened _ _))) ⟨rfl, rfl, calTaken_nextCals none _ _⟩,
    Does.intro clock ⟨rfl, rfl, rfl⟩⟩

theorem does_calibrate_sealed (on : s.ymOn = true) (closed : s.ym.sealOpen = false) :
    (Does (.setInput true i en r b) s fun t => t.ym = s.ym) ∧ (Does (.setQofs true v) s fun t => t.ym = s.ym) ∧
    (Does (.setRtc true k) s fun t => t.ym = s.ym) := by
  have clock := exec_setRtc (k := k) on
  rw [closed, if_neg Bool.false_ne_true, State.calChange_sealed closed] at clock
  exact ⟨Does.intro ((exec_setInput on).trans (congrArg _ (State.calChange_sealed closed _ _))) s.metroRefuse_ym,
    Does.intro ((exec_setQofs on).trans (congrArg _ (State.calChange_sealed closed _ _))) s.metroRefuse_ym,
    Does.intro clock s.metroRefuse_ym⟩

end

/-! Supplies. -/

/-- The clock restarts from flash. -/
def Ym.clockLost (y : Ym) : Ym := { y with rtcValid := false, rtc := y.rtcFlash, nextRtc := none }

theorem does_rtcSupplyLoss (there : s.populated 7 = true) : Does .rtcSupplyLoss s fun t => t.ym.rtcValid = false ∧
    t.ym.rtc = s.ym.rtcFlash ∧ t.ym.nextRtc = none ∧ t.regs = s.regs := by
  have run : exec .rtcSupplyLoss s = .next (s.modYm fun y => if y.powered && y.rtcValid then (y.clockLost.event 4).settle y else y.clockLost) :=
    congrArg Host.Outcome.next (if_pos there)
  refine Does.intro run ?_
  show (if s.ym.powered && s.ym.rtcValid then (s.ym.clockLost.event 4).settle s.ym else s.ym.clockLost).rtcValid = false ∧
    (if s.ym.powered && s.ym.rtcValid then (s.ym.clockLost.event 4).settle s.ym else s.ym.clockLost).rtc = s.ym.rtcFlash ∧
    (if s.ym.powered && s.ym.rtcValid then (s.ym.clockLost.event 4).settle s.ym else s.ym.clockLost).nextRtc = none ∧ _
  split
  · exact ⟨Ym.settle_rtcValid _ _, Ym.settle_rtc _ _, Ym.settle_nextRtc _ _, rfl⟩
  · exact ⟨rfl, rfl, rfl, rfl⟩

/-- A reset of master ports leaves the meter. -/
theorem ym_busReset (s : State) (m ids : Nat) (l : List (Nat × Nat)) : (s.busReset m ids l).ym = s.ym :=
  Part.same_of_erase (p := .ym) (m := 25231377) (by decide) (State.busReset_er rfl)

theorem does_yumenPowerUp {n : Nat} (there : s.populated 7 = true) (off : s.ym.powered = false) : Does (.yumenPowerUp n) s fun t =>
    t.ym.powered = true ∧ t.ym.measuring = true ∧ t.ym.first = true ∧ t.ym.rtc = if s.ym.rtcValid then s.ym.rtc + n else s.ym.rtc := by
  refine Does.intro (congrArg Host.Outcome.next (if_pos (by rw [there, off]; rfl))) ?_
  rw [ym_busReset]
  exact ⟨rfl, rfl, rfl, rfl⟩

theorem does_yumenPowerLoss (on : s.ymOn = true) : Does .yumenPowerLoss s fun t => t.ym.powered = false ∧ t.ym.measuring = false ∧
    t.ym.link = [] ∧ t.ym.nextCals = none ∧ t.ym.sRing = s.ym.sRing ∧ t.ym.audit = s.ym.audit ∧ t.regs = s.regs :=
  Does.intro (congrArg Host.Outcome.next (if_pos on)) ⟨rfl, rfl, rfl, rfl, rfl, rfl, rfl⟩

/-- A meter that is off does nothing. -/
theorem exec_ymOff (off : s.ymOn = false) : exec (.yumenSecond m temp f) s = .next s ∧ exec .offerMissing s = .next s ∧
    exec .sealOpened s = .next s ∧ exec .sealClosed s = .next s ∧ exec .carouselRecord s = .next s ∧ exec .yumenPowerLoss s = .next s ∧
    exec (.yumenStatusFrame true) s = .next s := by
  have idle (b : Bool) : ¬ (s.ymOn && b) = true := by rw [off]; exact Bool.false_ne_true
  have dark : ¬ s.ymOn = true := by rw [off]; exact Bool.false_ne_true
  exact ⟨congrArg Host.Outcome.next (if_neg (idle _)), congrArg Host.Outcome.next (if_neg (idle _)),
    congrArg Host.Outcome.next (if_neg (idle _)), congrArg Host.Outcome.next (if_neg (idle _)), congrArg Host.Outcome.next (if_neg dark),
    congrArg Host.Outcome.next (if_neg dark), congrArg Host.Outcome.next (if_pos (by rw [off]; rfl))⟩

end

end Sys2Proof.Machine

namespace Sys2Proof
open Sys2Proof.Machine

/-- Settles O41: a second stores a record and ends at its boundary; every other command changes what its rule names, or is refused. -/
theorem yumenMeter : Obligations.YumenMeter :=
  ⟨fun _ _ _ _ on measuring => does_yumenSecond on measuring,
    fun _ _ _ _ _ on measuring => ⟨does_yumenSecond_word on measuring fun _ _ => rfl, does_yumenSecond_word on measuring fun _ _ => rfl⟩,
    fun _ _ started there powered measuring => does_timeOffer started there powered measuring,
    fun _ _ started there => does_timeOffer_garbled started there,
    fun _ _ _ idle => congrArg Host.Outcome.next (if_pos (by rw [idle]; rfl)),
    fun _ on held => does_offerMissing on held, fun _ on closed => does_sealOpened on closed, fun _ on opened => does_sealClosed on opened,
    fun _ _ _ _ off => exec_ymOff off, fun _ on => ⟨does_status on, does_identity on⟩,
    fun q _ _ on => ⟨does_readRecord (exec_readS on q), does_readRecord (exec_readQ on q)⟩,
    fun q _ on => ⟨does_readRecord_none (exec_readS on q), does_readRecord_none (exec_readQ on q)⟩,
    fun _ _ _ _ _ _ _ _ _ on h => does_metroRefuse (exec_badCode on h),
    fun _ _ _ _ _ _ _ on opened none => does_calibrate on opened none,
    fun _ _ _ _ _ _ _ on closed => does_calibrate_sealed on closed,
    fun _ there => does_rtcSupplyLoss there, fun _ _ there off => does_yumenPowerUp there off, fun _ on => does_yumenPowerLoss on⟩

end Sys2Proof
end

section
/-! Proofs about part reset, start-up and the Sheafs (R527 to R535), and the statement on them. -/

set_option Elab.async false

namespace Sys2Proof.Machine

section
variable {s : State}

/-! Part reset. -/

/-- The registers that part reset keeps stand in the register file. -/
theorem State.keepRegs_eq (r s : State) (cold : Bool) : ∃ l, r.keepRegs s cold = { r with regs := l } := by
  have words (l : List Nat) : ∃ k, r.forAll l (fun a u => u.wr a (s.rd a)) = { r with regs := k } :=
    State.forAll_keeps (P := fun u => ∃ k, u = { r with regs := k }) (fun a _ u t e ⟨k, h⟩ => by subst e; subst h; exact ⟨_, rfl⟩) ⟨r.regs, rfl⟩
  obtain ⟨k, h⟩ := words [0x40, 0x44, 0x48, 0x4C, 0x50]
  unfold State.keepRegs
  rw [h]
  dsimp only
  split <;> exact ⟨_, rfl⟩

theorem State.hours_keepRegs (r s : State) (cold : Bool) : (r.keepRegs s cold).get mgB F.MG_POWERED_HOURS = s.get mgB F.MG_POWERED_HOURS := by
  have kept (u : State) : (u.put mgB F.MG_POWERED_HOURS (s.get mgB F.MG_POWERED_HOURS)).get mgB F.MG_POWERED_HOURS = s.get mgB F.MG_POWERED_HOURS :=
    (State.get_put_same _ _ _ _ (by decide)).trans (Nat.mod_eq_of_lt (State.get_lt s mgB F.MG_POWERED_HOURS))
  unfold State.keepRegs
  dsimp only
  split
  · exact kept _
  · exact (State.get_put_ne _ _ _ _ (by decide)).trans (kept _)

/-- What part reset leaves (R528). -/
theorem porst_spec (s : State) (cold : Bool) : (s.porst cold).eff = State.reset.eff ∧ (s.porst cold).mem = State.reset.mem ∧
    (s.porst cold).ym = s.ym ∧ (s.porst cold).nv.flash = s.nv.flash ∧
    (s.porst cold).get mgB F.MG_POWERED_HOURS = s.get mgB F.MG_POWERED_HOURS ∧ (s.porst cold).pwr.inReset = true ∧
    (s.porst cold).pwr.coldNext = (s.pwr.coldNext || cold) ∧ (s.porst cold).pwr.up = 0 := by
  obtain ⟨l, h⟩ := State.reset.keepRegs_eq s cold
  have eff : (s.porst cold).eff = (State.reset.keepRegs s cold).eff := rfl
  have mem : (s.porst cold).mem = (State.reset.keepRegs s cold).mem := rfl
  have inReset : (s.porst cold).pwr.inReset = (State.reset.keepRegs s cold).pwr.inReset := rfl
  have up : (s.porst cold).pwr.up = (State.reset.keepRegs s cold).pwr.up := rfl
  have regs : (s.porst cold).regs = (State.reset.keepRegs s cold).regs := rfl
  refine ⟨by rw [eff, h], by rw [mem, h], rfl, rfl, ?_, by rw [inReset, h]; rfl, rfl, by rw [up, h]; rfl⟩
  rw [State.get_of_regs regs]
  exact State.hours_keepRegs _ _ _

/-! The start. -/

section
variable {b : Boot}

/-- Where the start-up sequence ends, before the part is taken out of reset. -/
def State.booted (s : State) (b : Boot) : State :=
  let q := (s.startHardware b).bootSel
  let image (k : Nat) : Image := if k = 0 then b.slotA else b.slotB
  if q.1.imageValid (image q.2) then (q.1.runImage q.2 (image q.2) false).startFirmware b
  else if q.1.imageValid (image (1 - q.2)) then (q.1.runImage (1 - q.2) (image (1 - q.2)) true).startFirmware b
  else q.1.recovery

/-- The part is out of reset. -/
def State.released (s : State) : State := { s with pwr := { s.pwr with inReset := false, coldNext := false } }

theorem State.start_eq (s : State) (b : Boot) : s.start b = (s.booted b).released := by
  simp only [State.start, State.released, State.booted]

theorem exec_coldStart (held : s.pwr.inReset = true) : exec (.coldStart b) s = .next (s.booted b).released := by
  rw [← State.start_eq]
  exact congrArg Host.Outcome.next (if_pos held)

/-! What the steps of a start leave of the timing core. -/

theorem tc_extend (u : State) (d : List Byte) (f : Bool) : (u.extend d f).tc = u.tc :=
  Part.same_of_erase (p := .tc) (s := u) (t := u.extend d f) (m := 16908289) (by decide) (State.extend_er rfl)

theorem tc_ksStart (u : State) : u.ksStart.tc = u.tc :=
  Part.same_of_erase (p := .tc) (s := u) (t := u.ksStart) (m := 17170449) (by decide) (State.ksStart_er rfl)

theorem tc_flashStart (u : State) (l : List Weak) : (u.flashStart l).tc = u.tc :=
  Part.same_of_erase (p := .tc) (s := u) (t := u.flashStart l) (m := 262161) (by decide) (State.flashStart_er rfl)

theorem tc_cntStep (u : State) (i : Nat) : (u.cntStep i).tc = u.tc :=
  Part.same_of_erase (p := .tc) (s := u) (t := u.cntStep i) (m := 262145) (by decide) (State.cntStep_er rfl)

theorem tc_resolveKey (u : State) (k : Nat) : (u.resolveKey k).1.tc = u.tc :=
  Part.same_of_erase (p := .tc) (s := u) (t := (u.resolveKey k).1) (m := 262161) (by decide) (State.resolveKey_er rfl)

theorem tc_eolRefresh (u : State) (d : Nat) : (u.eolRefresh d).tc = u.tc :=
  Part.same_of_erase (p := .tc) (s := u) (t := u.eolRefresh d) (m := 17) (by decide) (State.eolRefresh_er rfl)

theorem tc_startDone (u : State) : (u.startDone b).tc = u.tc :=
  Part.same_of_erase (p := .tc) (s := u) (t := u.startDone b) (m := 18219281) (by decide) (State.startDone_er rfl)

theorem tc_startDies (u : State) : (u.startDies b).tc = u.tc :=
  Part.same_of_erase (p := .tc) (s := u) (t := u.startDies b) (m := 2131025) (by decide) (State.startDies_er rfl)

theorem tc_runImage (u : State) (k : Nat) (i : Image) (f : Bool) : (u.runImage k i f).tc = u.tc :=
  Part.same_of_erase (p := .tc) (s := u) (t := u.runImage k i f) (m := 17235985) (by decide) (State.runImage_er rfl)

theorem tc_bootSel (u : State) : u.bootSel.1.tc = u.tc :=
  Part.same_of_erase (p := .tc) (s := u) (t := u.bootSel.1) (m := 262161) (by decide) (State.bootSel_er rfl)

theorem tc_recovery (u : State) : u.recovery.tc = u.tc :=
  Part.same_of_erase (p := .tc) (s := u) (t := u.recovery) (m := 17) (by decide) (State.recovery_er rfl)

/-- The timing core runs. -/
def State.started (s : State) : Prop := s.tc.started = true

theorem started_of_tc {t u : State} (e : u.tc = t.tc) (h : t.started) : u.started := by rwa [State.started, e]

theorem started_ite {c : Prop} [Decidable c] {t u : State} (ht : t.started) (hu : u.started) : (if c then t else u).started := by
  split <;> assumption

theorem started_startHardware (s : State) (b : Boot) : (s.startHardware b).started := by
  have core : (((s.modTc fun x => { x with started := true, now := 1000000 * b.ms, ms := b.ms }).raise tcB 8).tcRefresh).started := by
    rw [State.started, State.tc_tcRefresh, State.raise_tc]
    rfl
  unfold State.startHardware
  dsimp only
  refine started_of_tc (tc_extend _ _ _) (started_of_tc (tc_ksStart _) (started_of_tc (tc_flashStart _ _) ?_))
  exact started_of_tc (State.live_tc _ _ _ _) (started_of_tc (State.put_tc _ _ _ _) (started_of_tc (State.modMem_tc _ _) core))

theorem started_calUse {u : State} (k : Nat) (l : List Byte) (h : u.started) : (u.calUse k l).started := by
  unfold State.calUse
  dsimp only
  split <;> exact h

/-- The calibration items come into use one after the other. -/
theorem started_loadCal {u : State} (h : u.started) : u.loadCal.started := by
  have counted : (if !u.pwr.coldNext then u else if u.cntVal 1 = 0xFFFFFFFF then u.raise nvB 2 else u.cntStep 1).started :=
    started_ite h (started_ite (started_of_tc (State.raise_tc _ _ _) h) (started_of_tc (tc_cntStep _ _) h))
  have items (l : List Nat) (p : State × Bool × List Byte) (hp : p.1.started) : (l.foldl (fun (p : State × Bool × List Byte) k =>
      let q := p.1.resolveKey (0x200 + k)
      let n := (calLen k).getD 0
      match q.2 with
      | some g => (q.1.calUse k g.data, p.2.1, p.2.2 ++ slice g.data 0 n)
      | none => (q.1, true, p.2.2 ++ List.replicate n 0)) p).1.started := by
    induction l generalizing p with
    | nil => exact hp
    | cons k l ih =>
      have resolved := started_of_tc (tc_resolveKey p.1 (0x200 + k)) hp
      refine ih _ ?_
      dsimp only
      split
      · exact started_calUse _ _ resolved
      · exact resolved
  unfold State.loadCal
  dsimp only
  refine State.forAll_keeps (P := State.started) (fun d _ v t e hv => e ▸ started_of_tc (tc_eolRefresh _ _) hv) ?_
  exact started_of_tc (tc_extend _ _ _) (started_of_tc (State.raiseIf_tc _ _ _ _) (items _ _ counted))

theorem started_startFirmware {u : State} (h : u.started) : (u.startFirmware b).started :=
  started_of_tc (tc_startDone _) (started_of_tc (tc_startDies _) (started_loadCal h))

theorem started_booted (s : State) (b : Boot) : (s.booted b).started := by
  have boot := started_of_tc (tc_bootSel _) (started_startHardware s b)
  have runs (k : Nat) (i : Image) (f : Bool) := started_startFirmware (b := b) (started_of_tc (tc_runImage _ k i f) boot)
  unfold State.booted
  dsimp only
  exact started_ite (runs _ _ _) (started_ite (runs _ _ _) (started_of_tc (tc_recovery _) boot))

theorem State.released_pwr (u : State) : u.released.pwr = { u.pwr with inReset := false, coldNext := false } := rfl

theorem State.released_tc (u : State) : u.released.tc = u.tc := rfl

theorem State.released_regs (u : State) : u.released.regs = u.regs := rfl

theorem does_coldStart (held : s.pwr.inReset = true) :
    Does (.coldStart b) s fun t => t.pwr.inReset = false ∧ t.pwr.coldNext = false ∧ t.tc.started = true := by
  refine Does.intro (exec_coldStart held) ⟨?_, ?_, ?_⟩
  · rw [State.released_pwr]
  · rw [State.released_pwr]
  · rw [State.released_tc]
    exact started_booted s b

/-- An image without the magic value is not valid. -/
theorem imageValid_false (u : State) (i : Image) (h : slice i.header 0 4 ≠ magicFw) : u.imageValid i = false := by
  have code : u.hdrCheck i.header = 0x60 := by
    unfold State.hdrCheck
    exact if_pos (by simp [h])
  rw [State.imageValid, code]
  rfl

theorem does_coldStart_recovery (held : s.pwr.inReset = true) (a : slice b.slotA.header 0 4 ≠ magicFw) (c : slice b.slotB.header 0 4 ≠ magicFw) :
    Does (.coldStart b) s fun t => t.is mgB F.MG_STAT_RECOVERY = true ∧ t.pwr.inReset = false := by
  have bad (k : Nat) : slice (if k = 0 then b.slotA else b.slotB).header 0 4 ≠ magicFw := by
    split
    · exact a
    · exact c
  have boot : s.booted b = (s.startHardware b).bootSel.1.recovery := by
    unfold State.booted
    dsimp only
    rw [imageValid_false _ _ (bad _), imageValid_false _ _ (bad _), if_neg Bool.false_ne_true, if_neg Bool.false_ne_true]
  have run := exec_coldStart (b := b) held
  rw [boot] at run
  refine Does.intro run ⟨?_, by rw [State.released_pwr]⟩
  rw [State.is_of_regs (State.released_regs _), State.recovery, State.is_live_off _ _ _ _ _ (by decide), State.is_raise_off _ _ _ _ (by decide)]
  exact State.is_put_same _ _ _ _ (by decide)

end

/-! The links of a Sheaf. -/

theorem get_setLinks (u : State) {d up : Nat} (h1 : 1 ≤ d) (h6 : d ≤ 6) : (u.setLinks d up).get flB (linkFld d) = up % 2 ^ 4 := by
  unfold State.setLinks
  dsimp only
  rw [State.get_of_rd (State.rd_floorLive _ (by show flB + 0x80 ≠ _; omega)), State.get_raiseIf_off _ _ _ _ _ (by show (0x80 : Nat) ≠ _; decide)]
  exact State.get_put_same _ _ _ _ (by show 4 * (d - 1) + 4 ≤ 32; omega)

theorem pwr_setLinks (u : State) (d up : Nat) : (u.setLinks d up).pwr = u.pwr :=
  Part.same_of_erase (p := .pwr) (m := 17) (by decide) (State.setLinks_er rfl)

theorem map_setLinks (u : State) (d up : Nat) : (u.setLinks d up).get 0 F.DIE_PRESENT_MAP = u.get 0 F.DIE_PRESENT_MAP := by
  refine State.get_of_rd ?_
  unfold State.setLinks
  dsimp only
  rw [State.rd_floorLive _ (by decide), State.rd_raiseIf_ne _ _ _ (by decide)]
  exact State.rd_put_ne _ _ _ (by show _ ≠ flB + 0x80; decide)

theorem State.present_setLinks (u : State) (d up e : Nat) : (u.setLinks d up).present e = u.present e := by
  rw [State.present, State.present, State.populated, State.populated, map_setLinks, pwr_setLinks]

/-- The Sheaf's die is up, and its outputs will send black. -/
def State.dieUp (s : State) (d : Nat) : State :=
  ({ s with pwr := { s.pwr with up := setBit s.pwr.up d true } } : State).forAll (List.range 16) fun p u =>
    (u.setTx (16 * (d - 1) + p) { Tx.idle with toBlack := true }).rxLive (16 * (d - 1) + p)

theorem State.bringUp_eq (s : State) (d pass : Nat) : s.bringUp d pass =
    if pass % 4 = 0 ∨ pass / 4 % 4 = 0 then s.setLinks d 0 else (s.dieUp d).setLinks d (pass % 16) := rfl

theorem State.present_dieUp (s : State) {d : Nat} (there : s.populated d = true) : (s.dieUp d).present d = true := by
  have kept : (s.dieUp d).get 0 F.DIE_PRESENT_MAP = s.get 0 F.DIE_PRESENT_MAP ∧ (s.dieUp d).pwr.up = setBit s.pwr.up d true := by
    refine State.forAll_keeps (P := fun u => u.get 0 F.DIE_PRESENT_MAP = s.get 0 F.DIE_PRESENT_MAP ∧ u.pwr.up = setBit s.pwr.up d true)
      (fun p _ u t e ⟨map, up⟩ => ?_) ⟨rfl, rfl⟩
    have regs (g : Nat) : 0 + F.DIE_PRESENT_MAP.off ≠ inB g + 0x1C := by
      have low : F.DIE_PRESENT_MAP.off < 0x1000 := by decide
      simp only [inB, portPage]
      omega
    subst e
    refine ⟨?_, up⟩
    rw [← map]
    refine State.get_of_rd ?_
    unfold State.rxLive
    rw [State.rd_live_ne _ _ _ (regs _), State.rd_live_ne _ _ _ (regs _), State.rd_setTx]
  obtain ⟨map, up⟩ := kept
  have on : bitN (s.dieUp d).pwr.up d = true := by rw [up]; exact bitN_setBit _ d true
  rw [State.populated, ← map] at there
  rw [State.present, State.populated, there, on]
  simp

theorem exec_sheafBringup (d : Fin 8) (pass : Fin 16) (s : State) : exec (.sheafBringup d pass) s = .next
    (if 1 ≤ d.val && d.val ≤ 6 && s.populated d && s.pwr.sheafsOut && !s.present d then s.bringUp d pass else s) := rfl

section
variable {d : Fin 8} {pass : Fin 16} (h1 : 1 ≤ d.val) (h6 : d.val ≤ 6)
include h1 h6

theorem exec_sheafBringup_tried (there : s.populated d = true) (out : s.pwr.sheafsOut = true) (down : s.present d = false) :
    exec (.sheafBringup d pass) s = .next (s.bringUp d pass) := by
  rw [exec_sheafBringup, there, out, down, decide_eq_true h1, decide_eq_true h6]
  rfl

theorem does_sheafBringup (there : s.populated d = true) (out : s.pwr.sheafsOut = true) (down : s.present d = false)
    (one : pass.val % 4 ≠ 0) (other : pass.val / 4 ≠ 0) :
    Does (.sheafBringup d pass) s fun t => t.present d = true ∧ t.get flB (linkFld d) = pass := by
  have run := exec_sheafBringup_tried (pass := pass) h1 h6 there out down
  rw [State.bringUp_eq, if_neg (by omega)] at run
  refine Does.intro run ⟨(State.present_setLinks _ _ _ _).trans (s.present_dieUp there), (get_setLinks _ h1 h6).trans ?_⟩
  omega

theorem does_sheafBringup_failed (there : s.populated d = true) (out : s.pwr.sheafsOut = true) (down : s.present d = false)
    (bad : pass.val % 4 = 0 ∨ pass.val / 4 = 0) :
    Does (.sheafBringup d pass) s fun t => t.present d = false ∧ t.get flB (linkFld d) = 0 := by
  have run := exec_sheafBringup_tried (pass := pass) h1 h6 there out down
  rw [State.bringUp_eq, if_pos (by omega)] at run
  exact Does.intro run ⟨(State.present_setLinks _ _ _ _).trans down, get_setLinks _ h1 h6⟩

end

/-! The loss of a Sheaf. -/

/-- The sums leave the links of the Floor. -/
theorem rd_sumsRefresh_links (s : State) : s.sumsRefresh.rd (flB + 0x80) = s.rd (flB + 0x80) := by
  unfold State.sumsRefresh
  dsimp only
  rw [State.rd_live_ne _ _ _ (by decide), State.rd_raiseIf_ne _ _ _ (by decide), State.rd_put_ne _ _ _ (by decide),
    State.rd_put_ne _ _ _ (by decide), State.rd_live_ne _ _ _ (by decide), State.rd_raiseIf_ne _ _ _ (by decide),
    State.rd_forAll fun i hi u => State.rd_put_ne _ _ _ ?_, State.rd_put_ne _ _ _ (by decide),
    State.rd_live_ne _ _ _ (by decide), State.rd_raiseIf_ne _ _ _ (by decide), State.rd_put_ne _ _ _ (by decide),
    State.rd_put_ne _ _ _ (by decide), State.rd_forAll fun i hi u => ?_]
  · rw [State.wnRate]
    exact State.rd_put_ne _ _ _ (by decide)
  · have := List.mem_range.1 hi
    rw [State.rd_put_ne _ _ _ (by simp only [flB, gPage]; omega), State.rd_put_ne _ _ _ (by simp only [flB, gPage]; omega)]
  · have := List.mem_range.1 hi
    simp only [flB, siloB, gPage]; omega

/-- The candidates that lose their source are down, and the sums follow. -/
def State.sourcesGone (s : State) : State :=
  (s.forAll (List.range 16) fun c u => if u.candActive c && candKind c == 4 && !u.candSrcOk c then u.candLost c else u).sumsRefresh

theorem links_sourcesGone (s : State) : s.sourcesGone.rd (flB + 0x80) = s.rd (flB + 0x80) := by
  unfold State.sourcesGone
  rw [rd_sumsRefresh_links]
  refine State.rd_forAll fun c hc u => ?_
  split
  · exact State.rd_candLost u (by decide) (by decide) (List.mem_range.1 hc)
  · rfl

theorem pwr_sumsRefresh (u : State) : u.sumsRefresh.pwr = u.pwr :=
  Part.same_of_erase (p := .pwr) (s := u) (t := u.sumsRefresh) (m := 17) (by decide) (State.sumsRefresh_er rfl)

theorem pwr_candLost (u : State) (c : Nat) : (u.candLost c).pwr = u.pwr :=
  Part.same_of_erase (p := .pwr) (s := u) (t := u.candLost c) (m := 145) (by decide) (State.candLost_er rfl)

theorem pwr_clearSheaf (u : State) (d : Nat) : (u.clearSheaf d).pwr = u.pwr :=
  Part.same_of_erase (p := .pwr) (s := u) (t := u.clearSheaf d) (m := 9448063) (by decide) (State.clearSheaf_er rfl)

theorem pwr_sourcesGone (s : State) : s.sourcesGone.pwr = s.pwr := by
  unfold State.sourcesGone
  rw [pwr_sumsRefresh]
  refine State.forAll_keeps (P := fun u => u.pwr = s.pwr) (fun c _ u t e h => ?_) rfl
  split at e
  · rw [e, pwr_candLost, h]
  · rw [e, h]

/-- The routes to a Sheaf are shed, and its inputs and write-backs stop as sources. -/
def State.sheafStops (s : State) (d : Nat) : State :=
  let ports := (List.range 16).map fun p => 16 * (d - 1) + p
  let dead := (s.activeRoutes).filter fun p => p.1 == 0 && ports.contains (p.2 / 4)
  let s := dead.foldl (fun u p => u.shedRoute p.1 p.2 false) s
  ports.foldl (fun u g => (u.sourceStops g (s.srcDelivers g)).sourceStops (0x800 + g) (s.srcDelivers (0x800 + g))) s

/-- The die of a Sheaf is not up. -/
def State.dieDown (s : State) (d : Nat) : State := { s with pwr := { s.pwr with up := setBit s.pwr.up d false } }

/-- The Floor drops what it holds for a Sheaf. -/
def State.floorForgets (s : State) (d : Nat) : State :=
  let here (c : Nat) : Bool := (srcIsSdi c && c / 16 + 1 == d) || (srcIsWb c && (c - 0x800) / 16 + 1 == d)
  { s with floor := { s.floor with
    toG := s.floor.toG.filter fun p => !here p.1, toS := s.floor.toS.filter fun p => p.1 / 4096 != d } }

theorem State.sheafLost_eq (s : State) (d : Nat) : s.sheafLost d =
    ((((((s.sheafStops d).dieDown d).clearSheaf d).setLinks d 0).floorForgets d).sourcesGone) := by
  simp only [State.sheafLost, State.sheafStops, State.dieDown, State.floorForgets, State.sourcesGone]

theorem State.floorForgets_pwr (s : State) (d : Nat) : (s.floorForgets d).pwr = s.pwr := rfl

theorem State.floorForgets_regs (s : State) (d : Nat) : (s.floorForgets d).regs = s.regs := rfl

theorem does_sheafDown {d : Fin 8} (up : s.sheafUp d = true) :
    Does (.sheafDown d) s fun t => t.present d = false ∧ t.get flB (linkFld d) = 0 := by
  have run : exec (.sheafDown d) s = .next (s.sheafLost d) := congrArg Host.Outcome.next (if_pos up)
  simp only [State.sheafUp, Bool.and_eq_true, decide_eq_true_eq] at up
  obtain ⟨⟨h1, h6⟩, -⟩ := up
  rw [State.sheafLost_eq] at run
  refine Does.intro run ⟨?_, ?_⟩
  · rw [State.present, pwr_sourcesGone, State.floorForgets_pwr, pwr_setLinks, pwr_clearSheaf]
    have off : bitN ((s.sheafStops d).dieDown d).pwr.up d = false := bitN_setBit _ d false
    have middle : (d.val == 0) = false ∧ (d.val == 7) = false := by
      rw [beq_eq_false_iff_ne, beq_eq_false_iff_ne]
      omega
    rw [off, middle.1, middle.2]
    exact Bool.and_false _
  · rw [State.get_of_rd (links_sourcesGone _), State.get_of_regs (State.floorForgets_regs _ _)]
    exact get_setLinks _ h1 h6

end

end Sys2Proof.Machine

namespace Sys2Proof
open Sys2Proof.Machine

/-- Settles O45: part reset is the reset state with what it keeps; every start ends with the part out of reset; and a Sheaf comes up, or is
lost, with its links. -/
theorem startupAndSheafs : Obligations.StartupAndSheafs := by
  refine ⟨fun s => ⟨?_, ?_⟩, fun b s held => does_coldStart held, fun b s held a c => does_coldStart_recovery held a c,
    fun b s out => ?_, fun s => rfl, fun d pass s h1 h6 there out down one other => does_sheafBringup h1 h6 there out down one other,
    fun d pass s h1 h6 there out down bad => does_sheafBringup_failed h1 h6 there out down bad, fun d pass s idle => ?_,
    fun d s up => does_sheafDown up, fun d s down => ?_⟩
  · obtain ⟨eff, mem, ym, flash, hours, inReset, cold, up⟩ := porst_spec s false
    exact Does.intro rfl ⟨eff, mem, ym, flash, hours, inReset, cold.trans (Bool.or_false _), up⟩
  · obtain ⟨eff, mem, ym, flash, hours, inReset, cold, up⟩ := porst_spec s true
    exact Does.intro rfl ⟨eff, mem, ym, flash, hours, inReset, cold.trans (Bool.or_true _), up⟩
  · exact congrArg Host.Outcome.next (if_neg (by rw [out]; exact Bool.false_ne_true))
  · rw [exec_sheafBringup, if_neg]
    rcases idle with h | h <;> simp [h]
  · exact congrArg Host.Outcome.next (if_neg (by rw [down]; exact Bool.false_ne_true))

end Sys2Proof
end

section
/-! Proofs about the key store (R420 to R438): how slots, windows and results read back, what invalidation and the flush of records leave
alone. -/

set_option Elab.async false

namespace Sys2Proof.Machine

/-! Numbers and bits. -/

theorem ofBe_beBytes (n v : Nat) : ofBe (beBytes n v) = v % 256 ^ n := by
  rw [ofBe, beBytes, List.reverse_reverse, ofLe_leBytes]

/-- A bit that is clear may be cleared. -/
theorem setBit_of_bitN_false {x k : Nat} (h : bitN x k = false) : setBit x k false = x := by
  have zero : x &&& 2 ^ k = 0 := by
    rw [Nat.and_two_pow, show x.testBit k = false from h, Bool.toNat_false, Nat.zero_mul]
  show x - (x &&& 2 ^ k) = x
  rw [zero]
  rfl

/-! Slots. -/

section
variable {s t : State}

theorem State.slotKey_of_ks (h : t.ks = s.ks) (i : Nat) : t.slotKey i = s.slotKey i := by rw [State.slotKey, State.slotKey, h]

/-- The word of a slot's attributes. -/
abbrev attrA (i : Nat) : Nat := ksB + 0x200 + 8 * i

theorem State.slotAttr_of_rd {i : Nat} (h : t.rd (attrA i) = s.rd (attrA i)) : t.slotAttr i = s.slotAttr i := congrArg BitVec.toNat h

theorem State.slotValid_of_rd {i : Nat} (h : t.rd (attrA i) = s.rd (attrA i)) : t.slotValid i = s.slotValid i := by
  rw [State.slotValid, State.slotValid, State.slotAttr_of_rd h]

theorem State.slotAttr_lt (s : State) (i : Nat) : s.slotAttr i < 2 ^ 32 := (s.rd (attrA i)).isLt

theorem State.slotAttr_setAttr (s : State) (i v : Nat) : (s.setAttr i v).slotAttr i = v % 2 ^ 32 := by
  rw [State.slotAttr, State.setAttr, State.rd_wr_same, BitVec.toNat_ofNat]

theorem State.rd_setAttr_ne (s : State) {a i : Nat} (v : Nat) (h : a ≠ attrA i) : (s.setAttr i v).rd a = s.rd a := State.rd_wr_ne _ _ h

theorem State.slotKey_setKey (s : State) (i : Nat) (k : List Byte) : (s.setKey i k).slotKey i = beBytes 32 (ofBe k % 2 ^ 256) := by
  have masked : tget 0 (s.setKey i k).ks.masked i = BitVec.ofNat 256 (ofBe k) ^^^ Config.freeValue s.freeCtr := tget_tset_same _ _ _ _
  have mask : tget 0 (s.setKey i k).ks.masks i = Config.freeValue s.freeCtr := tget_tset_same _ _ _ _
  rw [State.slotKey, masked, mask, BitVec.xor_assoc, BitVec.xor_self, BitVec.xor_zero, BitVec.toNat_ofNat]

theorem State.slotKey_setKey_ne (s : State) {i j : Nat} (k : List Byte) (h : j ≠ i) : (s.setKey i k).slotKey j = s.slotKey j := by
  have masked : tget 0 (s.setKey i k).ks.masked j = tget 0 s.ks.masked j := tget_tset_ne _ _ h
  have mask : tget 0 (s.setKey i k).ks.masks j = tget 0 s.ks.masks j := tget_tset_ne _ _ h
  rw [State.slotKey, State.slotKey, masked, mask]

theorem State.setKey_regs (s : State) (i : Nat) (k : List Byte) : (s.setKey i k).regs = s.regs := rfl

/-! Windows. -/

theorem State.ksBytes_of_rd {o n : Nat} (h : ∀ k, k < n + 4 → t.rd (ksB + o + k) = s.rd (ksB + o + k)) : t.ksBytes o n = s.ksBytes o n := by
  have words : (List.range (ceilDiv n 4)).flatMap (fun i => leBytes 4 (t.rd (ksB + o + 4 * i)).toNat) =
      (List.range (ceilDiv n 4)).flatMap fun i => leBytes 4 (s.rd (ksB + o + 4 * i)).toNat := by
    simp only [List.flatMap_def]
    refine congrArg List.flatten (List.map_congr_left fun i hi => ?_)
    have := List.mem_range.1 hi
    have := four_ceilDiv n
    rw [h _ (by omega)]
  rw [State.ksBytes, State.ksBytes, words]

theorem State.rd_ksSetBytes (s : State) {o a : Nat} (l : List Byte) (h : a < ksB + o ∨ ksB + o + l.length ≤ a) : (s.ksSetBytes o l).rd a = s.rd a :=
  State.rd_forAll fun i hi u => State.rd_wr_ne _ _ (by have := List.mem_range.1 hi; omega)

/-- A window of whole words shows what was written to it. -/
theorem State.ksBytes_ksSetBytes (s : State) (o n : Nat) (l : List Byte) (h : l.length = 4 * n) : (s.ksSetBytes o l).ksBytes o (4 * n) = l := by
  have count : l.length / 4 = n := by omega
  have ceil : ceilDiv (4 * n) 4 = n := by unfold ceilDiv; omega
  have words : (List.range n).flatMap (fun i => leBytes 4 ((s.ksSetBytes o l).rd (ksB + o + 4 * i)).toNat) =
      (List.range n).flatMap fun i => slice l (4 * i) 4 := by
    simp only [List.flatMap_def]
    refine congrArg List.flatten (List.map_congr_left fun i hi => ?_)
    rw [State.ksSetBytes, count, rd_forAll_words _ _ _ _ _ (List.mem_range.1 hi), leBytes_sliceWord]
  rw [State.ksBytes, ceil, words, flatMap_slices _ _ (by omega), List.take_take, Nat.min_self, ← h, List.take_length]

/-! The result of a command. -/

theorem State.rd_slotsRefresh (s : State) {a : Nat} (h : a ≠ ksB + 0x40) : s.slotsRefresh.rd a = s.rd a := State.rd_put_ne _ _ _ h

theorem State.tampered_slotsRefresh (s : State) : s.slotsRefresh.tampered = s.tampered :=
  congrArg (· != 0) (State.get_put_of_apart _ _ _ _ _ rfl)

theorem State.slotsRefresh_ks (s : State) : s.slotsRefresh.ks = s.ks := State.put_ks _ _ _ _

theorem State.ksRes_ks (s : State) (c : Nat) : (s.ksRes c).ks = s.ks := by rw [State.ksRes, State.slotsRefresh_ks, State.puts_ks]

theorem State.rd_ksRes (s : State) (c : Nat) {a : Nat} (h : a ≠ ksB + 0x40) (g : a ≠ ksB + 0x5C) : (s.ksRes c).rd a = s.rd a := by
  rw [State.ksRes, State.rd_slotsRefresh _ h, State.rd_puts_ne]
  simp only [List.forall_mem_cons]
  exact ⟨g, g, g, fun _ h => absurd h List.not_mem_nil⟩

/-- A result shows its code, and the command is done. -/
theorem State.ksRes_shown (s : State) (c : Nat) : (s.ksRes c).get ksB F.KS_CMD_RES_CODE = c % 2 ^ 8 ∧
    (s.ksRes c).is ksB F.KS_CMD_RES_DONE = true ∧ (s.ksRes c).is ksB F.KS_CMD_RES_BUSY = false := by
  have same (f : Fld) (h : f.off = 0x5C) (u : State) : u.slotsRefresh.get ksB f = u.get ksB f :=
    State.get_of_rd (u.rd_slotsRefresh (by rw [h]; decide))
  refine ⟨?_, ?_, ?_⟩
  · rw [State.ksRes, same _ rfl]
    exact State.get_puts_first _ _ _ _ _ (by decide) rfl
  · rw [State.is, State.ksRes, same _ rfl, State.get_puts_next _ _ _ _ _ fun u => State.get_puts_first u _ _ _ _ (by decide) rfl]
    rfl
  · rw [State.is, State.ksRes, same _ rfl,
      State.get_puts_next _ _ _ _ _ fun u => State.get_puts_next _ _ _ _ _ fun w => State.get_puts_first w _ _ _ _ (by decide) rfl]
    rfl

/-! Revocation at the media ports. -/

/-- A word of the key store's page that the causes of the media ports do not reach. -/
def ksKept (k : Nat) : Prop := k < 0x1000 ∧ k ≠ 0x10 ∧ k ≠ 0x78 ∧ k ≠ 0x80

theorem State.rd_revokePorts (s : State) (l : List Nat) {k : Nat} (h : ksKept k) : (s.revokePorts l).rd (ksB + k) = s.rd (ksB + k) := by
  obtain ⟨low, sticky, cause, last⟩ := h
  unfold State.revokePorts
  refine State.rd_foldl fun p _ u => ?_
  have port (j : Nat) (hj : j < 0x1000) (hk : k ≠ j) : ksB + k ≠ ipB (p.1 / 64) 0 + j := by simp only [ksB, ipB, gPage]; omega
  have keyed (v : State) (n c : Nat) (hc : c < 32) : (v.keyedRefresh n c).rd (ksB + k) = v.rd (ksB + k) := by
    refine State.rd_put_ne _ _ _ ?_
    simp only [ksB, scB, ipB, gPage]
    omega
  dsimp only
  rw [State.ipCauseAt, State.rd_puts_ne, State.rd_ipCause_ne _ _ _ (port _ (by decide) cause) (port _ (by decide) sticky),
    keyed _ _ _ (by omega)]
  · rfl
  · simp only [List.forall_mem_cons]
    exact ⟨port _ (by decide) last, port _ (by decide) last, fun _ h => absurd h List.not_mem_nil⟩

theorem State.revokePorts_ks (s : State) (l : List Nat) : (s.revokePorts l).ks = s.ks :=
  Part.same_of_erase (p := .ks) (s := s) (t := s.revokePorts l) (m := 16401) (by decide) (State.revokePorts_er rfl)

end

/-! Invalidation. -/

/-- A fact about the state that the invalidation of further slots keeps. -/
structure DropStable (P : State → Prop) : Prop where
  drops : ∀ u j, P u → P (u.slotDrop j false)
  names : ∀ u f v, f.off = 0x68 → P u → P (u.put ksB f v)
  event : ∀ u k, P u → P (u.raise ksB k)
  stops : ∀ u m, P u → P { u with mg := m }
  revokes : ∀ u l, P u → P (u.revokePorts l)
  refresh : ∀ u, P u → P u.slotsRefresh

section
variable {P : State → Prop} (stable : DropStable P)
include stable

theorem DropStable.walks {n : Nat} {s : State} {l : List Nat} (h : P s) : P (State.walk n s l).1 := by
  have pass (k : List Nat) (p : State × List Nat) (hp : P p.1) :
      P (k.foldl (fun (p : State × List Nat) i => if p.1.orphan i then (p.1.slotDrop i false, p.2 ++ [i]) else p) p).1 := by
    induction k generalizing p with
    | nil => exact hp
    | cons i k ih =>
      refine ih _ ?_
      dsimp only
      split
      · exact stable.drops _ _ hp
      · exact hp
  induction n generalizing s l with
  | zero => exact h
  | succ n ih =>
    unfold State.walk
    dsimp only
    split
    · exact h
    · exact ih (pass _ _ h)

theorem DropStable.invalidates {s : State} {i : Nat} {replace : Bool} (h : P (s.slotDrop i replace)) : P (s.invalidate i replace) := by
  have walked := stable.walks (n := 65) (l := []) h
  have named (c : Bool) (u : State) (hu : P u) : P (if c = true then u else (u.put ksB F.KS_LAST_SLOT i).raise ksB 2) := by
    split
    · exact hu
    · exact stable.event _ _ (stable.names _ _ _ rfl hu)
  unfold State.invalidate
  dsimp only
  refine stable.refresh _ (stable.revokes _ _ ?_)
  split
  · split
    · exact stable.event _ _ (stable.names _ _ _ rfl (stable.names _ _ _ rfl (stable.stops _ _ (named _ _ walked))))
    · exact named _ _ walked
  · exact named _ _ walked

end

section
variable {s : State} {i : Nat}

theorem State.slotDrop_eq (s : State) (i : Nat) : ∃ (v : Nat) (f g : Ks → Ks), s.slotDrop i false =
    ((((s.put (ksB + 8 * i) F.SLOT_GEN_GEN v).setAttr i (setBit (s.slotAttr i) atValid false)).modKs f).modKs g) := by
  have attr (v : Nat) : (s.put (ksB + 8 * i) F.SLOT_GEN_GEN v).slotAttr i = s.slotAttr i :=
    State.slotAttr_of_rd (State.rd_put_ne _ _ _ (by show ksB + 0x200 + 8 * i ≠ ksB + 8 * i + 0x204; omega))
  exact ⟨_, _, _, by rw [State.slotDrop, if_neg Bool.false_ne_true, attr]; rfl⟩

theorem State.rd_slotDrop (s : State) {a j : Nat} (h : a ≠ attrA j) (g : a ≠ ksB + 8 * j + 0x204) : (s.slotDrop j false).rd a = s.rd a := by
  obtain ⟨v, f, k, e⟩ := s.slotDrop_eq j
  rw [e, State.rd_modKs, State.rd_modKs, State.rd_setAttr_ne _ _ h]
  exact State.rd_put_ne _ _ _ g

/-- A slot that is dropped holds no valid key. -/
theorem State.slotValid_slotDrop (s : State) (i : Nat) : (s.slotDrop i false).slotValid i = false := by
  obtain ⟨v, f, g, e⟩ := s.slotDrop_eq i
  have small : setBit (s.slotAttr i) atValid false < 2 ^ 32 := lt_of_le_of_lt (Nat.sub_le _ _) (s.slotAttr_lt i)
  rw [State.slotValid, e]
  show bitN (((s.put (ksB + 8 * i) F.SLOT_GEN_GEN v).setAttr i (setBit (s.slotAttr i) atValid false)).slotAttr i) atValid = false
  rw [State.slotAttr_setAttr, Nat.mod_eq_of_lt small]
  exact bitN_setBit _ atValid false

/-- What the key store's own state keeps through invalidation and the flush: all but the recipes and what waits to be written. -/
def Ks.keeps (k : Ks) (u : State) : Prop := ∃ r b d, u.ks = { k with recipes := r, tamperDue := b, due := d }

theorem dropStable_ks (k : Ks) : DropStable k.keeps where
  drops u j h := by
    obtain ⟨r, b, d, e⟩ := h
    have shape : ∃ (f : List (Nat × Recipe) → List (Nat × Recipe)) (d : List Nat), (u.slotDrop j false).ks = { u.ks with recipes := f u.ks.recipes, due := d } := ⟨_, _, rfl⟩
    obtain ⟨f, d', shape⟩ := shape
    exact ⟨f r, b, d', by rw [shape, e]⟩
  names u f v _ h := by
    obtain ⟨r, b, d, e⟩ := h
    exact ⟨r, b, d, (State.put_ks _ _ _ _).trans e⟩
  event u j h := by
    obtain ⟨r, b, d, e⟩ := h
    exact ⟨r, b, d, (State.raise_ks _ _ _).trans e⟩
  stops u m h := h
  revokes u l h := by
    obtain ⟨r, b, d, e⟩ := h
    exact ⟨r, b, d, (State.revokePorts_ks _ _).trans e⟩
  refresh u h := by
    obtain ⟨r, b, d, e⟩ := h
    exact ⟨r, b, d, (State.slotsRefresh_ks _).trans e⟩

theorem flushStable_ks (k : Ks) : FlushStable k.keeps where
  stores _ _ h := h
  sets u f v _ h := by
    obtain ⟨r, b, d, e⟩ := h
    exact ⟨r, b, d, (State.put_ks _ _ _ _).trans e⟩
  event u j h := by
    obtain ⟨r, b, d, e⟩ := h
    exact ⟨r, b, d, (State.raise_ks _ _ _).trans e⟩
  shows u j c h := by
    obtain ⟨r, b, d, e⟩ := h
    exact ⟨r, b, d, (State.live_ks _ _ _ _).trans e⟩
  counts u h := by
    obtain ⟨r, b, d, e⟩ := h
    exact ⟨r, b, d, (Part.same_of_erase (p := .ks) (s := u) (t := u.cntRefresh) (m := 1) (by decide) (State.cntRefresh_er rfl)).trans e⟩
  marks u b d h := by
    obtain ⟨r, b', d', e⟩ := h
    exact ⟨r, b, d, by rw [State.modKs_ks, e]⟩
  history u v h := by
    obtain ⟨r, b, d, e⟩ := h
    exact ⟨r, b, d, (State.put_ks _ _ _ _).trans e⟩
  ticks _ h := h

/-- A slot that holds no valid key. -/
theorem dropStable_invalid (hi : i < 64) : DropStable fun u => u.slotValid i = false := by
  have word (u v : State) (e : v.rd (attrA i) = u.rd (attrA i)) (h : u.slotValid i = false) : v.slotValid i = false :=
    (State.slotValid_of_rd e).trans h
  refine ⟨fun u j h => ?_, fun u f v hf => word _ _ (State.rd_put_ne _ _ _ (by simp only [attrA]; omega)),
    fun u k => word _ _ (State.rd_raise_ne _ _ (by simp only [attrA]; omega)), fun u m h => h, fun u l => word _ _ ?_,
    fun u => word _ _ (State.rd_slotsRefresh _ (by simp only [attrA]; omega))⟩
  · by_cases e : j = i
    · rw [e]
      exact u.slotValid_slotDrop i
    · exact word _ _ (u.rd_slotDrop (by simp only [attrA]; omega) (by simp only [attrA]; omega)) h
  · have := u.rd_revokePorts l (k := 0x200 + 8 * i) ⟨by omega, by omega, by omega, by omega⟩
    rwa [← Nat.add_assoc] at this

/-- A word of the page that invalidation does not write. -/
theorem dropStable_word {k : Nat} (w : Word) (kept : ksKept k) (low : k < 0x200) (h : k ≠ 0x40 ∧ k ≠ 0x68) : DropStable fun u => u.rd (ksB + k) = w where
  drops u j e := (u.rd_slotDrop (by simp only [attrA]; omega) (by omega)).trans e
  names u f v hf e := (State.rd_put_ne _ _ _ (by omega)).trans e
  event u j e := (State.rd_raise_ne _ _ (by have := kept.2.1; omega)).trans e
  stops u m e := e
  revokes u l e := (u.rd_revokePorts l kept).trans e
  refresh u e := (State.rd_slotsRefresh _ (by omega)).trans e

/-- A word of the page that the flush does not write. -/
theorem flushStable_word {k : Nat} (w : Word) (low : k < 0x1000) (h : k ≠ 0x44 ∧ k ≠ 0x60 ∧ k ≠ 0x1C) : FlushStable fun u => u.rd (ksB + k) = w :=
  (nvStable_word (ksB + k) w (.inl (by simp only [ksB, nvB, gPage]; omega)) (by omega) (by omega)).flush
    (fun _ _ e h => (State.rd_of_regs e _).trans h) fun _ _ h => (State.rd_put_ne _ _ _ (by show _ ≠ ksB + 0x44; omega)).trans h

theorem rd_ksFlush (s : State) {k : Nat} (low : k < 0x1000) (h : k ≠ 0x44 ∧ k ≠ 0x60 ∧ k ≠ 0x1C) : s.ksFlush.rd (ksB + k) = s.rd (ksB + k) :=
  (flushStable_word (s.rd (ksB + k)) low h).flushes (s := s) rfl

theorem attr_ksFlush (s : State) (hi : i < 64) : s.ksFlush.rd (attrA i) = s.rd (attrA i) := by
  have := rd_ksFlush s (k := 0x200 + 8 * i) (by omega) ⟨by omega, by omega, by omega⟩
  rwa [← Nat.add_assoc] at this

theorem keeps_ksFlush (s : State) : s.ks.keeps s.ksFlush := (flushStable_ks s.ks).flushes (s := s) ⟨_, _, _, rfl⟩

theorem Ks.keeps.slotKey {k : Ks} {s t : State} (hs : s.ks = k) (h : k.keeps t) (i : Nat) : t.slotKey i = s.slotKey i := by
  obtain ⟨r, b, d, e⟩ := h
  rw [State.slotKey, State.slotKey, e, hs]

/-- An invalidated slot holds no valid key once its record is written. -/
theorem slotValid_invalidate (s : State) (hi : i < 64) : (s.invalidate i false).ksFlush.slotValid i = false :=
  (State.slotValid_of_rd (attr_ksFlush _ hi)).trans ((dropStable_invalid hi).invalidates (s.slotValid_slotDrop i))

end

end Sys2Proof.Machine
end

section
/-! Proofs about the key store (R428 to R436): the commands, and the statement on them. -/

set_option Elab.async false

namespace Sys2Proof.Machine

/-- A command has been written. -/
def State.ksAsked (s : State) (op : Nat) (v : Word) : State :=
  s.puts ksB [(F.CMD_OP, op), (F.CMD_SLOT, fldGet v 4 6), (F.CMD_PARENT, fldGet v 10 6), (F.KS_CMD_RES_DONE, 0)]

section
variable {s : State} {v : Word} {op : Nat}

theorem State.rd_ksAsked {a : Nat} (h : a ≠ ksB + 0x50) (g : a ≠ ksB + 0x5C) : (s.ksAsked op v).rd a = s.rd a := by
  rw [State.ksAsked, State.rd_puts_ne]
  simp only [List.forall_mem_cons]
  exact ⟨h, h, h, g, fun _ h => absurd h List.not_mem_nil⟩

theorem State.ksAsked_ks : (s.ksAsked op v).ks = s.ks := State.puts_ks _ _ _

theorem State.ksAsked_nv : (s.ksAsked op v).nv = s.nv := State.puts_nv _ _ _

theorem State.get_ksAsked (f : Fld) (h : f.off ≠ 0x50 ∧ f.off ≠ 0x5C) : (s.ksAsked op v).get ksB f = s.get ksB f :=
  State.get_of_rd (State.rd_ksAsked (by omega) (by omega))

theorem State.is_ksAsked (f : Fld) (h : f.off ≠ 0x50 ∧ f.off ≠ 0x5C) : (s.ksAsked op v).is ksB f = s.is ksB f :=
  congrArg (· != 0) (State.get_ksAsked f h)

theorem State.op_ksAsked : (s.ksAsked op v).get ksB F.CMD_OP = op % 2 ^ 4 := State.get_puts_first _ _ _ _ _ (by decide) rfl

theorem State.slot_ksAsked : (s.ksAsked op v).get ksB F.CMD_SLOT = fldGet v 4 6 :=
  (State.get_puts_next _ _ _ _ _ fun u => State.get_puts_first u _ _ _ _ (by decide) rfl).trans (Nat.mod_mod _ _)

theorem State.parent_ksAsked : (s.ksAsked op v).get ksB F.CMD_PARENT = fldGet v 10 6 :=
  (State.get_puts_next _ _ _ _ _ fun u => State.get_puts_next _ _ _ _ _ fun w =>
    State.get_puts_first w _ _ _ _ (by decide) rfl).trans (Nat.mod_mod _ _)

theorem State.tampered_ksAsked : (s.ksAsked op v).tampered = s.tampered := State.is_ksAsked _ (by decide)

theorem State.attr_ksAsked (i : Nat) : (s.ksAsked op v).rd (attrA i) = s.rd (attrA i) :=
  State.rd_ksAsked (by simp only [attrA]; omega) (by simp only [attrA]; omega)

theorem State.slotMay_ksAsked (i e : Nat) : (s.ksAsked op v).slotMay i e = s.slotMay i e := by
  have tampered := State.tampered_ksAsked (s := s) (op := op) (v := v)
  unfold State.tampered at tampered
  rw [State.slotMay, State.slotMay, State.slotAttr_of_rd (State.attr_ksAsked i), tampered]

theorem State.bytes_ksAsked {o : Nat} (n : Nat) (h : 0x60 ≤ o) : (s.ksAsked op v).ksBytes o n = s.ksBytes o n :=
  State.ksBytes_of_rd fun k _ => State.rd_ksAsked (by omega) (by omega)

theorem State.deviceId_ksAsked : (s.ksAsked op v).deviceId = s.deviceId := by
  have word (f : Fld) (h : f.off < 0x1000) : (s.ksAsked op v).get 0 f = s.get 0 f :=
    State.get_of_rd (State.rd_ksAsked (by simp only [ksB, gPage]; omega) (by simp only [ksB, gPage]; omega))
  rw [State.deviceId, State.deviceId, word _ (by decide), word _ (by decide)]

theorem State.inhibited_ksAsked : (s.ksAsked op v).inhibited = s.inhibited :=
  State.is_of_rd (State.rd_ksAsked (by decide) (by decide))

/-! Which command runs. -/

theorem State.ksCommand_busy (busy : s.is ksB F.KS_CMD_RES_BUSY = true) : s.ksCommand op v = s := if_pos busy

theorem State.ksCommand_idle (idle : s.is ksB F.KS_CMD_RES_BUSY = false) : s.ksCommand op v =
    if s.ks.rngBad && (op == 1 || op == 4) && !s.tampered then
      ((s.ksAsked op v).put ksB F.KS_CMD_RES_BUSY 1).modKs fun x => { x with waiting := some v }
    else (s.ksAsked op v).ksRun := by
  have shape : s.ksCommand op v = if s.is ksB F.KS_CMD_RES_BUSY = true then s
    else if (s.ksAsked op v).ks.rngBad && (op == 1 || op == 4) && !(s.ksAsked op v).tampered then
      ((s.ksAsked op v).put ksB F.KS_CMD_RES_BUSY 1).modKs fun x => { x with waiting := some v }
    else (s.ksAsked op v).ksRun := rfl
  rw [shape, if_neg (by rw [idle]; decide), State.ksAsked_ks, State.tampered_ksAsked]

theorem State.ksCommand_run (idle : s.is ksB F.KS_CMD_RES_BUSY = false)
    (runs : s.ks.rngBad = false ∨ s.tampered = true ∨ op = 2 ∨ op = 3) : s.ksCommand op v = (s.ksAsked op v).ksRun := by
  rw [State.ksCommand_idle idle, if_neg]
  rcases runs with h | h | h | h <;> simp [h]

theorem exec_ksDerive (idle : s.is ksB F.KS_CMD_RES_BUSY = false) (runs : s.ks.rngBad = false ∨ s.tampered = true) :
    exec (.ksDerive v) s = .next (s.ksAsked 1 v).derive := by
  refine congrArg Host.Outcome.next ((State.ksCommand_run idle (runs.imp_right .inl)).trans ?_)
  rw [State.ksRun, State.op_ksAsked]
  rfl

theorem exec_ksClear (idle : s.is ksB F.KS_CMD_RES_BUSY = false) : exec (.ksClear v) s = .next (s.ksAsked 2 v).clearSlot := by
  refine congrArg Host.Outcome.next ((State.ksCommand_run idle (.inr (.inr (.inl rfl)))).trans ?_)
  rw [State.ksRun, State.op_ksAsked]
  rfl

theorem exec_ksAttest (idle : s.is ksB F.KS_CMD_RES_BUSY = false) : exec (.ksAttest v) s = .next (s.ksAsked 3 v).attest := by
  refine congrArg Host.Outcome.next ((State.ksCommand_run idle (.inr (.inr (.inr rfl)))).trans ?_)
  rw [State.ksRun, State.op_ksAsked]
  rfl

theorem exec_ksUpdate (idle : s.is ksB F.KS_CMD_RES_BUSY = false) (runs : s.ks.rngBad = false) :
    exec (.ksUpdate v) s = .next (s.ksAsked 4 v).update := by
  refine congrArg Host.Outcome.next ((State.ksCommand_run idle (.inl runs)).trans ?_)
  rw [State.ksRun, State.op_ksAsked]
  rfl

/-- A command that ends at a check leaves the keys. -/
theorem does_ksRes {c : Instr} {code : Nat} (run : exec c s = .next ((s.ksAsked op v).ksRes code)) (small : code < 256) :
    Does c s fun t => t.get ksB F.KS_CMD_RES_CODE = code ∧ t.is ksB F.KS_CMD_RES_DONE = true ∧ t.ks = s.ks := by
  obtain ⟨shown, done, -⟩ := State.ksRes_shown (s.ksAsked op v) code
  exact Does.intro run ⟨shown.trans (Nat.mod_eq_of_lt (b := 2 ^ 8) small), done, (State.ksRes_ks _ _).trans State.ksAsked_ks⟩

/-! Checks. -/

theorem firstFail_pass {b : Bool} {n : Nat} {l : List (Nat × Bool)} (h : b = false) : firstFail ((n, b) :: l) = firstFail l := by
  rw [firstFail, h]
  rfl

theorem firstFail_stop {b : Bool} {n : Nat} {l : List (Nat × Bool)} (h : b = true) : firstFail ((n, b) :: l) = some n := by
  rw [firstFail, h]
  rfl

theorem tampered_derive (u : State) (h : u.tampered = true) : u.derive = u.ksRes kcTampered := by
  unfold State.derive
  dsimp only
  rw [firstFail_stop h]

theorem tampered_clearSlot (u : State) (h : u.tampered = true) : u.clearSlot = u.ksRes kcTampered := by
  unfold State.clearSlot
  dsimp only
  rw [firstFail_stop h]

theorem tampered_attest (u : State) (h : u.tampered = true) : u.attest = u.ksRes kcTampered := by
  unfold State.attest
  dsimp only
  rw [firstFail_stop h]

theorem does_tampered (idle : s.is ksB F.KS_CMD_RES_BUSY = false) (tampered : s.tampered = true) :
    (Does (.ksDerive v) s fun t => t.get ksB F.KS_CMD_RES_CODE = 0x43 ∧ t.is ksB F.KS_CMD_RES_DONE = true ∧ t.ks = s.ks) ∧
    (Does (.ksClear v) s fun t => t.get ksB F.KS_CMD_RES_CODE = 0x43 ∧ t.is ksB F.KS_CMD_RES_DONE = true ∧ t.ks = s.ks) ∧
    (Does (.ksAttest v) s fun t => t.get ksB F.KS_CMD_RES_CODE = 0x43 ∧ t.is ksB F.KS_CMD_RES_DONE = true ∧ t.ks = s.ks) :=
  ⟨does_ksRes ((exec_ksDerive idle (.inr tampered)).trans (congrArg _ (tampered_derive _ (State.tampered_ksAsked.trans tampered)))) (by decide),
    does_ksRes ((exec_ksClear idle).trans (congrArg _ (tampered_clearSlot _ (State.tampered_ksAsked.trans tampered)))) (by decide),
    does_ksRes ((exec_ksAttest idle).trans (congrArg _ (tampered_attest _ (State.tampered_ksAsked.trans tampered)))) (by decide)⟩

theorem does_ksDerive_waits (idle : s.is ksB F.KS_CMD_RES_BUSY = false) (untampered : s.tampered = false) (bad : s.ks.rngBad = true) :
    Does (.ksDerive v) s fun t => t.is ksB F.KS_CMD_RES_BUSY = true ∧ t.ks = { s.ks with waiting := some v } := by
  have run : exec (.ksDerive v) s = .next (s.ksCommand 1 v) := rfl
  rw [State.ksCommand_idle idle, if_pos (by rw [bad, untampered]; rfl)] at run
  refine Does.intro run ⟨?_, ?_⟩
  · rw [State.is_modKs]
    exact State.is_put_same _ _ _ _ (by decide)
  · rw [State.modKs_ks, State.put_ks, State.ksAsked_ks]

/-! CLEAR (R430). -/

theorem clearSlot_run {u : State} (untampered : u.tampered = false) (parent : bitN (u.slotAttr (u.get ksB F.CMD_SLOT)) atHasParent = true) :
    u.clearSlot = ((u.invalidate (u.get ksB F.CMD_SLOT) false).ksFlush).ksRes kcOk := by
  unfold State.clearSlot
  dsimp only
  rw [firstFail_pass untampered, firstFail_pass (by rw [parent]; rfl)]
  rfl

theorem clearSlot_refused {u : State} (untampered : u.tampered = false) (orphan : bitN (u.slotAttr (u.get ksB F.CMD_SLOT)) atHasParent = false) :
    u.clearSlot = u.ksRes kcBadSlot := by
  unfold State.clearSlot
  dsimp only
  rw [firstFail_pass untampered, firstFail_stop (by rw [orphan]; rfl)]

theorem fldGet_slot_lt (v : Word) : fldGet v 4 6 < 64 := Nat.mod_lt _ (by decide)

theorem does_ksClear (idle : s.is ksB F.KS_CMD_RES_BUSY = false) (untampered : s.tampered = false)
    (parent : bitN (s.slotAttr (fldGet v 4 6)) atHasParent = true) :
    Does (.ksClear v) s fun t => t.get ksB F.KS_CMD_RES_CODE = 0 ∧ t.slotValid (fldGet v 4 6) = false := by
  have attr := State.slotAttr_of_rd (State.attr_ksAsked (s := s) (op := 2) (v := v) (fldGet v 4 6))
  have run := exec_ksClear (v := v) idle
  rw [clearSlot_run (State.tampered_ksAsked.trans untampered) (by rw [State.slot_ksAsked, attr]; exact parent), State.slot_ksAsked] at run
  refine Does.intro run ⟨(State.ksRes_shown _ _).1, ?_⟩
  rw [State.slotValid_of_rd (State.rd_ksRes _ _ (by simp only [attrA]; omega) (by simp only [attrA]; omega))]
  exact slotValid_invalidate _ (fldGet_slot_lt v)

theorem does_ksClear_refused (idle : s.is ksB F.KS_CMD_RES_BUSY = false) (untampered : s.tampered = false)
    (orphan : bitN (s.slotAttr (fldGet v 4 6)) atHasParent = false) :
    Does (.ksClear v) s fun t => t.get ksB F.KS_CMD_RES_CODE = 0x40 ∧ t.ks = s.ks := by
  have attr := State.slotAttr_of_rd (State.attr_ksAsked (s := s) (op := 2) (v := v) (fldGet v 4 6))
  have run := exec_ksClear (v := v) idle
  rw [clearSlot_refused (State.tampered_ksAsked.trans untampered) (by rw [State.slot_ksAsked, attr]; exact orphan)] at run
  obtain ⟨t, e, code, -, ks⟩ := does_ksRes run (by decide)
  exact ⟨t, e, code, ks⟩

/-! ATTEST (R435). -/

theorem State.slotMay_untampered {i e : Nat} (may : s.slotMay i e = true) : s.tampered = false := by
  simp only [State.slotMay, Bool.and_eq_true, Bool.not_eq_true'] at may
  exact may.2

theorem attest_run {u : State} (may : u.slotMay (u.get ksB F.CMD_SLOT) 4 = true) : u.attest =
    (u.ksSetBytes 0x100 (slice (Config.hmacSha256 (u.slotKey (u.get ksB F.CMD_SLOT)) (u.attestMsg (u.get ksB F.CMD_SLOT))) 0 32)).ksRes kcOk := by
  unfold State.attest
  dsimp only
  rw [firstFail_pass (State.slotMay_untampered may), firstFail_pass (by rw [may]; rfl)]
  rfl

theorem attestMsg_ksAsked (i : Nat) : (s.ksAsked op v).attestMsg i = s.attestMsg i := by
  have gen : (s.ksAsked op v).slotGen i = s.slotGen i :=
    State.get_of_rd (State.rd_ksAsked (by show ksB + 8 * i + 0x204 ≠ _; omega) (by show ksB + 8 * i + 0x204 ≠ _; omega))
  rw [State.attestMsg, State.attestMsg, gen, State.get_ksAsked _ (by decide), State.get_ksAsked _ (by decide), State.get_ksAsked _ (by decide),
    State.bytes_ksAsked _ (by decide), State.deviceId_ksAsked, State.measAcc, State.measAcc, State.bytes_ksAsked _ (by decide)]

theorem does_ksAttest (idle : s.is ksB F.KS_CMD_RES_BUSY = false) (may : s.slotMay (fldGet v 4 6) 4 = true) :
    Does (.ksAttest v) s fun t => t.get ksB F.KS_CMD_RES_CODE = 0 ∧ t.ks = s.ks ∧
      t.ksBytes 0x100 32 = slice (Config.hmacSha256 (s.slotKey (fldGet v 4 6)) (s.attestMsg (fldGet v 4 6))) 0 32 := by
  have run := exec_ksAttest (v := v) idle
  rw [attest_run (by rw [State.slot_ksAsked, State.slotMay_ksAsked]; exact may), State.slot_ksAsked, attestMsg_ksAsked,
    State.slotKey_of_ks State.ksAsked_ks] at run
  refine Does.intro run ⟨(State.ksRes_shown _ _).1, ?_, ?_⟩
  · have windows (u : State) (o : Nat) (l : List Byte) : (u.ksSetBytes o l).ks = u.ks :=
      Part.same_of_erase (p := .ks) (s := u) (t := u.ksSetBytes o l) (m := 1) (by decide) (State.ksSetBytes_er rfl)
    rw [State.ksRes_ks, windows, State.ksAsked_ks]
  · rw [State.ksBytes_of_rd fun k hk => State.rd_ksRes _ _ (by omega) (by omega)]
    exact State.ksBytes_ksSetBytes _ _ 8 _ (length_slice _ _ _)

end

end Sys2Proof.Machine
end

section
/-! Proofs about the key store (R428, R429, R434): DERIVE and UPDATE, and the statement on the commands of the key store. -/

set_option Elab.async false

namespace Sys2Proof.Machine

/-! DERIVE (R428, R429). -/

/-- The ATTR word of a slot derived from slot `p`. -/
def derivedAttr (a p : Nat) : Nat := a + 2 ^ atHasParent + p * 2 ^ 13

theorem badAttr_lt {a : Nat} (h : badAttr a = false) : a < 2 ^ 11 := by
  simp only [badAttr, Bool.or_eq_false_iff, bne_eq_false_iff_eq] at h
  omega

theorem bitN_eq (x k : Nat) : bitN x k = decide (x / 2 ^ k % 2 = 1) := Nat.testBit_eq_decide_div_mod_eq

section
variable {a p : Nat}

theorem derivedAttr_valid (ha : a < 2 ^ 11) : bitN (derivedAttr a p) atValid = false := by
  rw [bitN_eq, derivedAttr, decide_eq_false_iff_not]
  simp only [atValid, atHasParent]
  omega

theorem derivedAttr_bootBound : bitN (derivedAttr a p) atBootBound = bitN a atBootBound := by
  rw [bitN_eq, bitN_eq, derivedAttr]
  have : (a + 2 ^ atHasParent + p * 2 ^ 13) / 2 ^ atBootBound % 2 = a / 2 ^ atBootBound % 2 := by
    simp only [atBootBound, atHasParent]
    omega
  rw [this]

theorem derivedAttr_parent (ha : a < 2 ^ 11) (hp : p < 64) : atParent (derivedAttr a p) = p := by
  simp only [atParent, derivedAttr, atHasParent]
  omega

theorem derivedAttr_lt (ha : a < 2 ^ 11) (hp : p < 64) : derivedAttr a p < 2 ^ 32 := by
  simp only [derivedAttr, atHasParent]
  omega

end

section
variable {s u : State} {i p a : Nat} {r : Recipe}

/-- A slot takes a derivation's attributes and recipe, without a key yet. -/
def State.recipeSet (u : State) (i p a : Nat) (r : Recipe) : State :=
  (u.setAttr i (derivedAttr a p)).modKs fun x => { x with recipes := (x.recipes.filter fun q => q.1 != i) ++ [(i, r)] }

/-- A slot takes the key that its recipe gives. -/
def State.derivedKey (u : State) (i : Nat) (r : Recipe) : State := u.setKey i (u.recipeKey i r)

/-- A slot becomes valid. -/
def State.validated (u : State) (i p : Nat) : State :=
  (u.setAttr i (setBit (u.slotAttr i) atValid true)).put (ksB + 8 * i) F.SLOT_GEN_PARENT_GEN
    ((u.setAttr i (setBit (u.slotAttr i) atValid true)).slotGen p)

/-- The state of a DERIVE whose checks pass, for a free slot. -/
def State.derived (u : State) (i p a : Nat) (r : Recipe) : State := ((u.recipeSet i p a r).derivedKey i r).validated i p

theorem derive_run (hi : u.get ksB F.CMD_SLOT = i) (hp : u.get ksB F.CMD_PARENT = p) (hattr : u.get ksB F.CMD_ATTR_WORD = a) (other : i ≠ p)
    (may : u.slotMay p atKdf = true) (free : u.slotValid i = false) (label : u.get ksB F.CMD_LEN_LABEL_LEN ≤ 32)
    (context : u.get ksB F.CMD_LEN_CTX_LEN ≤ 64) (good : badAttr a = false) (unbound : bitN a atBootBound = false) :
    u.derive = (((u.derived i p a ⟨u.ksBytes 0x80 (u.get ksB F.CMD_LEN_LABEL_LEN), u.ksBytes 0xA0 (u.get ksB F.CMD_LEN_CTX_LEN)⟩).ksDue
      i).ksFlush).ksRes kcOk := by
  have old : bitN (u.slotAttr i) atValid = false := free
  have slot : (i == p || (bitN (u.slotAttr i) atValid && !(bitN (u.slotAttr i) atHasParent && bitN (u.slotAttr i) atVolatile))) = false := by
    rw [old, beq_eq_false_iff_ne.2 other]
    rfl
  have lengths : (decide (32 < u.get ksB F.CMD_LEN_LABEL_LEN) || decide (64 < u.get ksB F.CMD_LEN_CTX_LEN)) = false := by
    rw [decide_eq_false (by omega), decide_eq_false (by omega)]
    rfl
  unfold State.derive
  dsimp only
  rw [hi, hp, hattr, firstFail_pass (State.slotMay_untampered may), firstFail_pass (by rw [may]; rfl), firstFail_pass slot,
    firstFail_pass (by simpa using lengths), firstFail_pass good, firstFail_pass (by rw [unbound]; rfl), firstFail]
  dsimp only
  rw [old, if_neg Bool.false_ne_true]
  rfl

/-- The recipe of a fresh derivation gives the key of R428. -/
theorem recipeKey_recipeSet (ha : a < 2 ^ 11) (hp : p < 64) (unbound : bitN a atBootBound = false) :
    (u.recipeSet i p a r).recipeKey i r = kdf (u.slotKey p) 1 (beBytes 4 (derivedAttr a p)) r.label r.context [] 256 := by
  have attr : (u.recipeSet i p a r).slotAttr i = derivedAttr a p :=
    (State.slotAttr_setAttr u i _).trans (Nat.mod_eq_of_lt (derivedAttr_lt ha hp))
  have key : (u.recipeSet i p a r).slotKey p = u.slotKey p := rfl
  unfold State.recipeKey
  dsimp only
  rw [attr, setBit_of_bitN_false (derivedAttr_valid ha), derivedAttr_parent ha hp, key, derivedAttr_bootBound, unbound,
    if_neg Bool.false_ne_true]

theorem slotKey_derived (i p a : Nat) (r : Recipe) :
    (u.derived i p a r).slotKey i = beBytes 32 (ofBe ((u.recipeSet i p a r).recipeKey i r) % 2 ^ 256) := by
  have key : (u.derived i p a r).slotKey i = ((u.recipeSet i p a r).derivedKey i r).slotKey i :=
    State.slotKey_of_ks ((State.put_ks _ _ _ _).trans (State.wr_ks _ _ _)) i
  rw [key, State.derivedKey, State.slotKey_setKey]

theorem slotValid_derived (i p a : Nat) (r : Recipe) : (u.derived i p a r).slotValid i = true := by
  unfold State.derived
  generalize (u.recipeSet i p a r).derivedKey i r = w
  have small : setBit (w.slotAttr i) atValid true < 2 ^ 32 := Nat.or_lt_two_pow (w.slotAttr_lt i) (by decide)
  rw [State.slotValid, State.validated, State.slotAttr_of_rd (State.rd_put_ne _ _ _ (by show attrA i ≠ ksB + 8 * i + 0x204; simp only [attrA]; omega)),
    State.slotAttr_setAttr, Nat.mod_eq_of_lt small]
  exact bitN_setBit _ atValid true

theorem ksDue_shape (u : State) (i : Nat) : ∃ d, u.ksDue i = u.modKs fun x => { x with due := d } := ⟨_, rfl⟩

/-- The records of a changed slot are written; the slot and its key stay. -/
theorem dueFlush_spec (u : State) (hi : i < 64) : ((u.ksDue i).ksFlush).slotValid i = u.slotValid i ∧ ((u.ksDue i).ksFlush).slotKey i = u.slotKey i := by
  obtain ⟨d, e⟩ := ksDue_shape u i
  rw [e]
  refine ⟨State.slotValid_of_rd ((attr_ksFlush _ hi).trans (State.rd_modKs _ _ _)), ?_⟩
  exact Ks.keeps.slotKey rfl (keeps_ksFlush _) i

end

section
variable {s : State} {v : Word}

theorem does_ksDerive {a : Nat} (idle : s.is ksB F.KS_CMD_RES_BUSY = false) (random : s.ks.rngBad = false)
    (hattr : s.get ksB F.CMD_ATTR_WORD = a) (other : fldGet v 4 6 ≠ fldGet v 10 6) (may : s.slotMay (fldGet v 10 6) atKdf = true)
    (free : s.slotValid (fldGet v 4 6) = false) (label : s.get ksB F.CMD_LEN_LABEL_LEN ≤ 32) (context : s.get ksB F.CMD_LEN_CTX_LEN ≤ 64)
    (good : badAttr a = false) (unbound : bitN a atBootBound = false) :
    Does (.ksDerive v) s fun t => t.get ksB F.KS_CMD_RES_CODE = 0 ∧ t.slotValid (fldGet v 4 6) = true ∧
      t.slotKey (fldGet v 4 6) = beBytes 32 (ofBe (kdf (s.slotKey (fldGet v 10 6)) 1 (beBytes 4 (a + 2 ^ atHasParent + fldGet v 10 6 * 2 ^ 13))
        (s.ksBytes 0x80 (s.get ksB F.CMD_LEN_LABEL_LEN)) (s.ksBytes 0xA0 (s.get ksB F.CMD_LEN_CTX_LEN)) [] 256) % 2 ^ 256) := by
  have hi := fldGet_slot_lt v
  have hp : fldGet v 10 6 < 64 := Nat.mod_lt _ (by decide)
  have run := exec_ksDerive (v := v) idle (.inl random)
  rw [derive_run State.slot_ksAsked State.parent_ksAsked ((State.get_ksAsked _ (by decide)).trans hattr) other
    (by rwa [State.slotMay_ksAsked]) (by rwa [State.slotValid_of_rd (State.attr_ksAsked _)]) (by rwa [State.get_ksAsked _ (by decide)])
    (by rwa [State.get_ksAsked _ (by decide)]) good unbound, State.get_ksAsked _ (by decide), State.get_ksAsked _ (by decide),
    State.bytes_ksAsked _ (by decide), State.bytes_ksAsked _ (by decide)] at run
  obtain ⟨valid, key⟩ := dueFlush_spec ((s.ksAsked 1 v).derived (fldGet v 4 6) (fldGet v 10 6) a
    ⟨s.ksBytes 0x80 (s.get ksB F.CMD_LEN_LABEL_LEN), s.ksBytes 0xA0 (s.get ksB F.CMD_LEN_CTX_LEN)⟩) hi
  refine Does.intro run ⟨(State.ksRes_shown _ _).1, ?_, ?_⟩
  · rw [State.slotValid_of_rd (State.rd_ksRes _ _ (by simp only [attrA]; omega) (by simp only [attrA]; omega)), valid]
    exact slotValid_derived _ _ _ _
  · rw [State.slotKey_of_ks (State.ksRes_ks _ _), key, slotKey_derived, recipeKey_recipeSet (badAttr_lt good) hp unbound,
      State.slotKey_of_ks State.ksAsked_ks]
    rfl

/-! UPDATE (R434). -/

/-- The checks of an update message, in their order. -/
def State.updateChecks (u : State) (m : List Byte) : List (Nat × Bool) :=
  let op := (m.getD 5 0).toNat
  let slot := (m.getD 6 0).toNat
  let attr := ofBe (slice m 20 4)
  let cnt := u.cntVal 0
  let badFormat := slice m 0 4 != magicKu || m.getD 4 0 != 0x01 || op == 0 || 4 < op || 63 < slot || m.getD 7 0 != 0
    || (3 ≤ op && (slice m 121 157).any (· != 0))
  let badSlot := (op == 1 && u.slotValid slot) || ((op == 2 || op == 3) && !u.slotValid slot)
  [(kcBadFormat, badFormat), (kcTampered, u.tampered), (kcInhibited, u.inhibited), (kcIdentity, slice m 8 8 != u.deviceId),
    (kcSigFail, Config.sha384 (slice m 24 97) != u.ksBytes 0x150 48
      || !Config.ecdsaVerify (slice m 24 97) (slice m 0 278) (slice m 278 96)),
    (kcSaturated, cnt == 0xFFFFFFFF), (kcCounter, ofBe (slice m 16 4) != cnt), (kcBadSlot, badSlot),
    (kcBadAttr, badAttr attr || bitN attr atBootBound), (kcUnwrap, op ≤ 2 && (u.unwrap m).isNone)]

theorem update_refused {u : State} {c : Nat} (fails : firstFail (u.updateChecks (u.ksBytes 0x400 374)) = some c) (hc : c ≠ kcSaturated) :
    u.update = (u.raise ksB 1).ksRes c := by
  unfold State.updateChecks at fails
  unfold State.update
  dsimp only at fails ⊢
  rw [fails]
  dsimp only
  rw [beq_eq_false_iff_ne.2 hc]
  rfl

theorem update_invalidates {u : State} (passes : firstFail (u.updateChecks (u.ksBytes 0x400 374)) = none)
    (op : (u.ksBytes 0x400 374).getD 5 0 = 3) : u.update =
      ((((u.cntStep 0).invalidate ((u.ksBytes 0x400 374).getD 6 0).toNat false).ksFlush).raise ksB 0).ksRes kcOk := by
  unfold State.updateChecks at passes
  unfold State.update
  dsimp only at passes ⊢
  rw [passes, op]
  rfl

/-- An update that ends at a check other than saturation leaves the keys. -/
theorem does_ksUpdate_refused {c : Nat} (idle : s.is ksB F.KS_CMD_RES_BUSY = false) (random : s.ks.rngBad = false)
    (fails : firstFail ((s.ksAsked 4 v).updateChecks (s.ksBytes 0x400 374)) = some c) (hc : c ≠ kcSaturated) (small : c < 256) :
    Does (.ksUpdate v) s fun t => t.get ksB F.KS_CMD_RES_CODE = c ∧ t.ks = s.ks := by
  have run := exec_ksUpdate (v := v) idle random
  rw [update_refused (by rwa [State.bytes_ksAsked _ (by decide)]) hc] at run
  refine Does.intro run ⟨(State.ksRes_shown _ _).1.trans (Nat.mod_eq_of_lt (b := 2 ^ 8) small), ?_⟩
  rw [State.ksRes_ks, State.raise_ks, State.ksAsked_ks]

theorem does_ksUpdate_magic (idle : s.is ksB F.KS_CMD_RES_BUSY = false) (random : s.ks.rngBad = false)
    (magic : slice (s.ksBytes 0x400 374) 0 4 ≠ magicKu) :
    Does (.ksUpdate v) s fun t => t.get ksB F.KS_CMD_RES_CODE = 0x41 ∧ t.ks = s.ks := by
  refine does_ksUpdate_refused idle random ?_ (by decide) (by decide)
  exact firstFail_stop (by simp [magic])

/-- The messages that invalidate a slot and pass every check but that of the signature. -/
structure State.Invalidates (s : State) (m : List Byte) : Prop where
  untampered : s.tampered = false
  writes : s.inhibited = false
  magic : slice m 0 4 = magicKu
  version : m.getD 4 0 = 0x01
  op : m.getD 5 0 = 3
  slot : (m.getD 6 0).toNat < 64
  reserved : m.getD 7 0 = 0
  unused : (slice m 121 157).any (· != 0) = false
  device : slice m 8 8 = s.deviceId
  counter : ofBe (slice m 16 4) = s.cntVal 0
  unsaturated : s.cntVal 0 ≠ 0xFFFFFFFF
  valid : s.slotValid (m.getD 6 0).toNat = true
  attr : badAttr (ofBe (slice m 20 4)) = false
  unbound : bitN (ofBe (slice m 20 4)) atBootBound = false

/-- The signature of a message is the owner's. -/
def State.signedRight (s : State) (m : List Byte) : Prop :=
  Config.sha384 (slice m 24 97) = s.ksBytes 0x150 48 ∧ Config.ecdsaVerify (slice m 24 97) (slice m 0 278) (slice m 278 96) = true

theorem State.Invalidates.checks {m : List Byte} (h : s.Invalidates m) : firstFail ((s.ksAsked 4 v).updateChecks m) =
    firstFail [(kcSigFail, Config.sha384 (slice m 24 97) != s.ksBytes 0x150 48
      || !Config.ecdsaVerify (slice m 24 97) (slice m 0 278) (slice m 278 96))] := by
  have three : (3 : Byte).toNat = 3 := rfl
  have slot : ¬ 63 < (m.getD 6 0).toNat := by have := h.slot; omega
  have valid : (s.ksAsked 4 v).slotValid (m.getD 6 0).toNat = true := (State.slotValid_of_rd (State.attr_ksAsked _)).trans h.valid
  have count : (s.ksAsked 4 v).cntVal 0 = s.cntVal 0 := State.cntVal_of_nv State.ksAsked_nv 0
  unfold State.updateChecks
  dsimp only
  rw [firstFail_pass (by rw [h.magic, h.version, h.op, h.reserved, h.unused, three, decide_eq_false slot]; rfl),
    firstFail_pass (State.tampered_ksAsked.trans h.untampered), firstFail_pass (State.inhibited_ksAsked.trans h.writes),
    firstFail_pass (by rw [State.deviceId_ksAsked, h.device]; exact bne_self_eq_false _), State.bytes_ksAsked _ (by decide)]
  cases sign : (Config.sha384 (slice m 24 97) != s.ksBytes 0x150 48 || !Config.ecdsaVerify (slice m 24 97) (slice m 0 278) (slice m 278 96)) with
  | true => rfl
  | false =>
    rw [firstFail_pass rfl, firstFail_pass (by rw [count]; exact beq_eq_false_iff_ne.2 h.unsaturated),
      firstFail_pass (by rw [count, h.counter]; exact bne_self_eq_false _), firstFail_pass (by rw [h.op, valid, three]; rfl),
      firstFail_pass (by rw [h.attr, h.unbound]; rfl), firstFail_pass (by rw [h.op, three]; rfl)]
    rfl

theorem does_ksUpdate_invalidates (idle : s.is ksB F.KS_CMD_RES_BUSY = false) (random : s.ks.rngBad = false)
    (h : s.Invalidates (s.ksBytes 0x400 374)) (sign : s.signedRight (s.ksBytes 0x400 374)) :
    Does (.ksUpdate v) s fun t => t.get ksB F.KS_CMD_RES_CODE = 0 ∧ t.slotValid ((s.ksBytes 0x400 374).getD 6 0).toNat = false := by
  have bytes := State.bytes_ksAsked (s := s) (op := 4) (v := v) 374 (show 0x60 ≤ 0x400 by decide)
  have passes : firstFail ((s.ksAsked 4 v).updateChecks (s.ksBytes 0x400 374)) = none := by
    rw [h.checks, firstFail_pass (by rw [sign.1, sign.2, bne_self_eq_false]; rfl)]
    rfl
  have run := exec_ksUpdate (v := v) idle random
  rw [update_invalidates (by rwa [bytes]) (by rw [bytes]; exact h.op), bytes] at run
  refine Does.intro run ⟨(State.ksRes_shown _ _).1, ?_⟩
  rw [State.slotValid_of_rd (State.rd_ksRes _ _ (by simp only [attrA]; omega) (by simp only [attrA]; omega)),
    State.slotValid_of_rd (State.rd_raise_ne _ _ (by simp only [attrA]; omega))]
  exact slotValid_invalidate _ h.slot

theorem does_ksUpdate_forged (idle : s.is ksB F.KS_CMD_RES_BUSY = false) (random : s.ks.rngBad = false)
    (h : s.Invalidates (s.ksBytes 0x400 374)) (forged : ¬ s.signedRight (s.ksBytes 0x400 374)) :
    Does (.ksUpdate v) s fun t => t.get ksB F.KS_CMD_RES_CODE = 0x44 ∧ t.ks = s.ks := by
  refine does_ksUpdate_refused idle random (h.checks.trans (firstFail_stop ?_)) (by decide) (by decide)
  rw [Bool.or_eq_true, bne_iff_ne, Bool.not_eq_true', ← Bool.not_eq_true]
  exact not_and_or.1 forged

end

end Sys2Proof.Machine

namespace Sys2Proof
open Sys2Proof.Machine

/-- Settles O37: each command ends at its first failing check, or changes its slot; the records written for it leave the slot. -/
theorem keyStoreCommands : Obligations.KeyStoreCommands := by
  refine ⟨fun v s busy => ?_, fun v s idle tampered => does_tampered idle tampered,
    fun v s idle untampered bad => does_ksDerive_waits idle untampered bad,
    fun v i p a s idle untampered random hi hp hattr other may free label context good unbound => ?_,
    fun v i s idle untampered hi parent => ?_, fun v i s idle untampered hi orphan => ?_, fun v i s idle hi may => ?_,
    fun v s idle random magic => does_ksUpdate_magic idle random magic,
    fun v m slot s idle random untampered writes hm magic version op hslot small reserved unused device counter unsaturated valid attr unbound => ?_⟩
  · have same (op : Nat) : Host.Outcome.next (s.ksCommand op v) = (.next s : Host.Outcome State Fault Refusal) :=
      congrArg Host.Outcome.next (State.ksCommand_busy busy)
    exact ⟨same 1, same 2, same 3, same 4⟩
  · subst hi hp
    exact does_ksDerive idle random hattr other may free label context good unbound
  · subst hi
    exact does_ksClear idle untampered parent
  · subst hi
    exact does_ksClear_refused idle untampered orphan
  · subst hi
    exact does_ksAttest idle may
  · subst hm hslot
    have h : s.Invalidates (s.ksBytes 0x400 374) :=
      ⟨untampered, writes, magic, version, op, small, reserved, unused, device, counter, unsaturated, valid, attr, unbound⟩
    by_cases sign : s.signedRight (s.ksBytes 0x400 374)
    · obtain ⟨t, e, code, gone⟩ := does_ksUpdate_invalidates (v := v) idle random h sign
      exact ⟨t, e, Eq.mpr (if_pos sign) ⟨code, gone⟩⟩
    · obtain ⟨t, e, code, ks⟩ := does_ksUpdate_forged (v := v) idle random h sign
      exact ⟨t, e, Eq.mpr (if_neg sign) ⟨code, ks⟩⟩

end Sys2Proof
end

section
/-! Proofs about the key store (R423 to R427, R437): measurement, masks, entropy, faults, tampering and start-up, and the statement on
them. -/

set_option Elab.async false

namespace Sys2Proof.Machine

section
variable {s u : State}

/-! The accumulator (R427). -/

theorem State.ksSetBytes_ks (u : State) (o : Nat) (l : List Byte) : (u.ksSetBytes o l).ks = u.ks :=
  Part.same_of_erase (p := .ks) (s := u) (t := u.ksSetBytes o l) (m := 1) (by decide) (State.ksSetBytes_er rfl)

/-- The derivation of waiting recipes writes the attributes of slots only. -/
theorem State.rd_deriveRecipes (n : Nat) (u : State) (b : Bool) {a : Nat} (h : a < ksB + 0x200) : (State.deriveRecipes n u b).rd a = u.rd a := by
  induction n generalizing u with
  | zero => rfl
  | succ n ih =>
    unfold State.deriveRecipes
    dsimp only
    split
    · rfl
    · rw [ih, State.rd_setAttr_ne _ _ (by simp only [attrA]; omega), State.rd_of_regs (State.setKey_regs _ _ _)]

/-- The digest has entered the accumulator, and a stage is counted. -/
def State.digested (s : State) (d : List Byte) : State :=
  (s.ksSetBytes 0x120 (slice (Config.sha384 (s.measAcc ++ d)) 0 48)).put ksB F.MEAS_STAGES_STAGES
    ((s.ksSetBytes 0x120 (slice (Config.sha384 (s.measAcc ++ d)) 0 48)).get ksB F.MEAS_STAGES_STAGES + 1)

/-- The measurement is final: what has waited for it is derived. -/
def State.measureEnd (s : State) : State := (State.deriveRecipes 64 (s.put ksB F.MEAS_STAGES_FINAL 1) true).slotsRefresh

theorem State.extend_eq (s : State) (d : List Byte) (final : Bool) : s.extend d final =
    if d.length != 48 || s.is ksB F.MEAS_STAGES_FINAL || s.tampered then s
    else if final then (s.digested d).measureEnd else s.digested d := rfl

theorem State.extend_final {d : List Byte} {final : Bool} (h : s.is ksB F.MEAS_STAGES_FINAL = true) : s.extend d final = s := by
  rw [State.extend_eq, h, if_pos]
  simp

theorem State.extend_tampered {d : List Byte} {final : Bool} (h : s.tampered = true) : s.extend d final = s := by
  rw [State.extend_eq, h, if_pos]
  simp

theorem rd_digested (d : List Byte) {a : Nat} (h : a ≠ ksB + 0x64) (g : a < ksB + 0x120 ∨ ksB + 0x150 ≤ a) : (s.digested d).rd a = s.rd a := by
  rw [State.digested, State.rd_put_ne _ _ _ h, State.rd_ksSetBytes _ _ (by rw [length_slice]; omega)]

theorem measAcc_digested (s : State) (d : List Byte) : (s.digested d).measAcc = slice (Config.sha384 (s.measAcc ++ d)) 0 48 := by
  rw [State.measAcc, State.digested, State.ksBytes_of_rd fun k hk => State.rd_put_ne _ _ _ (by show ksB + 0x120 + k ≠ ksB + 0x64; omega)]
  exact State.ksBytes_ksSetBytes _ _ 12 _ (length_slice _ _ _)

theorem get_digested (s : State) (d : List Byte) : (s.digested d).get ksB F.MEAS_STAGES_STAGES = (s.get ksB F.MEAS_STAGES_STAGES + 1) % 256 ∧
    (s.digested d).is ksB F.MEAS_STAGES_FINAL = s.is ksB F.MEAS_STAGES_FINAL := by
  have kept (f : Fld) (h : f.off = 0x64) : (s.ksSetBytes 0x120 (slice (Config.sha384 (s.measAcc ++ d)) 0 48)).get ksB f = s.get ksB f :=
    State.get_of_rd (State.rd_ksSetBytes _ _ (by omega))
  refine ⟨?_, ?_⟩
  · rw [State.digested, State.get_put_same _ _ _ _ (by decide), kept _ rfl]
    rfl
  · rw [State.is, State.digested, State.get_put_of_apart _ _ _ _ _ rfl, kept _ rfl, State.is]

theorem rd_measureEnd {a : Nat} (h : a < ksB + 0x200) (g : a ≠ ksB + 0x40) (f : a ≠ ksB + 0x64) : s.measureEnd.rd a = s.rd a := by
  rw [State.measureEnd, State.rd_slotsRefresh _ g, State.rd_deriveRecipes _ _ _ h, State.rd_put_ne _ _ _ f]

theorem get_measureEnd (s : State) : s.measureEnd.get ksB F.MEAS_STAGES_STAGES = s.get ksB F.MEAS_STAGES_STAGES ∧
    s.measureEnd.is ksB F.MEAS_STAGES_FINAL = true := by
  have kept (f : Fld) (h : f.off = 0x64) (v : State) : (State.deriveRecipes 64 v true).slotsRefresh.get ksB f = v.get ksB f :=
    State.get_of_rd ((State.rd_slotsRefresh _ (by omega)).trans (State.rd_deriveRecipes _ _ _ (by omega)))
  refine ⟨?_, ?_⟩
  · rw [State.measureEnd, kept _ rfl, State.get_put_of_apart _ _ _ _ _ rfl]
  · rw [State.is, State.measureEnd, kept _ rfl]
    exact State.is_put_same _ _ _ _ (by decide)

theorem exec_measExtend (d : List Byte) (final : Bool) (s : State) : exec (.measExtend d final) s = .next
    (if s.is ksB F.KS_CMD_RES_BUSY then s.modKs fun x => { x with queue := x.queue ++ [(d, final)] } else s.extend d final) := rfl

theorem does_measExtend {d : List Byte} {final : Bool} (len : d.length = 48) (idle : s.is ksB F.KS_CMD_RES_BUSY = false)
    (open' : s.is ksB F.MEAS_STAGES_FINAL = false) (untampered : s.tampered = false) :
    Does (.measExtend d final) s fun t => t.measAcc = slice (Config.sha384 (s.measAcc ++ d)) 0 48 ∧
      t.get ksB F.MEAS_STAGES_STAGES = (s.get ksB F.MEAS_STAGES_STAGES + 1) % 256 ∧ t.is ksB F.MEAS_STAGES_FINAL = final := by
  have run := exec_measExtend d final s
  rw [idle, if_neg Bool.false_ne_true, State.extend_eq, open', untampered, len, if_neg (by decide)] at run
  obtain ⟨stages, flag⟩ := get_digested s d
  cases final with
  | false =>
    rw [if_neg Bool.false_ne_true] at run
    exact Does.intro run ⟨measAcc_digested s d, stages, flag.trans open'⟩
  | true =>
    rw [if_pos rfl] at run
    obtain ⟨same, ended⟩ := get_measureEnd (s.digested d)
    refine Does.intro run ⟨?_, same.trans stages, ended⟩
    rw [State.measAcc, State.ksBytes_of_rd fun k hk => rd_measureEnd (by omega) (by omega) (by omega)]
    exact measAcc_digested s d

/-! Masks and entropy (R423). -/

theorem State.slotKey_lt (s : State) (i : Nat) : beBytes 32 (ofBe (s.slotKey i) % 2 ^ 256) = s.slotKey i := by
  rw [State.slotKey, ofBe_beBytes, Nat.mod_eq_of_lt (b := 256 ^ 32), Nat.mod_eq_of_lt]
  · exact BitVec.isLt _
  · exact lt_of_lt_of_le (BitVec.isLt _) (by decide)

/-- Masks drawn again leave every key. -/
theorem slotKey_remask (l : List Nat) (i : Nat) : (s.forAll l fun j t => t.setKey j (t.slotKey j)).slotKey i = s.slotKey i := by
  refine State.forAll_keeps (P := fun u => u.slotKey i = s.slotKey i) (fun j _ u t e h => ?_) rfl
  subst e
  by_cases hj : i = j
  · subst hj
    rw [State.slotKey_setKey, State.slotKey_lt, h]
  · rw [State.slotKey_setKey_ne _ _ hj, h]

theorem does_remask {i : Nat} (random : s.ks.rngBad = false) : Does .remask s fun t => t.slotKey i = s.slotKey i ∧ t.regs = s.regs := by
  have run : exec .remask s = .next (s.forAll (List.range 64) fun j t => t.setKey j (t.slotKey j)) :=
    congrArg Host.Outcome.next (if_neg (by rw [random]; exact Bool.false_ne_true))
  refine Does.intro run ⟨slotKey_remask _ _, ?_⟩
  exact State.forAll_keeps (P := fun u => u.regs = s.regs) (fun j _ u t e h => by rw [e, State.setKey_regs, h]) rfl

theorem does_rngFault : Does .rngFault s fun t => t.ks = { s.ks with rngBad := true } ∧ t.get ksB ⟨0x1C, 6, 1⟩ = 1 := by
  refine Does.intro (t := ((s.modKs fun x => { x with rngBad := true }).raise ksB 6).live ksB 6 true) rfl ⟨?_, State.get_put_same _ _ _ _ (by decide)⟩
  rw [State.live_ks, State.raise_ks, State.modKs_ks]

/-- The entropy source is back. -/
def State.rngBack (s : State) : State := (s.modKs fun x => { x with rngBad := false }).live ksB 6 false

theorem State.rngBack_ks (s : State) : s.rngBack.ks = { s.ks with rngBad := false } := by rw [State.rngBack, State.live_ks, State.modKs_ks]

theorem exec_rngRecover (s : State) : exec .rngRecover s = .next
    (if s.ks.waiting.isSome then ((s.rngBack.modKs fun x => { x with waiting := none }).ksRun).runQueue else s.rngBack) := by
  have run : exec .rngRecover s = .next
    (if s.rngBack.ks.waiting.isSome then ((s.rngBack.modKs fun x => { x with waiting := none }).ksRun).runQueue else s.rngBack) := rfl
  rwa [State.rngBack_ks] at run

theorem does_rngRecover_idle (none : s.ks.waiting = none) :
    Does .rngRecover s fun t => t.ks = { s.ks with rngBad := false } ∧ t.get ksB ⟨0x1C, 6, 1⟩ = 0 := by
  have run := exec_rngRecover s
  rw [none, Option.isSome_none, if_neg Bool.false_ne_true] at run
  exact Does.intro run ⟨s.rngBack_ks, State.get_put_same _ _ _ _ (by decide)⟩

/-! A command runs to its end. -/

/-- The entropy source works, and no command waits. -/
def State.calm (s : State) : Prop := s.ks.rngBad = false ∧ s.ks.waiting = none

theorem calm_of_ks (e : u.ks = s.ks) (h : s.calm) : u.calm := by rwa [State.calm, e]

theorem calm_of_keeps (e : s.ks.keeps u) (h : s.calm) : u.calm := by
  obtain ⟨r, b, d, e⟩ := e
  rw [State.calm, e]
  exact h

theorem keeps_slotDrop (s : State) (i : Nat) (replace : Bool) : s.ks.keeps (s.slotDrop i replace) := by
  cases replace <;> exact ⟨_, _, _, rfl⟩

theorem calm_invalidate (i : Nat) (replace : Bool) (h : s.calm) : (s.invalidate i replace).calm :=
  calm_of_keeps ((dropStable_ks s.ks).invalidates (keeps_slotDrop s i replace)) h

theorem calm_ksFlush (h : s.calm) : s.ksFlush.calm := calm_of_keeps (keeps_ksFlush s) h

theorem calm_ite {c : Prop} [Decidable c] (hs : s.calm) (hu : u.calm) : (if c then s else u).calm := by split <;> assumption

/-- A command that has run shows a result, and leaves no command waiting. -/
def State.ends (s t : State) : Prop := ∃ u c, t = State.ksRes u c ∧ (s.calm → u.calm)

theorem ends_derive (s : State) : s.ends s.derive := by
  unfold State.derive
  dsimp only
  split
  next c _ => exact ⟨s, c, rfl, id⟩
  next => exact ⟨_, kcOk, rfl, fun h => calm_ksFlush (calm_ite (calm_invalidate _ _ h) h)⟩

theorem ends_clearSlot (s : State) : s.ends s.clearSlot := by
  unfold State.clearSlot
  dsimp only
  split
  next c _ => exact ⟨s, c, rfl, id⟩
  next => exact ⟨_, kcOk, rfl, fun h => calm_ksFlush (calm_invalidate _ _ h)⟩

theorem ends_attest (s : State) : s.ends s.attest := by
  unfold State.attest
  dsimp only
  split
  next c _ => exact ⟨s, c, rfl, id⟩
  next => exact ⟨_, kcOk, rfl, fun h => calm_of_ks (State.ksSetBytes_ks _ _ _) h⟩

theorem ks_cntStep (u : State) (i : Nat) : (u.cntStep i).ks = u.ks :=
  Part.same_of_erase (p := .ks) (s := u) (t := u.cntStep i) (m := 262145) (by decide) (State.cntStep_er rfl)

theorem ks_sealCommit (u : State) (l : List GRec) : (u.sealCommit l).ks = u.ks :=
  Part.same_of_erase (p := .ks) (s := u) (t := u.sealCommit l) (m := 262161) (by decide) (State.sealCommit_er rfl)

theorem ks_critPair (u : State) (k : Nat) (b : Bool) (d : List Byte) : (u.critPair k b d).1.ks = u.ks :=
  Part.same_of_erase (p := .ks) (s := u) (t := (u.critPair k b d).1) (m := 1) (by decide) (State.critPair_er rfl)

theorem ends_update (s : State) : s.ends s.update := by
  unfold State.update
  dsimp only
  split
  next c _ => exact ⟨_, c, rfl, fun h => calm_of_ks ((State.raiseIf_ks _ _ _ _).trans (State.raise_ks _ _ _)) h⟩
  next =>
    refine ⟨_, kcOk, rfl, fun h => calm_of_ks (State.raise_ks _ _ _) (calm_ksFlush ?_)⟩
    have counted : (s.cntStep 0).calm := calm_of_ks (ks_cntStep _ _) h
    refine calm_ite counted (calm_ite (calm_invalidate _ _ counted) (calm_ite (calm_invalidate _ _ counted) ?_))
    refine calm_of_ks (State.put_ks _ _ _ _) (calm_ite ?_ counted)
    exact calm_of_ks ((ks_sealCommit _ _).trans (ks_critPair _ _ _ _)) counted

theorem ends_ksRun (s : State) : s.ends s.ksRun := by
  unfold State.ksRun
  dsimp only
  split
  · exact ends_derive s
  · split
    · exact ends_clearSlot s
    · split
      · exact ends_attest s
      · exact ends_update s

end

end Sys2Proof.Machine
end

section
/-! Proofs about the key store (R423, R424, R426): a command that has waited for the entropy source, uncorrectable words, and start-up. -/

set_option Elab.async false

namespace Sys2Proof.Machine

section
variable {s u : State}

/-! What has waited runs. -/

theorem calm_deriveRecipes (n : Nat) (b : Bool) (h : s.calm) : (State.deriveRecipes n s b).calm := by
  induction n generalizing s with
  | zero => exact h
  | succ n ih =>
    unfold State.deriveRecipes
    dsimp only
    split
    · exact h
    · exact ih h

theorem calm_digested (d : List Byte) (h : s.calm) : (s.digested d).calm :=
  calm_of_ks ((State.put_ks _ _ _ _).trans (State.ksSetBytes_ks _ _ _)) h

theorem calm_extend (d : List Byte) (final : Bool) (h : s.calm) : (s.extend d final).calm := by
  rw [State.extend_eq]
  split
  · exact h
  · split
    · exact calm_of_ks (State.slotsRefresh_ks _) (calm_deriveRecipes _ _ (calm_of_ks (State.put_ks _ _ _ _) (calm_digested d h)))
    · exact calm_digested d h

/-- An extend of the accumulator leaves the shown result. -/
theorem rd_extend (s : State) (d : List Byte) (final : Bool) : (s.extend d final).rd (ksB + 0x5C) = s.rd (ksB + 0x5C) := by
  have digested : (s.digested d).rd (ksB + 0x5C) = s.rd (ksB + 0x5C) := rd_digested d (by decide) (.inl (by decide))
  rw [State.extend_eq]
  split
  · rfl
  · split
    · rw [rd_measureEnd (by decide) (by decide) (by decide), digested]
    · exact digested

theorem runQueue_keeps {P : State → Prop} (stores : ∀ (u : State) q, P u → P (u.modKs fun x => { x with queue := q }))
    (extends' : ∀ u d final, P u → P (u.extend d final)) (h : P s) : P s.runQueue :=
  State.foldl_keeps (fun p _ v _ e hv => e ▸ extends' v p.1 p.2 hv) (stores s [] h)

theorem does_rngRecover {v : Word} (waits : s.ks.waiting = some v) :
    Does .rngRecover s fun t => t.ks.rngBad = false ∧ t.ks.waiting = none ∧ t.is ksB F.KS_CMD_RES_BUSY = false := by
  have run := exec_rngRecover s
  rw [waits, Option.isSome_some, if_pos rfl] at run
  have calm : (s.rngBack.modKs fun x => { x with waiting := none }).calm := by
    rw [State.calm, State.modKs_ks, State.rngBack_ks]
    exact ⟨rfl, rfl⟩
  obtain ⟨u, c, e, kept⟩ := ends_ksRun (s.rngBack.modKs fun x => { x with waiting := none })
  rw [e] at run
  have ran : (u.ksRes c).calm := calm_of_ks (u.ksRes_ks c) (kept calm)
  obtain ⟨random, idle⟩ := runQueue_keeps (P := State.calm) (fun _ _ h => h) (fun _ d final h => calm_extend d final h) ran
  refine Does.intro run ⟨random, idle, ?_⟩
  have shown : (u.ksRes c).runQueue.rd (ksB + 0x5C) = (u.ksRes c).rd (ksB + 0x5C) :=
    runQueue_keeps (P := fun w => w.rd (ksB + 0x5C) = (u.ksRes c).rd (ksB + 0x5C)) (fun _ _ h => h)
      (fun w d final h => (rd_extend w d final).trans h) rfl
  exact (State.is_of_rd shown).trans (u.ksRes_shown c).2.2

/-! Uncorrectable words (R424). -/

/-- An uncorrectable word of an array is recorded. -/
def State.ksHit (s : State) (array i : Nat) : State := ((s.setFault ksB array i).put ksB F.KS_LAST_SLOT i).raise ksB 7

theorem is_ksHit (s : State) (array i : Nat) : (s.ksHit array i).is ksB F.STAT_FAULT = true := by
  rw [State.ksHit, State.is_of_rd (State.rd_raise_ne _ _ (by decide)), State.is_of_rd (State.rd_put_ne _ _ _ (by decide))]
  exact State.is_setFault s ksB array i

/-- The fault of a slot's word is kept while the slot is invalidated. -/
theorem is_invalidate_ksHit (s : State) (array i : Nat) : ((s.ksHit array i).invalidate i false).ksFlush.is ksB F.STAT_FAULT = true := by
  have dropped : ((s.ksHit array i).invalidate i false).rd (ksB + 0xC) = (s.ksHit array i).rd (ksB + 0xC) :=
    (dropStable_word _ ⟨by decide, by decide, by decide, by decide⟩ (by decide) ⟨by decide, by decide⟩).invalidates
      (State.rd_slotDrop _ (by simp only [attrA]; omega) (by omega))
  rw [State.is_of_rd (rd_ksFlush _ (by decide) ⟨by decide, by decide, by decide⟩), State.is_of_rd dropped]
  exact is_ksHit s array i

theorem does_ksFault_value (i : Fin 64) : Does (.ksFault (.value i)) s fun t => t.slotValid i = false ∧ t.is ksB F.STAT_FAULT = true := by
  have run : exec (.ksFault (.value i)) s = .next ((s.ksHit 0 i.val).invalidate i.val false).ksFlush := rfl
  exact Does.intro run ⟨slotValid_invalidate _ i.isLt, is_invalidate_ksHit s 0 i⟩

theorem does_ksFault_attr (i : Fin 64) : Does (.ksFault (.attr i)) s fun t => t.slotValid i = false ∧ t.is ksB F.STAT_FAULT = true := by
  have run : exec (.ksFault (.attr i)) s = .next ((s.ksHit 1 i.val).invalidate i.val false).ksFlush := rfl
  exact Does.intro run ⟨slotValid_invalidate _ i.isLt, is_invalidate_ksHit s 1 i⟩

theorem rd_ksHit (s : State) (array i : Nat) {a : Nat} (h : a < ksB) : (s.ksHit array i).rd a = s.rd a := by
  rw [State.ksHit, State.rd_raise_ne _ _ (by omega), State.rd_put_ne _ _ _ (by show a ≠ ksB + 0x68; omega), State.setFault,
    State.rd_put_ne _ _ _ (by show a ≠ ksB + 0xC; omega), State.rd_wr_ne _ _ (by omega)]

/-- The roots derived from the part's identity. -/
theorem deriveRoots_shape (s : State) : ∃ (d : List Byte) (l : List Byte), s.deriveRoots =
    (s.modKs fun x => { x with kSeal := kdf Config.otpSecret 1 [] lblSeal s.deviceId [] 256, dDev := d }).ksSetBytes 0x180 l := ⟨_, _, rfl⟩

theorem does_ksFault_root (i : Fin 64) (untampered : s.tampered = false) : Does (.ksFault (.root i)) s fun t =>
    t.ks.kSeal = kdf Config.otpSecret 1 [] lblSeal s.deviceId [] 256 ∧ t.is ksB F.STAT_FAULT = true := by
  have run : exec (.ksFault (.root i)) s = .next (if s.tampered then s.ksHit 2 i.val else (s.ksHit 2 i.val).deriveRoots) := rfl
  have device : (s.ksHit 2 i.val).deviceId = s.deviceId := by
    rw [State.deviceId, State.deviceId, State.get_of_rd (rd_ksHit _ _ _ (by decide)), State.get_of_rd (rd_ksHit _ _ _ (by decide))]
  rw [untampered, if_neg Bool.false_ne_true] at run
  obtain ⟨d, l, e⟩ := deriveRoots_shape (s.ksHit 2 i.val)
  rw [e, device] at run
  refine Does.intro run ⟨?_, ?_⟩
  · rw [State.ksSetBytes_ks, State.modKs_ks]
  · exact (State.is_of_rd (State.rd_ksSetBytes _ _ (.inl (by decide)))).trans (is_ksHit s 2 i)

/-! Start-up (R426). -/

theorem exec_ksStartup (s : State) : exec .ksStartup s = .next (if s.is ksB F.KS_STAT_READY || s.tampered then s else s.ksStart) := rfl

theorem does_ksStartup (unready : s.is ksB F.KS_STAT_READY = false) (untampered : s.tampered = false) :
    Does .ksStartup s fun t => t.is ksB F.KS_STAT_READY = true := by
  have run := exec_ksStartup s
  rw [unready, untampered, Bool.or_false, if_neg Bool.false_ne_true] at run
  obtain ⟨u, e⟩ : ∃ u : State, s.ksStart = (u.put ksB F.KS_STAT_READY 1).slotsRefresh := ⟨_, rfl⟩
  rw [e] at run
  refine Does.intro run ?_
  rw [State.is, State.slotsRefresh, State.get_put_of_apart _ _ _ _ _ rfl]
  exact State.is_put_same _ _ _ _ (by decide)

end

end Sys2Proof.Machine
end

section
/-! Proofs about the key store (R437): tampering, and the statement on the key store's events. -/

set_option Elab.async false

namespace Sys2Proof.Machine

section
variable {s u v : State} {c : Nat}

/-! A wiped store. -/

/-- Every slot and every root is cleared, and the store shows that it has been tampered with and why. -/
def State.wiped (c : Nat) (u : State) : Prop := (∀ i, i < 64 → u.rd (attrA i) = 0) ∧ u.tampered = true ∧
  u.get ksB F.KS_TAMPER_CAUSE = c ∧ u.ks.masked = [] ∧ u.ks.kSeal = [] ∧ u.ks.dDev = []

/-- The words of the page that show a wiped store. -/
def wipedWord (k : Nat) : Prop := k = 0x40 ∨ k = 0x44 ∨ 0x200 ≤ k ∧ k < 0x400

theorem wiped_of_same (words : ∀ k, wipedWord k → v.rd (ksB + k) = u.rd (ksB + k)) (ks : v.ks = u.ks) (h : u.wiped c) : v.wiped c := by
  obtain ⟨attrs, tampered, cause, masked, kSeal, dDev⟩ := h
  refine ⟨fun i hi => ?_, ?_, ?_, ks ▸ masked, ks ▸ kSeal, ks ▸ dDev⟩
  · have := words (0x200 + 8 * i) (.inr (.inr ⟨by omega, by omega⟩))
    rw [← Nat.add_assoc] at this
    exact this.trans (attrs i hi)
  · exact (State.is_of_rd (words 0x40 (.inl rfl))).trans tampered
  · exact (State.get_of_rd (words 0x44 (.inr (.inl rfl)))).trans cause

theorem wiped_raise (k : Nat) (h : u.wiped c) : (u.raise ksB k).wiped c :=
  wiped_of_same (fun j hj => State.rd_raise_ne _ _ (by unfold wipedWord at hj; omega)) (State.raise_ks _ _ _) h

theorem wiped_live (k : Nat) (b : Bool) (h : u.wiped c) : (u.live ksB k b).wiped c :=
  wiped_of_same (fun j hj => State.rd_live_ne _ _ _ (by unfold wipedWord at hj; omega)) (State.live_ks _ _ _ _) h

theorem wiped_slotsRefresh (h : u.wiped c) : u.slotsRefresh.wiped c := by
  obtain ⟨attrs, tampered, cause, roots⟩ := h
  refine ⟨fun i hi => (State.rd_slotsRefresh _ (by simp only [attrA]; omega)).trans (attrs i hi), ?_, ?_, ?_⟩
  · rwa [State.tampered_slotsRefresh]
  · rwa [State.get_of_rd (State.rd_slotsRefresh _ (by decide))]
  · rwa [State.slotsRefresh_ks]

theorem wiped_ksRes (code : Nat) (h : u.wiped c) : (u.ksRes code).wiped c := by
  refine wiped_slotsRefresh (wiped_of_same (fun k hk => State.rd_puts_ne _ _ ?_) (State.puts_ks _ _ _) h)
  unfold wipedWord at hk
  simp only [List.forall_mem_cons]
  exact ⟨by omega, by omega, by omega, fun _ h => absurd h List.not_mem_nil⟩

/-- The reset of a master's port leaves the key store's page. -/
theorem rd_busReset (u : State) (m ids : Nat) (l : List (Nat × Nat)) {a : Nat} (h : a < bmB) : (u.busReset m ids l).rd a = u.rd a := by
  obtain ⟨cut, hit, e, _⟩ := u.busReset_eq m ids l
  have stable : BusStable fun w => w.rd a = u.rd a := by
    refine BusStable.of_regs (fun v w e hv => (State.rd_of_regs e a).trans hv) (fun v f x _ hv => ?_) (fun v k hv => ?_) (fun v t _ hv => ?_)
      (fun v hv => ?_)
    · rwa [State.rd_put_ne _ _ _ (by omega)]
    · rwa [State.rd_raise_ne _ _ (by omega)]
    · rwa [State.rd_put_ne _ _ _ (by omega)]
    · refine Eq.trans ?_ hv
      unfold State.busRefresh
      dsimp only
      rw [State.rd_live_ne _ _ _ (by omega)]
      refine State.rd_forAll fun m _ w => State.rd_puts_ne _ _ ?_
      simp only [List.forall_mem_cons, bmM]
      exact ⟨by omega, by omega, by omega, by omega, fun _ h => absurd h List.not_mem_nil⟩
  exact stable.resets e rfl

theorem busReset_ks (u : State) (m ids : Nat) (l : List (Nat × Nat)) : (u.busReset m ids l).ks = u.ks :=
  Part.same_of_erase (p := .ks) (s := u) (t := u.busReset m ids l) (m := 25231377) (by decide) (State.busReset_er rfl)

theorem wiped_busReset (m ids : Nat) (l : List (Nat × Nat)) (h : u.wiped c) : (u.busReset m ids l).wiped c :=
  wiped_of_same (fun k hk => rd_busReset _ _ _ _ (by simp only [ksB, bmB, gPage]; unfold wipedWord at hk; omega)) (busReset_ks _ _ _ _) h

/-- What waits for the accumulator changes nothing in a wiped store. -/
theorem wiped_runQueue (h : u.wiped c) : u.runQueue.wiped c :=
  runQueue_keeps (P := State.wiped c) (fun _ _ h => h) (fun w d final h => by rwa [State.extend_tampered h.2.1]) h

theorem flushStable_wiped (c : Nat) : FlushStable (State.wiped c) where
  stores _ _ h := h
  sets _ _ _ _ h := wiped_of_same (fun k hk => State.rd_put_ne _ _ _ (by simp only [ksB, nvB, gPage]; unfold wipedWord at hk; omega))
    (State.put_ks _ _ _ _) h
  event _ _ h := wiped_of_same (fun k hk => State.rd_raise_ne _ _ (by simp only [ksB, nvB, gPage]; unfold wipedWord at hk; omega))
    (State.raise_ks _ _ _) h
  shows _ _ _ h := wiped_of_same (fun k hk => State.rd_live_ne _ _ _ (by simp only [ksB, nvB, gPage]; unfold wipedWord at hk; omega))
    (State.live_ks _ _ _ _) h
  counts u h := by
    refine wiped_of_same (fun k hk => ?_)
      (Part.same_of_erase (p := .ks) (s := u) (t := u.cntRefresh) (m := 1) (by decide) (State.cntRefresh_er rfl)) h
    unfold wipedWord at hk
    exact rd_cntRefresh u (fun i _ => by simp only [ksB, nvB, gPage]; omega) (by simp only [ksB, nvB, gPage]; omega)
      (by simp only [ksB, nvB, gPage]; omega) (by omega) (by omega)
  marks _ _ _ h := h
  history u v h := by
    obtain ⟨attrs, tampered, cause, roots⟩ := h
    refine ⟨fun i hi => (State.rd_put_ne _ _ _ (by simp only [attrA]; omega)).trans (attrs i hi), ?_, ?_, ?_⟩
    · exact (State.is_of_rd (State.rd_put_ne _ _ _ (by decide))).trans tampered
    · rwa [State.get_put_of_apart _ _ _ _ _ rfl]
    · rwa [State.put_ks]
  ticks _ h := h

/-! Tampering. -/

/-- No slot is valid. -/
def State.emptied (s : State) : State := s.forAll (List.range 64) fun i t => t.setAttr i 0

/-- The slots and the roots are cleared. -/
def State.wipe (s : State) : State := s.emptied.modKs fun x => { x with
  masked := [], masks := [], recipes := [], kSeal := [], dDev := [], waiting := none, due := [], tamperDue := x.tamperDue || !s.emptied.tampered }

/-- The engines lose the keys of the slots. -/
def State.revoked (u : State) (slots : List Nat) : State := ({ u with mg := { u.mg with updKey := none } }).revokePorts slots

/-- The store shows that it is tampered with, and why. -/
def State.exposed (u : State) (cause : Nat) : State :=
  u.puts ksB [(F.KS_STAT_TAMPERED, 1), (F.KS_TAMPER_CAUSE, u.get ksB F.KS_TAMPER_CAUSE ||| cause)]

/-- A command in progress ends. -/
def State.cutShort (u : State) : State :=
  if u.is ksB F.KS_CMD_RES_BUSY then (u.raiseIf (u.get ksB F.CMD_OP == 4) ksB 1).ksRes kcTampered else u

/-- Debug access ends, and the masters 5 and 7 of the bus matrix are reset. -/
def State.locksOut (u : State) : State := (((u.put mgB F.MG_DBG_EN 0).live mgB 18 false).busReset 5 allIds []).busReset 7 allIds []

theorem exec_tamper (cause : Fin 32) (s : State) : ∃ slots : List Nat, exec (.tamper cause) s = .next (if cause.val = 0 then s else
    (((((s.wipe.revoked slots).exposed cause).raise ksB 4).live ksB 4 true).cutShort.locksOut.runQueue).ksFlush.slotsRefresh) := ⟨_, rfl⟩

theorem rd_emptied (s : State) {i : Nat} (hi : i < 64) : s.emptied.rd (attrA i) = 0 :=
  State.rd_forAll_wr (a := attrA) (v := fun _ => BitVec.ofNat 32 0) (fun i j h => by simp only [attrA] at h; omega) (List.mem_range.2 hi) s

theorem rd_emptied_ne (s : State) {a : Nat} (h : a < ksB + 0x200) : s.emptied.rd a = s.rd a :=
  State.rd_forAll fun i _ u => State.rd_setAttr_ne _ _ (by simp only [attrA]; omega)

theorem State.rd_wipe (s : State) (a : Nat) : s.wipe.rd a = s.emptied.rd a := by rw [State.wipe, State.rd_modKs]

theorem State.wipe_ks (s : State) : s.wipe.ks.masked = [] ∧ s.wipe.ks.kSeal = [] ∧ s.wipe.ks.dDev = [] := by
  rw [State.wipe, State.modKs_ks]
  exact ⟨rfl, rfl, rfl⟩

theorem rd_revoked (u : State) (l : List Nat) {k : Nat} (h : ksKept k) : (u.revoked l).rd (ksB + k) = u.rd (ksB + k) :=
  State.rd_revokePorts _ l h

theorem revoked_ks (u : State) (l : List Nat) : (u.revoked l).ks = u.ks := State.revokePorts_ks _ l

theorem wiped_exposed (l : List Nat) (cause : Fin 32) :
    ((s.wipe.revoked l).exposed cause).wiped (s.get ksB F.KS_TAMPER_CAUSE ||| cause.val) := by
  have same : (s.wipe.revoked l).get ksB F.KS_TAMPER_CAUSE = s.get ksB F.KS_TAMPER_CAUSE :=
    (State.get_of_rd (rd_revoked _ _ ⟨by decide, by decide, by decide, by decide⟩)).trans (State.get_of_rd ((s.rd_wipe _).trans (rd_emptied_ne s (by decide))))
  have small : s.get ksB F.KS_TAMPER_CAUSE ||| cause.val < 2 ^ 5 := Nat.or_lt_two_pow (State.get_lt _ _ _) cause.isLt
  have shown : ((s.wipe.revoked l).exposed cause).ks = s.wipe.ks := (State.puts_ks _ _ _).trans (revoked_ks _ _)
  obtain ⟨masked, kSeal, dDev⟩ := s.wipe_ks
  refine ⟨fun i hi => ?_, ?_, ?_, shown ▸ masked, shown ▸ kSeal, shown ▸ dDev⟩
  · have kept := rd_revoked s.wipe l (k := 0x200 + 8 * i) ⟨by omega, by omega, by omega, by omega⟩
    rw [← Nat.add_assoc] at kept
    rw [State.exposed, State.rd_puts_ne, kept, State.rd_wipe]
    · exact rd_emptied s hi
    · simp only [List.forall_mem_cons, attrA]
      exact ⟨by omega, by omega, fun _ h => absurd h List.not_mem_nil⟩
  · rw [State.tampered, State.is, State.exposed, State.get_puts_first _ _ _ _ _ (by decide) rfl]
    rfl
  · rw [State.exposed, State.get_puts_next _ _ _ _ _ fun u => State.get_puts_first u _ _ _ _ (by decide) rfl, same]
    exact Nat.mod_eq_of_lt small

theorem wiped_cutShort (h : u.wiped c) : u.cutShort.wiped c := by
  unfold State.cutShort
  split
  · refine wiped_ksRes _ (wiped_of_same (fun k hk => State.rd_raiseIf_ne _ _ _ ?_) (State.raiseIf_ks _ _ _ _) h)
    unfold wipedWord at hk
    omega
  · exact h

theorem wiped_locksOut (h : u.wiped c) : u.locksOut.wiped c := by
  refine wiped_busReset _ _ _ (wiped_busReset _ _ _ (wiped_of_same (fun k hk => ?_) ((State.live_ks _ _ _ _).trans (State.put_ks _ _ _ _)) h))
  unfold wipedWord at hk
  rw [State.rd_live_ne _ _ _ (by simp only [ksB, mgB, gPage]; omega), State.rd_put_ne _ _ _ (by simp only [ksB, mgB, gPage]; omega)]

theorem wiped_ksFlush (h : u.wiped c) : u.ksFlush.wiped c := (flushStable_wiped c).flushes h

theorem slotValid_of_wiped (h : u.wiped c) {i : Nat} (hi : i < 64) : u.slotValid i = false := by
  rw [State.slotValid, State.slotAttr, h.1 i hi]
  decide

theorem does_tamper {cause : Fin 32} (some : cause ≠ 0) : Does (.tamper cause) s fun t => (∀ i, i < 64 → t.slotValid i = false) ∧
    t.ks.masked = [] ∧ t.ks.kSeal = [] ∧ t.ks.dDev = [] ∧ t.tampered = true ∧
    t.get ksB F.KS_TAMPER_CAUSE = s.get ksB F.KS_TAMPER_CAUSE ||| cause.val := by
  obtain ⟨slots, run⟩ := exec_tamper cause s
  rw [if_neg (show ¬ cause.val = 0 from Fin.val_ne_of_ne some)] at run
  have wiped := wiped_slotsRefresh (wiped_ksFlush (wiped_runQueue (wiped_locksOut (wiped_cutShort (wiped_live 4 true
    (wiped_raise 4 (wiped_exposed (s := s) slots cause)))))))
  refine Does.intro run ⟨fun i hi => slotValid_of_wiped wiped hi, ?_⟩
  obtain ⟨_, tampered, shown, masked, kSeal, dDev⟩ := wiped
  exact ⟨masked, kSeal, dDev, tampered, shown⟩

end

end Sys2Proof.Machine

namespace Sys2Proof
open Sys2Proof.Machine

/-- Settles O38: each of the store's events is taken by a fact that its last operations keep: a waiting command ends calm, an invalidated
slot stays invalid through the flush, and a wiped store stays wiped through all that follows. -/
theorem keyStoreEvents : Obligations.KeyStoreEvents := by
  unfold Obligations.KeyStoreEvents
  refine ⟨?extend, ?queued, ?final, ?remask, ?noMask, ?lost, ?idle, ?waiting, ?slots, ?roots, ?tamper, ?noCause, ?startup, ?ready⟩
  case extend => exact fun d final s len idle open' untampered => does_measExtend len idle open' untampered
  case queued =>
    intro d final s busy
    have run := exec_measExtend d final s
    rw [busy, if_pos rfl] at run
    exact Does.intro run ⟨rfl, rfl⟩
  case final =>
    intro d final s idle ended
    rw [exec_measExtend, idle, if_neg Bool.false_ne_true, State.extend_final ended]
  case remask => exact fun i s random _ => does_remask random
  case noMask => exact fun s lost => congrArg Host.Outcome.next (if_pos lost)
  case lost => exact fun s => does_rngFault
  case idle => exact fun s none => does_rngRecover_idle none
  case waiting => exact fun v s waits => does_rngRecover waits
  case slots => exact fun i s => ⟨does_ksFault_value i, does_ksFault_attr i⟩
  case roots => exact fun i s untampered => does_ksFault_root i untampered
  case tamper => exact fun cause s some => does_tamper some
  case noCause => exact fun s => rfl
  case startup => exact fun s unready untampered => does_ksStartup unready untampered
  case ready =>
    intro s ready
    rw [exec_ksStartup, ready, Bool.true_or, if_pos rfl]

end Sys2Proof
end
